-- ==== Sys2Proof/Word.lean ====
section
/-! DEFINITION. The words of the LY9416: bytes, byte lists as the host and the sideband hand them over, and the
widths the manual gives its registers. Bit fields, byte order and arithmetic stand in Machine/Bits.lean. -/

namespace Sys2Proof

/-- One byte. -/
abbrev Byte := BitVec 8

/-- Bytes in ascending address order (R8). -/
abbrev Bytes := List (BitVec 8)

/-- A 64-bit register or counter. -/
abbrev Word64 := BitVec 64

/-- A 32-bit register or counter; also an FP32 or INT32 pattern. -/
abbrev Word32 := BitVec 32

end Sys2Proof
end

