-- ==== Sys2Proof/Syntax.lean ====
section
/-! DEFINITION. The commands of the LY9416 block: one constructor of Instr for each row of spec/opcode_table.json,
with the operands that the row's event brings from outside the block. Data that the block reads from host memory
(descriptors, query entries, images) are operands: what the read returned. -/

namespace Sys2Proof

/-- Outcome of a media read as the controller sees it after its retries (R43, R76, R236). -/
inductive Media where
  | ok
  /-- uncorrectable after the retries of R357 -/
  | uncorrectable
  deriving DecidableEq, Repr

/-- What a read of a read unit delivers: its outcome, and the bytes of the unit that are other than written, by offset (R43, R74). -/
structure UnitRead where
  media : Media
  diff : List (Nat × Byte) := []
  deriving DecidableEq, Repr

/-- What a read of a compact record or a rerank slot delivers: its outcome, and the bytes of DRAM codewords that arrived wrong: (64-byte block
of the read, byte of its codeword of 64 data and 4 check bytes, value) (R82, R236, R355). -/
structure DramRead where
  media : Media
  wrong : List (Nat × Nat × Byte) := []
  deriving DecidableEq, Repr

/-- A CXL.mem read: the host physical address, and the bytes of the block's codeword that arrived wrong (R236, R246, R355). -/
structure HostRead where
  hpa : Nat
  wrong : List (Nat × Byte) := []
  deriving DecidableEq, Repr

/-- A plan image as read, and the sectors of its pinned objects, by device-range address, that their fill and its rebuild could not read
(R167, R227, R236). -/
structure ImageRead where
  data : Bytes
  bad : List Nat := []
  deriving DecidableEq, Repr

/-- What a read of a bank's save area delivers: its outcome, and the rows of it that ECC corrected (R205, R206). -/
structure AreaRead where
  media : Media
  corrected : List Nat := []
  deriving DecidableEq, Repr

/-- A window of an evacuation's copy: its start, and the blocks whose copy read is uncorrectable (R229, R233). -/
structure CopyWindow where
  start : Nat
  bad : List Nat := []
  deriving DecidableEq, Repr

/-- The two masters of the dictionary (R323). -/
inductive Master where
  | host
  | sideband
  deriving DecidableEq, Repr

/-- Who issues a peg operation: PEG_OP on a queue pair, a cut's thread, or a rime request's signal (R309, R311). -/
inductive PegIssuer where
  /-- PEG_OP: queue pair and CID; the peg and operand are those of the submission entry -/
  | host (q cid : Nat)
  /-- cut code of context ctx in the thread with global number thr, naming peg and operand (R164) -/
  | thread (ctx thr peg : Nat) (operand : Word64)
  deriving DecidableEq, Repr

/-- A resource of a bay that drains on its own (R286, R297). -/
inductive Resource where
  | array (a : Nat)
  | flashChannel (c : Nat)
  | exclChannel (c : Nat)
  | slotBlocks
  | pegBlocks
  /-- DRAM share, rime share and queue pairs -/
  | shares
  | credits
  deriving DecidableEq, Repr

/-- Which host read failed (R265). -/
inductive ReadTarget where
  | entry
  | block
  | position (i : Nat)
  deriving DecidableEq, Repr

/-- Where a row of sort words or scores lies (R87, R96). -/
inductive Space where
  | cellStore
  | arrayStore
  /-- DRAM pinned for the plan, its selection scratch among it -/
  | dram
  deriving DecidableEq, Repr

/-- A place in a cell's own store, in the store of its array, or in DRAM by its device-range address. -/
structure Loc where
  space : Space
  addr : Nat
  deriving DecidableEq, Repr

/-- Mode of the encoder stage (R179). -/
inductive EncMode where
  | fit
  /-- the scale code in force -/
  | held (scale : Nat)
  deriving DecidableEq, Repr

/-- A place that cut code reaches: a cell's store, an array's store, DRAM pinned for the plan by its device-range address (R162,
R165). -/
inductive Place where
  | cell (c addr : Nat)
  | array (a addr : Nat)
  | dram (addr : Nat)
  deriving DecidableEq, Repr

/-- The optimizers of a TRAIN plan (R185). -/
inductive Optimizer where
  | sgd
  | adam
  | adamw
  deriving DecidableEq, Repr

/-- What a thread waits on after an instruction (R164). -/
inductive ThreadWait where
  | store
  | matrix
  | hamming
  | vector
  | encoder
  | peg (p : Nat)
  deriving DecidableEq, Repr

/-- Arithmetic that the private code of a cut performs, with its operands and destinations; the results are the manual's
(R141, R142, R151, R152, R156, R158, R164, R174 to R180, R182, R185 to R187). -/
inductive CutOp where
  /-- one group through the encoder stage: format code, scale code kind, group size, elements in FP32 -/
  | encodeGroup (mode : EncMode) (fmt kind g : Nat) (xs : List Word32) (dst scaleDst : Place)
  /-- conversion to B1 (R141) -/
  | toB1 (xs : List Word32) (dst : Place)
  /-- unscaled conversion between two format codes (R156) -/
  | convert (src dstFmt : Nat) (x : Word32) (dst : Place)
  /-- FP32 to BF16 with stochastic rounding by a cell's generator (R158) -/
  | srConvert (cell : Nat) (x : Word32) (dst : Place)
  /-- 16-bit decode of a grouped element list: format, scale code kind, scale word, codes (R152, R185) -/
  | decode16 (fmt kind sw : Nat) (codes : List Nat) (dst : Place)
  /-- integer path: INT32 accumulation of INT8/UINT8 products, saturating (R142, R175) -/
  | intDot (signedA signedB : Bool) (acc : Word32) (ab : List (Nat × Nat)) (dst : Place)
  /-- float path: blocks of 32 products summed once, added in ascending order (R175) -/
  | floatDot (fmtA fmtB : Nat) (ab : List (Nat × Nat)) (dst : Place)
  /-- scaled path, one group: formats, codes, scale words with their kinds (0x10000 = none), accumulator (R175, R176) -/
  | scaledGroup (fmtA kindA swA fmtB kindB swB : Nat) (acc : Word32) (ab : List (Nat × Nat)) (dst : Place)
  /-- rescale in mode MULSHIFT: entry, output format, accumulator (R178) -/
  | mulShift (entry : BitVec 128) (fmt : Nat) (a : Word32) (dst : Place)
  /-- rescale in mode TABLE: entry, output format, accumulator, whether it is INT32 (R177) -/
  | table (entry : Word64) (fmt : Nat) (x : Word32) (isInt : Bool) (dst : Place)
  /-- rescale in mode TABLE of one group for a grouped output format: an entry and an accumulator for each element (R177) -/
  | tableGroup (entries : List Word64) (xs : List Word32) (isInt : Bool) (mode : EncMode) (fmt kind g : Nat) (dst scaleDst : Place)
  /-- partial gradients added in ascending logical array number (R186) -/
  | gradSum (parts : List Word32) (dst : Place)
  /-- a reduction cut of an optimizer step counts the step's non-finite gradients (R187) -/
  | countGradients (step : Nat) (gs : List Word32)
  /-- a part of an optimizer step: SKIP_NONFINITE, the step's parameters, then gradients, first and second moments and master weights in
  FP32 (R185, R187) -/
  | optimize (o : Optimizer) (step : Nat) (skip : Bool) (params gs ms vs ws : List Word32) (mdst vdst wdst : Place)
  /-- the load engine delivers group g of row r of a weight object with its scale word (R174, R182) -/
  | loadGroup (obj r g : Nat) (dst scaleDst : Place)
  /-- lanes of a vector register written, from lane 0 on (R162) -/
  | vector (cell reg : Nat) (lanes : List (BitVec 80))
  /-- one scalar instruction of a thread: the register it writes, and what the thread waits on after it (R164) -/
  | scalar (thr reg : Nat) (v : Word64) (wait : Option ThreadWait)
  /-- what a thread waits on has ended (R164) -/
  | unitDone (thr : Nat)
  /-- a 64-bit word of a cell or array store that is read has a single-bit or a double-bit error (R356) -/
  | sramError (p : Place) (double : Bool)
  deriving DecidableEq, Repr

/-- The subject of a reserved event (R129). -/
inductive Reserved where
  | retrain (channel : Nat) (tempTriggered : Bool)
  | piece (channel die : Nat)
  deriving DecidableEq, Repr

/-- Kind of a departure entry (R231). -/
inductive DepKind where
  | temporary
  | lease (bay : Nat)
  | standby
  | retired
  deriving DecidableEq, Repr

/-- DRAM structures of an index (R361). -/
inductive IndexStruct where
  | nodeMap
  | rerankMap
  | hubLayer
  | kerfMap
  | presenceMap
  deriving DecidableEq, Repr

/-- What a margin plan sets, as MGMT's measurements call for it (R371). -/
structure MarginItems where
  /-- supply offset needed per domain, mV -/
  offsets : List (Nat × Int)
  /-- clock step per domain -/
  clocks : List (Nat × Nat)
  /-- temperature of the hottest memory package, °C -/
  hottest : Nat
  /-- read reference offsets: channel, die, reference 0 (A) to 6 (G), mV -/
  refs : List (Nat × Nat × Nat × Int)
  deriving DecidableEq, Repr

/-- Cause of a firn-merge cut-off (R63). -/
inductive CutoffCause where
  | mediaUe (channel die unit : Nat)
  | reclaim
  | contextFault
  | reset
  | powerLoss
  deriving DecidableEq, Repr

/-- IDE stream directions (R249, R393). -/
inductive StreamDir where
  | cacheTx
  | cacheRx
  | ioTx
  | ioRx
  deriving DecidableEq, Repr

/-- Comparators of the sill (R346). -/
inductive Comparator where
  | wakeA
  | temperature
  | vinDroop
  deriving DecidableEq, Repr

/-- The input of a comparator as it is read when the comparator releases: mV, or °C (R346). -/
structure InputReading where
  comparator : Comparator
  value : Nat
  deriving DecidableEq, Repr

/-- A sideband datagram: source address, UDP payload length, header, value and tag (R316). -/
structure Frame where
  peer : Nat
  len : Nat
  header : BitVec 256
  value : Bytes
  tag : BitVec 128
  deriving DecidableEq, Repr

/-- The commands, events and operations of the block, one constructor for each row of the table. -/
inductive Instr where
  -- queries and their events
  | search (q cid : Nat) (desc : BitVec 1024) (es : List Bytes)
  | encodeSearch (q cid : Nat) (desc : BitVec 1024) (es : List Bytes)
  | encode (q cid : Nat) (desc : BitVec 1024) (es : List Bytes)
  | rerank (q cid : Nat) (desc : BitVec 1024) (es : List Bytes)
  | queryWorkStart (slot : Nat)
  | scribeReadComplete (slot pair : Nat) (m : UnitRead)
  | hopComplete (slot : Nat)
  | dramRecordReadDone (slot localId : Nat) (m : DramRead)
  | driftBlockScanned (slot block cell : Nat)
  | braceRebuildDone (slot pair : Nat) (ok : Bool)
  | rerankSlotArrival (slot localId : Nat) (m : DramRead)
  | rerankDone (slot : Nat)
  | guardTime (slot : Nat)
  | batchCompletionPost (q cid : Nat)
  -- single commands
  | insert (q cid : Nat) (block : Bytes)
  | delete (q cid : Nat) (ids : List Word64)
  | journalWriteDone (q cid : Nat)
  | planRun (q cid : Nat) (desc : BitVec 1024)
  | copy (q cid : Nat) (data : Bytes) (m : Media)
  | pegSet (i : PegIssuer)
  | pegAdd (i : PegIssuer)
  | pegWaitGe (i : PegIssuer)
  | pegWaitEq (i : PegIssuer)
  | pegAcquire (i : PegIssuer)
  | pegRelease (i : PegIssuer)
  | pegWaitTimeout (q cid : Nat)
  | pegSignalRepeat (peg : Nat)
  -- admin commands
  | nsCreate (cid : Nat)
  | nsDelete (cid : Nat)
  | nsDeleteRelease (index : Nat)
  | qpCreate (cid : Nat)
  | qpDelete (cid : Nat)
  | qpDeleteComplete (qp : Nat)
  | planLoad (cid : Nat) (image : ImageRead)
  | planUnload (cid : Nat)
  | planUnloadRelease (handle : Nat)
  | bayBind (cid : Nat) (hdr : BitVec 1024) (regs : List (BitVec 128))
  | bayReclaim (cid : Nat)
  | reclaimGraceExpiry (bay : Nat)
  | resourceDrained (bay : Nat) (r : Resource)
  | reclaimComplete (bay : Nat)
  | frameZeroed (frame : Nat)
  | selfTestShort (cid : Nat)
  | selfTestExtended (cid : Nat)
  | selfTestStop (cid : Nat)
  | selfTestDone (failures : List (BitVec 512)) (items yieldNs : Nat)
  | fwStage (cid : Nat) (image : Bytes)
  | fwActivate (cid : Nat) (m0 m1 : Media)
  | logGet (cid : Nat)
  | dictRead (cid : Nat)
  | dictWrite (cid : Nat) (value : Bytes)
  | stagedObjectWrite (by_ : Master) (index sub : Nat) (value : Bytes)
  | firnMergeDrift (cid : Nat)
  | firnMergeSweep (cid : Nat)
  | firnRoundStart (index : Nat)
  | indexVersionRaise (index : Nat)
  | firnRoundCutoff (index : Nat) (cause : CutoffCause)
  | versionRelease (index version : Nat)
  | indexReplayDone (index : Nat)
  -- cuts, weights, selection, scheduling
  | cutStart (slot cut : Nat)
  | cutEnd (slot cut : Nat) (work : List CutOp)
  | weightArrival (handle obj : Nat) (m : Media)
  | sort (cell : Nat) (w : Word64) (src dst : Loc) (n : Nat)
  | select (cell : Nat) (w : Word64) (src dst : Loc) (n : Nat)
  | thresh (cell : Nat) (w : Word64) (src dst : Loc) (n : Nat) (t : Word32)
  | merge (cell : Nat) (w : Word64) (srcs : List (Loc × Nat)) (dst : Loc)
  | argmax (cell : Nat) (w : Word64) (src : Loc) (n : Nat)
  | baySliceExpiry (bay : Nat)
  | bePromotion (bay ctx : Nat)
  | promotionQuantumEnd (bay : Nat)
  | contextFault (ctx cause : Nat)
  -- rime
  | rimeRequestSubmit (slot : Option Nat) (ctx cell : Nat) (desc : BitVec 256)
  | rimeSegmentStart (bank : Nat)
  | rimeSegmentEnd (bank : Nat)
  | rimeRequestDone (bank : Nat)
  | bankRefresh (bank : Nat)
  | bankAccessDuringRime (bank : Nat)
  | nop (bank : Nat) (w : BitVec 128)
  | clr (bank : Nat) (w : BitVec 128)
  | loadq (bank : Nat) (w : BitVec 128) (m : Media) (corrected : List Nat)
  | loadr (bank : Nat) (w : BitVec 128) (m : Media) (corrected : List Nat)
  | storer (bank : Nat) (w : BitVec 128)
  | dot (bank : Nat) (w : BitVec 128) (m : Media) (corrected : List Nat)
  | maxsim (bank : Nat) (w : BitVec 128) (m : Media) (corrected : List Nat)
  | wsum (bank : Nat) (w : BitVec 128) (m : Media) (corrected : List Nat)
  | vmax (bank : Nat) (w : BitVec 128)
  | rmax (bank : Nat) (w : BitVec 128)
  | save (bank : Nat)
  | restore (bank : Nat) (m : AreaRead)
  | cmdq (bank : Nat) (w0 w1 : BitVec 128)
  | rimeCtrlClear (bank : Nat)
  | rimeCtrlAbort (bank : Nat)
  | rimeCtrlSuspend (bank : Nat)
  | rimeCtrlResume (bank : Nat)
  | rcfgWrite (channel : Nat) (value : Byte)
  -- reserved events, flash, tiers
  | reservedEventPlace (ev : Reserved) (window : Nat)
  | reservedEventForced (ev : Reserved)
  | retrainingPause (channel : Nat)
  | flashPePieceEnd (channel die : Nat)
  | flashPeFail (channel die block : Nat)
  | pageFault (bay addr : Nat) (write lc : Bool)
  | fillSectorArrival (page sector : Nat) (m : Media) (rebuilt : Bool)
  | cleanerWriteback (bay : Nat)
  | writebackDone (page group home : Nat)
  | evacuationStart (channel : Nat) (kind : DepKind)
  | pieceRelocated (src dst : Nat)
  | evacuationCopyWindow (window : CopyWindow)
  | evacuationCopyEnd
  | returnCopyEnd
  | replenishment (entry : Nat)
  | weightRebuildDone (addr : Nat) (ok : Bool)
  | indexStructureRestored (index : Nat) (st : IndexStruct)
  | mediaUnitRebuild (channel die unit : Nat) (ok : Bool)
  | dramScrubPass (set : Nat) (corrected : List (Nat × Nat))
  | flashPatrol (channel die block retries : Nat) (bitsHigh : Bool)
  | dramRowFailing (bank row : Nat) (uncorrectable : Bool)
  -- health
  | monitorSample (kind unit : Nat) (v0 v1 v2 v3 limit : Word32)
  | marginPlanBuild (trigger : Nat) (m : MarginItems)
  | marginPlanRaise
  | fatalError (cause unit : Nat) (inCxl : Bool)
  | dumpWritten
  | dumpCopied
  | mgmtCodeCheck (digest : Nat)
  | mgmtRestart
  -- queues and doorbells
  | sqTailDoorbell (fn q : Nat) (v : Word32)
  | cqHeadDoorbell (fn q : Nat) (v : Word32)
  | adminSqTail (v : Word32)
  | adminCqHead (v : Word32)
  | adminEnable (sqBase cqBase cfg : Word64)
  | adminDisable
  | submissionConsume (q : Nat) (sqe : BitVec 512)
  | msixCoalesceTimer (q : Nat)
  | hostReadFault (q cid : Nat) (t : ReadTarget)
  -- link
  | cxlMemRead (r : HostRead)
  | cxlMemWrite (hpa : Nat) (data : Bytes)
  | bisnpinv (line : Nat)
  | cxlCacheSnoop (line : Nat)
  | hdmDecoderCommit (n base size skip : Nat)
  | linkTrained (cxlMode : Bool) (width rate : Nat) (flit256 : Bool)
  | linkDown
  | vfFlr (fn : Nat)
  | pfFlr
  | hotReset
  | vfEnableClear
  | ideIntegrityFail (stream : Nat)
  | keyProg (session : Nat) (dir : StreamDir) (set : Nat) (key : BitVec 256)
  | kSetGo (session : Nat) (dir : StreamDir) (set : Nat)
  | kSetStop (session : Nat) (dir : StreamDir) (set : Nat)
  | cdatTableAccess (tableType entry : Nat)
  | getMeasurements (slot : Nat) (nonce : BitVec 256)
  | spdmEvidenceRequest (value : Bytes)
  | spdmKeyExchange
  | ptmRequest
  | ptmExchange (hostTime : Nat)
  | ptmTimeout
  | dtbForwardStep
  | dtbStepAbandon
  | getFwInfo
  | transferFw (action offset : Nat) (data : Bytes)
  | activateFw (online : Bool) (m0 m1 : Media)
  | getSupportedLogs
  | getLog (page offset len : Nat)
  | installConfigRecord (offset : Nat) (last : Bool) (data : Bytes)
  -- sideband and dictionary
  | xsdpRead (f : Frame)
  | xsdpWrite (f : Frame)
  | eventAck (f : Frame)
  | eventRetransmit (seq : Nat)
  | stageLockTake (by_ : Master)
  | stageLockRelease (by_ : Master)
  | lockLapse
  | stageDiscard (by_ : Master)
  | dryFit (by_ : Master)
  | dryFitComplete
  | raiseImmediate (by_ : Master)
  | raiseAtTime (by_ : Master) (t : Word64)
  | raiseAtIdle (by_ : Master) (limit : Word64)
  | raiseCancel (by_ : Master)
  | raiseRefit
  | dictRaise
  | raiseExpiry
  | secLock (by_ : Master)
  | errAck (by_ : Master) (entry : Word32)
  | dumpClear (by_ : Master)
  | evidenceReq (by_ : Master) (value : Bytes)
  | evidenceSign
  | fwRxLen (v : Word32)
  | fwRxData (data : Bytes)
  | fwRxVerify
  | fwRxActivateBoot (m0 m1 : Media)
  | fwRxAbort
  | cfgRxLen (v : Word32)
  | cfgRxData (data : Bytes)
  | cfgRxInstall
  | cfgRxAbort
  -- power, clocks, pins
  | domainTimerRet (n : Nat)
  | domainTimerOff (n : Nat)
  | domainEntryDone (n : Nat)
  | domainWake (n source : Nat)
  | domainWakeDone (n : Nat)
  | dtbComparator (i : Nat)
  | comparatorTrip (c : Comparator) (value : Nat)
  | comparatorRelease (r : InputReading)
  | powerCapThrottle (watts : Nat)
  | powerCapThrottleLift (watts : Nat)
  | throttleNAssert
  | throttleNRelease
  | auxPowerUp (straps : Nat)
  | auxLoss
  | pwrEnRise
  | mgmtReady
  | pwrEnFall
  | mainPowerLoss
  | perstNAssert
  | perstNRelease
  -- test access port
  | extest
  | idcode
  | samplePreload (pins : Nat)
  | highz
  | clamp
  | dbgStatus
  | bringup (dr : Option (BitVec 128))
  | mgmtDebug (halt : Bool) (addr : Nat)
  | bypass
  | pprQuery (dr : BitVec 128)
  | pprRepair (dr : BitVec 128)
  | bbtQuery (dr : BitVec 128)
  | bbtRead (dr : BitVec 128)
  | bbtMark (dr : BitVec 128)
  | loopStart (dr : BitVec 128)
  | loopStop (dr : BitVec 128)
  | bringupOpComplete (ok : Bool)
  -- further events
  | plcaStatusChange (active : Bool)
  | mainInputReturn (millivolts : Nat)
  | neighborDiscovery (target : Nat)
  | icmpv6Echo (peer : Nat) (payload : Bytes)
  | xsdpMalformedDatagram (f : Frame)
  | fullRetrainingDone (channel : Nat)
  | mgmtPllLock
  | getCertificate (slot offset len : Nat)
  | challenge (slot : Nat) (nonce : BitVec 256)
  | negotiateAlgorithms (hash aead dhe sig : Bool)
  | doeDiscovery (index : Nat)
  | vfEnableSet
  | ptmEnableWrite (on : Bool)
  | cxlCacheEnable (on : Bool)
  | cxlMemEnable (on : Bool)
  | linkLoopbackEntry (rate : Nat)
  deriving DecidableEq, Repr

end Sys2Proof
end

