-- ==== Sys2Proof/WellFormed.lean ====
section
/-! DEFINITION. Well-formed commands: every number lies in the range the manual gives it. -/

namespace Sys2Proof

/-- A queue pair number, or the admin queue (R255, R262). -/
def wfQueue (q : Nat) : Bool := q < 4096 || q == 0xFFFF
/-- A queue pair number (R255). -/
def wfQp (q : Nat) : Bool := q < 4096
/-- A command identifier (R261). -/
def wfCid (c : Nat) : Bool := c < 65536
/-- A query slot (R29). -/
def wfSlot (n : Nat) : Bool := n < 32768
/-- A cell: 160 arrays of 64 (R162). -/
def wfCell (n : Nat) : Bool := n < 10240
/-- A bay (R286). -/
def wfBay (n : Nat) : Bool := n < 64
/-- A DRAM bank, by number (R191). -/
def wfBank (n : Nat) : Bool := n < 4096
/-- A channel, DRAM or flash (R14). -/
def wfChannel (n : Nat) : Bool := n < 128
/-- A die of a flash channel (R3). -/
def wfDie (n : Nat) : Bool := n < 8
/-- An index number (R31). -/
def wfIndex (n : Nat) : Bool := n < 4096
/-- A plan handle (R168). -/
def wfHandle (n : Nat) : Bool := 1 ≤ n && n < 65536
/-- A context number (R254). -/
def wfCtx (n : Nat) : Bool := n < 4096
/-- A function (R242). -/
def wfFn (n : Nat) : Bool := n < 64
/-- The start of an admission window (R113). -/
def wfWindow (n : Nat) : Bool := n % 100000 == 0
/-- A flash group (R14). -/
def wfGroup (n : Nat) : Bool := n < 16
/-- A peg (R306). -/
def wfPeg (n : Nat) : Bool := n < 131072
/-- A local ID (R35). -/
def wfLocal (n : Nat) : Bool := n < 2 ^ 40
/-- A certificate slot (R392). -/
def wfCert (n : Nat) : Bool := n < 8
/-- A dictionary object (R321). -/
def wfObject (index sub : Nat) : Bool := index < 65536 && sub < 256
/-- A power domain (R337). -/
def wfDomain (n : Nat) : Bool := n < 196
/-- A DTB comparator (R337). -/
def wfComparator (n : Nat) : Bool := n < 16

/-- A frame descriptor (R219). -/
def wfDesc (n : Nat) : Bool := n < 4194304
/-- A page of the device range and a sector in it (R215, R221). -/
def wfPage (n : Nat) : Bool := n < 2 ^ 29
def wfSector (n : Nat) : Bool := n < 64
/-- A cut of a plan (R166). -/
def wfCut (n : Nat) : Bool := n < 1048576
/-- A key set of an IDE stream (R393). -/
def wfSet (n : Nat) : Bool := n < 2
/-- A wake source (R343). -/
def wfSource (n : Nat) : Bool := 1 ≤ n && n ≤ 9
/-- A cause of a fatal error (R376). -/
def wfFatal (n : Nat) : Bool := 1 ≤ n && n ≤ 6

/-- A global thread number: 256 threads of each cell (R164). -/
def wfThread (n : Nat) : Bool := n < 2621440

/-- A place that cut code names; an address beyond its store is the cut's fault (R162, R304). -/
def wfPlace : Place → Bool
  | .cell c _ => wfCell c
  | .array a _ => a < 160
  | .dram _ => true

/-- Elements of a group along a reduction dimension: 32, 64 or 128 (R139). -/
def wfGroupLen (n : Nat) : Bool := n == 32 || n == 64 || n == 128

/-- An operation of cut code: its places, cells, registers and threads exist; a format code has 4 bits; a group has 32, 64 or 128 elements (R138
to R140, R162, R164). -/
def wfOp : CutOp → Bool
  | .encodeGroup _ fmt kind g _ dst scaleDst => fmt < 16 && wfGroupLen g && kind < 4 && wfPlace dst && wfPlace scaleDst
  | .toB1 _ dst => wfPlace dst
  | .convert src fmt _ dst => src < 16 && fmt < 16 && wfPlace dst
  | .srConvert cell _ dst => wfCell cell && wfPlace dst
  | .decode16 fmt kind sw _ dst => fmt < 16 && kind < 4 && sw ≤ 0x10000 && wfPlace dst
  | .intDot _ _ _ _ dst => wfPlace dst
  | .floatDot a b _ dst => a < 16 && b < 16 && wfPlace dst
  | .scaledGroup fa ka sa fb kb sb _ ab dst =>
    wfGroupLen ab.length && fa < 16 && ka < 4 && sa ≤ 0x10000 && fb < 16 && kb < 4 && sb ≤ 0x10000 && wfPlace dst
  | .mulShift _ fmt _ dst => fmt < 16 && wfPlace dst
  | .table _ fmt _ _ dst => fmt < 16 && wfPlace dst
  | .tableGroup _ _ _ _ fmt kind g dst scaleDst => fmt < 16 && wfGroupLen g && kind < 4 && wfPlace dst && wfPlace scaleDst
  | .gradSum _ dst => wfPlace dst
  | .countGradients _ _ => true
  | .optimize _ _ _ _ _ _ _ _ mdst vdst wdst => wfPlace mdst && wfPlace vdst && wfPlace wdst
  | .loadGroup _ _ _ dst scaleDst => wfPlace dst && wfPlace scaleDst
  | .vector cell reg _ => wfCell cell && reg < 32
  | .scalar thr reg _ _ => wfThread thr && reg < 32
  | .unitDone thr => wfThread thr
  | .sramError p _ => wfPlace p

/-- Wrong bytes of a read of DRAM: each lies in a codeword of 64 data and 4 check bytes (R355). -/
def wfWrong (bs : List (Nat × Byte)) : Bool := bs.all (fun e => decide (e.1 < 68))

/-- Sectors of the device range (R215). -/
def wfSectors (xs : List Nat) : Bool := xs.all (fun a => a % 4096 == 0 && decide (a < 2 ^ 47))

/-- The issuer of a peg operation. -/
def wfIssuer : PegIssuer → Bool
  | .host q cid => wfQueue q && wfCid cid
  | .thread ctx thr peg _ => wfCtx ctx && wfThread thr && wfPeg peg

/-- A resource of a bay. -/
def wfResource : Resource → Bool
  | .array a => a < 160
  | .flashChannel c => wfChannel c
  | .exclChannel c => wfChannel c
  | .slotBlocks => true
  | .shares => true
  | .pegBlocks => true
  | .credits => true

/-- The subject of a reserved event. -/
def wfReserved : Reserved → Bool
  | .retrain c _ => wfChannel c
  | .piece c d => wfChannel c && wfDie d

/-- A place in a cell store, an array store or the device range (R96, R162). -/
def wfLoc (l : Loc) : Bool :=
  match l.space with
  | .cellStore => l.addr < 32768
  | .arrayStore => l.addr < 1048576
  | .dram => l.addr < 2 ^ 47

/-- Query entries of at most 64 × 1,024 bytes (R266, R268). -/
def wfEntries (es : List Bytes) : Bool := es.all (fun e => decide (e.length ≤ 65536))

/-- A departure kind. -/
def wfDepKind : DepKind → Bool
  | .lease b => wfBay b
  | .temporary => true
  | .standby => true
  | .retired => true

/-- A margin plan trigger (R370). -/
def wfTrigger (t : Nat) : Bool := 1 ≤ t && t ≤ 7

/-- Items of a margin plan (R371). -/
def wfItems (m : MarginItems) : Bool :=
  m.offsets.all (fun e => wfDomain e.1 && e.2 % 5 == 0) && m.clocks.all (fun e => e.1 < 2 && e.2 < 4) &&
  m.hottest < 256 &&
  m.refs.all (fun e => wfChannel e.1 && wfDie e.2.1 && e.2.2.1 < 7 && e.2.2.2 % 10 == 0)

/-- A cut-off cause. -/
def wfCause : CutoffCause → Bool
  | .mediaUe c d _ => wfChannel c && wfDie d
  | .reclaim => true
  | .contextFault => true
  | .reset => true
  | .powerLoss => true

/-- Every operand of a command lies in its range. -/
def Instr.wf : Instr → Bool
  | .search q cid _ es => wfQueue q && wfCid cid && wfEntries es
  | .encodeSearch q cid _ es => wfQueue q && wfCid cid && wfEntries es
  | .encode q cid _ es => wfQueue q && wfCid cid && wfEntries es
  | .rerank q cid _ es => wfQueue q && wfCid cid && wfEntries es
  | .queryWorkStart slot => wfSlot slot
  | .scribeReadComplete slot _ m => wfSlot slot && m.diff.all (fun e => decide (e.1 < 4096))
  | .hopComplete slot => wfSlot slot
  | .dramRecordReadDone slot localId m => wfSlot slot && wfLocal localId && wfWrong (m.wrong.map (fun e => e.2))
  | .driftBlockScanned slot _ cell => wfSlot slot && wfCell cell
  | .braceRebuildDone slot _ _ => wfSlot slot
  | .rerankSlotArrival slot localId m => wfSlot slot && wfLocal localId && wfWrong (m.wrong.map (fun e => e.2))
  | .rerankDone slot => wfSlot slot
  | .guardTime slot => wfSlot slot
  | .batchCompletionPost q cid => wfQueue q && wfCid cid
  | .insert q cid _ => wfQueue q && wfCid cid
  | .delete q cid _ => wfQueue q && wfCid cid
  | .journalWriteDone q cid => wfQueue q && wfCid cid
  | .planRun q cid _ => wfQueue q && wfCid cid
  | .copy q cid _ _ => wfQueue q && wfCid cid
  | .pegSet i => wfIssuer i
  | .pegAdd i => wfIssuer i
  | .pegWaitGe i => wfIssuer i
  | .pegWaitEq i => wfIssuer i
  | .pegAcquire i => wfIssuer i
  | .pegRelease i => wfIssuer i
  | .pegWaitTimeout q cid => wfQueue q && wfCid cid
  | .pegSignalRepeat peg => wfPeg peg
  | .nsCreate cid => wfCid cid
  | .nsDelete cid => wfCid cid
  | .nsDeleteRelease index => wfIndex index
  | .qpCreate cid => wfCid cid
  | .qpDelete cid => wfCid cid
  | .qpDeleteComplete qp => wfQp qp
  | .planLoad cid image => wfCid cid && wfSectors image.bad
  | .planUnload cid => wfCid cid
  | .planUnloadRelease handle => wfHandle handle
  | .bayBind cid _ _ => wfCid cid
  | .bayReclaim cid => wfCid cid
  | .reclaimGraceExpiry bay => wfBay bay
  | .resourceDrained bay r => wfBay bay && wfResource r
  | .reclaimComplete bay => wfBay bay
  | .frameZeroed frame => wfDesc frame
  | .selfTestShort cid => wfCid cid
  | .selfTestExtended cid => wfCid cid
  | .selfTestStop cid => wfCid cid
  | .selfTestDone _ _ _ => true
  | .fwStage cid _ => wfCid cid
  | .fwActivate cid _ _ => wfCid cid
  | .logGet cid => wfCid cid
  | .dictRead cid => wfCid cid
  | .dictWrite cid _ => wfCid cid
  | .stagedObjectWrite _ index sub _ => wfObject index sub
  | .firnMergeDrift cid => wfCid cid
  | .firnMergeSweep cid => wfCid cid
  | .firnRoundStart index => wfIndex index
  | .indexVersionRaise index => wfIndex index
  | .firnRoundCutoff index cause => wfIndex index && wfCause cause
  | .versionRelease index _ => wfIndex index
  | .indexReplayDone index => wfIndex index
  | .cutStart slot cut => wfSlot slot && wfCut cut
  | .cutEnd slot cut work => wfSlot slot && wfCut cut && work.all wfOp
  | .weightArrival handle _ _ => wfHandle handle
  | .sort cell _ src dst _ => wfCell cell && wfLoc src && wfLoc dst
  | .select cell _ src dst _ => wfCell cell && wfLoc src && wfLoc dst
  | .thresh cell _ src dst _ _ => wfCell cell && wfLoc src && wfLoc dst
  | .merge cell _ srcs dst => wfCell cell && srcs.all (fun e => wfLoc e.1) && wfLoc dst
  | .argmax cell _ src _ => wfCell cell && wfLoc src
  | .baySliceExpiry bay => wfBay bay
  | .bePromotion bay ctx => wfBay bay && wfCtx ctx
  | .promotionQuantumEnd bay => wfBay bay
  | .contextFault ctx _ => wfCtx ctx
  | .rimeRequestSubmit slot ctx cell _ => slot.all wfSlot && wfCtx ctx && wfCell cell
  | .rimeSegmentStart bank => wfBank bank
  | .rimeSegmentEnd bank => wfBank bank
  | .rimeRequestDone bank => wfBank bank
  | .bankRefresh bank => wfBank bank
  | .bankAccessDuringRime bank => wfBank bank
  | .nop bank _ => wfBank bank
  | .clr bank _ => wfBank bank
  | .loadq bank _ _ _ => wfBank bank
  | .loadr bank _ _ _ => wfBank bank
  | .storer bank _ => wfBank bank
  | .dot bank _ _ _ => wfBank bank
  | .maxsim bank _ _ _ => wfBank bank
  | .wsum bank _ _ _ => wfBank bank
  | .vmax bank _ => wfBank bank
  | .rmax bank _ => wfBank bank
  | .save bank => wfBank bank
  | .restore bank _ => wfBank bank
  | .cmdq bank _ _ => wfBank bank
  | .rimeCtrlClear bank => wfBank bank
  | .rimeCtrlAbort bank => wfBank bank
  | .rimeCtrlSuspend bank => wfBank bank
  | .rimeCtrlResume bank => wfBank bank
  | .rcfgWrite channel _ => wfChannel channel
  | .reservedEventPlace ev window => wfReserved ev && wfWindow window
  | .reservedEventForced ev => wfReserved ev
  | .retrainingPause channel => wfChannel channel
  | .flashPePieceEnd channel die => wfChannel channel && wfDie die
  | .flashPeFail channel die _ => wfChannel channel && wfDie die
  | .pageFault bay _ _ _ => wfBay bay
  | .fillSectorArrival page sector _ _ => wfPage page && wfSector sector
  | .cleanerWriteback bay => wfBay bay
  | .writebackDone page group _ => wfPage page && wfGroup group
  | .evacuationStart channel kind => wfChannel channel && wfDepKind kind
  | .pieceRelocated src dst => wfDesc src && wfDesc dst
  | .evacuationCopyWindow window => wfWindow window.start
  | .evacuationCopyEnd => true
  | .returnCopyEnd => true
  | .replenishment entry => 1 ≤ entry && entry ≤ 24
  | .weightRebuildDone _ _ => true
  | .indexStructureRestored index _ => wfIndex index
  | .mediaUnitRebuild channel die _ _ => wfChannel channel && wfDie die
  | .dramScrubPass set _ => set < 1024
  | .flashPatrol channel die _ _ _ => wfChannel channel && wfDie die
  | .dramRowFailing bank _ _ => wfBank bank
  | .monitorSample _ _ _ _ _ _ _ => true
  | .marginPlanBuild trigger m => wfTrigger trigger && wfItems m
  | .marginPlanRaise => true
  | .fatalError cause _ _ => wfFatal cause
  | .dumpWritten => true
  | .dumpCopied => true
  | .mgmtCodeCheck _ => true
  | .mgmtRestart => true
  | .sqTailDoorbell fn q _ => wfFn fn && wfQueue q
  | .cqHeadDoorbell fn q _ => wfFn fn && wfQueue q
  | .adminSqTail _ => true
  | .adminCqHead _ => true
  | .adminEnable _ _ _ => true
  | .adminDisable => true
  | .submissionConsume q _ => wfQueue q
  | .msixCoalesceTimer q => wfQueue q
  | .hostReadFault q cid _ => wfQueue q && wfCid cid
  | .cxlMemRead r => wfWrong r.wrong
  | .cxlMemWrite _ _ => true
  | .bisnpinv _ => true
  | .cxlCacheSnoop _ => true
  | .hdmDecoderCommit n _ _ _ => n < 4
  | .linkTrained _ _ _ _ => true
  | .linkDown => true
  | .vfFlr fn => wfFn fn
  | .pfFlr => true
  | .hotReset => true
  | .vfEnableClear => true
  | .ideIntegrityFail _ => true
  | .keyProg _ _ set _ => wfSet set
  | .kSetGo _ _ set => wfSet set
  | .kSetStop _ _ set => wfSet set
  | .cdatTableAccess _ _ => true
  | .getMeasurements slot _ => wfCert slot
  | .spdmEvidenceRequest _ => true
  | .spdmKeyExchange => true
  | .ptmRequest => true
  | .ptmExchange _ => true
  | .ptmTimeout => true
  | .dtbForwardStep => true
  | .dtbStepAbandon => true
  | .getFwInfo => true
  | .transferFw _ _ _ => true
  | .activateFw _ _ _ => true
  | .getSupportedLogs => true
  | .getLog _ _ _ => true
  | .installConfigRecord _ _ _ => true
  | .xsdpRead _ => true
  | .xsdpWrite _ => true
  | .eventAck _ => true
  | .eventRetransmit seq => seq < 65536
  | .stageLockTake _ => true
  | .stageLockRelease _ => true
  | .lockLapse => true
  | .stageDiscard _ => true
  | .dryFit _ => true
  | .dryFitComplete => true
  | .raiseImmediate _ => true
  | .raiseAtTime _ _ => true
  | .raiseAtIdle _ _ => true
  | .raiseCancel _ => true
  | .raiseRefit => true
  | .dictRaise => true
  | .raiseExpiry => true
  | .secLock _ => true
  | .errAck _ _ => true
  | .dumpClear _ => true
  | .evidenceReq _ _ => true
  | .evidenceSign => true
  | .fwRxLen _ => true
  | .fwRxData _ => true
  | .fwRxVerify => true
  | .fwRxActivateBoot _ _ => true
  | .fwRxAbort => true
  | .cfgRxLen _ => true
  | .cfgRxData _ => true
  | .cfgRxInstall => true
  | .cfgRxAbort => true
  | .domainTimerRet n => wfDomain n
  | .domainTimerOff n => wfDomain n
  | .domainEntryDone n => wfDomain n
  | .domainWake n source => wfDomain n && wfSource source
  | .domainWakeDone n => wfDomain n
  | .dtbComparator i => wfComparator i
  | .comparatorTrip _ _ => true
  | .comparatorRelease _ => true
  | .powerCapThrottle _ => true
  | .powerCapThrottleLift _ => true
  | .throttleNAssert => true
  | .throttleNRelease => true
  | .auxPowerUp straps => straps < 16
  | .auxLoss => true
  | .pwrEnRise => true
  | .mgmtReady => true
  | .pwrEnFall => true
  | .mainPowerLoss => true
  | .perstNAssert => true
  | .perstNRelease => true
  | .extest => true
  | .idcode => true
  | .samplePreload _ => true
  | .highz => true
  | .clamp => true
  | .dbgStatus => true
  | .bringup _ => true
  | .mgmtDebug _ _ => true
  | .bypass => true
  | .pprQuery _ => true
  | .pprRepair _ => true
  | .bbtQuery _ => true
  | .bbtRead _ => true
  | .bbtMark _ => true
  | .loopStart _ => true
  | .loopStop _ => true
  | .bringupOpComplete _ => true
  | .plcaStatusChange _ => true
  | .mainInputReturn _ => true
  | .neighborDiscovery _ => true
  | .icmpv6Echo _ _ => true
  | .xsdpMalformedDatagram _ => true
  | .fullRetrainingDone channel => wfChannel channel
  | .mgmtPllLock => true
  | .getCertificate slot _ _ => wfCert slot
  | .challenge slot _ => wfCert slot
  | .negotiateAlgorithms _ _ _ _ => true
  | .doeDiscovery index => index < 256
  | .vfEnableSet => true
  | .ptmEnableWrite _ => true
  | .cxlCacheEnable _ => true
  | .cxlMemEnable _ => true
  | .linkLoopbackEntry _ => true

end Sys2Proof
end

