-- ==== Sys2Proof/Machine/Bits.lean ====
section
/-! DEFINITION. Bit fields, byte order, counters, checksums and list helpers that the manual's layouts use. -/

namespace Sys2Proof.Machine

/-- Bits lo up to lo + n − 1 of a number. -/
def bitsAt (w lo n : Nat) : Nat := w / 2 ^ lo % 2 ^ n

/-- Bit i of a number. -/
def bitAt (w i : Nat) : Bool := w / 2 ^ i % 2 == 1

/-- A field of a word: n bits from bit lo. -/
def field {w : Nat} (x : BitVec w) (lo n : Nat) : Nat := bitsAt x.toNat lo n

/-- One bit of a word. -/
def flag {w : Nat} (x : BitVec w) (i : Nat) : Bool := bitAt x.toNat i

/-- A field of n bytes at byte offset off, little-endian (R8). -/
def fieldBytes {w : Nat} (x : BitVec w) (off n : Nat) : Nat := bitsAt x.toNat (8 * off) (8 * n)

/-- Two's complement reading of the low n bits. -/
def signedOf (n x : Nat) : Int :=
  let y := x % 2 ^ n
  if y < 2 ^ (n - 1) then (y : Int) else (y : Int) - (2 ^ n : Nat)

/-- The n-bit pattern of an integer. -/
def patternOf (n : Nat) (i : Int) : Nat := (i % ((2 ^ n : Nat) : Int)).toNat

/-- The number that bytes spell, first byte least significant (R8). -/
def leNat : Bytes → Nat
  | [] => 0
  | b :: bs => b.toNat + 256 * leNat bs

/-- k bytes of a number, least significant first (R8). -/
def natLe : Nat → Nat → Bytes
  | 0, _ => []
  | k + 1, n => BitVec.ofNat 8 n :: natLe k (n / 256)

/-- The number that bytes spell, first byte most significant. -/
def beNat (bs : Bytes) : Nat := leNat bs.reverse

/-- k bytes of a number, most significant first. -/
def natBe (k n : Nat) : Bytes := (natLe k n).reverse

/-- n bytes from offset off. -/
def sliceOf (bs : Bytes) (off n : Nat) : Bytes := (bs.drop off).take n

/-- The little-endian number of n bytes at offset off; bytes beyond the end read as absent. -/
def leAt (bs : Bytes) (off n : Nat) : Nat := leNat (sliceOf bs off n)

/-- Set bits among the low n bits. -/
def popCount : Nat → Nat → Nat
  | 0, _ => 0
  | n + 1, x => x % 2 + popCount n (x / 2)

/-- Positions of the set bits among the low n bits, ascending, from position p on. -/
def setBitsFrom : Nat → Nat → Nat → List Nat
  | 0, _, _ => []
  | n + 1, p, x => if x % 2 == 1 then p :: setBitsFrom n (p + 1) (x / 2) else setBitsFrom n (p + 1) (x / 2)

/-- Positions of the set bits of a word, ascending. -/
def setBits {w : Nat} (x : BitVec w) : List Nat := setBitsFrom w 0 x.toNat

/-- Quotient rounded up. -/
def ceilDiv (a b : Nat) : Nat := (a + b - 1) / b

/-- Addition into a saturating counter of n bits. -/
def satAdd (n a d : Nat) : Nat := min (a + d) (2 ^ n - 1)

/-- Addition into a counter of n bits that wraps. -/
def wrapAdd (n a d : Nat) : Nat := (a + d) % 2 ^ n

/-- One step of the reflected CRC-32C division by a byte already added in. -/
def crcBits : Nat → Nat → Nat
  | 0, c => c
  | k + 1, c => crcBits k (if c % 2 == 1 then Nat.xor (c / 2) 0x82F63B78 else c / 2)

/-- CRC-32C over bytes, from a register value. The register is matched at each byte, so that it stays a numeral when Lean's
kernel evaluates a long image; both arms say the same. -/
def crcFrom : Nat → Bytes → Nat
  | c, [] => c
  | c, b :: bs =>
    match crcBits 8 (Nat.xor c b.toNat) with
    | 0 => crcFrom 0 bs
    | d + 1 => crcFrom (d + 1) bs

/-- CRC-32C, reflected, initial value and final exclusive-or all ones (PRESUMED, log entry 16). -/
def crc32c (bs : Bytes) : Nat := Nat.xor (crcFrom 0xFFFFFFFF bs) 0xFFFFFFFF

/-- First entry of an association list with the key. -/
def lookupKey {α : Type} : List (Nat × α) → Nat → Option α
  | [], _ => none
  | (k, v) :: r, n => if k == n then some v else lookupKey r n

/-- Association list, ascending keys: the entry of a key replaced or put in its place. -/
def putKey {α : Type} : List (Nat × α) → Nat → α → List (Nat × α)
  | [], n, v => [(n, v)]
  | (k, w) :: r, n, v =>
    if n < k then (n, v) :: (k, w) :: r
    else if n == k then (n, v) :: r
    else (k, w) :: putKey r n v

/-- Association list without a key. -/
def dropKey {α : Type} (l : List (Nat × α)) (n : Nat) : List (Nat × α) := l.filter (fun e => e.1 != n)

/-- The first element that satisfies p replaced by its image. -/
def updateFirst {α : Type} (p : α → Bool) (f : α → α) : List α → List α
  | [] => []
  | x :: r => if p x then f x :: r else x :: updateFirst p f r

/-- The list without the first element that satisfies p. -/
def removeFirst {α : Type} (p : α → Bool) : List α → List α
  | [] => []
  | x :: r => if p x then r else x :: removeFirst p r

/-- A number put into an ascending list without repeats. -/
def insertAsc : Nat → List Nat → List Nat
  | n, [] => [n]
  | n, x :: r => if n < x then n :: x :: r else if n == x then x :: r else x :: insertAsc n r

/-- Numbers put into an ascending list one by one. -/
def insertAllAsc (ns xs : List Nat) : List Nat := ns.foldl (fun l n => insertAsc n l) xs

/-- Insertion of x before the first element that does not come before it. -/
def insertBy {α : Type} (before : α → α → Bool) (x : α) : List α → List α
  | [] => [x]
  | y :: r => if before y x then y :: insertBy before x r else x :: y :: r

/-- Insertion sort: elements that come earlier keep their place among equals. -/
def sortBy {α : Type} (before : α → α → Bool) : List α → List α
  | [] => []
  | x :: r => insertBy before x (sortBy before r)

/-- Whether a list has no repeats. -/
def noRepeats : List Nat → Bool
  | [] => true
  | x :: r => !r.contains x && noRepeats r

/-- Sum of a list. -/
def sumOf (l : List Nat) : Nat := l.foldl (· + ·) 0

/-- Largest element, 0 of the empty list. -/
def maxOf (l : List Nat) : Nat := l.foldl max 0

/-- The lowest number below the bound that satisfies p, from n on, with fuel. -/
def firstFrom (p : Nat → Bool) : Nat → Nat → Option Nat
  | 0, _ => none
  | k + 1, n => if p n then some n else firstFrom p k (n + 1)

/-- The lowest number below bound that satisfies p. -/
def lowestBelow (bound : Nat) (p : Nat → Bool) : Option Nat := firstFrom p bound 0

/-- Lowest number below bound not in the list; the list's length bounds the search. -/
def lowestFree (bound : Nat) (used : List Nat) : Option Nat :=
  match firstFrom (fun n => !used.contains n) (used.length + 1) 0 with
  | some n => if n < bound then some n else none
  | none => none

/-- The element at an index of a list of numbers, 0 beyond the end. -/
def nthNat (l : List Nat) (i : Nat) : Nat := l.getD i 0

/-- Split a list into pieces of n, with fuel. -/
def piecesFuel {α : Type} (n : Nat) : Nat → List α → List (List α)
  | 0, _ => []
  | _ + 1, [] => []
  | k + 1, l => l.take n :: piecesFuel n k (l.drop n)

/-- Split a list into pieces of n elements, the last shorter. -/
def piecesOf {α : Type} (n : Nat) (l : List α) : List (List α) := piecesFuel n l.length l

end Sys2Proof.Machine
end

