-- ==== Sys2Proof/Config.lean ====
section
/-! DEFINITION. What an implementation fixes and what the manual leaves open. Every opaque constant here has no body:
nothing in Lean can evaluate it, so a statement that holds, holds for every value. The log entries are named. -/

namespace Sys2Proof

/-- A value the manual leaves open, fresh at each use: applied to State.free (log entry 5). -/
opaque Config.freeValue : Nat → Word64

/-- A byte of the output of SHAKE256, a published standard the manual names and does not restate (R382, R389; log entry 6). -/
opaque Config.shakeByte : Bytes → Nat → Byte

/-- The first n bytes of the SHAKE256 output (R382). -/
def Config.shakeOut (bs : Bytes) (n : Nat) : Bytes := (List.range n).map (Config.shakeByte bs)

/-- The 64-byte SHAKE256 digest, its first byte lowest (R382). -/
def Config.shake256 (bs : Bytes) : BitVec 512 :=
  BitVec.ofNat 512 ((Config.shakeOut bs 64).foldr (fun b n => b.toNat + 256 * n) 0)

/-- KMAC256 tag of 128 bits with customisation string XSDP under a 32-byte key (R317; log entry 6). -/
opaque Config.kmacXsdp : BitVec 256 → BitVec 256 → Bytes → BitVec 128

/-- SLH-DSA-SHAKE-256s verification: public key, context label number, message, signature (R382, R394; log entry 6). -/
opaque Config.slhVerify : BitVec 512 → Nat → Bytes → Bytes → Bool

/-- SLH-DSA-SHAKE-256f signature under the device identity key: context label number, message (R391; log entry 6). -/
opaque Config.slhSign : Nat → Bytes → Bytes

/-- The digest held by the ROM for root key slot s (R394; log entry 6). -/
opaque Config.rootKeyDigest : Nat → BitVec 512

/-- The signer's public key that a configuration record's signature verifies under, by root key slot (R385; log entry 6). -/
opaque Config.rootKey : Nat → BitVec 512

/-- K_PUF, the root secret that the security block reconstructs (R383; log entry 6). -/
opaque Config.kPuf : BitVec 256

/-- SLH-DSA-SHAKE-256f key generation from SK.seed, SK.prf and PK.seed: the public key (R382, R384). -/
opaque Config.slhPublicKey : Bytes → Bytes → Bytes → BitVec 512

/-- DEVID_PK: key generation over the 96 bytes of SHAKE256("LYHEL-DEVID" ‖ K_PUF) (R384). -/
def Config.devidPk : BitVec 512 :=
  let label : Bytes := [0x4C, 0x59, 0x48, 0x45, 0x4C, 0x2D, 0x44, 0x45, 0x56, 0x49, 0x44]
  let root : Bytes := (List.range 32).map (fun i => BitVec.ofNat 8 (Config.kPuf.toNat / 256 ^ i))
  let d := Config.shakeOut (label ++ root) 96
  Config.slhPublicKey (d.take 32) ((d.drop 32).take 32) (d.drop 64)

/-- Measurement 0: the digest of the ROM, fixed at manufacture (R389; log entry 6). -/
opaque Config.romDigest : BitVec 512

/-- The bytes of the MODULE_CONFIG (1) and DEVID_CERT (2) records that the module carries as shipped (R385; log entry 6). -/
opaque Config.shippedRecord : Nat → Bytes

/-- Kuntimar's JEDEC manufacturer identity, IDCODE bits 11 to 1 (R417; log entry 7). -/
opaque Config.jedecId : BitVec 11

/-- Whether the visited set of a query reports a false positive for an unvisited local ID, given the visited IDs (R69; log entry 8). -/
opaque Config.visitedCollides : Nat → List Nat → Bool

/-- The neighbours firn merge selects for a local ID, by merge counter (R59; log entry 9). -/
opaque Config.neighbourChoice : Nat → Nat → List Nat

/-- The hubs firn merge selects, by merge counter (R45, R62; log entry 9). -/
opaque Config.hubChoice : Nat → List Nat

/-- The hub numbers that hub h is linked to, by merge counter (R45; log entry 9). -/
opaque Config.hubLinks : Nat → Nat → List Nat

/-- The distance under which an entry point of the entry-point list stands in the beam until hop 1 reads it, by query code and local ID
(R70; log entry 5). -/
opaque Config.entryDistance : Nat → Nat → Nat

/-- The search code that a plan's private encoder produces from token IDs, by the digest of the plan's image: the same for every run of
the plan (R159, R160, R268, R270; log entry 10). -/
opaque Config.encoderCode : Nat → List Nat → Nat

/-- The rerank vector (slot layout without tail) that a plan's private encoder produces (R83, R270; log entry 10). -/
opaque Config.encoderVector : Nat → List Nat → Bytes

/-- Vocabulary size and token limit of a plan, read from private parts of its image (R269; log entry 10). -/
opaque Config.planVocabulary : Bytes → Nat
opaque Config.planTokenLimit : Bytes → Nat

/-- The sequence base that the module draws at random for a peer (R318; log entry 11). -/
opaque Config.sequenceBase : Nat → BitVec 16

/-- A byte of a log page, dump section or MGMT store whose content the manual does not lay out (R378, R417; log entry 12). -/
opaque Config.unlaidByte : Nat → Nat → Byte

/-- One step of a cell's 32-bit xorshift generator, whose shift amounts the manual does not give (R158; log entry 18). -/
opaque Config.rngStep : Word32 → Word32

/-- The 16-bit value taken from a generator state (R158; log entry 18). -/
opaque Config.rngBits : Word32 → BitVec 16

/-- New first moment (0), second moment (1) or weight (2) of one optimizer step, from the optimizer (0 SGD, 1 Adam, 2 AdamW), the step's
parameters, gradient, first moment, second moment and weight: the manual names the optimizers and gives no formula or rounding (R185,
R187; log entry 33). -/
opaque Config.optimizerStep : Nat → Nat → List Word32 → Word32 → Word32 → Word32 → Word32 → Word32

/-- Reduction length of a weight object's tensor, read from private parts of the plan image (R139, R174; log entry 104). -/
opaque Config.reductionLength : Bytes → Nat → Nat

/-- Whether the reduction that uses rescale table t of an image is on the integer path: the operands of a reduction stand in the
private code of the image (R175, R178; log entry 104). -/
opaque Config.tableIntegerPath : Bytes → Nat → Bool

/-- The 4 check bytes of a 64-byte DRAM block, true for those of a poison codeword: the manual states no code (R191, R207, R208; log
entry 113). -/
opaque Config.checkBytes : Bool → Bytes → BitVec 32

/-- R224, R358: the read unit that holds a data slot of a flash group's log, as (channel within the group, die, unit); not given
(log entry 136). -/
opaque Config.slotUnit : Nat → Nat → Nat × Nat × Nat

/-- Blocks of a flash die, and read units of a block: the manual gives neither (R362, R419; log entry 37). -/
opaque Config.blocksPerDie : Nat
opaque Config.unitsPerBlock : Nat

/-- POWER_FLOOR_LC in W, from what each bay with LC work holds: arrays, flash channels, DRAM share, rime share; the manual
gives no formula (R328, R332; log entry 26). -/
opaque Config.powerFloorLc : List (Nat × Nat × Nat × Nat) → Nat

/-- Ordering codes (R1, R3). -/
inductive Order where
  | f128
  | f64
  deriving DecidableEq, Repr

/-- Flash dies per channel (R3). -/
def Order.dies : Order → Nat
  | .f128 => 8
  | .f64 => 4

/-- Maximum stored vectors per module (R3). -/
def Order.vectorLimit : Order → Nat
  | .f128 => 40000000000
  | .f64 => 20000000000

/-- Flash read slots per window and bound channel (R114). -/
def Order.readSlots : Order → Nat
  | .f128 => 84
  | .f64 => 48

/-- The code of 0x1000/3 and FN_INFO (R252, R328). -/
def Order.code : Order → Nat
  | .f128 => 1
  | .f64 => 2

/-- The DPA span C in bytes (R246). -/
def Order.dpaSpan : Order → Nat
  | .f128 => 0x680000000000
  | .f64 => 0x348000000000

/-- Usable bytes of one flash group of a new module: the typical total over 16 groups (R3, R363; log entry 15). -/
def Order.groupUsable : Order → Nat
  | .f128 => 103 * 2 ^ 40 / 16
  | .f64 => 103 * 2 ^ 39 / 16

end Sys2Proof
end

