-- ==== Sys2Proof/Machine/State.lean ====
section
/-! DEFINITION. State as plain data: every register, queue, buffer, counter, mode and pin that the manual gives the
LY9416. Each field's docstring names the rule and the width; the default value of a field is its value at reset, and
State.reset is the state of the sill just after AUX power-up, main rails off (log entries 3 and 4 for values the
manual does not give). -/

namespace Sys2Proof.Machine

/-- Time base: the sill's DTB and its PTM discipline. -/
structure TimeState where
  /-- R24: 64-bit count of nanoseconds, held as Nat; restarts from 0 at sill power-up (R26) -/
  dtb : Nat := 0
  /-- R26: boot counter, 32 bits; no first value given, DESIGN CHOICE 0 (log 4) -/
  bootCount : Word32 := 0
  /-- R24: crystal tick within the 32,768 of a second, 15 bits -/
  crystal : Nat := 0
  /-- R250: PTM enabled in the PF -/
  ptmEnabled : Bool := false
  /-- R25: DTB of the last completed exchange -/
  ptmLast : Option Nat := none
  /-- R25: offset found by the last exchange, host minus DTB, ns -/
  ptmOffset : Int := 0
  /-- R25: the next exchange is the first of the boot count or after a loss of PTM -/
  ptmFirst : Bool := true
  /-- R250: DTB of the last request issued -/
  ptmRequestAt : Option Nat := none
  /-- R250: PTM lost, no answer for 100 ms -/
  ptmLost : Bool := false
  /-- R25: nanoseconds still to be slewed in (positive) or out (negative), at most 1 in 2,000 -/
  slew : Int := 0
  /-- R25: tick within the 2,000 of one slewed nanosecond -/
  slewPhase : Nat := 0
  /-- R25: forward step waiting for an idle tick: its size and the DTB of its exchange -/
  stepDue : Option (Nat × Nat) := none
  /-- R337: the 16 DTB comparators, (index, (domain, expiry)) -/
  comparators : List (Nat × Nat × Nat) := []
  deriving DecidableEq, Repr

/-- Input and output pins and supplies (R404 to R413). -/
structure PinState where
  /-- R405: AUX present, sill running; AUX_GOOD -/
  auxGood : Bool := true
  /-- R406: PERST_N level; an open input reads asserted (0) -/
  perstN : Bool := false
  /-- R406: PWR_EN level; open reads 0 -/
  pwrEn : Bool := false
  /-- R406: THROTTLE_N level; open reads 1 -/
  throttleN : Bool := true
  /-- R408: main rails on (MAIN_GOOD of R417) -/
  mainOn : Bool := false
  /-- R408: main input within 40 V to 60 V -/
  inputInRange : Bool := true
  /-- R408: the rails went off by an input out of range and come back when it returns -/
  inputLost : Bool := false
  /-- R410: power-down sequence running -/
  poweringDown : Bool := false
  /-- R410: DTB at which the sequence began -/
  downSince : Nat := 0
  /-- R314: SLOT_ID straps, 4 bits, read at sill power-up; open straps read 1 (R406) -/
  slotId : Nat := 15
  /-- R375, R405: ALERT_N driven low -/
  alertLow : Bool := false
  /-- R377, R405: FAULT_N driven low -/
  faultLow : Bool := false
  /-- R405: MOD_READY driven high -/
  modReady : Bool := false
  /-- R405: CLKREQ_N driven low -/
  clkreqLow : Bool := false
  /-- R422: a module reset waits for the end of the dump's copy to flash -/
  resetDue : Bool := false
  deriving DecidableEq, Repr

/-- Counters of the link page of one function (R281). -/
structure LinkCounters where
  /-- R251: doorbell for a pair of another function, 64 bits -/
  dbWrongFn : Nat := 0
  /-- R258: doorbell value not below the depth, 64 bits -/
  dbBadValue : Nat := 0
  /-- R258: doorbell to an absent, deleted or stopped pair, 64 bits -/
  dbStopped : Nat := 0
  /-- R240: doorbell in the degraded state, 64 bits -/
  dbDegraded : Nat := 0
  /-- R246: window write to an unallocated page dropped, 64 bits -/
  winWriteDropped : Nat := 0
  /-- R263: waits for a completion slot, 64 bits -/
  cqSlotWaits : Nat := 0
  /-- R265: failed host reads, 64 bits -/
  hostFaults : Nat := 0
  deriving DecidableEq, Repr

/-- One HDM decoder (R246). -/
structure HdmDecoder where
  /-- R246: host physical base, multiple of 256 MiB -/
  base : Nat := 0
  /-- R246: size -/
  size : Nat := 0
  /-- R246: DPA skip -/
  skip : Nat := 0
  /-- R246: committed -/
  committed : Bool := false
  deriving DecidableEq, Repr

/-- One IDE stream direction: two key sets, the one in use (R249, R393). -/
structure IdeDir where
  /-- R393: key set 0, 256 bits -/
  key0 : Option (BitVec 256) := none
  /-- R393: key set 1, 256 bits -/
  key1 : Option (BitVec 256) := none
  /-- R393: set in use -/
  active : Option Nat := none
  deriving DecidableEq, Repr

/-- The CXL link, its functions and caches. -/
structure LinkState where
  /-- R240: link up -/
  up : Bool := false
  /-- R240: CXL mode reached -/
  cxlMode : Bool := false
  /-- R239: lanes -/
  width : Nat := 0
  /-- R239: GT/s -/
  rate : Nat := 0
  /-- R241: 256-byte flit mode -/
  flit256 : Bool := false
  /-- R240: degraded state, LINK_DEGRADED -/
  degraded : Bool := false
  /-- R241: CXL.mem enabled by the host; MEM_ON with flit256 -/
  memOn : Bool := false
  /-- R245: CXL.cache enabled, CACHE_ON -/
  cacheOn : Bool := false
  /-- R242: VF Enable set -/
  vfEnable : Bool := false
  /-- R252: READY of the PF -/
  ready : Bool := false
  /-- R246: the four decoders -/
  hdm : List (Nat × HdmDecoder) := [(0, {}), (1, {}), (2, {}), (3, {})]
  /-- R247: back-invalidate snoop filter, tracked device lines, oldest filled first, at most 262,144 -/
  snoopFilter : List Nat := []
  /-- R245: device coherency cache, host line addresses, least recently used first, at most 16 per set of 1,024 -/
  cache : List Nat := []
  /-- R249: CXL.cachemem transmit, receive, CXL.io transmit, receive -/
  ide : List (StreamDir × IdeDir) := [(.cacheTx, {}), (.cacheRx, {}), (.ioTx, {}), (.ioRx, {})]
  /-- R249: streams in Insecure state after an integrity failure -/
  ideInsecure : List Nat := []
  /-- R249: IDE_FAILS of 0x7010, 32 bits -/
  ideFails : Word32 := 0
  /-- R249: IDE_FAIL_DTB of 0x7010 -/
  ideFailDtb : Nat := 0
  /-- R249, R251: streams whose integrity failure AER holds as a fatal error -/
  aerFatal : List Nat := []
  /-- R248: sequence number of the CDAT table -/
  cdatSeq : Nat := 0
  /-- R392: secured SPDM sessions open, at most 2 -/
  sessions : List Nat := []
  /-- R392: next session number -/
  nextSession : Nat := 1
  /-- R392: algorithms negotiated -/
  negotiated : Bool := false
  /-- R281: link counters by function -/
  counters : List (Nat × LinkCounters) := []
  /-- R421: LTSSM Loopback state, as follower, at this rate -/
  loopback : Option Nat := none
  /-- R409: PERST_N released, training starts; configuration requests answered with Request Retry Status -/
  training : Bool := false
  deriving DecidableEq, Repr

/-- Phase of a consumed command. -/
inductive CmdPhase where
  /-- consumed, not yet decided (R282) -/
  | consumed
  /-- decided or started, completion still to come -/
  | running
  deriving DecidableEq, Repr

/-- A consumed submission entry without completion (R262, R263). -/
structure Cmd where
  /-- R261: CID, 16 bits -/
  cid : Nat
  /-- R261: the entry, 64 bytes -/
  sqe : BitVec 512
  /-- R109: arrival DTB -/
  arrival : Nat
  /-- R262: head after the entry was consumed -/
  sqHead : Nat
  /-- R282: decided or not -/
  phase : CmdPhase := .consumed
  /-- R262: accepted positions -/
  nacc : Nat := 0
  /-- R262: positions with a status other than ST_OK -/
  ndiff : Nat := 0
  /-- R262: RESULT to report -/
  result : Nat := 0
  /-- R262: STATUS to report -/
  status : Nat := 0
  /-- R282: sequence number of consumption in its queue, for the fence -/
  seq : Nat := 0
  /-- R224: device pages a COPY wrote into FLASH regions, still to be written back -/
  pages : List Nat := []
  /-- R341: domains woken by the command that are not yet on -/
  waits : List Nat := []
  /-- R120: flash channels of the index of an LC plan being loaded that still run a long piece -/
  pieces : List Nat := []
  /-- R119: indexes whose drift stream this batch has been charged for -/
  streamed : Bool := false
  deriving DecidableEq, Repr

/-- What the admin queue and an I/O queue pair share. -/
structure Queue where
  /-- R255, R256: submission queue base, 64 bits -/
  sqBase : Nat := 0
  /-- R255, R256: completion queue base, 64 bits -/
  cqBase : Nat := 0
  /-- R255: submission entries -/
  sqDepth : Nat := 0
  /-- R255: completion entries -/
  cqDepth : Nat := 0
  /-- R258: submission tail -/
  sqTail : Nat := 0
  /-- R262: submission head -/
  sqHead : Nat := 0
  /-- R258: completion tail -/
  cqTail : Nat := 0
  /-- R258: completion head -/
  cqHead : Nat := 0
  /-- R258: phase P of the next completion entry -/
  phase : Bool := true
  /-- R255: MSI-X vector -/
  msix : Nat := 0
  /-- R260: INT_EN -/
  intEn : Bool := false
  /-- R260: completion entries not covered by a message -/
  uncovered : Nat := 0
  /-- R260: commit DTB of the oldest uncovered entry -/
  oldest : Nat := 0
  /-- R109: doorbells, (tail, arrival DTB), oldest first -/
  marks : List (Nat × Nat) := []
  /-- R263: consumed commands without completion, oldest first -/
  cmds : List Cmd := []
  /-- R282: commands consumed so far -/
  consumed : Nat := 0
  /-- R265: a submission entry could not be read; nothing more is consumed (the I/O pairs have their own flag) -/
  halted : Bool := false
  deriving DecidableEq, Repr

/-- One I/O queue pair (R255). -/
structure QPair where
  /-- R255: number, 0 to 4,095 -/
  id : Nat
  /-- R254: context -/
  ctx : Nat
  /-- R242: bay, and number of the function -/
  bay : Nat
  /-- R107: class LC -/
  lc : Bool
  /-- R107: D_qp in ns -/
  dqp : Nat
  /-- R255: batch size B -/
  bsize : Nat
  /-- R259: stopped -/
  stopped : Bool := false
  /-- R273: QP_DELETE accepted, by the admin command of this CID -/
  deleting : Option Nat := none
  /-- R271: commands completed after the acceptance of QP_DELETE -/
  afterDelete : Nat := 0
  /-- R301: deleted by the module once its commands are complete -/
  reclaimed : Bool := false
  /-- R255: the two queues -/
  q : Queue
  deriving DecidableEq, Repr

/-- A completion that waits for the link to leave the degraded state: queue, command, STATUS, RESULT, NACC and NDIFF (R240, R262). -/
structure Deferred where
  q : Nat
  cmd : Cmd
  status : Nat
  result : Nat
  nacc : Nat
  ndiff : Nat
  deriving DecidableEq, Repr

/-- The admin queue and the I/O queue pairs. -/
structure QueueState where
  /-- R256: the admin queue -/
  admin : Queue := {}
  /-- R256: ADMIN_CFG, 64 bits; bit 63 ENABLE -/
  adminCfg : Word64 := 0
  /-- R255: queue pairs in existence -/
  pairs : List QPair := []
  /-- R240: completions of commands that ended while the link was degraded, oldest first -/
  deferred : List Deferred := []
  /-- R251: MSI-X table, (function, entry) and its 16 bytes: address, data, vector control with the mask bit; entries not listed are 0 (log entry
  88) -/
  msixTable : List ((Nat × Nat) × BitVec 128) := []
  /-- R251: MSI-X pending bits that are set: (function, entry) -/
  msixPending : List (Nat × Nat) := []
  deriving DecidableEq, Repr

/-- A context (R254). -/
structure Ctx where
  /-- R254: number, 0 to 4,095 -/
  num : Nat
  /-- R254: bay -/
  bay : Nat
  /-- R135: DTB of the last progress -/
  progress : Nat
  /-- R254: its last pair is deleted and a firn merge keeps it -/
  ending : Bool := false
  /-- R301: ended at grace expiry once its last LC query has completed -/
  reclaimed : Bool := false
  deriving DecidableEq, Repr

/-- Search parameters of a plan (R65, R169). -/
structure SearchParams where
  k : Nat := 0
  rerankDepth : Nat := 0
  maxDrift : Nat := 0
  maxReads : Nat := 0
  maxHops : Nat := 0
  hubHops : Nat := 0
  beam : Nat := 0
  beamMax : Nat := 0
  slack : Nat := 0
  metric : Nat := 0
  rime : Bool := false
  driftCells : Nat := 0
  deriving DecidableEq, Repr

/-- One entry of the admission profile (R170): flash, cell-µs, DRAM bytes, rime bank-µs. -/
structure ProfileEntry where
  flash : Nat
  cellUs : Nat
  dram : Nat
  rime : Nat
  deriving DecidableEq, Repr

/-- The admission profile (R117, R170). -/
structure Profile where
  span : Nat
  tTail : Nat
  wT : Nat
  wD : Nat
  wR : Nat
  driftCu : Nat
  driftB : Nat
  streamB : Nat
  driftFirst : Nat
  driftLast : Nat
  entries : List ProfileEntry
  deriving DecidableEq, Repr

/-- A cut descriptor (R171). -/
structure Cut where
  worstNs : Nat
  waitPeg : Nat
  signalPeg : Nat
  waitValue : Nat
  stage : Nat
  firstLa : Nat
  nLa : Nat
  weightStart : Nat
  /-- the code of the cut in the image, offset and bytes -/
  codeAddr : Nat := 0
  codeLen : Nat := 0
  deriving DecidableEq, Repr

/-- A peg binding (R172): kind, reference, initial value, and the peg allocated to a private or arrival binding. -/
structure PegBinding where
  kind : Nat
  ref : Nat
  init : Nat
  peg : Option Nat := none
  deriving DecidableEq, Repr

/-- A weight object entry (R181). -/
structure WeightObj where
  addr : Nat
  bytes : Nat
  scaleAddr : Nat
  fmt : Nat
  sck : Nat
  gs : Nat
  hint : Nat
  pin : Bool
  shared : Bool
  arrival : Nat
  lead : Nat
  /-- R139, R174: reduction length of the tensor, from the private part of the image -/
  redLen : Nat := 0
  /-- R182: arrays of each stream of this object in flight, oldest first -/
  streams : List (List Nat) := []
  /-- R182: what streams fetched into array stores: their arrays, and the tensor's bytes and scale words as they stood at the arrival -/
  fetched : List (List Nat × Bytes × Bytes) := []
  deriving DecidableEq, Repr

/-- Plan counters, 64 bits, saturating (R188). -/
structure PlanCounters where
  cutsDone : Nat := 0
  cutsAbandoned : Nat := 0
  stalls : Nat := 0
  stallNs : Nat := 0
  rescued : Nat := 0
  encSat : Nat := 0
  accSat : Nat := 0
  outSat : Nat := 0
  nan : Nat := 0
  invalidScale : Nat := 0
  stepsSkipped : Nat := 0
  deriving DecidableEq, Repr

/-- Plan kinds (R166). -/
inductive PlanKind where
  | search
  | encode
  | encodeSearch
  | rerank
  | run
  | train
  deriving DecidableEq, Repr

/-- A loaded plan (R166 to R172). -/
structure Plan where
  /-- R168: handle, 1 to 65,535 -/
  handle : Nat
  /-- R254: context -/
  ctx : Nat
  kind : PlanKind
  /-- R166: index named, none with NO_INDEX -/
  index : Option Nat
  lcOk : Bool
  flashClass : Bool
  sr : Bool
  /-- R168: logical array i is the i-th array listed -/
  arrays : List Nat
  /-- R97, R168: the scratch, a DRAM region: its first page and its pages -/
  scratch : Option (Nat × Nat) := none
  /-- R227: pages that the plan pinned, with repeats -/
  pinned : List Nat := []
  /-- R201: rime scratch sector held -/
  rimeSector : Option Nat
  params : SearchParams
  profile : Option Profile
  cuts : List Cut
  pegs : List PegBinding
  weights : List WeightObj
  counters : PlanCounters := {}
  /-- R269: token limit and vocabulary size -/
  tokenLimit : Nat := 0
  vocabulary : Nat := 0
  /-- R168: PLAN_UNLOAD accepted, by the admin command of this CID -/
  unloading : Option Nat := none
  /-- R166: offset of the cut code section, toolchain version -/
  codeOff : Nat := 0
  fepenVer : Nat := 0
  /-- R389: digest of its image -/
  digest : BitVec 512 := 0
  deriving DecidableEq, Repr

/-- A beam entry (R68): distance, local ID, expanded flag, whether the distance is exact, neighbour IDs kept (R71). -/
structure BeamEntry where
  dist : Nat
  id : Nat
  expanded : Bool := false
  exact : Bool := false
  /-- R71: the node's compact record has been read, and its neighbour IDs are kept -/
  nbrs : Option (List Nat) := none
  deriving DecidableEq, Repr

/-- A candidate as an 80-bit sort word (R87, R88). -/
structure SortWord where
  key : Word32
  id : BitVec 48
  deriving DecidableEq, Repr

/-- Work stage of a query. -/
inductive QStage where
  /-- accepted, waits for its start (R122) -/
  | waiting
  /-- encoder or run cuts execute -/
  | cuts
  /-- hub search done, traversal runs (R68) -/
  | traverse
  /-- traversal ended, drift scan or rerank runs -/
  | pool
  /-- the result header is written; the batch completion is still to come -/
  | done
  deriving DecidableEq, Repr

/-- A running cut of a query or run (R171). -/
structure RunCut where
  cut : Nat
  start : Nat
  /-- R165, R237: addresses of the weight objects whose rebuild it waits for in its body -/
  held : List Nat := []
  deriving DecidableEq, Repr

/-- An occupied query slot (R121, R122) with the working state of its query. -/
structure Query where
  /-- R29: slot, 0 to 32,767 -/
  slot : Nat
  /-- R262: queue pair and command -/
  q : Nat
  cid : Nat
  /-- R266: position in the batch -/
  pos : Nat
  bay : Nat
  ctx : Nat
  plan : Nat
  opcode : Nat
  lc : Bool
  /-- R109 -/
  arrival : Nat
  deadline : Nat
  /-- R130 -/
  guard : Nat
  /-- R122: DTB at which work begins -/
  startAt : Nat
  /-- R108, R116: DTB of the decision that accepted it -/
  decided : Nat := 0
  /-- R121: start window and the amounts held per window, (kind, window, amount) -/
  holds : List (Nat × Nat × Nat) := []
  stage : QStage := .waiting
  index : Option Nat
  /-- R58: version pinned -/
  version : Nat := 0
  /-- R52: drift range [lo, hi) -/
  driftLo : Nat := 0
  driftHi : Nat := 0
  code : Nat := 0
  filter : Option (BitVec 512) := none
  /-- R83: rerank vector, element codes then scale words -/
  vec : Bytes := []
  tokens : List Nat := []
  cands : List Nat := []
  /-- R68: beam list, ordered, and width b -/
  beam : List BeamEntry := []
  b : Nat := 0
  /-- R69: visited local IDs -/
  visited : List Nat := []
  /-- R68: candidates with exact distance that passed: (distance, local ID) -/
  found : List (Nat × Nat) := []
  hops : Nat := 0
  /-- R133: hops whose survivors were all processed -/
  hopsDone : Nat := 0
  reads : Nat := 0
  widened : Bool := false
  /-- R68: sketch threshold of the running hop -/
  threshold : Nat := 256
  /-- R73: read units outstanding, (pair, wanted local IDs) -/
  reading : List (Nat × List Nat) := []
  /-- R43: read units in rebuild, (pair, wanted local IDs) -/
  rebuilding : List (Nat × List Nat) := []
  /-- R73, R229: arrival number of the reads outstanding, and of the drift blocks -/
  ticket : Nat := 0
  scanTicket : Nat := 0
  /-- R43, R50, R86: rerank read units in rebuild -/
  rebuildUnits : List Nat := []
  /-- R43, R73: arrival number of the seven stripe reads of each unit in rebuild -/
  rebuildTickets : List (Nat × Nat) := []
  /-- R28, R285: sequence numbers of drift entries whose INSERT had not completed at the decision -/
  unseen : List Nat := []
  /-- R75: survivor words of the running hop -/
  survivors : List Word64 := []
  /-- R71: DRAM-tier records still to be read in this hop -/
  recs : List Nat := []
  /-- R71: entry points whose own records this hop reads first -/
  entryReads : List Nat := []
  /-- R71: records read in this hop -/
  got : List Nat := []
  /-- R355: of those, the ones that their read delivered other than written: (local ID, (code, neighbour IDs)) -/
  readAs : List (Nat × Nat × List Nat) := []
  /-- R72: drift blocks still to be scanned -/
  blocks : List Nat := []
  /-- R133: drift entries scanned -/
  scanned : Nat := 0
  /-- R99: partial lists by scanning cell, with EQ_DROPPED -/
  partials : List (Nat × List SortWord × Nat) := []
  /-- R99, R102: the merged union of the partial lists, Hamming words; a rerank takes its first RERANK_DEPTH -/
  pool : List SortWord := []
  /-- R81, R103: candidates after the kerf check, duplicates included -/
  candTotal : Nat := 0
  /-- R102: EQ_DROPPED records: (key of the last kept word, words dropped) -/
  eqDropped : List (Word32 × Nat) := []
  /-- R83: candidates whose slots are still to arrive -/
  slots : List SortWord := []
  /-- R82: scored candidates: score word, Hamming distance and FP32 score of each -/
  scored : List (SortWord × Nat × Word32) := []
  nanDropped : Nat := 0
  rerankShort : Bool := false
  poolReady : Bool := false
  traversalEnded : Bool := false
  /-- R85: media error, weights lost and host fault seen -/
  failed : Option Nat := none
  /-- R171: next cut, running cuts, cuts done by stage fraction f_t, f_d, f_r -/
  nextCut : Nat := 0
  /-- R165: later cuts that have started too, on arrays that no waiting cut shares -/
  ahead : List Nat := []
  running : List RunCut := []
  doneT : Nat := 0
  doneD : Nat := 0
  doneR : Nat := 0
  /-- R183: cuts that wait on their arrival pegs, each with the DTB at which its preceding cut ended: (cut, DTB) -/
  stalledSince : List (Nat × Nat) := []
  /-- R278: argument pegs by slot, seed and parameters of a run -/
  args : List (Option Nat) := []
  seed : Word32 := 0
  params : Nat := 0
  /-- R158: generator states of the cells used, (cell, state) -/
  rng : List (Nat × Word32) := []
  /-- R164: thread of its owning cell that serves it, by global number -/
  thread : Option Nat := none
  /-- R187: non-finite gradients counted by optimizer step, and the steps skipped -/
  steps : List (Nat × Nat) := []
  skippedSteps : List Nat := []
  /-- R84: STATUS written -/
  status : Nat := 0
  /-- R78: the set bitmap was changed while the query ran -/
  bitmapChanged : Bool := false
  deriving DecidableEq, Repr

/-- A node of an index version: record fields of R38 to R41, or compact record and attributes of R46, R47. -/
structure Node where
  id : Nat
  /-- R38: version in which this copy was written -/
  version : Nat
  code : Nat
  tag : BitVec 128 := 0
  numeric : Word32 := 0
  /-- R41: valid neighbour entries, in order -/
  nbrs : List Nat := []
  repaired : Bool := false
  entry : Bool := false
  hub : Bool := false
  valid : Bool := true
  deriving DecidableEq, Repr

/-- A hub (R45): local ID, code, hub numbers of its neighbours. -/
structure Hub where
  id : Nat
  code : Nat
  links : List Nat
  deriving DecidableEq, Repr

/-- Flash location of a read unit, as a leaf entry of a node map or rerank map gives it (R44). -/
structure UnitLoc where
  /-- R44: CHANNEL, 7 bits -/
  channel : Nat
  /-- R44: DIE, 3 bits -/
  die : Nat
  /-- R44: UNIT, 30 bits -/
  unit : Nat
  deriving DecidableEq, Repr

/-- A version descriptor with the graph it names (R58). -/
structure Version where
  num : Nat
  /-- R52: first sequence number not merged into the graph -/
  driftBase : Nat
  nodes : List Node := []
  hubs : List Hub := []
  entries : List Nat := []
  /-- R44: node map, by pair; a pair not listed is unmapped -/
  nodeMap : List (Nat × UnitLoc) := []
  /-- R44: place of its root, and of each leaf with an entry: (leaf, place) -/
  nodeRoot : Nat := 0
  nodeLeaves : List (Nat × Nat) := []
  /-- R50: rerank map, by rerank read unit, with the places of its root and leaves -/
  rerankMap : List (Nat × UnitLoc) := []
  rerankRoot : Nat := 0
  rerankLeaves : List (Nat × Nat) := []
  /-- R45: place of the hub layer and the hub ID table -/
  hubPlace : Nat := 0
  /-- R61: local IDs removed by the raise that ended this version, reclaimed at its release -/
  reclaim : List Nat := []
  deriving DecidableEq, Repr

/-- A drift entry with its slot in the drift rerank buffer (R50, R51). -/
structure DriftEntry where
  seq : Nat
  id : Nat
  valid : Bool := true
  tag : BitVec 128
  numeric : Word32
  code : Nat
  slot : Bytes
  deriving DecidableEq, Repr

/-- An index journal record (R55): the change, the command it belongs to, and whether it is in flash. -/
structure JRec where
  entries : List DriftEntry
  kerfs : List Nat
  /-- R61: local IDs reclaimed by the release of a version -/
  freed : List Nat := []
  /-- R352: DTB at which it was ready to be written -/
  ready : Nat := 0
  q : Nat
  cid : Nat
  durable : Bool := false
  deriving DecidableEq, Repr

/-- Creation parameters of an index (R32). -/
structure IndexParams where
  nCap : Nat
  w : Nat
  degree : Nat
  dramTier : Bool
  hubs : Nat
  groups : BitVec 16
  /-- R32: 0 UINT32, 1 INT32, 2 FP32 -/
  atype : Nat
  /-- R32: 0 NONE, 1 BELL4, 2 FP8-E4M3 -/
  rfmt : Nat
  rdim : Nat
  rgs : Nat
  rsck : Nat
  flashDirect : Bool
  driftLimit : Nat
  deriving DecidableEq, Repr

/-- A firn merge command on an index (R58, R59). -/
structure MergeState where
  cid : Nat
  ctx : Nat
  sweep : Bool
  round : Nat
  maxRounds : Nat
  /-- R59: rounds raised -/
  raised : Nat := 0
  /-- R59: the next version being built, with its snapshot tail -/
  building : Option Version := none
  /-- R59: entries merged and skipped by the running round -/
  merged : Nat := 0
  skipped : List Nat := []
  /-- R61: graph nodes dropped by a sweep -/
  dropped : List Nat := []
  /-- R59: the round's snapshot of the kerf map -/
  snapshot : List Nat := []
  /-- R62: lost pairs and lost units at the round's start -/
  lostPairs : List Nat := []
  lostAt : List (Nat × Nat × Nat) := []
  deriving DecidableEq, Repr

/-- What the flash holds of an index at its last raise (R55, R56): checkpoint of kerf and presence, drift, version. -/
structure Checkpoint where
  kerf : List Nat := []
  presence : List Nat := []
  version : Nat := 0
  tail : Nat := 0
  /-- R59: kerf map as the round that raised last took it -/
  snapshot : List Nat := []
  deriving DecidableEq, Repr

/-- The DRAM structures of an index (table Structures of one index), each in regions of the module (R44 to R51, R54). -/
inductive IndexPart where
  | nodeRoots
  | nodeLeaves
  | rerankRoots
  | rerankLeaves
  /-- compact records of tier DRAM -/
  | compact
  | attributes
  /-- hub records, then the hub ID table -/
  | hubs
  | kerfBits
  | presenceBits
  | driftList
  | driftBuffer
  /-- rerank store of placement DRAM -/
  | store
  deriving DecidableEq, Repr

/-- A region of an index: its structure, first page and pages (R44, R50). -/
structure PartRegion where
  part : IndexPart
  base : Nat
  pages : Nat
  deriving DecidableEq, Repr

/-- An index (R31). -/
structure Index where
  /-- R31: number, 0 to 4,095 -/
  num : Nat
  params : IndexParams
  /-- R58: current version, 32 bits -/
  version : Nat := 0
  /-- R58: live versions -/
  versions : List Version
  /-- R51: drift entries held, ascending sequence number -/
  drift : List DriftEntry := []
  /-- R51: next sequence number, 64 bits -/
  tail : Nat := 0
  /-- R54: local IDs with kerf bit set, ascending -/
  kerf : List Nat := []
  /-- R36: local IDs with presence bit set, ascending -/
  presence : List Nat := []
  /-- R49, R50: rerank slots on flash, (local ID, slot): the store of FLASH_DIRECT, the flash copy of placement DRAM -/
  store : List (Nat × Bytes) := []
  journal : List JRec := []
  checkpoint : Checkpoint := {}
  replaying : Bool := false
  /-- R34: NS_DELETE accepted, by the admin command of this CID -/
  deleting : Option Nat := none
  merge : Option MergeState := none
  /-- R57: 64-bit counters -/
  mergedTotal : Nat := 0
  reclaimedTotal : Nat := 0
  /-- R33, R363: bytes reserved per selected group -/
  reservePerGroup : Nat := 0
  /-- R33, R44, R50: the regions of its DRAM structures, those of one structure in the order of their creation -/
  parts : List PartRegion := []
  /-- R359: pairs of lost read units -/
  lost : List Nat := []
  deriving DecidableEq, Repr

/-- Admission counters of a bay, 64 bits each (R137, R281). -/
structure AdmCounters where
  accLc : Nat := 0
  accBe : Nat := 0
  refCapacity : Nat := 0
  refDeadline : Nat := 0
  refTier : Nat := 0
  refNsBusy : Nat := 0
  refWeightsLost : Nat := 0
  refOther : Nat := 0
  truncated : Nat := 0
  /-- R281: reads 255 until the first truncation -/
  minCompleteness : Nat := 255
  deferredStart : Nat := 0
  forcedRetrain : Nat := 0
  forcedPe : Nat := 0
  bePromotions : Nat := 0
  deriving DecidableEq, Repr

/-- Bay states (0x3100 + b, subindex 1). -/
inductive BayMode where
  | unbound
  | bound
  | reclaiming
  deriving DecidableEq, Repr

/-- A bay (R286). -/
structure Bay where
  mode : BayMode := .unbound
  arrays : List Nat := []
  flash : List Nat := []
  excl : List Nat := []
  frames : Nat := 0
  dramShare : Nat := 0
  rimeShare : Nat := 0
  slotBlocks : List Nat := []
  pegBlocks : List Nat := []
  qpairs : Nat := 0
  pegShare : BitVec 64 := 0
  park : Bool := false
  /-- R290: the BAY_BIND that bound the bay has not completed: the domains that it waits for once it awaits nothing else -/
  binding : Option (List Nat) := none
  /-- R302: park region page -/
  parkAddr : Nat := 0
  /-- R211: addresses of the exclusive regions, by channel -/
  exclAddrs : List (Nat × Nat) := []
  /-- R301: expiry DTB E of a pending reclaim, and its admin CID -/
  expiry : Option (Nat × Nat) := none
  /-- R301: the expiry has been acted on -/
  expired : Bool := false
  /-- R302: contexts saved -/
  saved : Nat := 0
  /-- R297: resources drained and left -/
  drained : List Resource := []
  /-- R298: credits held per stop and virtual channel, host read tags -/
  credits : Nat := 0
  tags : Nat := 0
  counters : AdmCounters := {}
  /-- R295: BE context holding the slice and the DTB of its end -/
  slice : Option (Nat × Nat) := none
  /-- R135: promoted context and the end of its quantum -/
  promoted : Option (Nat × Nat) := none
  /-- R135: what the promoted work has used in a window: (window, kind, amount) -/
  promotedUse : List (Nat × Nat × Nat) := []
  /-- R389: bay register, 512 bits -/
  register : BitVec 512 := 0
  deriving DecidableEq, Repr

/-- A region (R215, R291). -/
structure Region where
  base : Nat
  pages : Nat
  /-- R215: 1 DRAM, 2 FLASH, 3 BANK_LOCAL -/
  kind : Nat
  hint : Nat
  groups : BitVec 16
  /-- R291: owner bay, 0 for a region of the module; holder context; in custody -/
  bay : Nat
  ctx : Option Nat := none
  retain : Bool := false
  custody : Bool := false
  /-- R287: a region of the module itself, counted against no quota -/
  module : Bool := false
  deriving DecidableEq, Repr

/-- A BAY_BIND waiting for resources (R289). -/
structure PendingBind where
  cid : Nat
  bay : Nat
  arrays : List Nat
  flash : List Nat
  excl : List Nat
  /-- R389: digest extended at acceptance -/
  extend : Bool
  deriving DecidableEq, Repr

/-- Kind of an allocated peg (R306). -/
inductive PegKind where
  | private_
  | public_
  | notice
  deriving DecidableEq, Repr

/-- An allocated peg (R306). -/
structure Peg where
  num : Nat
  value : Word64 := 0
  bay : Nat
  ctx : Option Nat
  kind : PegKind
  holder : Option Nat := none
  broken : Bool := false
  deriving DecidableEq, Repr

/-- Kind of a pending peg wait (R309). -/
inductive WaitKind where
  | ge
  | eq
  | acquire
  deriving DecidableEq, Repr

/-- A pending PEG_OP wait (R309): request tick and requester port give the grant order (R311). -/
structure PegWait where
  q : Nat
  cid : Nat
  ctx : Nat
  peg : Nat
  kind : WaitKind
  operand : Word64
  tick : Nat
  port : Nat
  /-- R309: DTB of the limit, none without limit -/
  limit : Option Nat
  /-- R345: its signal was lost in an entry window -/
  lost : Bool := false
  deriving DecidableEq, Repr

/-- Bays, contexts, plans, regions, pegs. -/
structure BayState where
  /-- R286: the 64 bays -/
  bays : List (Nat × Bay) := []
  pendingBinds : List PendingBind := []
  regions : List Region := []
  contexts : List Ctx := []
  plans : List Plan := []
  /-- R306: pegs that are not free, ascending -/
  pegs : List Peg := []
  waits : List PegWait := []
  /-- R311: operations applied at the peg unit in its latest tick: (peg, (tick, arbitration order of the port)) -/
  pegTurns : List (Nat × Nat × Nat) := []
  /-- R373: arrays withheld from binding -/
  exhausted : List Nat := []
  /-- R164, R309, R310: results returned to threads of cuts, newest last: (context, thread, peg, (satisfied, value, broken)) -/
  threadResults : List (Nat × Nat × Nat × Bool × Word64 × Bool) := []
  deriving DecidableEq, Repr

/-- A placed reserved event or evacuation copy in a window (R114, R129). -/
structure Placed where
  window : Nat
  /-- kind of the event; none for evacuation copy bytes -/
  ev : Option Reserved
  /-- evacuation copy bytes; of an event, 1 once it has taken place -/
  bytes : Nat
  deriving DecidableEq, Repr

/-- Admission: holds, reserved tokens, occupied slots. -/
structure AdmState where
  queries : List Query := []
  /-- R73: arrivals of read requests at the scribe engines -/
  tickets : Nat := 0
  /-- R128: amounts still held in the current window by ended queries: (bay, kind, window, amount) -/
  kept : List (Nat × Nat × Nat × Nat) := []
  /-- R129: events placed in windows -/
  placed : List Placed := []
  /-- R129: events that could not yet be placed: event, start of the first window tried, start of the next one to try -/
  deferred : List (Reserved × Nat × Nat) := []
  /-- R377, R410: admission stopped in every bay -/
  stopped : Bool := false
  /-- R352: BE work held by the cap throttle -/
  capThrottle : Bool := false
  /-- R352: start DTB of the throttle episode -/
  throttleSince : Nat := 0
  /-- R352: highest POWER_NOW above the cap while the throttle held, W; 0 none -/
  capPeak : Nat := 0
  deriving DecidableEq, Repr

/-- Frame states (R221). -/
inductive FrameState where
  | free
  | fill
  | resident
  | writeback
  | dram
  | local_
  | spare
  | unavailable
  deriving DecidableEq, Repr

/-- A tier map entry (R221). -/
structure Frame_ where
  num : Nat
  state : FrameState
  /-- PAGE, 29 bits -/
  page : Nat := 0
  /-- DIRTY, bit i: sector i -/
  dirty : BitVec 64 := 0
  /-- PIN, 0 to 255 -/
  pin : Nat := 0
  /-- CLASS: 0 NORMAL, 2 KEEP, 3 DONE -/
  cls : Nat := 0
  ref : Bool := false
  poison : Bool := false
  bay : Nat := 0
  /-- HOME with HOME_VALID: group and first data slot -/
  home : Option (Nat × Nat) := none
  /-- R223: sectors of a fill that have arrived, and the sector that caused the fault, which is read first -/
  arrived : BitVec 64 := 0
  first : Nat := 0
  /-- R224: sectors captured by the running write-back -/
  captured : BitVec 64 := 0
  /-- R303: left its bay and being zeroed -/
  zeroing : Bool := false
  /-- R224: order in which the frame became dirty -/
  dirtyAt : Nat := 0
  deriving DecidableEq, Repr

/-- State of a FLASH page that is not resident (R217). -/
structure PageHome where
  page : Nat
  group : Nat
  slot : Nat
  deriving DecidableEq, Repr

/-- A leaf of the range table (R217): its segment, its leaf frame by descriptor, and its slot of the frame's eight. -/
structure Leaf where
  seg : Nat
  frame : Nat
  slot : Nat
  deriving DecidableEq, Repr

/-- A departure entry (R231). -/
structure Departure where
  channel : Nat
  kind : DepKind
  /-- R233: copy complete, channel out of the interleave -/
  out : Bool := false
  /-- R235: replenishment of slot 127 − n done -/
  replenished : Bool := false
  /-- R233, R235: windows of the replenishment's copy, and the stripes that each copies and no moved frame has taken yet -/
  copies : List (Nat × Nat) := []
  deriving DecidableEq, Repr

/-- The running evacuation or return copy (R232 to R235). -/
structure Evacuation where
  channel : Nat
  returning : Bool
  /-- R232: the moved bitmap: stripes that no announced window copies and whose bit is clear, 1,024 × frame + stripe; of the 31,457,280 rows
  every bit that neither this list nor a window still to end names is set -/
  clear : List Nat := []
  /-- R232, R233, R412: the stripes that each announced window copies, by its start; their bits are set at its end -/
  announced : List (Nat × List Nat) := []
  deriving DecidableEq, Repr

/-- A shared or plain weight object in trouble (R237), by its device-range address. -/
structure WeightHealth where
  addr : Nat
  bytes : Nat
  /-- poisoned sectors, by device-range address of the sector -/
  sectors : List Nat
  /-- of those sectors, the 64-byte blocks not rewritten yet, by device-range address -/
  blocks : List Nat := []
  lost : Bool := false
  deriving DecidableEq, Repr

/-- The device range, its tiers and channels. -/
structure TierState where
  /-- R221: entries that differ from the entry at reset of their number, ascending -/
  frames : List Frame_ := []
  /-- R232: blocks that copies found uncorrectable and wrote as poison -/
  copyBad : Nat := 0
  /-- R219: data frame sets that are bank-local -/
  localSets : List Nat := []
  /-- R217: FLASH pages in state HOME or RESIDENT with a home on flash -/
  homes : List PageHome := []
  /-- R217: the leaves of the range table, ascending segments -/
  leaves : List Leaf := []
  /-- DRAM contents: key 262,144 × descriptor + offset (R219, R191) -/
  dram : List Host.Cell := []
  /-- contents of FLASH pages at their homes, by device-range address (R224) -/
  flash : List Host.Cell := []
  /-- R224: contents that running write-backs captured, by device-range address -/
  capture : List Host.Cell := []
  /-- R236: poisoned 64-byte blocks, by key of their first byte in dram -/
  poison : List Nat := []
  /-- R236: poisoned 64-byte blocks at flash homes, by device-range address -/
  flashPoison : List Nat := []
  /-- R224, R236: those of the contents that running write-backs captured -/
  captureBad : List Nat := []
  /-- R229: bytes that BE reads had of a channel's data bus in a 10 µs interval: (channel, interval, bytes) -/
  beBus : List (Nat × Nat × Nat) := []
  /-- R209: bank-local 4 KiB sectors written since binding, by key div 4,096 -/
  written : List Nat := []
  departures : List Departure := []
  evacuation : Option Evacuation := none
  /-- R365: channels whose departure waits -/
  wanted : List (Nat × DepKind) := []
  retireBlocked : Bool := false
  /-- R366, R381: frames of failing rows to vacate when the running copy ends -/
  vacateDue : List Nat := []
  /-- R224: order counter of dirtied frames -/
  dirtyClock : Nat := 0
  /-- R224: next data slot of each group's log -/
  logHead : List (Nat × Nat) := []
  /-- R223: host accesses that wait for a fill: device-range address of the 64-byte block, data of a write -/
  fillWaits : List (Nat × Option Bytes) := []
  /-- R226: device-range sectors whose content is unspecified after a LAST read -/
  unspecified : List Nat := []
  weights : List WeightHealth := []
  deriving DecidableEq, Repr

/-- A rime unit (R190, R199). -/
structure RimeUnit where
  /-- 128 lanes of 32 bits, linear; empty list: all zero -/
  lanes : List Word32 := []
  /-- 1,024 elements of 16 bits; empty list: all zero -/
  qb : List (BitVec 16) := []
  /-- queue of at most 64 command words -/
  cmdq : List (BitVec 128) := []
  tag : Nat := 0
  err : Nat := 0
  susp : Bool := false
  /-- INT32 saturations of the request; the record reports at most 255 (R195, R198) -/
  sat : Nat := 0
  /-- rime cycles used by the request (R198) -/
  cycles : Nat := 0
  /-- row left open by the preceding command; of a unit between segments, the row that the next segment opens again -/
  openRow : Option Nat := none
  /-- R198, R202: between segments: DTB at which the segment ended, and the cycles used by then -/
  paused : Option (Nat × Nat) := none
  deriving DecidableEq, Repr

/-- A rime request (R196). -/
structure RimeReq where
  /-- R196: bank of its home piece -/
  bank : Nat
  /-- R196: query slot of the issuing thread, none where no slot applies -/
  slot : Option Nat
  ctx : Nat
  cell : Nat
  desc : BitVec 256
  /-- R193, R212: page of its home piece -/
  home : Nat := 0
  /-- R165, R196: the plan whose code issued it -/
  plan : Option Nat := none
  /-- R172, R196: the peg that SIGNAL_PEG named at submission -/
  peg : Option Nat := none
  /-- R201: the scratch sector of its plan -/
  sector : Option Nat := none
  /-- R196: the query whose slot applies: queue, CID, position, arrival -/
  job : Nat × Nat × Nat × Nat := (0, 0, 0, 0)
  /-- R196, R197: the command list as the thread wrote it -/
  list : List (BitVec 128) := []
  /-- commands still to execute once it has begun, with bank-absolute addresses (R197) -/
  cmds : List (BitVec 128) := []
  lc : Bool
  deadline : Nat
  arrival : Nat
  code : Nat := 0
  /-- R205: its registers and QB lie in the save area, the rest of its progress is held by the controller -/
  saved : Bool := false
  held : RimeUnit := {}
  deriving DecidableEq, Repr

/-- One bank with rime work (R200). -/
structure RimeBank where
  bank : Nat
  unit : RimeUnit := {}
  queue : List RimeReq := []
  /-- request on the unit -/
  current : Option RimeReq := none
  /-- DTB at which the running segment ends -/
  segment : Option Nat := none
  /-- end of the last per-bank refresh (R202) -/
  refreshed : Nat := 0
  /-- R205: BE request whose state is in the save area -/
  parked : Option RimeReq := none
  deriving DecidableEq, Repr

/-- Rime units, mode registers and journal. -/
structure RimeState where
  banks : List RimeBank := []
  /-- R199: RCFG of each channel, 8 bits, those not 0 -/
  rcfg : List (Nat × Byte) := []
  /-- R208: journal in the sill: (bank, first byte key, bytes, DTB at which the command ends) -/
  journal : List (Nat × Nat × Nat × Nat) := []
  /-- R201: rime scratch of each bay: first page of its bank-local region -/
  scratch : List (Nat × Nat) := []
  /-- R196: ready bits set, (cell, index) -/
  ready : List (Nat × Nat) := []
  /-- R206: correctable codewords met, by bank -/
  corrected : List (Nat × Nat) := []
  /-- R202: segment starts delayed for want of a slot -/
  slotWaits : Nat := 0
  deriving DecidableEq, Repr

/-- A hardware thread with its scalar registers (R164). -/
structure Thread where
  /-- 256 × global cell number + thread -/
  num : Nat
  /-- scalar registers that are not 0, ascending -/
  regs : List (Nat × Word64) := []
  /-- what it waits on -/
  wait : Option ThreadWait := none
  deriving DecidableEq, Repr

/-- The stores, registers and threads of the cells and arrays (R162, R164). -/
structure CellState where
  /-- R162: cell stores, key 32,768 × cell + address -/
  cellStore : List Host.Cell := []
  /-- R162: array stores, key 1,048,576 × array + address -/
  arrayStore : List Host.Cell := []
  /-- R93 to R102: last selection result of a cell: (cell, (count, flag)) -/
  selection : List (Nat × Nat × Bool) := []
  /-- R95: last ARGMAX result of a cell: (cell, (position, value)) -/
  argmax : List (Nat × Word32 × Word32) := []
  /-- R162: vector registers whose lanes are not all 0: (32 × cell + register, lanes from 0) -/
  vregs : List (Nat × List (BitVec 80)) := []
  /-- R164: threads that have run, ascending -/
  threads : List Thread := []
  /-- R164: the thread of a cell that issued last, (cell, thread) -/
  turns : List (Nat × Nat) := []
  deriving DecidableEq, Repr

/-- A flash die in work or with worn blocks (R120, R362). -/
structure Die where
  channel : Nat
  die : Nat
  /-- R120: DTB at which the placed or running piece starts and ends -/
  piece : Option (Nat × Nat) := none
  /-- bad blocks, those marked at manufacture, spare blocks left -/
  bad : List Nat := []
  factoryBad : List Nat := []
  spares : Nat
  retired : Bool := false
  /-- R357: logical blocks of the die that lie elsewhere than at first: (logical block, die, physical block) of its channel -/
  moved : List (Nat × Nat × Nat) := []
  /-- R357, R362: logical blocks of the die that found no spare -/
  removed : List Nat := []
  /-- R360: spare blocks that held data before and are free again; the other spares are the last blocks of the die -/
  pool : List Nat := []
  /-- R362: blocks refreshed, with boot counter and DTB -/
  refreshed : List (Nat × Nat × Nat) := []
  /-- R371: read reference offsets in force, (reference, mV) -/
  offsets : List (Nat × Int) := []
  deriving DecidableEq, Repr

/-- A DRAM bank with health history (R365). -/
structure BankHealth where
  bank : Nat
  /-- correctable codewords counted -/
  corrected : Nat := 0
  /-- reads of a row with correctable codewords: (row, DTB) -/
  rowHits : List (Nat × Nat) := []
  /-- failing rows queued for repair, each with the frames it made UNAVAILABLE -/
  failing : List (Nat × List Nat) := []
  /-- repair rows used, 0 to 4 -/
  used : Nat := 0
  /-- R418: rows repaired -/
  mended : Nat := 0
  /-- rows repaired by PPR_REPAIR since the last start -/
  repaired : List Nat := []
  deriving DecidableEq, Repr

/-- An error log entry (R374). -/
structure ErrEntry where
  dtb : Nat
  boot : Word32
  entry : Word32
  cls : Nat
  /-- 0 INFO, 1 WARNING, 2 ALERT, 3 FATAL -/
  severity : Nat
  /-- bay and context, when CTX_VALID -/
  ctx : Option (Nat × Nat)
  unit : Nat
  detail : BitVec 128
  deriving DecidableEq, Repr

/-- A moraine record (R369). -/
structure Moraine where
  dtb : Nat
  boot : Word32
  seq : Word32
  kind : Nat
  unit : Nat
  v0 : Word32
  v1 : Word32
  v2 : Word32
  v3 : Word32
  limit : Word32
  plan : Nat
  deriving DecidableEq, Repr

/-- A margin plan built and not yet raised (R370, R371). -/
structure MarginPlan where
  number : Nat
  trigger : Nat
  /-- supply offset per domain, mV -/
  offsets : List (Nat × Int)
  clocks : List (Nat × Nat)
  refresh : Nat
  refs : List (Nat × Nat × Nat × Int)
  /-- channels planned for full retraining -/
  retrain : List Nat
  deriving DecidableEq, Repr

/-- A held fatal dump (R377 to R379): header fields and the sections laid out by the manual. -/
structure Dump where
  cause : Nat
  unit : Nat
  dtb : Nat
  boot : Word32
  entry : Word32
  fw : Nat
  errors : List ErrEntry
  moraine : List Moraine
  frames : List Frame_
  pegs : List Peg
  deriving DecidableEq, Repr

/-- Stages of the fatal sequence (R377). -/
inductive FatalPhase where
  | none
  | halted
  | service
  deriving DecidableEq, Repr

/-- A running self-test (R280). -/
structure SelfTest where
  cid : Nat
  extended : Bool
  start : Nat
  stopCid : Option Nat := none
  deriving DecidableEq, Repr

/-- Health, logs, ageing and dumps. -/
structure HealthState where
  dies : List Die := []
  /-- R120: flash channels that run short pieces, as last evaluated -/
  shortChannels : List Nat := []
  banks : List BankHealth := []
  /-- R363: usable bytes of a group, those lowered under R362: (group, bytes lost) -/
  groupLost : List (Nat × Nat) := []
  /-- R363, R369, R374, R378: bytes of a group that the module's logs and its dump area hold: the rings of the error log and the moraine log and
  256 MiB for the dump, in two copies (which groups is open; log entry 139) -/
  groupUsed : List (Nat × Nat) := [(0, 336592896), (8, 336592896)]
  /-- R356: single-bit errors of SRAM words corrected -/
  sramCorrected : Nat := 0
  /-- R363: level of each group below the floor: 1, 2, 3 -/
  groupLevel : List (Nat × Nat) := []
  /-- R359: lost-unit tables: (channel, die, unit) -/
  lostUnits : List (Nat × Nat × Nat) := []
  /-- R364: frames retired for rows of a channel: (channel, frames) -/
  retiredFrames : List (Nat × List Nat) := []
  /-- R374: ring of at most 16,384 entries, oldest first -/
  errors : List ErrEntry := []
  /-- R374: number of the next entry, 32 bits; the manual gives no first number, DESIGN CHOICE 1 (log 4) -/
  nextEntry : Word32 := 1
  /-- R369: ring of at most 1,048,576 records, oldest first -/
  moraine : List Moraine := []
  nextRecord : Word32 := 0
  /-- R370: plan being built, built and not raised -/
  plan : Option MarginPlan := none
  /-- R364: PLAN_NUMBER, PLAN_DTB, PLAN_DUE -/
  planNumber : Nat := 0
  planDtb : Nat := 0
  /-- the manual gives no first PLAN_DUE: MARGIN_PERIOD after DTB 0 (log 4) -/
  planDue : Nat := 604800000000000
  /-- R371: supply offsets in force, (domain, mV) -/
  offsets : List (Nat × Int) := []
  /-- R371: clock steps in force, (domain, sixteenths below nominal) -/
  clocks : List (Nat × Nat) := []
  /-- R328: REFRESH_MULT -/
  refreshMult : Nat := 1
  fatal : FatalPhase := .none
  /-- R376, R377: cause, unit, DTB of detection and ENTRY of the fatal error in course -/
  fatalInfo : Option (Nat × Nat × Nat × Word32) := none
  /-- R378: the fatal dump held -/
  dump : Option Dump := none
  /-- R364: DUMP_STATE -/
  dumpState : Nat := 0
  selfTest : Option SelfTest := none
  /-- R360: last scrub pass of a frame set and patrol of a die -/
  scrubbed : List (Nat × Nat) := []
  /-- R376: DTBs of watchdog restarts without reaching ready -/
  restarts : List Nat := []
  deriving DecidableEq, Repr

/-- Values of writable dictionary objects and their change counters (R322 to R328). -/
structure DictEntry where
  index : Nat
  sub : Nat
  /-- none: the default of R328 -/
  value : Option Nat := none
  counter : Word32 := 0
  deriving DecidableEq, Repr

/-- States of a dry fit (0x8021/1). -/
inductive FitState where
  | notRun
  | running
  | passed
  | failed
  | stale
  deriving DecidableEq, Repr

/-- States of a raise (0x8031/1). -/
inductive RaiseState where
  | none
  | pending
  | refit
  | done
  | refitFailed
  | expired
  | cancelled
  | lost
  deriving DecidableEq, Repr

/-- Modes of a raise (R333). -/
inductive RaiseMode where
  | immediate
  | atTime (t : Nat)
  | atIdle (limit : Nat)
  deriving DecidableEq, Repr

/-- The staging lock, frame and raise (R329 to R334). -/
structure StageState where
  lock : Option Master := none
  /-- staged objects: (index, sub, size, value), in staging order -/
  frame : List (Nat × Nat × Nat × Nat) := []
  fit : FitState := .notRun
  fitRule : Nat := 0
  fitObject : Nat := 0
  fitFails : Nat := 0
  raise : RaiseState := .none
  mode : Option RaiseMode := none
  /-- R333: DTB of the request -/
  requested : Nat := 0
  /-- R333: the refit has passed -/
  refitOk : Bool := false
  raiseTick : Nat := 0
  raiseObjects : Nat := 0
  /-- R330: DTB of the holder's last write -/
  lastWrite : Nat := 0
  deriving DecidableEq, Repr

/-- The object dictionary. -/
structure DictState where
  /-- entries that differ from their default, ascending by index and subindex -/
  entries : List DictEntry := []
  /-- R326: values of Kept objects written to flash -/
  kept : List DictEntry := []
  stage : StageState := {}
  /-- R327: LOG_PAGE, LOG_SELECTOR, LOG_OFFSET of the host master -/
  logHost : Nat × Nat × Nat := (1, 0, 0)
  /-- R327: the same of the sideband master -/
  logSideband : Nat × Nat × Nat := (1, 0, 0)
  /-- R322: SEC_LOCK -/
  secLock : Bool := false
  /-- R325: sill tick (DTB div 125) of the host's last write that took effect -/
  hostTick : Option Nat := none
  /-- R325: objects that the host wrote in that tick, with the values it left -/
  hostWrote : List (Nat × Nat × Nat) := []
  deriving DecidableEq, Repr

/-- Sequence state of a sideband peer (R318). -/
structure Peer where
  addr : Nat
  /-- last accepted SEQ; none while the drawn base is awaited -/
  last : Option (BitVec 16) := none
  /-- drawn base awaited -/
  base : BitVec 16 := 0
  /-- last 16 accepted SEQs with their responses, newest first -/
  cache : List (BitVec 16 × BitVec 256 × Bytes) := []
  /-- DTB at which it was heard last -/
  heard : Nat := 0
  deriving DecidableEq, Repr

/-- A pending event frame (R319). -/
structure PendingEvent where
  seq : BitVec 16
  code : Nat
  data : Word64
  attempts : Nat
  sentAt : Nat
  deriving DecidableEq, Repr

/-- The sideband (R313 to R320). -/
structure SidebandState where
  /-- R313: PLCA status active -/
  plcaActive : Bool := false
  authFail : Word32 := 0
  seqDrop : Word32 := 0
  peers : List Peer := []
  events : List PendingEvent := []
  /-- R319: SEQ of the next event frame; the manual gives no first value, DESIGN CHOICE 0 (log 4) -/
  eventSeq : BitVec 16 := 0
  /-- R318: peers drawn so far, for a fresh base -/
  draws : Nat := 0
  deriving DecidableEq, Repr

/-- States of a power domain (R338). -/
inductive DomState where
  | on
  | retention
  | off
  | entering (target : Nat)
  | waking
  deriving DecidableEq, Repr

/-- A switched power domain (R337). -/
structure Domain where
  num : Nat
  state : DomState := .off
  /-- R347: LAST_WAKE, LAST_WAKE_DTB -/
  lastWake : Nat := 0
  lastWakeDtb : Nat := 0
  /-- R342, R343: level latches set, by source code -/
  latches : List Nat := []
  /-- R342: an edge seen after the entry window -/
  edge : Option Nat := none
  /-- R342: DTB at which the entry began -/
  entryAt : Nat := 0
  /-- R126, R348: the wake in progress began from off -/
  fromOff : Bool := false
  /-- R339: DTB at which the current idle period began, the idle timer's start -/
  idleSince : Option Nat := none
  /-- R340: depth that the expired timer asks for and that the domain cannot enter yet: 0 none, 1 retention, 2 off -/
  due : Nat := 0
  deriving DecidableEq, Repr

/-- Power domains, throttles, comparators, clocks. -/
structure PowerState where
  /-- R337: domains whose record differs from the one at reset (off, never woken) -/
  domains : List Domain := []
  /-- R328: POWER_NOW in W -/
  powerNow : Nat := 0
  /-- R346: comparators tripped -/
  tripped : List Comparator := []
  /-- R353: THROTTLE_N asserted, VIN droop tripped since this DTB -/
  throttleNSince : Nat := 0
  vinSince : Nat := 0
  /-- R135, R352: BE work held since this DTB, by any cause -/
  heldSince : Option Nat := none
  /-- R351: MGMT runs on its PLL, not on the ring oscillator -/
  mgmtPll : Bool := false
  /-- R258, R343: doorbell latch set, with its DTB -/
  doorbellLatch : Option Nat := none
  /-- R346: comparator trips that MGMT has still to log: comparator number and measured value -/
  toLog : List (Nat × Nat) := []
  /-- R218, R349: tier map entries and pegs as FAB last saved them in segment 0 -/
  fabSave : Option (List Frame_ × List Peg) := none
  deriving DecidableEq, Repr

/-- A configuration record in flash (R385). -/
structure CfgRecord where
  type : Nat
  seq : Nat
  serial : BitVec 128
  slot : Nat
  payload : Bytes
  signature : Bytes
  header : BitVec 512
  deriving DecidableEq, Repr

/-- A firmware image, as far as the module reads it (R394). -/
structure FwImage where
  version : Nat
  svn : Nat
  floor : Nat
  /-- measurement 1: SHAKE256 of header and body -/
  digest : BitVec 512
  /-- digest of the code region recorded when the image was loaded (R390) -/
  code : Nat := 0
  /-- R394: root key slot of the signer -/
  keySlot : Nat := 0
  /-- R394: the image's bytes; none for the shipped image, whose bytes the manual does not give -/
  bytes : Option Bytes := none
  deriving DecidableEq, Repr

/-- Use of the staging area (R396, R401, R402). -/
inductive Staging where
  | empty
  /-- mailbox transfer in progress -/
  | mailbox (bytes : Bytes)
  /-- FW_RX transfer: length, bytes so far -/
  | fwRx (len : Nat) (bytes : Bytes)
  /-- CFG_RX transfer -/
  | cfgRx (len : Nat) (bytes : Bytes)
  /-- mailbox record transfer -/
  | cfgMailbox (bytes : Bytes)
  /-- a verified image -/
  | image (i : FwImage)
  /-- R279: what the FW_STAGE with this CID has read, under verification -/
  | verifying (cid : Nat) (bytes : Bytes)
  deriving DecidableEq, Repr

/-- The anti-rollback record in force (R398). -/
structure ArbRecord where
  counter : Nat := 1
  boot : Word32 := 0
  fw : Nat := 0x30000
  svnFloor : Nat := 0
  revoked : BitVec 4 := 0
  deriving DecidableEq, Repr

/-- An evidence request waiting (R391). -/
structure EvidenceReq where
  by_ : Master
  nonce : BitVec 256
  bay : Option Nat
  /-- R392: it came as the vendor-defined SPDM request -/
  spdm : Bool := false
  deriving DecidableEq, Repr

/-- An evidence block (R391): header and measurements, with the signature's message. -/
structure Evidence where
  header : BitVec 1024
  meas : List (Nat × BitVec 512)
  signature : Bytes
  deriving DecidableEq, Repr

/-- Identity, firmware, records, attestation. -/
structure SecState where
  /-- R1, R3: ordering code; both exist, DESIGN CHOICE F128 at reset (log 4) -/
  order : Order := .f128
  /-- R328: hardware level and stepping -/
  hwLevel : Nat := 0x43
  stepping : Nat := 0xA2
  /-- R328: serial number, 16 bytes; not given, DESIGN CHOICE 0 (log 4) -/
  serial : BitVec 128 := 0
  /-- R388: the two image copies in flash, groups 0 and 8; none: not valid -/
  copy0 : Option FwImage := some { version := 0x30000, svn := 0, floor := 0, digest := 0 }
  copy1 : Option FwImage := some { version := 0x30000, svn := 0, floor := 0, digest := 0 }
  /-- R399: the image booted, copied to segment 0 -/
  booted : Option FwImage := none
  staging : Staging := .empty
  /-- R402: FW_RX_STATE, CFG_RX_STATE, FW_RX_LEN, CFG_RX_LEN -/
  fwRxState : Nat := 0
  cfgRxState : Nat := 0
  fwRxLen : Word32 := 0
  cfgRxLen : Word32 := 0
  /-- R402: FW_PENDING -/
  pending : Nat := 0
  /-- R401: an image activated and running from the next reset -/
  activated : Option FwImage := none
  arb : Option ArbRecord := some {}
  /-- R385: records in flash -/
  records : List CfgRecord := []
  /-- R385, R386: records in force since the last boot, in TYPE order -/
  inForce : List CfgRecord := []
  /-- R386: a valid MODULE_CONFIG and DEVID_CERT are in force, as shipped -/
  configValid : Bool := true
  /-- R383: K_PUF can be reconstructed -/
  pufOk : Bool := true
  /-- R400: BOOT_STATE -/
  bootState : Nat := 0
  /-- R400: boots in a row that did not reach ready -/
  failedBoots : Nat := 0
  /-- R252: MGMT ready -/
  mgmtReady : Bool := false
  /-- R385, R417: DEBUG_UNLOCK level in force -/
  debugLevel : Nat := 0
  /-- R389: measurements 0 to 3 -/
  measRom : BitVec 512 := 0
  measImage : BitVec 512 := 0
  measArb : BitVec 512 := 0
  measRecords : BitVec 512 := 0
  /-- R391: requests waiting, and the last block of each master -/
  evidence : List EvidenceReq := []
  evidenceHost : Option Evidence := none
  evidenceSideband : Option Evidence := none
  /-- R370: first boot after an activation -/
  activatedBoot : Bool := false
  deriving DecidableEq, Repr

/-- The test access port (R417 to R421). -/
structure TapState where
  /-- instruction register, 8 bits; BYPASS at Test-Logic-Reset (IEEE 1149.1; log 4) -/
  ir : Nat := 0xFF
  /-- instruction that acts -/
  acting : Nat := 0xFF
  blocked : Bool := false
  /-- R418: BRINGUP data register -/
  dr : BitVec 128 := 0
  /-- R418: operation running -/
  op : Option (BitVec 128) := none
  /-- boundary register, as a number -/
  boundary : Nat := 0
  /-- outputs driven from the boundary register, or in high impedance -/
  driven : Bool := false
  highZ : Bool := false
  /-- MGMT cores halted by MGMT_DEBUG -/
  halted : Bool := false
  /-- R420: channels on which blocks were marked in this assertion of PERST_N -/
  marked : List Nat := []
  /-- R421: loopback kind, unit, start DTB -/
  loop : Option (Nat × Nat × Nat) := none
  /-- data register captured for the last shift -/
  captured : BitVec 128 := 0
  deriving DecidableEq, Repr

/-- What leaves the block: posted writes, messages, frames, in order, newest last. -/
inductive Out where
  /-- a completion entry committed to the link: queue, slot, entry (R262) -/
  | completion (q slot : Nat) (entry : BitVec 256)
  /-- a result header: queue, CID, position, host address, header (R84) -/
  | header (q cid pos addr : Nat) (hdr : BitVec 256)
  /-- result entries of a position, best first, from a host address on (R84) -/
  | entries (q cid pos addr : Nat) (es : List (BitVec 128))
  /-- the region of an ENCODE position: host address of its code, code, host address of its rerank vector, vector (R270) -/
  | encoded (q cid pos addr code vecAddr : Nat) (vec : Bytes)
  /-- an MSI-X message: function, vector (R260) -/
  | msix (fn vector : Nat)
  /-- bytes written to a host buffer at PTR0 or PTR1 (R281, R323, R277, R380) -/
  | hostWrite (q cid : Nat) (data : Bytes)
  /-- a sideband frame sent: destination, header, value, tag (R316) -/
  | frame (dest : Nat) (header : BitVec 256) (value : Bytes) (tag : BitVec 128)
  /-- data returned to a host read, with the CXL poison indication (R246) -/
  | memData (data : Bytes) (poison : Bool)
  /-- a BISnpInv for a device line (R247) -/
  | bisnp (line : Nat)
  /-- an IDE integrity failure of a stream reported through AER as fatal (R249) -/
  | aerFatal (stream : Nat)
  /-- a PTM request (R250) -/
  | ptmRequest
  /-- an answer of the DOE mailbox, as numbers (R239, R248, R392) -/
  | doe (code : Nat) (data : Bytes)
  /-- an answer of the primary mailbox: opcode, return code (0 success, 1 busy, 2 unsupported, 3 ST status), data (R401) -/
  | mailbox (opcode ret : Nat) (data : Bytes)
  /-- a Neighbor Discovery or echo answer on the sideband (R315) -/
  | netReply (dest : Nat) (data : Bytes)
  /-- a rime completion record and lanes written to a store (R198) -/
  | rimeRecord (cell addr : Nat) (record : Word64) (lanes : List Word32)
  /-- an access answered by the dictionary to a master: index, sub, status, change counter (R323) -/
  | dictAnswer (by_ : Master) (index sub status : Nat) (counter : Word32)
  deriving DecidableEq, Repr

/-- The whole block. -/
structure State where
  /-- the model's own: commands that wait, first in first out -/
  pending : List Instr := []
  /-- the model's own: counter that supplies fresh free values (log 5) -/
  free : Nat := 0
  /-- the model's own: what has left the block, oldest first -/
  out : List Out := []
  time : TimeState := {}
  pins : PinState := {}
  link : LinkState := {}
  queues : QueueState := {}
  indexes : List Index := []
  bay : BayState := {}
  adm : AdmState := {}
  tier : TierState := {}
  rime : RimeState := {}
  cells : CellState := {}
  health : HealthState := {}
  dict : DictState := {}
  sb : SidebandState := {}
  power : PowerState := {}
  sec : SecState := {}
  tap : TapState := {}
  deriving DecidableEq, Repr

/-- The block has no exception and no wild access: nothing in this model faults. The one constructor is the fault a
memory key outside the 2^40 bytes of DRAM would be; no meaning raises it (safe). -/
inductive Fault where
  /-- raised by nobody: device addresses are checked before any memory key is formed (safe) -/
  | badKey
  deriving DecidableEq, Repr

/-- Why a command has no next state. -/
inductive Refusal where
  /-- raised by Dispatch for a row that has no meaning yet (safe) -/
  | notModelled (mnemonic : String)
  deriving DecidableEq, Repr

/-- Bay 0 as R287 gives it by default: arrays 150 to 159, 262,144 frames, shares 16, 8 slot and 8 peg blocks, 64 pairs;
it holds its notice peg, the lowest of its lowest block (R300). -/
def bay0Default : Bay :=
  { mode := .bound, arrays := [150, 151, 152, 153, 154, 155, 156, 157, 158, 159], frames := 262144,
    dramShare := 16, rimeShare := 16, slotBlocks := [0, 1, 2, 3, 4, 5, 6, 7], pegBlocks := [0, 1, 2, 3, 4, 5, 6, 7],
    qpairs := 64, credits := 76, tags := 288 }

/-- The state just after AUX power-up: sill running, DTB 0, main rails off, every switched domain off, bay 0 with its
default resources, no index, context, plan, queue pair or frame taken. -/
def State.reset : State :=
  { bay := { bays := [(0, bay0Default)],
             pegs := [{ num := 0, bay := 0, ctx := none, kind := .notice }] } }

end Sys2Proof.Machine
end

