-- ==== Sys2Proof/Machine/Ops.lean ====
section
/-! DEFINITION. Named operations over the state: byte stores in canonical form, time, outputs, and the finding and
replacing of queues, queries, plans, indexes, bays, frames and the other records of the state. -/

namespace Sys2Proof.Machine

open Sys2Proof

/-! Byte stores: lists of (address, byte), addresses strictly rising, no entry equal to 0. -/

/-- One byte; an unlisted address reads 0 (R215, R209; log entry 17). -/
def memRead : List Host.Cell → Nat → Byte
  | [], _ => 0
  | (k, b) :: r, a => if k == a then b else memRead r a

/-- One byte written; writing 0 removes the entry. -/
def memWrite : List Host.Cell → Nat → Byte → List Host.Cell
  | [], a, b => if b == 0 then [] else [(a, b)]
  | (k, c) :: r, a, b =>
    if a < k then (if b == 0 then (k, c) :: r else (a, b) :: (k, c) :: r)
    else if a == k then (if b == 0 then r else (a, b) :: r)
    else (k, c) :: memWrite r a b

/-- Bytes written from an address on, ascending. -/
def memWriteBytes : List Host.Cell → Nat → Bytes → List Host.Cell
  | m, _, [] => m
  | m, a, b :: bs => memWriteBytes (memWrite m a b) (a + 1) bs

/-- n bytes from an address on. -/
def memReadBytes (m : List Host.Cell) : Nat → Nat → Bytes
  | _, 0 => []
  | a, n + 1 => memRead m a :: memReadBytes m (a + 1) n

/-- n bytes from an address on cleared. -/
def memClear (m : List Host.Cell) (a n : Nat) : List Host.Cell := m.filter (fun e => e.1 < a || a + n ≤ e.1)

/-- The entries of n bytes from an address on. -/
def memPart (m : List Host.Cell) (a n : Nat) : List Host.Cell := m.filter (fun e => a ≤ e.1 && e.1 < a + n)

/-- Entries written with their addresses moved from one base to another. -/
def memPut (m : List Host.Cell) (src dst : Nat) (es : List Host.Cell) : List Host.Cell :=
  es.foldl (fun acc e => memWrite acc (e.1 - src + dst) e.2) m

/-- n bytes copied from address src of one store to address dst of another. -/
def memCopy (srcMem dstMem : List Host.Cell) (src dst n : Nat) : List Host.Cell :=
  memPut (memClear dstMem dst n) src dst (memPart srcMem src n)

/-- The little-endian number of n bytes at an address (R8). -/
def memLe (m : List Host.Cell) (a n : Nat) : Nat := leNat (memReadBytes m a n)

/-- The canonical form of a byte store. -/
def memWf : List Host.Cell → Bool
  | [] => true
  | [e] => e.2 != 0
  | e :: f :: r => e.2 != 0 && decide (e.1 < f.1) && memWf (f :: r)

/-! Time (R24). -/

/-- DTB now. -/
def now (s : State) : Nat := s.time.dtb

/-- The DTB moved forward to an instant that an event names; never backward (R25). -/
def advanceTo (s : State) (t : Nat) : State := { s with time := { s.time with dtb := max s.time.dtb t } }

/-- Start of the 100 µs admission window that holds an instant (R113). -/
def windowOf (t : Nat) : Nat := t / 100000 * 100000

/-- PTM_SYNC (R25). -/
def ptmSync (s : State) : Bool :=
  s.time.ptmEnabled &&
  (match s.time.ptmLast with
   | some t => decide (now s ≤ t + 100000000)
   | none => false) &&
  decide (s.time.ptmOffset ≤ 1000000) && decide (-1000000 ≤ s.time.ptmOffset)

/-! Outputs and free values. -/

/-- Something leaves the block. -/
def emit (s : State) (o : Out) : State := { s with out := s.out ++ [o] }

/-- A fresh free value, and the state with the counter advanced (log entry 5). -/
def freshValue (s : State) : Word64 := Config.freeValue s.free

/-- The counter of free values advanced. -/
def bumpFree (s : State) : State := { s with free := s.free + 1 }

/-! Queues (R255, R256); the admin queue has number 0xFFFF, as in completion entries (R262). -/

/-- Number that names the admin queue. -/
def adminQ : Nat := 0xFFFF

/-- The I/O queue pair of a number. -/
def pairOf (s : State) (q : Nat) : Option QPair := s.queues.pairs.find? (fun p => p.id == q)

/-- The queue of a number. -/
def queueOf (s : State) (q : Nat) : Option Queue :=
  if q == adminQ then some s.queues.admin else (pairOf s q).map (fun p => p.q)

/-- An I/O queue pair replaced by its image. -/
def updPair (s : State) (q : Nat) (f : QPair → QPair) : State :=
  { s with queues := { s.queues with pairs := updateFirst (fun p => p.id == q) f s.queues.pairs } }

/-- A queue replaced by its image. -/
def updQueue (s : State) (q : Nat) (f : Queue → Queue) : State :=
  if q == adminQ then { s with queues := { s.queues with admin := f s.queues.admin } }
  else updPair s q (fun p => { p with q := f p.q })

/-- The oldest consumed command of a queue with a CID that runs (R262). -/
def runningCmd (s : State) (q cid : Nat) : Option Cmd :=
  match queueOf s q with
  | some u => u.cmds.find? (fun c => c.cid == cid && c.phase == .running)
  | none => none

/-- A running command replaced by its image. -/
def updCmd (s : State) (q cid : Nat) (f : Cmd → Cmd) : State :=
  updQueue s q (fun u => { u with cmds := updateFirst (fun c => c.cid == cid && c.phase == .running) f u.cmds })

/-- Bay of a queue: its function's number; the admin queue is served by the PF (R242, R256). -/
def bayOfQueue (s : State) (q : Nat) : Nat :=
  match pairOf s q with
  | some p => p.bay
  | none => 0

/-- Context of a queue pair. -/
def ctxOfQueue (s : State) (q : Nat) : Nat :=
  match pairOf s q with
  | some p => p.ctx
  | none => 0

/-! Bays, contexts, plans, regions, pegs. -/

/-- A bay by number; an unbound bay holds nothing. -/
def bayAt (s : State) (b : Nat) : Bay := (lookupKey s.bay.bays b).getD {}

/-- A bay put in place. -/
def setBay (s : State) (b : Nat) (v : Bay) : State :=
  { s with bay := { s.bay with bays := putKey s.bay.bays b v } }

/-- A bay replaced by its image. -/
def updBay (s : State) (b : Nat) (f : Bay → Bay) : State := setBay s b (f (bayAt s b))

/-- The admission counters of a bay changed (R137). -/
def updCounters (s : State) (b : Nat) (f : AdmCounters → AdmCounters) : State :=
  updBay s b (fun v => { v with counters := f v.counters })

/-- A bound bay: bound from the acceptance of its BAY_BIND, a bay being reclaimed included (R299). -/
def bayBound (s : State) (b : Nat) : Bool := (bayAt s b).mode != .unbound

/-- A bay under reclaim (R299). -/
def bayReclaiming (s : State) (b : Nat) : Bool := (bayAt s b).mode == .reclaiming

/-- The context of a number. -/
def ctxAt (s : State) (c : Nat) : Option Ctx := s.bay.contexts.find? (fun x => x.num == c)

/-- A context replaced by its image. -/
def updCtx (s : State) (c : Nat) (f : Ctx → Ctx) : State :=
  { s with bay := { s.bay with contexts := updateFirst (fun x => x.num == c) f s.bay.contexts } }

/-- The plan of a handle. -/
def planAt (s : State) (h : Nat) : Option Plan := s.bay.plans.find? (fun p => p.handle == h)

/-- A plan replaced by its image. -/
def updPlan (s : State) (h : Nat) (f : Plan → Plan) : State :=
  { s with bay := { s.bay with plans := updateFirst (fun p => p.handle == h) f s.bay.plans } }

/-- Bay of a context; 0 when there is none. -/
def bayOfCtx (s : State) (c : Nat) : Nat :=
  match ctxAt s c with
  | some x => x.bay
  | none => 0

/-- The peg of a number, when it is not free (R306). -/
def pegAt (s : State) (p : Nat) : Option Peg := s.bay.pegs.find? (fun x => x.num == p)

/-- A peg replaced by its image. -/
def updPeg (s : State) (p : Nat) (f : Peg → Peg) : State :=
  { s with bay := { s.bay with pegs := updateFirst (fun x => x.num == p) f s.bay.pegs } }

/-- A peg put among those that are not free, ascending. -/
def addPeg (s : State) (p : Peg) : State :=
  { s with bay := { s.bay with pegs := insertBy (fun a b => decide (a.num < b.num)) p s.bay.pegs } }

/-- The region that holds a page (R215). -/
def regionOfPage (s : State) (page : Nat) : Option Region :=
  s.bay.regions.find? (fun r => r.base ≤ page && page < r.base + r.pages)

/-! Queries. -/

/-- The query in a slot. -/
def queryAt (s : State) (slot : Nat) : Option Query := s.adm.queries.find? (fun x => x.slot == slot)

/-- The query in a slot replaced by its image. -/
def updQuery (s : State) (slot : Nat) (f : Query → Query) : State :=
  { s with adm := { s.adm with queries := updateFirst (fun x => x.slot == slot) f s.adm.queries } }

/-! Indexes. -/

/-- The index of a number. -/
def indexAt (s : State) (n : Nat) : Option Index := s.indexes.find? (fun x => x.num == n)

/-- An index replaced by its image. -/
def updIndex (s : State) (n : Nat) (f : Index → Index) : State :=
  { s with indexes := updateFirst (fun x => x.num == n) f s.indexes }

/-- A version of an index. -/
def versionAt (x : Index) (v : Nat) : Option Version := x.versions.find? (fun y => y.num == v)

/-! Tier map (R219 to R221). -/

/-- Descriptor numbers from here on name the pieces of exclusive channels: 2^22 + 4,096 × frame + bank (R211; the model's
own numbering, log entry 28). -/
def exclDesc : Nat := 4194304

/-- The tier map entry of a descriptor at reset: system sets unavailable; slot 127 of an interleaved set spare;
frame set 0 backs segment 0 (R218, R219); all others free. -/
def frameReset (localSets : List Nat) (d : Nat) : Frame_ :=
  let f := d / 4096
  let x := d % 4096
  if 960 ≤ f then { num := d, state := .unavailable }
  else if localSets.contains f then { num := d, state := .free }
  else if x % 128 == 127 then { num := d, state := .spare }
  else if f == 0 then { num := d, state := .dram, page := 127 * (x / 128) + x % 128 }
  else { num := d, state := .free }

/-- The tier map entry of a descriptor. -/
def frameAt (s : State) (d : Nat) : Frame_ :=
  (s.tier.frames.find? (fun e => e.num == d)).getD (frameReset s.tier.localSets d)

/-- Tier map entries, ascending: one put in place. -/
def putFrame : List Frame_ → Frame_ → List Frame_
  | [], e => [e]
  | x :: r, e =>
    if e.num < x.num then e :: x :: r
    else if e.num == x.num then e :: r
    else x :: putFrame r e

/-- A tier map entry put in place; one equal to its reset entry is not listed. -/
def setFrame (s : State) (e : Frame_) : State :=
  let rest := s.tier.frames.filter (fun x => x.num != e.num)
  if e == frameReset s.tier.localSets e.num then { s with tier := { s.tier with frames := rest } }
  else { s with tier := { s.tier with frames := putFrame rest e } }

/-- Ascending entries put among ascending entries. -/
def mergeFrames : List Frame_ → List Frame_ → List Frame_
  | [], es => es
  | x :: r, es =>
    let low := es.filter (fun e => e.num < x.num)
    let high := es.filter (fun e => x.num < e.num)
    match es.find? (fun e => e.num == x.num) with
    | some e => low ++ e :: mergeFrames r high
    | none => low ++ x :: mergeFrames r high

/-- Entries that name no reset entry, ascending, put in place. -/
def setFrames (s : State) (es : List Frame_) : State := { s with tier := { s.tier with frames := mergeFrames s.tier.frames es } }

/-- A tier map entry replaced by its image. -/
def updFrame (s : State) (d : Nat) (f : Frame_ → Frame_) : State := setFrame s (f (frameAt s d))

/-- The frame that holds a page: FILL, RESIDENT, WRITEBACK, DRAM or LOCAL, not one that left its bay (R221). -/
def frameOfPage (s : State) (page : Nat) : Option Frame_ :=
  s.tier.frames.find? (fun e => e.page == page && !e.zeroing &&
    (e.state == .fill || e.state == .resident || e.state == .writeback || e.state == .dram || e.state == .local_))

/-- Number of data descriptors of the interleaved sets and the local sets that are free at reset: 959 interleaved
sets of 4,064 frames, and 32 more in each set turned bank-local (R219). -/
def resetFree (s : State) : Nat := 959 * 4064 + 32 * s.tier.localSets.length

/-- FREE data frames, FREE_FRAMES of 0x4003 (R228). -/
def freeFrames (s : State) : Nat :=
  let lost := (s.tier.frames.filter (fun e => e.state != .free && (frameReset s.tier.localSets e.num).state == .free)).length
  let won := (s.tier.frames.filter (fun e => e.state == .free && (frameReset s.tier.localSets e.num).state != .free)).length
  resetFree s + won - lost

/-- The link counters of a function changed (R281). -/
def updLinkCounters (s : State) (fn : Nat) (f : LinkCounters → LinkCounters) : State :=
  { s with link := { s.link with
      counters := putKey s.link.counters fn (f ((lookupKey s.link.counters fn).getD {})) } }

/-! Power, boot and service. -/

/-- A power domain by number (R337). -/
def domainAt (s : State) (n : Nat) : Domain :=
  (s.power.domains.find? (fun d => d.num == n)).getD { num := n }

/-- A power domain put in place. -/
def setDomain (s : State) (d : Domain) : State :=
  { s with power := { s.power with
      domains := insertBy (fun a b => decide (a.num < b.num)) d (s.power.domains.filter (fun x => x.num != d.num)) } }

/-- MGMT's firmware executes: its domain is on, it is ready and not halted through the TAP (R23, R417). -/
def mgmtAwake (s : State) : Bool := s.sec.mgmtReady && (domainAt s 0).state == .on && !s.tap.halted

/-- MGMT serves requests: ready, not halted, and not off, restarting or waking. In retention, or on its way there, it is woken for
the request, which the sill keeps meanwhile (R23, R320, R345, R417; log entry 93). -/
def mgmtServes (s : State) : Bool :=
  s.sec.mgmtReady && !s.tap.halted &&
  (match (domainAt s 0).state with
   | .on | .retention => true
   | .entering t => t == 1
   | .off | .waking => false)

/-- BE work is held: by the power cap, by THROTTLE_N, or while the VIN droop comparator is tripped (R352, R353). -/
def beHeld (s : State) : Bool := s.adm.capThrottle || !s.pins.throttleN || s.power.tripped.contains .vinDroop

/-! Dictionary values (R322 to R328). -/

/-- The dictionary record of an object. -/
def dictEntry (s : State) (i j : Nat) : Option DictEntry :=
  s.dict.entries.find? (fun e => e.index == i && e.sub == j)

/-- The value of a writable object in force, or its default. -/
def dictValue (s : State) (i j dflt : Nat) : Nat :=
  match dictEntry s i j with
  | some e => e.value.getD dflt
  | none => dflt

/-- Dictionary records, ascending by index and subindex: one put in place. -/
def putEntry : List DictEntry → DictEntry → List DictEntry
  | [], e => [e]
  | x :: r, e =>
    if e.index < x.index || (e.index == x.index && e.sub < x.sub) then e :: x :: r
    else if e.index == x.index && e.sub == x.sub then e :: r
    else x :: putEntry r e

/-- A value takes effect: it becomes current and the change counter grows by 1, modulo 2^32 (R324). -/
def setDict (s : State) (i j v : Nat) : State :=
  let e := (dictEntry s i j).getD { index := i, sub := j }
  { s with dict := { s.dict with entries := putEntry s.dict.entries { e with value := some v, counter := e.counter + 1 } } }

/-- The change counter of an object; 0 for one never changed (R324). -/
def dictCounter (s : State) (i j : Nat) : Word32 :=
  match dictEntry s i j with
  | some e => e.counter
  | none => 0

/-- POWER_CAP in W (R328). -/
def powerCap (s : State) : Nat := dictValue s 0x2000 1 1150

/-- BAY_SLICE in ns (R295, R328). -/
def baySlice (s : State) : Nat := dictValue s 0x3001 0 10 * 1000000

/-- TIER_DIRTY_HIGH in percent (R224, R328). -/
def tierDirtyHigh (s : State) : Nat := dictValue s 0x4000 0 25

/-- BE_AGE_TIME in ns (R135, R328). -/
def beAgeTime (s : State) : Nat := dictValue s 0x5000 0 250 * 1000000

/-- MARGIN_FLOOR in percent (R363, R328). -/
def marginFloor (s : State) : Nat := dictValue s 0x6000 0 2

/-- MARGIN_PERIOD in ns (R370, R328). -/
def marginPeriod (s : State) : Nat := dictValue s 0x6002 0 168 * 3600000000000

/-- LOCK_IDLE in ns (R330, R328). -/
def lockIdle (s : State) : Nat := dictValue s 0x8001 0 30 * 1000000000

/-- SB_KEY (R317, R328). -/
def sbKey (s : State) : BitVec 256 := BitVec.ofNat 256 (dictValue s 0x7001 0 0)

/-- EVENT_PEER, or FF02::1 when it is all zero (R315). -/
def eventPeer (s : State) : Nat :=
  let p := dictValue s 0x1011 0 0
  if p == 0 then 0x010000000000000000000000000002FF else p

end Sys2Proof.Machine
end

