-- ==== Sys2Proof/Machine/Operands.lean ====
section
/-! DEFINITION. Operand forms: the submission entry and its command fields (R261, R272), the batch descriptor, query
entries and run descriptor (R266, R268, R278), the binding descriptor (R288), and which bits of each are reserved. -/

namespace Sys2Proof.Machine

open Sys2Proof

/-! The submission entry (R261). -/

/-- OPCODE. -/
def sqeOpcode (e : BitVec 512) : Nat := field e 0 8
/-- FENCE. -/
def sqeFence (e : BitVec 512) : Bool := flag e 8
/-- CID. -/
def sqeCid (e : BitVec 512) : Nat := field e 32 16
/-- PTR0. -/
def sqePtr0 (e : BitVec 512) : Nat := field e 320 64
/-- PTR1. -/
def sqePtr1 (e : BitVec 512) : Nat := field e 384 64
/-- PTR2. -/
def sqePtr2 (e : BitVec 512) : Nat := field e 448 64

/-- Opcodes accepted on I/O queue pairs (table Opcodes). -/
def ioOpcodes : List Nat := [0x01, 0x02, 0x03, 0x04, 0x05, 0x06, 0x07, 0x08, 0x09]

/-- Opcodes accepted on the admin queue (table Opcodes). -/
def adminOpcodes : List Nat :=
  [0x80, 0x81, 0x82, 0x83, 0x84, 0x85, 0x86, 0x87, 0x88, 0x89, 0x8A, 0x8B, 0x8C, 0x8D, 0x8E]

/-- The CMD fields and pointers of an opcode, (lowest bit, width) (R272, table Opcodes). -/
def usedFields (opcode : Nat) : List (Nat × Nat) :=
  match opcode with
  | 0x01 | 0x02 | 0x03 | 0x04 => [(64, 16), (320, 64), (384, 64), (448, 64)]
  | 0x05 | 0x06 => [(64, 12), (80, 16), (320, 64)]
  | 0x07 => [(64, 16), (320, 64), (448, 64)]
  | 0x08 => [(64, 48), (112, 1), (113, 1), (114, 2), (320, 64), (384, 64)]
  | 0x09 => [(64, 17), (84, 4), (128, 64), (192, 32)]
  | 0x80 => [(64, 12), (80, 41), (121, 2), (123, 1), (124, 1), (125, 1), (126, 2), (128, 23), (152, 16), (168, 2),
             (170, 2), (172, 2), (176, 12), (192, 27), (224, 12)]
  | 0x81 => [(64, 12)]
  | 0x82 => [(64, 12), (80, 12), (96, 6), (104, 1), (112, 10), (128, 16), (144, 16), (160, 11), (171, 1), (192, 32),
             (320, 64), (384, 64)]
  | 0x83 => [(64, 12)]
  | 0x84 => [(64, 32), (96, 12), (320, 64)]
  | 0x85 => [(64, 16)]
  | 0x86 => [(64, 6), (320, 64)]
  | 0x87 => [(64, 6), (80, 16)]
  | 0x88 => [(64, 2), (320, 64)]
  | 0x89 => [(64, 32), (320, 64)]
  | 0x8A => []
  | 0x8B => [(64, 8), (80, 32), (112, 32), (144, 32), (320, 64)]
  | 0x8C | 0x8D => [(64, 16), (80, 8), (88, 16), (320, 64)]
  | 0x8E => [(64, 12), (80, 12), (92, 1), (96, 21), (128, 32)]
  | _ => []

/-- The mask of a list of fields. -/
def fieldMask (fs : List (Nat × Nat)) : Nat := fs.foldl (fun m f => Nat.lor m ((2 ^ f.2 - 1) * 2 ^ f.1)) 0

/-- No bit of a word outside the listed fields is set (R9). -/
def rsvdZero {w : Nat} (x : BitVec w) (fs : List (Nat × Nat)) : Bool :=
  Nat.land x.toNat (Nat.xor (2 ^ w - 1) (fieldMask fs)) == 0

/-- Rsvd bits of the submission entry are 0 and its pointers 64-byte aligned (R9, R261, R272). -/
def sqeValid (e : BitVec 512) : Bool :=
  rsvdZero e ((0, 8) :: (8, 1) :: (32, 16) :: usedFields (sqeOpcode e)) &&
  sqePtr0 e % 64 == 0 && sqePtr1 e % 64 == 0 && sqePtr2 e % 64 == 0

/-- PLAN. -/
def cmdPlan (e : BitVec 512) : Nat := field e 64 16
/-- INDEX, QPID. -/
def cmdIndex (e : BitVec 512) : Nat := field e 64 12
/-- COUNT_M1 plus 1. -/
def cmdCount (e : BitVec 512) : Nat := field e 80 16 + 1

/-! Batch descriptor (R266). -/

/-- VALID. -/
def descValid (d : BitVec 1024) : Nat := field d 512 512
/-- QSTRIDE. -/
def descStride (d : BitVec 1024) : Nat := field d 32 16
/-- NQ. -/
def descNq (d : BitVec 1024) : Nat := field d 0 10

/-- Batch-level fields are valid for batch size b (R267). -/
def descOk (d : BitVec 1024) (b : Nat) : Bool :=
  rsvdZero d [(0, 10), (32, 16), (512, 512)] && 1 ≤ descStride d && descStride d ≤ 1024 &&
  descNq d == b && descValid d != 0 && descValid d < 2 ^ b

/-- Positions of a batch that hold a query, ascending (R266). -/
def descPositions (d : BitVec 1024) (b : Nat) : List Nat := setBitsFrom b 0 (descValid d)

/-! Query head (R268). -/

/-- FILT. -/
def headFilt (h : BitVec 512) : Bool := flag h 0
/-- NTOK. -/
def headTokens (h : BitVec 512) : Nat := field h 32 14
/-- NCAND. -/
def headCands (h : BitVec 512) : Nat := field h 64 17

/-- Query head valid for an opcode (R268). -/
def headOk (h : BitVec 512) (opcode : Nat) : Bool :=
  rsvdZero h [(0, 1), (32, 14), (64, 17)] &&
  (if opcode == 0x02 || opcode == 0x03 then 1 ≤ headTokens h && headTokens h ≤ 8192 else headTokens h == 0) &&
  (if opcode == 0x04 then 1 ≤ headCands h && headCands h ≤ 65536 else headCands h == 0)

/-! Run descriptor (R278). -/

/-- Argument slot a of the run descriptor: VALID, peg number. -/
def runArg (d : BitVec 1024) (a : Nat) : Option Nat :=
  let w := field d (512 + 32 * a) 32
  if bitAt w 31 then some (bitsAt w 0 17) else none

/-- Rsvd bits of the argument slots are 0. -/
def runArgsOk (d : BitVec 1024) : Bool :=
  (List.range 16).all (fun a => bitsAt (field d (512 + 32 * a) 32) 17 14 == 0)

/-- SEED. -/
def runSeed (d : BitVec 1024) : Word32 := BitVec.ofNat 32 (field d 480 32)
/-- PARAMS. -/
def runParams (d : BitVec 1024) : Nat := field d 0 480

/-! Binding descriptor header (R288). -/

def bindArrays (h : BitVec 1024) : List Nat := setBitsFrom 160 0 (field h 864 160)
def bindFlash (h : BitVec 1024) : List Nat := setBitsFrom 128 0 (field h 736 128)
def bindPegShare (h : BitVec 1024) : BitVec 64 := BitVec.ofNat 64 (field h 672 64)
def bindFrames (h : BitVec 1024) : Nat := field h 608 32
def bindDramShare (h : BitVec 1024) : Nat := field h 599 9
def bindRimeShare (h : BitVec 1024) : Nat := field h 590 9
def bindSlotBlocks (h : BitVec 1024) : Nat := field h 582 8
def bindPegBlocks (h : BitVec 1024) : Nat := field h 574 8
def bindQpairs (h : BitVec 1024) : Nat := field h 561 13
def bindNreg (h : BitVec 1024) : Nat := field h 544 8
def bindPark (h : BitVec 1024) : Bool := flag h 1
def bindExtend (h : BitVec 1024) : Bool := flag h 0

/-- DRAM channels to lease exclusively, in byte order (R288). -/
def bindExcl (h : BitVec 1024) : List Nat :=
  (List.range 4).filterMap (fun i =>
    let b := field h (640 + 8 * i) 8
    if b ≥ 128 then some (b % 128) else none)

/-- Region entry fields (R288). -/
def regBase (r : BitVec 128) : Nat := field r 99 29
def regPages (r : BitVec 128) : Nat := field r 70 29
def regGroups (r : BitVec 128) : BitVec 16 := BitVec.ofNat 16 (field r 54 16)
def regHint (r : BitVec 128) : Nat := field r 52 2
def regKind (r : BitVec 128) : Nat := field r 50 2
def regRetain (r : BitVec 128) : Bool := flag r 49
def regAdopt (r : BitVec 128) : Bool := flag r 48

/-! Vector IDs (R9, R35): index number in [63:52], Rsvd in [51:40], local ID in [39:0]. -/

def vidIndex (v : Word64) : Nat := field v 52 12
def vidRsvd (v : Word64) : Nat := field v 40 12
def vidLocal (v : Word64) : Nat := field v 0 40

/-- The vector ID of a local ID of an index. -/
def vectorId (index localId : Nat) : Nat := index % 4096 * 2 ^ 52 + localId % 2 ^ 40

end Sys2Proof.Machine
end

