-- ==== Sys2Proof/Machine/Flags.lean ====
section
/-! DEFINITION. Status codes (R283), and how a command is taken from its queue and its completion posted, with the
completion entry, its phase and its interrupt (R258 to R263, R282). -/

namespace Sys2Proof.Machine

open Sys2Proof

def stOk : Nat := 0x0000
def stQueryStatus : Nat := 0x0001
def stFilterShort : Nat := 0x0002
def stTruncated : Nat := 0x0003
def stInvalidOpcode : Nat := 0x0100
def stInvalidField : Nat := 0x0101
def stNotFound : Nat := 0x0102
def stPlanMismatch : Nat := 0x0103
def stNoResource : Nat := 0x0104
def stVectorLimit : Nat := 0x0105
def stInProgress : Nat := 0x0106
def stDictAccess : Nat := 0x0107
def stHostFault : Nat := 0x0108
def stRefusedCapacity : Nat := 0x0200
def stRefusedDeadline : Nat := 0x0201
def stRefusedTier : Nat := 0x0202
def stNsBusy : Nat := 0x0300
def stBusyOtherMaster : Nat := 0x0301
def stDriftFull : Nat := 0x0302
def stIdInUse : Nat := 0x0303
def stCapacitySpare : Nat := 0x0304
def stMediaUe : Nat := 0x0400
def stWeightsLost : Nat := 0x0401
def stPegBroken : Nat := 0x0402
def stPegTimeout : Nat := 0x0403
def stContextEnded : Nat := 0x0404
def stFwInvalid : Nat := 0x0500
def stFwRollback : Nat := 0x0501
def stFwNoImage : Nat := 0x0502
def stTestFail : Nat := 0x0503

/-- The completion entry of 32 bytes (R262). -/
def completionEntry (result dtb cid sqHead qpid status nacc ndiff : Nat) (p : Bool) : BitVec 256 :=
  BitVec.ofNat 256 ((if p then 1 else 0) + ndiff % 2 ^ 16 * 2 ^ 16 + nacc % 2 ^ 16 * 2 ^ 32 + status % 2 ^ 16 * 2 ^ 48 +
    qpid % 2 ^ 16 * 2 ^ 80 + sqHead % 2 ^ 16 * 2 ^ 96 + cid % 2 ^ 16 * 2 ^ 112 + dtb % 2 ^ 64 * 2 ^ 128 +
    result % 2 ^ 64 * 2 ^ 192)

/-- Completion tail and phase moved past one slot (R258). -/
def bumpCqTail (u : Queue) : Queue :=
  if u.cqTail + 1 < u.cqDepth then { u with cqTail := u.cqTail + 1 }
  else { u with cqTail := 0, phase := !u.phase }

/-- Class of a queue's interrupts: LC pairs interrupt at once (R260). -/
def queueIsLc (s : State) (q : Nat) : Bool :=
  match pairOf s q with
  | some p => p.lc
  | none => false

/-- A vector is masked in its function's MSI-X table (R251; log entry 88). -/
def msixMasked (s : State) (fn v : Nat) : Bool := s.queues.msixTable.any (fun e => e.1 == (fn, v) && flag e.2 96)

/-- A function's vector raised: a message, or for a masked vector its pending bit (R251, R260). -/
def raiseVector (s : State) (fn v : Nat) : State :=
  if msixMasked s fn v then { s with queues := { s.queues with msixPending := (s.queues.msixPending.filter (fun e => e != (fn, v))) ++ [(fn, v)] } }
  else emit s (.msix fn v)

/-- The MSI-X message of a queue: it covers every entry committed before it (R260). -/
def sendMsix (s : State) (q : Nat) : State :=
  match queueOf s q with
  | some u => raiseVector (updQueue s q (fun u => { u with uncovered := 0 })) (bayOfQueue s q) u.msix
  | none => s

/-- Interrupt after an entry was committed: LC at once, otherwise at 8 uncovered entries (R260). -/
def afterCommit (s : State) (q : Nat) : State :=
  match queueOf s q with
  | some u =>
    if !u.intEn then s
    else
      let s := updQueue s q (fun u =>
        { u with uncovered := u.uncovered + 1, oldest := if u.uncovered == 0 then now s else u.oldest })
      if queueIsLc s q || 8 ≤ u.uncovered + 1 then sendMsix s q else s
  | none => s

/-- The completion entry is written; of the admin queue only while ENABLE is 1 (R257). -/
def queueWrites (s : State) (q : Nat) : Bool := q != adminQ || flag s.queues.adminCfg 63

/-- A pair being deleted counts the commands completed after the acceptance (R271, table Opcodes). -/
def countAfterDelete (s : State) (q : Nat) : State :=
  updPair s q (fun p => if p.deleting.isSome then { p with afterDelete := p.afterDelete + 1 } else p)

/-- One entry committed to the next slot of a queue with the current phase; the tail advances, and the interrupt follows (R258, R260,
R262). -/
def commitEntry (s : State) (d : Deferred) : State :=
  match queueOf s d.q with
  | none => s
  | some u =>
    if queueWrites s d.q then
      let e := completionEntry d.result (now s) d.cmd.cid d.cmd.sqHead d.q d.status d.nacc d.ndiff u.phase
      afterCommit (countAfterDelete (emit (updQueue s d.q bumpCqTail) (.completion d.q u.cqTail e)) d.q) d.q
    else s

/-- Completion of a command record c of queue q: the record leaves the queue and its entry is committed; while the link is degraded queues are
not served, and the entry waits (R240, R258, R260, R262). -/
def postRecord (s : State) (q : Nat) (c : Cmd) (status result nacc ndiff : Nat) : State :=
  match queueOf s q with
  | none => s
  | some _ =>
    let s1 := updQueue s q (fun u => { u with cmds := removeFirst (fun x => x.seq == c.seq) u.cmds })
    let d : Deferred := { q := q, cmd := c, status := status, result := result, nacc := nacc, ndiff := ndiff }
    if s.link.degraded then { s1 with queues := { s1.queues with deferred := s1.queues.deferred ++ [d] } } else commitEntry s1 d

/-- The completions that waited are committed, oldest first (R240). -/
def commitDeferred (s : State) : State :=
  s.queues.deferred.foldl commitEntry { s with queues := { s.queues with deferred := [] } }

/-- Completions that wait for queues that are gone are dropped (R240, R243). -/
def dropDeferred (s : State) : State :=
  { s with queues := { s.queues with deferred := s.queues.deferred.filter (fun d => (queueOf s d.q).isSome) } }

/-- Completion of the running command of queue q with CID cid. -/
def postCompletion (s : State) (q cid status result : Nat) : State :=
  match runningCmd s q cid with
  | some c => postRecord s q c status result 0 0
  | none => s

/-- The command that a queue decides next: the oldest consumed and not yet decided; with FENCE only when no earlier
command is without completion (R282). -/
def nextUndecided (u : Queue) : Option Cmd :=
  match u.cmds.find? (fun c => c.phase == .consumed) with
  | some c =>
    if sqeFence c.sqe && u.cmds.any (fun d => d.seq < c.seq) then none else some c
  | none => none

/-- The command of queue q that a row with this CID and opcode decides, if it is the next one. -/
def takeCmd (s : State) (q cid opcode : Nat) : Option Cmd :=
  match queueOf s q with
  | some u =>
    match nextUndecided u with
    | some c => if c.cid == cid && sqeOpcode c.sqe == opcode then some c else none
    | none => none
  | none => none

/-- Entries of a completion queue that the host has not freed. -/
def cqUsed (u : Queue) : Nat := (u.cqTail + u.cqDepth - u.cqHead) % max 1 u.cqDepth

/-- A completion slot is free: more free entries than consumed commands still to complete (R263). -/
def cqSlotFree (u : Queue) : Bool := u.cmds.length < u.cqDepth - 1 - cqUsed u

/-- A consumed command is decided: it runs. -/
def startCmd (s : State) (q : Nat) (c : Cmd) (f : Cmd → Cmd := id) : State :=
  updQueue s q (fun u => { u with cmds := updateFirst (fun x => x.seq == c.seq) (fun x => f { x with phase := .running }) u.cmds })

/-- A consumed command is refused or ends at its decision. -/
def endCmd (s : State) (q : Nat) (c : Cmd) (status result : Nat) : State := postRecord s q c status result 0 0

end Sys2Proof.Machine
end

