-- ==== Sys2Proof/Machine/Formats.lean ====
section
/-! DEFINITION. The sixteen number formats, scale words, encoding of groups, unscaled conversions and FP32 arithmetic
(chapter Number Formats and Scale Codes), computed exactly on integers and rounded to nearest even. -/

namespace Sys2Proof.Machine

open Sys2Proof

/-- An exact value: NaN, an infinity, or a signed magnitude mag × 2^exp; zero keeps its sign (R144). -/
inductive Num where
  | nan
  | inf (neg : Bool)
  | fin (neg : Bool) (mag : Nat) (exp : Int)
  deriving DecidableEq, Repr

/-- +0. -/
def numZero : Num := .fin false 0 0

/-- An integer as a value. -/
def numOfInt (i : Int) : Num := .fin (decide (i < 0)) i.natAbs 0

/-- Shape of a floating-point format (R143). -/
structure FloatShape where
  eb : Nat
  mb : Nat
  bias : Nat
  /-- the exponent pattern all ones holds infinity and NaN -/
  ieee : Bool
  /-- all bits but the sign set is NaN (FP8-E4M3) -/
  topNan : Bool
  deriving DecidableEq, Repr

def shapeE4M3 : FloatShape := ⟨4, 3, 7, false, true⟩
def shapeE5M2 : FloatShape := ⟨5, 2, 15, true, false⟩
def shapeE3M2 : FloatShape := ⟨3, 2, 3, false, false⟩
def shapeE2M1 : FloatShape := ⟨2, 1, 1, false, false⟩
def shapeFp16 : FloatShape := ⟨5, 10, 15, true, false⟩
def shapeBf16 : FloatShape := ⟨8, 7, 127, true, false⟩
def shapeFp32 : FloatShape := ⟨8, 23, 127, true, false⟩

/-- Exponent of the least bit of a subnormal. -/
def FloatShape.emin (f : FloatShape) : Int := 1 - (f.bias : Int) - (f.mb : Int)

/-- The value of a pattern (R143, R144). -/
def floatValue (f : FloatShape) (bits : Nat) : Num :=
  let neg := bitAt bits (f.eb + f.mb)
  let e := bitsAt bits f.mb f.eb
  let m := bitsAt bits 0 f.mb
  if f.ieee && e == 2 ^ f.eb - 1 then (if m == 0 then .inf neg else .nan)
  else if f.topNan && e == 2 ^ f.eb - 1 && m == 2 ^ f.mb - 1 then .nan
  else if e == 0 then .fin neg m f.emin
  else .fin neg (2 ^ f.mb + m) (f.emin + (e : Int) - 1)

/-- Magnitude m × 2^e rounded to nearest even at mb + 1 bits, never below the exponent of the least subnormal bit. -/
def roundMag (f : FloatShape) (m : Nat) (e : Int) : Nat × Int :=
  if m == 0 then (0, f.emin)
  else
    let l := max (e + (Nat.log2 m : Int) - (f.mb : Int)) f.emin
    if l ≤ e then (m * 2 ^ (e - l).toNat, l)
    else
      let sh := (l - e).toNat
      let q := m / 2 ^ sh
      let r := m % 2 ^ sh
      let half := 2 ^ (sh - 1)
      if r > half || (r == half && q % 2 == 1) then (q + 1, l) else (q, l)

/-- Largest finite pattern without sign. -/
def FloatShape.maxFinite (f : FloatShape) : Nat :=
  if f.ieee then (2 ^ f.eb - 1) * 2 ^ f.mb - 1
  else if f.topNan then 2 ^ (f.eb + f.mb) - 2
  else 2 ^ (f.eb + f.mb) - 1

/-- Pattern without sign of a rounded magnitude; above the largest finite one where it overflows. -/
def packMag (f : FloatShape) (q : Nat) (l : Int) : Nat :=
  if q < 2 ^ f.mb then q
  else
    let (q, l) := if q == 2 ^ (f.mb + 1) then (2 ^ f.mb, l + 1) else (q, l)
    (l - f.emin + 1).toNat * 2 ^ f.mb + (q - 2 ^ f.mb)

/-- Sign bit of a format. -/
def signBits (f : FloatShape) (neg : Bool) : Nat := if neg then 2 ^ (f.eb + f.mb) else 0

/-- Canonical NaN (R144). -/
def canonNan (f : FloatShape) : Nat :=
  if f.topNan then 2 ^ (f.eb + f.mb) - 1
  else (2 ^ f.eb - 1) * 2 ^ f.mb + 2 ^ (f.mb - 1)

/-- Infinity without sign, of the formats that have it; the largest finite value of the others. -/
def infPattern (f : FloatShape) : Nat := if f.ieee then (2 ^ f.eb - 1) * 2 ^ f.mb else f.maxFinite

/-- Rounding of an exact value to a format, nearest even; a finite overflow gives infinity, or with sat the largest
finite value (R156). -/
def floatBits (f : FloatShape) (sat : Bool) (x : Num) : Nat :=
  match x with
  | .nan => canonNan f
  | .inf neg => signBits f neg + infPattern f
  | .fin neg m e =>
    let r := roundMag f m e
    let p := packMag f r.1 r.2
    if p > f.maxFinite then signBits f neg + (if sat then f.maxFinite else infPattern f)
    else signBits f neg + p

/-- The value of an FP32 pattern. -/
def numOf32 (x : Word32) : Num := floatValue shapeFp32 x.toNat

/-- FP32 of an exact value, nearest even. -/
def toFp32 (x : Num) : Word32 := BitVec.ofNat 32 (floatBits shapeFp32 false x)

/-- BF16 of an exact value, nearest even. -/
def toBf16 (x : Num) : Nat := floatBits shapeBf16 false x

/-- Signed integer m of a finite value at exponent e ≤ its own. -/
def alignTo (neg : Bool) (mag : Nat) (exp e : Int) : Int :=
  let m : Int := (mag * 2 ^ (exp - e).toNat : Nat)
  if neg then -m else m

/-- A finite value from a signed integer; a zero takes the given sign. -/
def finOf (zneg : Bool) (i e : Int) : Num :=
  if i == 0 then .fin zneg 0 0 else .fin (decide (i < 0)) i.natAbs e

/-- Exact sum. -/
def addNum : Num → Num → Num
  | .nan, _ => .nan
  | _, .nan => .nan
  | .inf a, .inf b => if a == b then .inf a else .nan
  | .inf a, _ => .inf a
  | _, .inf b => .inf b
  | .fin a m x, .fin b n y =>
    let e := min x y
    finOf (a && b) (alignTo a m x e + alignTo b n y e) e

/-- Negation. -/
def negNum : Num → Num
  | .nan => .nan
  | .inf a => .inf (!a)
  | .fin a m x => .fin (!a) m x

/-- Exact product. -/
def mulNum : Num → Num → Num
  | .nan, _ => .nan
  | _, .nan => .nan
  | .inf a, .inf b => .inf (a != b)
  | .inf a, .fin b m _ => if m == 0 then .nan else .inf (a != b)
  | .fin a m _, .inf b => if m == 0 then .nan else .inf (a != b)
  | .fin a m x, .fin b n y => .fin (a != b) (m * n) (x + y)

/-- Exact sum of a list, from −0, which leaves every sum unchanged. -/
def sumNum (l : List Num) : Num :=
  match l with
  | [] => numZero
  | x :: r => r.foldl addNum x

/-- Quotient with enough bits and a sticky bit, for one rounding to FP32. -/
def divNum : Num → Num → Num
  | .nan, _ => .nan
  | _, .nan => .nan
  | .inf _, .inf _ => .nan
  | .inf a, .fin b _ _ => .inf (a != b)
  | .fin a _ _, .inf b => .fin (a != b) 0 0
  | .fin a m x, .fin b n y =>
    if n == 0 then (if m == 0 then .nan else .inf (a != b))
    else
      let k := Nat.log2 n + 64
      let q := m * 2 ^ k / n
      let r := m * 2 ^ k % n
      .fin (a != b) (2 * q + (if r == 0 then 0 else 1)) (x - y - (k : Int) - 1)

/-- Integer square root by bits, fuel k: the largest r below 2^k with r² ≤ n. -/
def sqrtBits : Nat → Nat → Nat → Nat
  | 0, _, r => r
  | k + 1, n, r => let t := r + 2 ^ k; sqrtBits k n (if t * t ≤ n then t else r)

/-- Square root with a sticky bit, for one rounding to FP32. -/
def sqrtNum : Num → Num
  | .nan => .nan
  | .inf neg => if neg then .nan else .inf false
  | .fin neg m e =>
    if m == 0 then .fin neg 0 0
    else if neg then .nan
    else
      let odd := e % 2 == 1
      let m1 := if odd then 2 * m else m
      let e1 := if odd then e - 1 else e
      let n := m1 * 2 ^ 128
      let r := sqrtBits (Nat.log2 n / 2 + 1) n 0
      .fin false (2 * r + (if r * r == n then 0 else 1)) ((e1 - 128) / 2 - 1)

/-- FP32 operations, each rounded once to nearest even. -/
def add32 (a b : Word32) : Word32 := toFp32 (addNum (numOf32 a) (numOf32 b))
def sub32 (a b : Word32) : Word32 := toFp32 (addNum (numOf32 a) (negNum (numOf32 b)))
def mul32 (a b : Word32) : Word32 := toFp32 (mulNum (numOf32 a) (numOf32 b))
def div32 (a b : Word32) : Word32 := toFp32 (divNum (numOf32 a) (numOf32 b))
def sqrt32 (a : Word32) : Word32 := toFp32 (sqrtNum (numOf32 a))
def fma32 (a b c : Word32) : Word32 := toFp32 (addNum (mulNum (numOf32 a) (numOf32 b)) (numOf32 c))

/-- NaN of any payload. -/
def isNan32 (x : Word32) : Bool := numOf32 x == .nan

/-- NaN or infinity. -/
def nonFinite32 (x : Word32) : Bool :=
  match numOf32 x with
  | .fin _ _ _ => false
  | _ => true

/-- Order of values, NaN apart: a < b; −0 equals +0 (R144). -/
def numLt : Num → Num → Bool
  | .nan, _ => false
  | _, .nan => false
  | .inf a, .inf b => a && !b
  | .inf a, .fin _ _ _ => a
  | .fin _ _ _, .inf b => !b
  | .fin a m x, .fin b n y =>
    let e := min x y
    decide (alignTo a m x e < alignTo b n y e)

/-- Equality of values, NaN apart. -/
def numEq (a b : Num) : Bool := !numLt a b && !numLt b a && a != .nan && b != .nan

/-- Magnitude. -/
def absNum : Num → Num
  | .nan => .nan
  | .inf _ => .inf false
  | .fin _ m x => .fin false m x

def numNeg : Num → Bool
  | .nan => false
  | .inf a => a
  | .fin a _ _ => a

def numIsZero : Num → Bool
  | .fin _ m _ => m == 0
  | _ => false

/-- Nearest FP32 to a table entry given in millionths (R146). -/
def level32 (i : Int) : Word32 := toFp32 (divNum (numOfInt i) (numOfInt 1000000))

/-- BELL4 levels in millionths, codes 0x0 to 0xF (R145). -/
def bell4Levels : List Int :=
  [-1000000, -766157, -607212, -479978, -369978, -270350, -177136, -87690,
   0, 102542, 207701, 318603, 439659, 578277, 749842, 1000000]

/-- BELL3 levels in millionths, codes 0x0 to 0x7 (R145). -/
def bell3Levels : List Int := [-1000000, -656720, -409192, -197687, 0, 276993, 586335, 1000000]

/-- Bits per element of a format code (R138). -/
def fmtBits (fmt : Nat) : Nat :=
  match fmt with
  | 0x0 => 1 | 0x1 => 4 | 0x2 => 4 | 0x3 => 4 | 0x4 => 3 | 0x5 => 8 | 0x6 => 8 | 0x7 => 8
  | 0x8 => 8 | 0x9 => 6 | 0xA => 4 | 0xB => 16 | 0xC => 16 | 0xD => 16 | _ => 32

/-- The value of a code in its format (R138, R142 to R146). -/
def elemValue (fmt code : Nat) : Num :=
  match fmt with
  | 0x0 => numOfInt (code % 2 : Nat)
  | 0x1 => numOfInt (signedOf 4 code)
  | 0x2 => numOfInt (code % 16 : Nat)
  | 0x3 => numOf32 (level32 (bell4Levels.getD (code % 16) 0))
  | 0x4 => numOf32 (level32 (bell3Levels.getD (code % 8) 0))
  | 0x5 => numOfInt (signedOf 8 code)
  | 0x6 => numOfInt (code % 256 : Nat)
  | 0x7 => floatValue shapeE4M3 code
  | 0x8 => floatValue shapeE5M2 code
  | 0x9 => floatValue shapeE3M2 code
  | 0xA => floatValue shapeE2M1 code
  | 0xB => floatValue shapeFp16 code
  | 0xC => floatValue shapeBf16 code
  | 0xD => numOfInt (signedOf 16 code)
  | 0xE => floatValue shapeFp32 code
  | _ => numOfInt (signedOf 32 code)

/-- The floating-point shape of a format code. -/
def fmtShape (fmt : Nat) : Option FloatShape :=
  match fmt with
  | 0x7 => some shapeE4M3
  | 0x8 => some shapeE5M2
  | 0x9 => some shapeE3M2
  | 0xA => some shapeE2M1
  | 0xB => some shapeFp16
  | 0xC => some shapeBf16
  | 0xE => some shapeFp32
  | _ => none

/-! Scale words (R147 to R151). -/

/-- Group size of a code (R140). -/
def groupSize (gs : Nat) : Nat :=
  match gs with
  | 0 => 32
  | 1 => 64
  | _ => 128

/-- What a scale code decodes to, none for an invalid code (R148, R149). Kinds: 0 UE8M0, 1 FP8-E4M3, 2 FP16. -/
def scaleValue (kind c : Nat) : Option Num :=
  match kind with
  | 0 => if c < 0xFF then some (.fin false 1 ((c : Int) - 127)) else none
  | 1 => if c < 0x7F then some (floatValue shapeE4M3 c) else none
  | 2 => if c < 0xF8 then some (floatValue shapeFp16 (c * 128)) else none
  | _ => none

/-- Largest valid scale code of a kind. -/
def scaleTop (kind : Nat) : Nat :=
  match kind with
  | 0 => 0xFE
  | 1 => 0x7E
  | _ => 0xF7

/-- Smallest code with a non-zero scale. -/
def scaleLow (kind : Nat) : Nat := if kind == 0 then 0 else 1

def swScale (sw : Nat) : Nat := bitsAt sw 8 8
def swFlat (sw : Nat) : Bool := bitAt sw 7
def swRescued (sw : Nat) : Bool := bitAt sw 6
def swNeg (sw : Nat) : Bool := bitAt sw 5

/-- A scale word of a kind is valid (R151). -/
def scaleWordOk (kind sw : Nat) : Bool :=
  bitsAt sw 0 5 == 0 && (swFlat sw || !swNeg sw) &&
  (match scaleValue kind (swScale sw) with
   | some v => swFlat sw || !numIsZero v
   | none => false)

/-- The scale of a word, as a group uses it: FLAT with SCALE 0 is the zero group in every kind (R150). -/
def swValue (kind sw : Nat) : Num :=
  if swFlat sw && swScale sw == 0 then numZero else (scaleValue kind (swScale sw)).getD numZero

/-- The value of an element of a group, exact (R150). -/
def groupElem (fmt kind sw code : Nat) : Num :=
  if swFlat sw then (if swNeg sw then negNum (swValue kind sw) else swValue kind sw)
  else mulNum (elemValue fmt code) (swValue kind sw)

/-- The 16-bit operand of an element: FP32 product, then BF16, both nearest even (R152). -/
def operandBf16 (fmt kind sw code : Nat) : Nat := toBf16 (numOf32 (toFp32 (groupElem fmt kind sw code)))

/-! Packing in memory (R139). -/

/-- Bit offset of element i in the data of a format. -/
def elemBit (fmt i : Nat) : Nat := fmtBits fmt * i

/-- Code of element i in packed data. Every packing of R139 is a little-endian bit string. -/
def elemCode (fmt : Nat) (data : Bytes) (i : Nat) : Nat :=
  let o := elemBit fmt i
  let n := leNat (sliceOf data (o / 8) 5)
  bitsAt n (o % 8) (fmtBits fmt)

/-- Codes packed into bytes: a run of eight elements fills whole bytes. -/
def packCodes (fmt : Nat) (codes : List Nat) : Bytes :=
  let runs := piecesOf 8 codes
  runs.flatMap (fun r =>
    natLe (ceilDiv (fmtBits fmt * r.length) 8)
      (r.reverse.foldl (fun acc c => acc * 2 ^ fmtBits fmt + c % 2 ^ fmtBits fmt) 0))

/-! Encoding (R153 to R155, R179, R180). -/

/-- Largest magnitude Q of an element format (R153). -/
def fmtQ (fmt : Nat) : Nat :=
  match fmt with
  | 0x1 => 7
  | 0x2 => 15
  | 0x3 => 1
  | 0x4 => 1
  | 0x5 => 127
  | 0x6 => 255
  | 0x7 => 448
  | 0x8 => 57344
  | 0x9 => 28
  | _ => 6

/-- A format without negative codes. -/
def fmtUnsigned (fmt : Nat) : Bool := fmt == 0x2 || fmt == 0x6

/-- Nearest integer, ties to even, of a finite value. -/
def roundInt (neg : Bool) (m : Nat) (e : Int) : Int :=
  if 0 ≤ e then (let v : Int := (m * 2 ^ e.toNat : Nat); if neg then -v else v)
  else
    let sh := (-e).toNat
    let q := m / 2 ^ sh
    let r := m % 2 ^ sh
    let q := if r > 2 ^ (sh - 1) || (r == 2 ^ (sh - 1) && q % 2 == 1) then q + 1 else q
    if neg then -(q : Int) else (q : Int)

/-- Distance of two finite values. -/
def distNum (a b : Num) : Num := absNum (addNum a (negNum b))

/-- Code of the level nearest to y; a tie goes to the smaller magnitude (R154). -/
def nearestLevel (fmt : Nat) (levels : List Int) (y : Num) : Nat :=
  let cands := List.range levels.length
  cands.foldl (fun best c =>
    let db := distNum y (elemValue fmt best)
    let dc := distNum y (elemValue fmt c)
    if numLt dc db || (numEq dc db && numLt (absNum (elemValue fmt c)) (absNum (elemValue fmt best))) then c else best)
    0

/-- Element x at scale s: its code, and whether it saturated (R154). NaN gives the zero code. -/
def encodeElem (fmt : Nat) (s : Num) (x : Word32) : Nat × Bool :=
  let nul := if fmt == 0x3 then 0x8 else if fmt == 0x4 then 0x4 else 0
  let y := numOf32 (toFp32 (divNum (numOf32 x) s))
  match y with
  | .nan => (nul, false)
  | _ =>
    let big := numLt (numOfInt (fmtQ fmt)) (absNum y)
    let neg := numNeg y && !numIsZero y
    if fmtUnsigned fmt && neg then (0, true)
    else if big then
      (match fmtShape fmt with
       | some f => signBits f neg + floatBits f true (numOfInt (fmtQ fmt))
       | none =>
         if fmt == 0x3 then (if neg then 0x0 else 0xF)
         else if fmt == 0x4 then (if neg then 0x0 else 0x7)
         else patternOf (fmtBits fmt) (if neg then -(fmtQ fmt : Int) else fmtQ fmt), true)
    else
      match fmtShape fmt, y with
      | some f, _ => (floatBits f true y, false)
      | none, .fin n m e =>
        if fmt == 0x3 then (nearestLevel fmt bell4Levels y, false)
        else if fmt == 0x4 then (nearestLevel fmt bell3Levels y, false)
        else (patternOf (fmtBits fmt) (roundInt n m e), false)
      | none, _ => (nul, false)

/-- The fit scale code of maximum magnitude m: the smallest scale at least m / Q, or the largest (R153). -/
def fitScale (kind fmt : Nat) (m : Num) : Nat :=
  (firstFrom (fun c =>
      match scaleValue kind c with
      | some v => !numLt (mulNum v (numOfInt (fmtQ fmt))) m
      | none => false) (scaleTop kind + 1 - scaleLow kind) (scaleLow kind)).getD (scaleTop kind)

/-- Scale code nearest to a magnitude for a FLAT group, ties to the even code; 0 is the zero group; an infinite magnitude takes the
largest scale, since the manual names no nearest one (R155; log entry 105). -/
def flatScale (kind : Nat) (c : Num) : Nat :=
  match c with
  | .inf _ => scaleTop kind
  | _ =>
    (List.range (scaleTop kind + 1)).foldl (fun best k =>
      let val := fun j => if j == 0 then numZero else (scaleValue kind j).getD numZero
      let db := distNum c (val best)
      let dk := distNum c (val k)
      if numLt dk db || (numEq dk db && k % 2 == 0) then k else best) 0

/-- A scale word from its fields. -/
def packScale (scale : Nat) (flat rescued neg : Bool) : Nat :=
  scale * 256 + (if flat then 128 else 0) + (if rescued then 64 else 0) + (if neg then 32 else 0)

/-- What the encoder stage writes for a group and what it counts. -/
structure Encoded where
  codes : List Nat
  scaleWord : Nat
  nans : Nat
  sat : Nat
  rescued : Bool
  deriving DecidableEq, Repr

/-- Maximum magnitude of a group: NaN ignored; for unsigned formats the largest non-negative element (R153). -/
def groupMax (fmt : Nat) (xs : List Word32) : Num :=
  xs.foldl (fun m x =>
    let v := numOf32 x
    if v == .nan || (fmtUnsigned fmt && numNeg v) then m
    else if numLt m (absNum v) then absNum v else m) numZero

/-- The zero group or the encoding of a group at its fit scale (R153, R155). -/
def encodeFit (fmt kind : Nat) (rescued : Bool) (xs : List Word32) : List Nat × Nat × Nat :=
  let m := groupMax fmt xs
  let c := fitScale kind fmt m
  let s := (scaleValue kind c).getD numZero
  let es := xs.map (encodeElem fmt s)
  let sat := (es.filter (fun e => e.2)).length
  let allZero := (es.zip xs).all (fun p => numIsZero (elemValue fmt p.1.1) || isNan32 p.2)
  if numIsZero m || (c == scaleLow kind && allZero) then (xs.map (fun _ => 0), packScale 0 true rescued false, sat)
  else (es.map (fun e => e.1), packScale c false rescued false, sat)

/-- One group through the encoder stage (R179, R180): zc counts codes of the value zero of either sign, and a held scale that is no valid
non-zero scale rescues the group, since no invalid word is written (R151; log entry 105). -/
def encodeStage (mode : Option Nat) (fmt kind g : Nat) (xs : List Word32) : Encoded :=
  let nans := (xs.filter isNan32).length
  let vals := xs.filter (fun x => !isNan32 x)
  match vals with
  | [] => ⟨xs.map (fun _ => 0), packScale 0 true false false, nans, 0, false⟩
  | x0 :: r =>
    if r.all (fun x => numEq (numOf32 x) (numOf32 x0)) then
      let c := numOf32 x0
      let neg := if numIsZero c then vals.all (fun x => numNeg (numOf32 x)) else numNeg c
      ⟨xs.map (fun _ => 0), packScale (flatScale kind (absNum c)) true false neg, nans, 0, false⟩
    else
      match mode with
      | none =>
        let e := encodeFit fmt kind false xs
        ⟨e.1, e.2.1, nans, e.2.2, false⟩
      | some held =>
        let s := (scaleValue kind held).getD numZero
        let es := xs.map (encodeElem fmt s)
        let sat := (es.filter (fun e => e.2)).length
        let pairs := es.zip xs
        let nz := (pairs.filter (fun p => !isNan32 p.2 && !numIsZero (numOf32 p.2))).length
        let zc := (pairs.filter (fun p => !isNan32 p.2 && !numIsZero (numOf32 p.2) && numIsZero (elemValue fmt p.1.1))).length
        if !scaleWordOk kind (packScale held false false false) || 32 * sat > g || 8 * zc > 7 * nz then
          let e := encodeFit fmt kind true xs
          ⟨e.1, e.2.1, nans, e.2.2, true⟩
        else ⟨es.map (fun e => e.1), packScale held false false false, nans, sat, false⟩

/-! Unscaled conversions (R156) and B1 (R141). -/

/-- Range of an integer format. -/
def intRange (fmt : Nat) : Int × Int :=
  match fmt with
  | 0x5 => (-128, 127)
  | 0x6 => (0, 255)
  | 0xD => (-32768, 32767)
  | _ => (-2147483648, 2147483647)

/-- A format may carry scale words, or go without: always, optional, never (table Number formats). -/
def fmtScaled (fmt : Nat) (scaled : Bool) : Bool :=
  if [0x1, 0x2, 0x3, 0x4, 0x9, 0xA].contains fmt then scaled else if [0x5, 0x6, 0x7, 0x8].contains fmt then true else !scaled

/-- An integer format of R156. -/
def fmtIsInt (fmt : Nat) : Bool := fmt == 0x5 || fmt == 0x6 || fmt == 0xD || fmt == 0xF

/-- An integer saturated to a format's range, and whether it was. -/
def satInt (fmt : Nat) (i : Int) : Int × Bool :=
  let r := intRange fmt
  if i < r.1 then (r.1, true) else if r.2 < i then (r.2, true) else (i, false)

/-- Conversion of an exact value to a format: pattern, saturated, NaN (R156). -/
def convertTo (dst : Nat) (x : Num) : Nat × Bool × Bool :=
  if fmtIsInt dst then
    match x with
    | .nan => (0, false, true)
    | .inf neg => (patternOf (fmtBits dst) (if neg then (intRange dst).1 else (intRange dst).2), true, false)
    | .fin neg m e =>
      let r := satInt dst (roundInt neg m e)
      (patternOf (fmtBits dst) r.1, r.2, false)
  else
    match fmtShape dst with
    | none => (0, false, false)
    | some f =>
      let narrow8 := dst == 0x7 || dst == 0x8
      match x with
      | .nan => (canonNan f, false, false)
      | .inf neg => (signBits f neg + infPattern f, !f.ieee, false)
      | .fin _ _ _ =>
        let b := floatBits f narrow8 x
        let big := match x with
          | .fin _ m e => decide ((let r := roundMag f m e; packMag f r.1 r.2) > f.maxFinite)
          | _ => false
        (b, big && narrow8, false)

/-- Bit j of a B1 conversion: 1 when the element is greater than zero (R141). -/
def b1Bit (x : Word32) : Bool :=
  match numOf32 x with
  | .nan => false
  | .inf neg => !neg
  | .fin neg m _ => !neg && m != 0

/-- B1 code of elements, bit j for element j (R40, R141). -/
def b1Code (xs : List Word32) : Nat := xs.reverse.foldl (fun acc x => 2 * acc + (if b1Bit x then 1 else 0)) 0

/-! Arithmetic (R175 to R178, R424). -/

/-- Blocks of 32 products, each summed once with rounding, added in ascending order (R175). -/
def blockSum (products : List Num) : Word32 :=
  match piecesOf 32 products with
  | [] => 0
  | b :: r => r.foldl (fun acc b => add32 acc (toFp32 (sumNum b))) (toFp32 (sumNum b))

/-- INT32 addition that saturates, with the number of saturations so far (R142). -/
def satAdd32 (acc : Int × Nat) (p : Int) : Int × Nat :=
  let r := satInt 0xF (acc.1 + p)
  (r.1, acc.2 + (if r.2 then 1 else 0))

/-- Integer path: products added one by one to an INT32 accumulator, which is checked and counted after each (R142, R175; the manual does
not say how often: log entry 105). -/
def intAccumulate (signedA signedB : Bool) (acc : Word32) (ab : List (Nat × Nat)) : Int × Nat :=
  ab.foldl (fun st p =>
    let a : Int := if signedA then signedOf 8 p.1 else (p.1 % 256 : Nat)
    let b : Int := if signedB then signedOf 8 p.2 else (p.2 % 256 : Nat)
    satAdd32 st (a * b)) (acc.toInt, 0)

/-- The value that an element of a scaled group enters the product with: its code's value, or ±1 in a FLAT group (R176). -/
def scaledTerm (fmt sw code : Nat) : Num :=
  if sw < 0x10000 && swFlat sw then numOfInt (if swNeg sw then -1 else 1) else elemValue fmt code

/-- The decoded scale of an operand: 1.0 without scale words (given as 0x10000), else that of its word, an invalid word
as the zero group (R151, R175). -/
def scaledScale (kind sw : Nat) : Word32 :=
  if sw ≥ 0x10000 then toFp32 (numOfInt 1)
  else if scaleWordOk kind sw then toFp32 (swValue kind sw) else 0

/-- An operand whose group decodes as the zero group: FLAT with SCALE 0, or an invalid scale word (R150, R151). -/
def zeroGroup (kind sw : Nat) : Bool :=
  decide (sw < 0x10000) && (!scaleWordOk kind sw || (swFlat sw && swScale sw == 0))

/-- Scaled path, one group (R175, R176): the new FP32 accumulator; the zero group contributes +0.0. -/
def scaledAccumulate (fmtA kindA swA fmtB kindB swB : Nat) (acc : Word32) (ab : List (Nat × Nat)) : Word32 :=
  if zeroGroup kindA swA || zeroGroup kindB swB then add32 acc 0 else
  let terms := ab.map (fun p => mulNum (scaledTerm fmtA swA p.1) (scaledTerm fmtB swB p.2))
  let p := blockSum terms
  let s := mul32 (scaledScale kindA swA) (scaledScale kindB swB)
  add32 acc (mul32 p s)

/-- MULSHIFT of one accumulator: y and the saturations of steps 1 and 3 (R178). -/
def mulShiftOf (entry : BitVec 128) (fmt : Nat) (a : Int) : Int × Nat :=
  let bias := signedOf 32 (field entry 96 32)
  let offset := signedOf 16 (field entry 80 16)
  let shift := field entry 64 6
  let mult := signedOf 32 (field entry 0 32)
  let b := satInt 0xF (a + bias)
  let q := Int.fdiv (b.1 * mult + (2 ^ (30 + shift) : Nat)) (2 ^ (31 + shift) : Nat)
  let y := satInt fmt (q + offset)
  (y.1, (if b.2 then 1 else 0) + (if y.2 then 1 else 0))

/-- TABLE: x × MULT + BIAS, rounded once to FP32 (R177). -/
def tableOf (entry : Word64) (x : Word32) (isInt : Bool) : Word32 :=
  let v := if isInt then toFp32 (numOfInt x.toInt) else x
  fma32 v (BitVec.ofNat 32 (field entry 0 32)) (BitVec.ofNat 32 (field entry 32 32))

/-- Inner product on the FP32 path of cells: exact products, blocks of 32 (R175, R424). -/
def dotCells (xs ys : List Num) : Word32 := blockSum ((xs.zip ys).map (fun p => mulNum p.1 p.2))

/-- Squared distance on the FP32 path of cells: each difference rounded once (R424). -/
def l2Cells (xs ys : List Num) : Word32 :=
  let ds := (xs.zip ys).map (fun p => numOf32 (toFp32 (addNum p.1 (negNum p.2))))
  blockSum (ds.map (fun d => mulNum d d))

/-- Cosine from an inner product and two squared norms: p, r and the quotient each rounded once; NaN when p is zero (R424). -/
def cosOf (ip qq xx : Word32) : Word32 :=
  let p := mul32 qq xx
  if numIsZero (numOf32 p) then 0x7FC00000 else div32 ip (sqrt32 p)

/-- L2 from rime results: t = ‖q‖² + ‖x‖² rounded once, then t − 2(q·x) rounded once (R424). -/
def l2Rime (ip qq xx : Word32) : Word32 :=
  let t := add32 qq xx
  toFp32 (addNum (numOf32 t) (negNum (mulNum (numOfInt 2) (numOf32 ip))))

/-- Stochastic rounding of FP32 to BF16 with a 16-bit value r (R158). -/
def srBf16 (x : Word32) (r : BitVec 16) : Nat :=
  if nonFinite32 x then toBf16 (numOf32 x)
  else
    let mag := x.toNat % 2 ^ 31 + r.toNat
    let t := mag / 65536
    (if 2 ^ 31 ≤ x.toNat then 0x8000 else 0) + (if t ≥ 0x7F80 then 0x7F7F else t)

/-- Seed of a cell's generator for a run (R158). -/
def cellSeed (seed : Word32) (cell : Nat) : Word32 :=
  (if seed == 0 then 1 else seed) ^^^ BitVec.ofNat 32 (cell * 0x9E3779B9)

/-! Keys (R90, R91). -/

/-- Key of an FP32 score: -0 as +0, then the order-preserving map; inverted for descending scores (R90, R91). -/
def keyOfFp32 (descending : Bool) (b : Word32) : Word32 :=
  let b := if b == 0x80000000 then 0 else b
  let asc := if b.toNat < 2 ^ 31 then b ||| 0x80000000 else ~~~b
  if descending then ~~~asc else asc

/-- Key of a score of a type: 0 Hamming, 1 UINT32, 2 INT32, 3 FP32, 4 BF16, 5 FP16; a 16-bit score lies in the low half of the KEY field (R90,
R173; the half a DESIGN CHOICE, log entry 130). -/
def keyOf (stype : Nat) (descending : Bool) (v : Word32) : Word32 :=
  match stype with
  | 0 => v
  | 1 => if descending then 0xFFFFFFFF - v else v
  | 2 => if descending then ~~~(v ^^^ 0x80000000) else v ^^^ 0x80000000
  | 3 => keyOfFp32 descending v
  | 4 => keyOfFp32 descending (BitVec.ofNat 32 (v.toNat % 65536 * 65536))
  | _ => keyOfFp32 descending (toFp32 (floatValue shapeFp16 (v.toNat % 65536)))

end Sys2Proof.Machine
end

