-- ==== Sys2Proof/Machine/Log.lean ====
section
/-! DEFINITION. The error log, event frames of the sideband and the moraine log (R316, R319, R369, R374, R375), and the
free flash and free DRAM that commands are checked against (R228, R363). -/

namespace Sys2Proof.Machine

open Sys2Proof

/-! Sideband frames (R316). -/

/-- An XSDP header (R316). -/
def xsdpHeader (boot : Word32) (dtb : Nat) (change : Word32) (len status index sub : Nat) (retx : Bool) (seq : BitVec 16)
    (type : Nat) : BitVec 256 :=
  BitVec.ofNat 256 (1 + type % 256 * 2 ^ 8 + seq.toNat * 2 ^ 16 + (if retx then 2 ^ 64 else 0) + sub % 256 * 2 ^ 72 +
    index % 65536 * 2 ^ 80 + status % 65536 * 2 ^ 96 + len % 65536 * 2 ^ 112 + change.toNat * 2 ^ 128 +
    dtb % 2 ^ 64 * 2 ^ 160 + boot.toNat * 2 ^ 224)

/-- The tag of a frame the module sends; all zero while SB_KEY is all zero (R317; log entry 20). -/
def xsdpTag (s : State) (h : BitVec 256) (v : Bytes) : BitVec 128 :=
  if sbKey s == 0 then 0 else Config.kmacXsdp (sbKey s) h v

/-- A frame leaves the sideband. -/
def sendFrame (s : State) (dest : Nat) (h : BitVec 256) (v : Bytes) : State := emit s (.frame dest h v (xsdpTag s h v))

/-- The 16-byte value of an event frame (R319). -/
def eventValue (code : Nat) (data : Word64) : Bytes := natLe 8 code ++ natLe 8 data.toNat

/-- An event frame with its SEQ, its first sending or a repetition (R319). -/
def emitEvent (s : State) (seq : BitVec 16) (retx : Bool) (code : Nat) (data : Word64) : State :=
  let v := eventValue code data
  sendFrame s (eventPeer s) (xsdpHeader s.time.bootCount (now s) 0 16 0 0 0 retx seq 0x05) v

/-- An event is sent and waits for its acknowledgement (R319). -/
def sendEvent (s : State) (code : Nat) (data : Word64) : State :=
  let seq := s.sb.eventSeq
  let s1 := emitEvent s seq false code data
  { s1 with sb := { s1.sb with
      eventSeq := seq + 1,
      events := s1.sb.events ++ [{ seq := seq, code := code, data := data, attempts := 1, sentAt := now s }] } }

/-! The error log (R374, R375). -/

def errDramUe : Nat := 0x0101
def errRowFailing : Nat := 0x0102
def errFramesRetired : Nat := 0x0103
def errChannelRetired : Nat := 0x0104
def errRetireBlocked : Nat := 0x0105
def errFlashRebuilt : Nat := 0x0201
def errFlashLost : Nat := 0x0202
def errDieRetired : Nat := 0x0203
def errBelowFloor : Nat := 0x0204
def errAboveFloor : Nat := 0x0205
def errContextFault : Nat := 0x0301
def errWeightsLost : Nat := 0x0302
def errIndexRestored : Nat := 0x0303
def errComparator : Nat := 0x0401
def errThrottle : Nat := 0x0402
def errCapExcursion : Nat := 0x0403
def errMarginPlan : Nat := 0x0501
def errMarginExhausted : Nat := 0x0502
def errIdeFail : Nat := 0x0601
def errFatal : Nat := 0x0F01

/-- Severity of a class: 0 INFO, 1 WARNING, 2 ALERT, 3 FATAL (table Error classes). -/
def severityOf (cls : Nat) : Nat :=
  if cls == 0x0F01 then 3
  else if [0x0104, 0x0105, 0x0202, 0x0203, 0x0204, 0x0302, 0x0502, 0x0601].contains cls then 2
  else if [0x0101, 0x0103, 0x0301, 0x0303, 0x0401, 0x0403].contains cls then 1
  else 0

/-- ENTRY a lies above b, modulo 2^32 (R375). -/
def entryAbove (a b : Word32) : Bool := a != b && (a - b).toNat < 2 ^ 31

/-- Some ALERT entry lies above ERR_ACK (R375). -/
def alertOpen (s : State) : Bool :=
  let ack := BitVec.ofNat 32 (dictValue s 0x600B 0 0)
  s.health.errors.any (fun e => e.severity == 2 && entryAbove e.entry ack)

/-- ALERT_N follows the unacknowledged ALERT entries (R375). -/
def refreshAlert (s : State) : State := { s with pins := { s.pins with alertLow := alertOpen s } }

/-- An error log entry is formed; the ring keeps the newest 16,384 (R374); an ALERT entry sends its event and asserts
ALERT_N (R375). -/
def logEntry (s : State) (cls sev unit detail : Nat) (ctx : Option (Nat × Nat)) : State :=
  let e : ErrEntry := { dtb := now s, boot := s.time.bootCount, entry := s.health.nextEntry, cls := cls, severity := sev,
                        ctx := ctx, unit := unit, detail := BitVec.ofNat 128 detail }
  let l := s.health.errors ++ [e]
  let s1 := { s with health := { s.health with nextEntry := s.health.nextEntry + 1,
                                               errors := l.drop (l.length - 16384) } }
  if sev == 2 then refreshAlert (sendEvent s1 0x0004 (BitVec.ofNat 64 e.entry.toNat)) else s1

/-- An entry of a class of the table, with its severity. -/
def logError (s : State) (cls unit detail : Nat) (ctx : Option (Nat × Nat) := none) : State :=
  logEntry s cls (severityOf cls) unit detail ctx

/-- An event that is no ALERT is recorded in the error log too (R319); the manual gives it no class, so CLASS is a free
value (log entry 21). -/
def raiseEvent (s : State) (code : Nat) (data : Word64) : State :=
  let cls := (freshValue s).toNat % 65536
  sendEvent (logEntry (bumpFree s) cls 0 code data.toNat none) code data

/-! The moraine log (R369). -/

/-- A moraine record is written; the ring keeps the newest 1,048,576 (R369). -/
def logMoraine (s : State) (kind unit : Nat) (v0 v1 v2 v3 limit : Word32) : State :=
  let r : Moraine := { dtb := now s, boot := s.time.bootCount, seq := s.health.nextRecord, kind := kind, unit := unit,
                       v0 := v0, v1 := v1, v2 := v2, v3 := v3, limit := limit, plan := s.health.planNumber }
  let l := s.health.moraine ++ [r]
  { s with health := { s.health with nextRecord := s.health.nextRecord + 1, moraine := l.drop (l.length - 1048576) } }

/-- Another unit of a brace stripe is lost, so that this one cannot be rebuilt from the other seven (R358, R381). -/
def stripeBroken (s : State) (channel die unit : Nat) : Bool :=
  s.health.lostUnits.any (fun u => u.1 / 8 == channel / 8 && u.1 != channel && u.2 == (die, unit))

/-! Free flash (R363). -/

/-- GROUP_USABLE of a group (R363, R364). -/
def groupUsableBytes (s : State) (g : Nat) : Nat := s.sec.order.groupUsable - (lookupKey s.health.groupLost g).getD 0

/-- Number of a region's pages that R224 homes on group g: page p goes to the (p mod m)-th set bit. -/
def homedPages (groups : BitVec 16) (pages g : Nat) : Nat :=
  let gs := setBits groups
  match gs.findIdx? (fun x => x == g) with
  | some i => if pages ≤ i then 0 else (pages - i - 1) / gs.length + 1
  | none => 0

/-- Read units on a group that the live versions of an index name, and the version that a round builds. -/
def indexUnits (x : Index) (g : Nat) : Nat :=
  ((((x.versions ++ (x.merge.bind (fun m => m.building)).toList).flatMap (fun v => (v.nodeMap ++ v.rerankMap).map (fun e => e.2))).filter
    (fun l => l.channel / 8 == g)).eraseDups).length

/-- Bytes of a group that reservations and region homes take, and of written units not yet freed: those that an index holds beyond its
reservation, and the old extents of frames that are being written back (R33, R222, R363). -/
def groupTaken (s : State) (g : Nat) : Nat :=
  sumOf (s.indexes.map (fun x => max (if flag x.params.groups g then x.reservePerGroup else 0) (4096 * indexUnits x g))) +
  262144 * (s.tier.frames.filter (fun e => e.state == .writeback && e.home.any (fun h => h.1 == g))).length +
  sumOf ((s.bay.regions.filter (fun r => r.kind == 2)).map (fun r => 262144 * homedPages r.groups r.pages g)) +
  (lookupKey s.health.groupUsed g).getD 0

/-- Free flash of a group (R363). -/
def groupFreeBytes (s : State) (g : Nat) : Nat := groupUsableBytes s g - groupTaken s g

/-- Thresholds of levels 1 to 3 in units of 0.25 % (table Flash capacity levels). -/
def levelUnits (s : State) (l : Nat) : Nat :=
  match l with
  | 1 => 4 * marginFloor s
  | 2 => 2 * marginFloor s
  | 3 => 1
  | _ => 0

/-- Free fraction below a number of 0.25 % units. -/
def freeBelow (s : State) (g units : Nat) : Bool := decide (groupFreeBytes s g * 400 < groupUsableBytes s g * units)

/-- Level of a group now: a level is entered below its threshold and left only 0.5 points above it (R363). -/
def groupLevelNow (s : State) (g : Nat) : Nat :=
  let held := (lookupKey s.health.groupLevel g).getD 0
  (List.range 4).foldl (fun acc l =>
    if l == 0 then acc
    else if freeBelow s g (levelUnits s l) || (l ≤ held && freeBelow s g (levelUnits s l + 2)) then l else acc) 0

/-- Free fraction of a group in 0.01 % (R364). -/
def groupFreeCenti (s : State) (g : Nat) : Nat := groupFreeBytes s g * 10000 / max 1 (groupUsableBytes s g)

/-- Levels of one group brought up to date and logged (R363). -/
def refreshLevel (s : State) (g : Nat) : State :=
  let held := (lookupKey s.health.groupLevel g).getD 0
  let l := groupLevelNow s g
  if l == held then s
  else
    let gl := if l == 0 then dropKey s.health.groupLevel g else putKey s.health.groupLevel g l
    let s1 := { s with health := { s.health with groupLevel := gl } }
    if held < l then
      (List.range 4).foldl (fun st k => if held < k && k ≤ l then logError st errBelowFloor g (k + groupFreeCenti s g * 2 ^ 64) else st) s1
    else if l == 0 then logError s1 errAboveFloor g (groupFreeCenti s g) else s1

/-- Levels of all groups brought up to date (R363). -/
def refreshLevels (s : State) : State := (List.range 16).foldl refreshLevel s

/-- Some group of a mask stands at a level or worse. -/
def maskAtLevel (s : State) (groups : BitVec 16) (l : Nat) : Bool := (setBits groups).any (fun g => decide (l ≤ groupLevelNow s g))

/-! Free DRAM (R228). -/

/-- A page lies in a region that a bay or one of its contexts holds: the module's own regions and those in custody are bay 0's and
count against no quota (R287, R291). -/
def ownPage (s : State) (b page : Nat) : Bool :=
  match regionOfPage s page with
  | some r => r.bay == b && !r.custody && !r.module
  | none => false

/-- Frames counted against a bay's quota: frames of its regions and its resident FLASH frames (R228, R287). The pieces of an exclusive
channel are no frames of the tier map (log entry 28). -/
def quotaFrames (s : State) (b : Nat) : List Frame_ :=
  s.tier.frames.filter (fun e => e.bay == b && !e.zeroing && e.num < exclDesc &&
    (match e.state with
     | .fill | .resident | .writeback | .local_ | .dram => ownPage s b e.page
     | _ => false))

/-- Pieces of a bay's bank-local regions that hold nothing and whose frames went to other pieces (R212; log entry 29). -/
def barePieces (s : State) (b : Nat) : Nat :=
  sumOf ((s.bay.regions.filter (fun r => r.kind == 3 && r.bay == b && !r.custody && !r.module)).map (fun r =>
    r.pages - (s.tier.frames.filter (fun e => e.state == .local_ && !e.zeroing && r.base ≤ e.page && e.page < r.base + r.pages)).length))

/-- Frames of a bay's quota in use (R228). -/
def quotaUsed (s : State) (b : Nat) : Nat := (quotaFrames s b).length + barePieces s b

/-- The part of a bay's quota that no frame uses (R228). -/
def quotaUnused (s : State) (b : Nat) : Nat := (bayAt s b).frames - quotaUsed s b

/-- Free DRAM: FREE data frames less the unused quota of every bound bay that is not being reclaimed (R228). -/
def freeDram (s : State) : Nat :=
  freeFrames s - sumOf ((s.bay.bays.filter (fun e => e.2.mode == .bound)).map (fun e => quotaUnused s e.1))

/-- Frames of a bay's quota that cannot be evicted: DRAM regions, bank-local pieces, pinned FLASH frames (R228). -/
def quotaFixed (s : State) (b : Nat) : Nat :=
  ((quotaFrames s b).filter (fun e => e.state == .dram || e.state == .local_ || e.pin != 0)).length + barePieces s b

/-- Evictable frames of a bay (R228). -/
def evictable (s : State) (b : Nat) : Nat := (bayAt s b).frames - quotaFixed s b

end Sys2Proof.Machine
end

