-- ==== Sys2Proof/Machine/Domains.lean ====
section
/-! DEFINITION. Power domains: numbering, wake and entry times, starting a wake, and how deep a domain may go
(R126, R127, R337 to R349). -/

namespace Sys2Proof.Machine

open Sys2Proof

/-- Kinds of power domains (R337). -/
inductive DomKind where
  | mgmt
  | sec
  | cxl
  | fab
  | array
  | lpc
  | flg
  deriving DecidableEq, Repr

/-- Kind of domain n (table Power domains). -/
def domKind (n : Nat) : DomKind :=
  if n == 0 then .mgmt else if n == 1 then .sec else if n == 2 then .cxl else if n == 3 then .fab
  else if n < 164 then .array else if n < 180 then .lpc else .flg

/-- Domain of array a. -/
def arrayDomain (a : Nat) : Nat := 4 + a
/-- Domain of DRAM controller p. -/
def lpcDomain (p : Nat) : Nat := 164 + p
/-- Domain of flash group g. -/
def flgDomain (g : Nat) : Nat := 180 + g

/-- TIMER_RET default in µs (table Idle conditions). -/
def timerRetDefault (n : Nat) : Nat :=
  match domKind n with
  | .array => 200
  | .flg => 500
  | .mgmt => 10000
  | _ => 1000

/-- TIMER_OFF default in µs (table Idle conditions). -/
def timerOffDefault (n : Nat) : Nat :=
  match domKind n with
  | .array => 100000
  | .flg => 10000000
  | _ => 0

/-- TIMER_RET and TIMER_OFF in force, µs (R328, R339). -/
def timerRet (s : State) (n : Nat) : Nat := dictValue s (0x2100 + n) 2 (timerRetDefault n)
def timerOff (s : State) (n : Nat) : Nat := dictValue s (0x2100 + n) 3 (timerOffDefault n)

/-- Wake time from retention and from off, ns (R348). -/
def wakeFromRet (n : Nat) : Nat :=
  match domKind n with
  | .array => 20000
  | .lpc => 30000
  | .flg => 50000
  | .fab => 10000
  | .cxl => 8000
  | .sec => 20000
  | .mgmt => 30000

def wakeFromOff (n : Nat) : Nat :=
  match domKind n with
  | .array => 400000
  | .lpc => 1500000
  | .flg => 2000000
  | .fab => 3000000
  | .cxl => 1000000
  | .sec => 5000000
  | .mgmt => 150000000

/-- Entry time to retention and to off, ns (R348). -/
def entryToRet (n : Nat) : Nat :=
  match domKind n with
  | .array => 5000
  | .lpc => 10000
  | .flg => 10000
  | .fab => 5000
  | .cxl => 2000
  | .sec => 5000
  | .mgmt => 3000

def entryToOff (n : Nat) : Nat :=
  match domKind n with
  | .array => 10000
  | .lpc => 50000
  | .flg => 100000
  | .fab => 1000000
  | .cxl => 20000
  | .sec => 20000
  | .mgmt => 50000

/-- Wake time of a domain from where it stands; one in entry counts as in its target (R126). A domain already waking
counts the whole wake from the state that it leaves (log entry 22). -/
def wakeTime (s : State) (n : Nat) : Nat :=
  match (domainAt s n).state with
  | .on => 0
  | .retention => wakeFromRet n
  | .off => wakeFromOff n
  | .entering t => if t == 2 then wakeFromOff n else wakeFromRet n
  | .waking => if (domainAt s n).fromOff then wakeFromOff n else wakeFromRet n

/-- Domains that domain n depends on when it wakes (table Power domains). -/
def dependsOn (n : Nat) : List Nat :=
  match domKind n with
  | .sec | .cxl | .array | .flg => [3]
  | _ => []

/-- A domain leaves or will leave off when it wakes. -/
def wakesFromOff (s : State) (n : Nat) : Bool :=
  let d := domainAt s n
  match d.state with
  | .off => true
  | .entering t => t == 2
  | .waking => d.fromOff
  | _ => false

/-- Wake time of FAB, that of the DRAM controllers before it when it leaves off (R337, R348). -/
def fabWake (s : State) : Nat :=
  wakeTime s 3 + (if wakesFromOff s 3 then maxOf ((List.range 16).map (fun p => wakeTime s (lpcDomain p))) else 0)

/-- Wake time with the wake of the domains it depends on first (R348). -/
def chainWake (s : State) (n : Nat) : Nat :=
  if (domainAt s n).state == .on then 0
  else if n == 3 then fabWake s
  else wakeTime s n + (if dependsOn n == [] then 0 else fabWake s)

/-- Domains that depend on domain n; FAB depends on the DRAM controllers while it wakes from off (table Power domains). -/
def dependents (s : State) (n : Nat) : List Nat :=
  if n == 3 then [1, 2] ++ (List.range 160).map arrayDomain ++ (List.range 16).map flgDomain
  else if domKind n == .lpc && (domainAt s 3).state == .waking && (domainAt s 3).fromOff then [3]
  else []

/-- A domain has its supply: MGMT's standby comes from AUX, every other domain's from the main rails (R27, R411). -/
def supplied (s : State) (n : Nat) : Bool := s.pins.mainOn || (n == 0 && s.pins.auxGood)

/-- One domain asked to wake: a wake starts from retention or off and is recorded (R347); a domain in entry latches a
level or, after the entry window, an edge (R342); two sources in one sill tick of 125 ns record the lower code; to one that is on it is
activity, which clears the idle timer (R339). -/
def wakeOne (s : State) (n source : Nat) : State :=
  let d := domainAt s n
  match d.state with
  | .retention | .off =>
    setDomain s { d with
      state := .waking, lastWake := source, lastWakeDtb := now s, fromOff := d.state == .off, idleSince := none, due := 0 }
  | .entering _ =>
    if source == 2 || source == 3 then
      (if d.entryAt + 500 ≤ now s then setDomain s { d with edge := some source } else s)
    else setDomain s { d with latches := insertAsc source d.latches }
  | .waking => if d.lastWakeDtb / 125 == now s / 125 && source < d.lastWake then setDomain s { d with lastWake := source } else s
  | .on => if d.idleSince.isSome || d.due != 0 then setDomain s { d with idleSince := none, due := 0 } else s

/-- A domain asked to wake, its dependencies first with source 0x08 (R343, R348). -/
def startWake (s : State) (n source : Nat) : State :=
  let fab := fun (st : State) (c : Nat) =>
    let st1 := if wakesFromOff st 3 then (List.range 16).foldl (fun st2 p => wakeOne st2 (lpcDomain p) 0x08) st else st
    wakeOne st1 3 c
  if n == 3 then fab s source else wakeOne (if dependsOn n == [] then s else fab s 0x08) n source

/-- A request for MGMT wakes it where it is not on: one that it serves from retention and one that is refused for its absence
(R320, R343, R345; log entry 93). -/
def rouseMgmt (s : State) (source : Nat) : State :=
  if supplied s 0 && (domainAt s 0).state != .on then startWake s 0 source else s

/-- Domains that a command or an action of the firmware needs, each asked to wake with source 0x09 (R343). -/
def needDomains (s : State) (ds : List Nat) : State := if s.pins.mainOn then ds.foldl (fun st n => startWake st n 0x09) s else s

/-- Domains of the DRAM controllers, and of the flash groups of some channels. -/
def lpcDomains : List Nat := (List.range 16).map lpcDomain
def flgDomains (cs : List Nat) : List Nat := (cs.map (fun c => flgDomain (c / 8))).eraseDups

/-- Result region length in bytes of a search result (R84). -/
def searchRegion (k : Nat) : Nat := (32 + 16 * k + 63) / 64 * 64

/-- Bytes of a slot's codes and scale words (R49). -/
def vectorBytes (p : IndexParams) : Nat :=
  if p.rfmt == 0 then 0
  else (if p.rfmt == 1 then p.rdim / 2 else p.rdim) + 2 * (p.rdim / groupSize p.rgs)

/-- Stride of an ENCODE position (R270). -/
def encodeRegion (p : IndexParams) : Nat := ((64 + p.w / 8 + 63) / 64 * 64 + vectorBytes p + 63) / 64 * 64

/-- T_out for a result region of b bytes (R130). -/
def tOut (b : Nat) : Nat := 1000 + 2 * ceilDiv b 64

/-- Region length of a plan's query or run (R84, R270, R278). -/
def regionBytes (s : State) (p : Plan) : Nat :=
  match p.kind with
  | .search | .encodeSearch | .rerank => searchRegion p.params.k
  | .encode => (match p.index.bind (indexAt s) with
                | some x => encodeRegion x.params
                | none => 64)
  | .run | .train => 64

/-- T_out of a plan on a pair of batch size b: the result region of the whole batch; a run writes one header (R130, R278). -/
def tOutOf (s : State) (p : Plan) (b : Nat) : Nat :=
  match p.kind with
  | .run | .train => tOut (regionBytes s p)
  | _ => tOut (b * regionBytes s p)

/-- LC slack of a bay: over its LC pairs and LC plans, the least D_qp − T_tail − T_out − S × 100 µs − 2 µs; none without
an LC pair and an LC plan (R127). -/
def lcSlack (s : State) (b : Nat) : Option Int :=
  let pairs := s.queues.pairs.filter (fun q => q.bay == b && q.lc)
  let plans := s.bay.plans.filter (fun p => p.lcOk && bayOfCtx s p.ctx == b)
  let vals : List Int := pairs.flatMap (fun q => plans.filterMap (fun p =>
    p.profile.map (fun f => (q.dqp : Int) - f.tTail - tOutOf s p q.bsize - f.span * 100000 - 2000)))
  match vals with
  | [] => none
  | v :: r => some (r.foldl min v)

/-- Bays that hold a domain: the bay of an array; for DRAM controllers every bay; for a flash group the bays that bind a
channel of it or whose LC plans name an index on it. -/
def baysOfDomain (s : State) (n : Nat) : List Nat :=
  match domKind n with
  | .array => (s.bay.bays.filter (fun e => e.2.arrays.contains (n - 4))).map (fun e => e.1)
  | .lpc => (s.bay.bays.filter (fun e => e.2.mode != .unbound)).map (fun e => e.1)
  | .flg => (s.bay.bays.filter (fun e => e.2.flash.any (fun c => c / 8 == n - 180) ||
      s.bay.plans.any (fun p => p.lcOk && bayOfCtx s p.ctx == e.1 &&
        (match p.index.bind (indexAt s) with
         | some x => flag x.params.groups (n - 180)
         | none => false)))).map (fun e => e.1)
  | _ => []

/-- DEPTH_CAP of a domain: 0 on, 1 retention, 2 off (R127, R340). -/
def depthCap (s : State) (n : Nat) : Nat :=
  if n == 2 || n == 3 then (if s.queues.pairs.any (fun q => q.lc) then 0 else 2)
  else
    (baysOfDomain s n).foldl (fun cap b =>
      match lcSlack s b with
      | some k =>
        min cap (if (wakeFromOff n : Int) ≤ k then 2 else if (wakeFromRet n : Int) ≤ k then 1 else 0)
      | none => cap) 2

/-- Depth at which a domain stands or to which it goes: 0 on, 1 retention, 2 off. -/
def depthOf (s : State) (n : Nat) : Nat :=
  match (domainAt s n).state with
  | .retention => 1
  | .off => 2
  | .entering t => t
  | _ => 0

/-- Domains that stand deeper than their cap (R341). -/
def cappedDomains (s : State) : List Nat := (List.range 196).filter (fun n => depthCap s n < depthOf s n)

/-- Those domains are woken with source 0x09 (R341). -/
def wakeCapped (s : State) : State := (cappedDomains s).foldl (fun st n => startWake st n 0x09) s

end Sys2Proof.Machine
end

