-- ==== Sys2Proof/Machine/Results.lean ====
section
/-! DEFINITION. How a query, a run or a refused position ends: its result header, the accounting of its batch and the
batch completion (R84, R85, R124, R128, R266 to R271, R278, R284). -/

namespace Sys2Proof.Machine

open Sys2Proof

/-- Fields of a result header (R84). -/
structure Header where
  status : Nat
  version : Nat := 0
  nan : Nat := 0
  tieCount : Nat := 0
  count : Nat := 0
  completeness : Nat := 0
  rerankShort : Bool := false
  widened : Bool := false
  deriving DecidableEq, Repr

/-- The result header of 32 bytes; TIE is set when TIE_COUNT is 2 or more (R84, R102). -/
def headerWord (dtb : Nat) (h : Header) : BitVec 256 :=
  BitVec.ofNat 256 ((if 2 ≤ h.tieCount then 1 else 0) + (if h.widened then 2 else 0) + (if h.rerankShort then 4 else 0) +
    h.status % 2 ^ 16 * 2 ^ 16 + h.completeness % 256 * 2 ^ 40 + h.count % 2 ^ 40 * 2 ^ 48 + h.tieCount % 2 ^ 40 * 2 ^ 88 +
    h.nan % 2 ^ 32 * 2 ^ 128 + h.version % 2 ^ 32 * 2 ^ 160 + dtb % 2 ^ 64 * 2 ^ 192)

/-- A result entry of 16 bytes (R84). -/
def resultEntry (score : Word32) (hamming source index localId : Nat) : BitVec 128 :=
  BitVec.ofNat 128 (vectorId index localId + source % 256 * 2 ^ 72 + hamming % 65536 * 2 ^ 80 + score.toNat * 2 ^ 96)

/-- Host address of the result region of a position: PTR2 + position × stride; a run writes at PTR2 (R84, R270, R278). -/
def resultAddr (s : State) (q cid pos : Nat) : Nat :=
  match runningCmd s q cid with
  | some c =>
    sqePtr2 c.sqe + pos * (match planAt s (cmdPlan c.sqe) with
      | some p => regionBytes s p
      | none => 0)
  | none => 0

/-- A position's header is written; a status other than ST_OK counts in NDIFF, and a run keeps it as its status
(R84, R262, R270, R278). -/
def writeHeader (s : State) (q cid pos : Nat) (h : Header) : State :=
  let s1 := emit s (.header q cid pos (resultAddr s q cid pos) (headerWord (now s) h))
  updCmd s1 q cid (fun c => { c with ndiff := c.ndiff + (if h.status == stOk then 0 else 1), status := h.status })

/-- Queries removed: their slots are free, and what they hold in windows after the present one returns; amounts of the
present window stay held until it is over (R128). -/
def dropQueries (s : State) (p : Query → Bool) : State :=
  let w := windowOf (now s)
  let rest := s.adm.kept.filter (fun e => w ≤ e.2.2.1)
  let more := (s.adm.queries.filter p).flatMap (fun x =>
    (x.holds.filter (fun h => h.2.1 == w)).map (fun h => (x.bay, h.1, h.2.1, h.2.2)))
  { s with adm := { s.adm with queries := s.adm.queries.filter (fun x => !p x), kept := rest ++ more } }

/-- The query in a slot removed (R128, R269). -/
def dropQuery (s : State) (slot : Nat) : State := dropQueries s (fun x => x.slot == slot)

/-- The result header of a query is written and its work is over; it stays pinned to its version until the completion of
its batch is posted (R58, R84). -/
def endQuery (s : State) (x : Query) (h : Header) : State :=
  let s1 := writeHeader s x.q x.cid x.pos h
  updQuery s1 x.slot (fun y => { y with stage := .done, status := h.status, reading := [], rebuilding := [],
                                        rebuildUnits := [], survivors := [], recs := [], entryReads := [], got := [],
                                        blocks := [], slots := [], running := [] })

/-- A query ended with one of the statuses under which COUNT and COMPLETENESS are 0 (R85). -/
def failQuery (s : State) (x : Query) (status : Nat) : State :=
  endQuery s x { status := status, version := x.version }

/-- Progress of a context: one of its requests posted a completion or one of its cuts ended (R135). -/
def progressCtx (s : State) (c : Nat) : State := updCtx s c (fun x => { x with progress := now s })

/-- Every accepted query of a command has its header written. -/
def batchOver (s : State) (q cid : Nat) : Bool :=
  s.adm.queries.all (fun x => !(x.q == q && x.cid == cid) || x.stage == .done)

/-- Queries of a command. -/
def queriesOf (s : State) (q cid : Nat) : List Query := s.adm.queries.filter (fun x => x.q == q && x.cid == cid)

/-- The slots of a command's queries are freed at its completion. -/
def dropBatch (s : State) (q cid : Nat) : State := dropQueries s (fun x => x.q == q && x.cid == cid)

/-- The completion of a batch or run (R124, R262, R271): a run carries its own status, a batch ST_OK or ST_QUERY_STATUS. -/
def postBatch (s : State) (q cid : Nat) : State :=
  match runningCmd s q cid with
  | none => s
  | some c =>
    let run := sqeOpcode c.sqe == 0x07
    let status := if run then c.status else if c.ndiff == 0 then stOk else stQueryStatus
    let s1 := progressCtx (dropBatch s q cid) (ctxOfQueue s q)
    if run then postRecord s1 q c status 0 0 0 else postRecord s1 q c status 0 c.nacc c.ndiff

/-- A consumed command ends because its context ended (R284): its queries not yet ended take ST_CONTEXT_ENDED, and the
completion carries it too. -/
def abandonCmd (s : State) (q : Nat) (c : Cmd) (result : Nat) : State :=
  let live := s.adm.queries.filter (fun x => x.q == q && x.cid == c.cid && x.stage != .done)
  let s1 := if c.phase == .running then live.foldl (fun st x => failQuery st x stContextEnded) s else s
  match queueOf s1 q with
  | none => s1
  | some u =>
    match u.cmds.find? (fun d => d.seq == c.seq) with
    | none => s1
    | some d =>
      let s2 := if c.phase == .running then dropBatch s1 q c.cid else s1
      let batch := 1 ≤ sqeOpcode d.sqe && sqeOpcode d.sqe ≤ 4
      postRecord s2 q d stContextEnded result (if batch then d.nacc else 0) (if batch then d.ndiff else 0)

end Sys2Proof.Machine
end

