-- ==== Sys2Proof/Machine/Pegs.lean ====
section
/-! DEFINITION. Pegs: who may use one, the operations, the waits they satisfy, BROKEN, and the freeing of pegs
(R300, R306 to R311). -/

namespace Sys2Proof.Machine

open Sys2Proof

/-- The bound bay whose peg blocks hold peg p (R306, R307). -/
def pegBay (s : State) (p : Nat) : Option Nat :=
  (s.bay.bays.find? (fun e => e.2.mode != .unbound && e.2.pegBlocks.contains (p / 1024))).map (fun e => e.1)

/-- Notice peg of a bound bay: the lowest peg of its lowest block (R300). -/
def noticePeg (s : State) (b : Nat) : Option Nat :=
  if bayBound s b then (bayAt s b).pegBlocks.head?.map (fun k => 1024 * k) else none

/-- The notice peg of a bay follows its lowest peg block: when a lower block joins, its record and the waits on it take the new
number (R300; log entry 39). -/
def settleNotice (s : State) (b : Nat) : State :=
  match noticePeg s b, s.bay.pegs.find? (fun p => p.kind == .notice && p.bay == b) with
  | some n, some p =>
    if p.num == n then s
    else
      let rest := s.bay.pegs.filter (fun x => x.num != p.num)
      { s with bay := { s.bay with
          pegs := insertBy (fun (a c : Peg) => decide (a.num < c.num)) { p with num := n } rest,
          waits := s.bay.waits.map (fun (w : PegWait) => if w.peg == p.num then { w with peg := n } else w) } }
  | _, _ => s

/-- Bay c's contexts may use the public pegs of bay b (R308). -/
def bayMayShare (s : State) (b c : Nat) : Bool := b == c || c == 0 || flag (bayAt s b).pegShare c

/-- A context may use an allocated peg; a notice peg only from its own bay (R300, R308). -/
def mayUsePeg (s : State) (ctx : Nat) (p : Peg) : Bool :=
  match p.kind with
  | .private_ => p.ctx == some ctx
  | .public_ => bayMayShare s p.bay (bayOfCtx s ctx)
  | .notice => p.bay == bayOfCtx s ctx

/-- A wait's condition holds (R309). -/
def waitHolds (w : PegWait) (v : Word64) : Bool :=
  match w.kind with
  | .ge => decide (w.operand.toNat ≤ v.toNat)
  | .eq => v == w.operand
  | .acquire => false

/-- The CXL block takes a peg signal: its domain is on. In the entry window the signal is lost (R342, R345). -/
def cxlOn (s : State) : Bool := (domainAt s 2).state == .on

/-- A wait ended with a status; RESULT is the peg's VALUE (R309). -/
def endWait (s : State) (w : PegWait) (status : Nat) : State :=
  let v := (pegAt s w.peg).map (fun p => p.value.toNat)
  let s1 := { s with bay := { s.bay with waits := removeFirst (fun x => x == w) s.bay.waits } }
  progressCtx (postCompletion s1 w.q w.cid status (v.getD 0)) w.ctx

/-- A satisfied wait: it completes when CXL is on; otherwise the signal wakes CXL and is repeated (R343, R345). -/
def serveWait (s : State) (w : PegWait) (status : Nat) : State :=
  if cxlOn s then endWait s w status
  else
    let s1 := { s with bay := { s.bay with waits := updateFirst (fun x => x == w) (fun x => { x with lost := true }) s.bay.waits } }
    startWake s1 2 0x03

/-- Arbitration order of a port at a tick (R311). -/
def portOrder (port tick : Nat) : Nat := (port + 178 - tick % 178) % 178

/-- An operation on a peg comes after one of the same tick that the unit applies later: it is of the next tick (R28, R311; log entry
95). -/
def turnOver (s : State) (p port : Nat) : Bool :=
  match lookupKey s.bay.pegTurns p with
  | some (t, o) => t == now s && decide (portOrder port t < o)
  | none => false

/-- The peg tick in which an operation of a requester port is applied: operations on one peg in one tick go in ascending order of
(port − t) mod 178 (R309, R311). -/
def pegTurn (s : State) (p port : Nat) : State :=
  let s1 := if turnOver s p port then advanceTo s (now s + 1) else s
  let kept := s1.bay.pegTurns.filter (fun e => e.2.1 == now s1)
  { s1 with bay := { s1.bay with pegTurns := putKey kept p (now s1, portOrder port (now s1)) } }

/-- ACQUIRE waits in the order they are granted: request tick, then arbitration (R309, R311). -/
def acquireBefore (a b : PegWait) : Bool :=
  decide (a.tick < b.tick) || (a.tick == b.tick && decide (portOrder a.port a.tick < portOrder b.port b.tick))

/-- The next ACQUIRE wait of a peg. -/
def nextAcquire (s : State) (p : Nat) : Option PegWait :=
  (sortBy acquireBefore (s.bay.waits.filter (fun w => w.peg == p && w.kind == .acquire))).head?

/-- A context takes a peg: BROKEN is cleared, and the status tells it (R310). -/
def takePeg (s : State) (p ctx : Nat) : State := updPeg s p (fun x => { x with holder := some ctx, broken := false })

/-- The peg that a run's next cut waits on, if any (R171, R172). -/
def cutWaitPeg (p : Plan) (x : Query) (c : Nat) : Option Nat :=
  match p.cuts[c]? with
  | none => none
  | some d =>
    if d.waitPeg == 0xFFFF then none
    else
      match p.pegs[d.waitPeg]? with
      | none => none
      | some b => if b.kind == 1 then (x.args.getD b.ref none) else b.peg

/-- Logical arrays of a cut, as array numbers (R168, R171). -/
def cutArrays (p : Plan) (c : Nat) : List Nat :=
  match p.cuts[c]? with
  | some d => (p.arrays.drop d.firstLa).take d.nLa
  | none => []

/-- A cut of a query has started; it has ended. -/
def cutStarted (x : Query) (c : Nat) : Bool := c < x.nextCut || x.ahead.contains c
def cutEnded (x : Query) (c : Nat) : Bool := cutStarted x c && !x.running.any (fun r => r.cut == c)

/-- It is a cut's turn in its list: it has not started, and every earlier cut that its arrays share has ended (R165). -/
def cutTurn (p : Plan) (x : Query) (c : Nat) : Bool :=
  !cutStarted x c && (List.range c).all (fun e => cutEnded x e || (cutArrays p e).all (fun a => !(cutArrays p c).contains a))

/-- The cuts of a query whose turn it is, ascending (R165). -/
def waitingCuts (p : Plan) (x : Query) : List Nat := ((List.range p.cuts.length).drop x.nextCut).filter (cutTurn p x)

/-- Arrays that hold a cut whose WAIT_PEG is satisfied are asked to wake, as an edge (R343). -/
def wakeWaitingCuts (s : State) (p : Nat) (v : Word64) : State :=
  (s.adm.queries.filter (fun x => x.stage != .done)).foldl (fun st x =>
    match planAt s x.plan with
    | none => st
    | some pl =>
      ((waitingCuts pl x).filter (fun c => cutWaitPeg pl x c == some p && (pl.cuts[c]?).any (fun d => decide (d.waitValue ≤ v.toNat)))).foldl
        (fun st1 c => (cutArrays pl c).foldl (fun st2 a => startWake st2 (arrayDomain a) 0x03) st1) st) s

/-- Waits that an operation on a peg satisfies complete: tests all at once, ACQUIRE one at a time (R309). -/
def settlePeg (s : State) (p : Nat) : State :=
  match pegAt s p with
  | none => s
  | some x =>
    let s0 := wakeWaitingCuts s p x.value
    let s1 := (s.bay.waits.filter (fun w => w.peg == p && waitHolds w x.value)).foldl (fun st w => serveWait st w stOk) s0
    if x.holder.isSome then s1
    else
      match nextAcquire s1 p with
      | none => s1
      | some w =>
        if cxlOn s1 then endWait (takePeg s1 p w.ctx) w (if x.broken then stPegBroken else stOk)
        else serveWait s1 w stOk

/-- A peg released by a holder that ended: BROKEN is set, pending tests complete with ST_PEG_BROKEN, and the next ACQUIRE
is granted (R310). -/
def breakPeg (s : State) (p : Nat) : State :=
  let s1 := updPeg s p (fun x => { x with holder := none, broken := true })
  let ws := s1.bay.waits.filter (fun w => w.peg == p && w.kind != .acquire)
  settlePeg (ws.foldl (fun st w => endWait st w stPegBroken) s1) p

/-- Pegs that a context holds are released with BROKEN set (R310). -/
def breakHeld (s : State) (ctx : Nat) : State :=
  (s.bay.pegs.filter (fun x => x.holder == some ctx)).foldl (fun st x => breakPeg st x.num) s

/-- Runs of which a cut waits on a peg end with a status (R310). -/
def endRunsOnPeg (s : State) (p status : Nat) : State :=
  (s.adm.queries.filter (fun x => x.stage != .done &&
    (match planAt s x.plan with
     | some pl => (waitingCuts pl x).any (fun c => cutWaitPeg pl x c == some p)
     | none => false))).foldl (fun st x => failQuery st x status) s

/-- A peg becomes free: every pending wait on it and every run waiting on it ends with ST_PEG_BROKEN (R310). -/
def freePeg (s : State) (p : Nat) : State :=
  let s1 := (s.bay.waits.filter (fun w => w.peg == p)).foldl (fun st w => endWait st w stPegBroken) s
  let s2 := endRunsOnPeg s1 p stPegBroken
  { s2 with bay := { s2.bay with pegs := s2.bay.pegs.filter (fun x => x.num != p) } }

/-- Pegs allocated to a context are freed (R307, R310). -/
def freePegsOf (s : State) (ctx : Nat) : State :=
  (s.bay.pegs.filter (fun x => x.ctx == some ctx)).foldl (fun st x => freePeg st x.num) s

/-- A signalled peg: VALUE + 1 (R171, R182, R196); a notice peg takes no signal (R300). -/
def raisePeg (s : State) (p : Nat) : State :=
  if (pegAt s p).any (fun x => x.kind == .notice) then s else settlePeg (updPeg s p (fun x => { x with value := x.value + 1 })) p

/-- A peg signalled by a cut, a stream or a rime request through its port, in that port's turn (R171, R182, R196, R311). -/
def signalPeg (s : State) (port p : Nat) : State := raisePeg (pegTurn s p port) p

/-- Outcome of one peg operation at the peg unit. -/
inductive PegOutcome where
  /-- ended at once with a status and RESULT -/
  | ended (status result : Nat)
  /-- waits -/
  | waits (kind : WaitKind)
  deriving DecidableEq, Repr

/-- SET by a context (R307 to R309). -/
def pegSetOp (s : State) (ctx p : Nat) (v : Word64) : State × PegOutcome :=
  match pegAt s p with
  | none =>
    if pegBay s p == some (bayOfCtx s ctx) && (ctxAt s ctx).isSome then
      (addPeg s { num := p, value := v, bay := bayOfCtx s ctx, ctx := some ctx, kind := .public_ }, .ended stOk v.toNat)
    else (s, .ended stNotFound 0)
  | some x =>
    if !mayUsePeg s ctx x then (s, .ended stNotFound 0)
    else if x.kind == .notice then (s, .ended stInvalidField 0)
    else (settlePeg (updPeg s p (fun y => { y with value := v })) p, .ended stOk v.toNat)

/-- ADD (R309). -/
def pegAddOp (s : State) (ctx p : Nat) (v : Word64) : State × PegOutcome :=
  match pegAt s p with
  | none => (s, .ended stNotFound 0)
  | some x =>
    if !mayUsePeg s ctx x then (s, .ended stNotFound 0)
    else if x.kind == .notice then (s, .ended stInvalidField 0)
    else (settlePeg (updPeg s p (fun y => { y with value := y.value + v })) p, .ended stOk (x.value + v).toNat)

/-- WAIT_GE and WAIT_EQ, a test at the tick it is applied (R309). -/
def pegTestOp (s : State) (ctx p : Nat) (kind : WaitKind) (v : Word64) : State × PegOutcome :=
  match pegAt s p with
  | none => (s, .ended stNotFound 0)
  | some x =>
    if !mayUsePeg s ctx x then (s, .ended stNotFound 0)
    else
      let holds := match kind with
        | .ge => decide (v.toNat ≤ x.value.toNat)
        | _ => x.value == v
      if holds then (s, .ended stOk x.value.toNat) else (s, .waits kind)

/-- ACQUIRE (R309, R310). -/
def pegAcquireOp (s : State) (ctx p : Nat) : State × PegOutcome :=
  match pegAt s p with
  | none => (s, .ended stNotFound 0)
  | some x =>
    if !mayUsePeg s ctx x then (s, .ended stNotFound 0)
    else if x.kind == .notice || x.holder == some ctx then (s, .ended stInvalidField 0)
    else if x.holder.isSome then (s, .waits .acquire)
    else (takePeg s p ctx, .ended (if x.broken then stPegBroken else stOk) x.value.toNat)

/-- RELEASE; its operand must be 0 (R309). -/
def pegReleaseOp (s : State) (ctx p : Nat) (v : Word64) : State × PegOutcome :=
  match pegAt s p with
  | none => (s, .ended stNotFound 0)
  | some x =>
    if !mayUsePeg s ctx x then (s, .ended stNotFound 0)
    else if x.kind == .notice || x.holder != some ctx || v != 0 then (s, .ended stInvalidField 0)
    else (settlePeg (updPeg s p (fun y => { y with holder := none })) p, .ended stOk x.value.toNat)

/-- The peg unit's operations by OP code (table Peg operations). -/
def pegOp (op : Nat) (s : State) (ctx p : Nat) (v : Word64) : State × PegOutcome :=
  match op with
  | 0 => pegSetOp s ctx p v
  | 1 => pegAddOp s ctx p v
  | 2 => pegTestOp s ctx p .ge v
  | 3 => pegTestOp s ctx p .eq v
  | 4 => pegAcquireOp s ctx p
  | _ => pegReleaseOp s ctx p v

/-- A PEG_OP wait: TIMEOUT_US of 0 tests once, at most 65,536 wait on the module (R309). -/
def beginWait (s : State) (q : Nat) (c : Cmd) (ctx p : Nat) (kind : WaitKind) (v : Word64) : State :=
  let t := field c.sqe 192 32
  let value := (pegAt s p).map (fun x => x.value.toNat)
  if t == 0 then endCmd s q c stPegTimeout (value.getD 0)
  else if 65536 ≤ s.bay.waits.length then endCmd s q c stNoResource 0
  else
    let w : PegWait := { q := q, cid := c.cid, ctx := ctx, peg := p, kind := kind, operand := v, tick := now s, port := 160,
                         limit := if t == 0xFFFFFFFF then none else some (now s + 1000 * t) }
    let s1 := startCmd s q c
    { s1 with bay := { s1.bay with waits := s1.bay.waits ++ [w] } }

end Sys2Proof.Machine
end

