-- ==== Sys2Proof/Machine/Layout.lean ====
section
/-! DEFINITION. Structures as bytes: tier map entries, the range table, segment 0 and the fatal dump (R217, R218, R221, R302, R349,
R378), and the structures of an index on flash and in DRAM (R38 to R54). -/

namespace Sys2Proof.Machine

open Sys2Proof

/-- Bytes of a page and of a frame (R214). -/
def pageBytes : Nat := 262144

/-- Key of byte off of descriptor d in the DRAM store. -/
def dramKey (d off : Nat) : Nat := pageBytes * d + off

/-- Content padded with zeros to a size. -/
def padTo (n : Nat) (bs : Bytes) : Bytes := bs.take n ++ List.replicate (n - bs.length) 0

/-- A byte of a content, 0 beyond its end. -/
def byteOf (bs : Bytes) (i : Nat) : Byte := bs.getD i 0

/-! The tier map (R221). -/

/-- The code of a frame state. -/
def frameCode : FrameState → Nat
  | .free => 0
  | .fill => 1
  | .resident => 2
  | .writeback => 3
  | .dram => 4
  | .local_ => 5
  | .spare => 6
  | .unavailable => 7

/-- Bits [63:0] of a tier map entry. -/
def frameWord (e : Frame_) : Nat :=
  (match e.home with
   | some h => h.2 % 2 ^ 31 + h.1 % 16 * 2 ^ 31 + 2 ^ 35
   | none => 0) +
  e.bay % 64 * 2 ^ 42 + (if e.dirty == 0 then 0 else 2 ^ 48) + (if e.poison then 2 ^ 49 else 0) + (if e.ref then 2 ^ 50 else 0) +
  e.cls % 4 * 2 ^ 51 + e.pin % 256 * 2 ^ 53 + frameCode e.state * 2 ^ 61

/-- The frame holds a page: PAGE is given for RESIDENT, FILL, WRITEBACK and DRAM frames. -/
def frameHolds (e : Frame_) : Bool := e.state == .resident || e.state == .fill || e.state == .writeback || e.state == .dram

/-- Bits [191:64] of a tier map entry, its entry of the tail table: DIRTY, then PAGE. -/
def tailWord (e : Frame_) : Nat := e.dirty.toNat + (if frameHolds e then e.page % 2 ^ 29 else 0) * 2 ^ 64

/-! The range table (R217). -/

/-- The root entry of a segment: VALID, the descriptor of the leaf frame, the slot of its leaf. -/
def rootEntry (s : State) (seg : Nat) : Nat :=
  match s.tier.leaves.find? (fun l => l.seg == seg) with
  | some l => 2 ^ 63 + l.frame % 2 ^ 22 * 2 ^ 3 + l.slot % 8
  | none => 0

/-- LOCATION of a home. -/
def homeLocation (group slot : Nat) : Nat := slot % 2 ^ 31 + group % 16 * 2 ^ 31

/-- RSTATE and LOCATION of a page (table Range entry). A frame that is filling reads as RESIDENT (log entry 96). -/
def pageLocation (s : State) (kind page : Nat) : Nat × Nat :=
  match frameOfPage s page with
  | some e => (if kind == 2 then 2 else 0, e.num % 2 ^ 22)
  | none =>
    if kind != 2 then (0, 0)
    else
      match s.tier.homes.find? (fun h => h.page == page) with
      | some h => (1, homeLocation h.group h.slot)
      | none => (0, 0)

/-- The range entry of a page. -/
def rangeEntry (s : State) (page : Nat) : Nat :=
  match regionOfPage s page with
  | none => 0
  | some r =>
    let l := pageLocation s r.kind page
    l.2 + (if r.kind == 2 then r.groups.toNat else 0) * 2 ^ 35 + r.bay % 64 * 2 ^ 51 + l.1 * 2 ^ 57 + r.hint % 4 * 2 ^ 59 +
      r.kind % 8 * 2 ^ 61

/-- A byte of a leaf frame: its slots of 32 KiB, the entry of page p at byte 8 × (p mod 4,096). -/
def leafFrameByte (s : State) (d off : Nat) : Byte :=
  match s.tier.leaves.find? (fun l => l.frame == d && l.slot == off / 32768) with
  | some l => byteOf (natLe 8 (rangeEntry s (4096 * l.seg + off % 32768 / 8))) (off % 8)
  | none => 0

/-- The leaf frames (R217). -/
def leafFrames (s : State) : List Nat := (s.tier.leaves.map (fun l => l.frame)).eraseDups

/-! Logs and pegs (R302, R369, R374). -/

/-- An error log entry of 64 bytes (R374). -/
def errBytes (e : ErrEntry) : Bytes :=
  let c := match e.ctx with
    | some (b, x) => b % 64 * 2 ^ 360 + x % 4096 * 2 ^ 348 + 2 ^ 347
    | none => 0
  natLe 64 (e.detail.toNat * 2 ^ 160 + e.unit % 2 ^ 32 * 2 ^ 288 + c + e.severity % 4 * 2 ^ 366 + e.cls % 2 ^ 16 * 2 ^ 368 +
    e.entry.toNat * 2 ^ 384 + e.boot.toNat * 2 ^ 416 + e.dtb % 2 ^ 64 * 2 ^ 448)

/-- A moraine record of 64 bytes (R369). -/
def moraineBytes (r : Moraine) : Bytes :=
  natLe 64 (r.plan % 2 ^ 32 * 2 ^ 144 + r.limit.toNat * 2 ^ 176 + r.v3.toNat * 2 ^ 208 + r.v2.toNat * 2 ^ 240 + r.v1.toNat * 2 ^ 272 +
    r.v0.toNat * 2 ^ 304 + r.unit % 2 ^ 32 * 2 ^ 336 + r.kind % 2 ^ 16 * 2 ^ 368 + r.seq.toNat * 2 ^ 384 + r.boot.toNat * 2 ^ 416 +
    r.dtb % 2 ^ 64 * 2 ^ 448)

/-- A peg entry of the park image (R302). -/
def parkPeg (p : Peg) : Bytes := natLe 16 (p.num % 2 ^ 17 + (p.ctx.getD 0) % 4096 * 2 ^ 32 + p.value.toNat * 2 ^ 64)

/-- The entry of a peg by number, a free peg included. -/
def pegEntry (ps : List Peg) (n : Nat) : Bytes :=
  parkPeg ((ps.find? (fun p => p.num == n)).getD { num := n, bay := 0, ctx := none, kind := .public_ })

/-! The fatal dump (R378, R379). -/

/-- n bytes of a dump section whose content the manual does not lay out (log entry 12). -/
def unlaid (section_ off n : Nat) : Bytes := (List.range n).map (fun i => Config.unlaidByte section_ (off + i))

/-- Sections that hold data: all, but for a cause 0x0004 not those of the arrays and the flash groups, which are off (R377, R378). -/
def dumpValid (d : Dump) : Nat := if d.cause == 4 then 0x1FFF - 2 ^ 8 - 2 ^ 10 else 0x1FFF

/-- The dump header with a CHECK value (R378). -/
def dumpHeader (d : Dump) (check : Nat) : Bytes :=
  natLe 64 (1 + d.unit % 2 ^ 16 * 2 ^ 256 + d.cause % 2 ^ 16 * 2 ^ 272 + dumpValid d * 2 ^ 288 + d.entry.toNat * 2 ^ 320 +
    d.dtb % 2 ^ 64 * 2 ^ 352 + d.boot.toNat * 2 ^ 416 + d.fw % 2 ^ 32 * 2 ^ 448 + check % 2 ^ 32 * 2 ^ 480)

/-- A section that holds data, or zeros when it could not be read (R378). -/
def dumpSection (d : Dump) (i mib : Nat) (bs : Bytes) : Bytes := padTo (mib * 1048576) (if bitAt (dumpValid d) i then bs else [])

/-- Sections B to M and the Rsvd end (R378): those whose content the manual lays out are built, the others are unlaid. -/
def dumpSections (d : Dump) : Bytes :=
  let frame := fun (n : Nat) => (d.frames.find? (fun e => e.num == n)).getD (frameReset [] n)
  dumpSection d 1 1 (d.errors.flatMap errBytes) ++
  dumpSection d 2 4 ((d.moraine.drop (d.moraine.length - 65536)).flatMap moraineBytes) ++
  dumpSection d 3 2 (unlaid 3 0 2097152) ++
  dumpSection d 4 8 (unlaid 4 0 8388608) ++
  dumpSection d 5 32 ((List.range 4194304).flatMap (fun n => natLe 8 (frameWord (frame n)))) ++
  dumpSection d 6 2 ((List.range 131072).flatMap (pegEntry d.pegs)) ++
  dumpSection d 7 4 (unlaid 7 0 4194304) ++
  dumpSection d 8 16 (unlaid 8 0 16777216) ++
  dumpSection d 9 16 (unlaid 9 0 16777216) ++
  dumpSection d 10 32 (unlaid 10 0 33554432) ++
  dumpSection d 11 8 (unlaid 11 0 8388608) ++
  dumpSection d 12 16 (unlaid 12 0 16777216) ++
  List.replicate 119537664 0

/-- The 256 MiB of the dump; CHECK is taken over them with itself as 0 (R378). -/
def dumpBytes (d : Dump) : Bytes :=
  let rest := padTo 1048512 (unlaid 0 64 1048512) ++ dumpSections d
  dumpHeader d (crc32c (dumpHeader d 0 ++ rest)) ++ rest

/-- The dump that the state of the module at a fatal error yields (R377, R378). -/
def dumpOf (s : State) : Dump :=
  let i := s.health.fatalInfo.getD (0, 0, 0, 0)
  { cause := i.1, unit := i.2.1, dtb := i.2.2.1, boot := s.time.bootCount, entry := i.2.2.2,
    fw := (match s.sec.booted with
      | some f => f.version
      | none => 0),
    errors := s.health.errors, moraine := s.health.moraine, frames := s.tier.frames, pegs := s.bay.pegs }

/-! Segment 0 (R218). -/

/-- Byte i of an image; the manual does not give those of the shipped one (R394, R399; log entry 96). -/
def imageByte (f : FwImage) (i : Nat) : Byte :=
  match f.bytes with
  | some bs => byteOf bs i
  | none => Config.unlaidByte 16 i

/-- Bytes that the staging area holds of a transfer or of a verified image (R396). -/
def stagedBytes (g : Staging) (i : Nat) : Byte :=
  match g with
  | .empty => 0
  | .mailbox bs => byteOf bs i
  | .fwRx _ bs => byteOf bs i
  | .cfgRx _ bs => byteOf bs i
  | .cfgMailbox bs => byteOf bs i
  | .image f => imageByte f i
  | .verifying _ bs => byteOf bs i

/-- A byte of segment 0 by its offset (table Segment 0 layout): the root, the tail table, the save areas as the FAB domain last filled
them before it was off, the dump, the staging area, the booted image; the rest reads as 0. -/
def segment0Byte (s : State) (a : Nat) : Byte :=
  if a < 0x100000 then byteOf (natLe 8 (rootEntry s (a / 8))) (a % 8)
  else if a < 0x4100000 then byteOf (natLe 16 (tailWord (frameAt s ((a - 0x100000) / 16)))) (a % 16)
  else if a < 0x6100000 then
    (match s.power.fabSave with
     | some (fs, _) =>
       let n := (a - 0x4100000) / 8
       byteOf (natLe 8 (frameWord ((fs.find? (fun e => e.num == n)).getD (frameReset s.tier.localSets n)))) (a % 8)
     | none => Config.unlaidByte 15 a)
  else if a < 0x6300000 then
    (match s.power.fabSave with
     | some (_, ps) => byteOf (pegEntry ps ((a - 0x6100000) / 16)) (a % 16)
     | none => Config.unlaidByte 15 a)
  else if a < 0x16300000 then
    (match s.health.dump with
     | some d => byteOf (dumpBytes d) (a - 0x6300000)
     | none => 0)
  else if a < 0x1A308000 then stagedBytes s.sec.staging (a - 0x16300000)
  else if a < 0x1A400000 then 0
  else if a < 0x1E408000 then
    (match s.sec.booted with
     | some f => imageByte f (a - 0x1A400000)
     | none => 0)
  else 0

/-! Records of an index on flash (R38 to R43). -/

/-- Slot size of a rerank vector's bytes and tail: the smallest of the five that holds them; 0 for format NONE (R32, R49). -/
def slotBytes (p : IndexParams) : Nat :=
  if p.rfmt == 0 then 0
  else
    let n := vectorBytes p + 8
    if n ≤ 256 then 256 else if n ≤ 512 then 512 else if n ≤ 1024 then 1024 else if n ≤ 2048 then 2048 else 4096

/-- Slots of one rerank read unit (R50). -/
def slotsPerUnit (p : IndexParams) : Nat := 4096 / max 1 (slotBytes p)

/-- A node of a version by local ID. -/
def nodeAt (v : Version) (n : Nat) : Option Node := v.nodes.find? (fun y => y.id == n)

/-- The sketch of a code: its low 256 bits, the first 32 bytes of the code field (R40). -/
def sketchOf (code : Nat) : Nat := code % 2 ^ 256

/-- The code of a node of a version, 0 for none. -/
def codeOfNode (v : Version) (n : Nat) : Nat := ((nodeAt v n).map (fun y => y.code)).getD 0

/-- CWC of a code width (R38). -/
def widthCode (w : Nat) : Nat := if w ≤ 256 then 0 else if w ≤ 512 then 1 else if w ≤ 1024 then 2 else 3

/-- The 32-byte record header with a CHECK value (table Flash node record header). -/
def recordHeader (p : IndexParams) (index : Nat) (n : Node) (check : Nat) : Bytes :=
  let b := fun (x : Bool) (i : Nat) => if x then 2 ^ i else 0
  natLe 32 (3 + b n.valid 8 + b n.hub 9 + b n.entry 10 + b n.repaired 11 + n.nbrs.length % 256 * 2 ^ 16 + widthCode p.w * 2 ^ 24 +
    n.version % 2 ^ 32 * 2 ^ 32 + n.id % 2 ^ 40 * 2 ^ 64 + index % 4096 * 2 ^ 128 + check % 2 ^ 32 * 2 ^ 224)

/-- Neighbour entries: k bytes an entry, those beyond the list empty (R41, R46). -/
def idArray (k degree : Nat) (ns : List Nat) : Bytes :=
  (List.range degree).flatMap (fun i => natLe k (ns.getD i (2 ^ (8 * k) - 1)))

/-- Where the sketches of a record start: the next multiple of 32 after the neighbour IDs (R39). -/
def sketchBase (p : IndexParams) : Nat := ceilDiv (52 + p.w / 8 + 5 * p.degree) 32 * 32

/-- The record body, bytes 32 to 2,047: code, tag word, numeric attribute, neighbour IDs, sketches (table Flash node record body). -/
def recordBody (p : IndexParams) (v : Version) (n : Node) : Bytes :=
  let head := natLe (p.w / 8) n.code ++ natLe 16 n.tag.toNat ++ natLe 4 n.numeric.toNat ++ idArray 5 p.degree n.nbrs
  let sketches := (List.range p.degree).flatMap (fun i =>
    natLe 32 (match n.nbrs[i]? with
      | some m => sketchOf (codeOfNode v m)
      | none => 0))
  padTo 2016 (padTo (sketchBase p - 32) head ++ sketches)

/-- A flash node record of 2,048 bytes; CHECK is the CRC-32C of bytes 0 to 27 and 32 to 2,047 (R38). -/
def nodeBytes (p : IndexParams) (index : Nat) (v : Version) (n : Node) : Bytes :=
  let body := recordBody p v n
  recordHeader p index n (crc32c ((recordHeader p index n 0).take 28 ++ body)) ++ body

/-- The record slot of a local ID: its record, or 2,048 zero bytes where none was merged (R42). -/
def slotRecord (p : IndexParams) (index : Nat) (v : Version) (n : Nat) : Bytes :=
  match nodeAt v n with
  | some y => if y.valid then nodeBytes p index v y else List.replicate 2048 0
  | none => List.replicate 2048 0

/-- The read unit of a pair: the even record, then the odd one (R42). -/
def pairBytes (p : IndexParams) (index : Nat) (v : Version) (pair : Nat) : Bytes :=
  slotRecord p index v (2 * pair) ++ slotRecord p index v (2 * pair + 1)

/-- The scribe engine's check of the record of a local ID in a read unit: FMT, CHECK, INDEX, LOCAL_ID, and VERSION not above the
pinned version (R43). -/
def recordCheck (index version n : Nat) (unit : Bytes) : Bool :=
  let bs := sliceOf unit (2048 * (n % 2)) 2048
  leAt bs 0 1 == 3 && leAt bs 28 4 == crc32c (bs.take 28 ++ bs.drop 32) && leAt bs 16 2 % 4096 == index && leAt bs 8 5 == n &&
  leAt bs 4 4 ≤ version

/-! Brace stripes (R358). -/

/-- The seven data units of a stripe: channels 8g to 8g + 7 without the parity channel 8g + (u mod 8) (R358). -/
def stripeUnits (g die unit : Nat) : List UnitLoc :=
  ((List.range 8).filter (fun c => c != unit % 8)).map (fun c => { channel := 8 * g + c, die := die, unit := unit })

/-- What the rerank read unit of an index holds: its slots, one after the other (R50). -/
def rerankUnitBytes (x : Index) (u : Nat) : Bytes :=
  padTo 4096 ((List.range (slotsPerUnit x.params)).flatMap (fun i =>
    padTo (slotBytes x.params) ((lookupKey x.store (slotsPerUnit x.params * u + i)).getD [])))

/-- What the read unit at a place holds: the unit of the index version whose map names it, or nothing where no map does (R42, R50). -/
def readUnitBytes (s : State) (l : UnitLoc) : Bytes :=
  (s.indexes.findSome? (fun (x : Index) => x.versions.findSome? (fun v =>
    ((v.nodeMap.find? (fun e => e.2 == l)).map (fun e => pairBytes x.params x.num v e.1)).orElse (fun _ =>
      (v.rerankMap.find? (fun e => e.2 == l)).map (fun e => rerankUnitBytes x e.1))))).getD (List.replicate 4096 0)

/-- The XOR of read units. -/
def xorUnits (us : List Bytes) : Bytes := us.foldl (fun a b => a.zipWith (fun x y => x ^^^ y) b) (List.replicate 4096 0)

/-- What the parity unit of a stripe holds: the XOR of the other seven (R358). -/
def parityUnit (s : State) (g die unit : Nat) : Bytes := xorUnits ((stripeUnits g die unit).map (readUnitBytes s))

/-- The other seven units of a unit's stripe, its parity among them (R43, R358). -/
def otherUnits (l : UnitLoc) : List UnitLoc :=
  ((List.range 8).filter (fun c => 8 * (l.channel / 8) + c != l.channel)).map (fun c => { l with channel := 8 * (l.channel / 8) + c })

/-- What the unit at a place of a stripe holds, data or parity (R358). -/
def stripeUnit (s : State) (l : UnitLoc) : Bytes :=
  if l.channel % 8 == l.unit % 8 then parityUnit s (l.channel / 8) l.die l.unit else readUnitBytes s l

/-- A unit rebuilt: the XOR of the other seven of its stripe (R43, R358). -/
def rebuiltUnit (s : State) (l : UnitLoc) : Bytes := xorUnits ((otherUnits l).map (stripeUnit s))

/-! Structures of an index in DRAM (R44 to R51, R54). -/

/-- A leaf entry of a node map or rerank map: CHANNEL [39:33], DIE [32:30], UNIT [29:0]; all ones where unmapped (R44). -/
def leafEntry (u : Option UnitLoc) : Nat :=
  match u with
  | some l => l.unit % 2 ^ 30 + l.die % 8 * 2 ^ 30 + l.channel % 128 * 2 ^ 33
  | none => 0xFFFFFFFFFF

/-- Compact record size (R46). -/
def compactBytes (p : IndexParams) : Nat := if p.w == 2048 then 512 else 256

/-- A compact record: the code and 32 neighbour IDs of 4 bytes (R45, R46). -/
def compactRecord (p : IndexParams) (code : Nat) (ns : List Nat) : Bytes :=
  padTo (compactBytes p) (natLe (p.w / 8) code ++ idArray 4 32 ns)

/-- An attribute table entry of 32 bytes (R47). -/
def attributeEntry (n : Node) : Bytes :=
  natLe 16 n.tag.toNat ++ natLe 4 n.numeric.toNat ++ natLe 12 (if n.valid then 1 else 0)

/-- A drift entry: its 32-byte head, then the code (R51). -/
def driftBytes (p : IndexParams) (e : DriftEntry) : Bytes :=
  natLe 32 (e.id % 2 ^ 40 + (if e.valid then 2 ^ 40 else 0) + e.tag.toNat * 2 ^ 64 + e.numeric.toNat * 2 ^ 192) ++ natLe (p.w / 8) e.code

/-- Entries of a node map's or rerank map's root: one for 512 read units (R44, R50). -/
def leafCount (p : IndexParams) (rerank : Bool) : Nat :=
  ceilDiv (if rerank then ceilDiv p.nCap (slotsPerUnit p) else p.nCap / 2) 512

/-- Bytes of one place of a structure: a leaf, a root, a hub layer with its ID table, a record, an entry, a slot, or one byte of a bit
map (R44 to R51, R54). -/
def placeBytes (p : IndexParams) : IndexPart → Nat
  | .nodeRoots => 8 * leafCount p false
  | .nodeLeaves => 2560
  | .rerankRoots => 8 * leafCount p true
  | .rerankLeaves => 2560
  | .compact => compactBytes p
  | .attributes => 32
  | .hubs => (compactBytes p + 8) * p.hubs
  | .kerfBits => 1
  | .presenceBits => 1
  | .driftList => 32 + p.w / 8
  | .driftBuffer => slotBytes p
  | .store => slotBytes p

/-- Places of a structure that NS_CREATE reserves; 0 for one that the index does not have (R33, R44 to R51, R54). -/
def placeCount (p : IndexParams) : IndexPart → Nat
  | .nodeRoots => if p.dramTier then 0 else 1
  | .nodeLeaves => if p.dramTier then 0 else leafCount p false
  | .rerankRoots => if p.flashDirect then 1 else 0
  | .rerankLeaves => if p.flashDirect then leafCount p true else 0
  | .compact => if p.dramTier then p.nCap else 0
  | .attributes => if p.dramTier then p.nCap else 0
  | .hubs => if p.hubs == 0 then 0 else 1
  | .kerfBits => p.nCap / 8
  | .presenceBits => p.nCap / 8
  | .driftList => p.driftLimit
  | .driftBuffer => if p.rfmt == 0 then 0 else p.driftLimit
  | .store => if p.rfmt == 0 || p.flashDirect then 0 else p.nCap

/-- All structures, in the order in which their regions are made. -/
def indexParts : List IndexPart :=
  [.nodeRoots, .nodeLeaves, .rerankRoots, .rerankLeaves, .compact, .attributes, .hubs, .kerfBits, .presenceBits, .driftList,
   .driftBuffer, .store]

/-- Structures that lie in bank-local regions: rerank store and drift rerank buffer of placement DRAM (R50, R192). -/
def partLocal (p : IndexParams) (k : IndexPart) : Bool := !p.flashDirect && (k == .store || k == .driftBuffer)

/-- Pages of a structure: whole frames, whole frame sets in a bank-local region (R50, R192). -/
def partPages (p : IndexParams) (k : IndexPart) : Nat :=
  let n := ceilDiv (placeBytes p k * placeCount p k) pageBytes
  if partLocal p k then ceilDiv n 4096 * 4096 else n

/-- The regions of a structure, in the order of their creation. -/
def partRegions (x : Index) (k : IndexPart) : List PartRegion := x.parts.filter (fun r => r.part == k)

/-- Whole places of z bytes that a region holds. -/
def placesIn (z : Nat) (r : PartRegion) : Nat := pageBytes * r.pages / max 1 z

/-- The address of place k of a structure over its regions; places do not cross regions (R44, R50). -/
def placeIn (z : Nat) : List PartRegion → Nat → Nat
  | [], _ => 0
  | r :: rest, k => if k < placesIn z r then pageBytes * r.base + z * k else placeIn z rest (k - placesIn z r)

/-- The device-range address of place k of a structure of an index. -/
def placeAddr (x : Index) (k : IndexPart) (n : Nat) : Nat := placeIn (placeBytes x.params k) (partRegions x k) n

/-- The place and the byte in it that an address of a structure names. -/
def placeOf (z : Nat) : List PartRegion → Nat → Nat → Nat × Nat
  | [], _, n => (n, 0)
  | r :: rest, a, n =>
    if pageBytes * r.base ≤ a && a < pageBytes * (r.base + r.pages) then (n + (a - pageBytes * r.base) / max 1 z, (a - pageBytes * r.base) % max 1 z)
    else placeOf z rest a (n + placesIn z r)

/-- Structures of which every version may have a copy of its own (R44, R45). -/
def pooledParts : List IndexPart := [.nodeRoots, .nodeLeaves, .rerankRoots, .rerankLeaves, .hubs]

/-- Places of a structure that a version uses. -/
def placesOf (v : Version) : IndexPart → List Nat
  | .nodeRoots => [v.nodeRoot]
  | .nodeLeaves => v.nodeLeaves.map (fun e => e.2)
  | .rerankRoots => [v.rerankRoot]
  | .rerankLeaves => v.rerankLeaves.map (fun e => e.2)
  | .hubs => if v.hubs == [] then [] else [v.hubPlace]
  | .compact | .attributes | .kerfBits | .presenceBits | .driftList | .driftBuffer | .store => []

/-- Regions beyond the first of their structure, with the first place in each. -/
def laterRegions (z : Nat) : Nat → List PartRegion → List (PartRegion × Nat)
  | _, [] => []
  | n, r :: rest => (if n == 0 then [] else [(r, n)]) ++ laterRegions z (n + placesIn z r) rest

/-- Regions of an index that held copies and that no version uses any more (R61, R63). -/
def idleParts (x : Index) : List PartRegion :=
  let vs := x.versions ++ (x.merge.bind (fun m => m.building)).toList
  pooledParts.flatMap (fun k => ((laterRegions (placeBytes x.params k) 0 (partRegions x k)).filter (fun e =>
    !vs.any (fun v => (placesOf v k).any (fun n => decide (e.2 ≤ n))))).map (fun e => e.1))

/-- A root entry: VALID and the address of the leaf (R44). -/
def leafPointer (x : Index) (k : IndexPart) (leaves : List (Nat × Nat)) (l : Nat) : Nat :=
  match lookupKey leaves l with
  | some n => 2 ^ 63 + placeAddr x k n
  | none => 0

/-- A byte of a root. -/
def rootByte (x : Index) (k : IndexPart) (leaves : List (Nat × Nat)) (off : Nat) : Byte := byteOf (natLe 8 (leafPointer x k leaves (off / 8))) (off % 8)

/-- A byte of the leaf at a place: the entry of read unit u at byte 5 × (u mod 512) (R44). -/
def leafByte (map : List (Nat × UnitLoc)) (leaves : List (Nat × Nat)) (place off : Nat) : Byte :=
  match leaves.find? (fun e => e.2 == place) with
  | some e => byteOf (natLe 5 (leafEntry (lookupKey map (512 * e.1 + off / 5)))) (off % 5)
  | none => 0xFF

/-- A byte of a hub layer: the hub records, then 8 bytes for each hub's local ID; that this table follows the H hub records at once is a DESIGN
CHOICE (R45; log entry 126). -/
def hubByte (p : IndexParams) (hubs : List Hub) (off : Nat) : Byte :=
  let z := compactBytes p
  if off < z * p.hubs then
    (match hubs[off / z]? with
     | some h => byteOf (compactRecord p h.code h.links) (off % z)
     | none => 0)
  else
    match hubs[(off - z * p.hubs) / 8]? with
    | some h => byteOf (natLe 8 (h.id % 2 ^ 40)) (off % 8)
    | none => 0

/-- Byte k of a bit map: bit n lies in bit n mod 8 of byte n div 8 (R54). -/
def bitMapByte (ns : List Nat) (k : Nat) : Byte :=
  BitVec.ofNat 8 (sumOf ((List.range 8).map (fun i => if ns.contains (8 * k + i) then 2 ^ i else 0)))

/-- A byte of a structure that the module keeps: the place, and the byte in it. Rerank slots are bytes of the region itself. Drift entry s lies at
place s mod the drift limit of its list, a DESIGN CHOICE (R44 to R51, R54; log entry 125). -/
def partByte (x : Index) (k : IndexPart) (place off : Nat) : Option Byte :=
  let newest := (versionAt x x.version).getD { num := x.version, driftBase := 0 }
  let with_ := fun (f : Version → Bool) => (x.versions.find? f).getD newest
  match k with
  | .nodeRoots => some (rootByte x .nodeLeaves (with_ (fun v => v.nodeRoot == place)).nodeLeaves off)
  | .nodeLeaves =>
    let v := with_ (fun v => v.nodeLeaves.any (fun e => e.2 == place))
    some (leafByte v.nodeMap v.nodeLeaves place off)
  | .rerankRoots => some (rootByte x .rerankLeaves (with_ (fun v => v.rerankRoot == place)).rerankLeaves off)
  | .rerankLeaves =>
    let v := with_ (fun v => v.rerankLeaves.any (fun e => e.2 == place))
    some (leafByte v.rerankMap v.rerankLeaves place off)
  | .compact => some ((((nodeAt newest place).map (fun n => byteOf (compactRecord x.params n.code n.nbrs) off))).getD 0)
  | .attributes => some ((((nodeAt newest place).map (fun n => byteOf (attributeEntry n) off))).getD 0)
  | .hubs => some (hubByte x.params (with_ (fun v => v.hubPlace == place)).hubs off)
  | .kerfBits => some (bitMapByte x.kerf place)
  | .presenceBits => some (bitMapByte x.presence place)
  | .driftList =>
    some (((((x.drift.filter (fun e => e.seq % x.params.driftLimit == place)).getLast?).map (fun e => byteOf (driftBytes x.params e) off))).getD 0)
  | .driftBuffer => none
  | .store => none

/-- The index structure that an address lies in. -/
def structureAt (s : State) (a : Nat) : Option (Index × IndexPart) :=
  s.indexes.findSome? (fun x => (x.parts.find? (fun r => r.base ≤ a / pageBytes && a / pageBytes < r.base + r.pages)).map (fun r => (x, r.part)))

/-- A byte of the index structures by its device-range address, where one lies there and is kept by the module (log entry 96). -/
def indexByte (s : State) (a : Nat) : Option Byte :=
  match structureAt s a with
  | some (x, k) =>
    let o := placeOf (placeBytes x.params k) (partRegions x k) a 0
    partByte x k o.1 o.2
  | none => none

end Sys2Proof.Machine
end

