-- ==== Sys2Proof/Machine/Tiers.lean ====
section
/-! DEFINITION. The device range and its tiers: stripe placement, pages and frames, reads and writes of device-range
bytes, faults, eviction, write-back, pins, regions and bank-local frame sets (R192, R214 to R228, R236, R237, R303). -/

namespace Sys2Proof.Machine

open Sys2Proof

/-! Stripe placement (R220). -/

/-- One departure of the placement rule: c[n], s[n] with the current indexes of the tracked slots. -/
def placeStep (t : Nat) (cur : List (Nat × Nat)) (dep : Nat × Nat) : List (Nat × Nat) :=
  let a := (dep.1 + 256 - t % 128 - 1) % 128
  let f := (lookupKey cur dep.2).getD dep.2
  let moved := cur.map (fun e => if e.2 == a then (e.1, f) else e)
  moved.map (fun e => if e.1 == dep.2 then (e.1, a) else e)

/-- Channel of row t of slot k, with the departures (channel, spare slot) in entry order (R220). -/
def stripeChannel (deps : List (Nat × Nat)) (t k : Nat) : Nat :=
  let tracked := (k, k) :: (deps.filter (fun d => d.2 != k)).map (fun d => (d.2, d.2))
  let cur := deps.foldl (placeStep t) tracked
  (t + 1 + (lookupKey cur k).getD k) % 128

/-- Departures that the placement rule uses: entries whose channel is out of the interleave (R220, R234). -/
def departuresOut (s : State) : List (Nat × Nat) :=
  (s.tier.departures.zip (List.range 24)).filterMap (fun e => if e.1.out then some (e.1.channel, 127 - e.2) else none)

/-- Departures of the placement rule with or without the entry of one channel, whether it is out or not (R220, R232). -/
def departuresWith (s : State) (channel : Nat) (counts : Bool) : List (Nat × Nat) :=
  (s.tier.departures.zip (List.range 24)).filterMap (fun e =>
    if (if e.1.channel == channel then counts else e.1.out) then some (e.1.channel, 127 - e.2) else none)

/-- The bit of a stripe in the moved bitmap is clear: no window has copied it yet; a window's stripes are moved at its end (R232). -/
def unmoved (s : State) (v : Evacuation) (x : Nat) : Bool :=
  v.clear.contains x || v.announced.any (fun a => decide (now s < a.1 + 100000) && a.2.contains x)

/-- Where an access to stripe t of a frame goes now: while a channel departs or returns, the moved bitmap steers the stripes that lie on
it, and on the spare slots that stand for it (R220, R232). -/
def stripeNow (s : State) (d t : Nat) : Nat :=
  match s.tier.evacuation with
  | none => stripeChannel (departuresOut s) t (d % 128)
  | some v => stripeChannel (departuresWith s v.channel (unmoved s v (1024 * d + t) == v.returning)) t (d % 128)

/-- Stripes of the DRAM frames of frame set 0 that back segment 0, on a channel: a row of a block has one slot there, unless it is the
spare one (R218 to R220). -/
def lowStripes (s : State) (deps : List (Nat × Nat)) (channel : Nat) : List Nat :=
  let slots := (List.range 128).filterMap (fun r =>
    ((List.range 127).find? (fun k => stripeChannel deps r k == channel)).map (fun k => (r, k)))
  (List.range 32).flatMap (fun b => slots.flatMap (fun e =>
    if (frameAt s (128 * b + e.2)).state == .dram && !s.tier.frames.any (fun x => x.num == 128 * b + e.2) then
      (List.range 8).map (fun i => 1024 * (128 * b + e.2) + 128 * i + e.1)
    else []))

/-- Stripes that a copy has to move between a channel and the spare slots: those of allocated interleaved frames, segment 0's among them;
the bits of FREE frames and of spare stripes are set without a copy (R220, R232). -/
def clearStripes (s : State) (channel : Nat) : List Nat :=
  let deps := departuresWith s channel false
  lowStripes s deps channel ++
  (s.tier.frames.filter (fun e => e.num < exclDesc && !s.tier.localSets.contains (e.num / 4096) && e.state != .free && e.state != .spare)).flatMap
    (fun e => ((List.range 1024).filter (fun t => stripeChannel deps t (e.num % 128) == channel)).map (fun t => 1024 * e.num + t))

/-- A bank of a channel that is leased exclusively (R210). -/
def bankExclusive (s : State) (bank : Nat) : Bool :=
  s.tier.departures.any (fun d => d.out && d.channel == bank / 32 && (match d.kind with
    | .lease _ => true
    | _ => false))

/-- Global bank and row in which the block at an offset of a descriptor lies (R191, R219, R220). -/
def blockRow (s : State) (d off : Nat) : Nat × Nat :=
  let f := d % exclDesc / 4096
  if exclDesc ≤ d || s.tier.localSets.contains f then (d % 4096, 128 * f + off / 2048)
  else
    let o := 8388608 * f + 262144 * (d % 4096 / 128) + 256 * (off / 256)
    (32 * stripeNow s d (off / 256) + o / 2048 % 32, o / 65536)

/-- Descriptor and offset of the byte at a column of a data row of a bank: a piece, or the stripe of an interleaved set that lies there;
none where no slot's stripe does (R191, R219, R220). -/
def rowPlace (s : State) (bank row col : Nat) : Option (Nat × Nat) :=
  let f := row / 128
  if 960 ≤ f then none
  else if bankExclusive s bank then some (exclDesc + 4096 * f + bank, 2048 * (row % 128) + col)
  else if s.tier.localSets.contains f then some (4096 * f + bank, 2048 * (row % 128) + col)
  else
    let o := 65536 * row + 2048 * (bank % 32) + col
    let d := 4096 * f + 128 * (o / 262144 % 32)
    ((List.range 128).find? (fun k => stripeNow s (d + k) (o / 256 % 1024) == bank / 32)).map (fun k => (d + k, 256 * (o / 256 % 1024) + o % 256))

/-- Frames whose stripes or bytes lie in a row of a bank (R191, R211, R219, R220, R365). -/
def framesOfRow (s : State) (bank row : Nat) : List Nat :=
  let ch := bank / 32
  let f := row / 128
  if 960 ≤ f then []
  else if bankExclusive s bank then [exclDesc + 4096 * f + bank]
  else if s.tier.localSets.contains f then [4096 * f + bank]
  else
    let o := 65536 * row + 2048 * (bank % 32)
    let b := o / pageBytes % 32
    let rows := (List.range 8).map (fun i => o / 256 % 1024 + i)
    (rows.flatMap (fun t => (List.range 128).filterMap (fun k =>
      if stripeNow s (4096 * f + 128 * b + k) t == ch then some (4096 * f + 128 * b + k) else none))).eraseDups

/-! Pages. -/

/-- The home of a FLASH page, if it has one (R217). -/
def homeOfPage (s : State) (page : Nat) : Option PageHome := s.tier.homes.find? (fun h => h.page == page)

/-- Pages of a region. -/
def regionHas (r : Region) (page : Nat) : Bool := r.base ≤ page && page < r.base + r.pages

/-- A context's address space holds n bytes at an address: every page lies in a region that its bay or a context of it holds. What the
module holds for bay 0, structures of indexes, park regions and regions in custody, lies in no context's address space (R216, R291,
R292). -/
def inSpace (s : State) (ctx addr n : Nat) : Bool :=
  let b := bayOfCtx s ctx
  n != 0 && addr + n ≤ 2 ^ 47 &&
  (s.bay.regions.any (fun r => r.bay == b && !r.custody && !r.module && decide (pageBytes * r.base ≤ addr) &&
      decide (addr + n ≤ pageBytes * (r.base + r.pages))) ||
   (List.range ((addr + n - 1) / pageBytes - addr / pageBytes + 1)).all (fun i => ownPage s b (addr / pageBytes + i)))

/-- Descriptor that holds a page now. -/
def descOfPage (s : State) (page : Nat) : Option Nat := (frameOfPage s page).map (fun e => e.num)

/-- One byte of a page's contents: the frame that holds the page, or its home; 0 where neither is (R215, R223). -/
def pageByte (s : State) (a : Nat) : Byte :=
  match frameOfPage s (a / pageBytes) with
  | some e =>
    if e.state == .fill && !flag e.arrived (a % pageBytes / 4096) then memRead s.tier.flash a
    else memRead s.tier.dram (dramKey e.num (a % pageBytes))
  | none => memRead s.tier.flash a

/-- One byte of the device range: segment 0 and the structures of indexes as the module keeps them, any other page by its contents
(R215, R218, R223; log entry 96). -/
def devByte (s : State) (a : Nat) : Byte :=
  if a < 2 ^ 30 then segment0Byte s a
  else
    match indexByte s a with
    | some b => b
    | none => pageByte s a

/-- n bytes of the device range (R8). -/
def devRead (s : State) : Nat → Nat → Bytes
  | _, 0 => []
  | a, n + 1 => devByte s a :: devRead s (a + 1) n

/-- A 64-byte block of the device range is poisoned (R236). -/
def devPoison (s : State) (a : Nat) : Bool :=
  match descOfPage s (a / pageBytes) with
  | some d => s.tier.poison.contains (dramKey d (a % pageBytes / 64 * 64))
  | none => s.tier.flashPoison.contains (a / 64 * 64)

/-- n bytes from an address on meet a poisoned block (R236). -/
def rangePoison (s : State) (a n : Nat) : Bool :=
  n != 0 && (List.range ((a + n - 1) / 64 - a / 64 + 1)).any (fun i => devPoison s (64 * (a / 64 + i)))

/-- n bytes at an offset in a place of an index's structure meet a poisoned block (R236, R361). -/
def placePoison (s : State) (x : Index) (k : IndexPart) (place off n : Nat) : Bool :=
  (partRegions x k) != [] && rangePoison s (placeAddr x k place + off) n

/-- n bytes of a page's contents: a frame, or the home (R223). -/
def pageRead (s : State) (a n : Nat) : Bytes := (List.range n).map (fun i => pageByte s (a + i))

/-- Sector bit set in DIRTY of a frame, with the order in which frames became dirty (R221, R224). -/
def markDirty (s : State) (d sector : Nat) : State :=
  let e := frameAt s d
  let e1 := { e with dirty := e.dirty ||| (1#64 <<< sector), ref := true,
                     dirtyAt := if e.dirty == 0 then s.tier.dirtyClock else e.dirtyAt }
  let s1 := setFrame s e1
  if e.dirty == 0 then { s1 with tier := { s1.tier with dirtyClock := s1.tier.dirtyClock + 1 } } else s1

/-- A frame's POISON flag follows its blocks (R221). -/
def refreshPoison (s : State) (d : Nat) : State :=
  let any := s.tier.poison.any (fun k => k / pageBytes == d)
  if (frameAt s d).poison == any then s else updFrame s d (fun e => { e with poison := any })

/-- The bits of stripes that satisfy p are set without a copy (R232). -/
def setMoved (s : State) (p : Nat → Bool) : State :=
  match s.tier.evacuation with
  | none => s
  | some v => { s with tier := { s.tier with evacuation := some { v with
      clear := v.clear.filter (fun x => !p x), announced := v.announced.map (fun a => (a.1, a.2.filter (fun x => !p x))) } } }

/-- A write that covers whole unmoved stripes goes to their new place and sets their bits without a copy (R232). -/
def moveWritten (s : State) (d off n : Nat) : State :=
  setMoved s (fun x => x / 1024 == d && off ≤ 256 * (x % 1024) && 256 * (x % 1024) + 256 ≤ off + n)

/-- Bytes written at an offset of a descriptor: whole blocks written lose their poison (R236), bank-local sectors count
as written (R209), and FLASH frames become dirty (R221). -/
def frameWrite (s : State) (d off : Nat) (bs : Bytes) : State :=
  let s := moveWritten s d off bs.length
  let k := dramKey d off
  let lo := ceilDiv k 64 * 64
  let hi := (k + bs.length) / 64 * 64
  let poison := s.tier.poison.filter (fun p => !(decide (lo ≤ p) && decide (p < hi)))
  let s1 := { s with tier := { s.tier with dram := memWriteBytes s.tier.dram k bs, poison := poison } }
  let s2 := refreshPoison s1 d
  let sectors := if bs.length == 0 then [] else (List.range ((off + bs.length - 1) / 4096 - off / 4096 + 1)).map (fun i => off / 4096 + i)
  let e := frameAt s2 d
  let marks := sectors.map (fun i => dramKey d (4096 * i) / 4096)
  if e.state == .local_ then
    updFrame { s2 with tier := { s2.tier with written := insertAllAsc marks s2.tier.written } } d (fun e => { e with ref := true })
  else if e.state == .resident || e.state == .writeback || e.state == .fill then sectors.foldl (fun st i => markDirty st d i) s2
  else updFrame s2 d (fun e => { e with ref := true })

/-! Lines that the host caches (R247). -/

/-- BISnpInv for a tracked line: the host gives it up (R247). -/
def backInvalidate (s : State) (line : Nat) : State :=
  if s.link.snoopFilter.contains line then
    emit { s with link := { s.link with snoopFilter := s.link.snoopFilter.filter (fun x => x != line) } } (.bisnp line)
  else s

/-- Tracked lines of a device range given up before the module changes it (R247). -/
def backInvalidateRange (s : State) (addr n : Nat) : State :=
  (s.link.snoopFilter.filter (fun l => addr / 64 * 64 ≤ l && l < addr + n)).foldl backInvalidate s

/-- A device-range sector no longer has unspecified content (R226). -/
def nowSpecified (s : State) (sector : Nat) : State :=
  { s with tier := { s.tier with unspecified := s.tier.unspecified.filter (fun x => x != sector) } }

/-- Blocks of poisoned sectors rewritten whole: a sector leaves its object's list with the last of its blocks, and suspension ends with the
last sector (R236, R237). -/
def rewriteBlocks (s : State) (a n : Nat) : State :=
  let left := fun (w : WeightHealth) => w.blocks.filter (fun b => !(a ≤ b && b + 64 ≤ a + n))
  let rest := fun (w : WeightHealth) => w.sectors.filter (fun k => (left w).any (fun b => b / 4096 == k / 4096))
  let ws := s.tier.weights.map (fun w => { w with blocks := left w, sectors := rest w })
  { s with tier := { s.tier with weights := ws.filter (fun w => w.sectors != []) } }

/-- Bytes written within one page that a frame holds. -/
def pageWrite (s : State) (a : Nat) (bs : Bytes) : State :=
  match descOfPage s (a / pageBytes) with
  | some d =>
    let s1 := frameWrite s d (a % pageBytes) bs
    rewriteBlocks (nowSpecified s1 (a / 4096 * 4096)) a bs.length
  | none => s

/-! Frames (R222, R225, R228). -/

/-- A FREE descriptor of an interleaved set: a free frame of a bank-local set waits for pieces (R212, R219). -/
def freeData (s : State) (d : Nat) : Bool := (frameAt s d).state == .free && !s.tier.localSets.contains (d / 4096)

/-- FREE descriptors of frame set 0, which no region is given at reset. -/
def freeLow (s : State) : List Nat := (s.tier.frames.filter (fun e => e.num < 4096 && e.state == .free)).map (fun e => e.num)

/-- The lowest FREE descriptor of the interleaved sets (which one is open; log entry 19). -/
def lowestFreeFrame (s : State) : Option Nat :=
  match freeLow s with
  | d :: _ => some d
  | [] => firstFrom (freeData s) 3928064 4096

/-- The lowest n FREE descriptors from d on, with fuel. -/
def freeRun (s : State) : Nat → Nat → Nat → List Nat
  | 0, _, _ => []
  | k + 1, d, n =>
    if n == 0 then []
    else if freeData s d then d :: freeRun s k (d + 1) (n - 1)
    else freeRun s k (d + 1) n

/-- The lowest n FREE descriptors of the interleaved sets. -/
def lowestFreeFrames (s : State) (n : Nat) : List Nat :=
  let low := (freeLow s).take n
  low ++ freeRun s 3928064 4096 (n - low.length)

/-- Contents of a descriptor cleared. -/
def clearFrame (s : State) (d : Nat) : State :=
  { s with tier := { s.tier with
      dram := memClear s.tier.dram (dramKey d 0) pageBytes,
      poison := s.tier.poison.filter (fun p => p / pageBytes != d),
      written := s.tier.written.filter (fun w => w / 64 != d) } }

/-- Group that a page's write-back goes to: the (p mod m)-th set bit of the region's GROUPS (R224). -/
def homeGroup (s : State) (page : Nat) : Nat :=
  match regionOfPage s page with
  | some r =>
    let gs := setBits r.groups
    nthNat gs ((page - r.base) % max 1 gs.length)
  | none => 0

/-- Frames of a bay that eviction may take, in the order of R225; REF is cleared as the sweep passes, so frames with REF
set come last in their class. -/
def victimRank (e : Frame_) : Nat :=
  if e.cls == 3 then 0 else if e.cls == 0 then (if e.ref then 3 else 1) else (if e.ref then 4 else 2)

/-- A frame may be evicted as far as its group goes: a dirty frame homed on a group at level 3 may not (R224, R363). -/
def mayEvict (s : State) (e : Frame_) : Bool := e.dirty == 0 || groupLevelNow s (homeGroup s e.page) < 3

/-- The victim of a bay: RESIDENT, unpinned, of lowest rank, then lowest descriptor (R225). A dirty frame homed on a
group at level 3 is no victim (R363). -/
def victimOf (s : State) (b : Nat) : Option Frame_ :=
  let cands := (quotaFrames s b).filter (fun e => e.state == .resident && e.pin == 0 && mayEvict s e)
  (sortBy (fun x y => decide (victimRank x < victimRank y) || (victimRank x == victimRank y && decide (x.num < y.num))) cands).head?

/-- The sweep passes frames in the order of R225: those of NORMAL below the victim, all of NORMAL before a KEEP victim, and every frame
once round before a victim whose REF was set; it clears REF in them (R225; log entry 19). -/
def passedBy (v e : Frame_) : Bool :=
  match victimRank v with
  | 0 => false
  | 1 => e.cls == 0 && decide (e.num < v.num)
  | 2 => e.cls == 0 || (e.cls == 2 && decide (e.num < v.num))
  | _ => true

/-- REF cleared in the frames that the sweep passed on its way to a victim (R225). -/
def sweepPast (s : State) (b : Nat) (v : Frame_) : State :=
  (s.tier.frames.filter (fun e => e.bay == b && e.state == .resident && e.pin == 0 && e.ref && passedBy v e)).foldl
    (fun st e => updFrame st e.num (fun x => { x with ref := false })) s

/-- A frame freed: its page, if FLASH, is HOME or ZERO from now on (R222). -/
def freeFrame (s : State) (d : Nat) : State :=
  let e := frameAt s d
  let s1 := setFrame s { num := d, state := .free }
  match e.home with
  | some h =>
    let rest := s1.tier.homes.filter (fun x => x.page != e.page)
    { s1 with tier := { s1.tier with homes := { page := e.page, group := h.1, slot := h.2 } :: rest } }
  | none => s1

/-- Poisoned blocks of a frame as addresses of the page that it holds (R236). -/
def poisonedBlocks (s : State) (d page : Nat) : List Nat :=
  (s.tier.poison.filter (fun k => k / pageBytes == d)).map (fun k => pageBytes * page + k % pageBytes)

/-- Write-back of a frame starts: WRITEBACK, the page's contents captured and DIRTY cleared (R222, R224). -/
def startWriteback (s : State) (d : Nat) : State :=
  let e := frameAt s d
  if e.state == .resident && e.dirty != 0 then
    let s1 := { s with tier := { s.tier with
      capture := memCopy s.tier.dram s.tier.capture (dramKey d 0) (pageBytes * e.page) pageBytes,
      captureBad := insertAllAsc (poisonedBlocks s d e.page) (s.tier.captureBad.filter (fun p => p / pageBytes != e.page)) } }
    setFrame s1 { e with state := .writeback, captured := e.dirty, dirty := 0 }
  else s

/-- Write-back of a frame ends: what it captured stands at the new home, RESIDENT, HOME updated, the old extent freed (R222, R224). -/
def endWriteback (s : State) (d group slot : Nat) : State :=
  let e := frameAt s d
  if e.state != .writeback then s
  else
    let a := pageBytes * e.page
    let mine := fun (p : Nat) => p / pageBytes == e.page
    let s1 := { s with tier := { s.tier with
      flash := memCopy s.tier.capture s.tier.flash a a pageBytes,
      capture := memClear s.tier.capture a pageBytes,
      flashPoison := insertAllAsc (s.tier.captureBad.filter mine) (s.tier.flashPoison.filter (fun p => !mine p)),
      captureBad := s.tier.captureBad.filter (fun p => !mine p),
      homes := s.tier.homes.filter (fun h => h.page != e.page) } }
    setFrame s1 { e with state := .resident, home := some (group, slot), captured := 0 }

/-- The next free home extent of a group's log: 64 consecutive data slots (R221, R224; log entry 19). -/
def nextHome (s : State) (g : Nat) : Nat := (lookupKey s.tier.logHead g).getD 0

/-- A write-back ends at an extent of a group, whose log goes on behind it (R224). -/
def writeHome (s : State) (d group slot : Nat) : State :=
  let s1 := endWriteback s d group slot
  { s1 with tier := { s1.tier with logHead := putKey s1.tier.logHead group (max (nextHome s1 group) (slot + 64)) } }

/-- COPY commands that waited for a page alone complete (R224). -/
def releaseCopies (s : State) (page : Nat) : State :=
  s.queues.pairs.foldl (fun st p =>
    (p.q.cmds.filter (fun c => c.pages.contains page)).foldl (fun st2 c =>
      let rest := c.pages.filter (fun x => x != page)
      let st3 := updCmd st2 p.id c.cid (fun d => { d with pages := rest })
      if rest == [] then progressCtx (postCompletion st3 p.id c.cid c.status c.result) p.ctx else st3) st) s

/-- A COPY waits for a page to be written back. -/
def copyWaits (s : State) (page : Nat) : Bool := s.queues.pairs.any (fun p => p.q.cmds.any (fun c => c.pages.contains page))

/-- A running write-back carried through at the next extents of its group; the COPY commands that wrote the page are released, after a
second write-back where one wrote it meanwhile (R224). -/
def finishWriteback (s : State) (d : Nat) : State :=
  let e := frameAt s d
  let g := homeGroup s e.page
  let s1 := writeHome s d g (nextHome s g)
  let s2 := if e.dirty != 0 && copyWaits s1 e.page then writeHome (startWriteback s1 d) d g (nextHome s1 g) else s1
  releaseCopies s2 e.page

/-- A dirty RESIDENT frame written back at once. -/
def cleanFrame (s : State) (d : Nat) : State :=
  if (frameAt s d).state == .resident && (frameAt s d).dirty != 0 then finishWriteback (startWriteback s d) d else s

/-- Class of a frame after an access with a hint (R226): 1 STREAM, 2 KEEP, 3 LAST. -/
def classAfter (hint cls : Nat) : Nat := if hint == 2 then 2 else if hint == 3 then 3 else cls

/-- The hint an access to a page has (R226). -/
def effectiveHint (s : State) (hint page : Nat) : Nat :=
  if hint != 0 then hint
  else
    match regionOfPage s page with
    | some r => r.hint
    | none => 0

/-- What a hint asks of a write: STREAM and LAST act as NORMAL (R226). -/
def writeHint (hint : Nat) : Nat := if hint == 2 then 2 else 0

/-- A page accessed through its frame: REF is set, and the class follows the hint, but bank-local pieces carry no hint state (R192, R221,
R226). -/
def touchPage (s : State) (page hint : Nat) : State :=
  match frameOfPage s page with
  | some e => updFrame s e.num (fun y => { y with ref := true, cls := if y.state == .local_ then y.cls else classAfter hint y.cls })
  | none => s

/-- A sector of a fill arrives: its bytes come from the home, and the blocks poisoned there are poisoned here; with the last sector the
frame is RESIDENT (R222, R223, R232, R236). -/
def fillSector (s : State) (d sector : Nat) : State :=
  let e := frameAt s d
  let a := pageBytes * e.page + 4096 * sector
  let key := dramKey d (4096 * sector)
  let bad := (s.tier.flashPoison.filter (fun p => p / 4096 == a / 4096)).map (fun p => key + p % 4096)
  let s0 := moveWritten s d (4096 * sector) 4096
  let s1 := { s0 with tier := { s0.tier with
    dram := memCopy s.tier.flash s.tier.dram a key 4096,
    poison := insertAllAsc bad (s.tier.poison.filter (fun p => p / 4096 != key / 4096)) } }
  let arrived := e.arrived ||| (1#64 <<< sector)
  refreshPoison (setFrame s1 { e with
    arrived := if arrived == BitVec.allOnes 64 then 0 else arrived, first := if arrived == BitVec.allOnes 64 then 0 else e.first,
    state := if arrived == BitVec.allOnes 64 then .resident else .fill }) d

/-- Blocks of a sector poisoned in a frame (R236). -/
def poisonSector (s : State) (d sector : Nat) : State :=
  let ks := (List.range 64).map (fun i => dramKey d (4096 * sector + 64 * i))
  refreshPoison { s with tier := { s.tier with poison := insertAllAsc ks s.tier.poison } } d

/-- The block at a device-range address turns out uncorrectable: it is poisoned in the frame that holds it, the whole sector where it lies
at a flash home (R236). -/
def poisonDev (s : State) (a : Nat) : State :=
  match descOfPage s (a / pageBytes) with
  | some d => refreshPoison { s with tier := { s.tier with poison := insertAsc (dramKey d (a % pageBytes / 64 * 64)) s.tier.poison } } d
  | none =>
    { s with tier := { s.tier with flashPoison := insertAllAsc ((List.range 64).map (fun i => a / 4096 * 4096 + 64 * i)) s.tier.flashPoison } }

/-- The sectors of a fill that are still to come arrive (R223). -/
def finishFill (s : State) (d : Nat) : State :=
  ((List.range 64).filter (fun i => !flag (frameAt s d).arrived i)).foldl (fun st i => fillSector st d i) s

/-! Bank health (R206, R355, R365). -/

/-- A bank's health record. -/
def bankHealth (s : State) (b : Nat) : BankHealth := (s.health.banks.find? (fun x => x.bank == b)).getD { bank := b }

/-- A bank's health record put in place. -/
def setBankHealth (s : State) (v : BankHealth) : State :=
  { s with health := { s.health with
      banks := insertBy (fun (a b : BankHealth) => decide (a.bank < b.bank)) v (s.health.banks.filter (fun x => x.bank != v.bank)) } }

/-- 24 h in ns. -/
def dayNs : Nat := 86400000000000

/-- A read of a row met correctable codewords: they are counted, and the row's reads of the last 24 h kept (R355, R365). -/
def noteCorrected (s : State) (bank row : Nat) : State :=
  let v := bankHealth s bank
  setBankHealth s { v with
    corrected := v.corrected + 1, rowHits := v.rowHits.filter (fun h => now s ≤ h.2 + dayNs) ++ [(row, now s)] }

/-! What a DRAM read delivers (R236, R355). -/

/-- Bytes of a block's codeword that arrive wrong: those named with another value than the stored one (R355). -/
def codewordErrors (poison : Bool) (data : Bytes) (wrong : List (Nat × Byte)) : List (Nat × Byte) :=
  let held := data ++ natLe 4 (Config.checkBytes poison data).toNat
  (List.range 68).filterMap (fun i => (wrong.find? (fun w => w.1 == i && w.2 != byteOf held i)))

/-- What the decoder delivers of a block with four or more wrong bytes when it does not detect them: the bytes as they arrived, one of them
miscorrected or none, which is open (free value; R355, log entry 116). -/
def undetected (v : Nat) (data : Bytes) (wrong : List (Nat × Byte)) : Bytes :=
  let d := wrong.foldl (fun bs w => bs.set w.1 w.2) data
  if bitAt v 1 then d.set (bitsAt v 2 6) (BitVec.ofNat 8 (bitsAt v 8 8)) else d

/-- One block of the device range read from DRAM: an error of one byte is corrected and counted for the bank and its row, one of two or three
poisons the block; whether one of four or more is detected is open (free value; R236, R355, R365, log entry 116). -/
def readBlock (s : State) (a : Nat) (wrong : List (Nat × Byte)) : State × Bytes × Bool :=
  let data := devRead s a 64
  let poison := devPoison s a
  match descOfPage s (a / pageBytes) with
  | none => (s, data, poison)
  | some d =>
    let bad := codewordErrors poison data wrong
    if bad == [] then (s, data, poison)
    else if bad.length == 1 then
      let row := blockRow s d (a % pageBytes)
      (noteCorrected s row.1 row.2, data, poison)
    else if bad.length < 4 || (freshValue s).toNat % 2 == 0 then (poisonDev (if bad.length < 4 then s else bumpFree s) a, data, true)
    else (bumpFree s, undetected (freshValue s).toNat data bad, poison)

/-- Pages of an address range. -/
def pagesOf (addr bytes : Nat) : List Nat :=
  if bytes == 0 then []
  else (List.range ((addr + bytes - 1) / pageBytes - addr / pageBytes + 1)).map (fun i => addr / pageBytes + i)

/-- n bytes read from the DRAM of the device range: the state after it, the bytes delivered, and whether a block of them is uncorrectable
or poisoned; the frames read take REF (R221, R236, R355). -/
def dramRead (s : State) (a n : Nat) (wrong : List (Nat × Nat × Byte)) : State × Bytes × Bool :=
  let blocks := List.range ((a + n - 1) / 64 - a / 64 + 1)
  let r := blocks.foldl (fun (t : State × Bytes × Bool) k =>
    let b := readBlock t.1 (64 * (a / 64 + k)) (wrong.filterMap (fun w => if w.1 == k then some w.2 else none))
    (b.1, t.2.1 ++ b.2.1, t.2.2 || b.2.2)) (s, [], false)
  ((pagesOf a n).foldl (fun st p => touchPage st p 0) r.1, (r.2.1.drop (a % 64)).take n, r.2.2)

/-! Accesses of the host that wait (R223, R246). -/

/-- A waiting access can go on: its sector has arrived, or its region is gone. -/
def waitReady (s : State) (w : Nat × Option Bytes) : Bool :=
  match frameOfPage s (w.1 / pageBytes) with
  | some e => e.state != .fill || flag e.arrived (w.1 % pageBytes / 4096)
  | none => (regionOfPage s (w.1 / pageBytes)).isNone

/-- 64 bytes that the manual leaves open. -/
def freeBlock (s : State) : State × Bytes :=
  ((List.range 8).foldl (fun st _ => bumpFree st) s, (List.range 8).flatMap (fun i => natLe 8 (Config.freeValue (s.free + i)).toNat))

/-- A host access carries hint NORMAL: the region's default hint stands in for it (R226, R246). -/
def hostHint (s : State) (page : Nat) (write : Bool) : Nat :=
  let h := effectiveHint s 0 page
  if write then writeHint h else h

/-- A host read of a block: its data, with poison where it is poisoned; a STREAM read leaves REF and CLASS as they are (R226, R236,
R246). -/
def answerRead (s : State) (a : Nat) (wrong : List (Nat × Byte) := []) : State :=
  let h := hostHint s (a / pageBytes) false
  let s1 := if h == 1 then s else touchPage s (a / pageBytes) h
  let r := readBlock s1 a wrong
  emit r.1 (.memData r.2.1 r.2.2)

/-- A host write of a block of a page with a frame (R226, R246). -/
def hostWrite (s : State) (a : Nat) (bs : Bytes) : State := touchPage (pageWrite s a bs) (a / pageBytes) (hostHint s (a / pageBytes) true)

/-- A waiting access carried out; the page of a region that is gone is unallocated (R236, R246). -/
def serveAccess (s : State) (w : Nat × Option Bytes) : State :=
  match regionOfPage s (w.1 / pageBytes), w.2 with
  | some _, none => answerRead s w.1
  | some _, some bs => hostWrite s w.1 bs
  | none, none => emit (freeBlock s).1 (.memData (freeBlock s).2 true)
  | none, some _ => updLinkCounters s 0 (fun k => { k with winWriteDropped := wrapAdd 64 k.winWriteDropped 1 })

/-- The waiting accesses that can go on, oldest first (R223, R236, R246). -/
def serveReady (s : State) : State :=
  let ready := s.tier.fillWaits.filter (waitReady s)
  ready.foldl serveAccess { s with tier := { s.tier with fillWaits := s.tier.fillWaits.filter (fun w => !waitReady s w) } }

/-- A RESIDENT frame of a region in custody is freed when it is clean, and written back when it is not; as BE work the write-back waits while
that is held (R292, R352). -/
def freeCustody (s : State) (page : Nat) : State :=
  match frameOfPage s page, regionOfPage s page with
  | some e, some r =>
    if !r.custody || e.state != .resident then s
    else if e.dirty == 0 then clearFrame (freeFrame s e.num) e.num
    else if beHeld s || 3 ≤ groupLevelNow s (homeGroup s page) then s
    else startWriteback s e.num
  | _, _ => s

/-! Room in a bay's quota, and faults (R223, R225, R227, R228). -/

/-- One frame of a bay evicted, its dirty contents written back first; without a victim a running write-back or fill is carried through
(R225, R228). -/
def evictOne (s : State) (b : Nat) : Option State :=
  match victimOf s b with
  | some v =>
    let s1 := cleanFrame (sweepPast s b v) v.num
    some (clearFrame (freeFrame s1 v.num) v.num)
  | none =>
    match (quotaFrames s b).find? (fun e => e.state == .writeback && e.pin == 0) with
    | some e => some (finishWriteback s e.num)
    | none => ((quotaFrames s b).find? (fun e => e.state == .fill)).map (fun e => serveReady (finishFill s e.num))

/-- Frames of a bay evicted until n more fit its quota, with fuel (R228). -/
def makeRoomFuel (b n : Nat) : Nat → State → State
  | 0, s => s
  | k + 1, s =>
    if quotaUsed s b + n ≤ (bayAt s b).frames then s
    else
      match evictOne s b with
      | some t => makeRoomFuel b n k t
      | none => s

/-- Room for n frames in a bay's quota (R228). -/
def makeRoom (s : State) (b n : Nat) : State := makeRoomFuel b n (3 * s.tier.frames.length + 1) s

/-- A bay's quota has room for n frames after evictions; it has none while all that could leave are dirty frames of groups at level 3,
which the request waits for (R228, R363). -/
def roomFor (s : State) (b n : Nat) : Bool := quotaUsed (makeRoom s b n) b + n ≤ (bayAt s b).frames

/-- A frame for a bay: a FREE frame while the quota has room (or, under reclaim, while free DRAM is not zero), otherwise
an evicted clean victim; a dirty victim is written back first and the request waits (R225, R228, R303). -/
def takeFrame (s : State) (b : Nat) : State × Option Nat :=
  let used := quotaUsed s b
  let mayFree := if bayReclaiming s b then freeDram s != 0 else used < (bayAt s b).frames
  match (if mayFree then lowestFreeFrame s else none) with
  | some d => (s, some d)
  | none =>
    match victimOf s b with
    | none => (s, none)
    | some v =>
      let s1 := sweepPast s b v
      if v.dirty != 0 then (startWriteback s1 v.num, none)
      else (freeFrame s1 v.num, some v.num)

/-- Domains that the fill of a page needs: the DRAM controllers, and the flash group of its home (R343). -/
def fillDomains (s : State) (page : Nat) : List Nat :=
  lpcDomains ++ (match homeOfPage s page with
    | some h => [flgDomain h.group]
    | none => [])

/-- A fault on a FLASH page that is not resident takes a frame: FILL from a home, the faulting sector first, RESIDENT and zeroed
without one; the domains that it needs are asked to wake (R222, R223, R343). -/
def faultPage (s : State) (page hint sector : Nat) : State :=
  match regionOfPage s page, frameOfPage s page with
  | some r, none =>
    if r.kind != 2 then s
    else
      let t := takeFrame (needDomains s (fillDomains s page)) r.bay
      match t.2 with
      | none => t.1
      | some d =>
        let s1 := clearFrame t.1 d
        match homeOfPage s1 page with
        | some h =>
          setFrame s1 { num := d, state := .fill, page := page, bay := r.bay, home := some (h.group, h.slot), ref := true,
                        cls := classAfter hint 0, first := sector }
        | none => setFrame s1 { num := d, state := .resident, page := page, bay := r.bay, ref := true, cls := classAfter hint 0 }
  | _, _ => s

/-- A whole page brought into DRAM at once, for a pin or a COPY (R223, R227). -/
def fillPage (s : State) (page hint : Nat) : State :=
  let s1 := faultPage s page hint 0
  match frameOfPage s1 page with
  | some e => serveReady (if e.state == .fill then finishFill s1 e.num else s1)
  | none => s1

/-- A page brought into DRAM, with evictions and write-backs of its bay in between where its quota is full, with fuel (R223, R225,
R228). -/
def bringFuel : Nat → State → Nat → Nat → State
  | 0, s, _, _ => s
  | k + 1, s, page, hint =>
    let s1 := fillPage s page hint
    if (frameOfPage s1 page).isSome then s1
    else
      match (regionOfPage s1 page).bind (fun r => evictOne s1 r.bay) with
      | some t => bringFuel k t page hint
      | none => s1

/-- A bank-local frame that a piece may take: a free one of the bank-local sets, or that of a piece without contents, no sector of which
was ever written; both on a channel in service, none that departs (R209, R212; log entry 29). -/
def freeLocalFrame (s : State) (d : Nat) : Bool :=
  let e := frameAt s d
  d < 3932160 && s.tier.localSets.contains (d / 4096) && !s.tier.departures.any (fun x => x.channel == d % 4096 / 32) &&
  (e.state == .free || (e.state == .local_ && !e.zeroing && e.pin == 0 && !s.tier.written.any (fun w => w / 64 == d)))

/-- The first bank-local frame for a piece among those that p allows: free ones come before those of empty pieces (log entry 29). -/
def localFrame (s : State) (p : Nat → Bool) : Option Nat :=
  let ds := s.tier.localSets.flatMap (fun f => ((List.range 4096).map (fun x => 4096 * f + x)).filter p)
  (ds.find? (fun d => freeLocalFrame s d && (frameAt s d).state == .free)).orElse (fun _ => ds.find? (freeLocalFrame s))

/-- A bank-local page without a frame, whose empty piece gave it away, takes one when it is written (R192, R212; log entry 29). -/
def bringPiece (s : State) (page : Nat) : State :=
  match regionOfPage s page, frameOfPage s page with
  | some r, none =>
    if r.kind != 3 then s
    else
      match localFrame s (fun _ => true) with
      | some d => setFrame (clearFrame s d) { num := d, state := .local_, page := page, bay := r.bay }
      | none => s
  | _, _ => s

/-- A page brought into DRAM whatever its bay's frames hold (R212, R227, R228). -/
def bringPage (s : State) (page hint : Nat) : State := bringPiece (bringFuel (2 * s.tier.frames.length + 3) s page hint) page

/-- Bytes written with a hint to device-range memory from an address on, page by page, with fuel; pages not resident are brought in
first, and KEEP sets the class (R226). -/
def devWriteFuel (hint : Nat) : Nat → State → Nat → Bytes → State
  | 0, s, _, _ => s
  | k + 1, s, a, bs =>
    if bs.length == 0 then s
    else
      let n := pageBytes - a % pageBytes
      let h := writeHint (effectiveHint s hint (a / pageBytes))
      devWriteFuel hint k (touchPage (pageWrite (bringPage s (a / pageBytes) h) a (bs.take n)) (a / pageBytes) h) (a + n) (bs.drop n)

/-- Bytes written to device-range memory with a hint; lines that the host caches are given up first (R226, R247). -/
def devWriteHint (s : State) (hint a : Nat) (bs : Bytes) : State :=
  devWriteFuel hint (bs.length / pageBytes + 2) (backInvalidateRange s a bs.length) a bs

/-- Bytes written to device-range memory with hint NORMAL (R226). -/
def devWrite (s : State) (a : Nat) (bs : Bytes) : State := devWriteHint s 0 a bs

/-- Elements of a weight object, and the bytes of its scale tensor: a scale word of 2 bytes for each group (R174, R181). -/
def objectElems (w : WeightObj) : Nat := if fmtBits w.fmt == 0 then 0 else w.bytes * 8 / fmtBits w.fmt
def scaleBytes (w : WeightObj) : Nat := if w.scaleAddr == 0 then 0 else 2 * (objectElems w / groupSize w.gs)

/-- Pages of a weight object: data and scale tensor (R181, R227). -/
def objectPages (w : WeightObj) : List Nat := (pagesOf w.addr w.bytes ++ pagesOf w.scaleAddr (scaleBytes w)).eraseDups

/-- A weight object lies in its context's address space (R216). -/
def objectInSpace (s : State) (ctx : Nat) (w : WeightObj) : Bool :=
  (w.bytes == 0 || inSpace s ctx w.addr w.bytes) && (scaleBytes w == 0 || inSpace s ctx w.scaleAddr (scaleBytes w))

/-- A page pinned: resident first, then PIN + 1 (R227). -/
def pinPage (s : State) (page : Nat) : State :=
  let s1 := bringPage s page 0
  match frameOfPage s1 page with
  | some e => setFrame s1 { e with pin := e.pin + 1 }
  | none => s1

/-- A page unpinned (R227). -/
def unpinPage (s : State) (page : Nat) : State :=
  match frameOfPage s page with
  | some e => setFrame s { e with pin := e.pin - 1 }
  | none => s

/-- A page wholly pinned in DRAM (R184). -/
def pagePinned (s : State) (page : Nat) : Bool :=
  match frameOfPage s page with
  | some e => (e.pin != 0 || e.state == .dram || e.state == .local_) && e.state != .fill
  | none => false

/-! Bank-local frame sets (R192, R209, R212, R219). -/

/-- Every frame of a set is FREE, but for the SPARE ones (R219). -/
def setFree (s : State) (f : Nat) : Bool :=
  f != 0 && f < 960 && !s.tier.localSets.contains f &&
  s.tier.frames.all (fun e => e.num / 4096 != f || e.state == .free || e.state == .spare)

/-- The lowest sets whose frames are all FREE (which ones is open; log entry 19). -/
def freeSets (s : State) (n : Nat) : List Nat := ((List.range 960).filter (setFree s)).take n

/-- Channels out of the interleave (R233, R234). -/
def outChannels (s : State) : List Nat := (s.tier.departures.filter (fun d => d.out)).map (fun d => d.channel)

/-- FREE frames of the bank-local sets on channels in service (R212). -/
def freeLocals (s : State) : List Nat :=
  s.tier.localSets.flatMap (fun f => ((List.range 4096).map (fun x => 4096 * f + x)).filter (fun d =>
    (frameAt s d).state == .free && !(outChannels s).contains (d % 4096 / 32)))

/-- Frame sets that a bank-local region of some pages takes: one for 4,096 pieces, and more where pieces of channels that are out find no
free bank-local frame (R192, R212; log entry 29). -/
def setsNeeded (s : State) (pages : Nat) : Nat :=
  let out := 32 * (outChannels s).length
  pages / 4096 + ceilDiv (pages / 4096 * out - (if out == 0 then 0 else (freeLocals s).length)) (4096 - out)

/-- Sets turned bank-local: their frames are FREE and empty, those of channels that are out SPARE (R219, R222). -/
def makeLocal (s : State) (fs : List Nat) : State :=
  let inFs := fun (k : Nat) => fs.contains (k / pageBytes / 4096)
  let spares := fs.flatMap (fun f => (List.range 4096).filterMap (fun x =>
    if (outChannels s).contains (x / 32) then some ({ num := 4096 * f + x, state := .spare } : Frame_) else none))
  setFrames { s with tier := { s.tier with
    localSets := insertAllAsc fs s.tier.localSets,
    frames := s.tier.frames.filter (fun e => !fs.contains (e.num / 4096)),
    dram := s.tier.dram.filter (fun e => !inFs e.1),
    poison := s.tier.poison.filter (fun p => !inFs p),
    written := s.tier.written.filter (fun w => !fs.contains (w / 64 / 4096)) } } spares

/-- Slots 127 − n that replenished entries made SPARE in a set (R235). -/
def spareSlots (s : State) (f : Nat) : List Nat :=
  ((s.tier.departures.zip (List.range 24)).filter (fun e => e.1.replenished)).flatMap (fun e =>
    (List.range 32).map (fun b => 4096 * f + 128 * b + (126 - e.2)))

/-- Sets given back to the interleave once all their frames are FREE: slot 127 and the replenished slots are SPARE again (R219, R222,
R235). -/
def dropLocal (s : State) (fs : List Nat) : State :=
  let free := fs.filter (fun f => s.tier.localSets.contains f &&
    s.tier.frames.all (fun e => e.num / 4096 != f || e.state == .free || e.state == .spare))
  let s1 := { s with tier := { s.tier with
      localSets := s.tier.localSets.filter (fun f => !free.contains f),
      frames := s.tier.frames.filter (fun e => !free.contains (e.num / 4096)),
      dram := s.tier.dram.filter (fun e => !free.contains (e.1 / pageBytes / 4096)),
      poison := s.tier.poison.filter (fun p => !free.contains (p / pageBytes / 4096)),
      written := s.tier.written.filter (fun w => !free.contains (w / 64 / 4096)) } }
  (free.flatMap (spareSlots s)).foldl (fun st d => setFrame st { num := d, state := .spare }) s1

/-! Regions (R215, R217, R291). -/

/-- DRAM frames given to the pages of a DRAM region, zeroed before they enter it; a full quota evicts for them (R215, R228, R297). -/
def fillDramRegion (s : State) (r : Region) : State :=
  let s1 := if r.module then s else makeRoom s r.bay r.pages
  let ds := lowestFreeFrames s1 r.pages
  let s2 := ds.foldl clearFrame s1
  setFrames s2 ((ds.zip (List.range r.pages)).map (fun e =>
    ({ num := e.1, state := .dram, page := r.base + e.2, bay := r.bay } : Frame_)))

/-- Frames given to the pieces of a bank-local region: piece p in bank p mod 4,096 of its set p div 4,096; a piece whose bank is on a
channel that is out lies in a free bank-local frame of another (R192, R212, R228). -/
def fillLocalRegion (s : State) (r : Region) : State :=
  let n := r.pages / 4096
  let s0 := if r.module then s else makeRoom s r.bay r.pages
  let fs := freeSets s0 (setsNeeded s0 r.pages)
  let s1 := makeLocal s0 fs
  let out := fun (x : Nat) => (outChannels s0).contains (x / 32)
  let piece := fun (d k : Nat) => ({ num := d, state := .local_, page := r.base + k, bay := r.bay } : Frame_)
  let mine := ((fs.take n).zip (List.range n)).flatMap (fun e => ((List.range 4096).filter (fun x => !out x)).map (fun x =>
    piece (4096 * e.1 + x) (4096 * e.2 + x)))
  let s2 := setFrames s1 mine
  let moved := (List.range r.pages).filter (fun k => out (k % 4096))
  ((if moved == [] then [] else freeLocals s2).zip moved).foldl (fun st e => setFrame (clearFrame st e.1) (piece e.1 e.2)) s2

/-- Segments of a run of pages (R214). -/
def segmentsOf (base pages : Nat) : List Nat := (List.range ((base + pages - 1) / 4096 - base / 4096 + 1)).map (fun i => base / 4096 + i)

/-- Those of some segments that have no leaf yet (R217). -/
def leafless (s : State) (gs : List Nat) : List Nat := gs.eraseDups.filter (fun g => !s.tier.leaves.any (fun l => l.seg == g))

/-- The lowest free slot of the leaf frames (R217). -/
def freeLeafSlot (s : State) : Option (Nat × Nat) :=
  (leafFrames s).findSome? (fun d =>
    (firstFrom (fun k => !s.tier.leaves.any (fun l => l.frame == d && l.slot == k)) 8 0).map (fun k => (d, k)))

/-- A FREE frame for leaves; where none is FREE, one is evicted of a bay (R217; log entry 19). -/
def takeLeafFrame (s : State) : State × Option Nat :=
  match lowestFreeFrame s with
  | some d => (s, some d)
  | none =>
    match (List.range 64).findSome? (fun b => (victimOf s b).bind (fun _ => evictOne s b)) with
    | some t => (t, lowestFreeFrame t)
    | none => (s, none)

/-- A leaf put among those of the range table, ascending. -/
def putLeaf (s : State) (l : Leaf) : State :=
  { s with tier := { s.tier with leaves := insertBy (fun (a b : Leaf) => decide (a.seg < b.seg)) l s.tier.leaves } }

/-- A leaf takes a free slot of a leaf frame, or a FREE frame becomes one (R217). -/
def addLeaf (s : State) (seg : Nat) : State :=
  match freeLeafSlot s with
  | some p => putLeaf s { seg := seg, frame := p.1, slot := p.2 }
  | none =>
    let t := takeLeafFrame s
    match t.2 with
    | some d => putLeaf (setFrame (clearFrame t.1 d) { num := d, state := .dram }) { seg := seg, frame := d, slot := 0 }
    | none => t.1

/-- Leaf frames that n new leaves need (R217). -/
def leafFramesNeeded (s : State) (n : Nat) : Nat := ceilDiv (n - (8 * (leafFrames s).length - s.tier.leaves.length)) 8

/-- A leaf released with the last region of its segment; a leaf frame with its last leaf (R217). -/
def dropLeaves (s : State) : State :=
  let used := fun (l : Leaf) => s.bay.regions.any (fun r => r.base / 4096 ≤ l.seg && l.seg ≤ (r.base + r.pages - 1) / 4096)
  let s1 := { s with tier := { s.tier with leaves := s.tier.leaves.filter used } }
  ((leafFrames s).filter (fun d => !(leafFrames s1).contains d)).foldl (fun st d => setFrame st { num := d, state := .free }) s1

/-- A region created: its entry, its DRAM or bank-local frames, and then its leaves, in frames that are left; FLASH pages start as ZERO,
and their homes lower the free flash of their groups (R215, R217, R363). -/
def createRegion (s : State) (r : Region) : State :=
  let gs := leafless s (segmentsOf r.base r.pages)
  let s1 := { s with bay := { s.bay with regions := s.bay.regions ++ [r] } }
  let s2 := match r.kind with
    | 1 => fillDramRegion s1 r
    | 2 => refreshLevels s1
    | 3 => fillLocalRegion s1 r
    | _ => s1
  gs.foldl addLeaf s2

/-- The FREE frames carry n new leaf frames beside those that the creation itself takes of them: pages of a bay whose full quota evicts for
them take none (R217, R228). -/
def leavesFit (s : State) (taken leaves : Nat) : Bool := leaves == 0 || taken + leaves ≤ freeFrames s

/-- A highest place for a run of pages below the end of the DPA span that no region overlaps (which place is open; log entry 27). -/
def placeAmong (s : State) (rs : List (Nat × Nat)) (pages align : Nat) : Nat :=
  let top := 4096 + s.sec.order.dpaSpan / pageBytes
  let cands := (top :: rs.map (fun r => r.1)).map (fun x => (x - pages) / align * align)
  maxOf (cands.filter (fun b => 4096 ≤ b && b + pages ≤ top && rs.all (fun r => b + pages ≤ r.1 || r.1 + r.2 ≤ b)))

/-- The place of a region that the module makes (log entry 27). -/
def placeRegion (s : State) (pages align : Nat) : Nat := placeAmong s (s.bay.regions.map (fun r => (r.base, r.pages))) pages align

/-- A frame leaves its region; a fill or a write-back that runs goes on till it ends (R222, R303). -/
def retireFrame (e : Frame_) : Frame_ := { e with zeroing := true, pin := 0, dirty := 0, home := none }

/-- The frame of a page that left its region while a fill or a write-back of it runs (R222, R303). -/
def leavingFrame (s : State) (page : Nat) (st : FrameState) : Option Frame_ :=
  s.tier.frames.find? (fun e => e.page == page && e.zeroing && e.state == st)

/-- A sector of a fill arrives in a frame that left its region, which is RESIDENT with the last one (R222, R303). -/
def fillLeaving (s : State) (e : Frame_) (sector : Nat) : State :=
  let arrived := e.arrived ||| (1#64 <<< sector)
  if arrived == BitVec.allOnes 64 then setFrame s { e with arrived := 0, first := 0, state := .resident }
  else setFrame s { e with arrived := arrived }

/-- A region released: frames freed or left to be zeroed, homes and flash contents given up (R222, R303). With zeroing the
frames wait for FRAME_ZEROED. -/
def releaseRegion (s : State) (r : Region) (zeroing : Bool) : State :=
  let frames := s.tier.frames.filter (fun e => regionHas r e.page && !e.zeroing &&
    (match e.state with
     | .fill | .resident | .writeback | .dram | .local_ => true
     | _ => false))
  let s1 := frames.foldl (fun st e =>
    if zeroing then setFrame st (retireFrame e) else setFrame (clearFrame st e.num) { num := e.num, state := .free }) s
  let sets := (frames.filter (fun e => e.state == .local_)).map (fun e => e.num / 4096) |>.eraseDups
  let s2 := if zeroing then s1 else dropLocal s1 sets
  let lo := pageBytes * r.base
  let hi := pageBytes * (r.base + r.pages)
  let s3 := dropLeaves { s2 with
    bay := { s2.bay with regions := removeFirst (fun x => x == r) s2.bay.regions },
    tier := { s2.tier with
      homes := s2.tier.homes.filter (fun h => !regionHas r h.page),
      flash := memClear s2.tier.flash lo (hi - lo),
      capture := memClear s2.tier.capture lo (hi - lo),
      captureBad := s2.tier.captureBad.filter (fun p => !(decide (lo ≤ p) && decide (p < hi))),
      flashPoison := s2.tier.flashPoison.filter (fun p => !(decide (lo ≤ p) && decide (p < hi))),
      unspecified := s2.tier.unspecified.filter (fun p => !(decide (lo ≤ p) && decide (p < hi))) } }
  if r.kind == 2 then refreshLevels s3 else s3

end Sys2Proof.Machine
end

