-- ==== Sys2Proof/Machine/RimeUnit.lean ====
section
/-! DEFINITION. A rime unit: its command words, their limits, cycles and arithmetic, and the effect of each command on the
unit and its bank (R190, R191, R194, R195, R197 to R199, R206 to R209). -/

namespace Sys2Proof.Machine

open Sys2Proof

/-! The command word (R197). -/

def rwOp (w : BitVec 128) : Nat := field w 122 6
def rwFmt (w : BitVec 128) : Nat := field w 118 4
def rwGs (w : BitVec 128) : Nat := field w 116 2
def rwSck (w : BitVec 128) : Nat := field w 114 2
def rwFp16 (w : BitVec 128) : Bool := flag w 113
def rwDst (w : BitVec 128) : Nat := field w 110 3
def rwLane (w : BitVec 128) : Nat := field w 106 4
def rwAcc (w : BitVec 128) : Bool := flag w 105
def rwQoff (w : BitVec 128) : Nat := field w 95 10
def rwN (w : BitVec 128) : Nat := field w 84 11
def rwItems (w : BitVec 128) : Nat := field w 77 7 + 1
def rwQn (w : BitVec 128) : Nat := field w 73 4 + 1
def rwStride (w : BitVec 128) : Nat := field w 64 9
def rwTag (w : BitVec 128) : Nat := field w 48 16
def rwSqb (w : BitVec 128) : Bool := flag w 22
def rwAddr (w : BitVec 128) : Nat := field w 0 22

/-- Linear lane 16 × DST + LANE (R194). -/
def rwLinear (w : BitVec 128) : Nat := 16 * rwDst w + rwLane w

/-- B is in a grouped format: BELL4, BELL3, FP8-E4M3 or FP8-E5M2 (R195). -/
def rwGrouped (w : BitVec 128) : Bool := [0x3, 0x4, 0x7, 0x8].contains (rwFmt w)

/-- B is INT16, and so is A (R195). -/
def rwInt (w : BitVec 128) : Bool := rwFmt w == 0xD

/-- Bytes of one item: N codes, then N/G scale words when grouped (R193). -/
def rwItemBytes (w : BitVec 128) : Nat :=
  if rwGrouped w then ceilDiv (rwN w * fmtBits (rwFmt w)) 8 + 2 * (rwN w / groupSize (rwGs w)) else 2 * rwN w

/-- The command has a B operand (R194). -/
def rwHasB (w : BitVec 128) : Bool := [0x10, 0x11, 0x12].contains (rwOp w)

/-- N is 16 to 1,024, a multiple of 16 and of G (R197). -/
def rwNOk (w : BitVec 128) : Bool :=
  16 ≤ rwN w && rwN w ≤ 1024 && rwN w % 16 == 0 && (!rwHasB w || !rwGrouped w || rwN w % groupSize (rwGs w) == 0)

/-- B format, group size and scale kind are ones the unit has (R195, R197). -/
def rwFmtOk (w : BitVec 128) : Bool :=
  [0x3, 0x4, 0x7, 0x8, 0xB, 0xC, 0xD].contains (rwFmt w) && (!rwGrouped w || (rwGs w < 3 && rwSck w < 3))

/-- Encodings and limits of R194 and R197 hold; otherwise ILLEGAL. SAVE and RESTORE are legal for the controller only. -/
def rwLegal (w : BitVec 128) : Bool :=
  field w 23 25 == 0 && (!rwSqb w || rwOp w == 0x10) &&
  (match rwOp w with
   | 0x00 | 0x01 | 0x03 | 0x04 | 0x13 | 0x14 => true
   | 0x02 => rwNOk w && rwQoff w + rwN w ≤ 1024
   | 0x10 => rwNOk w && rwFmtOk w && 1 ≤ rwStride w && rwLinear w + rwItems w ≤ 128 &&
             (rwSqb w || rwQoff w + rwN w ≤ 1024)
   | 0x11 => rwNOk w && rwFmtOk w && 1 ≤ rwStride w && rwLinear w + rwQn w ≤ 128 && rwQoff w + rwQn w * rwN w ≤ 1024
   | 0x12 => rwNOk w && rwFmtOk w && 1 ≤ rwStride w && 16 * rwDst w + rwN w ≤ 128 && rwQoff w + rwItems w ≤ 1024
   | _ => false)

/-- Operand spans of a command, (first byte, bytes) relative to ADDR in bytes (R193, R194). -/
def rwSpans (w : BitVec 128) : List (Nat × Nat) :=
  match rwOp w with
  | 0x02 => [(0, 2 * rwN w)]
  | 0x03 | 0x04 => [(0, 64)]
  | 0x10 | 0x11 | 0x12 => (List.range (rwItems w)).map (fun i => (64 * rwStride w * i, rwItemBytes w))
  | _ => []

/-- Bytes from ADDR to the end of the last operand. -/
def rwExtent (w : BitVec 128) : Nat := maxOf ((rwSpans w).map (fun p => p.1 + p.2))

/-! Banks (R191). -/

/-- Descriptor of frame f of a bank: a bank-local piece of its set, or a piece of an exclusive channel. -/
def bankDesc (s : State) (bank f : Nat) : Nat := 4096 * f + bank + (if bankExclusive s bank && f < 960 then exclDesc else 0)

/-- Key in the DRAM store of byte x of a bank. -/
def bankKey (s : State) (bank x : Nat) : Nat := dramKey (bankDesc s bank (x / pageBytes)) (x % pageBytes)

/-- n bytes of a bank. -/
def bankRead (s : State) (bank : Nat) : Nat → Nat → Bytes
  | _, 0 => []
  | x, n + 1 => memRead s.tier.dram (bankKey s bank x) :: bankRead s bank (x + 1) n

/-- First byte of the rime save area in a bank: row 130,560 (R191). -/
def saveArea : Nat := 130560 * 2048

/-! Check bytes (R191, R207): every codeword that anyone reads is consistent, so they follow from the blocks (log entry 113). -/

/-- A byte of a frame as an access finds it: of a leaf of the range table, of what the module keeps in segment 0 or in a structure of an
index, or the stored byte (R217, R218; log entry 96). -/
def frameByte (s : State) (d off : Nat) : Byte :=
  let e := frameAt s d
  let a := pageBytes * e.page + off
  if (leafFrames s).contains d then leafFrameByte s d off
  else if e.zeroing || !(e.state == .dram || e.state == .local_) then memRead s.tier.dram (dramKey d off)
  else if e.page < 4096 then segment0Byte s a
  else (indexByte s a).getD (memRead s.tier.dram (dramKey d off))

/-- Row and byte in it where the check bytes of block k of data row r lie (R191). -/
def checkPlace (r k : Nat) : Nat × Nat := (122880 + r / 16, 128 * (r % 16) + 4 * k)

/-- Byte x of a bank's data rows: of the piece, or of the stripe of an interleaved frame that lies there; 0 where no slot's stripe does
(R191, R219, R220; log entry 113). -/
def dataByte (s : State) (bank x : Nat) : Byte :=
  match rowPlace s bank (x / 2048) (x % 2048) with
  | some p => frameByte s p.1 p.2
  | none => 0

/-- The block at byte x of a bank's data rows or save area is poisoned (R191, R208, R236). -/
def rowPoison (s : State) (bank x : Nat) : Bool :=
  if x < 122880 * 2048 then (rowPlace s bank (x / 2048) (x % 2048 / 64 * 64)).any (fun p => s.tier.poison.contains (dramKey p.1 p.2))
  else s.tier.poison.contains (bankKey s bank x)

/-- Check bytes of the 64-byte block at byte x of a bank's data rows or save area. -/
def blockCheck (s : State) (bank x : Nat) : BitVec 32 :=
  Config.checkBytes (rowPoison s bank x)
    (if x < 122880 * 2048 then (List.range 64).map (fun i => dataByte s bank (x + i)) else bankRead s bank x 64)

/-- Byte x of a bank's rows: data and save area as they stand, check bytes of the block they belong to, the 40 blocks of the save area in
order in row 130,562, elsewhere 0 (table Bank row map). -/
def rowByte (s : State) (bank x : Nat) : Byte :=
  let part := fun (block : Nat) => BitVec.ofNat 8 ((blockCheck s bank (64 * block)).toNat / 256 ^ (x % 4))
  if x < 122880 * 2048 then dataByte s bank x
  else if saveArea ≤ x && x < saveArea + 4096 then memRead s.tier.dram (bankKey s bank x)
  else if x < saveArea then part (32 * (16 * (x / 2048 - 122880) + x % 2048 / 128) + x % 128 / 4)
  else if x < saveArea + 4096 + 4 * 64 then part (saveArea / 64 + (x - saveArea - 4096) / 4)
  else 0

/-- Rows that spans touch, each counted once in order. -/
def spanRows (base : Nat) (spans : List (Nat × Nat)) : List Nat :=
  (spans.flatMap (fun p => if p.2 == 0 then [] else
    (List.range ((base + p.1 + p.2 - 1) / 2048 - (base + p.1) / 2048 + 1)).map (fun i => (base + p.1) / 2048 + i))).eraseDups

/-- Row openings of a command and the row left open (R194). -/
def rowOpenings (open_ : Option Nat) (rows : List Nat) : Nat × Option Nat :=
  match rows with
  | [] => (0, open_)
  | r :: _ => ((rows.length - (if open_ == some r then 1 else 0)), rows.getLast?)

/-- Cycles of a command with its row openings (table Rime operations). -/
def rwCycles (w : BitVec 128) (rows : Nat) : Nat :=
  match rwOp w with
  | 0x00 => 1
  | 0x01 => 2
  | 0x02 => 2 + 12 * rows + rwN w / 16
  | 0x03 => 2 + 12 * rows + 2
  | 0x04 => 30 + 12 * rows
  | 0x10 => 2 + 12 * rows + rwItems w * (rwN w / 16) + 4
  | 0x11 => 2 + 12 * rows + rwItems w * rwQn w * (rwN w / 16) + 4
  | 0x12 => 2 + 12 * rows + rwItems w * (rwN w / 16)
  | 0x13 => 2
  | 0x14 => 4
  | _ => 106

/-! Lanes and the operand buffer (R190). -/

/-- Lane i of a unit; an empty list is all zero. -/
def laneAt (u : RimeUnit) (i : Nat) : Word32 := u.lanes.getD i 0

/-- A lane set. -/
def setLane (u : RimeUnit) (i : Nat) (v : Word32) : RimeUnit :=
  let l := if u.lanes == [] then List.replicate 128 0 else u.lanes
  { u with lanes := l.set i v }

/-- Consecutive lanes set. -/
def setLanes (u : RimeUnit) (i : Nat) (vs : List Word32) : RimeUnit :=
  (vs.zip (List.range vs.length)).foldl (fun v e => setLane v (i + e.2) e.1) u

/-- Element x of QB. -/
def qbAt (u : RimeUnit) (x : Nat) : BitVec 16 := u.qb.getD x 0

/-- QB elements set from x on. -/
def setQb (u : RimeUnit) (x : Nat) (vs : List (BitVec 16)) : RimeUnit :=
  let l := if u.qb == [] then List.replicate 1024 0 else u.qb
  { u with qb := (vs.zip (List.range vs.length)).foldl (fun a e => a.set (x + e.2) e.1) l }

/-- What the aperture's REGS reads: V0 to V7, lane 0 first (R199). -/
def rimeRegs (u : RimeUnit) : Bytes := (List.range 128).flatMap (fun i => natLe 4 (laneAt u i).toNat)

/-- Registers, QB and ERR cleared (R196, R199). -/
def clearUnit (u : RimeUnit) : RimeUnit := { u with lanes := [], qb := [], err := 0 }

/-! Arithmetic (R195). -/

/-- A 16-bit float operand with subnormals flushed to zero, sign kept (R157). -/
def flushed (fp16 : Bool) (x : Nat) : Num :=
  let f := if fp16 then shapeFp16 else shapeBf16
  match floatValue f x with
  | .fin n m e => if bitsAt x f.mb f.eb == 0 then .fin n 0 e else .fin n m e
  | v => v

/-- Element e of an item as its 16-bit operand: raw, or the decoded code of its group (R152, R195). An item with an invalid scale word
stands in no row of the table Invalid scale words: its group decodes as the zero group and no counter counts it (DESIGN CHOICE, log
entry 105). -/
def itemElem (w : BitVec 128) (item : Bytes) (e : Nat) : Nat :=
  if rwGrouped w then
    let sw := leAt item (ceilDiv (rwN w * fmtBits (rwFmt w)) 8 + 2 * (e / groupSize (rwGs w))) 2
    let sw := if scaleWordOk (rwSck w) sw then sw else packScale 0 true false false
    operandBf16 (rwFmt w) (rwSck w) sw (elemCode (rwFmt w) item e)
  else leAt item (2 * e) 2

/-- A B operand as a flushed float. -/
def itemNum (w : BitVec 128) (item : Bytes) (e : Nat) : Num := flushed (rwFmt w == 0xB) (itemElem w item e)

/-- Sixteen lane sums of float products added in order, then a four-level tree of neighbours (R159, R195; log entry 24). -/
def laneTreeF (ps : List Num) : Word32 :=
  let lane := fun (j : Nat) =>
    match (ps.zip (List.range ps.length)).filterMap (fun e => if e.2 % 16 == j then some (toFp32 e.1) else none) with
    | [] => (0 : Word32)
    | x :: r => r.foldl add32 x
  let level := fun (xs : List Word32) => (piecesOf 2 xs).map (fun p => match p with
    | [a, b] => add32 a b
    | a :: _ => a
    | [] => 0)
  (level (level (level (level ((List.range 16).map lane))))).headD 0

/-- The integer sums: lanes, then the tree, each addition saturating, with the saturations counted (R142, R195). -/
def laneTreeI (ps : List Int) : Int × Nat :=
  let lane := fun (j : Nat) =>
    ((ps.zip (List.range ps.length)).filterMap (fun e => if e.2 % 16 == j then some e.1 else none)).foldl satAdd32 (0, 0)
  let level := fun (xs : List (Int × Nat)) => (piecesOf 2 xs).map (fun p => match p with
    | [a, b] => (let r := satAdd32 a b.1; (r.1, r.2 + b.2))
    | a :: _ => a
    | [] => (0, 0))
  (level (level (level (level ((List.range 16).map lane))))).headD (0, 0)

/-- Σ A[off + e] × B[e], or Σ B[e]², of one item: the pattern and the saturations (R195). -/
def itemSum (u : RimeUnit) (w : BitVec 128) (off : Nat) (item : Bytes) : Word32 × Nat :=
  let es := List.range (rwN w)
  if rwInt w then
    let r := laneTreeI (es.map (fun e =>
      let b := signedOf 16 (itemElem w item e)
      (if rwSqb w then b else signedOf 16 (qbAt u (off + e)).toNat) * b))
    (BitVec.ofInt 32 r.1, r.2)
  else
    (laneTreeF (es.map (fun e =>
      let b := itemNum w item e
      mulNum (if rwSqb w then b else flushed (rwFp16 w) (qbAt u (off + e)).toNat) b)), 0)

/-- A value added to a lane, or written over it (R194). -/
def accLane (u : RimeUnit) (w : BitVec 128) (i : Nat) (v : Word32) : RimeUnit :=
  if !rwAcc w then setLane u i v
  else if rwInt w then
    let r := satAdd32 ((laneAt u i).toInt, 0) v.toInt
    { setLane u i (BitVec.ofInt 32 r.1) with sat := u.sat + r.2 }
  else setLane u i (add32 (laneAt u i) v)

/-- max() of R195: NaN when either is NaN; the value already held between equals. -/
def rimeMax (isInt : Bool) (held x : Word32) : Word32 :=
  if isInt then (if held.toInt < x.toInt then x else held)
  else if isNan32 held || isNan32 x then 0x7FC00000
  else if numLt (numOf32 held) (numOf32 x) then x else held

/-- DOT: one lane for each item (R194). -/
def doDot (u : RimeUnit) (w : BitVec 128) (items : List Bytes) : RimeUnit :=
  (items.zip (List.range items.length)).foldl (fun v e =>
    let r := itemSum v w (rwQoff w) e.1
    accLane { v with sat := v.sat + r.2 } w (rwLinear w + e.2) r.1) u

/-- MAXSIM: for each query vector the largest sum over the items (R194). -/
def doMaxsim (u : RimeUnit) (w : BitVec 128) (items : List Bytes) : RimeUnit :=
  (List.range (rwQn w)).foldl (fun v q =>
    let sums := items.map (fun b => itemSum v w (rwQoff w + q * rwN w) b)
    let sat := v.sat + (sumOf (sums.map (fun r => r.2)))
    let l := rwLinear w + q
    match (if rwAcc w then laneAt v l :: sums.map (fun r => r.1) else sums.map (fun r => r.1)) with
    | [] => v
    | x :: r => { setLane v l (r.foldl (rimeMax (rwInt w)) x) with sat := sat }) u

/-- WSUM: each lane sums its element over the items in item order (R194, R195). -/
def doWsum (u : RimeUnit) (w : BitVec 128) (items : List Bytes) : RimeUnit :=
  (List.range (rwN w)).foldl (fun v e =>
    let l := 16 * rwDst w + e
    let idx := List.range items.length
    if rwInt w then
      let r := (items.zip idx).foldl (fun a p =>
        satAdd32 a (signedOf 16 (qbAt u (rwQoff w + p.2)).toNat * signedOf 16 (itemElem w p.1 e))) (0, 0)
      accLane { v with sat := v.sat + r.2 } w l (BitVec.ofInt 32 r.1)
    else
      let ps := (items.zip idx).map (fun p =>
        toFp32 (mulNum (flushed (rwFp16 w) (qbAt u (rwQoff w + p.2)).toNat) (itemNum w p.1 e)))
      match ps with
      | [] => v
      | x :: r => accLane v w l (r.foldl add32 x)) u

/-- VMAX: lane-wise maximum of DST and the register in LANE (R194). -/
def doVmax (u : RimeUnit) (w : BitVec 128) : RimeUnit :=
  let src := rwLane w % 8
  setLanes u (16 * rwDst w) ((List.range 16).map (fun j =>
    rimeMax (rwInt w) (laneAt u (16 * rwDst w + j)) (laneAt u (16 * src + j))))

/-- RMAX: lane 0 of DST takes the maximum of its 16 lanes (R194). -/
def doRmax (u : RimeUnit) (w : BitVec 128) : RimeUnit :=
  let ls := (List.range 16).map (fun j => laneAt u (16 * rwDst w + j))
  match ls with
  | [] => u
  | x :: r => setLane u (16 * rwDst w) (r.foldl (rimeMax (rwInt w)) x)

/-- The 2,560 bytes of registers and QB (R194). -/
def unitBytes (u : RimeUnit) : Bytes :=
  rimeRegs u ++
  (List.range 1024).flatMap (fun i => natLe 2 (qbAt u i).toNat)

/-- Registers and QB from 2,560 bytes. -/
def unitFromBytes (u : RimeUnit) (bs : Bytes) : RimeUnit :=
  { u with lanes := (List.range 128).map (fun i => BitVec.ofNat 32 (leAt bs (4 * i) 4)),
           qb := (List.range 1024).map (fun i => BitVec.ofNat 16 (leAt bs (512 + 2 * i) 2)) }

/-! Banks with rime work. -/

/-- The rime record of a bank. -/
def rimeBank (s : State) (bank : Nat) : RimeBank :=
  (s.rime.banks.find? (fun b => b.bank == bank)).getD { bank := bank }

/-- A rime record put in place. -/
def setRimeBank (s : State) (b : RimeBank) : State :=
  let rest := s.rime.banks.filter (fun x => x.bank != b.bank)
  { s with rime := { s.rime with banks := insertBy (fun x y => decide (x.bank < y.bank)) b rest } }

/-- RIME_EN of a bank's channel (R199). -/
def rimeEnabled (s : State) (bank : Nat) : Bool := flag ((lookupKey s.rime.rcfg (bank / 32)).getD 0) 7

/-- 64-byte blocks that spans of a bank touch, as keys. -/
def spanBlocks (s : State) (bank base : Nat) (spans : List (Nat × Nat)) : List Nat :=
  (spans.flatMap (fun p => if p.2 == 0 then [] else
    (List.range ((base + p.1 + p.2 - 1) / 64 - (base + p.1) / 64 + 1)).map (fun i => bankKey s bank (64 * ((base + p.1) / 64 + i))))).eraseDups

/-- Operand address of a bank-absolute word, in bytes (R197). -/
def rwByte (w : BitVec 128) : Nat := 64 * rwAddr w

/-- How reading the operands of a word fails, as a completion code: UNINIT (3), POISON (2), ECC_UE (1), or 0 (R198, R206,
R209). -/
def operandFault (s : State) (bank : Nat) (w : BitVec 128) (m : Media) : Nat :=
  let blocks := spanBlocks s bank (rwByte w) (rwSpans w)
  if rwOp w == 0x04 then 0
  else if blocks.any (fun k => !s.tier.written.contains (k / 4096)) then 3
  else if blocks.any (fun k => s.tier.poison.contains k) then 2
  else if m == .uncorrectable then 1
  else 0

/-- The items of a word. -/
def rwItemList (s : State) (bank : Nat) (w : BitVec 128) : List Bytes :=
  (rwSpans w).map (fun p => bankRead s bank (rwByte w + p.1) p.2)

/-- Effect of a command word on the unit's registers and QB. -/
def unitEffect (s : State) (bank : Nat) (u : RimeUnit) (w : BitVec 128) : RimeUnit :=
  match rwOp w with
  | 0x01 => setLanes u (16 * rwDst w) (List.replicate 16 0)
  | 0x02 =>
    let bs := bankRead s bank (rwByte w) (2 * rwN w)
    setQb u (rwQoff w) ((List.range (rwN w)).map (fun i => BitVec.ofNat 16 (leAt bs (2 * i) 2)))
  | 0x03 =>
    let bs := bankRead s bank (rwByte w) 64
    setLanes u (16 * rwDst w) ((List.range 16).map (fun i => BitVec.ofNat 32 (leAt bs (4 * i) 4)))
  | 0x10 => doDot u w (rwItemList s bank w)
  | 0x11 => doMaxsim u w (rwItemList s bank w)
  | 0x12 => doWsum u w (rwItemList s bank w)
  | 0x13 => doVmax u w
  | 0x14 => doRmax u w
  | _ => u

/-- The word that the unit executes next: the head of its CMDQ, or of the running request's list. -/
def nextWord (b : RimeBank) : Option (BitVec 128) :=
  match b.unit.cmdq with
  | w :: _ => some w
  | [] => b.current.bind (fun r => r.cmds.head?)

/-- A command is executing or queued (R199). -/
def rimeBusy (b : RimeBank) : Bool := b.unit.cmdq != [] || b.current.any (fun r => r.cmds != [])

/-- What the aperture's STATUS reads (table Rime status word). -/
def rimeStatus (b : RimeBank) : Word64 :=
  BitVec.ofNat 64 ((if rimeBusy b then 1 else 0) + (if b.unit.susp then 2 else 0) + (64 - b.unit.cmdq.length) * 2 ^ 32 +
    b.unit.err % 256 * 2 ^ 40 + b.unit.tag % 65536 * 2 ^ 48)

/-- The executed word leaves the CMDQ and the request's list. -/
def popWord (b : RimeBank) (w : BitVec 128) : RimeBank :=
  let cur := b.current.map (fun r => if r.cmds.head? == some w then { r with cmds := r.cmds.drop 1 } else r)
  { b with unit := { b.unit with cmdq := b.unit.cmdq.drop 1 }, current := cur }

/-- The running request ends with a code, and so does the unit's error (R198, R199). -/
def endWithCode (b : RimeBank) (code err : Nat) : RimeBank :=
  { b with unit := { b.unit with err := err, cmdq := [] },
           current := b.current.map (fun r => { r with cmds := [], code := code }) }

/-- Writes of a STORER: 64 bytes of register DST at ADDR, after the host has given up a cached line there, journalled until the
command ends (R207, R208, R247). -/
def storeRegister (s : State) (bank : Nat) (u : RimeUnit) (w : BitVec 128) (cycles : Nat) : State :=
  let bs := (List.range 16).flatMap (fun i => natLe 4 (laneAt u (16 * rwDst w + i)).toNat)
  let x := rwByte w
  let d := bankDesc s bank (x / pageBytes)
  let e := frameAt s d
  let s0 := if e.state == .local_ then backInvalidateRange s (pageBytes * e.page + x % pageBytes) 64 else s
  let s1 := frameWrite s0 d (x % pageBytes) bs
  { s1 with rime := { s1.rime with
      journal := s1.rime.journal.filter (fun j => j.1 != bank) ++ [(bank, bankKey s bank x, 64, now s + ceilDiv (5 * cycles) 2)] } }

/-- Correctable codewords met in rows of a bank: the unit counts them, and each is reported for scrubbing (R206, R365). -/
def countCorrected (s : State) (bank : Nat) (rows : List Nat) : State :=
  if rows == [] then s
  else
    let m := (lookupKey s.rime.corrected bank).getD 0 + rows.length
    rows.foldl (fun st r => noteCorrected st bank r) { s with rime := { s.rime with corrected := putKey s.rime.corrected bank m } }

/-- One command word on a bank's unit: it computes only in a segment, which holds the bank's computing slot, while the channel's aperture
is on and the unit is not suspended, and only the next word runs; an illegal word or a failing operand ends the request (R22, R194,
R198, R200, R206, R209). -/
def runWord (s : State) (bank op : Nat) (w : BitVec 128) (m : Media) (corrected : List Nat) : State :=
  let b := rimeBank s bank
  if !rimeEnabled s bank || b.segment.isNone || b.unit.susp || nextWord b != some w || rwOp w != op then s
  else
    let b1 := popWord b w
    let u := { b1.unit with tag := rwTag w }
    if !rwLegal w then setRimeBank s (endWithCode { b1 with unit := u } 5 3)
    else if rwExtent w != 0 && 245760 * 1024 < rwByte w + rwExtent w then
      setRimeBank s (endWithCode { b1 with unit := u } 4 4)
    else
      let touched := spanRows (rwByte w) (rwSpans w)
      let s1 := countCorrected s bank (corrected.filter touched.contains)
      let rows := rowOpenings u.openRow touched
      let c := rwCycles w rows.1
      let u1 := { u with cycles := u.cycles + c, openRow := rows.2 }
      let code := operandFault s1 bank w m
      if code != 0 then setRimeBank s1 (endWithCode { b1 with unit := u1 } code (if code == 2 then 2 else if code == 1 then 1 else 0))
      else
        let s2 := if op == 0x04 then storeRegister s1 bank u1 w c else s1
        setRimeBank s2 { b1 with unit := unitEffect s bank u1 w }

/-- SAVE: registers and QB to the save area, journalled until it ends (R194, R207, R208). -/
def saveUnit (s : State) (bank : Nat) : State :=
  let b := rimeBank s bank
  let bs := unitBytes b.unit
  let k := bankKey s bank saveArea
  let poison := s.tier.poison.filter (fun p => !(decide (k ≤ p) && decide (p < k + 2560)))
  let s1 := { s with tier := { s.tier with dram := memWriteBytes s.tier.dram k bs, poison := poison } }
  let s2 := { s1 with rime := { s1.rime with
      journal := s1.rime.journal.filter (fun j => j.1 != bank) ++ [(bank, k, 2560, now s + 265)] } }
  setRimeBank s2 { b with unit := { b.unit with cycles := b.unit.cycles + 106 } }

/-- A save area holds a poisoned block (R208). -/
def saveAreaPoisoned (s : State) (bank : Nat) : Bool :=
  let k := bankKey s bank saveArea
  s.tier.poison.any (fun p => decide (k ≤ p) && decide (p < k + 2560))

/-- RESTORE: the save area to registers and QB; a poisoned or uncorrectable block clears them and ends the request (R194,
R206, R208, R209). -/
def restoreUnit (s : State) (bank : Nat) (m : Media) (corrected : List Nat) : State :=
  let s := countCorrected s bank (corrected.filter (fun r => r == 130560 || r == 130561))
  let b := rimeBank s bank
  let u := { b.unit with cycles := b.unit.cycles + 106 }
  if saveAreaPoisoned s bank then setRimeBank s (endWithCode { b with unit := clearUnit u } 2 2)
  else if m == .uncorrectable then setRimeBank s (endWithCode { b with unit := clearUnit u } 1 1)
  else setRimeBank s { b with unit := unitFromBytes u (bankRead s bank saveArea 2560) }

end Sys2Proof.Machine
end

