-- ==== Sys2Proof/Machine/Rime.lean ====
section
/-! DEFINITION. Rime requests: their descriptor, list and completion record, their order on a bank, relocation, preemption, and how they
are aborted (R195 to R198, R200 to R206, R208, R212, R213). -/

namespace Sys2Proof.Machine

open Sys2Proof

/-! The request descriptor (R196). -/

def rdSignal (d : BitVec 256) : Nat := field d 224 16
def rdLanes (d : BitVec 256) : Nat := field d 216 8
def rdArraySpace (d : BitVec 256) : Bool := flag d 215
def rdResult (d : BitVec 256) : Nat := field d 192 20
def rdReady (d : BitVec 256) : Nat := field d 172 10
def rdCount (d : BitVec 256) : Nat := field d 164 8 + 1
def rdCmds (d : BitVec 256) : Nat := field d 140 20
def rdHome (d : BitVec 256) : Nat := field d 64 47

/-- Rsvd bits clear, lanes, alignment and the fit of the list and the result area in their stores (R196, R198). -/
def rdOk (d : BitVec 256) : Bool :=
  rsvdZero d [(224, 16), (216, 8), (215, 1), (192, 20), (172, 10), (164, 8), (140, 20), (64, 47)] &&
  rdLanes d ≤ 128 && rdResult d % 8 == 0 && rdCmds d % 16 == 0 && rdCmds d + 16 * rdCount d ≤ 1048576 &&
  rdResult d + 8 + 4 * rdLanes d ≤ (if rdArraySpace d then 1048576 else 32768)

/-- Where a list word's address lies: the home piece, or the scratch sector, with its size (R193, R197). -/
def wordPlace (homeByte : Nat) (scratchByte : Option Nat) (w : BitVec 128) : Option (Nat × Nat) :=
  if flag w 21 then scratchByte.map (fun b => (b, 4096)) else some (homeByte, pageBytes)

/-- A list word with its address made bank-absolute, or the code that the request ends with there (R193, R197, R198). -/
def translateWord (homeByte : Nat) (scratchByte : Option Nat) (w : BitVec 128) : BitVec 128 × Nat :=
  if !rwLegal w || field w 12 9 != 0 then (w, 5)
  else
    let off := 64 * field w 0 12
    let to_ := fun (base : Nat) => BitVec.ofNat 128 (w.toNat / 2 ^ 22 * 2 ^ 22 + (base + off) / 64)
    match wordPlace homeByte scratchByte w with
    | none => if rwExtent w == 0 then (to_ homeByte, 0) else (w, 4)
    | some (base, size) => if rwExtent w != 0 && size < off + rwExtent w then (w, 4) else (to_ base, 0)

/-- The words before the first bad one, and the code that ends the request after them (R198). -/
def translateList (homeByte : Nat) (scratchByte : Option Nat) : List (BitVec 128) → List (BitVec 128) × Nat
  | [] => ([], 0)
  | w :: r =>
    let t := translateWord homeByte scratchByte w
    if t.2 != 0 then ([], t.2)
    else
      let rest := translateList homeByte scratchByte r
      (t.1 :: rest.1, rest.2)

/-- The completion record of 8 bytes (R198). -/
def rimeRecordWord (code sat cycles tag : Nat) : Word64 :=
  BitVec.ofNat 64 (code % 256 + min sat 255 * 2 ^ 8 + cycles % 2 ^ 32 * 2 ^ 16 + tag % 2 ^ 16 * 2 ^ 48)

/-- Bytes written to the store that a request's descriptor names, the issuing cell's or its array's; an area that would pass the end of
the store is not written (R196, R304). -/
def writeResult (s : State) (cell : Nat) (d : BitVec 256) (bs : Bytes) : State :=
  if rdArraySpace d then
    if 1048576 < rdResult d + bs.length then s
    else { s with cells := { s.cells with arrayStore := memWriteBytes s.cells.arrayStore (1048576 * (cell / 64) + rdResult d) bs } }
  else if 32768 < rdResult d + bs.length then s
  else { s with cells := { s.cells with cellStore := memWriteBytes s.cells.cellStore (32768 * cell + rdResult d) bs } }

/-- The command list of a request, read from the store of the cell's array at CMD_ADDR, bits [63:0] of a word first (R196, R197). -/
def requestList (s : State) (cell : Nat) (d : BitVec 256) : List (BitVec 128) :=
  (List.range (rdCount d)).map (fun i =>
    BitVec.ofNat 128 (leNat (memReadBytes s.cells.arrayStore (1048576 * (cell / 64) + rdCmds d + 16 * i) 16)))

/-- The peg of a plan's binding: its own peg, or the run's argument (R172). -/
def bindingPeg (p : Plan) (x : Query) (b : Nat) : Option Nat :=
  match p.pegs[b]? with
  | some e => if e.kind == 1 then x.args.getD e.ref none else e.peg
  | none => none

/-- What tells a query from a later one in its slot. -/
def jobOf (x : Query) : Nat × Nat × Nat × Nat := (x.q, x.cid, x.pos, x.arrival)

/-- The query of the issuing thread, where a slot applies and is still that query's (R196). -/
def requestQuery (s : State) (r : RimeReq) : Option Query := (r.slot.bind (queryAt s)).filter (fun x => jobOf x == r.job)

/-- The peg named by SIGNAL_PEG is incremented after the ready bit is set, in the turn of its port; at an abort, which ends any number
of requests in one tick, no turns are told apart (R196, R28; log entry 95). -/
def signalRequest (s : State) (r : RimeReq) (code : Nat) : State :=
  if rdSignal r.desc == 0xFFFF then s
  else
    match r.peg with
    | some p => if code == 6 then raisePeg s p else signalPeg s (162 + r.bank / 256) p
    | none => s

/-- What a request that ended leaves on its query and its plan: ECC_UE and POISON end the query, and each integer saturation counts for
the plan (R142, R195, R206). -/
def chargeRequest (s : State) (r : RimeReq) (u : RimeUnit) (code : Nat) : State :=
  let s1 := match requestQuery s r with
    | some x => if code == 1 || code == 2 then updQuery s x.slot (fun y => { y with failed := some stMediaUe }) else s
    | none => s
  match r.plan with
  | some h =>
    if u.sat == 0 then s1
    else updPlan s1 h (fun p => { p with counters := { p.counters with accSat := satAdd 64 p.counters.accSat u.sat } })
  | none => s1

/-- A request completes: record, lanes with DONE only, ready bit, peg (R196, R198). -/
def finishRequest (s : State) (r : RimeReq) (u : RimeUnit) (code : Nat) : State :=
  let n := if code == 0 then rdLanes r.desc else 0
  let cycles := u.cycles + 2 * ceilDiv n 16
  let rec_ := rimeRecordWord code u.sat cycles u.tag
  let s1 := writeResult s r.cell r.desc (natLe 8 rec_.toNat ++ (rimeRegs u).take (4 * n))
  let s2 := emit s1 (.rimeRecord r.cell (rdResult r.desc) rec_ ((List.range n).map (laneAt u)))
  let bit := (r.cell, rdReady r.desc)
  let s3 := { s2 with rime := { s2.rime with ready := bit :: s2.rime.ready.filter (fun b => b != bit) } }
  signalRequest (chargeRequest s3 r u code) r code

/-- The frame of a bay's rime scratch in a bank (R201). -/
def scratchFrame (s : State) (b bank : Nat) : Option Nat :=
  (lookupKey s.rime.scratch b).bind (fun base =>
    (s.tier.frames.find? (fun e => e.state == .local_ && e.num < exclDesc && e.num % 4096 == bank && base ≤ e.page && e.page < base + 4096)).map
      (fun e => e.num))

/-! Token pools (R114). Kinds: 0 flash read slots, 1 cell-µs, 2 DRAM bytes, 3 rime bank-µs. -/

/-- A pair of the bay is LC. -/
def hasLcPair (s : State) (b : Nat) : Bool := s.queues.pairs.any (fun p => p.bay == b && p.lc)

/-- Retraining pauses placed in a window. -/
def pausesIn (s : State) (w : Nat) : Nat :=
  (s.adm.placed.filter (fun p => p.window == w && (match p.ev with
    | some (.retrain _ _) => true
    | _ => false))).length

/-- Flash channels with a program or erase piece placed in a window. -/
def pieceChannels (s : State) (w : Nat) : List Nat :=
  (s.adm.placed.filterMap (fun p => if p.window == w then (match p.ev with
    | some (.piece c _) => some c
    | _ => none) else none)).eraseDups

/-- Evacuation copy bytes placed in a window. -/
def copyBytesIn (s : State) (w : Nat) : Nat :=
  sumOf ((s.adm.placed.filter (fun p => p.window == w && p.ev.isNone)).map (fun p => p.bytes))

/-- Channels out of the interleave, and those of them leased to some bay or to bay b (R210, R231, R233). -/
def channelsOut (s : State) : Nat := (s.tier.departures.filter (fun d => d.out)).length
def leasesOut (s : State) : Nat := (s.tier.departures.filter (fun d => d.out && (match d.kind with
  | .lease _ => true
  | _ => false))).length
def leasesOf (s : State) (b : Nat) : Nat := (s.tier.departures.filter (fun d => d.out && d.kind == .lease b)).length

/-- Tokens of a kind that a bay has in a window, its reserved tokens taken off, in the 256ths of the shared pools that the bay shares
count in (R114, R210, R233). -/
def poolOf (s : State) (b kind w : Nat) : Nat :=
  let v := bayAt s b
  match kind with
  | 0 => 256 * (s.sec.order.readSlots * v.flash.length - 12 * ((pieceChannels s w).filter (fun c => v.flash.contains c)).length)
  | 1 => 256 * (6400 * v.arrays.length)
  | 2 =>
    v.dramShare * (245760000 - 1920000 * channelsOut s - 38400 * pausesIn s w - copyBytesIn s w) + 256 * 1920000 * leasesOf s b
  | _ => v.rimeShare * (102400 - 800 * leasesOut s - 16 * pausesIn s w) + 256 * 800 * leasesOf s b

/-- LC-admissible capacity of a kind in a window; 0 once the bay is being reclaimed or admission is stopped in every bay (R114, R116,
R377, R410). -/
def admissible (s : State) (b kind w : Nat) : Nat :=
  if (bayAt s b).mode == .reclaiming || s.adm.stopped then 0
  else (if kind == 2 then 90 else 95) * poolOf s b kind w / 25600

/-! Promotion (R135). -/

/-- What the promoted context of a bay has used of a kind in a window. -/
def promotedUse (s : State) (b kind w : Nat) : Nat :=
  sumOf (((bayAt s b).promotedUse.filter (fun e => e.1 == w && e.2.1 == kind)).map (fun e => e.2.2))

/-- The quantum's end of a context that is promoted, for work that takes n of a kind: within its bay's 5 % share of this window, down to
whole tokens (R114, R135). -/
def promotedUntil (s : State) (ctx kind n : Nat) : Option Nat :=
  (s.bay.bays.find? (fun e => e.2.promoted.any (fun p => p.1 == ctx))).bind (fun e =>
    let w := windowOf (now s)
    if promotedUse s e.1 kind w + n ≤ 5 * poolOf s e.1 kind w / 25600 then e.2.promoted.map (fun p => p.2) else none)

/-- Work of a promoted context that its share still covers uses n of a kind in this window; beyond it the work is BE and uses none of the
share (R135). -/
def usePromoted (s : State) (ctx kind n : Nat) : State :=
  match s.bay.bays.find? (fun e => e.2.promoted.any (fun p => p.1 == ctx)) with
  | none => s
  | some e =>
    let w := windowOf (now s)
    if (promotedUntil s ctx kind n).isNone then s
    else
      updBay s e.1 (fun v => { v with
        promotedUse := v.promotedUse.filter (fun u => u.1 == w && !(u.2.1 == kind)) ++ [(w, kind, promotedUse s e.1 kind w + n)] })

/-- Segment limit in bank-µs, what arbitration counts for a segment to come (R114, R135, R202). -/
def segmentCharge (mult : Nat) : Nat := if mult == 1 then 4 else if mult == 2 then 2 else 1

/-- A request as it is arbitrated: one of a promoted context as LC with the end of its quantum as deadline, within the share (R135). -/
def arbitrated (s : State) (r : RimeReq) : RimeReq :=
  match promotedUntil s r.ctx 3 (segmentCharge s.health.refreshMult) with
  | some t => if r.lc then r else { r with lc := true, deadline := t }
  | none => r

/-- Order of a bank's requests (R200). -/
def requestBefore (a b : RimeReq) : Bool :=
  if a.lc != b.lc then a.lc
  else
    let x := if a.lc then a.deadline else a.arrival
    let y := if b.lc then b.deadline else b.arrival
    decide (x < y) || (x == y && decide (a.cell < b.cell))

/-- Per-bank refresh interval and segment limit in ns by refresh multiplier (table Segment limits). -/
def refreshInterval (mult : Nat) : Nat := if mult == 1 then 3906 else if mult == 2 then 1953 else 976
def segmentLimit (mult : Nat) : Nat := if mult == 1 then 3200 else if mult == 2 then 1600 else 720

/-- A computing slot is free for a bank: fewer than 1,024 on the module and 8 of its channel (R22). -/
def slotFree (s : State) (bank : Nat) : Bool :=
  let busy := s.rime.banks.filter (fun b => b.segment.isSome)
  busy.length < 1024 && (busy.filter (fun b => b.bank / 32 == bank / 32)).length < 8

/-- Start of the next retraining pause placed on a channel that has not been taken (R129, R203). -/
def nextPause (s : State) (channel : Nat) : Option Nat :=
  ((s.adm.placed.filter (fun p => p.bytes == 0 && (match p.ev with
    | some (.retrain c _) => c == channel
    | _ => false))).map (fun p => p.window)).foldl (fun m w => some (match m with
      | some v => min v w
      | none => w)) none

/-! Relocation of home pieces (R212). -/

/-- A bank-local frame holds a piece's contents: a sector of it was written, or it is pinned (R209, R212; log entry 29). -/
def holdsPiece (s : State) (e : Frame_) : Bool :=
  e.state == .local_ && !e.zeroing && (e.pin != 0 || s.tier.written.any (fun w => w / 64 == e.num))

/-- Bank-local pieces on a channel of the interleaved frame sets, those that hold contents (R212; log entry 29). -/
def localPieces (s : State) (c : Nat) : List Nat :=
  (s.tier.frames.filter (fun e => e.num < exclDesc && e.num % 4096 / 32 == c && holdsPiece s e)).map (fun e => e.num)

/-- A request is under way on a bank: on its unit, or saved. -/
def bankBegun (s : State) (bank : Nat) : Bool :=
  s.rime.banks.any (fun b => b.bank == bank && (b.current.isSome || b.parked.isSome))

/-- The piece that an evacuation copies now: the first of the channel whose bank has no request under way (R212; log entry 110). -/
def copiedPiece (s : State) : Option Nat :=
  match s.tier.evacuation with
  | some v => if v.returning then none else (localPieces s v.channel).find? (fun d => !bankBegun s (d % 4096))
  | none => none

/-- A request waits, since its home piece is being copied (R212, R213). -/
def homeMoving (s : State) (r : RimeReq) : Bool :=
  match copiedPiece s with
  | some d => descOfPage s r.home == some d
  | none => false

/-- A request of the query in a slot waits so (R165, R212). -/
def rimeMoving (s : State) (slot : Nat) : Bool :=
  s.rime.banks.any (fun b => b.queue.any (fun r => (requestQuery s r).any (fun x => x.slot == slot) && homeMoving s r))

/-- Requests of a plan's code that have not ended: queued, on a unit or saved (R165, R196). -/
def planRequests (s : State) (h : Nat) : Bool :=
  s.rime.banks.any (fun b => (b.queue ++ b.current.toList ++ b.parked.toList).any (fun r => r.plan == some h))

/-- Queued requests whose home piece moved follow it to its new bank (R212). -/
def redirectHome (s : State) (page bank to_ : Nat) : State :=
  let mine := fun (r : RimeReq) => r.home == page
  let b := rimeBank s bank
  let s1 := if b.queue.any mine then setRimeBank s { b with queue := b.queue.filter (fun r => !mine r) } else s
  let moved := (b.queue.filter mine).map (fun r => { r with bank := to_ })
  if moved == [] then s1 else setRimeBank s1 { rimeBank s1 to_ with queue := (rimeBank s1 to_).queue ++ moved }

/-! Frames moved and vacated (R212, R222, R235, R366). -/

/-- The contents and entry of a frame moved to another descriptor; the source stays free with its contents cleared, and queued rime
requests follow a bank-local piece (R212, R222, R232, R235, R366). -/
def moveFrame (s : State) (src dst : Nat) (left : FrameState) : State :=
  let e := frameAt s src
  let k1 := dramKey src 0
  let k2 := dramKey dst 0
  let shift := fun (base to_ : Nat) (p : Nat) => p - base + to_
  let bad := s.tier.poison.filter (fun p => p / pageBytes == src)
  let wr := s.tier.written.filter (fun p => p / 64 == src)
  let s1 := { s with tier := { s.tier with
    dram := memClear (memCopy s.tier.dram s.tier.dram k1 k2 pageBytes) k1 pageBytes,
    poison := insertAllAsc (bad.map (shift k1 k2)) (s.tier.poison.filter (fun p => p / pageBytes != src && p / pageBytes != dst)),
    written := insertAllAsc (wr.map (shift (64 * src) (64 * dst))) (s.tier.written.filter (fun p => p / 64 != src && p / 64 != dst)),
    leaves := s.tier.leaves.map (fun (l : Leaf) => if l.frame == src then { l with frame := dst } else l) } }
  let s2 := setMoved (setFrame (setFrame s1 { e with num := dst }) { num := src, state := left }) (fun x => x / 1024 == src || x / 1024 == dst)
  if e.state == .local_ && src < exclDesc then redirectHome s2 e.page (src % 4096) (dst % 4096) else s2

/-- A frame vacated by its state: FREE and SPARE take the new state at once, RESIDENT and unpinned is evicted, its dirty contents written
to a home first, a bank-local piece moves to another channel once no request runs on its bank, and any other is copied to a FREE frame,
its address unchanged. It stays as it is while no frame is free for it, while its group is at level 3, or until it is zeroed (R235, R363,
R366). -/
def vacate (s : State) (d : Nat) (left : FrameState) : State :=
  let e := frameAt s d
  if e.state == .unavailable || e.zeroing then s
  else if e.state == .free || e.state == .spare then setFrame s { num := d, state := left }
  else if e.state == .resident && e.pin == 0 then
    if mayEvict s e then setFrame (clearFrame (freeFrame (cleanFrame s d) d) d) { num := d, state := left } else s
  else if e.state == .local_ then
    if !holdsPiece s e then setFrame (clearFrame s d) { num := d, state := left }
    else if bankBegun s (d % 4096) then s
    else
      match localFrame s (fun f => f % 4096 / 32 != d % 4096 / 32) with
      | some f => moveFrame s d f left
      | none => s
  else
    match lowestFreeFrame s with
    | some f => moveFrame s d f left
    | none => s

/-- A frame of a failing row is vacated and held UNAVAILABLE; one that cannot be vacated yet, or whose stripes a running copy still moves,
waits for it (R366, R381). -/
def holdFrame (s : State) (d : Nat) : State :=
  let e := frameAt s d
  let moving := s.tier.evacuation.isSome && e.state != .free && !s.tier.localSets.contains (d / 4096)
  let s1 := if moving then s else vacate s d .unavailable
  if (frameAt s1 d).state == .unavailable || s1.tier.vacateDue.contains d then s1
  else { s1 with tier := { s1.tier with vacateDue := s1.tier.vacateDue ++ [d] } }

/-- Frames of failing rows that wait to be vacated are tried again (R366, R381; log entry 117). -/
def vacateLate (s : State) : State := s.tier.vacateDue.foldl holdFrame { s with tier := { s.tier with vacateDue := [] } }

/-! The request on a unit (R196, R200, R205). -/

/-- The list of a request with bank-absolute addresses, as its home piece and its scratch sector lie now, and the code it ends with
(R193, R197, R201). -/
def requestWords (s : State) (r : RimeReq) : List (BitVec 128) × Nat :=
  match frameOfPage s r.home with
  | none => ([], 4)
  | some e =>
    let scratch := match r.sector, scratchFrame s (bayOfCtx s r.ctx) (e.num % 4096) with
      | some k, some f => some (pageBytes * (f / 4096) + 4096 * k)
      | _, _ => none
    translateList (pageBytes * (e.num / 4096 % 1024)) scratch r.list

/-- The saved request takes the unit back by RESTORE, with the progress that the controller held (R205). -/
def unparkBank (s : State) (bank : Nat) (p : RimeReq) (m : Media) (corrected : List Nat) : State :=
  let b := rimeBank s bank
  restoreUnit (setRimeBank s { b with unit := p.held, current := some { p with saved := false, held := {} }, parked := none }) bank m corrected

/-- A queued request starts on the unit, whose registers and QB are cleared in 2 cycles (R196, R198). -/
def startRequest (s : State) (b : RimeBank) (r : RimeReq) : State :=
  let t := requestWords s r
  setRimeBank s { b with unit := { cycles := 2 }, current := some { r with cmds := t.1, code := t.2 },
                         queue := b.queue.erase r }

/-- The request that a bank's unit runs: the one on it, the saved one when no LC request waits, or the first of its queue whose home piece
is not being copied (R200, R205, R212). No BE request starts while BE work is held (R352). -/
def chooseRequest (s : State) (bank : Nat) : State :=
  let b := rimeBank s bank
  let held := beHeld s
  let ready := b.queue.filter (fun r => !homeMoving s r)
  if b.current.isSome then s
  else
    match b.parked.filter (fun _ => !held || ready.any (fun r => r.lc)), sortBy (fun x y => requestBefore (arbitrated s x) (arbitrated s y)) ready with
    | some p, [] => unparkBank s bank p .ok []
    | some p, r :: _ => if (arbitrated s r).lc then startRequest s b r else unparkBank s bank p .ok []
    | none, r :: _ => if held && !r.lc then s else startRequest s b r
    | none, [] => s

/-- A BE request on a bank whose queue holds an LC request is saved and leaves the unit (R205). -/
def preemptBank (s : State) (bank : Nat) : State :=
  let b := rimeBank s bank
  match b.current with
  | some r =>
    if !(arbitrated s r).lc && r.cmds != [] && b.parked.isNone && b.queue.any (fun q => (arbitrated s q).lc) then
      let s1 := saveUnit s bank
      let b1 := rimeBank s1 bank
      let held := { r with saved := true, held := { b1.unit with lanes := [], qb := [] } }
      setRimeBank s1 { b1 with unit := {}, current := none, parked := some held }
    else s
  | none => s

/-- Requests of a context on a bank, each with the unit's record of it: those queued have used none, the saved one what the controller
holds. -/
def requestsOf (b : RimeBank) (ctx : Nat) : List (RimeReq × RimeUnit) :=
  (b.queue.map (fun r => (r, ({} : RimeUnit))) ++ b.current.toList.map (fun r => (r, b.unit)) ++
    b.parked.toList.map (fun r => (r, r.held))).filter (fun e => e.1.ctx == ctx)

/-- A bank without the requests of a context; a unit that ran one of them is cleared (R209, R213). -/
def dropRequests (b : RimeBank) (ctx : Nat) : RimeBank :=
  let other := fun (r : RimeReq) => r.ctx != ctx
  let onUnit := b.current.any (fun r => r.ctx == ctx)
  { b with queue := b.queue.filter other, current := b.current.filter other, parked := b.parked.filter other,
           segment := if onUnit then none else b.segment, unit := if onUnit then {} else b.unit }

/-- Requests of a context end ABORTED: no result, the ready bit set, registers and QB cleared (R198, R213, R305). -/
def abortRimeOf (s : State) (ctx : Nat) : State :=
  s.rime.banks.foldl (fun st b =>
    (requestsOf b ctx).foldl (fun st2 e => finishRequest st2 e.1 e.2 6) (setRimeBank st (dropRequests b ctx))) s

/-- Journalled blocks of commands cut off poisoned at the controllers' next start (R208): the entries of banks that satisfy
p; entries whose command had ended are dropped. -/
def poisonJournal (s : State) (p : Nat → Bool) : State :=
  let js := s.rime.journal.filter (fun j => p j.1)
  let ks := js.flatMap (fun j => (List.range (j.2.2.1 / 64)).map (fun i => j.2.1 + 64 * i))
  let s1 := { s with
    rime := { s.rime with journal := s.rime.journal.filter (fun j => !p j.1) },
    tier := { s.tier with poison := insertAllAsc ks s.tier.poison } }
  ((ks.map (fun k => k / pageBytes)).eraseDups.filter (fun d => d < 960 * 4096)).foldl refreshPoison s1

/-- Entries of the journal whose command has ended are cleared (R208). -/
def settleJournal (s : State) : State :=
  { s with rime := { s.rime with journal := s.rime.journal.filter (fun j => decide (now s < j.2.2.2)) } }

end Sys2Proof.Machine
end

