-- ==== Sys2Proof/Machine/Teardown.lean ====
section
/-! DEFINITION. How plans are unloaded, firn merges cut off, and contexts ended: normally, by a fault, by a reset or by the
grace expiry of a reclaim (R63, R168, R201, R243, R254, R284, R301, R305, R310). -/

namespace Sys2Proof.Machine

open Sys2Proof

/-- A bay's rime scratch: a bank-local region of one frame set, piece p in bank p (R192, R201, R215). -/
def makeScratchSet (s : State) (b : Nat) : State :=
  let base := placeRegion s 4096 4096
  let s1 := createRegion s { base := base, pages := 4096, kind := 3, hint := 0, groups := 0, bay := b }
  { s1 with rime := { s1.rime with scratch := putKey s1.rime.scratch b base } }

/-- A region given back; the frames of a bay under reclaim wait for FRAME_ZEROED (R303). -/
def giveBack (s : State) (r : Region) : State := releaseRegion s r (bayReclaiming s r.bay)

/-- The region that begins at a page given back. -/
def dropRegionAt (s : State) (base : Nat) : State :=
  match s.bay.regions.find? (fun r => r.base == base) with
  | some r => giveBack s r
  | none => s

/-- The rime scratch given back when no plan of the bay holds a sector of it (log entry 29). -/
def dropScratchSet (s : State) (b : Nat) : State :=
  if s.bay.plans.any (fun p => p.rimeSector.isSome && bayOfCtx s p.ctx == b) then s
  else
    match lookupKey s.rime.scratch b with
    | none => s
    | some base => dropRegionAt { s with rime := { s.rime with scratch := dropKey s.rime.scratch b } } base

/-- A plan's scratch sector in every bank is empty again, every one of them unwritten (R201, R209). -/
def clearSectors (s : State) (b k : Nat) : State :=
  match lookupKey s.rime.scratch b with
  | none => s
  | some base =>
    let mine := fun (d : Nat) => match s.tier.frames.find? (fun e => e.num == d) with
      | some e => e.state == .local_ && base ≤ e.page && e.page < base + 4096
      | none => false
    let gone := fun (x : Nat) => x % pageBytes / 4096 == k && mine (x / pageBytes)
    let ds := ((s.tier.poison.filter gone).map (fun p => p / pageBytes)).eraseDups
    ds.foldl refreshPoison { s with tier := { s.tier with
        dram := s.tier.dram.filter (fun e => !gone e.1), poison := s.tier.poison.filter (fun p => !gone p),
        written := s.tier.written.filter (fun w => !gone (4096 * w)) } }

/-- Pins of a plan's weight objects dropped: those that it took (R227). -/
def unpinWeights (s : State) (p : Plan) : State := p.pinned.foldl unpinPage s

/-! Program and erase pieces (R120). -/

/-- A channel carries out pieces of at most 40 µs: it is bound to a bay with an LC pair, or holds units of an index or of a rerank
store in flash that an LC plan names (R120). -/
def shortPieces (s : State) (c : Nat) : Bool :=
  s.bay.bays.any (fun e => e.2.flash.contains c && s.queues.pairs.any (fun p => p.bay == e.1 && p.lc)) ||
  s.bay.plans.any (fun p => p.lcOk && (match p.index.bind (indexAt s) with
    | some x => flag x.params.groups (c / 8) && (!x.params.dramTier || x.params.flashDirect)
    | none => false))

/-- Longest piece of a channel in ns, by the condition as last evaluated (R120). -/
def pieceLength (s : State) (c : Nat) : Nat := if s.health.shortChannels.contains c then 40000 else 400000

/-- The controllers evaluate the condition again; a piece already started keeps its length (R120). -/
def reevalPieces (s : State) : State :=
  let s1 := { s with health := { s.health with shortChannels := (List.range 128).filter (shortPieces s) } }
  { s1 with health := { s1.health with dies := s1.health.dies.map (fun d =>
      { d with piece := d.piece.map (fun p => if p.1 ≤ now s then p else (p.1, p.1 + pieceLength s1 d.channel)) }) } }

/-- A channel still runs a piece that started with more than 40 µs (R120). -/
def longPiece (s : State) (c : Nat) : Bool :=
  s.health.dies.any (fun d => d.channel == c && d.piece.any (fun p => p.1 ≤ now s && p.1 + 40000 < p.2))

/-! Release. -/

/-- A plan's resources released: pins, scratch, rime sector, private pegs, handle (R168, R305). -/
def releasePlan (s : State) (h : Nat) : State :=
  match planAt s h with
  | none => s
  | some p =>
    let b := bayOfCtx s p.ctx
    let s1 := unpinWeights s p
    let s2 := match p.scratch with
      | some r => dropRegionAt s1 r.1
      | none => s1
    let s2 := match p.rimeSector with
      | some k => clearSectors s2 b k
      | none => s2
    let s3 := (p.pegs.filterMap (fun e => e.peg)).foldl freePeg s2
    let s4 := { s3 with bay := { s3.bay with plans := s3.bay.plans.filter (fun x => x.handle != h) } }
    let named := fun (w : WeightHealth) => s4.bay.plans.any (fun x => x.weights.any (fun o => o.addr == w.addr))
    reevalPieces (dropScratchSet { s4 with tier := { s4.tier with weights := s4.tier.weights.filter named } } b)

/-- Plans of a context. -/
def plansOf (s : State) (ctx : Nat) : List Plan := s.bay.plans.filter (fun p => p.ctx == ctx)

/-- A context ceases: pegs it holds break, its pegs are freed, its plans unloaded, its regions released (R254, R305, R310). -/
def endContext (s : State) (ctx : Nat) : State :=
  let s1 := freePegsOf (breakHeld s ctx) ctx
  let s2 := (plansOf s1 ctx).foldl (fun st p => releasePlan st p.handle) s1
  let s3 := (s2.bay.regions.filter (fun r => r.ctx == some ctx)).foldl giveBack s2
  let b := bayOfCtx s3 ctx
  let s4 := updBay s3 b (fun v => { v with
    slice := v.slice.filter (fun e => e.1 != ctx), promoted := v.promoted.filter (fun e => e.1 != ctx) })
  { s4 with bay := { s4.bay with
      contexts := s4.bay.contexts.filter (fun c => c.num != ctx),
      threadResults := s4.bay.threadResults.filter (fun r => r.1 != ctx) } }

/-- Regions of copies that no version of an index uses any more are given back (R61, R63). -/
def trimParts (s : State) (index : Nat) : State :=
  match indexAt s index with
  | none => s
  | some x =>
    let idle := idleParts x
    updIndex (idle.foldl (fun st r => dropRegionAt st r.base) s) index (fun y => { y with parts := y.parts.filter (fun r => !idle.contains r) })

/-- A FIRN_MERGE is over: its command completes with a status, where one is written, and its context ends if it waited for
that (R63, R254). -/
def endMerge (s : State) (index : Nat) (status : Option Nat) : State :=
  match indexAt s index with
  | none => s
  | some x =>
    match x.merge with
    | none => s
    | some m =>
      let s1 := trimParts (updIndex s index (fun y => { y with merge := none })) index
      let s2 := match status with
        | some st => postCompletion s1 adminQ m.cid st (m.raised % 2 ^ 32 + x.version % 2 ^ 32 * 2 ^ 32)
        | none => s1
      match ctxAt s2 m.ctx with
      | some c => if c.ending then endContext s2 m.ctx else s2
      | none => s2

/-- Merges that a condition names are cut off: the running round is discarded (R63). -/
def cutMerges (s : State) (p : MergeState → Bool) (status : Option Nat) : State :=
  (s.indexes.filter (fun x => match x.merge with
    | some m => p m
    | none => false)).foldl (fun st x => endMerge st x.num status) s

/-- An INSERT or DELETE that has begun to journal (R284, R305). -/
def startedUpdate (c : Cmd) : Bool :=
  c.phase == .running && (sqeOpcode c.sqe == 0x05 || sqeOpcode c.sqe == 0x06)

/-- Pending peg waits of a context's own commands dropped, since those commands complete otherwise. -/
def dropWaits (s : State) (ctx : Nat) : State :=
  { s with bay := { s.bay with waits := s.bay.waits.filter (fun w => w.ctx != ctx) } }

/-- Consumed commands of a context's pairs complete with ST_CONTEXT_ENDED, started INSERT and DELETE excepted; a COPY
reports the bytes it copied (R284, R301, R305). -/
def abandonCmds (s : State) (ctx : Nat) : State :=
  let pairs := s.queues.pairs.filter (fun p => p.ctx == ctx)
  pairs.foldl (fun st p =>
    (p.q.cmds.filter (fun c => !startedUpdate c)).foldl (fun st2 c => abandonCmd st2 p.id c c.result) st) (dropWaits s ctx)

/-- The pairs of a context stopped (R259). -/
def stopPairs (s : State) (ctx : Nat) : State :=
  { s with queues := { s.queues with
      pairs := s.queues.pairs.map (fun p => if p.ctx == ctx then { p with stopped := true } else p) } }

/-- Teardown of a context by a fault or at grace expiry (R301, R305): pairs stopped, rime requests aborted, merges cut off,
commands completed, context ended. -/
def tearDown (s : State) (ctx : Nat) : State :=
  let s1 := abortRimeOf (stopPairs s ctx) ctx
  let s2 := cutMerges s1 (fun m => m.ctx == ctx) (some stContextEnded)
  endContext (abandonCmds s2 ctx) ctx

/-- Cause of an ended context that a reset of its function ended as a fault does; the first codes are those of the list of R304 (log entry
98). -/
def faultReset : Nat := 5

/-- A context ended by a reset as a fault ends it: nothing of its pairs is completed, which no longer exist, an INSERT or DELETE that has
begun runs to its end, a firn merge that names it completes with the status given, where one is written, and an entry is logged (R63, R243,
R253, R305). -/
def resetContext (status : Option Nat) (s : State) (ctx : Nat) : State :=
  let s1 := abortRimeOf s ctx
  let s2 := cutMerges s1 (fun m => m.ctx == ctx) status
  let s3 := dropWaits s2 ctx
  let s4 := { s3 with
    adm := { s3.adm with queries := s3.adm.queries.filter (fun x => x.ctx != ctx) },
    queues := { s3.queues with pairs := s3.queues.pairs.filter (fun p => p.ctx != ctx) } }
  logError (endContext s4 ctx) errContextFault 0 faultReset (some (bayOfCtx s ctx, ctx))

/-- A context still has an accepted LC query. -/
def hasLcQuery (s : State) (ctx : Nat) : Bool := s.adm.queries.any (fun x => x.ctx == ctx && x.lc && x.stage != .done)

/-- A context marked at grace expiry ends once its last LC query has completed (R301). -/
def endReclaimed (s : State) (ctx : Nat) : State :=
  match ctxAt s ctx with
  | some c => if c.reclaimed && !hasLcQuery s ctx then tearDown s ctx else s
  | none => s

/-- A reset of one function: every context of its bay ends, and its queue pairs with them (R243). -/
def resetFunction (status : Option Nat) (s : State) (fn : Nat) : State :=
  let s1 := (s.bay.contexts.filter (fun c => c.bay == fn)).foldl (fun st c => resetContext status st c.num) s
  dropDeferred { s1 with
    queues := { s1.queues with
      pairs := s1.queues.pairs.filter (fun p => p.bay != fn),
      msixTable := s1.queues.msixTable.filter (fun e => e.1.1 != fn), msixPending := s1.queues.msixPending.filter (fun e => e.1 != fn) } }

/-- Context that ends after a normal deletion of its last pair, unless a merge names it (R254). -/
def endIfLast (s : State) (ctx : Nat) : State :=
  if s.queues.pairs.any (fun p => p.ctx == ctx) then s
  else if s.indexes.any (fun x => match x.merge with
      | some m => m.ctx == ctx
      | none => false) then updCtx s ctx (fun c => { c with ending := true })
  else endContext s ctx

/-- A queue pair without consumed commands whose QP_DELETE was accepted is gone; the command reports the commands completed
after its acceptance (R271, R273). -/
def finishDelete (s : State) (qp : Nat) : State :=
  match pairOf s qp with
  | none => s
  | some p =>
    if p.q.cmds != [] || s.queues.deferred.any (fun d => d.q == qp) then s
    else
      match p.deleting with
      | some cid =>
        let s1 := { s with queues := { s.queues with pairs := s.queues.pairs.filter (fun x => x.id != qp) } }
        endIfLast (postCompletion s1 adminQ cid stOk p.afterDelete) p.ctx
      | none =>
        if p.reclaimed then { s with queues := { s.queues with pairs := s.queues.pairs.filter (fun x => x.id != qp) } } else s

/-- A command completes once every domain that it woke is on and no channel listed runs a long piece (R120, R341). -/
def completeAfter (s : State) (q cid status result : Nat) (channels : List Nat) : State :=
  let ds := cappedDomains s
  let s1 := wakeCapped s
  if ds == [] && channels == [] then postCompletion s1 q cid status result
  else updCmd s1 q cid (fun c => { c with status := status, result := result, waits := ds, pieces := channels })

/-- A command completes once every domain that it woke is on (R341). -/
def completeAfterWake (s : State) (q cid status result : Nat) : State := completeAfter s q cid status result []

/-- An admin command is held: it waits for a domain or for the end of a piece. -/
def cmdHeld (c : Cmd) : Bool := c.waits != [] || c.pieces != []

/-- What admin commands wait for becomes less: those that wait for nothing any more complete (R120, R341). -/
def releaseHeld (s : State) (f : Cmd → Cmd) : State :=
  let ready := s.queues.admin.cmds.filter (fun c => cmdHeld c && !cmdHeld (f c))
  let s1 := updQueue s adminQ (fun u => { u with cmds := u.cmds.map f })
  ready.foldl (fun st c => postCompletion st adminQ c.cid c.status c.result) s1

/-- A binding waits for a domain less; with none left it is complete, once it awaits no resource (R290). -/
def bindWaits (pending : Bool) (n : Nat) (v : Bay) : Bay :=
  if pending then v else { v with binding := (v.binding.map (fun ds => ds.filter (fun d => d != n))).filter (fun ds => ds != []) }

/-- A domain is on: commands that waited for it alone complete (R290, R341). -/
def releaseWakeWaits (s : State) (n : Nat) : State :=
  let s1 := { s with bay := { s.bay with bays := s.bay.bays.map (fun e =>
    (e.1, bindWaits (s.bay.pendingBinds.any (fun p => p.bay == e.1 && !p.extend)) n e.2)) } }
  releaseHeld s1 (fun c => { c with waits := c.waits.filter (fun d => d != n) })

/-- A piece has ended: loads that waited for the end of long pieces alone complete (R120). -/
def releasePieceWaits (s : State) : State := releaseHeld s (fun c => { c with pieces := c.pieces.filter (longPiece s) })

end Sys2Proof.Machine
end

