-- ==== Sys2Proof/Machine/Commands.lean ====
section
/-! DEFINITION. How a row of the command set finds its consumed command and which refusals come first (R9, R23, R272, R279,
R282, R379), the commands that a refit holds (R333), and the link counters (R281). -/

namespace Sys2Proof.Machine

open Sys2Proof

/-- The fatal sequence has begun (R377). -/
def isFatal (s : State) : Bool := s.health.fatal != .none

/-- An admin command served during the dump service: LOG_GET of pages 0x01 to 0x03 and DICT_READ (R379). -/
def dumpServes (c : Cmd) : Bool :=
  sqeOpcode c.sqe == 0x8C || (sqeOpcode c.sqe == 0x8B && 1 ≤ field c.sqe 64 8 && field c.sqe 64 8 ≤ 3)

/-- The admin queue serves a command now (R279, R379). -/
def adminServes (s : State) (c : Cmd) : Bool := mgmtServes s && (!isFatal s || dumpServes c)

/-- An admin row: its consumed command is found; MGMT's state and the Rsvd bits are checked first (R9, R279, R379). MGMT asleep is
woken by the request (R343). -/
def withAdmin (s : State) (cid opcode : Nat) (k : State → Cmd → State) : State :=
  match takeCmd s adminQ cid opcode with
  | none => s
  | some c =>
    let s1 := rouseMgmt s 0x09
    if !adminServes s c then endCmd s1 adminQ c stBusyOtherMaster 0
    else if !sqeValid c.sqe then endCmd s1 adminQ c stInvalidField 0
    else k s1 c

/-- An I/O row: its consumed command is found and the Rsvd bits are checked first (R9, R272). -/
def withIo (s : State) (q cid opcode : Nat) (k : State → Cmd → State) : State :=
  match takeCmd s q cid opcode with
  | none => s
  | some c => if !sqeValid c.sqe then endCmd s q c stInvalidField 0 else k s c

/-- An object of the staging frame. -/
def frameHas (s : State) (i j : Nat) : Bool := s.dict.stage.frame.any (fun e => e.1 == i && e.2.1 == j)

/-- A refit runs whose frame holds an object: the commands its rules read are held (R332, R333). -/
def refitHolds (s : State) (i j : Nat) : Bool := s.dict.stage.raise == .refit && frameHas s i j

/-- POWER_FLOOR_LC of a state (R328, R332; log entry 26). -/
def powerFloorLc (s : State) : Nat :=
  Config.powerFloorLc (((s.bay.bays.filter (fun e => e.2.mode != .unbound &&
      (s.queues.pairs.any (fun p => p.bay == e.1 && p.lc) || s.bay.plans.any (fun p => p.lcOk && bayOfCtx s p.ctx == e.1))))).map
    (fun e => (e.2.arrays.length, e.2.flash.length, e.2.dramShare, e.2.rimeShare)))

/-- A change would lift POWER_FLOOR_LC above POWER_CAP (R332). -/
def liftsFloor (s t : State) : Bool := powerFloorLc s < powerFloorLc t && powerCap s < powerFloorLc t

/-- The bay's function is enabled (R242). -/
def fnEnabled (s : State) (b : Nat) : Bool := b == 0 || s.link.vfEnable

/-! The admin queue disabled or reset (R243, R257). -/

/-- A CID that no command carries: admin commands in course are not completed any more. -/
def noCid : Nat := 65536

/-- Admin commands already started run on without their completion: what is in course forgets their CIDs, which commands of the queue enabled
again may carry (R257). -/
def dropAdminCids (s : State) : State :=
  let off := fun (o : Option Nat) => o.map (fun _ => noCid)
  { s with
    queues := { s.queues with
      deferred := s.queues.deferred.filter (fun d => d.q != adminQ), pairs := s.queues.pairs.map (fun p => { p with deleting := off p.deleting }) },
    indexes := s.indexes.map (fun (x : Index) => { x with
      deleting := off x.deleting, merge := x.merge.map (fun m => { m with cid := noCid }) }),
    bay := { s.bay with
      plans := s.bay.plans.map (fun (p : Plan) => { p with unloading := off p.unloading }),
      pendingBinds := s.bay.pendingBinds.map (fun p => { p with cid := noCid }),
      bays := s.bay.bays.map (fun (e : Nat × Bay) => (e.1, { e.2 with expiry := e.2.expiry.map (fun x => (x.1, noCid)) })) },
    health := { s.health with selfTest := s.health.selfTest.map (fun t => { t with cid := noCid, stopCid := off t.stopCid }) },
    sec := { s.sec with staging := match s.sec.staging with
      | .verifying _ bs => .verifying noCid bs
      | g => g } }

/-! Host reads through CXL.cache (R245). -/

/-- A line read through CXL.cache: most recently used, and the least recently used line of a full set of 16 is replaced. Set = line
number modulo 1,024 (R239, R245; log entry 42). -/
def cacheTouch (l : List Nat) (line : Nat) : List Nat :=
  let rest := l.filter (fun x => x != line)
  let mine := rest.filter (fun x => x / 64 % 1024 == line / 64 % 1024)
  let kept := if mine.length < 16 then rest else
    (match mine with
     | v :: _ => rest.filter (fun x => x != v)
     | [] => rest)
  kept ++ [line]

/-- Lines of a host range read, through CXL.cache while it is enabled (R245). -/
def hostRead (s : State) (addr n : Nat) : State :=
  if !s.link.cacheOn || n == 0 then s
  else
    let lines := (List.range ((addr + n - 1) / 64 - addr / 64 + 1)).map (fun i => 64 * (addr / 64 + i))
    { s with link := { s.link with cache := lines.foldl cacheTouch s.link.cache } }

end Sys2Proof.Machine
end

