-- ==== Sys2Proof/Machine/Selection.lean ====
section
/-! DEFINITION. Sort words and selection: order, cuts with EQ_DROPPED, merges, the operation word and the keys of its scores (R87 to R103,
R173). -/

namespace Sys2Proof.Machine

open Sys2Proof

/-! Sort words (R87 to R92). -/

/-- The 80-bit value of a sort word. -/
def SortWord.num (w : SortWord) : Nat := w.key.toNat * 2 ^ 48 + w.id.toNat

/-- Order of the whole 80-bit value (R92). -/
def wordBefore (a b : SortWord) : Bool := decide (a.num < b.num)

/-- A search-path word (R88): source 0 graph, 1 drift, 2 DRAM tier. -/
def searchWord (key : Word32) (localId source : Nat) : SortWord :=
  { key := key, id := BitVec.ofNat 48 (localId % 2 ^ 40 * 256 + source % 4 * 64) }

/-- LOCAL_ID and SOURCE of a search-path word. -/
def SortWord.localId (w : SortWord) : Nat := w.id.toNat / 256
def SortWord.source (w : SortWord) : Nat := w.id.toNat / 64 % 4

/-- The pad word (R89). -/
def padWord : SortWord := { key := BitVec.allOnes 32, id := BitVec.allOnes 48 }

/-- Words in order (R92). -/
def sortWords (ws : List SortWord) : List SortWord := sortBy wordBefore ws

/-- Words of an ordered list without those whose key k equals that of an earlier one: the first of duplicates stays (R100). -/
def dedupBy (k : SortWord → Nat) : List Nat → List SortWord → List SortWord
  | _, [] => []
  | seen, w :: r => if seen.contains (k w) then dedupBy k seen r else w :: dedupBy k (k w :: seen) r

/-- A partial list cut to its first p words, with EQ_DROPPED (R99). -/
def cutList (ws : List SortWord) (p : Nat) : List SortWord × Nat :=
  let o := sortWords ws
  let kept := o.take p
  match kept.getLast? with
  | some l => (kept, ((o.drop p).filter (fun w => w.key == l.key)).length)
  | none => (kept, 0)

/-- Words offered to a partial list that is already cut (R96, R99): an earlier EQ_DROPPED counts while the last kept key
stays. -/
def offerWords (old : List SortWord) (eq : Nat) (new : List SortWord) (p : Nat) : List SortWord × Nat :=
  let c := cutList (old ++ new) p
  let same := match old.getLast?, c.1.getLast? with
    | some a, some b => a.key == b.key
    | _, _ => false
  (c.1, c.2 + (if same then eq else 0))

/-- The union of partial lists without duplicates of a local ID (R100). -/
def unionSearch (lists : List (List SortWord)) : List SortWord :=
  dedupBy (fun w => w.localId) [] (sortWords lists.flatten)

/-- TIE_COUNT of a result: entries of the pool with the key of the last returned one, and EQ_DROPPED of that key (R102). -/
def tieCount (pool returned : List SortWord) (eqs : List (Word32 × Nat)) : Nat :=
  match returned.getLast? with
  | some l => (pool.filter (fun w => w.key == l.key)).length + sumOf ((eqs.filter (fun e => e.1 == l.key)).map (fun e => e.2))
  | none => 0

/-- A sort word of 10 bytes (R87). -/
def wordOfBytes (bs : Bytes) : SortWord :=
  { key := BitVec.ofNat 32 (leAt bs 6 4), id := BitVec.ofNat 48 (leAt bs 0 6) }

/-- The bytes of a sort word. -/
def bytesOfWord (w : SortWord) : Bytes := natLe 10 w.num

/-! The operation word (R173). -/

def selOp (w : Word64) : Nat := field w 56 8
def selDedup (w : Word64) : Bool := flag w 55
def selDown (w : Word64) : Bool := flag w 54
def selType (w : Word64) : Nat := field w 50 4
def selLists (w : Word64) : Nat := field w 44 6 + 1
def selCount (w : Word64) : Nat := field w 0 32

/-- The row's operation is the word's, its Rsvd bits are 0, and its type and direction are ones of R90 (R173). -/
def selOk (w : Word64) (op : Nat) : Bool :=
  selOp w == op && field w 32 12 == 0 && selType w < 6 && !(selType w == 0 && selDown w)

/-- A score of a floating-point type is NaN (R91). -/
def scoreNan (stype : Nat) (v : Word32) : Bool :=
  match stype with
  | 3 => floatValue shapeFp32 v.toNat == .nan
  | 4 => floatValue shapeBf16 (v.toNat % 65536) == .nan
  | 5 => floatValue shapeFp16 (v.toNat % 65536) == .nan
  | _ => false

/-- Words whose KEY field holds a score of the operation's type, with the key of R90 in its place; a NaN score gets no key and its word is
dropped. For type Hamming or UINT32, ascending, a key stands as it is (R90, R91, R173; log entry 102). -/
def keyWords (w : Word64) (ws : List SortWord) : List SortWord :=
  (ws.filter (fun x => !scoreNan (selType w) x.key)).map (fun x => { x with key := keyOf (selType w) (selDown w) x.key })

/-- Value of a score of a type (R95). -/
def scoreNum (stype : Nat) (v : Nat) : Num :=
  match stype with
  | 1 => numOfInt (v : Nat)
  | 2 => numOfInt (signedOf 32 v)
  | 3 => floatValue shapeFp32 v
  | 4 => floatValue shapeBf16 v
  | _ => floatValue shapeFp16 v

/-- Bytes of a score of a type. -/
def scoreBytes (stype : Nat) : Nat := if stype == 4 || stype == 5 then 2 else 4

/-- The largest score so far, with its position; NaN is skipped, and an equal score keeps the lower position (R95). -/
def argmaxOf (stype : Nat) : List (Nat × Nat) → Option (Nat × Nat) → Option (Nat × Nat)
  | [], best => best
  | (p, v) :: r, best =>
    if scoreNum stype v == .nan then argmaxOf stype r best
    else
      match best with
      | none => argmaxOf stype r (some (p, v))
      | some b => argmaxOf stype r (if numLt (scoreNum stype b.2) (scoreNum stype v) then some (p, v) else some b)

end Sys2Proof.Machine
end

