-- ==== Sys2Proof/Machine/Filters.lean ====
section
/-! DEFINITION. Filter blocks and the check of a query entry (R48, R77 to R79, R151, R268, R269). -/

namespace Sys2Proof.Machine

open Sys2Proof

/-! The filter block (R77). -/

def fbMask (f : BitVec 512) : Nat := field f 0 128
def fbMatch (f : BitVec 512) : Nat := field f 128 128
def fbLo (f : BitVec 512) : Nat := field f 256 32
def fbHi (f : BitVec 512) : Nat := field f 288 32
def fbSetAddr (f : BitVec 512) : Nat := field f 320 47
def fbSetLen (f : BitVec 512) : Nat := field f 384 41
def fbTagOp (f : BitVec 512) : Nat := field f 448 2
def fbRangeOp (f : BitVec 512) : Nat := field f 450 2
def fbSetOp (f : BitVec 512) : Nat := field f 452 2

/-- a ≤ b in an attribute type: 0 UINT32, 1 INT32, 2 FP32 (R78). -/
def attrLe (atype a b : Nat) : Bool :=
  match atype with
  | 0 => decide (a ≤ b)
  | 1 => decide (signedOf 32 a ≤ signedOf 32 b)
  | _ => let x := floatValue shapeFp32 a
         let y := floatValue shapeFp32 b
         numLt x y || numEq x y

/-- Bytes of a set bitmap; a bitmap of no local ID still names its first byte. -/
def setBytes (f : BitVec 512) : Nat := max 1 (ceilDiv (fbSetLen f) 8)

/-- A filter block is not refused; R78 asks of a set bitmap that its first byte lie in the address space, and the model that every byte up to
SET_LEN does, and that SET_LEN be at most 2^40 (R78; DESIGN CHOICE, log entry 129). -/
def filterOk (s : State) (ctx atype : Nat) (f : BitVec 512) : Bool :=
  field f 367 17 == 0 && field f 425 23 == 0 && field f 454 58 == 0 &&
  fbSetOp f != 3 && fbRangeOp f != 3 &&
  (fbRangeOp f == 0 ||
    (attrLe atype (fbLo f) (fbHi f) &&
     !(atype == 2 && (isNan32 (BitVec.ofNat 32 (fbLo f)) || isNan32 (BitVec.ofNat 32 (fbHi f)))))) &&
  (fbSetOp f == 0 ||
    (fbSetLen f ≤ 2 ^ 40 && fbSetAddr f % 64 == 0 && inSpace s ctx (fbSetAddr f) (setBytes f)))

/-- The block of a filtered query; none when no predicate is enabled (R77). -/
def filterOf (h f : BitVec 512) : Option (BitVec 512) :=
  if headFilt h && (fbTagOp f != 0 || fbRangeOp f != 0 || fbSetOp f != 0) then some f else none

/-- Tag and range predicates of a filter on a vector's attributes (R77, R78). -/
def passTagRange (flt : Option (BitVec 512)) (atype : Nat) (tag : BitVec 128) (numeric : Word32) : Bool :=
  match flt with
  | none => true
  | some f =>
    let t := Nat.land tag.toNat (fbMask f)
    (match fbTagOp f with
     | 1 => t == Nat.land (fbMatch f) (fbMask f)
     | 2 => t != 0
     | 3 => t == 0
     | _ => true) &&
    (match fbRangeOp f with
     | 1 => attrLe atype (fbLo f) numeric.toNat && attrLe atype numeric.toNat (fbHi f)
     | 2 => !(attrLe atype (fbLo f) numeric.toNat && attrLe atype numeric.toNat (fbHi f))
     | _ => true)

/-- Set-membership predicate, read live; a bitmap changed while the query runs gives a free result (R6, R78; log entry 5). -/
def passSet (s : State) (x : Query) (localId : Nat) : Bool :=
  match x.filter with
  | none => true
  | some f =>
    if fbSetOp f == 0 then true
    else if x.bitmapChanged then flag (Config.freeValue (s.free + localId)) 0
    else
      let bit := decide (localId < fbSetLen f) && flag (devByte s (fbSetAddr f + localId / 8)) (localId % 8)
      if fbSetOp f == 1 then bit else !bit

/-- Queries whose set bitmap overlaps written bytes have seen it change (R78). -/
def touchBitmaps (s : State) (a n : Nat) : State :=
  if n == 0 then s
  else
    { s with adm := { s.adm with queries := s.adm.queries.map (fun (x : Query) =>
        match x.filter with
        | some f =>
          if fbSetOp f != 0 && a < fbSetAddr f + setBytes f && fbSetAddr f < a + n && x.stage != .done then
            { x with bitmapChanged := true } else x
        | none => x) } }

/-! Rerank vectors and slots (R49, R268). -/

/-- Scale word j of a vector in slot layout. -/
def vectorScale (p : IndexParams) (v : Bytes) (j : Nat) : Nat :=
  leAt v ((if p.rfmt == 1 then p.rdim / 2 else p.rdim) + 2 * j) 2

/-- Every scale word of a vector is valid (R151). -/
def vectorOk (p : IndexParams) (v : Bytes) : Bool :=
  (List.range (p.rdim / groupSize p.rgs)).all (fun j => scaleWordOk p.rsck (vectorScale p v j))

/-! The entry of a position (R268, R269). -/

/-- Next multiple of 64. -/
def up64 (n : Nat) : Nat := ceilDiv n 64 * 64

/-- A query entry cut into its parts: head, filter block, and what its opcode's payload holds (R268). -/
structure QueryEntry where
  head : BitVec 512
  filt : BitVec 512
  /-- SEARCH: the code, W bits, bit j = code bit j (R40) -/
  code : Nat := 0
  /-- SEARCH and RERANK: the rerank vector, element codes then scale words (R268, R49) -/
  rerank : Bytes := []
  /-- ENCODE_SEARCH and ENCODE: token IDs -/
  tokens : List Nat := []
  /-- RERANK: candidate vector IDs -/
  cands : List Word64 := []
  deriving DecidableEq, Repr

/-- The parts of an entry of 64 × QSTRIDE bytes: NTOK tokens, or the vector and NCAND candidates, each item from a 64-byte boundary (R268). -/
def cutEntry (opcode : Nat) (p : Plan) (x : IndexParams) (bs : Bytes) : QueryEntry :=
  let h := BitVec.ofNat 512 (leAt bs 0 64)
  let e : QueryEntry := { head := h, filt := BitVec.ofNat 512 (leAt bs 64 64) }
  match opcode with
  | 0x01 =>
    { e with
      code := leAt bs 128 (x.w / 8),
      rerank := if p.params.rerankDepth == 0 then [] else sliceOf bs (up64 (128 + x.w / 8)) (vectorBytes x) }
  | 0x02 | 0x03 => { e with tokens := (List.range (headTokens h)).map (fun k => leAt bs (128 + 4 * k) 4) }
  | _ =>
    { e with
      rerank := sliceOf bs 128 (vectorBytes x),
      cands := (List.range (headCands h)).map (fun k => BitVec.ofNat 64 (leAt bs (up64 (128 + vectorBytes x) + 8 * k) 8)) }

/-- Payload end of an entry from its start (table Query payload). -/
def payloadEnd (opcode : Nat) (p : Plan) (x : IndexParams) (h : BitVec 512) : Nat :=
  match opcode with
  | 0x01 => if p.params.rerankDepth == 0 then 128 + x.w / 8 else up64 (128 + x.w / 8) + vectorBytes x
  | 0x02 | 0x03 => 128 + 4 * headTokens h
  | _ => up64 (128 + vectorBytes x) + 8 * headCands h

/-- The position's check (R269). -/
def entryOk (s : State) (opcode stride : Nat) (p : Plan) (x : Index) (e : QueryEntry) : Bool :=
  headOk e.head opcode && payloadEnd opcode p x.params e.head ≤ 64 * stride &&
  (!headFilt e.head || filterOk s p.ctx x.params.atype e.filt) &&
  (match opcode with
   | 0x01 => p.params.rerankDepth == 0 || vectorOk x.params e.rerank
   | 0x04 => vectorOk x.params e.rerank &&
             e.cands.all (fun v => vidIndex v == x.num && vidRsvd v == 0 && vidLocal v < x.params.nCap)
   | _ => headTokens e.head ≤ p.tokenLimit && e.tokens.all (fun t => t < p.vocabulary))

end Sys2Proof.Machine
end

