-- ==== Sys2Proof/Machine/Admission.lean ====
section
/-! DEFINITION. Admission: token pools and windows, the decision, query slots, and the rows SEARCH, ENCODE_SEARCH, ENCODE,
RERANK and PLAN_RUN (R58, R107 to R128, R134, R137, R266 to R269, R278). -/

namespace Sys2Proof.Machine

open Sys2Proof

/-! What is held, and the fit (R121, R123). -/

/-- Amounts of a kind held by the bay in a window (R123, R128). -/
def heldIn (s : State) (b kind w : Nat) : Nat :=
  sumOf (s.adm.queries.map (fun x => if x.bay == b then
    sumOf ((x.holds.filter (fun h => h.1 == kind && h.2.1 == w)).map (fun h => h.2.2)) else 0)) +
  sumOf ((s.adm.kept.filter (fun e => e.1 == b && e.2.1 == kind && e.2.2.1 == w)).map (fun e => e.2.2.2))

/-- What a query with drift scan length n charges of a kind at an offset; with stream, the per-batch drift stream too
(R117, R119, R170). -/
def chargeAt (f : Profile) (n : Nat) (stream : Bool) (kind j : Nat) : Nat :=
  let e := f.entries.getD j ⟨0, 0, 0, 0⟩
  let span := f.driftLast - f.driftFirst + 1
  let drift := f.driftFirst ≤ j && j ≤ f.driftLast
  match kind with
  | 0 => e.flash
  | 1 => e.cellUs + (if drift then ceilDiv (n * f.driftCu) (2 ^ 20 * span) else 0)
  | 2 => e.dram + (if drift then ceilDiv (n * f.driftB) span + (if stream then ceilDiv (n * f.streamB) span else 0) else 0)
  | _ => e.rime

/-- Every kind fits at every offset from a start window (R121). -/
def fitsAt (s : State) (b : Nat) (f : Profile) (n : Nat) (stream : Bool) (ws : Nat) : Bool :=
  (List.range f.span).all (fun j => (List.range 4).all (fun k =>
    decide (heldIn s b k (ws + 100000 * j) + chargeAt f n stream k j ≤ admissible s b k (ws + 100000 * j))))

/-- What an accepted query holds. -/
def holdsOf (f : Profile) (n : Nat) (stream : Bool) (ws : Nat) : List (Nat × Nat × Nat) :=
  (List.range f.span).flatMap (fun j => (List.range 4).filterMap (fun k =>
    if chargeAt f n stream k j == 0 then none else some (k, ws + 100000 * j, chargeAt f n stream k j)))

/-- The first start offset from k on, of at most n more, that ends by the guard and fits (R121, R122). -/
def tryOffsets (s : State) (b : Nat) (f : Profile) (n : Nat) (stream : Bool) (guard wmin : Nat) : Nat → Nat → Option Nat
  | 0, _ => none
  | fuel + 1, k =>
    let ws := wmin + 100000 * k
    if guard < ws + 100000 * f.span then none
    else if fitsAt s b f n stream ws then some k
    else tryOffsets s b f n stream guard wmin fuel (k + 1)

/-! Query slots (R29, R125, R134). -/

/-- Slots of a bay outside its LC reserve, and the reserve: the highest blocks, 1/8 of the slots down to whole blocks, while the
bay has an LC pair (which slots form it is open; log entry 31). -/
def openBlocks (s : State) (b : Nat) : List Nat :=
  let bs := (bayAt s b).slotBlocks
  bs.take (bs.length - (if hasLcPair s b then bs.length / 8 else 0))
def reserveBlocks (s : State) (b : Nat) : List Nat := (bayAt s b).slotBlocks.drop (openBlocks s b).length

/-- The lowest free slot of some blocks. -/
def freeSlotIn (s : State) (blocks : List Nat) : Option Nat :=
  (blocks.findSome? (fun k => firstFrom (fun x => !s.adm.queries.any (fun y => y.slot == x)) 256 (256 * k)))

/-- The slot that a query takes: BE only outside the reserve (R125, R134). An LC query takes the lowest free slot of the reserve before
any other, which the manual leaves open (DESIGN CHOICE, log entry 107). -/
def slotFor (s : State) (b : Nat) (lc : Bool) : Option Nat :=
  if lc then freeSlotIn s (reserveBlocks s b ++ openBlocks s b) else freeSlotIn s (openBlocks s b)

/-! The decision (R121). -/

/-- Power domains that a plan needs: its arrays, the DRAM controllers, and the flash groups of its index (R126). -/
def planDomains (s : State) (p : Plan) : List Nat :=
  p.arrays.map arrayDomain ++ (List.range 16).map lpcDomain ++
  (if p.flashClass then (match p.index.bind (indexAt s) with
    | some x => (setBits x.params.groups).map flgDomain
    | none => []) else [])

/-- z of R126: the deepest wake among the plan's domains, with its chain (R348). -/
def planWake (s : State) (p : Plan) : Nat := maxOf ((planDomains s p).map (chainWake s))

/-- A plan is suspended: a weight object it names is lost (R237). -/
def planSuspended (s : State) (p : Plan) : Bool :=
  s.tier.weights.any (fun w => w.lost && p.weights.any (fun o => o.addr == w.addr))

/-- Every weight object is wholly pinned in DRAM and none is poisoned (R184, R237). -/
def weightsPinned (s : State) (p : Plan) : Bool :=
  p.weights.all (fun o => (objectPages o).all (pagePinned s)) &&
  !s.tier.weights.any (fun w => w.sectors != [] && p.weights.any (fun o => o.addr == w.addr))

/-- Minimum D_qp of a plan's class (R108). -/
def classMin (p : Plan) : Nat := if p.flashClass then 1000000 else 300000

/-- The drift range of a query decided now (R52). -/
def driftRange (x : Index) : Nat × Nat :=
  match versionAt x x.version with
  | some v => (v.driftBase / 4096 * 4096, x.tail)
  | none => (x.tail, x.tail)

/-- Drift entries whose INSERT has not completed: a query decided now does not see them (R28, R285). -/
def unseenEntries (x : Index) : List Nat := (x.journal.filter (fun r => !r.durable)).flatMap (fun r => r.entries.map (fun e => e.seq))

/-- A plan whose queries scan the drift list. -/
def scansDrift (p : Plan) : Bool := p.kind == .search || p.kind == .encodeSearch

/-- Outcome of a decision. -/
inductive Decision where
  | refused (status : Nat)
  | accepted (slot startAt offset : Nat) (holds : List (Nat × Nat × Nat))
  deriving DecidableEq, Repr

/-- One query of a plan decided now on a pair; stream: no earlier query of its batch was charged the drift stream (R119,
R121, R134). -/
def decideQuery (s : State) (pr : QPair) (p : Plan) (arrival : Nat) (stream : Bool) : Decision :=
  let x := p.index.bind (indexAt s)
  let busy := match x with
    | some i => i.replaying || i.deleting.isSome
    | none => p.index.isSome
  let z := planWake s p
  if busy then .refused stNsBusy
  else if planSuspended s p then .refused stWeightsLost
  else if pr.lc && !weightsPinned s p then .refused stRefusedTier
  else if !pr.lc then
    (if bayReclaiming s pr.bay || s.adm.stopped then .refused stRefusedCapacity
     else
       match slotFor s pr.bay false with
       | some k => .accepted k (now s + z) 0 []
       | none => .refused stRefusedCapacity)
  else if pr.dqp < classMin p then .refused stRefusedDeadline
  else
    match p.profile with
    | none => .refused stRefusedDeadline
    | some f =>
      let guard := arrival + pr.dqp - f.tTail - tOutOf s p pr.bsize
      let wmin := windowOf (now s + z)
      let n := match x with
        | some i => if scansDrift p then (driftRange i).2 - (driftRange i).1 else 0
        | none => 0
      if guard < wmin + 100000 * f.span then .refused stRefusedDeadline
      else
        match slotFor s pr.bay true with
        | none => .refused stRefusedCapacity
        | some k =>
          if bayReclaiming s pr.bay || s.adm.stopped then .refused stRefusedCapacity
          else
            match tryOffsets s pr.bay f n stream guard wmin 8 0 with
            | none => .refused stRefusedCapacity
            | some o =>
              let ws := wmin + 100000 * o
              .accepted k (if o == 0 then now s + z else ws) o (holdsOf f n stream ws)

/-- Refusals by status (R137). -/
def countRefusal (c : AdmCounters) (st : Nat) : AdmCounters :=
  if st == stRefusedCapacity then { c with refCapacity := wrapAdd 64 c.refCapacity 1 }
  else if st == stRefusedDeadline then { c with refDeadline := wrapAdd 64 c.refDeadline 1 }
  else if st == stRefusedTier then { c with refTier := wrapAdd 64 c.refTier 1 }
  else if st == stNsBusy then { c with refNsBusy := wrapAdd 64 c.refNsBusy 1 }
  else if st == stWeightsLost then { c with refWeightsLost := wrapAdd 64 c.refWeightsLost 1 }
  else { c with refOther := wrapAdd 64 c.refOther 1 }

/-- Acceptances by class, and deferred starts (R137). -/
def countAccept (c : AdmCounters) (lc : Bool) (offset : Nat) : AdmCounters :=
  let c1 := if lc then { c with accLc := wrapAdd 64 c.accLc 1 } else { c with accBe := wrapAdd 64 c.accBe 1 }
  if lc && offset != 0 then { c1 with deferredStart := wrapAdd 64 c1.deferredStart 1 } else c1

/-- The thread that serves a query: the lowest that serves no other in the cells of its plan's arrays, in the order of the arrays (R164;
log entry 103). -/
def queryThread (s : State) (p : Plan) : Option Nat :=
  let used := s.adm.queries.filterMap (fun x => x.thread)
  (p.arrays.findSome? (fun a => (lowestFree 16384 ((used.filter (fun t => t / 16384 == a)).map (fun t => t % 16384))).map (fun t => 16384 * a + t)))

/-- The record of an accepted query (R58, R109, R121, R122, R130). -/
def newQuery (s : State) (pr : QPair) (p : Plan) (c : Cmd) (opcode pos slot startAt : Nat) (holds : List (Nat × Nat × Nat)) :
    Query :=
  let x := p.index.bind (indexAt s)
  let r := match x with
    | some i => driftRange i
    | none => (0, 0)
  let deadline := if pr.lc then c.arrival + pr.dqp else 0
  let guard := match p.profile with
    | some f => if pr.lc then deadline - f.tTail - tOutOf s p pr.bsize else 0
    | none => 0
  { slot := slot, decided := now s, unseen := (x.map unseenEntries).getD [], thread := queryThread s p, q := pr.id, cid := c.cid, pos := pos, bay := pr.bay, ctx := pr.ctx, plan := p.handle, opcode := opcode,
    lc := pr.lc, arrival := c.arrival, deadline := deadline, guard := guard, startAt := startAt, holds := holds,
    index := p.index, version := (x.map (fun i => i.version)).getD 0, driftLo := r.1, driftHi := r.2, b := p.params.beam }

/-- An accepted query takes its slot and wakes the domains it needs (R121, R126, R343). -/
def acceptQuery (s : State) (p : Plan) (x : Query) (offset : Nat) : State :=
  let s1 := { s with adm := { s.adm with queries := s.adm.queries ++ [x] } }
  let s2 := updCounters s1 x.bay (fun k => countAccept k x.lc offset)
  let s3 := updCmd s2 x.q x.cid (fun c => { c with nacc := c.nacc + 1 })
  (planDomains s3 p).foldl (fun st n => startWake st n 0x01) s3

/-- Blocks of 4,096 entries of a drift range (R51, R72). -/
def driftBlocks (lo hi : Nat) : List Nat :=
  if hi ≤ lo then [] else (List.range ((hi - 1) / 4096 - lo / 4096 + 1)).map (fun i => lo / 4096 + i)

/-- What an accepted query takes from its entry (R72, R77, R268). -/
def loadEntry (x : Query) (p : Plan) (w : Nat) (e : QueryEntry) : Query :=
  { x with
    code := e.code % 2 ^ w, filter := filterOf e.head e.filt, vec := e.rerank, tokens := e.tokens,
    cands := (e.cands.map vidLocal).eraseDups,
    blocks := if scansDrift p then driftBlocks x.driftLo x.driftHi else [] }

/-- Entry i of a query block lies at PTR1 + 64 × QSTRIDE × i; its head, the filter block under FILT and the payload that its stride holds are
read, through CXL.cache while that is enabled (R245, R268). -/
def readEntry (s : State) (c : Cmd) (opcode stride : Nat) (p : Plan) (x : IndexParams) (i : Nat) (h : BitVec 512) : State :=
  let a := sqePtr1 c.sqe + 64 * stride * i
  let n := payloadEnd opcode p x h
  let s1 := hostRead s a (if headFilt h then 128 else 64)
  if n ≤ 64 * stride then hostRead s1 (a + 128) (n - 128) else s1

/-- A position of a batch decided, and its entry checked after an acceptance; an entry of fewer bytes than its stride was not read (R119,
R121, R124, R265, R269). -/
def decidePosition (pr : QPair) (p : Plan) (c : Cmd) (opcode stride : Nat) (s : State) (pos : Nat) (e : Option Bytes) : State :=
  let streamed := match runningCmd s pr.id c.cid with
    | some d => d.streamed
    | none => true
  match decideQuery s pr p c.arrival (!streamed) with
  | .refused st =>
    writeHeader (updCounters s pr.bay (fun k => countRefusal k st)) pr.id c.cid pos { status := st }
  | .accepted slot start offset holds =>
    let x := newQuery s pr p c opcode pos slot start holds
    let s1 := acceptQuery s p x offset
    let s2 := if scansDrift p && x.driftLo < x.driftHi then updCmd s1 pr.id c.cid (fun d => { d with streamed := true }) else s1
    match e.filter (fun b => decide (64 * stride ≤ b.length)), p.index.bind (indexAt s2) with
    | none, _ =>
      failQuery (updLinkCounters s2 pr.bay (fun k => { k with hostFaults := wrapAdd 64 k.hostFaults 1 })) x stHostFault
    | some b, some i =>
      let e := cutEntry opcode p i.params b
      let s3 := readEntry s2 c opcode stride p i.params pos e.head
      if entryOk s3 opcode stride p i e then updQuery s3 slot (fun y => loadEntry y p i.params.w e)
      else dropQuery (failQuery s3 x stInvalidField) slot
    | some _, none => dropQuery (failQuery s2 x stInvalidField) slot

/-- A command is a batch or a run, which admission decides. -/
def admitted (c : Cmd) : Bool := [0x01, 0x02, 0x03, 0x04, 0x07].contains (sqeOpcode c.sqe)

/-- Consumed commands of a queue that wait for their decision and no completion: those before the first whose FENCE still waits (R282). -/
def undecided (u : Queue) : List Cmd :=
  (u.cmds.filter (fun c => c.phase == .consumed)).takeWhile (fun c => !(sqeFence c.sqe && u.cmds.any (fun d => d.seq < c.seq)))

/-- Of doorbells that arrived in one DTB tick, those of lower pairs are decided first: an entry of such a pair is undecided, or is still to
be consumed. What a fence or a full completion queue holds there holds no other pair (R110, R136, R263, R282). -/
def lowerPairFirst (s : State) (q : Nat) (c : Cmd) : Bool :=
  s.queues.pairs.any (fun p => p.id < q && !p.stopped &&
    ((undecided p.q).any (fun d => admitted d && d.arrival == c.arrival) ||
     (s.link.up && !s.link.degraded && p.deleting.isNone && !p.reclaimed && p.q.sqHead != p.q.sqTail && cqSlotFree p.q &&
      undecided p.q == p.q.cmds.filter (fun d => d.phase == .consumed) && p.q.marks.any (fun m => m.2 == c.arrival))))

/-- A batch command: its checks as a whole, then every valid position in ascending order (R110, R266, R267). The entries are
those of the valid positions in order; one that is missing was not read. -/
def batchRow (opcode : Nat) (kind : PlanKind) (q cid : Nat) (desc : BitVec 1024) (es : List Bytes) (s : State) : State :=
  withIo s q cid opcode (fun s c =>
    match pairOf s q with
    | none => s
    | some pr =>
      if lowerPairFirst s q c then s
      else if !descOk desc pr.bsize then endCmd s q c stInvalidField 0
      else
        match planAt s (cmdPlan c.sqe) with
        | none => endCmd s q c stNotFound 0
        | some p =>
          if p.ctx != pr.ctx || p.unloading.isSome then endCmd s q c stNotFound 0
          else if p.kind != kind || (pr.lc && !p.lcOk) then endCmd s q c stPlanMismatch 0
          else
            let ps := descPositions desc pr.bsize
            (ps.zip (List.range ps.length)).foldl (fun st e =>
              decidePosition pr p c opcode (descStride desc) st e.1 es[e.2]?) (startCmd s q c))

/-- SEARCH (R266 to R269). -/
def execSearch (q cid : Nat) (desc : BitVec 1024) (es : List Bytes) (s : State) : Host.Outcome State Fault Refusal :=
  .next (batchRow 0x01 .search q cid desc es s)
/-- ENCODE_SEARCH (R266 to R269). -/
def execEncodeSearch (q cid : Nat) (desc : BitVec 1024) (es : List Bytes) (s : State) : Host.Outcome State Fault Refusal :=
  .next (batchRow 0x02 .encodeSearch q cid desc es s)
/-- ENCODE (R266 to R270). -/
def execEncode (q cid : Nat) (desc : BitVec 1024) (es : List Bytes) (s : State) : Host.Outcome State Fault Refusal :=
  .next (batchRow 0x03 .encode q cid desc es s)
/-- RERANK (R266 to R269). -/
def execRerank (q cid : Nat) (desc : BitVec 1024) (es : List Bytes) (s : State) : Host.Outcome State Fault Refusal :=
  .next (batchRow 0x04 .rerank q cid desc es s)

/-- Argument pegs that a run's bindings need are named and may be used by the context (R278). -/
def runArgsUsable (s : State) (p : Plan) (args : List (Option Nat)) : Bool :=
  p.pegs.all (fun b => b.kind != 1 ||
    (match (args.getD b.ref none).bind (pegAt s) with
     | some g => mayUsePeg s p.ctx g
     | none => false))

/-- PLAN_RUN: decided as one query; its header lies at PTR2 (R158, R278). -/
def execPlanRun (q cid : Nat) (desc : BitVec 1024) (s : State) : Host.Outcome State Fault Refusal :=
  .next (withIo s q cid 0x07 (fun s c =>
    match pairOf s q with
    | none => s
    | some pr =>
      if lowerPairFirst s q c then s
      else if !runArgsOk desc then endCmd s q c stInvalidField 0
      else
        match planAt s (cmdPlan c.sqe) with
        | none => endCmd s q c stNotFound 0
        | some p =>
          let args := (List.range 16).map (runArg desc)
          if p.ctx != pr.ctx || p.unloading.isSome then endCmd s q c stNotFound 0
          else if (p.kind != .run && p.kind != .train) || (pr.lc && !p.lcOk) then endCmd s q c stPlanMismatch 0
          else if !runArgsUsable s p args then endCmd s q c stInvalidField 0
          else
            let s1 := startCmd s q c
            match decideQuery s1 pr p c.arrival false with
            | .refused st => writeHeader (updCounters s1 pr.bay (fun k => countRefusal k st)) q c.cid 0 { status := st }
            | .accepted slot start offset holds =>
              let x := { newQuery s1 pr p c 0x07 0 slot start holds with
                          args := args, seed := runSeed desc, params := runParams desc }
              acceptQuery s1 p x offset))

end Sys2Proof.Machine
end

