-- ==== Sys2Proof/Machine/Bays.lean ====
section
/-! DEFINITION. Bays: binding, draining, reclaim with its forced save, region custody, context faults, array slices and
promotion of best-effort contexts (R135, R286 to R305). -/

namespace Sys2Proof.Machine

open Sys2Proof

/-! Free resources (R286, R289). -/

/-- Bays that hold an array, a flash channel, an exclusive channel. -/
def arrayHolder (s : State) (a : Nat) : Option (Nat × Bay) := s.bay.bays.find? (fun e => e.2.arrays.contains a)
def flashHolder (s : State) (c : Nat) : Option (Nat × Bay) := s.bay.bays.find? (fun e => e.2.flash.contains c)
def exclHolder (s : State) (c : Nat) : Option (Nat × Bay) := s.bay.bays.find? (fun e => e.2.excl.contains c)

/-- Awaited by a pending BAY_BIND. -/
def awaitedArray (s : State) (a : Nat) : Bool := s.bay.pendingBinds.any (fun p => p.arrays.contains a)
def awaitedFlash (s : State) (c : Nat) : Bool := s.bay.pendingBinds.any (fun p => p.flash.contains c)
def awaitedExcl (s : State) (c : Nat) : Bool := s.bay.pendingBinds.any (fun p => p.excl.contains c)

/-- A single resource can be named: unbound, or held by a bay under reclaim, and awaited by nobody (R289). -/
def nameable (h : Option (Nat × Bay)) (awaited : Bool) : Bool :=
  !awaited && (match h with
    | some e => e.2.mode == .reclaiming
    | none => true)

/-- Query slot blocks and peg blocks held by no bay, ascending. -/
def freeSlotBlocks (s : State) : List Nat := (List.range 128).filter (fun k => !s.bay.bays.any (fun e => e.2.slotBlocks.contains k))
def freePegBlocks (s : State) : List Nat := (List.range 128).filter (fun k => !s.bay.bays.any (fun e => e.2.pegBlocks.contains k))

/-- A share or count summed over the bays. -/
def bayTotal (s : State) (f : Bay → Nat) : Nat := sumOf (s.bay.bays.map (fun e => f e.2))

/-! The binding descriptor (R288, R289). -/

/-- Pages of two runs overlap. -/
def overlaps (b1 n1 b2 n2 : Nat) : Bool := b1 < b2 + n2 && b2 < b1 + n1

/-- A region entry is well formed (R288, R289). -/
def regionOk (r : BitVec 128) : Bool :=
  field r 0 48 == 0 && regKind r != 0 && 4096 ≤ regBase r && 1 ≤ regPages r && regBase r + regPages r ≤ 2 ^ 29 &&
  (regKind r != 3 || (regBase r % 4096 == 0 && regPages r % 4096 == 0)) &&
  (if regKind r == 2 then regGroups r != 0 else regGroups r == 0 && !regRetain r && !regAdopt r)

/-- No two entries of a list overlap. -/
def regionsDisjoint : List (BitVec 128) → Bool
  | [] => true
  | r :: rest => rest.all (fun q => !overlaps (regBase r) (regPages r) (regBase q) (regPages q)) && regionsDisjoint rest

/-- The region in custody whose first page an entry names. -/
def custodyAt (s : State) (r : BitVec 128) : Option Region :=
  s.bay.regions.find? (fun x => x.custody && x.base == regBase r)

/-- An entry matches the region it adopts in KIND, PAGES and GROUPS (R289). -/
def adoptMatches (s : State) (r : BitVec 128) : Bool :=
  match custodyAt s r with
  | some x => x.kind == regKind r && x.pages == regPages r && x.groups == regGroups r
  | none => true

/-- Header fields lie in their ranges (R288). -/
def bindHeaderOk (h : BitVec 1024) : Bool :=
  field h 552 9 == 0 && field h 2 542 == 0 &&
  bindDramShare h ≤ 256 && bindRimeShare h ≤ 256 && bindSlotBlocks h ≤ 128 && 1 ≤ bindPegBlocks h && bindPegBlocks h ≤ 128 &&
  bindQpairs h ≤ 4096 && noRepeats (bindExcl h)

/-- Bytes of each group that new FLASH regions take (R363). -/
def newFlash (regs : List (BitVec 128)) (g : Nat) : Nat :=
  sumOf ((regs.filter (fun r => regKind r == 2 && !regAdopt r)).map (fun r => 262144 * homedPages (regGroups r) (regPages r) g))

/-- Park region pages for a number of arrays: 4 MiB + 3 MiB each (R302). -/
def parkPages (n : Nat) : Nat := 16 + 12 * n

/-- Pages of the park region that a bay has. -/
def heldPark (s : State) (b : Nat) : Nat :=
  sumOf ((s.bay.regions.filter (fun r => r.module && (bayAt s b).parkAddr != 0 && pageBytes * r.base == (bayAt s b).parkAddr)).map (fun r => r.pages))

/-- Leaf frames that the regions of a descriptor need: its own, the park region at its place, and eight leaves for each exclusive
channel (R211, R217, R302). -/
def bindLeaves (s : State) (regs : List (Nat × Nat)) (park : Nat × Nat) (excl : Nat) : Nat :=
  leafFramesNeeded s ((leafless s ((if park.2 == 0 then regs else park :: regs).flatMap (fun r => segmentsOf r.1 r.2))).length + 8 * excl)

/-- Pages of the park region that a descriptor makes: of a bay with PARK, for the arrays bound once it is carried out; none when the region
that the bay has is large enough (R302; log entry 114). -/
def newPark (s : State) (b : Nat) (h : BitVec 1024) : Nat :=
  let v := bayAt s b
  let n := if bindExtend h then v.arrays.length + (awaitedOf s b).length + (bindArrays h).length else (bindArrays h).length
  if !(bindPark h || (bindExtend h && v.park)) || (bindExtend h && v.parkAddr != 0 && parkPages n ≤ heldPark s b) then 0 else parkPages n
where
  /-- Arrays that pending bindings of the bay await. -/
  awaitedOf (s : State) (b : Nat) : List Nat := (s.bay.pendingBinds.filter (fun p => p.bay == b)).flatMap (fun p => p.arrays)

/-- Regions of a descriptor fit (R215, R217, R228, R289, R363): quota with 64 evictable frames, frame sets, leaves, groups. -/
def regionsFit (s : State) (b : Nat) (h : BitVec 1024) (regs : List (BitVec 128)) : Bool :=
  let fresh := regs.filter (fun r => !regAdopt r)
  let runs := fresh.map (fun r => (regBase r, regPages r))
  let fixed := sumOf ((fresh.filter (fun r => regKind r != 2)).map regPages)
  let sets := setsNeeded s (sumOf ((fresh.filter (fun r => regKind r == 3)).map regPages))
  let park := newPark s b h
  let parkBase := placeAmong s (s.bay.regions.map (fun r => (r.base, r.pages)) ++ runs) park 1
  let quota := (bayAt s b).frames + bindFrames h
  let dropped := if park != 0 || !bindExtend h then heldPark s b else 0
  let dram := sumOf ((fresh.filter (fun r => regKind r == 1)).map regPages)
  bindFrames h + park ≤ freeDram s + dropped && (park == 0 || parkBase != 0) &&
  leavesFit s (dram - (quotaUsed s b + fixed - quota) + 4064 * sets + park - dropped) (bindLeaves s runs (parkBase, park) (bindExcl h).length) &&
  (fresh == [] || quotaFixed s b + fixed + 64 ≤ quota) &&
  sets ≤ (freeSets s sets).length &&
  (List.range 16).all (fun g => newFlash regs g ≤ groupFreeBytes s g && (newFlash regs g == 0 || groupLevelNow s g == 0)) &&
  regs.all (fun r => s.bay.regions.all (fun x =>
    !overlaps (regBase r) (regPages r) x.base x.pages || (regAdopt r && x.custody && x.base == regBase r)))

/-- Frames that replenishment can find: FREE, or RESIDENT and unpinned (R235). -/
def replenishable (s : State) : Nat :=
  freeFrames s + (s.tier.frames.filter (fun e => e.state == .resident && e.pin == 0)).length

/-- Permanent departures that are accepted and wait for their entry (R231). -/
def awaitedEntries (s : State) : Nat :=
  (s.tier.wanted.filter (fun w => w.2 != .temporary && !s.tier.departures.any (fun d => d.channel == w.1))).length

/-- Exclusive channels that the pending bindings of a bay, of every bay await. -/
def pendingExcl (s : State) (b : Nat) : Nat := sumOf ((s.bay.pendingBinds.filter (fun p => p.bay == b)).map (fun p => p.excl.length))
def pendingExclAll (s : State) : Nat :=
  sumOf (s.bay.pendingBinds.map (fun p => (p.excl.filter (fun c => (exclHolder s c).isNone)).length))

/-- Exclusive channels can be leased: at most 4 of the bay and 16 in all, an entry left for a TEMPORARY departure behind those accepted
before, and frames to replenish (R210, R211, R231, R235). -/
def leasesFit (s : State) (b : Nat) (cs : List Nat) : Bool :=
  let fresh := cs.filter (fun c => !s.tier.departures.any (fun d => d.channel == c))
  cs == [] ||
  ((bayAt s b).excl.length + pendingExcl s b + cs.length ≤ 4 &&
   bayTotal s (fun v => v.excl.length) + pendingExclAll s + (cs.filter (fun c => (exclHolder s c).isNone)).length ≤ 16 &&
   s.tier.departures.length + awaitedEntries s + fresh.length ≤ 23 &&
   cs.all (fun c => s.tier.departures.all (fun d => d.channel != c || (match d.kind with
     | .lease _ | .standby => true
     | _ => false))) &&
   30720 * (awaitedEntries s + fresh.length) ≤ replenishable s)

/-- The status of a BAY_BIND, ST_OK when it is accepted (R289, R299, R373). -/
def bindStatus (s : State) (b : Nat) (h : BitVec 1024) (regs : List (BitVec 128)) : Nat :=
  let ext := bindExtend h
  if bayReclaiming s b then stInProgress
  else if b == 0 || !bindHeaderOk h || regs.length != bindNreg h || !regs.all regionOk || !regionsDisjoint regs ||
      (!ext && bayBound s b) || !regs.all (fun r => !regAdopt r || adoptMatches s r) then stInvalidField
  else if (ext && !bayBound s b) || regs.any (fun r => regAdopt r && (custodyAt s r).isNone) then stNotFound
  else if !(bindArrays h).all (fun a => nameable (arrayHolder s a) (awaitedArray s a) && !s.bay.exhausted.contains a) ||
      !(bindFlash h).all (fun c => nameable (flashHolder s c) (awaitedFlash s c)) ||
      !(bindExcl h).all (fun c => nameable (exclHolder s c) (awaitedExcl s c)) ||
      256 < bayTotal s (fun v => v.dramShare) + bindDramShare h || 256 < bayTotal s (fun v => v.rimeShare) + bindRimeShare h ||
      (freeSlotBlocks s).length < bindSlotBlocks h || (freePegBlocks s).length < bindPegBlocks h ||
      4096 < bayTotal s (fun v => v.qpairs) + bindQpairs h || !regionsFit s b h regs || !leasesFit s b (bindExcl h) then
    stNoResource
  else stOk

/-! Binding (R289, R290, R298). -/

/-- Mesh credits and host read tags of a bound bay (R298). -/
def setCredits (v : Bay) : Bay :=
  { v with credits := 16 + 6 * v.arrays.length, tags := 256 + 4 * v.slotBlocks.length }

/-- The bytes of a binding descriptor. -/
def bindBytes (h : BitVec 1024) (regs : List (BitVec 128)) : Bytes :=
  natLe 128 h.toNat ++ regs.flatMap (fun r => natLe 16 r.toNat)

/-- A bay register extended with the digest of data (R389). -/
def extendRegister (v : Bay) (data : Bytes) : Bay :=
  { v with register := Config.shake256 (natLe 64 v.register.toNat ++ natLe 64 (Config.shake256 data).toNat) }

/-- The park region of a bay released (R302). -/
def dropPark (s : State) (b : Nat) : State :=
  let base := (bayAt s b).parkAddr / pageBytes
  if base == 0 then s
  else
    let s1 := (s.bay.regions.filter (fun r => r.module && r.base == base)).foldl (fun st r => releaseRegion st r false) s
    updBay s1 b (fun v => { v with parkAddr := 0, saved := 0 })

/-- A park region of a number of pages created, in place of an older one (R302). -/
def makePark (s : State) (b pages : Nat) : State :=
  let s := dropPark s b
  let base := placeRegion s pages 1
  let s1 := createRegion s { base := base, pages := pages, kind := 1, hint := 0, groups := 0, bay := 0, module := true }
  updBay s1 b (fun v => { v with parkAddr := pageBytes * base })

/-- A region entry carried out: the region in custody taken over, or a new one (R215, R292). -/
def bindRegion (b : Nat) (s : State) (r : BitVec 128) : State :=
  if regAdopt r then
    let rs := updateFirst (fun (x : Region) => x.custody && x.base == regBase r)
      (fun x => { x with custody := false, bay := b, hint := regHint r, retain := regRetain r }) s.bay.regions
    -- frames still written back pass to the bay with it
    let mine := fun (e : Frame_) => (e.state == .fill || e.state == .resident || e.state == .writeback) &&
      regBase r ≤ e.page && e.page < regBase r + regPages r
    { s with bay := { s.bay with regions := rs },
             tier := { s.tier with frames := s.tier.frames.map (fun e => if mine e then { e with bay := b } else e) } }
  else
    -- bank-local regions carry no hint state (R192)
    createRegion s { base := regBase r, pages := regPages r, kind := regKind r, hint := if regKind r == 3 then 0 else regHint r, groups := regGroups r,
                     bay := b, retain := regRetain r }

/-- Sectors of a channel's exclusive pieces marked unwritten (R209, R211). -/
def unwriteChannel (s : State) (c : Nat) : State :=
  { s with tier := { s.tier with written := s.tier.written.filter (fun w =>
      !(exclDesc ≤ w / 64 && w / 64 % 4096 / 32 == c)) } }

/-- The pieces of an exclusive channel mapped to the pages of its region, ascending (R211). -/
def mapPieces (s : State) (b c base n : Nat) : State :=
  (List.range n).foldl (fun st p =>
    let d := exclDesc + 4096 * (p / 32) + 32 * c + p % 32
    setFrame (clearFrame st d) { num := d, state := .local_, page := base + p, bay := b }) s

/-- An exclusive channel bound to a bay: its 960 × 32 pieces form a region of the bay (R210, R211). -/
def bindExclusive (s : State) (b c : Nat) : State :=
  let base := placeRegion s 30720 4096
  let r : Region := { base := base, pages := 30720, kind := 3, hint := 0, groups := 0, bay := b }
  let s1 := (leafless s (segmentsOf base 30720)).foldl addLeaf s
  let s2 := { s1 with
    bay := { s1.bay with regions := s1.bay.regions ++ [r] },
    tier := { s1.tier with departures := s1.tier.departures.map (fun d => if d.channel == c then { d with kind := .lease b } else d) } }
  let s3 := mapPieces s2 b c base 30720
  updBay (unwriteChannel s3 c) b (fun v => { v with
    excl := insertAsc c v.excl, exclAddrs := putKey v.exclAddrs c (pageBytes * base) })

/-- Pending bindings that await nothing any more complete (R289, R290). -/
def settleBinds (s : State) : State :=
  let ready := s.bay.pendingBinds.filter (fun p => p.arrays == [] && p.flash == [] && p.excl == [])
  let s1 := { s with bay := { s.bay with
    pendingBinds := s.bay.pendingBinds.filter (fun p => !(p.arrays == [] && p.flash == [] && p.excl == [])) } }
  ready.foldl (fun st p =>
    let ds := cappedDomains st
    let st1 := if p.extend then st else updBay st p.bay (fun v => { v with binding := if ds == [] then none else some ds })
    completeAfterWake st1 adminQ p.cid stOk 0) s1

/-- An accepted BAY_BIND moves what is free at once and records what it awaits (R289, R290, R302, R389). -/
def acceptBind (s : State) (c : Cmd) (b : Nat) (h : BitVec 1024) (regs : List (BitVec 128)) : State :=
  let ext := bindExtend h
  let s0 := startCmd s adminQ c
  let s1 := if ext then s0 else setBay (dropPark s0 b) b { mode := .bound, binding := some [], pegShare := bindPegShare h, park := bindPark h }
  let freeA := (bindArrays h).filter (fun a => (arrayHolder s1 a).isNone)
  let freeF := (bindFlash h).filter (fun c => (flashHolder s1 c).isNone)
  let slots := (freeSlotBlocks s1).take (bindSlotBlocks h)
  let pegs := (freePegBlocks s1).take (bindPegBlocks h)
  let s2 := updBay s1 b (fun v => setCredits (extendRegister { v with
    arrays := insertAllAsc freeA v.arrays, flash := insertAllAsc freeF v.flash, frames := v.frames + bindFrames h,
    dramShare := v.dramShare + bindDramShare h, rimeShare := v.rimeShare + bindRimeShare h,
    slotBlocks := insertAllAsc slots v.slotBlocks, pegBlocks := insertAllAsc pegs v.pegBlocks,
    qpairs := v.qpairs + bindQpairs h, pegShare := v.pegShare ||| bindPegShare h } (bindBytes h regs)))
  let s3 := if ext then settleNotice s2 b
    else match noticePeg s2 b with
      | some p => addPeg s2 { num := p, bay := b, ctx := none, kind := .notice }
      | none => s2
  -- regions that take whole frame sets come first (log entry 27)
  let local_ := fun (r : BitVec 128) => regKind r == 3
  let s4 := (regs.filter local_ ++ regs.filter (fun r => !local_ r)).foldl (bindRegion b) s3
  let park := newPark s b h
  let s5 := if park == 0 then s4 else updBay (makePark s4 b park) b (fun v => { v with park := true })
  let wait : PendingBind := { cid := c.cid, bay := b, arrays := (bindArrays h).filter (fun a => !freeA.contains a),
                              flash := (bindFlash h).filter (fun x => !freeF.contains x), excl := bindExcl h, extend := ext }
  -- a channel in STANDBY re-binds without evacuation, unless its return copy runs; any other free one is evacuated first (R211, R235)
  let returns := fun (c : Nat) => s5.tier.evacuation.any (fun v => v.returning && v.channel == c)
  let standby := (bindExcl h).filter (fun c => s5.tier.departures.any (fun d => d.channel == c && d.kind == .standby) && !returns c)
  let evac := (bindExcl h).filter (fun c => !s5.tier.departures.any (fun d => d.channel == c) || returns c)
  let s6 := standby.foldl (fun st c => bindExclusive st b c) s5
  settleBinds { s6 with
    bay := { s6.bay with pendingBinds := s6.bay.pendingBinds ++ [{ wait with excl := wait.excl.filter (fun c => !standby.contains c) }] },
    tier := { s6.tier with wanted := s6.tier.wanted ++ evac.map (fun c => (c, DepKind.lease b)) } }

/-- The quota that the binding leaves its bay has room for the frames of its regions, after evictions (R228, R363). -/
def bindRoom (s : State) (b : Nat) (h : BitVec 1024) (regs : List (BitVec 128)) : Bool :=
  roomFor (updBay s b (fun v => { v with frames := v.frames + bindFrames h })) b
    (sumOf ((regs.filter (fun r => !regAdopt r && regKind r != 2)).map regPages))

/-- BAY_BIND; it is held while dirty frames that must go to a group at level 3 leave its regions no room (R288 to R290, R363; log entry
118). -/
def execBayBind (cid : Nat) (hdr : BitVec 1024) (regs : List (BitVec 128)) (s : State) : Host.Outcome State Fault Refusal :=
  .next (withAdmin s cid 0x86 (fun s c =>
    let b := field c.sqe 64 6
    let regs := regs.take (bindNreg hdr)
    if refitHolds s 0x2000 1 || refitHolds s 0x3000 0 then s
    else if regs.length < bindNreg hdr then
      endCmd (updLinkCounters s 0 (fun k => { k with hostFaults := wrapAdd 64 k.hostFaults 1 })) adminQ c stHostFault 0
    else
      let st := bindStatus s b hdr regs
      if st != stOk then endCmd s adminQ c st 0
      else if !bindRoom s b hdr regs then s
      else
        let t := acceptBind s c b hdr regs
        if liftsFloor s t then endCmd s adminQ c stNoResource 0 else reevalPieces t))

/-! Draining (R297, R303). -/

/-- A drained array's stores cleared (R297). -/
def clearArray (s : State) (a : Nat) : State :=
  let own := fun (c : Nat) => c / 64 == a
  { s with cells := { s.cells with
      cellStore := memClear s.cells.cellStore (32768 * 64 * a) (32768 * 64),
      arrayStore := memClear s.cells.arrayStore (1048576 * a) 1048576,
      selection := s.cells.selection.filter (fun e => !own e.1),
      argmax := s.cells.argmax.filter (fun e => !own e.1),
      vregs := s.cells.vregs.filter (fun e => !own (e.1 / 32)),
      threads := s.cells.threads.filter (fun t => !own (t.num / 256)),
      turns := s.cells.turns.filter (fun e => !own e.1) } }

/-- A rime request of a bay's contexts that satisfies p is queued, on a unit or saved (R297, R301). -/
def rimeOf (s : State) (b : Nat) (p : RimeReq → Bool) : Bool :=
  s.rime.banks.any (fun x => (x.queue ++ x.current.toList ++ x.parked.toList).any (fun r => bayOfCtx s r.ctx == b && p r))

/-- A fill or a write-back of a frame of a bay runs (R297). -/
def moves (s : State) (b : Nat) (p : Frame_ → Bool) : Bool :=
  s.tier.frames.any (fun e => e.bay == b && (e.state == .fill || e.state == .writeback) && p e)

/-- A COPY of a pair of a bay runs (R297). -/
def copies (s : State) (b : Nat) : Bool :=
  s.queues.pairs.any (fun p => p.bay == b && p.q.cmds.any (fun c => c.phase == .running && sqeOpcode c.sqe == 0x08))

/-- Work of a bay that still uses a resource of it: plans, queries and their tokens, rime requests and segments, flash pieces, fills,
write-backs and copies; flits retire within the step that sends them (R116, R297; log entry 120). -/
def resourceBusy (s : State) (b : Nat) (r : Resource) : Bool :=
  let ctxs := s.bay.contexts.any (fun c => c.bay == b)
  let qs := s.adm.queries.any (fun x => x.bay == b)
  match r with
  | .array a => s.bay.plans.any (fun p => bayOfCtx s p.ctx == b && p.arrays.contains a) || rimeOf s b (fun r => r.cell / 64 == a)
  | .flashChannel c =>
    ctxs || qs || s.health.dies.any (fun d => d.channel == c && d.piece.isSome) || moves s b (fun e => homeGroup s e.page == c / 8)
  | .exclChannel c => ctxs || qs || rimeOf s b (fun r => r.bank / 32 == c)
  | .slotBlocks => qs || ctxs
  | .pegBlocks => ctxs || s.bay.pegs.any (fun p => p.bay == b && p.kind != .notice)
  | .shares => ctxs || qs || s.queues.pairs.any (fun p => p.bay == b) || rimeOf s b (fun _ => true) || moves s b (fun _ => true) || copies s b
  | .credits => ctxs || qs || s.queues.pairs.any (fun p => p.bay == b && p.q.cmds != []) || holdsMore (bayAt s b)
where
  /-- Credits and tags go back once the rest of the bay has drained (R17, R298). -/
  holdsMore (v : Bay) : Bool :=
    v.arrays != [] || v.flash != [] || v.excl != [] || v.slotBlocks != [] || v.pegBlocks != [] || v.dramShare != 0 || v.rimeShare != 0 ||
    v.qpairs != 0

/-- A pending binding no longer awaits something (R289, R290). -/
def awaitLess (s : State) (p : PendingBind) (f : PendingBind → PendingBind) : State :=
  let ps := updateFirst (fun (x : PendingBind) => x.cid == p.cid && x.bay == p.bay) f s.bay.pendingBinds
  settleBinds { s with bay := { s.bay with pendingBinds := ps } }

/-- The pending binding that awaits a resource takes it (R289). -/
def handOver (s : State) (r : Resource) : State :=
  match r with
  | .array a =>
    (match s.bay.pendingBinds.find? (fun p => p.arrays.contains a) with
     | some p =>
       awaitLess (updBay s p.bay (fun v => setCredits { v with arrays := insertAsc a v.arrays })) p
         (fun x => { x with arrays := x.arrays.filter (fun y => y != a) })
     | none => s)
  | .flashChannel c =>
    (match s.bay.pendingBinds.find? (fun p => p.flash.contains c) with
     | some p =>
       awaitLess (updBay s p.bay (fun v => { v with flash := insertAsc c v.flash })) p
         (fun x => { x with flash := x.flash.filter (fun y => y != c) })
     | none => s)
  | .exclChannel c =>
    (match s.bay.pendingBinds.find? (fun p => p.excl.contains c) with
     | some p => awaitLess (bindExclusive s p.bay c) p (fun x => { x with excl := x.excl.filter (fun y => y != c) })
     | none => s)
  | _ => s

/-- Region and frames of an exclusive channel leave a bay; every sector of it is unwritten (R209, R211, R303). -/
def dropExclusive (s : State) (b c : Nat) : State :=
  let mine := fun (e : Frame_) => exclDesc ≤ e.num && e.num % 4096 / 32 == c
  let pages := (s.tier.frames.filter mine).map (fun e => e.page)
  let s1 := { s with
    tier := { s.tier with frames := s.tier.frames.filter (fun e => !mine e),
                          dram := s.tier.dram.filter (fun e => !(exclDesc ≤ e.1 / pageBytes && e.1 / pageBytes % 4096 / 32 == c)),
                          poison := s.tier.poison.filter (fun p => !(exclDesc ≤ p / pageBytes && p / pageBytes % 4096 / 32 == c)) },
    bay := { s.bay with regions := s.bay.regions.filter (fun r => !(r.bay == b && r.pages == 30720 && pages.contains r.base)) } }
  updBay (dropLeaves (unwriteChannel s1 c)) b (fun v => { v with
    excl := v.excl.filter (fun x => x != c), exclAddrs := dropKey v.exclAddrs c })

/-- The return copy of the last entry starts when it is in STANDBY and nothing else runs (R231, R235). -/
def startReturn (s : State) : State :=
  match s.tier.evacuation, s.tier.departures.getLast? with
  | none, some d =>
    if d.kind == .standby && d.out then
      { s with tier := { s.tier with
          evacuation := some { channel := d.channel, returning := true, clear := clearStripes s d.channel } } }
    else s
  | _, _ => s

/-- A released lease: its entry stands in STANDBY, and its return copy starts once it is the last (R231, R235). -/
def releaseLease (s : State) (c : Nat) : State :=
  startReturn { s with tier := { s.tier with
      departures := s.tier.departures.map (fun d => if d.channel == c then { d with kind := .standby } else d) } }

/-- RESOURCE_DRAINED: a resource of a bay under reclaim leaves it as it drains (R297, R298, R303). -/
def execResourceDrained (bay : Nat) (r : Resource) (s : State) : Host.Outcome State Fault Refusal :=
  .next
    (let v := bayAt s bay
     if v.mode != .reclaiming || resourceBusy s bay r then s
     else reevalPieces
       (match r with
       | .array a =>
         if v.arrays.contains a then
           handOver (updBay (clearArray s a) bay (fun v => { v with arrays := v.arrays.filter (fun x => x != a), drained := v.drained ++ [r] })) r
         else s
       | .flashChannel c =>
         if v.flash.contains c then
           handOver (updBay s bay (fun v => { v with flash := v.flash.filter (fun x => x != c), drained := v.drained ++ [r] })) r
         else s
       | .exclChannel c =>
         if v.excl.contains c then
           let s1 := updBay (dropExclusive s bay c) bay (fun v => { v with drained := v.drained ++ [r] })
           if awaitedExcl s1 c then handOver s1 r else releaseLease s1 c
         else s
       | .slotBlocks => updBay s bay (fun v => { v with slotBlocks := [], drained := v.drained ++ [r] })
       | .pegBlocks =>
         let s1 := match noticePeg s bay with
           | some p => freePeg s p
           | none => s
         updBay s1 bay (fun v => { v with pegBlocks := [], drained := v.drained ++ [r] })
       | .shares => updBay s bay (fun v => { v with dramShare := 0, rimeShare := 0, qpairs := 0, drained := v.drained ++ [r] })
       | .credits => updBay s bay (fun v => { v with credits := 0, tags := 0, drained := v.drained ++ [r] })))

/-! Reclaim (R299 to R303). -/

/-- BAY_RECLAIM (R289, R299, R300). -/
def execBayReclaim (cid : Nat) (s : State) : Host.Outcome State Fault Refusal :=
  .next (withAdmin s cid 0x87 (fun s c =>
    let b := field c.sqe 64 6
    let grace := field c.sqe 80 16
    if b == 0 || 60000 < grace then endCmd s adminQ c stInvalidField 0
    else if !bayBound s b then endCmd s adminQ c stNotFound 0
    else if bayReclaiming s b then endCmd s adminQ c stInProgress 0
    else
      -- of the tick after one in which a query of the bay was decided, which R116 would refuse (log entry 122)
      let s := if s.adm.queries.any (fun x => x.bay == b && x.decided == now s) then advanceTo s (now s + 1) else s
      let e := now s + grace * 1000000
      let s1 := updBay (startCmd s adminQ c) b (fun v => { v with mode := .reclaiming, expiry := some (e, c.cid), expired := false, drained := [] })
      let mine := s1.bay.pendingBinds.filter (fun p => p.bay == b)
      let s2 := mine.foldl (fun st p => postCompletion st adminQ p.cid stNoResource 0)
        { s1 with
          bay := { s1.bay with pendingBinds := s1.bay.pendingBinds.filter (fun p => p.bay != b) },
          tier := { s1.tier with wanted := s1.tier.wanted.filter (fun w => w.2 != .lease b) } }
      reevalPieces (match noticePeg s2 b with
        -- MGMT sets it through port 161 (R311)
        | some p => settlePeg (updPeg (pegTurn s2 p 161) p (fun x => { x with value := BitVec.ofNat 64 e })) p
        | none => s2)))

/-- Cuts of a run completed so far: those started that do not run. -/
def cutsCompleted (x : Query) : Nat := x.nextCut + x.ahead.length - x.running.length

/-- A run entry of the park image (R302). -/
def parkRun (x : Query) : Bytes :=
  natLe 32 (x.ctx % 4096 + x.q % 4096 * 2 ^ 16 + x.cid % 65536 * 2 ^ 32 + x.plan % 65536 * 2 ^ 48 + x.nextCut % 2 ^ 32 * 2 ^ 64 +
    cutsCompleted x % 2 ^ 32 * 2 ^ 96)

/-- The park image header (R302). -/
def parkHeader (npeg nrun nctx narr dtb boot bay : Nat) : Bytes :=
  natLe 64 (1 + bay % 64 * 2 ^ 8 + boot % 2 ^ 32 * 2 ^ 64 + dtb % 2 ^ 64 * 2 ^ 96 + narr % 65536 * 2 ^ 160 + nctx % 65536 * 2 ^ 176 +
    nrun % 2 ^ 32 * 2 ^ 192 + npeg % 2 ^ 32 * 2 ^ 224)

/-- n pages of a store copied to consecutive pages of the device range. -/
def storeToPages (s : State) (src : List Host.Cell) (key page n : Nat) : State :=
  (List.range n).foldl (fun st i =>
    match descOfPage st (page + i) with
    | some d => { st with tier := { st.tier with dram := memCopy src st.tier.dram (key + pageBytes * i) (dramKey d 0) pageBytes } }
    | none => st) s

/-- A context has work outstanding; one without has ended itself (R301). -/
def outstanding (s : State) (ctx : Nat) : Bool :=
  s.adm.queries.any (fun x => x.ctx == ctx && x.stage != .done) || s.queues.pairs.any (fun p => p.ctx == ctx && p.q.cmds != []) ||
  s.indexes.any (fun x => match x.merge with
    | some m => m.ctx == ctx
    | none => false)

/-- Contexts of a bay that the forced save saves (R301, R312). -/
def jobs (s : State) (b : Nat) : List Ctx := s.bay.contexts.filter (fun c => c.bay == b && outstanding s c.num)

/-- The forced save of a bay: header, run entries, peg entries, then 3 MiB for each array (R302). -/
def forcedSave (s : State) (b : Nat) : State :=
  let v := bayAt s b
  let ctxs := jobs s b
  let runs := s.adm.queries.filter (fun x => x.bay == b && x.opcode == 0x07 && x.stage != .done)
  let pegs := s.bay.pegs.filter (fun p => match p.ctx with
    | some c => ctxs.any (fun x => x.num == c)
    | none => false)
  let head := parkHeader pegs.length runs.length ctxs.length v.arrays.length (now s) s.time.bootCount.toNat b
  let s1 := devWrite s v.parkAddr (head ++ runs.flatMap parkRun ++ pegs.flatMap parkPeg)
  let page := v.parkAddr / pageBytes + 16
  let s2 := (v.arrays.zip (List.range v.arrays.length)).foldl (fun st e =>
    let st1 := storeToPages st st.cells.cellStore (32768 * 64 * e.1) (page + 12 * e.2) 8
    storeToPages st1 st1.cells.arrayStore (1048576 * e.1) (page + 12 * e.2 + 8) 4) s1
  updBay s2 b (fun v => { v with saved := ctxs.length })

/-- The grace time of a bay's reclaim has expired (R301). -/
def graceOver (s : State) (b : Nat) : Bool := bayReclaiming s b && (bayAt s b).expired

/-- A cut of the bay runs, or a rime request that one has issued (R213, R301). -/
def bayCutRuns (s : State) (b : Nat) : Bool := s.adm.queries.any (fun x => x.bay == b && x.running != []) || rimeOf s b (fun _ => true)

/-- The grace time of a bay is over and its save, or what stands for it, is still to come: no cut starts in the bay (R301). -/
def savePending (s : State) (b : Nat) : Bool := graceOver s b && s.bay.contexts.any (fun c => c.bay == b && !c.reclaimed)

/-- What follows E once the running cuts and their rime requests have ended: the image is saved with PARK when a job is left, merges of
the bay are cut off, and every context ends, those with LC queries after these (R63, R213, R301, R302, R312). -/
def finishExpiry (s : State) (b : Nat) : State :=
  let s1 := if (bayAt s b).park && jobs s b != [] then forcedSave s b else updBay s b (fun v => { v with saved := 0 })
  let s2 := cutMerges s1 (fun m => bayOfCtx s1 m.ctx == b) (some stContextEnded)
  let cs := s2.bay.contexts.map (fun (c : Ctx) => if c.bay == b then { c with reclaimed := true } else c)
  let ps := s2.queues.pairs.map (fun (p : QPair) => if p.bay == b then { p with reclaimed := true } else p)
  let s3 := { s2 with bay := { s2.bay with contexts := cs }, queues := { s2.queues with pairs := ps } }
  (s3.bay.contexts.filter (fun c => c.bay == b)).foldl (fun st c => endReclaimed st c.num) s3

/-- Contexts of a bay whose grace time is over are saved and ended with the last running cut (R301). -/
def settleExpiry (s : State) (b : Nat) : State :=
  if savePending s b && !bayCutRuns s b then finishExpiry s b else s

/-- RECLAIM_GRACE_EXPIRY: at E no new cut starts; the save and the ends of the contexts follow at once, or with the last cut that runs
(R301, R302). -/
def execReclaimGraceExpiry (bay : Nat) (s : State) : Host.Outcome State Fault Refusal :=
  .next
    (let v := bayAt s bay
     match v.mode, v.expiry, v.expired with
     | .reclaiming, some (e, _), false =>
       let s1 := updBay (advanceTo s e) bay (fun v => { v with expired := true })
       if bayCutRuns s1 bay then s1 else finishExpiry s1 bay
     | _, _, _ => s)

/-- The regions of a reclaimed bay: retained ones pass into custody, their clean frames freed, the dirty ones written back and those that
fill freed at their end; the others are released and their frames zeroed (R222, R292, R303). -/
def giveUpRegions (s : State) (b : Nat) : State :=
  let rs := s.bay.regions.filter (fun r => r.bay == b && !r.module && !r.custody)
  rs.foldl (fun st r =>
    if r.retain then
      let kept := updateFirst (fun (x : Region) => x == r) (fun x => { x with bay := 0, custody := true }) st.bay.regions
      let st1 := { st with bay := { st.bay with regions := kept } }
      (st1.tier.frames.filter (fun e => regionHas r e.page && (e.state == .resident || e.state == .writeback || e.state == .fill))).foldl (fun st2 e =>
        freeCustody (setFrame st2 { e with bay := 0, pin := 0 }) e.page) st1
    else releaseRegion st r true) s

/-- RECLAIM_COMPLETE: every resource but the frames has drained; regions are given up, the bay is unbound, and the command
completes with the contexts saved (R291, R292, R303). -/
def execReclaimComplete (bay : Nat) (s : State) : Host.Outcome State Fault Refusal :=
  .next
    (let v := bayAt s bay
     match v.mode, v.expiry with
     | .reclaiming, some (_, cid) =>
       if v.arrays != [] || v.flash != [] || v.excl != [] || v.slotBlocks != [] || v.pegBlocks != [] || v.dramShare != 0 ||
           v.rimeShare != 0 || v.qpairs != 0 || v.credits != 0 || s.bay.contexts.any (fun c => c.bay == bay) || s.queues.pairs.any (fun p => p.bay == bay) then s
       else
         let s1 := giveUpRegions s bay
         let s2 := setBay s1 bay { register := v.register, parkAddr := v.parkAddr, saved := v.saved }
         postCompletion s2 adminQ cid stOk v.saved
     | _, _ => s)

/-- FRAME_ZEROED: a frame that left its bay, with no fill or write-back of it running, is FREE from now on, or SPARE on a channel that is
out; a bank-local set whose frames are all FREE returns to the interleave, and frames that wait to be vacated are tried again (R219, R222,
R303, R366). -/
def execFrameZeroed (frame : Nat) (s : State) : Host.Outcome State Fault Refusal :=
  .next
    (let e := frameAt s frame
     if !e.zeroing || e.state == .fill || e.state == .writeback then s
     else
       let out := s.tier.localSets.contains (frame / 4096) && (outChannels s).contains (frame % 4096 / 32)
       vacateLate (dropLocal (setFrame (clearFrame s frame) { num := frame, state := if out then .spare else .free }) [frame / 4096]))

/-! Faults, slices, promotion (R135, R295, R304, R305). -/

/-- A context ends by a fault: the teardown, and an entry with the context, the cause and the DTB (R304, R305, R374). -/
def faultContext (s : State) (ctx cause : Nat) : State :=
  match ctxAt s ctx with
  | none => s
  | some c => logError (settleExpiry (tearDown s ctx) c.bay) errContextFault 0 cause (some (c.bay, ctx))

/-- CONTEXT_FAULT: a fault ends its own context (R304, R305). -/
def execContextFault (ctx cause : Nat) (s : State) : Host.Outcome State Fault Refusal := .next (faultContext s ctx cause)

/-- Causes of faults that the module finds itself, by their place in the list of R304: an access outside the address space, a rime request
that ended with a fault, a peg that the context may not use, code that a cell does not execute or a store beyond its size (log entry
98). -/
def faultSpace : Nat := 1
def faultRime : Nat := 2
def faultPeg : Nat := 3
def faultCode : Nat := 4

/-- A best-effort context with pending work (R135). -/
def beWork (s : State) (c : Nat) : Bool :=
  s.adm.queries.any (fun x => x.ctx == c && !x.lc && x.stage != .done) ||
  s.queues.pairs.any (fun p => p.ctx == c && p.q.cmds.any (fun d => 5 ≤ sqeOpcode d.sqe && !(p.lc && sqeOpcode d.sqe == 7))) ||
  s.indexes.any (fun x => match x.merge with
    | some m => m.ctx == c
    | none => false)

/-- Context a waits before b for promotion: earlier progress, then lower number (R135). -/
def promoteBefore (a b : Ctx) : Bool := a.progress < b.progress || (a.progress == b.progress && a.num < b.num)

/-- BE_PROMOTION: after BE_AGE_TIME without progress, for 2 ms; one context of a bay at a time, the first in order, none while BE work
is held (R135, R352). -/
def execBePromotion (bay ctx : Nat) (s : State) : Host.Outcome State Fault Refusal :=
  .next
    (match ctxAt s ctx with
     | none => s
     | some c =>
       let s1 := advanceTo s (c.progress + beAgeTime s)
       let rivals := s1.bay.contexts.filter (fun d => d.bay == bay && d.num != ctx && beWork s1 d.num && d.progress + beAgeTime s1 ≤ now s1)
       if c.bay != bay || beHeld s || (bayAt s bay).promoted.isSome || !beWork s ctx || rivals.any (fun d => promoteBefore d c) then s
       else
         updCounters (updBay s1 bay (fun v => { v with promoted := some (ctx, now s1 + 2000000), promotedUse := [] })) bay
           (fun k => { k with bePromotions := wrapAdd 64 k.bePromotions 1 }))

/-- PROMOTION_QUANTUM_END: the context returns to BE and its aging clock restarts (R135). -/
def execPromotionQuantumEnd (bay : Nat) (s : State) : Host.Outcome State Fault Refusal :=
  .next
    (match (bayAt s bay).promoted with
     | none => s
     | some (c, t) =>
       let s1 := updBay (advanceTo s t) bay (fun v => { v with promoted := none })
       updCtx s1 c (fun x => { x with progress := if t ≤ x.progress + 2000000 then x.progress else t }))

end Sys2Proof.Machine
end

