-- ==== Sys2Proof/Machine/Index.lean ====
section
/-! DEFINITION. Indexes: creation and deletion, INSERT and DELETE with their journal, firn merge rounds, raises, releases and
replay (R31 to R63, R101, R273 to R277, R359, R363). -/

namespace Sys2Proof.Machine

open Sys2Proof

/-! Creation parameters (R32, R33, R274). -/

/-- DEF bit of a parameter. -/
def nsDef (e : BitVec 512) (i : Nat) : Bool := flag e (224 + i)

/-- A field whose DEF bit is set takes the default. -/
def nsField (e : BitVec 512) (i lo n dflt : Nat) : Nat := if nsDef e i then dflt else field e lo n

/-- A field whose DEF bit is set is written as 0 (R274). -/
def nsZeroed (e : BitVec 512) (fs : List (Nat × Nat × Nat)) : Bool :=
  fs.all (fun f => !nsDef e f.1 || field e f.2.1 f.2.2 == 0)

/-- Default hub count (R32). -/
def defaultHubs (n : Nat) : Nat := min 4194304 (max 1024 (n / 4096 / 1024 * 1024))

/-- The creation parameters that an NS_CREATE resolves to (R32, R274). -/
def nsParams (e : BitVec 512) : IndexParams :=
  let n := field e 80 41
  let cw := nsField e 0 121 2 2
  let dram := nsField e 2 124 1 0 == 1
  let rfmt := nsField e 6 168 2 1
  { nCap := n, w := 256 * 2 ^ cw, degree := if nsField e 1 123 1 1 == 1 then 48 else 32, dramTier := dram,
    hubs := nsField e 3 128 23 (defaultHubs n), groups := BitVec.ofNat 16 (nsField e 4 152 16 0xFFFF),
    atype := nsField e 5 126 2 0, rfmt := rfmt,
    rdim := if rfmt == 0 then 0 else nsField e 7 176 12 768,
    rgs := if rfmt == 0 then 0 else nsField e 8 170 2 0,
    rsck := if rfmt == 0 then 0 else nsField e 9 172 2 2,
    flashDirect := rfmt != 0 && (if nsDef e 10 then !dram else flag e 125),
    driftLimit := nsField e 11 192 27 4194304 }

/-- The parameters lie in the permitted sets (R32, R33, R274). -/
def nsParamsOk (e : BitVec 512) (p : IndexParams) : Bool :=
  nsZeroed e [(0, 121, 2), (1, 123, 1), (2, 124, 1), (3, 128, 23), (4, 152, 16), (5, 126, 2), (6, 168, 2), (11, 192, 27)] &&
  1024 ≤ p.nCap && p.nCap ≤ 2 ^ 40 && p.nCap % 1024 == 0 &&
  (p.hubs == 0 || (1024 ≤ p.hubs && p.hubs ≤ 4194304)) && p.groups != 0 && p.atype != 3 && p.rfmt != 3 &&
  (p.rfmt == 0 ||
    (nsZeroed e [(7, 176, 12), (8, 170, 2), (9, 172, 2), (10, 125, 1)] &&
     64 ≤ p.rdim && p.rdim ≤ 2048 && p.rdim % 64 == 0 && p.rgs != 3 && p.rdim % groupSize p.rgs == 0 && p.rsck != 3)) &&
  4096 ≤ p.driftLimit && p.driftLimit ≤ 2 ^ 26 && p.driftLimit % 4096 == 0 &&
  !(p.w == 2048 && p.degree == 48) && !(p.dramTier && p.degree == 48) && !(p.dramTier && 2 ^ 32 < p.nCap)

/-- Flash reservation in bytes (R33). -/
def flashReservation (p : IndexParams) : Nat := p.nCap * ((if p.dramTier then compactBytes p + 32 else 2048) + slotBytes p)

/-- Selected groups, and the share of each (R363). -/
def groupCount (p : IndexParams) : Nat := (setBits p.groups).length
def reservationShare (p : IndexParams) : Nat := ceilDiv (flashReservation p) (max 1 (groupCount p))

/-! The regions of the DRAM structures (R33, R50, R215). -/

/-- Structures that an index has, those in bank-local regions first. -/
def ownParts (p : IndexParams) : List IndexPart :=
  let own := indexParts.filter (fun k => partPages p k != 0)
  own.filter (partLocal p) ++ own.filter (fun k => !partLocal p k)

/-- Regions for structures, each at a place that no other takes (log entry 27). -/
def placeParts (s : State) (p : IndexParams) : List IndexPart → List (Nat × Nat) → List PartRegion
  | [], _ => []
  | k :: r, taken =>
    let n := partPages p k
    let b := placeAmong s taken n (if partLocal p k then 4096 else 1)
    { part := k, base := b, pages := n } :: placeParts s p r ((b, n) :: taken)

/-- The regions that an index takes at NS_CREATE. -/
def partsFor (s : State) (p : IndexParams) : List PartRegion := placeParts s p (ownParts p) (s.bay.regions.map (fun r => (r.base, r.pages)))

/-- A region of an index: the module's own, which bay 0 holds outside its quota, in no context's address space (R215, R218, R287, R291). -/
def partRegion (p : IndexParams) (r : PartRegion) : Region :=
  { base := r.base, pages := r.pages, kind := if partLocal p r.part then 3 else 1, hint := 0, groups := 0, bay := 0, module := true }

/-- DRAM frames that the regions of an index take, those of the frame sets of its bank-local ones among them (R33, R219). -/
def indexFrames (s : State) (p : IndexParams) : Nat :=
  let pages := fun (loc : Bool) => sumOf (((partsFor s p).filter (fun r => partLocal p r.part == loc)).map (fun r => r.pages))
  pages false + 4064 * setsNeeded s (pages true)

/-- The reservation and the pinned DRAM fit, with the frame sets of the bank-local regions (R33, R50, R215, R228, R363). -/
def indexFits (s : State) (p : IndexParams) : Bool :=
  let rs := partsFor s p
  let sets := setsNeeded s (sumOf ((rs.filter (fun r => partLocal p r.part)).map (fun r => r.pages)))
  (setBits p.groups).all (fun g => reservationShare p ≤ groupFreeBytes s g) && rs.all (fun r => r.base != 0) &&
  indexFrames s p ≤ freeDram s && sets ≤ (freeSets s sets).length

/-- New leaf frames that regions need (R217). -/
def leavesFor (s : State) (rs : List PartRegion) : Nat :=
  leafFramesNeeded s (leafless s (rs.flatMap (fun r => segmentsOf r.base r.pages))).length

/-- The status of an NS_CREATE: the checks of R274, then a FREE frame for each leaf frame (R215, R217, R274). -/
def nsStatus (s : State) (n : Nat) (e : BitVec 512) (p : IndexParams) : Nat :=
  if !nsParamsOk e p || (indexAt s n).isSome then stInvalidField
  else if s.sec.order.vectorLimit < sumOf (s.indexes.map (fun x => x.params.nCap)) + p.nCap then stVectorLimit
  else if !indexFits s p then stCapacitySpare
  else if maskAtLevel s p.groups 1 then stCapacitySpare
  else if !leavesFit s (indexFrames s p) (leavesFor s (partsFor s p)) then stNoResource
  else stOk

/-- Indexes in ascending number. -/
def addIndex (s : State) (x : Index) : State :=
  { s with indexes := insertBy (fun (a b : Index) => decide (a.num < b.num)) x s.indexes }

/-- NS_CREATE: the module makes the regions of the DRAM structures, which read as 0; RESULT is the index number (R31 to R33, R215, R271,
R274). -/
def execNsCreate (cid : Nat) (s : State) : Host.Outcome State Fault Refusal :=
  .next (withAdmin s cid 0x80 (fun s c =>
    let n := field c.sqe 64 12
    let p := nsParams c.sqe
    let st := nsStatus s n c.sqe p
    if st != stOk then endCmd s adminQ c st 0
    else
      let rs := partsFor s p
      let s1 := rs.foldl (fun st r => createRegion st (partRegion p r)) s
      let x : Index := { num := n, params := p, versions := [{ num := 0, driftBase := 0 }], reservePerGroup := reservationShare p, parts := rs }
      endCmd (refreshLevels (addIndex s1 x)) adminQ c stOk n))

/-- A firn merge runs on an index. -/
def merging (x : Index) : Bool := x.merge.isSome

/-- An index accepts commands (R34, R56). -/
def indexBusy (x : Index) : Bool := x.replaying || x.deleting.isSome

/-- NS_DELETE: admission to the index stops; its release follows the last query (R34). -/
def execNsDelete (cid : Nat) (s : State) : Host.Outcome State Fault Refusal :=
  .next (withAdmin s cid 0x81 (fun s c =>
    let n := field c.sqe 64 12
    match indexAt s n with
    | none => endCmd s adminQ c stNotFound 0
    | some x =>
      if indexBusy x || merging x || s.bay.plans.any (fun p => p.index == some n) then endCmd s adminQ c stNsBusy 0
      else updIndex (startCmd s adminQ c) n (fun y => { y with deleting := some c.cid })))

/-- Queries admitted on an index (R34, R58). -/
def queriesOn (s : State) (n : Nat) : List Query := s.adm.queries.filter (fun x => x.index == some n)

/-- NS_DELETE_RELEASE: the last query has completed; all structures are released and the number is free (R34). -/
def execNsDeleteRelease (index : Nat) (s : State) : Host.Outcome State Fault Refusal :=
  .next
    (match indexAt s index with
     | none => s
     | some x =>
       match x.deleting with
       | none => s
       | some cid =>
         if queriesOn s index != [] then s
         else
           let s1 := x.parts.foldl (fun st r => dropRegionAt st r.base) s
           let s2 := { s1 with indexes := s1.indexes.filter (fun y => y.num != index) }
           postCompletion (refreshLevels s2) adminQ cid stOk 0)

/-! INSERT and DELETE (R35 to R37, R48 to R55, R275, R276). -/

/-- The reserved local IDs of an index (R36). -/
def reservedLocal (p : IndexParams) (n : Nat) : Bool := n == 0xFFFFFFFFFF || (p.dramTier && n == 0xFFFFFFFF)

/-- Local IDs that an index can hold. -/
def localOk (p : IndexParams) (n : Nat) : Bool := n < p.nCap && !reservedLocal p n

/-- Vector ID, tag and numeric attribute of an insert head (R275). -/
def insVid (h : BitVec 256) : Word64 := BitVec.ofNat 64 (field h 0 64)
def insTag (h : BitVec 256) : BitVec 128 := BitVec.ofNat 128 (field h 64 128)
def insNumeric (h : BitVec 256) : Word32 := BitVec.ofNat 32 (field h 192 32)

/-- One entry of an insert block cut into head, code, and rerank data in slot layout (R275). -/
structure InsertEntry where
  head : BitVec 256
  code : Nat
  data : Bytes
  deriving DecidableEq, Repr

/-- Stride E of an insert block, and its entry i: 32 bytes of head, the code, and the rerank data from the next multiple of 64 (R275). -/
def insertStride (p : IndexParams) : Nat := up64 (32 + p.w / 8) + slotBytes p
def cutInsert (p : IndexParams) (block : Bytes) (i : Nat) : InsertEntry :=
  let a := insertStride p * i
  { head := BitVec.ofNat 256 (leAt block a 32), code := leAt block (a + 32) (p.w / 8), data := sliceOf block (a + up64 (32 + p.w / 8)) (slotBytes p) }

/-- Rerank data of an entry as a whole slot. -/
def slotData (p : IndexParams) (e : InsertEntry) : Bytes := (List.range (slotBytes p)).map (fun i => e.data.getD i 0)

/-- Rsvd bytes of rerank data, the tail included, are 0 (R49, R275). -/
def slotRsvdOk (p : IndexParams) (e : InsertEntry) : Bool := ((slotData p e).drop (vectorBytes p)).all (fun b => b == 0)

/-- The check of one entry; earlier are the local IDs of the entries before it (R276). -/
def insertEntryStatus (x : Index) (earlier : List Nat) (e : InsertEntry) : Nat :=
  let v := insVid e.head
  let n := vidLocal v
  if vidIndex v != x.num || field e.head 224 32 != 0 || vidRsvd v != 0 || !slotRsvdOk x.params e || !localOk x.params n then stInvalidField
  else if earlier.contains n || x.presence.contains n then stIdInUse
  else if x.params.atype == 2 && isNan32 (insNumeric e.head) then stInvalidField
  else if x.params.rfmt != 0 && !vectorOk x.params (slotData x.params e) then stInvalidField
  else stOk

/-- The first entry that fails, with its status (R276). -/
def firstBadEntry (x : Index) : List InsertEntry → List Nat → Nat → Option (Nat × Nat)
  | [], _, _ => none
  | e :: r, earlier, i =>
    let st := insertEntryStatus x earlier e
    if st != stOk then some (st, i) else firstBadEntry x r (earlier ++ [vidLocal (insVid e.head)]) (i + 1)

/-- Newest drift base (R52, R53). -/
def driftBase (x : Index) : Nat :=
  match versionAt x x.version with
  | some v => v.driftBase
  | none => x.tail

/-- L of R53. -/
def driftL (x : Index) : Nat := x.tail - driftBase x / 4096 * 4096

/-- The limit on L: the drift limit and the budgets of the loaded plans that search the index (R53). -/
def driftRoom (s : State) (x : Index) : Nat :=
  (s.bay.plans.filter (fun p => p.index == some x.num && (p.kind == .search || p.kind == .encodeSearch || p.kind == .rerank))).foldl
    (fun m p => min m p.params.maxDrift) x.params.driftLimit

/-- The slot of a vector with its tail (R49). -/
def fullSlot (p : IndexParams) (e : InsertEntry) (n : Nat) : Bytes :=
  if slotBytes p == 0 then [] else (slotData p e).take (slotBytes p - 8) ++ natLe 8 (n + 2 ^ 40)

/-- The drift entry of an inserted vector (R48, R51). -/
def driftEntry (p : IndexParams) (seq : Nat) (e : InsertEntry) : DriftEntry :=
  let n := vidLocal (insVid e.head)
  let a := insNumeric e.head
  { seq := seq, id := n, tag := insTag e.head, numeric := if p.atype == 2 && a == 0x80000000 then 0 else a,
    code := e.code % 2 ^ p.w, slot := fullSlot p e n }

/-- Bytes of a rerank slot put at a place of a structure in DRAM (R50). -/
def writeSlot (x : Index) (k : IndexPart) (s : State) (e : Nat × Bytes) : State :=
  if x.params.rfmt == 0 then s else pageWrite s (placeAddr x k e.1) e.2

/-- Slots of drift entries in the drift rerank buffer, at position s mod (drift limit) (R50, R51). -/
def writeDriftSlots (s : State) (x : Index) (es : List DriftEntry) : State :=
  es.foldl (fun st e => writeSlot x .driftBuffer st (e.seq % x.params.driftLimit, e.slot)) s

/-- RESULT of a refusal that names an entry (R276). -/
def refusalResult (i : Nat) : Nat := 2 ^ 63 + i % 65536

/-- Command checks of INSERT and DELETE (R276): ST_OK when the index takes the command. -/
def indexStatus (s : State) (n : Nat) : Nat :=
  match indexAt s n with
  | none => stNotFound
  | some x => if indexBusy x then stNsBusy else stOk

/-- Local IDs put into an ascending map. -/
def addIds (ns xs : List Nat) : List Nat := insertAllAsc ns xs

/-- INSERT: all or nothing; the entries are appended, their slots stand in the drift rerank buffer, and they are found from the command's
completion on, which follows the journal (R36, R50, R51, R53, R55, R276, R363). -/
def execInsert (q cid : Nat) (block : Bytes) (s : State) : Host.Outcome State Fault Refusal :=
  .next (withIo s q cid 0x05 (fun s c =>
    let n := cmdIndex c.sqe
    let st := indexStatus s n
    if st != stOk then endCmd s q c st 0
    else
      match indexAt s n with
      | none => s
      | some x =>
        let es := (List.range (cmdCount c.sqe)).map (cutInsert x.params block)
        if block.length < insertStride x.params * cmdCount c.sqe then
          endCmd (updLinkCounters s (bayOfQueue s q) (fun k => { k with hostFaults := wrapAdd 64 k.hostFaults 1 })) q c stHostFault 0
        else
        match firstBadEntry x es [] 0 with
        | some (bad, i) => endCmd s q c bad (refusalResult i)
        | none =>
          if driftRoom s x < driftL x + es.length then endCmd s q c stDriftFull 0
          else if maskAtLevel s x.params.groups 1 then endCmd s q c stCapacitySpare 0
          else
            let new := (es.zip (List.range es.length)).map (fun e => driftEntry x.params (x.tail + e.2) e.1)
            updIndex (writeDriftSlots (startCmd s q c (fun d => { d with result := es.length })) x new) n (fun y => { y with
              drift := y.drift ++ new, tail := y.tail + es.length, presence := addIds (new.map (fun e => e.id)) y.presence,
              journal := y.journal ++ [{ entries := new, kerfs := [], q := q, cid := c.cid, ready := now s }] })))

/-- Local IDs of a DELETE whose kerf bit changes (R37). -/
def kerfChanges (x : Index) (ids : List Word64) : List Nat :=
  ((ids.map vidLocal).eraseDups).filter (fun n => localOk x.params n && x.presence.contains n && !x.kerf.contains n)

/-- DELETE: the kerf bits are set at once; the completion follows the journal (R37, R55, R276). -/
def execDelete (q cid : Nat) (ids : List Word64) (s : State) : Host.Outcome State Fault Refusal :=
  .next (withIo s q cid 0x06 (fun s c =>
    let n := cmdIndex c.sqe
    let ids := ids.take (cmdCount c.sqe)
    let st := indexStatus s n
    if st != stOk then endCmd s q c st 0
    else if ids.length < cmdCount c.sqe then
      endCmd (updLinkCounters s (bayOfQueue s q) (fun k => { k with hostFaults := wrapAdd 64 k.hostFaults 1 })) q c stHostFault 0
    else
      match indexAt s n with
      | none => s
      | some x =>
        match ids.findIdx? (fun v => vidIndex v != n || vidRsvd v != 0) with
        | some i => endCmd s q c stInvalidField (refusalResult i)
        | none =>
          let ks := kerfChanges x ids
          updIndex (startCmd s q c (fun d => { d with result := ks.length })) n (fun y => { y with
            kerf := addIds ks y.kerf, journal := y.journal ++ [{ entries := [], kerfs := ks, q := q, cid := c.cid, ready := now s }] })))

/-- The oldest journal record of a command that is not in flash is there now (R55). -/
def markDurable (q cid : Nat) (x : Index) : Index :=
  { x with journal := updateFirst (fun r => r.q == q && r.cid == cid && !r.durable) (fun r => { r with durable := true }) x.journal }

/-- The journal write of a command has not begun: BE work has been held since before its record was ready (R277, R352). -/
def journalHeld (s : State) (q cid : Nat) : Bool :=
  beHeld s && s.indexes.any (fun x => (x.journal.find? (fun r => r.q == q && r.cid == cid && !r.durable)).any (fun r =>
    s.power.heldSince.any (fun t => t ≤ r.ready)))

/-- JOURNAL_WRITE_DONE: the change is durable, and the completion is posted, except for a command whose queue pair a reset took away, which
runs to its end all the same; the write is BE work (R55, R135, R243, R277, R304, R352). -/
def execJournalWriteDone (q cid : Nat) (s : State) : Host.Outcome State Fault Refusal :=
  .next
    (if journalHeld s q cid then s else
     match runningCmd s q cid with
     | none => { s with indexes := s.indexes.map (markDurable q cid) }
     | some c =>
       if !startedUpdate c then s
       else
         let s1 := updIndex s (cmdIndex c.sqe) (markDurable q cid)
         progressCtx (postCompletion s1 q cid stOk c.result) (ctxOfQueue s q))

/-! Firn merge (R58 to R64). -/

/-- Round size (R58). -/
def mergeRound (e : BitVec 512) : Nat := if field e 96 21 == 0 then 65536 else field e 96 21

/-- The drift list is merged (R58). -/
def driftMerged (x : Index) : Bool := driftBase x == x.tail

/-- A FIRN_MERGE is over: its rounds are used up, or nothing is left to merge after at least the rounds its mode needs; entries inserted
meanwhile do not carry it past the last version number (R58, R62; log entry 97). -/
def mergeOver (x : Index) (m : MergeState) : Bool :=
  (m.maxRounds != 0 && m.maxRounds ≤ m.raised) || (driftMerged x && (!m.sweep || m.raised != 0)) || x.version == 0xFFFFFFFF

/-- Rounds that a FIRN_MERGE needs as the drift list stands: those that merge it, at least one in SWEEP mode, at most its maximum (R58,
R62). -/
def roundsNeeded (x : Index) (sweep : Bool) (round maxRounds : Nat) : Nat :=
  let n := max (if sweep then 1 else 0) (ceilDiv (x.tail - driftBase x) round)
  if maxRounds == 0 then n else min n maxRounds

/-- FIRN_MERGE in a mode (R34, R56, R58, R64, R254, R363). -/
def firnMerge (sweep : Bool) (cid : Nat) (s : State) : State :=
  withAdmin s cid 0x8E (fun s c =>
    if flag c.sqe 92 != sweep then s
    else
      let n := field c.sqe 64 12
      let ctx := field c.sqe 80 12
      let round := mergeRound c.sqe
      if round < 4096 || 2 ^ 20 < round || round % 4096 != 0 then endCmd s adminQ c stInvalidField 0
      else
        match indexAt s n, ctxAt s ctx with
        | some x, some _ =>
          if indexBusy x || merging x then endCmd s adminQ c stNsBusy 0
          else if 0xFFFFFFFF < x.version + roundsNeeded x sweep round (field c.sqe 128 32) then endCmd s adminQ c stInvalidField 0
          else if !sweep && maskAtLevel s x.params.groups 2 then endCmd s adminQ c stCapacitySpare 0
          else
            let m : MergeState := { cid := c.cid, ctx := ctx, sweep := sweep, round := round, maxRounds := field c.sqe 128 32 }
            let s1 := updIndex (startCmd s adminQ c) n (fun y => { y with merge := some m })
            if mergeOver x m then endMerge s1 n (some stOk) else s1
        | _, _ => endCmd s adminQ c stNotFound 0)

/-- FIRN_MERGE_DRIFT (R58, R59). -/
def execFirnMergeDrift (cid : Nat) (s : State) : Host.Outcome State Fault Refusal := .next (firnMerge false cid s)
/-- FIRN_MERGE_SWEEP (R58, R62). -/
def execFirnMergeSweep (cid : Nat) (s : State) : Host.Outcome State Fault Refusal := .next (firnMerge true cid s)

/-- Order of neighbours: distance, then local ID (R41). -/
def nearOrder (w code : Nat) (codeOf : Nat → Nat) (ns : List Nat) : List Nat :=
  (sortBy (fun (a b : Nat × Nat) => decide (a.1 < b.1) || (a.1 == b.1 && decide (a.2 < b.2)))
    (ns.map (fun n => (popCount w (Nat.xor code (codeOf n)), n)))).map (fun e => e.2)

/-- Code of a node of a list, 0 for none. -/
def codeIn (nodes : List Node) (n : Nat) : Nat :=
  match nodes.find? (fun y => y.id == n) with
  | some y => y.code
  | none => 0

/-- A new node for a merged drift entry; which neighbours firn merge selects is open (R59; log entry 9): members of the graph,
none kerfed, at most the degree, in the order of R41. -/
def newNode (p : IndexParams) (k v : Nat) (bad : List Nat) (nodes : List Node) (e : DriftEntry) : Node :=
  let ns := (Config.neighbourChoice k e.id).eraseDups.filter (fun n => n != e.id && !bad.contains n && nodes.any (fun y => y.id == n))
  { id := e.id, version := v, code := e.code, tag := e.tag, numeric := e.numeric,
    nbrs := (nearOrder p.w e.code (codeIn nodes) ns).take p.degree }

/-- Reverse edges from new nodes, kept by distance up to the degree (R59). -/
def addReverse (p : IndexParams) (v : Nat) (nodes fresh : List Node) (y : Node) : Node :=
  let back := (fresh.filter (fun n => n.id != y.id && n.nbrs.contains y.id && !y.nbrs.contains n.id)).map (fun n => n.id)
  if back == [] then y
  else { y with nbrs := (nearOrder p.w y.code (codeIn nodes) (y.nbrs ++ back)).take p.degree, version := v }

/-- A record rewritten in version v: kerfed neighbours are dropped, which sets REPAIRED (R38, R59). -/
def rewriteNode (v : Nat) (bad : List Nat) (y : Node) : Node :=
  let ns := y.nbrs.filter (fun n => !bad.contains n)
  { y with version := v, nbrs := ns, repaired := y.repaired || ns.length != y.nbrs.length }

/-- Records of lost pairs are neither read nor rewritten: they stay as they are (R59). -/
def inLost (lost : List Nat) (n : Nat) : Bool := lost.contains (n / 2)

/-- Hubs of a version: H members of the graph, all of them in a smaller graph; the choice among those that are not kerfed comes first, the
lowest others of them fill it up, and kerfed nodes stand in only where those are too few (R45, R62; log entry 9). -/
def chooseHubs (p : IndexParams) (k : Nat) (bad : List Nat) (nodes : List Node) : List Hub :=
  let all := nodes.map (fun y => y.id)
  let ids := all.filter (fun n => !bad.contains n) ++ all.filter (fun n => bad.contains n)
  let pick := (Config.hubChoice k).eraseDups.filter (fun n => all.contains n && !bad.contains n)
  let hs := (pick ++ ids.filter (fun n => !pick.contains n)).take p.hubs
  (hs.zip (List.range hs.length)).map (fun e =>
    { id := e.1, code := codeIn nodes e.1,
      links := ((Config.hubLinks k e.2).eraseDups.filter (fun h => h < hs.length && h != e.2)).take 32 })

/-- The entry-point list of a version: 16 to 64 nodes, or every node of a graph of fewer than 16; kerfed nodes stand in only where the
others are too few. An index with hubs has one too, for plans with HUB_HOPS = 0 (R45, R62, R70; log entry 9). -/
def chooseEntries (k : Nat) (bad : List Nat) (nodes : List Node) : List Nat :=
  let all := nodes.map (fun y => y.id)
  let ids := all.filter (fun n => !bad.contains n) ++ all.filter (fun n => bad.contains n)
  let pick := ((Config.hubChoice k).eraseDups.filter (fun n => all.contains n && !bad.contains n)).take 64
  if all.length < 16 then all
  else if 16 ≤ pick.length then pick
  else (pick ++ ids.filter (fun n => !pick.contains n)).take 16

/-- Flags HUB and ENTRY follow the selection; ENTRY marks entry points of an index without hubs (R38, R45). -/
def flagNode (v : Nat) (hubs entries : List Nat) (y : Node) : Node :=
  let h := hubs.contains y.id
  let e := entries.contains y.id
  if y.hub == h && y.entry == e then y else { y with hub := h, entry := e, version := v }

/-! Places on flash (R44, R59, R358). -/

/-- Unit numbers of a logical block of a die (R357). -/
def blockUnits (b : Nat) : List Nat := (List.range Config.unitsPerBlock).map (fun i => Config.unitsPerBlock * b + i)

/-- Brace stripes that hold units: those of every map of an index, and of lost units (R358, R359). -/
def heldStripes (s : State) : List (Nat × Nat × Nat) :=
  let of := fun (v : Version) => (v.nodeMap ++ v.rerankMap).map (fun e => (e.2.channel / 8, e.2.die, e.2.unit))
  ((s.indexes.flatMap (fun (x : Index) => (x.versions ++ (x.merge.bind (fun m => m.building)).toList).flatMap of)) ++
    s.health.lostUnits.map (fun (u : Nat × Nat × Nat) => (u.1 / 8, u.2.1, u.2.2))).eraseDups

/-- Brace stripes that are not free: those that hold units, and those of logical blocks that found no spare (R358, R359, R362). -/
def usedStripes (s : State) : List (Nat × Nat × Nat) :=
  heldStripes s ++ s.health.dies.flatMap (fun v => v.removed.flatMap (fun b => (blockUnits b).map (fun u => (v.channel / 8, v.die, u))))

/-- A free stripe of a group: its die and unit number, the first from a free value on that is not in use (R59; log entry 5). -/
def freeStripe (s : State) (used : List (Nat × Nat × Nat)) (g start : Nat) : Nat × Nat :=
  let n := max 1 s.sec.order.dies
  let at_ := fun (j : Nat) => ((start + j) % n, (start + j) / n % 2 ^ 30)
  at_ ((firstFrom (fun j => !used.contains (g, at_ j)) (used.length + 1) 0).getD 0)

/-- Places for n read units: whole brace stripes of free flash, the index's groups in turn (R59, R358; log entry 5). -/
def placeStripes (s : State) (p : IndexParams) : Nat → List (Nat × Nat × Nat) → List UnitLoc
  | 0, _ => []
  | k + 1, used =>
    let gs := setBits p.groups
    let g := nthNat gs (k % max 1 gs.length)
    let u := freeStripe s used g (Config.freeValue (s.free + k)).toNat
    stripeUnits g u.1 u.2 ++ placeStripes s p k ((g, u) :: used)

/-- A map with some units at new places and others unmapped (R44, R59, R62). -/
def moveUnits (m : List (Nat × UnitLoc)) (placed : List (Nat × UnitLoc)) (gone : List Nat) : List (Nat × UnitLoc) :=
  placed.foldl (fun acc e => putKey acc e.1 e.2) (m.filter (fun e => !gone.contains e.1))

/-- The lowest n places that are not in use (log entry 19). -/
def lowestPlaces : Nat → List Nat → List Nat
  | 0, _ => []
  | n + 1, used =>
    let k := (firstFrom (fun j => !used.contains j) (used.length + 1) 0).getD 0
    k :: lowestPlaces n (k :: used)

/-- Leaves of a version: those of changed units are copied to new places, a leaf without an entry has none, the others are shared with the
version before (R44). -/
def copyLeaves (used : List Nat) (old : List (Nat × Nat)) (changed : List Nat) (map : List (Nat × UnitLoc)) : List (Nat × Nat) :=
  let ls := (changed.map (fun u => u / 512)).eraseDups
  let live := ls.filter (fun l => map.any (fun e => e.1 / 512 == l))
  (live.zip (lowestPlaces live.length used)).foldl (fun acc e => putKey acc e.1 e.2) (old.filter (fun e => !ls.contains e.1))

/-- The graph that a round builds over version v0, from the entries it merges, without the nodes it drops; every changed record carries the
new version (R59, R62). -/
def buildNodes (s : State) (x : Index) (v0 : Version) (sweep : Bool) (merged : List DriftEntry) (dropped : List Nat) : List Node :=
  let p := x.params
  let v := v0.num + 1
  let bad := x.kerf
  let kept := v0.nodes.filter (fun y => !dropped.contains y.id)
  let routable := kept.filter (fun y => !inLost x.lost y.id)
  let fresh := merged.map (newNode p s.free v bad (routable ++ merged.map (fun e =>
    ({ id := e.id, version := v, code := e.code, nbrs := [] } : Node))))
  let all := kept ++ fresh
  -- the out-neighbours of nodes kerfed since the previous round are rewritten too (R59)
  let newly := bad.filter (fun n => !x.checkpoint.snapshot.contains n)
  let outs := (v0.nodes.filter (fun y => newly.contains y.id)).flatMap (fun y => y.nbrs)
  kept.map (fun y =>
    if inLost x.lost y.id then y
    else
      let z := addReverse p v all fresh y
      if outs.contains y.id || (sweep && y.nbrs.any (fun n => bad.contains n)) then { z with version := v } else z) ++ fresh

/-- The version that a round builds: graph, hubs, entry points, maps with their leaves and roots, and drift base T_s (R44, R45, R59,
R62). -/
def buildVersion (s : State) (x : Index) (v0 : Version) (m : MergeState) (ts : Nat) (merged : List DriftEntry) (dropped : List Nat) : Version :=
  let p := x.params
  let v := v0.num + 1
  let ns := buildNodes s x v0 m.sweep merged dropped
  let hubs := if p.hubs == 0 then [] else chooseHubs p s.free x.kerf ns
  let entries := chooseEntries s.free x.kerf ns
  let flagged := ns.map (fun y => if inLost x.lost y.id then y
    else flagNode v (hubs.map (fun h => h.id)) (if p.hubs == 0 then entries else []) y)
  -- a rewritten read unit carries both records of its pair, one that loses a record of a sweep too, and each record rewritten is repaired (R42,
  -- R59, R62)
  let half := (dropped.filter (fun n => (nodeAt v0 n).isSome)).map (fun n => n / 2)
  let pairs := ((flagged.filter (fun y => y.version == v || half.contains (y.id / 2))).map (fun y => y.id / 2)).eraseDups
  let nodes := flagged.map (fun y => if (if p.dramTier then y.version == v else pairs.contains (y.id / 2)) then rewriteNode v x.kerf y else y)
  let emptied := (v0.nodeMap.map (fun e => e.1)).filter (fun q => !nodes.any (fun y => y.id / 2 == q))
  let slots := if p.flashDirect then (merged.map (fun e => e.id / slotsPerUnit p)).eraseDups else []
  let unmapped := (v0.rerankMap.filter (fun e => m.sweep && s.health.lostUnits.contains (e.2.channel, e.2.die, e.2.unit))).map (fun e => e.1)
  let written := if p.dramTier then [] else pairs
  let places := placeStripes s p (ceilDiv (written.length + slots.length) 7) (usedStripes s)
  let nodeMap := if p.dramTier then [] else moveUnits v0.nodeMap (written.zip places) emptied
  let rerankMap := moveUnits v0.rerankMap (slots.zip (places.drop written.length)) unmapped
  let used := fun (f : Version → List Nat) => (x.versions.flatMap f).eraseDups
  { num := v, driftBase := ts, nodes := nodes, hubs := hubs, entries := entries, nodeMap := nodeMap, rerankMap := rerankMap,
    nodeRoot := if p.dramTier then 0 else nthNat (lowestPlaces 1 (used (fun y => [y.nodeRoot]))) 0,
    nodeLeaves := copyLeaves (used (fun y => y.nodeLeaves.map (fun e => e.2))) v0.nodeLeaves (written ++ emptied) nodeMap,
    rerankRoot := if p.flashDirect then nthNat (lowestPlaces 1 (used (fun y => [y.rerankRoot]))) 0 else 0,
    rerankLeaves := copyLeaves (used (fun y => y.rerankLeaves.map (fun e => e.2))) v0.rerankLeaves (slots ++ unmapped) rerankMap,
    hubPlace := if hubs == v0.hubs then v0.hubPlace else nthNat (lowestPlaces 1 (used (fun y => [y.hubPlace]))) 0 }

/-- Regions that a version needs beyond those of its index, for places that do not fit them (R44, R45; log entry 96). -/
def moreParts (s : State) (x : Index) (b : Version) : List PartRegion :=
  let want := pooledParts.filterMap (fun k =>
    let z := placeBytes x.params k
    let room := sumOf ((partRegions x k).map (placesIn z))
    let need := maxOf ((placesOf b k).map (fun n => n + 1))
    if need ≤ room || z == 0 then none else some (k, ceilDiv ((need - room) * z) pageBytes))
  (want.foldl (fun (acc : List PartRegion × List (Nat × Nat)) w =>
    let base := placeAmong s acc.2 w.2 1
    (acc.1 ++ [{ part := w.1, base := base, pages := w.2 }], (base, w.2) :: acc.2))
    ([], s.bay.regions.map (fun r => (r.base, r.pages)))).1

/-- The tail snapshot T_s of a round over version v0 (R59). -/
def roundTail (x : Index) (m : MergeState) (v0 : Version) : Nat := min x.tail (v0.driftBase + m.round)

/-- Drift entries that a round covers (R59). -/
def roundEntries (x : Index) (m : MergeState) (v0 : Version) : List DriftEntry :=
  x.drift.filter (fun e => v0.driftBase ≤ e.seq && e.seq < roundTail x m v0)

/-- Nodes that a round drops: none but in a sweep, which drops kerfed nodes and those of lost read units (R61, R62). -/
def roundDrops (x : Index) (m : MergeState) (v0 : Version) : List Nat :=
  if m.sweep then
    let kerfed := (v0.nodes.map Node.id).filter (fun n => x.kerf.contains n)
    (kerfed ++ x.lost.flatMap (fun p => [2 * p, 2 * p + 1])).eraseDups
  else []

/-- The version that a round builds over version v0 (R59). -/
def roundVersion (s : State) (x : Index) (m : MergeState) (v0 : Version) : Version :=
  buildVersion s x v0 m (roundTail x m v0) ((roundEntries x m v0).filter (fun e => !x.kerf.contains e.id)) (roundDrops x m v0)

/-- FIRN_ROUND_START: snapshot of tail and kerf map, and the next version built over the current one, which stays as it is. Its copies take
DRAM of the module; where too little is free the round does not start, nor while BE work is held (R59, R62, R352; log entry 96). -/
def execFirnRoundStart (index : Nat) (s : State) : Host.Outcome State Fault Refusal :=
  .next
    (match indexAt s index with
     | none => s
     | some x =>
       match x.merge, versionAt x x.version with
       | some m, some v0 =>
         if m.building.isSome || mergeOver x m || beHeld s then s
         else
           let inRound := roundEntries x m v0
           let skipped := inRound.filter (fun e => x.kerf.contains e.id)
           let b := roundVersion s x m v0
           let more := moreParts s x b
           let pages := sumOf (more.map (fun r => r.pages))
           if more != [] && (freeDram s < pages || !leavesFit s pages (leavesFor s more) || more.any (fun r => r.base == 0)) then s
           else
             let s1 := more.foldl (fun st r => createRegion st (partRegion x.params r)) s
             updIndex { s1 with free := s.free + 2 * b.nodes.length + 1 } index (fun y => { y with
               parts := y.parts ++ more,
               merge := some { m with building := some b, merged := inRound.length - skipped.length,
                                      skipped := skipped.map (fun e => e.id), dropped := roundDrops x m v0, snapshot := x.kerf, lostPairs := if m.sweep then x.lost else [],
                                      lostAt := if m.sweep then s.health.lostUnits else [] } })
       | _, _ => s)

/-- Rerank slots of merged entries on flash (R59). -/
def storeSlots (x : Index) (es : List DriftEntry) : List (Nat × Bytes) :=
  if x.params.rfmt == 0 then x.store else es.foldl (fun l e => putKey l e.id e.slot) x.store

/-- Rerank slots put into the store of placement DRAM, at the place of the local ID (R50). -/
def writeStore (s : State) (x : Index) (es : List (Nat × Bytes)) : State :=
  if x.params.flashDirect then s else es.foldl (writeSlot x .store) s

/-- Journal records that a raise leaves: changes not yet in the version or its checkpoint (R55). -/
def truncateJournal (ts : Nat) (j : List JRec) : List JRec :=
  (j.map (fun (r : JRec) => { r with
    entries := r.entries.filter (fun e => ts ≤ e.seq), kerfs := if r.durable then [] else r.kerfs, freed := [] })).filter
    (fun r => !r.durable || r.entries != [] || r.kerfs != [])

/-- INDEX_VERSION_RAISE: at the raise tick the current version becomes v + 1, in one instant; the slots of the merged entries stand in the
rerank store. The tick is after that of every decision made: a query decided at the raise tick takes the new version (R50, R55, R57, R60, R61,
R62, R136; log entry 122). The checkpoint keeps the presence bits of INSERTs whose journal record is not in flash yet, which the manual leaves
open (R56; DESIGN CHOICE, log entry 127). -/
def execIndexVersionRaise (index : Nat) (s : State) : Host.Outcome State Fault Refusal :=
  .next
    (match indexAt s index with
     | none => s
     | some x =>
       match x.merge with
       | none => s
       | some m =>
         match m.building with
         | none => s
         | some b =>
           let old := driftBase x
           let es := x.drift.filter (fun e => old ≤ e.seq && e.seq < b.driftBase && !m.skipped.contains e.id)
           let gone := (m.skipped ++ m.dropped).eraseDups
           let m1 := { m with building := none, raised := m.raised + 1, merged := 0, skipped := [], dropped := [], snapshot := [],
                              lostPairs := [], lostAt := [] }
           let y := { x with
             version := b.num,
             versions := x.versions.map (fun (v : Version) => if v.num == x.version then { v with reclaim := gone } else v) ++ [b],
             mergedTotal := x.mergedTotal + m.merged, store := storeSlots x es, journal := truncateJournal b.driftBase x.journal,
             checkpoint := { kerf := x.kerf, presence := x.presence, version := b.num, tail := x.tail, snapshot := m.snapshot },
             lost := x.lost.filter (fun q => !m.lostPairs.contains q), merge := some m1 }
           let s := if (queriesOn s index).any (fun q => q.decided == now s) then advanceTo s (now s + 1) else s
           let s1 := writeStore (updIndex s index (fun _ => y)) y (es.map (fun e => (e.id, e.slot)))
           -- the sweep clears the lost entries that it found at its start (R359)
           let mine := fun (u : Nat × Nat × Nat) => m.lostAt.contains u && x.versions.any (fun v =>
             (v.nodeMap ++ v.rerankMap).any (fun e => e.2.channel == u.1 && e.2.die == u.2.1 && e.2.unit == u.2.2))
           let s2 := { s1 with health := { s1.health with lostUnits := s1.health.lostUnits.filter (fun u => !mine u) } }
           if mergeOver y m1 then endMerge s2 index (some stOk) else s2)

/-- Local IDs kerfed by MGMT through the index journal for a lost read unit (R359). -/
def kerfByModule (s : State) (index : Nat) (ns : List Nat) : State :=
  updIndex s index (fun y =>
    let ks := ns.filter (fun n => n < y.params.nCap && !y.kerf.contains n)
    { y with kerf := addIds ks y.kerf, journal := y.journal ++ [{ entries := [], kerfs := ks, q := adminQ, cid := 0, durable := true }] })

/-- Local IDs whose rerank slots a read unit holds (R50). -/
def slotIds (p : IndexParams) (u : Nat) : List Nat := (List.range (slotsPerUnit p)).map (fun i => slotsPerUnit p * u + i)

/-- A flash channel and die as the UNIT of a log entry: channel in [6:0], die in [10:8] (R369; log entry 36). -/
def dieUnit (channel die : Nat) : Nat := channel + 256 * die

/-- Sectors of FLASH pages whose home a read unit holds, by device-range address (R217, R224, R359). -/
def unitSectors (s : State) (channel die unit : Nat) : List Nat :=
  (s.tier.homes.filter (fun h => h.group == channel / 8)).flatMap (fun h =>
    ((List.range 64).filter (fun i => Config.slotUnit h.group (h.slot + i) == (channel % 8, die, unit))).map (fun i => pageBytes * h.page + 4096 * i))

/-- Pairs, or rerank read units, of an index's current version that a read unit holds (R44, R50). -/
def unitPairs (x : Index) (channel die unit : Nat) : List Nat :=
  ((versionAt x x.version).map (fun v => (v.nodeMap.filter (fun e => e.2 == ⟨channel, die, unit⟩)).map (fun e => e.1))).getD []
def unitSlots (x : Index) (channel die unit : Nat) : List Nat :=
  ((versionAt x x.version).map (fun v => (v.rerankMap.filter (fun e => e.2 == ⟨channel, die, unit⟩)).map (fun e => e.1))).getD []

/-- DETAIL of FLASH_UE_LOST: the unit, then the index and the lowest local ID it holds, or the page (R375; log entry 36). -/
def lostDetail (s : State) (channel die unit : Nat) : Nat :=
  let second := (s.indexes.findSome? (fun x =>
      (((unitPairs x channel die unit).map (fun p => 2 * p) ++ (unitSlots x channel die unit).map (fun u => slotsPerUnit x.params * u)).head?).map
        (fun n => x.num * 2 ^ 40 + n))).orElse (fun _ => ((unitSectors s channel die unit).head?).map (fun a => a / pageBytes))
  unit + second.getD 0 * 2 ^ 64

/-- A read unit holds data that no other copy has: of an index, or of a FLASH page. The rest are module structures, kept in two copies (R359). -/
def soleCopy (s : State) (channel die unit : Nat) : Bool :=
  s.indexes.any (fun x => unitPairs x channel die unit != [] || unitSlots x channel die unit != []) || unitSectors s channel die unit != []

/-- A read unit that could not be rebuilt is logged. One of an index or a FLASH page enters the lost-unit table: the index units at that place
lose their vectors, and the blocks of a page's sectors are poisoned at its home. Any other holds module structures, and is restored from their
second copy (R359). -/
def loseUnit (s : State) (channel die unit : Nat) : State :=
  let s1 := logError s errFlashLost (dieUnit channel die) (lostDetail s channel die unit)
  if !soleCopy s channel die unit then s1
  else
  let poison := (unitSectors s channel die unit).flatMap (fun a => (List.range 64).map (fun i => a + 64 * i))
  let s2 := { s1 with
    health := { s1.health with lostUnits := s1.health.lostUnits.filter (fun e => e != (channel, die, unit)) ++ [(channel, die, unit)] },
    tier := { s1.tier with flashPoison := insertAllAsc poison s1.tier.flashPoison } }
  s2.indexes.foldl (fun st x =>
    match versionAt x x.version with
    | none => st
    | some _ =>
      let pairs := unitPairs x channel die unit
      let units := unitSlots x channel die unit
      let st1 := if pairs == [] then st
        else kerfByModule (updIndex st x.num (fun y => { y with lost := addIds pairs y.lost })) x.num
          (pairs.flatMap (fun p => [2 * p, 2 * p + 1]))
      if units == [] then st1 else kerfByModule st1 x.num (units.flatMap (slotIds x.params))) s2

/-- FIRN_ROUND_CUTOFF: the running round leaves no trace; the command completes by the cause, or not at all (R59, R63, R359). -/
def execFirnRoundCutoff (index : Nat) (cause : CutoffCause) (s : State) : Host.Outcome State Fault Refusal :=
  .next
    (match indexAt s index with
     | none => s
     | some x =>
       if !merging x then s
       else
         match cause with
         | .mediaUe channel die unit =>
           if channel < 128 && die < s.sec.order.dies then endMerge (loseUnit s channel die unit) index (some stMediaUe) else s
         | .reclaim => endMerge s index (some stContextEnded)
         | .contextFault => endMerge s index (some stContextEnded)
         | .reset => endMerge s index none
         | .powerLoss => endMerge s index none)

/-- A drift list in which the entries of some local IDs are no longer valid (R101). -/
def invalidate (ids : List Nat) (es : List DriftEntry) : List DriftEntry :=
  es.map (fun (e : DriftEntry) => if ids.contains e.id then { e with valid := false } else e)

/-- VERSION_RELEASE: a version that is no longer current and has no pinned query gives up its structures; drift blocks below
every remaining base go, and the local IDs that its raise removed are reclaimed, their drift entries invalidated first. The journal
records what is reclaimed (R55, R61, R101). -/
def execVersionRelease (index version : Nat) (s : State) : Host.Outcome State Fault Refusal :=
  .next
    (match indexAt s index with
     | none => s
     | some x =>
       match versionAt x version with
       | none => s
       | some v =>
         if version == x.version || (queriesOn s index).any (fun y => y.version == version) then s
         else
           let rest := x.versions.filter (fun y => y.num != version)
           let low := (rest.map (fun y => y.driftBase / 4096 * 4096)).foldl min x.tail
           let ids := v.reclaim.filter (fun n => x.presence.contains n || x.kerf.contains n)
           trimParts (updIndex s index (fun y => { y with
             versions := rest,
             drift := invalidate ids (y.drift.filter (fun e => low ≤ e.seq)),
             journal := if ids == [] then y.journal
               else y.journal ++ [{ entries := [], kerfs := [], freed := ids, q := adminQ, cid := 0, durable := true }],
             kerf := y.kerf.filter (fun n => !ids.contains n), presence := y.presence.filter (fun n => !ids.contains n),
             store := y.store.filter (fun e => !ids.contains e.1),
             reclaimedTotal := y.reclaimedTotal + ids.length })) index)

/-- INDEX_REPLAY_DONE: rerank store and drift rerank buffer stand in DRAM again, from the flash copy and the journal, and commands and
queries naming the index are accepted again (R50, R55, R56). -/
def execIndexReplayDone (index : Nat) (s : State) : Host.Outcome State Fault Refusal :=
  .next
    (match indexAt s index with
     | none => s
     | some x =>
       if !x.replaying then s
       else updIndex (writeDriftSlots (writeStore s x x.store) x x.drift) index (fun y => { y with replaying := false }))

/-- One journal record carried out again: entries, kerf changes, and local IDs reclaimed (R55, R61). -/
def replayRecord (x : Index) (r : JRec) : Index :=
  let gone := fun (n : Nat) => r.freed.contains n
  { x with
    drift := invalidate r.freed x.drift ++ r.entries,
    kerf := (addIds r.kerfs x.kerf).filter (fun n => !gone n),
    presence := (addIds (r.entries.map (fun e => e.id)) x.presence).filter (fun n => !gone n) }

/-- What power-up finds of an index: its last version and checkpoint, with the durable journal over them; it replays until
INDEX_REPLAY_DONE. Older versions, which no query can be pinned to any more, are released with it, and what their raises removed is
reclaimed and counted (R55 to R57, R61, R63). An NS_DELETE that was accepted and had not completed is forgotten: what becomes of one at a
loss of main power the manual does not say (R34; log entry 97). -/
def restoreIndex (x : Index) : Index :=
  let j := x.journal.filter (fun r => r.durable)
  let vs := x.versions.filter (fun v => v.num == x.version)
  let y := j.foldl replayRecord { x with drift := [], kerf := x.checkpoint.kerf, presence := x.checkpoint.presence }
  let gone := ((x.versions.filter (fun v => v.num != x.version)).flatMap (fun v => v.reclaim)).eraseDups.filter
    (fun n => y.presence.contains n || y.kerf.contains n)
  let last : JRec := { entries := [], kerfs := [], freed := gone, q := adminQ, cid := 0, durable := true }
  let z := replayRecord y last
  { z with
    versions := vs, journal := if gone == [] then j else j ++ [last], merge := none, deleting := none, replaying := true,
    store := z.store.filter (fun e => !gone.contains e.1), reclaimedTotal := z.reclaimedTotal + gone.length,
    tail := z.drift.foldl (fun m e => max m (e.seq + 1)) (driftBase x) }

end Sys2Proof.Machine
end

