-- ==== Sys2Proof/Machine/Plan.lean ====
section
/-! DEFINITION. PLAN_LOAD and PLAN_UNLOAD: the plan image and its checks, the affinity order of arrays, and the resources a plan
takes (R65, R117, R139, R140, R165 to R173, R177, R178, R181, R201, R227, R228, R294, R299, R389). -/

namespace Sys2Proof.Machine

open Sys2Proof

/-! The image (R166). -/

/-- A plan image, read. -/
structure Image where
  bytes : Bytes
  /-- the 64-byte header, as a word -/
  hdr : BitVec 512
  deriving DecidableEq, Repr

/-- The image that begins with a header. -/
def imageOf (bs : Bytes) : Image := { bytes := bs, hdr := BitVec.ofNat 512 (leAt bs 0 64) }

def imCheck (m : Image) : Nat := field m.hdr 480 32
def imLen (m : Image) : Nat := field m.hdr 448 32
def imCutOff (m : Image) : Nat := field m.hdr 416 32
def imPegOff (m : Image) : Nat := field m.hdr 384 32
def imWeightOff (m : Image) : Nat := field m.hdr 352 32
def imProfileOff (m : Image) : Nat := field m.hdr 320 32
def imSearchOff (m : Image) : Nat := field m.hdr 288 32
def imRescaleOff (m : Image) : Nat := field m.hdr 256 32
def imCodeOff (m : Image) : Nat := field m.hdr 224 32
def imCutCount (m : Image) : Nat := field m.hdr 192 32
def imPegCount (m : Image) : Nat := field m.hdr 176 16
def imWeightCount (m : Image) : Nat := field m.hdr 160 16
def imArrays (m : Image) : Nat := field m.hdr 144 16
def imScratch (m : Image) : Nat := field m.hdr 96 32
def imWorst (m : Image) : Nat := field m.hdr 64 32
def imFepen (m : Image) : Nat := field m.hdr 48 16
def imIndex (m : Image) : Nat := field m.hdr 36 12
def imNoIndex (m : Image) : Bool := flag m.hdr 35
def imKind (m : Image) : Nat := field m.hdr 32 3
def imLcOk (m : Image) : Bool := flag m.hdr 31
def imFlashClass (m : Image) : Bool := flag m.hdr 30
def imSr (m : Image) : Bool := flag m.hdr 29
def imFmt (m : Image) : Nat := field m.hdr 16 8

/-- The kind of a KIND code (R166). -/
def kindOf (k : Nat) : Option PlanKind :=
  match k with
  | 0 => some .search
  | 1 => some .encode
  | 2 => some .encodeSearch
  | 3 => some .rerank
  | 4 => some .run
  | 5 => some .train
  | _ => none

/-- CRC-32C of the image with CHECK taken as 0 (R166). -/
def imageCrc (m : Image) : Nat := crc32c (m.bytes.take 60 ++ [0, 0, 0, 0] ++ m.bytes.drop 64)

/-- A word of n bytes at an offset of the image. -/
def imWord (m : Image) (off n : Nat) : Nat := leAt m.bytes off n

/-- Cut descriptor c (R171). -/
def cutWord (m : Image) (c : Nat) : BitVec 256 := BitVec.ofNat 256 (imWord m (imCutOff m + 32 * c) 32)
def cutOf (w : BitVec 256) : Cut :=
  { codeAddr := field w 224 32, codeLen := field w 192 32, worstNs := field w 160 32, waitPeg := field w 144 16, signalPeg := field w 128 16, waitValue := field w 96 32,
    stage := field w 94 2, firstLa := field w 72 8, nLa := field w 64 8, weightStart := field w 48 16 }

/-- Peg binding i (R172). -/
def pegWord (m : Image) (i : Nat) : Word64 := BitVec.ofNat 64 (imWord m (imPegOff m + 8 * i) 8)
def bindingOf (w : Word64) : PegBinding := { kind := field w 32 8, ref := field w 16 16, init := field w 0 16 }

/-- Weight object i (R181). -/
def weightWord (m : Image) (i : Nat) : BitVec 256 := BitVec.ofNat 256 (imWord m (imWeightOff m + 32 * i) 32)
def weightOf (w : BitVec 256) : WeightObj :=
  { addr := field w 0 47, bytes := field w 47 40, scaleAddr := field w 87 47, fmt := field w 134 4, sck := field w 138 2,
    gs := field w 140 2, hint := field w 142 2, pin := flag w 144, shared := flag w 145, arrival := field w 146 16,
    lead := field w 162 20 }

/-- The search parameter block (R169). -/
def searchWordOf (m : Image) : BitVec 256 := BitVec.ofNat 256 (imWord m (imSearchOff m) 32)
def searchParamsOf (w : BitVec 256) : SearchParams :=
  { k := field w 192 41, rerankDepth := field w 175 17, maxDrift := field w 148 27, maxReads := field w 132 16,
    maxHops := field w 124 8, hubHops := field w 117 7, beam := field w 111 6, beamMax := field w 105 6, slack := field w 98 7,
    metric := field w 96 2, rime := flag w 95, driftCells := field w 84 11 }

/-- The profile header (R170). -/
def profileWord (m : Image) : BitVec 256 := BitVec.ofNat 256 (imWord m (imProfileOff m) 32)
def profileSpan (w : BitVec 256) : Nat := field w 66 10

/-- Profile entry j (R170). -/
def profileEntry (m : Image) (j : Nat) : ProfileEntry :=
  let w : BitVec 128 := BitVec.ofNat 128 (imWord m (imProfileOff m + 32 + 16 * j) 16)
  { flash := field w 0 32, cellUs := field w 32 32, dram := field w 64 32, rime := field w 96 32 }

/-- The admission profile of an image, if it has one (R117, R170). -/
def profileOf (m : Image) : Option Profile :=
  if imProfileOff m == 0 then none
  else
    let w := profileWord m
    some { span := profileSpan w, tTail := field w 76 32, wT := field w 108 8, wD := field w 116 8, wR := field w 124 8,
           driftCu := field w 132 32, driftB := field w 164 16, streamB := field w 180 16, driftFirst := field w 196 10,
           driftLast := field w 206 10, entries := (List.range (profileSpan w)).map (profileEntry m) }

/-! Checks (R9, R65, R117, R139, R167, R178). -/

/-- A section lies in the image; one that is absent has offset 0 (R166; log entry 34). -/
def sectionOk (m : Image) (off n : Nat) : Bool := if n == 0 then off == 0 else 64 ≤ off && off + n ≤ imLen m

/-- Sections of the header (R166; log entry 34). -/
def sectionsOk (m : Image) : Bool :=
  1 ≤ imCutCount m && imCutCount m ≤ 1048576 && imPegCount m ≤ 4096 && imWeightCount m ≤ 4096 &&
  1 ≤ imArrays m && imArrays m ≤ 160 &&
  sectionOk m (imCutOff m) (32 * imCutCount m) && sectionOk m (imPegOff m) (8 * imPegCount m) &&
  sectionOk m (imWeightOff m) (32 * imWeightCount m) &&
  (imSearchOff m == 0 || sectionOk m (imSearchOff m) 32) &&
  (imProfileOff m == 0 || (sectionOk m (imProfileOff m) 32 &&
    sectionOk m (imProfileOff m) (32 + 16 * profileSpan (profileWord m)))) &&
  (imRescaleOff m == 0 || sectionOk m (imRescaleOff m) 8)

/-- A cut's code lies in the image, in its code section (R166, R171; log entry 34). -/
def codeOk (m : Image) (c : Cut) : Bool :=
  c.codeLen == 0 || (64 ≤ imCodeOff m && imCodeOff m ≤ c.codeAddr && c.codeAddr + c.codeLen ≤ imLen m)

/-- A cut descriptor is valid (R165, R171). -/
def cutOk (m : Image) (w : BitVec 256) : Bool :=
  let c := cutOf w
  field w 80 14 == 0 && field w 0 48 == 0 && 1 ≤ c.worstNs && c.worstNs ≤ 200000 && c.stage != 3 &&
  (c.waitPeg == 0xFFFF || c.waitPeg < imPegCount m) && (c.signalPeg == 0xFFFF || c.signalPeg < imPegCount m) &&
  1 ≤ c.nLa && c.firstLa + c.nLa ≤ imArrays m && (c.weightStart == 0xFFFF || c.weightStart < imWeightCount m) &&
  codeOk m c

/-- A peg binding is valid (R172). -/
def pegBindingOk (m : Image) (w : Word64) : Bool :=
  let b := bindingOf w
  field w 40 24 == 0 && b.kind ≤ 2 && (b.kind != 1 || b.ref < 16) && (b.kind != 2 || b.ref < imWeightCount m)

/-- Weight object i is valid: it has scale words exactly as its format takes them, and its reduction length is then a multiple of its
group size. No section that the manual lays out holds a reduction length, so it is read from the private parts of the image (R138 to
R140, R181; DESIGN CHOICE, log entry 104). -/
def weightOk (m : Image) (i : Nat) : Bool :=
  let w := weightWord m i
  let o := weightOf w
  field w 182 74 == 0 && o.addr % 4096 == 0 && o.scaleAddr % 64 == 0 && o.gs != 3 && o.sck != 3 && o.arrival < max 1 (imPegCount m) &&
  fmtScaled o.fmt (o.scaleAddr != 0) && (o.scaleAddr == 0 || Config.reductionLength m.bytes i % groupSize o.gs == 0)

/-- Search parameters lie in the ranges of R65 and R169; the index, when it exists, bounds K and the rerank. -/
def searchOk (x : Option Index) (w : BitVec 256) : Bool :=
  let p := searchParamsOf w
  field w 233 23 == 0 && field w 0 84 == 0 &&
  1 ≤ p.k && p.k ≤ 2 ^ 40 - 1 && (p.rerankDepth == 0 || (p.k ≤ p.rerankDepth && p.rerankDepth ≤ 65536)) &&
  4096 ≤ p.maxDrift && p.maxDrift ≤ 2 ^ 26 && p.maxDrift % 4096 == 0 && 1 ≤ p.maxReads && 1 ≤ p.maxHops &&
  p.hubHops ≤ 64 && 1 ≤ p.beam && p.beam ≤ 32 && p.beam ≤ p.beamMax && p.beamMax ≤ 32 && p.slack ≤ 64 && p.metric != 3 &&
  1 ≤ p.driftCells && p.driftCells ≤ 1024 &&
  (match x with
   | some i =>
     p.k ≤ i.params.nCap && (p.rerankDepth == 0 || i.params.rfmt != 0) && !(p.rime && i.params.flashDirect) &&
     !(i.params.flashDirect && p.maxReads ≤ p.rerankDepth)
   | none => true)

/-- The reserved fields of a profile are zero (R9, R170). -/
def profileRsvdOk (m : Image) : Bool := imProfileOff m == 0 || (field (profileWord m) 216 40 == 0 && field (profileWord m) 0 66 == 0)

/-- The profile holds what R117 and R170 ask. -/
def profileOk (m : Image) : Bool :=
  match profileOf m with
  | none => false
  | some f =>
    1 ≤ f.span && f.span ≤ 1000 && f.wT + f.wD + f.wR == 255 &&
    f.driftFirst ≤ f.driftLast && f.driftLast ≤ f.span - 1

/-- Header of the rescale table at an offset: channels, mode, bytes of the table (R177, R178). -/
def rescaleHeader (m : Image) (off : Nat) : Word64 := BitVec.ofNat 64 (imWord m off 8)
def rescaleChannels (h : Word64) : Nat := field h 8 16 + 1
def rescaleMode (h : Word64) : Nat := field h 0 2
def rescaleBytes (h : Word64) : Nat := 8 + (if rescaleMode h == 2 then 16 else 8) * rescaleChannels h

/-- Entry c of a MULSHIFT table at an offset is valid (table MULSHIFT entry). -/
def mulShiftOk (m : Image) (off c : Nat) : Bool :=
  let e : BitVec 128 := BitVec.ofNat 128 (imWord m (off + 8 + 16 * c) 16)
  field e 64 6 < 48 && field e 70 10 == 0 && field e 32 32 == 0

/-- Rescale table t, at an offset, is valid: MULSHIFT serves the integer path and an integer output (R177, R178). -/
def rescaleOk (m : Image) (t off : Nat) : Bool :=
  let h := rescaleHeader m off
  field h 24 40 == 0 && field h 2 2 == 0 && off + rescaleBytes h ≤ imLen m &&
  (rescaleMode h == 1 || (rescaleMode h == 2 && fmtIsInt (field h 4 4) && Config.tableIntegerPath m.bytes t &&
    (List.range (rescaleChannels h)).all (mulShiftOk m off)))

/-- Where the rescale tables end: the next section, or the end of the image (log entry 104). -/
def rescaleEnd (m : Image) : Nat :=
  ([imCutOff m, imPegOff m, imWeightOff m, imProfileOff m, imSearchOff m, imCodeOff m].filter (fun o => decide (imRescaleOff m < o))).foldl min (imLen m)

/-- The tables from an offset on follow one another, up to the next section or a header of zeros, which is padding (log entry 104). -/
def rescaleWalk (m : Image) : Nat → Nat → Nat → Bool
  | 0, _, _ => true
  | k + 1, t, off =>
    if rescaleEnd m < off + 8 || (t != 0 && rescaleHeader m off == 0) then true
    else rescaleOk m t off && rescaleWalk m k (t + 1) (off + rescaleBytes (rescaleHeader m off))

/-- The rescale tables of an image are valid (R167, R177, R178). -/
def rescalesOk (m : Image) : Bool := imRescaleOff m == 0 || rescaleWalk m (imLen m / 16) 0 (imRescaleOff m)

/-- The image passes the invalid-field checks of PLAN_LOAD (R9, R65, R167, R178). -/
def imageOk (m : Image) (x : Option Index) : Bool :=
  imLen m == m.bytes.length && imLen m % 64 == 0 && 64 ≤ imLen m && imCheck m == imageCrc m && imFmt m == 0x03 &&
  field m.hdr 128 16 == 0 && field m.hdr 24 5 == 0 && field m.hdr 0 16 == 0 && sectionsOk m &&
  (List.range (imCutCount m)).all (fun c => cutOk m (cutWord m c)) &&
  imWorst m == maxOf ((List.range (imCutCount m)).map (fun c => (cutOf (cutWord m c)).worstNs)) &&
  (List.range (imPegCount m)).all (fun i => pegBindingOk m (pegWord m i)) &&
  (List.range (imWeightCount m)).all (fun i => weightOk m i) && profileRsvdOk m &&
  (!imLcOk m || (profileOk m && (List.range (imWeightCount m)).all (fun i => (weightOf (weightWord m i)).pin))) &&
  rescalesOk m && (!imSr m || imKind m == 5) &&
  (match kindOf (imKind m) with
   | some .search | some .encodeSearch | some .rerank =>
     !imNoIndex m && imSearchOff m != 0 && searchOk x (searchWordOf m)
   | some .encode => !imNoIndex m && imSearchOff m == 0
   | some _ => imSearchOff m == 0
   | none => false)

/-! Affinity (R294). -/

/-- Mesh position of an array, a DRAM controller and a flash channel. -/
def arrayPos (a : Nat) : Int × Int := ((a % 10 : Nat), (a / 10 : Nat))
def lpcPos (c : Nat) : Int × Int := if c < 8 then ((c : Int) + 1, -1) else ((c : Int) - 7, 16)
def flashPos (c : Nat) : Int × Int := if c < 64 then (-1, (c / 4 : Nat)) else (10, ((c - 64) / 4 : Nat))
def cxlPos : Int × Int := (-1, -1)

/-- Distance of two positions. -/
def meshDistance (a b : Int × Int) : Nat := (a.1 - b.1).natAbs + (a.2 - b.2).natAbs

/-- The affinity set of a plan in a bay; a DRAM controller serves eight channels (R21, R294). -/
def affinitySet (v : Bay) (x : Option Index) : List (Int × Int) :=
  let fl := match x with
    | some i => if i.params.dramTier then [] else (v.flash.filter (fun c => flag i.params.groups (c / 8))).map flashPos
    | none => []
  let ex := ((v.excl.map (fun c => c / 8)).eraseDups).map lpcPos
  if fl ++ ex == [] then [cxlPos] else fl ++ ex

/-- Affinity score of an array. -/
def arrayScore (aff : List (Int × Int)) (a : Nat) : Nat := sumOf (aff.map (meshDistance (arrayPos a)))

/-- Arrays of a bay in affinity order (R294). -/
def affinityOrder (v : Bay) (x : Option Index) : List Nat :=
  let aff := affinitySet v x
  (sortBy (fun (a b : Nat × Nat) => decide (a.1 < b.1) || (a.1 == b.1 && decide (a.2 < b.2)))
    (v.arrays.map (fun a => (arrayScore aff a, a)))).map (fun e => e.2)

/-! Resources (R97, R168, R172, R201, R227, R228). -/

/-- A plan that issues rime requests: its rerank runs in rime units, or its profile charges them (log entry 35). -/
def usesRime (m : Image) : Bool :=
  (imSearchOff m != 0 && (searchParamsOf (searchWordOf m)).rime) ||
  (match profileOf m with
   | some f => f.entries.any (fun e => e.rime != 0)
   | none => false)

/-- Frames of the scratch: 4 KiB units in frames. -/
def scratchFrames (m : Image) : Nat := ceilDiv (imScratch m * 4096) pageBytes

/-- Weight objects of an image. -/
def imWeights (m : Image) : List WeightObj := (List.range (imWeightCount m)).map (fun i => { weightOf (weightWord m i) with redLen := Config.reductionLength m.bytes i })

/-- Pages that the image pins, with repeats. -/
def pinnedPages (m : Image) : List Nat := ((imWeights m).filter (fun o => o.pin)).flatMap objectPages

/-- Free pegs of a bay's blocks, ascending, at most n (R172, R306). -/
def freePegs (s : State) (b n : Nat) : List Nat :=
  (((bayAt s b).pegBlocks.flatMap (fun k => (List.range 1024).map (fun i => 1024 * k + i))).filter
    (fun p => (pegAt s p).isNone)).take n

/-- Pegs that the bindings need: private and arrival pegs. -/
def pegsNeeded (bs : List PegBinding) : Nat := (bs.filter (fun b => b.kind != 1)).length

/-- A free rime scratch sector of a bay (R201). -/
def freeSector (s : State) (b : Nat) : Option Nat :=
  lowestBelow 64 (fun k => !s.bay.plans.any (fun p => p.rimeSector == some k && bayOfCtx s p.ctx == b))

/-- A new rime scratch set is needed (R201). -/
def needsScratchSet (s : State) (b : Nat) (m : Image) : Bool := usesRime m && (lookupKey s.rime.scratch b).isNone

/-- Frames of the scratch and of the pages newly pinned (R227, R228). -/
def framesHeld (s : State) (m : Image) : Nat :=
  let fresh := (pinnedPages m).eraseDups.filter (fun pg => match frameOfPage s pg with
    | some e => e.pin == 0 && e.state != .dram && e.state != .local_
    | none => true)
  scratchFrames m + fresh.length

/-- Frames that the image takes from the evictable frames of its bay: scratch, newly pinned pages, a rime scratch set (R228). -/
def framesTaken (s : State) (b : Nat) (m : Image) : Nat := framesHeld s m + (if needsScratchSet s b m then 4096 else 0)

/-- FREE frames that the image takes: what its bay's full quota evicts for it takes none, and a rime scratch set takes all but its slot 127
(R219, R228). -/
def freeTaken (s : State) (b : Nat) (m : Image) : Nat :=
  framesHeld s m - (quotaUsed s b + framesTaken s b m - (bayAt s b).frames) + (if needsScratchSet s b m then 4064 * setsNeeded s 4096 else 0)

/-- No PIN rises above 255 (R227). -/
def pinsOk (s : State) (m : Image) : Bool :=
  let ps := pinnedPages m
  ps.eraseDups.all (fun pg => ((frameOfPage s pg).map (fun e => e.pin)).getD 0 + (ps.filter (fun q => q == pg)).length ≤ 255)

/-- The lowest free plan handle (R168). -/
def freeHandle (s : State) : Option Nat :=
  (lowestFree 65535 (s.bay.plans.map (fun p => p.handle - 1))).map (fun h => h + 1)

/-- Places of the regions that an image needs: its bay's rime scratch, when that is new, then its own scratch (R215; log entry 27). -/
def scratchPlaces (s : State) (b : Nat) (m : Image) : List (Nat × Nat) :=
  let taken := s.bay.regions.map (fun r => (r.base, r.pages))
  let rime := if needsScratchSet s b m then [(placeAmong s taken 4096 4096, 4096)] else []
  if scratchFrames m == 0 then rime else rime ++ [(placeAmong s (taken ++ rime) (scratchFrames m) 1, scratchFrames m)]

/-- The resources of an image are there (R167, R201, R215, R217, R227, R228). -/
def planFits (s : State) (b : Nat) (m : Image) : Bool :=
  let v := bayAt s b
  let bs := (List.range (imPegCount m)).map (fun i => bindingOf (pegWord m i))
  let taken := framesTaken s b m
  let places := scratchPlaces s b m
  imArrays m ≤ v.arrays.length && (taken == 0 || taken + 64 ≤ evictable s b) && pinsOk s m &&
  pegsNeeded bs ≤ (freePegs s b (pegsNeeded bs)).length && (freeHandle s).isSome &&
  (!usesRime m || ((freeSector s b).isSome && (!needsScratchSet s b m ||
    setsNeeded s 4096 ≤ (freeSets s (setsNeeded s 4096)).length))) &&
  places.all (fun p => p.1 != 0) &&
  leavesFit s (freeTaken s b m) (leafFramesNeeded s (leafless s (places.flatMap (fun p => segmentsOf p.1 p.2))).length)

/-- A plan's scratch: a DRAM region that its context holds (R97, R168, R215, R291). -/
def takeScratch (s : State) (b ctx pages : Nat) : State × Option (Nat × Nat) :=
  if pages == 0 then (s, none)
  else
    let base := placeRegion s pages 1
    (createRegion s { base := base, pages := pages, kind := 1, hint := 0, groups := 0, bay := b, ctx := some ctx }, some (base, pages))

/-- Pegs allocated to the bindings of a plan (R172, R307). -/
def bindPegs (b ctx : Nat) : List PegBinding → State × List PegBinding → State × List PegBinding
  | [], r => r
  | d :: rest, r =>
    if d.kind == 1 then bindPegs b ctx rest (r.1, r.2 ++ [d])
    else
      match freePegs r.1 b 1 with
      | p :: _ =>
        let v := if d.kind == 0 then d.init else 0
        let s1 := addPeg r.1 { num := p, value := BitVec.ofNat 64 v, bay := b, ctx := some ctx, kind := .private_ }
        bindPegs b ctx rest (s1, r.2 ++ [{ d with peg := some p }])
      | [] => bindPegs b ctx rest (r.1, r.2 ++ [d])

/-- An accepted plan takes its resources (R168, R172, R201, R227, R294, R389). -/
def acceptPlan (s : State) (ctx : Nat) (m : Image) : State × Nat :=
  let x := if imNoIndex m then none else indexAt s (imIndex m)
  let b := bayOfCtx s ctx
  let h := (freeHandle s).getD 0
  let sector := if usesRime m then freeSector s b else none
  let s1 := if needsScratchSet s b m then makeScratchSet s b else s
  let t := takeScratch s1 b ctx (scratchFrames m)
  let s2 := (pinnedPages m).foldl pinPage t.1
  let g := bindPegs b ctx ((List.range (imPegCount m)).map (fun i => bindingOf (pegWord m i))) (s2, [])
  let p : Plan := {
    handle := h, ctx := ctx, kind := (kindOf (imKind m)).getD .run, index := if imNoIndex m then none else some (imIndex m),
    lcOk := imLcOk m, flashClass := imFlashClass m, sr := imSr m,
    arrays := (affinityOrder (bayAt s b) x).take (imArrays m), scratch := t.2,
    pinned := (pinnedPages m).filter (fun pg => (frameOfPage s2 pg).isSome), rimeSector := sector,
    params := if imSearchOff m == 0 then {} else searchParamsOf (searchWordOf m), profile := profileOf m,
    cuts := (List.range (imCutCount m)).map (fun c => cutOf (cutWord m c)), pegs := g.2, weights := imWeights m, codeOff := imCodeOff m, fepenVer := imFepen m,
    tokenLimit := Config.planTokenLimit m.bytes, vocabulary := Config.planVocabulary m.bytes,
    digest := Config.shake256 m.bytes }
  let s3 := { g.1 with bay := { g.1.bay with plans := insertBy (fun (a b : Plan) => decide (a.handle < b.handle)) p g.1.bay.plans } }
  (updBay s3 b (fun v => extendRegister v m.bytes), h)

/-- The status of a PLAN_LOAD, ST_OK when it is accepted (R53, R167, R216, R299, R332). -/
def planStatus (s : State) (ctx : Nat) (m : Image) : Nat :=
  let x := if imNoIndex m then none else indexAt s (imIndex m)
  let b := bayOfCtx s ctx
  if !imageOk m x || ((ctxAt s ctx).isSome && !(imWeights m).all (objectInSpace s ctx)) then stInvalidField
  else if (ctxAt s ctx).isNone || (!imNoIndex m && x.isNone) then stNotFound
  else if x.any indexBusy then stNsBusy
  else if bayReclaiming s b then stInProgress
  else if !planFits s b m || liftsFloor s (acceptPlan s ctx m).1 then stNoResource
  else if imSearchOff m != 0 && x.any (fun i => decide ((searchParamsOf (searchWordOf m)).maxDrift < driftL i)) then stDriftFull
  else stOk

/-- Channels that hold read units of an LC plan's index and still run a long piece: the load completes after them (R120). -/
def loadChannels (s : State) (m : Image) : List Nat :=
  match (if imLcOk m && !imNoIndex m then indexAt s (imIndex m) else none) with
  | some x => if x.params.dramTier && !x.params.flashDirect then []
    else (List.range 128).filter (fun c => flag x.params.groups (c / 8) && longPiece s c)
  | none => []

/-- Sectors that the fill of the pages to pin and their rebuild could not read: those of pages at a home, not in a frame (R227, R236). -/
def badFills (s : State) (m : Image) (bad : List Nat) : List Nat :=
  (bad.filter (fun a => a % 4096 == 0 && (pinnedPages m).contains (a / pageBytes) && (frameOfPage s (a / pageBytes)).isNone &&
    (homeOfPage s (a / pageBytes)).isSome)).eraseDups

/-- A sector that could not be read is poisoned in the frame into which its page is filled (R236). -/
def poisonFilled (s : State) (a : Nat) : State :=
  let s1 := bringPage s (a / pageBytes) 0
  match frameOfPage s1 (a / pageBytes) with
  | some e => poisonSector s1 e.num (a % pageBytes / 4096)
  | none => s1

/-- PLAN_LOAD (R53, R120, R167, R168, R299, R332, R341). It waits for frames while all that its bay could evict is dirty in groups at
level 3 (R228, R363; log entry 118); a pinned sector that cannot be read ends it with ST_MEDIA_UE and no plan (R227, R236). -/
def execPlanLoad (cid : Nat) (image : ImageRead) (s : State) : Host.Outcome State Fault Refusal :=
  .next (withAdmin s cid 0x84 (fun s c =>
    let n := field c.sqe 64 32
    let ctx := field c.sqe 96 12
    let bs := image.data.take n
    let m := imageOf bs
    if n % 64 != 0 then endCmd s adminQ c stInvalidField 0
    else if bs.length < n then
      endCmd (updLinkCounters s 0 (fun k => { k with hostFaults := wrapAdd 64 k.hostFaults 1 })) adminQ c stHostFault 0
    else if (imLcOk m && refitHolds s 0x2000 1) || (bayOfCtx s ctx == 0 && refitHolds s 0x3000 0) then s
    else
      let st := planStatus s ctx m
      let taken := framesTaken s (bayOfCtx s ctx) m
      let bad := badFills s m image.bad
      if st != stOk then endCmd s adminQ c st 0
      else if taken != 0 && !roomFor s (bayOfCtx s ctx) taken then s
      else if bad != [] then endCmd (bad.foldl poisonFilled s) adminQ c stMediaUe 0
      else
        let t := acceptPlan s ctx m
        completeAfter (startCmd (reevalPieces t.1) adminQ c) adminQ c.cid stOk t.2 (loadChannels s m)))

/-- PLAN_UNLOAD: admission stops for the plan; its release follows its last completion (R168). -/
def execPlanUnload (cid : Nat) (s : State) : Host.Outcome State Fault Refusal :=
  .next (withAdmin s cid 0x85 (fun s c =>
    let h := field c.sqe 64 16
    match planAt s h with
    | none => endCmd s adminQ c stNotFound 0
    | some p =>
      if p.unloading.isSome then endCmd s adminQ c stInProgress 0
      else updPlan (startCmd s adminQ c) h (fun y => { y with unloading := some c.cid })))

/-- PLAN_UNLOAD_RELEASE: every query and run of the plan has completed, and no rime request of it is outstanding; its resources are released
and the handle is free (R168, R196). -/
def execPlanUnloadRelease (handle : Nat) (s : State) : Host.Outcome State Fault Refusal :=
  .next
    (match planAt s handle with
     | none => s
     | some p =>
       match p.unloading with
       | none => s
       | some cid =>
         if s.adm.queries.any (fun x => x.plan == handle) || planRequests s handle then s
         else postCompletion (releasePlan s handle) adminQ cid stOk 0)

end Sys2Proof.Machine
end

