-- ==== Sys2Proof/Machine/Pages.lean ====
section
/-! DEFINITION. Log pages: the error log, the moraine log, the fatal dump, evidence blocks and the counter pages, and LOG_GET
(R57, R281, R369, R374, R378, R379, R391). -/

namespace Sys2Proof.Machine

open Sys2Proof

/-- The 32-byte page header (R281). -/
def pageHeader (s : State) (page sel len : Nat) : Bytes :=
  natLe 32 (page % 256 + 1 * 2 ^ 8 + len % 2 ^ 32 * 2 ^ 96 + sel % 2 ^ 32 * 2 ^ 128 + s.time.bootCount.toNat * 2 ^ 160 +
    now s % 2 ^ 64 * 2 ^ 192)

/-- A page with its content from byte 32. -/
def pageOf (s : State) (page sel : Nat) (content : Bytes) : Bytes := pageHeader s page sel (32 + content.length) ++ content

/-- 64-bit counters from byte 32 (R281). -/
def counterBytes (ns : List Nat) : Bytes := ns.flatMap (natLe 8)

/-! Evidence blocks (R391). -/

/-- Bytes of an evidence block: header, entries of 80 bytes, signature (R391). -/
def evidenceBytes (e : Evidence) : Bytes :=
  natLe 128 e.header.toNat ++ e.meas.flatMap (fun m => natLe 16 (m.1 % 65536) ++ natLe 64 m.2.toNat) ++ e.signature

/-! Counter pages (R57, R137, R188, R281). -/

/-- Counters of the index statistics page (R57). -/
def indexCounters (s : State) (x : Index) : List Nat :=
  let pinned := ((queriesOn s x.num).map (fun q => q.version)).eraseDups
  [x.version, x.presence.length, x.kerf.length, x.tail - driftBase x, driftL x, pinned.length, x.mergedTotal, x.reclaimedTotal]

/-- Counters of the admission page (R137). -/
def admissionCounters (c : AdmCounters) : List Nat :=
  [c.accLc, c.accBe, c.refCapacity, c.refDeadline, c.refTier, c.refNsBusy, c.refWeightsLost, c.refOther, c.truncated,
   c.minCompleteness, c.deferredStart, c.forcedRetrain, c.forcedPe, c.bePromotions]

/-- Counters of the plan page; TOKEN_LIMIT is 0 for plans without an encoder (R188, R281). -/
def planCounters (p : Plan) : List Nat :=
  let c := p.counters
  let lim := if p.kind == .encode || p.kind == .encodeSearch then p.tokenLimit else 0
  [lim, c.cutsDone, c.cutsAbandoned, c.stalls, c.stallNs, c.rescued, c.encSat, c.accSat, c.outSat, c.nan, c.invalidScale, c.stepsSkipped]

/-- Counters of the link page (R281). -/
def linkCounterList (c : LinkCounters) : List Nat :=
  [c.dbWrongFn, c.dbBadValue, c.dbStopped, c.dbDegraded, c.winWriteDropped, c.cqSlotWaits, c.hostFaults]

/-- Pages of the table Log pages. -/
def logPages : List Nat := [0x01, 0x02, 0x03, 0x04, 0x10, 0x11, 0x12, 0x13]

/-- A log page as a master sees it, or the status that refuses it (R281, R379, R391). -/
def logPage (s : State) (by_ : Master) (page sel : Nat) : Nat × Bytes :=
  let counters := fun (c : Option (List Nat)) => match c with
    | some ns => (stOk, pageOf s page sel (counterBytes ns))
    | none => (stNotFound, [])
  if !logPages.contains page then (stInvalidField, [])
  else if page == 0x10 then counters ((indexAt s sel).map (indexCounters s))
  else if page == 0x11 then counters (if sel < 64 then some (admissionCounters (bayAt s sel).counters) else none)
  else if page == 0x12 then counters ((planAt s sel).map planCounters)
  else if page == 0x13 then counters (if sel < 64 then some (linkCounterList ((lookupKey s.link.counters sel).getD {})) else none)
  else if sel != 0 then (stNotFound, [])
  else if page == 0x01 then (stOk, pageOf s 1 0 (s.health.errors.flatMap errBytes))
  else if page == 0x02 then (stOk, pageOf s 2 0 (s.health.moraine.flatMap moraineBytes))
  else if page == 0x03 then
    (stOk, pageOf s 3 0 (match s.health.dump with
      | some d => dumpBytes d
      | none => []))
  else
    (stOk, pageOf s 4 0 (match (if by_ == .host then s.sec.evidenceHost else s.sec.evidenceSideband) with
      | some e => evidenceBytes e
      | none => []))

/-- LOG_GET: LEN bytes of a page from OFFSET, or to its end (R281). -/
def execLogGet (cid : Nat) (s : State) : Host.Outcome State Fault Refusal :=
  .next
    (withAdmin s cid 0x8B (fun s c =>
      let off := field c.sqe 112 32
      let len := field c.sqe 144 32
      if off % 64 != 0 || len % 64 != 0 || len == 0 then endCmd s adminQ c stInvalidField 0
      else
        let p := logPage s .host (field c.sqe 64 8) (field c.sqe 80 32)
        if p.1 != stOk then endCmd s adminQ c p.1 0
        else
          let bs := sliceOf p.2 off len
          endCmd (emit s (.hostWrite adminQ cid bs)) adminQ c stOk bs.length))

end Sys2Proof.Machine
end

