-- ==== Sys2Proof/Machine/Objects.lean ====
section
/-! DEFINITION. The object dictionary: the tables of objects, their access rights, ranges and values (R315, R321 to R328, R364,
R402). -/

namespace Sys2Proof.Machine

open Sys2Proof

/-- Access rights (R322). -/
inductive Right where
  | ro
  | rw
  | wo
  | rws
  | rwl
  deriving DecidableEq, Repr

/-- An object: size in bytes, access right, Kept (R321, R326). -/
structure Obj where
  size : Nat
  right : Right
  kept : Bool := false
  deriving DecidableEq, Repr

/-- Objects outside the ranges of domains and bays: index, subindex, size, right, Kept (R328, R364, R402). -/
def objRows : List (Nat × Nat × Obj) :=
  [(0x1000, 1, ⟨2, .ro, false⟩), (0x1000, 2, ⟨2, .ro, false⟩), (0x1000, 3, ⟨1, .ro, false⟩), (0x1000, 4, ⟨1, .ro, false⟩),
   (0x1000, 5, ⟨1, .ro, false⟩), (0x1000, 6, ⟨4, .ro, false⟩), (0x1000, 7, ⟨16, .ro, false⟩),
   (0x1001, 1, ⟨4, .ro, false⟩), (0x1001, 2, ⟨8, .ro, false⟩), (0x1001, 3, ⟨1, .ro, false⟩),
   (0x1010, 1, ⟨6, .ro, false⟩), (0x1010, 2, ⟨1, .ro, false⟩), (0x1010, 3, ⟨1, .ro, false⟩), (0x1010, 4, ⟨1, .rws, true⟩),
   (0x1010, 5, ⟨1, .rws, true⟩), (0x1010, 6, ⟨1, .rws, true⟩), (0x1010, 7, ⟨4, .ro, false⟩), (0x1010, 8, ⟨4, .ro, false⟩),
   (0x1011, 0, ⟨16, .rw, true⟩)] ++
  [(0x2000, 1, ⟨2, .rws, true⟩), (0x2000, 2, ⟨2, .ro, false⟩), (0x2000, 3, ⟨2, .ro, false⟩), (0x2001, 0, ⟨1, .rws, true⟩),
   (0x3000, 0, ⟨128, .rws, true⟩), (0x3001, 0, ⟨2, .rws, true⟩),
   (0x4000, 0, ⟨1, .rws, true⟩), (0x4002, 0, ⟨1, .ro, false⟩), (0x4003, 0, ⟨4, .ro, false⟩), (0x5000, 0, ⟨2, .rws, true⟩),
   (0x6000, 0, ⟨1, .rws, true⟩), (0x6001, 0, ⟨1, .ro, false⟩), (0x6002, 0, ⟨2, .rws, true⟩),
   (0x6005, 1, ⟨4, .ro, false⟩), (0x6005, 2, ⟨8, .ro, false⟩), (0x6005, 3, ⟨8, .ro, false⟩), (0x6008, 0, ⟨128, .ro, false⟩),
   (0x6009, 1, ⟨1, .ro, false⟩), (0x6009, 2, ⟨8, .ro, false⟩), (0x6009, 3, ⟨4, .ro, false⟩), (0x600A, 0, ⟨1, .wo, false⟩),
   (0x600B, 0, ⟨4, .rw, false⟩)] ++
  [(0x7000, 0, ⟨1, .rwl, false⟩), (0x7001, 0, ⟨32, .wo, true⟩), (0x7002, 1, ⟨4, .ro, false⟩), (0x7002, 2, ⟨4, .ro, false⟩),
   (0x7002, 3, ⟨2, .ro, false⟩), (0x7002, 4, ⟨1, .ro, false⟩), (0x7003, 0, ⟨1, .ro, false⟩),
   (0x7010, 1, ⟨4, .ro, false⟩), (0x7010, 2, ⟨8, .ro, false⟩), (0x7020, 0, ⟨4, .rw, false⟩), (0x7021, 0, ⟨1024, .wo, false⟩),
   (0x7022, 0, ⟨1, .wo, false⟩), (0x7023, 0, ⟨1, .ro, false⟩), (0x7024, 0, ⟨4, .rw, false⟩), (0x7025, 0, ⟨1024, .wo, false⟩),
   (0x7026, 0, ⟨1, .wo, false⟩), (0x7027, 0, ⟨1, .ro, false⟩), (0x7030, 0, ⟨40, .wo, false⟩)] ++
  [(0x8000, 0, ⟨1, .rw, false⟩), (0x8001, 0, ⟨2, .rw, true⟩), (0x8002, 0, ⟨1, .wo, false⟩), (0x8003, 0, ⟨2, .ro, false⟩),
   (0x8020, 0, ⟨1, .wo, false⟩), (0x8021, 1, ⟨1, .ro, false⟩), (0x8021, 2, ⟨1, .ro, false⟩), (0x8021, 3, ⟨4, .ro, false⟩),
   (0x8021, 4, ⟨1, .ro, false⟩), (0x8030, 0, ⟨16, .wo, false⟩), (0x8031, 1, ⟨1, .ro, false⟩), (0x8031, 2, ⟨8, .ro, false⟩),
   (0x8031, 3, ⟨2, .ro, false⟩), (0xA000, 1, ⟨1, .rw, false⟩), (0xA000, 2, ⟨4, .rw, false⟩), (0xA000, 3, ⟨4, .rw, false⟩),
   (0xA001, 0, ⟨1024, .ro, false⟩)]

/-- Records of one entry size: index, entries, size (R328, R364). -/
def objArrays : List (Nat × Nat × Nat) :=
  [(0x4001, 24, 2), (0x6003, 16, 2), (0x6004, 16, 8), (0x6006, 128, 2), (0x6007, 128, 1), (0x8010, 64, 136)]

/-- Domain whose objects lie at an index, and bay likewise (R328). -/
def objDomain (i : Nat) : Option Nat := if 0x2100 ≤ i && i < 0x2100 + 196 then some (i - 0x2100) else none
def objBay (i : Nat) : Option Nat := if 0x3100 ≤ i && i < 0x3100 + 64 then some (i - 0x3100) else none

/-- Objects of a domain and of a bay by subindex (R328). -/
def domainObj (j : Nat) : Option Obj :=
  match j with
  | 1 | 4 | 5 => some ⟨1, .ro, false⟩
  | 2 | 3 => some ⟨4, .rws, true⟩
  | 6 => some ⟨8, .ro, false⟩
  | _ => none
def bayObj (j : Nat) : Option Obj :=
  match j with
  | 1 => some ⟨1, .ro, false⟩
  | 2 | 3 => some ⟨16, .ro, false⟩
  | 4 => some ⟨4, .ro, false⟩
  | 5 | 6 => some ⟨8, .ro, false⟩
  | _ => none

/-- Entry count of a RECORD; none for an index that is no RECORD (R321). -/
def recordCount (i : Nat) : Option Nat :=
  if (objDomain i).isSome || (objBay i).isSome then some 6
  else
    match objArrays.find? (fun a => a.1 == i) with
    | some a => some a.2.1
    | none =>
      let subs := (objRows.filter (fun r => r.1 == i)).map (fun r => r.2.1)
      if subs == [] || subs.contains 0 then none else some subs.length

/-- The object of an address (R321). -/
def objAt (i j : Nat) : Option Obj :=
  match recordCount i with
  | some n =>
    if j == 0 then some ⟨1, .ro, false⟩
    else if n < j then none
    else if (objDomain i).isSome then domainObj j
    else if (objBay i).isSome then bayObj j
    else
      match objArrays.find? (fun a => a.1 == i) with
      | some a => some ⟨a.2.2, .ro, false⟩
      | none => (objRows.find? (fun r => r.1 == i && r.2.1 == j)).map (fun r => r.2.2)
  | none => (objRows.find? (fun r => r.1 == i && r.2.1 == j)).map (fun r => r.2.2)

/-! Values. -/

/-- The sideband MAC address as 6 bytes: SHAKE256("LYHEL-MAC" ‖ DEVID_PK) with bit 1 of the first octet set and bit 0 clear
(R384). -/
def sidebandMac : Bytes :=
  let label := [0x4C, 0x59, 0x48, 0x45, 0x4C, 0x2D, 0x4D, 0x41, 0x43].map (BitVec.ofNat 8)
  let d := natLe 64 (Config.shake256 (label ++ natLe 64 Config.devidPk.toNat)).toNat
  match d.take 6 with
  | b :: r => ((b ||| 2#8) &&& 0xFE#8) :: r
  | [] => []

/-- The IPv6 link-local address formed from the MAC by the modified EUI-64 rule, as 16 bytes (R315). -/
def linkLocal : Bytes :=
  match sidebandMac with
  | [a, b, c, d, e, f] => [0xFE#8, 0x80#8, 0#8, 0#8, 0#8, 0#8, 0#8, 0#8, a ^^^ 2#8, b, c, 0xFF#8, 0xFE#8, d, e, f]
  | _ => []

/-- The binding-descriptor form of bay 0's default resources (R287). -/
def bay0Header : Nat := 0x3FF * 2 ^ (864 + 150) + 262144 * 2 ^ 608 + 16 * 2 ^ 599 + 16 * 2 ^ 590 + 8 * 2 ^ 582 + 8 * 2 ^ 574 + 64 * 2 ^ 561

/-- Defaults of the writable objects of R328, R364 and R402. -/
def objDefault (i j : Nat) : Nat :=
  match objDomain i with
  | some n => if j == 2 then timerRetDefault n else if j == 3 then timerOffDefault n else 0
  | none =>
    if i == 0x1010 then (if j == 4 then 17 else if j == 5 then 32 else 1)
    else if i == 0x2000 then 1150
    else if i == 0x2001 then 0x08
    else if i == 0x3000 then bay0Header
    else if i == 0x3001 then 10
    else if i == 0x4000 then 25
    else if i == 0x5000 then 250
    else if i == 0x6000 then 2
    else if i == 0x6002 then 168
    else if i == 0x8001 then 30
    else 0

/-- STATE of a domain (R328). -/
def domCode : DomState → Nat
  | .on => 0
  | .retention => 1
  | .off => 2
  | .entering _ => 3
  | .waking => 4

/-- Code of a departure kind (R328). -/
def depCode : DepKind → Nat
  | .temporary => 0
  | .lease _ => 1
  | .standby => 2
  | .retired => 3

/-- Code of a fit state and of a raise state (R328). -/
def fitCode : FitState → Nat
  | .notRun => 0
  | .running => 1
  | .passed => 2
  | .failed => 3
  | .stale => 4
def raiseCode : RaiseState → Nat
  | .none => 0
  | .pending => 1
  | .refit => 2
  | .done => 3
  | .refitFailed => 4
  | .expired => 5
  | .cancelled => 6
  | .lost => 7

/-- Bits of a list of positions. -/
def maskOf (ns : List Nat) : Nat := sumOf (ns.eraseDups.map (fun n => 2 ^ n))

/-- FW_VERSION of the running firmware; 0 before any image was booted. -/
def fwVersion (s : State) : Nat :=
  match s.sec.booted with
  | some f => f.version
  | none => 0

/-- Repair rows of a channel's banks still left (R364, R365). -/
def pprLeft (s : State) (c : Nat) : Nat :=
  128 - sumOf ((s.health.banks.filter (fun b => b.bank / 32 == c)).map (fun b => b.used))

/-- RETIRED_FRAMES of a channel (R364). -/
def retiredCount (s : State) (c : Nat) : Nat := ((lookupKey s.health.retiredFrames c).getD []).length

/-- A STAGE_ENTRY value: index, subindex, length, and the staged value from byte 8 (R328). -/
def stageEntry (e : Nat × Nat × Nat × Nat) : Nat := e.1 % 65536 + e.2.1 % 256 * 2 ^ 16 + e.2.2.1 % 65536 * 2 ^ 24 + e.2.2.2 % 2 ^ 1024 * 2 ^ 64

/-- The value of a domain's object. -/
def domainValue (s : State) (n j : Nat) : Nat :=
  let d := domainAt s n
  match j with
  | 1 => domCode d.state
  | 2 => timerRet s n
  | 3 => timerOff s n
  | 4 => depthCap s n
  | 5 => d.lastWake
  | _ => d.lastWakeDtb

/-- EXCL_ADDR of a bay: the address of its exclusive region; with several leased channels, each with a region of its own, that of the lowest
(R211, R328; log entry 137). -/
def exclAddrOf (v : Bay) : Nat := ((v.exclAddrs.head?).map (fun e => e.2)).getD 0

/-- The value of a bay's object. -/
def bayValue (s : State) (b j : Nat) : Nat :=
  let v := bayAt s b
  match j with
  | 1 => (match v.mode with
    | .unbound => 0
    | .bound => 1
    | .reclaiming => 2)
  | 2 => maskOf v.slotBlocks
  | 3 => maskOf v.pegBlocks
  | 4 => (noticePeg s b).getD 0xFFFFFFFF
  | 5 => v.parkAddr
  | _ => exclAddrOf v

/-- Fields of the 0x1000 range (R328). -/
def identValue (s : State) (i j : Nat) : Nat :=
  if i == 0x1000 then
    (match j with
     | 1 => 0x1F2C
     | 2 => 0x9416
     | 3 => s.sec.order.code
     | 4 => s.sec.hwLevel
     | 5 => s.sec.stepping
     | 6 => fwVersion s
     | _ => s.sec.serial.toNat)
  else if i == 0x1001 then (match j with
    | 1 => s.time.bootCount.toNat
    | 2 => now s
    | _ => if ptmSync s then 1 else 0)
  else
    (match j with
     | 1 => leNat sidebandMac
     | 2 => s.pins.slotId
     | 3 => s.pins.slotId + 1
     | 7 => s.sb.authFail.toNat
     | 8 => s.sb.seqDrop.toNat
     | _ => dictValue s i j (objDefault i j))

/-- Fields of the 0x4000 and 0x6000 ranges (R328, R364). -/
def healthValue (s : State) (i j : Nat) : Nat :=
  if i == 0x4001 then
    (match s.tier.departures[j - 1]? with
     | some d => d.channel % 128 + depCode d.kind * 2 ^ 8 + 2 ^ 15
     | none => 0)
  else if i == 0x4002 then (if s.tier.retireBlocked then 1 else 0)
  else if i == 0x4003 then freeFrames s
  else if i == 0x6001 then s.health.refreshMult
  else if i == 0x6003 then groupFreeCenti s (j - 1)
  else if i == 0x6004 then groupUsableBytes s (j - 1)
  else if i == 0x6005 then (match j with
    | 1 => s.health.planNumber
    | 2 => s.health.planDtb
    | _ => s.health.planDue)
  else if i == 0x6006 then retiredCount s (j - 1)
  else if i == 0x6007 then pprLeft s (j - 1)
  else if i == 0x6008 then maskOf ((s.health.dies.filter (fun d => d.retired)).map (fun d => 8 * d.channel + d.die))
  else if i == 0x6009 then
    (match j with
     | 1 => s.health.dumpState
     | 2 => (match s.health.dump with
       | some d => d.dtb
       | none => 0)
     | _ => (match s.health.dump with
       | some d => d.boot.toNat
       | none => 0))
  else dictValue s i j (objDefault i j)

/-- SVN_FLOOR and KEYS_REVOKED follow the anti-rollback record in force (R398, R402). -/
def svnFloor (s : State) : Nat :=
  match s.sec.arb with
  | some a => a.svnFloor
  | none => 0
def keysRevoked (s : State) : Nat :=
  match s.sec.arb with
  | some a => a.revoked.toNat
  | none => 0

/-- Fields of the 0x7000 range (R328, R402). -/
def securityValue (s : State) (i j : Nat) : Nat :=
  if i == 0x7000 then (if s.dict.secLock then 1 else 0)
  else if i == 0x7002 then
    (match j with
     | 1 => (match s.sec.staging with
       | .image f => f.version
       | _ => 0)
     | 2 => s.sec.pending
     | 3 => svnFloor s
     | _ => keysRevoked s)
  else if i == 0x7003 then s.sec.bootState
  else if i == 0x7010 then (if j == 1 then s.link.ideFails.toNat else s.link.ideFailDtb)
  else if i == 0x7020 then s.sec.fwRxLen.toNat
  else if i == 0x7023 then s.sec.fwRxState
  else if i == 0x7024 then s.sec.cfgRxLen.toNat
  else if i == 0x7027 then s.sec.cfgRxState
  else dictValue s i j (objDefault i j)

/-- Fields of the 0x8000 range (R328). -/
def stageValue (s : State) (i j : Nat) : Nat :=
  let g := s.dict.stage
  if i == 0x8000 then (match g.lock with
    | none => 0
    | some .host => 1
    | some .sideband => 2)
  else if i == 0x8003 then g.frame.length
  else if i == 0x8010 then (match g.frame[j - 1]? with
    | some e => stageEntry e
    | none => 0)
  else if i == 0x8021 then (match j with
    | 1 => fitCode g.fit
    | 2 => g.fitRule
    | 3 => g.fitObject
    | _ => g.fitFails)
  else if i == 0x8031 then (match j with
    | 1 => raiseCode g.raise
    | 2 => g.raiseTick
    | _ => g.raiseObjects)
  else dictValue s i j (objDefault i j)

/-- LOG_PAGE, LOG_SELECTOR and LOG_OFFSET of a master (R327). -/
def logOf (s : State) (by_ : Master) : Nat × Nat × Nat := if by_ == .host then s.dict.logHost else s.dict.logSideband

/-- The value of an object as a number, as a master reads it (R327, R328). -/
def objNat (s : State) (by_ : Master) (i j : Nat) : Nat :=
  match recordCount i with
  | some n =>
    if j == 0 then n
    else
      match objDomain i, objBay i with
      | some d, _ => domainValue s d j
      | none, some b => bayValue s b j
      | none, none =>
        if i < 0x2000 then identValue s i j
        else if i == 0x2000 then
          (match j with
           | 1 => powerCap s
           | 2 => s.power.powerNow
           | _ => powerFloorLc s)
        else if i < 0x7000 then healthValue s i j
        else if i < 0x8000 then securityValue s i j
        else if i < 0xA000 then stageValue s i j
        else (match j with
          | 1 => (logOf s by_).1
          | 2 => (logOf s by_).2.1
          | _ => (logOf s by_).2.2)
  | none =>
    if i < 0x4000 then dictValue s i j (objDefault i j)
    else if i < 0x7000 then healthValue s i j
    else if i < 0x8000 then securityValue s i j
    else stageValue s i j

/-- The ROM loader serves: MGMT is in a recovery state (R400). -/
def loaderServes (s : State) : Bool := s.sec.bootState != 0 && !s.sec.mgmtReady && s.pins.mainOn

/-- A read of an object by a master: status and value; module firmware answers the FW_RX objects with ST_DICT_ACCESS (R321,
R322, R327, R328, R402). -/
def readObject (s : State) (by_ : Master) (i j : Nat) : Nat × Bytes :=
  match objAt i j with
  | none => (stNotFound, [])
  | some o =>
    if o.right == .wo || (0x7020 ≤ i && i ≤ 0x7023 && !loaderServes s) then (stDictAccess, [])
    else if i == 0xA001 then
      let l := logOf s by_
      let p := logPage s by_ l.1 l.2.1
      if p.1 != stOk then (p.1, []) else (stOk, padTo 1024 (sliceOf p.2 l.2.2 1024))
    else (stOk, natLe o.size (objNat s by_ i j))

/-! Ranges (DF01, R328, R364, R402). -/

/-- A value of a writable object lies in its range and sets no Rsvd bit (R9, R328, R332). -/
def objRangeOk (i j v : Nat) : Bool :=
  if (objDomain i).isSome then true
  else if i == 0x1010 then
    (match j with
     | 4 => 2 ≤ v && v ≤ 255
     | 5 => 1 ≤ v && v ≤ 255
     | _ => v ≤ 1)
  else if i == 0x2000 then 600 ≤ v && v ≤ 1150
  else if i == 0x2001 then v ≤ 15
  else if i == 0x3000 then bindHeaderOk (BitVec.ofNat 1024 v) && bindNreg (BitVec.ofNat 1024 v) == 0
  else if i == 0x3001 then 1 ≤ v && v ≤ 1000
  else if i == 0x4000 then 5 ≤ v && v ≤ 75
  else if i == 0x5000 then 10 ≤ v && v ≤ 10000
  else if i == 0x6000 then 1 ≤ v && v ≤ 10
  else if i == 0x6002 then 24 ≤ v && v ≤ 168
  else if i == 0x600A || i == 0x7000 || i == 0x8000 || i == 0x8002 || i == 0x8020 then v ≤ 1
  else if i == 0x7022 then 1 ≤ v && v ≤ 3
  else if i == 0x7026 then v == 1 || v == 3
  else if i == 0x7030 then v / 2 ^ 264 == 0 && (bitsAt v 256 8 < 64 || bitsAt v 256 8 == 0xFF)
  else if i == 0x8001 then 1 ≤ v && v ≤ 600
  else if i == 0x8030 then bitsAt v 2 62 == 0
  else if i == 0xA000 then
    (match j with
     | 1 => logPages.contains v
     | 3 => v % 1024 == 0
     | _ => true)
  else true

end Sys2Proof.Machine
end

