-- ==== Sys2Proof/Machine/Search.lean ====
section
/-! DEFINITION. The search of one query: hub search, hops, scribe engines and their survivors, compact records, drift scan,
kerf check, pool, rerank, selection, truncation and completeness (R42, R43, R65 to R86, R99 to R105, R131 to R133, R424). -/

namespace Sys2Proof.Machine

open Sys2Proof

/-! Distances (R40, R74). -/

/-- Hamming distance of two codes of w bits. -/
def hamming (w a b : Nat) : Nat := popCount w (Nat.xor a b)

/-- Sketch distance: the first 256 bits of the codes (R40). -/
def sketchDist (a b : Nat) : Nat := popCount 256 (Nat.xor (a % 2 ^ 256) (b % 2 ^ 256))

/-! The beam (R68). -/

/-- Order of the beam list. -/
def beamBefore (a b : BeamEntry) : Bool := a.dist < b.dist || (a.dist == b.dist && a.id < b.id)

/-- The beam list in order, at most m entries: a new entry displaces the worst only if it comes before it. -/
def beamCut (m : Nat) (es : List BeamEntry) : List BeamEntry := (sortBy beamBefore es).take m

/-- Unexpanded entries among the best b. -/
def unexpanded (x : Query) : List BeamEntry := (x.beam.take x.b).filter (fun e => !e.expanded)

/-! The hub layer (R45, R70). -/

/-- Rounds of the beam rule over hubs: entries are hub numbers; with them the hubs whose records were read. -/
def hubRounds (v : Version) (w code beam beamMax : Nat) : Nat → List BeamEntry → List Nat → List BeamEntry × List Nat
  | 0, es, seen => (es, seen)
  | k + 1, es, seen =>
    let f := (es.take beam).filter (fun e => !e.expanded)
    if f == [] then (es, seen)
    else
      let hubAt := fun (h : Nat) => v.hubs[h]?
      let links := (f.flatMap (fun e => match hubAt e.id with
        | some h => h.links
        | none => [])).eraseDups
      let fresh := links.filter (fun h => h < v.hubs.length && !seen.contains h)
      let marked := es.map (fun e => if f.any (fun g => g.id == e.id) then { e with expanded := true } else e)
      let added := fresh.filterMap (fun h => (hubAt h).map (fun r => ({ dist := hamming w code r.code, id := h } : BeamEntry)))
      hubRounds v w code beam beamMax k (beamCut beamMax (marked ++ added)) (seen ++ fresh)

/-- The hub search: the best BEAM hubs, and every hub whose record was read (R70). -/
def hubWalk (v : Version) (w code : Nat) (p : SearchParams) : List BeamEntry × List Nat :=
  let start := (v.hubs.take p.beam).zip (List.range p.beam)
  let es := start.map (fun e => ({ dist := hamming w code e.1.code, id := e.2 } : BeamEntry))
  let r := hubRounds v w code p.beam p.beamMax p.hubHops (sortBy beamBefore es) (es.map (fun e => e.id))
  (r.1.take p.beam, r.2)

/-- Entry points with exact distances: local IDs of the best BEAM hubs (R70). -/
def hubSearch (v : Version) (w code : Nat) (p : SearchParams) : List BeamEntry :=
  (hubWalk v w code p).1.filterMap (fun e => (v.hubs[e.id]?).map (fun h => { dist := e.dist, id := h.id, exact := true }))

/-- Entry points of the entry-point list: their distances are not known until hop 1 reads them, and are the same for every query with that
code (R70, R160; free values, log entry 5). -/
def listEntries (v : Version) (w code : Nat) (p : SearchParams) : List BeamEntry :=
  (v.entries.take p.beam).map (fun n => { dist := Config.entryDistance code n % (w + 1), id := n })

/-! What a query works on. -/

/-- The version a query is pinned to, with its index (R58). -/
def pinned (s : State) (x : Query) : Option (Index × Version) :=
  (x.index.bind (indexAt s)).bind (fun i => (versionAt i x.version).map (fun v => (i, v)))

/-- Read cap of traversal (R67). -/
def readCap (i : Index) (p : SearchParams) : Nat := p.maxReads - (if i.params.flashDirect then p.rerankDepth else 0)

/-! Poisoned blocks of the structures that a query reads: it ends with ST_MEDIA_UE (R236, R361). -/

/-- Bytes of an index's structure: the structure, a place of it, an offset there and a length. -/
structure PartRead where
  part : IndexPart
  place : Nat
  off : Nat
  len : Nat
  deriving DecidableEq, Repr

/-- Some of the bytes meet poison. -/
def readsBad (s : State) (i : Index) (rs : List PartRead) : Bool := rs.any (fun r => placePoison s i r.part r.place r.off r.len)

/-- The frames of the bytes take REF (R221). -/
def touchReads (s : State) (i : Index) (rs : List PartRead) : State :=
  rs.foldl (fun st r => if partRegions i r.part == [] then st
    else (pagesOf (placeAddr i r.part r.place + r.off) r.len).foldl (fun s p => touchPage s p 0) st) s

/-- The hub records that a hub search reads, and the hub ID table entries of its entry points. -/
def hubReads (i : Index) (v : Version) (code : Nat) (p : SearchParams) : List PartRead :=
  let r := hubWalk v i.params.w code p
  let z := compactBytes i.params
  r.2.map (fun h => ⟨.hubs, v.hubPlace, z * h, z⟩) ++ r.1.map (fun e => ⟨.hubs, v.hubPlace, z * i.params.hubs + 8 * e.id, 8⟩)

/-- Root and leaf entry of a read unit in a map. -/
def mapReads (roots leaves : IndexPart) (root : Nat) (places : List (Nat × Nat)) (u : Nat) : List PartRead :=
  ⟨roots, root, 8 * (u / 512), 8⟩ :: ((lookupKey places (u / 512)).map (fun n => ⟨leaves, n, 5 * (u % 512), 5⟩)).toList

/-- The node map entry of a pair, and the rerank map entry of a rerank read unit (R44, R50). -/
def pairReads (v : Version) (pair : Nat) : List PartRead := mapReads .nodeRoots .nodeLeaves v.nodeRoot v.nodeLeaves pair
def slotReads (v : Version) (u : Nat) : List PartRead := mapReads .rerankRoots .rerankLeaves v.rerankRoot v.rerankLeaves u

/-- The kerf bits of local IDs, and their presence bits (R54). -/
def kerfReads (ns : List Nat) : List PartRead := ns.map (fun n => ⟨.kerfBits, n / 8, 0, 1⟩)
def presenceReads (ns : List Nat) : List PartRead := ns.map (fun n => ⟨.presenceBits, n / 8, 0, 1⟩)

/-- The kerf bits of local IDs meet poison. -/
def kerfBad (s : State) (i : Index) (ns : List Nat) : Bool := readsBad s i (kerfReads ns)

/-- The byte of the set bitmap that tests a local ID meets poison (R78). -/
def setBad (s : State) (x : Query) (n : Nat) : Bool :=
  match x.filter with
  | some f => fbSetOp f != 0 && n < fbSetLen f && devPoison s (fbSetAddr f + n / 8)
  | none => false

/-! Hops (R66 to R71, R81). -/

/-- Best unexpanded nodes of a hop on tier FLASH: their pairs share reads, at most room of them (R42, R68). -/
def chooseFlash (room : Nat) : List BeamEntry → List (Nat × List Nat) → List (Nat × List Nat)
  | [], acc => acc
  | e :: r, acc =>
    let p := e.id / 2
    match lookupKey acc p with
    | some ids => chooseFlash room r (acc.map (fun a => if a.1 == p then (p, ids ++ [e.id]) else a))
    | none => if acc.length < room then chooseFlash room r (acc ++ [(p, [e.id])]) else chooseFlash room r acc

/-- Neighbour IDs that a cell has not visited, ascending and without repeats; the visited set may skip one wrongly (R69). -/
def unvisited (visited : List Nat) (ns : List Nat) : List Nat :=
  (insertAllAsc ns []).filter (fun n => !visited.contains n && !Config.visitedCollides n visited)

/-- What a hop on tier DRAM takes: records to read, the visited set after it, nodes expanded, and the entry points among them. -/
structure DramHop where
  recs : List Nat := []
  visited : List Nat
  done : List Nat := []
  entries : List Nat := []

/-- Expansion on tier DRAM: an entry point's own record, or the records of a read node's unvisited neighbours, as long as all
of them fit (R68, R71). -/
def chooseDram (room : Nat) : List BeamEntry → DramHop → DramHop
  | [], c => c
  | e :: r, c =>
    match e.nbrs with
    | none =>
      if c.recs.length < room then
        chooseDram room r { c with recs := c.recs ++ [e.id], done := c.done ++ [e.id], entries := c.entries ++ [e.id] }
      else c
    | some ns =>
      let fresh := unvisited c.visited ns
      if c.recs.length + fresh.length ≤ room then
        chooseDram room r { c with recs := c.recs ++ fresh, visited := insertAllAsc fresh c.visited, done := c.done ++ [e.id] }
      else c

/-- Entries marked expanded. -/
def markExpanded (beam : List BeamEntry) (ids : List Nat) : List BeamEntry :=
  beam.map (fun e => if ids.contains e.id then { e with expanded := true } else e)

/-- Sketch threshold of the next reads (R68). -/
def hopThreshold (x : Query) (p : SearchParams) (w : Nat) : Nat :=
  match x.beam.getLast? with
  | some e => if x.beam.length < p.beamMax then 256 else min 256 (e.dist * 256 / w + p.slack)
  | none => 256

/-- The next hop is issued, or traversal ends: convergence, the filter rule, budgets (R66, R68, R81). -/
def issueHop (p : SearchParams) (i : Index) (late : Bool) : Nat → Query → Query
  | 0, x => { x with traversalEnded := true }
  | k + 1, x =>
    let f := unexpanded x
    if f == [] then
      (if x.filter.isSome && x.found.length < p.k && x.b < p.beamMax then
        issueHop p i late k { x with b := min (2 * x.b) p.beamMax, widened := true }
       else { x with traversalEnded := true })
    else if x.hops == p.maxHops || readCap i p ≤ x.reads then { x with traversalEnded := true }
    else if late then x
    else if !i.params.dramTier then
      let rs := chooseFlash (readCap i p - x.reads) f []
      { x with reading := rs, threshold := hopThreshold x p i.params.w, reads := x.reads + rs.length, hops := x.hops + 1,
               beam := markExpanded x.beam (rs.flatMap (fun r => r.2)) }
    else
      let c := chooseDram (readCap i p - x.reads) f { visited := x.visited }
      if c.done == [] then { x with traversalEnded := true }
      else
        { x with recs := c.recs, entryReads := c.entries, got := [], visited := c.visited, reads := x.reads + c.recs.length,
                 hops := x.hops + 1, beam := markExpanded x.beam c.done }

/-- The guard time of an LC query has come (R131). -/
def pastGuard (s : State) (x : Query) : Bool := x.lc && x.guard ≤ now s

/-- The next arrival number of read requests is taken (R73, R229). -/
def takeTicket (s : State) : State := { s with adm := { s.adm with tickets := s.adm.tickets + 1 } }

/-- The reads of a hop go out: they arrive at the scribe engines or the DRAM controllers after all requests before them, and the node map
entries that name places on flash are read (R44, R73, R229, R361). -/
def sendReads (s : State) (i : Index) (v : Version) (x : Query) : State :=
  let y := { x with ticket := s.adm.tickets }
  let rs := x.reading.flatMap (fun r => pairReads v r.1)
  let s1 := updQuery (takeTicket (touchReads s i rs)) x.slot (fun _ => y)
  if readsBad s i rs then failQuery s1 y stMediaUe else s1

/-- The next hop of a query. -/
def nextHop (s : State) (i : Index) (v : Version) (p : SearchParams) (x : Query) : State :=
  let y := issueHop p i (pastGuard s x) 8 x
  if y.reading == [] && y.recs == [] then updQuery s x.slot (fun _ => y) else sendReads s i v y

/-- The drift scan's reads go out, the beam is started and the first hop issued (R70, R72). A version without hubs and entry points has no
graph. -/
def startTraversal (s : State) (x : Query) : State :=
  match pinned s x, planAt s x.plan with
  | some (i, v), some p =>
    let x := { x with scanTicket := s.adm.tickets }
    let s := takeTicket s
    if v.hubs == [] && v.entries == [] then updQuery s x.slot (fun _ => { x with stage := .traverse, traversalEnded := true })
    else
      let useHubs := p.params.hubHops != 0 && v.hubs != []
      let rs := if useHubs then hubReads i v x.code p.params else []
      let s := touchReads s i rs
      if readsBad s i rs then failQuery s x stMediaUe
      else
        let es := if useHubs then hubSearch v i.params.w x.code p.params else listEntries v i.params.w x.code p.params
        nextHop s i v p.params { x with
          stage := .traverse, beam := sortBy beamBefore es, b := p.params.beam, visited := insertAllAsc (es.map (fun e => e.id)) [] }
  | _, _ => failQuery s x stNsBusy

/-! Pool and rerank (R80, R82, R99, R100). -/

/-- Best-of lists kept: RERANK_DEPTH, or K without a rerank (R99). -/
def poolSize (p : SearchParams) : Nat := if p.rerankDepth == 0 then p.k else p.rerankDepth

/-- Graph candidates after the kerf check, as words (R80). -/
def graphWords (i : Index) (x : Query) : List SortWord :=
  (x.found.filter (fun c => !i.kerf.contains c.2)).map (fun c =>
    searchWord (BitVec.ofNat 32 c.1) c.2 (if i.params.dramTier then 2 else 0))

/-- The merged union of a query's partial lists, its EQ_DROPPED records, and the candidates of the lists together (R81, R99, R100,
R102, R103). -/
def mergedPool (i : Index) (x : Query) (p : SearchParams) : List SortWord × List (Word32 × Nat) × Nat :=
  let g := cutList (graphWords i x) (poolSize p)
  let lists := (g.1, g.2) :: x.partials.map (fun e => e.2)
  let eqs := lists.filterMap (fun l => if l.2 == 0 then none else l.1.getLast?.map (fun w => (w.key, l.2)))
  (unionSearch (lists.map (fun l => l.1)), eqs, sumOf (lists.map (fun l => l.1.length)))

/-- The rerank read unit of a candidate whose slot lies on flash (R50). -/
def flashUnit (i : Index) (w : SortWord) : Option Nat :=
  if i.params.flashDirect && w.source != 1 then some (w.localId / slotsPerUnit i.params) else none

/-- Rerank read units of candidates, each once (R50, R83). -/
def flashUnits (i : Index) (ws : List SortWord) : List Nat := (ws.filterMap (flashUnit i)).eraseDups

/-- The slots of a pool are requested: flash read units go out to the scribe engines, one read for each, the others to the DRAM controllers
(R67, R73, R82, R83, R229). -/
def requestSlots (s : State) (i : Index) (v : Version) (x : Query) : State :=
  let us := flashUnits i x.slots
  let y := { x with reads := x.reads + us.length, ticket := s.adm.tickets }
  let rs := us.flatMap (slotReads v)
  let s1 := updQuery (takeTicket (touchReads s i rs)) x.slot (fun _ => y)
  if readsBad s i rs then failQuery s1 y stMediaUe else s1

/-- Traversal and drift scan have ended: the kerf check runs, the pool is formed, and its rerank slots are requested (R80,
R82, R99). -/
def formPool (s : State) (x : Query) : State :=
  match pinned s x, planAt s x.plan with
  | some (i, v), some p =>
    let rs := kerfReads (x.found.map (fun c => c.2))
    let s := touchReads s i rs
    if readsBad s i rs then failQuery s x stMediaUe
    else
      let m := mergedPool i x p.params
      requestSlots s i v { x with
        stage := .pool, poolReady := true, pool := m.1, eqDropped := m.2.1, candTotal := m.2.2, slots := m.1.take p.params.rerankDepth,
        rerankShort := decide (m.1.length < p.params.rerankDepth) }
  | _, _ => s

/-- The next flash reads of a BE query do not start while BE work is held: those of a hop on tier FLASH, and those of its rerank slots of
placement FLASH_DIRECT (R352). -/
def readsHeld (s : State) (x : Query) : Bool :=
  !x.lc && beHeld s &&
  (match x.index.bind (indexAt s), planAt s x.plan with
   | some i, some p => if x.traversalEnded then i.params.flashDirect && p.params.rerankDepth != 0 else !i.params.dramTier
   | _, _ => false)

/-- The pool follows when nothing of traversal and drift scan is left, and its flash reads may start (R352). -/
def settleSearch (s : State) (slot : Nat) : State :=
  match queryAt s slot with
  | some x => if x.stage == .traverse && x.traversalEnded && x.blocks == [] && !readsHeld s x then formPool s x else s
  | none => s

/-- A drift entry lies in the query's range, and its INSERT had completed at the decision (R52, R285). -/
def seesEntry (x : Query) (e : DriftEntry) : Bool := x.driftLo ≤ e.seq && e.seq < x.driftHi && !x.unseen.contains e.seq

/-- A valid drift entry of a local ID that a query may see, the youngest (R50, R101). -/
def driftEntryOf (i : Index) (x : Query) (n : Nat) : Option DriftEntry :=
  (i.drift.filter (fun e => e.id == n && e.valid && e.seq < x.driftHi && !x.unseen.contains e.seq)).getLast?

/-- Source of a RERANK candidate: its graph copy before its drift copy. -/
def candidateSource (i : Index) (v : Version) (x : Query) (n : Nat) : Option Nat :=
  let graph := match nodeAt v n with
    | some nd => nd.valid
    | none => false
  if graph then some (if i.params.dramTier then 2 else 0) else (driftEntryOf i x n).map (fun _ => 1)

/-- Candidates of a RERANK query that are present and not kerfed, as ordered words (R269). The query carries no code, so the
Hamming distance that keys a word is a free value (log entry 32). -/
def rerankWords (s : State) (i : Index) (v : Version) (x : Query) : List SortWord :=
  let ns := x.cands.filter (fun n => i.presence.contains n && !i.kerf.contains n)
  sortWords ((ns.zip (List.range ns.length)).filterMap (fun e => (candidateSource i v x e.1).map (fun src =>
    searchWord (BitVec.ofNat 32 ((Config.freeValue (s.free + e.2)).toNat % 2049)) e.1 src)))

/-- The pool of a RERANK query is formed (R82, R269). No filter is evaluated on its candidates: the manual names none for RERANK (log
entry 99). -/
def formRerank (s : State) (x : Query) : State :=
  match pinned s x, planAt s x.plan with
  | some (i, v), some p =>
    let rs := kerfReads x.cands ++ presenceReads x.cands
    let s := touchReads s i rs
    if readsBad s i rs then failQuery s x stMediaUe
    else
      let ws := rerankWords s i v x
      requestSlots { s with free := s.free + x.cands.length } i v { x with
        stage := .pool, poolReady := true, pool := ws, candTotal := ws.length, slots := ws.take p.params.rerankDepth,
        rerankShort := decide (ws.length < p.params.rerankDepth) }
  | _, _ => s

/-! Scores (R82, R424). -/

/-- BF16 operands of a vector in slot layout (R152). -/
def vectorNums (p : IndexParams) (v : Bytes) : List Num :=
  let fmt := if p.rfmt == 1 then 0x3 else 0x7
  (List.range p.rdim).map (fun e =>
    floatValue shapeBf16 (operandBf16 fmt p.rsck (vectorScale p v (e / groupSize p.rgs)) (elemCode fmt v e)))

/-- Operands as a rime unit takes them: subnormals flushed, keeping the sign (R157). -/
def flushBf16 (p : IndexParams) (v : Bytes) : List Num :=
  let fmt := if p.rfmt == 1 then 0x3 else 0x7
  (List.range p.rdim).map (fun e =>
    flushed false (operandBf16 fmt p.rsck (vectorScale p v (e / groupSize p.rgs)) (elemCode fmt v e)))

/-- A DOT of rime units: 1,024 elements at a time, accumulated (R194, R195). -/
def dotRime (a b : List Num) : Word32 :=
  let ps := (a.zip b).map (fun e => mulNum e.1 e.2)
  match piecesOf 1024 ps with
  | [] => 0
  | c :: r => r.foldl (fun acc d => add32 acc (laneTreeF d)) (laneTreeF c)

/-- The score of a slot against a query's vector: METRIC 0 IP, 1 L2, 2 COS (R424). -/
def scoreOf (p : IndexParams) (metric : Nat) (rime : Bool) (q slot : Bytes) : Word32 :=
  let qs := vectorNums p q
  let xs := vectorNums p slot
  let ip := if rime then dotRime (flushBf16 p q) (flushBf16 p slot) else dotCells qs xs
  let xx := if rime then dotRime (flushBf16 p slot) (flushBf16 p slot) else dotCells xs xs
  match metric with
  | 0 => ip
  | 1 => if rime then l2Rime ip (dotCells qs qs) xx else l2Cells qs xs
  | _ => cosOf ip (dotCells qs qs) xx

/-- Where a candidate's slot lies in DRAM: the store by its local ID, or the drift rerank buffer by its slot position; none for a slot on
flash (R50, R51). -/
def slotAddr (i : Index) (x : Query) (w : SortWord) : Option Nat :=
  if w.source == 1 then (driftEntryOf i x w.localId).map (fun e => placeAddr i .driftBuffer (e.seq % i.params.driftLimit))
  else if i.params.flashDirect then none else some (placeAddr i .store w.localId)

/-- The rerank slot of a candidate word, as it stands in DRAM or on flash (R50, R82). -/
def slotOf (s : State) (i : Index) (x : Query) (w : SortWord) : Bytes :=
  match slotAddr i x w with
  | some a => pageRead s a (slotBytes i.params)
  | none => (lookupKey i.store w.localId).getD []

/-- The slot of a candidate in DRAM meets poison (R236). -/
def slotBad (s : State) (i : Index) (x : Query) (w : SortWord) : Bool :=
  match slotAddr i x w with
  | some a => rangePoison s a (slotBytes i.params)
  | none => false

/-! The result (R84, R102 to R104, R132, R133). -/

/-- Cuts of a plan with a STAGE (R171). -/
def stageCuts (p : Plan) (k : Nat) : Nat := (p.cuts.filter (fun c => c.stage == k)).length

/-- A stage fraction: what is done of what there is, 1 for an absent stage. -/
def fractionOf (done total : Nat) : Nat × Nat := if total == 0 then (1, 1) else (min done total, total)

/-- Stage fractions f_t, f_d, f_r of a query, as (numerator, denominator): hops, drift entries and candidates where the plan searches, scans
and reranks, 1 for a traversal that ended normally; elsewhere the stage is a cut-list stage, by its cuts (R133; log entry 100). -/
def fractions (p : Plan) (x : Query) : (Nat × Nat) × (Nat × Nat) × (Nat × Nat) :=
  let n := min x.pool.length p.params.rerankDepth
  (if !scansDrift p then fractionOf x.doneT (stageCuts p 0)
   else if x.traversalEnded then (1, 1) else fractionOf x.hopsDone (max 1 p.params.maxHops),
   if scansDrift p then fractionOf x.scanned (x.driftHi - x.driftLo) else fractionOf x.doneD (stageCuts p 1),
   if p.kind == .encode || p.params.rerankDepth == 0 then fractionOf x.doneR (stageCuts p 2)
   else if x.poolReady then fractionOf (n - x.slots.length) n else (0, 1))

/-- COMPLETENESS of a truncated query, at most 254 (R133); a run scales its completed cuts to 255. A plan without a profile is
never truncated. -/
def completenessOf (p : Plan) (x : Query) : Nat :=
  match p.kind, p.profile with
  | .run, _ | .train, _ => min 254 (255 * (x.doneT + x.doneD + x.doneR) / max 1 p.cuts.length)
  | _, some f =>
    let (a, b, c) := fractions p x
    min 254 ((f.wT * a.1 * b.2 * c.2 + f.wD * b.1 * a.2 * c.2 + f.wR * c.1 * a.2 * b.2) / (a.2 * b.2 * c.2))
  | _, none => 0

/-- Truncations and the lowest completeness of a bay (R137). -/
def countTruncated (s : State) (b c : Nat) : State :=
  updCounters s b (fun k => { k with truncated := wrapAdd 64 k.truncated 1, minCompleteness := min k.minCompleteness c })

/-- Result entries of words with their Hamming distances and scores (R84). -/
def entriesOf (x : Query) (ws : List (SortWord × Nat × Word32)) : List (BitVec 128) :=
  ws.map (fun e => resultEntry e.2.2 e.2.1 e.1.source (x.index.getD 0) e.1.localId)

/-- A word of the Hamming order with its score: the distance as FP32 (R84, R132). -/
def hammingScore (w : SortWord) : SortWord × Nat × Word32 := (w, w.key.toNat, toFp32 (numOfInt (w.key.toNat : Nat)))

/-- Selection of K words and the result write (R84, R85, R102 to R104, R132); a media error met on the way comes first. -/
def writeResults (s : State) (x : Query) (p : Plan) (truncated byScore : Bool) : State :=
  match x.failed with
  | some st => failQuery s x st
  | none =>
  let pool := if byScore then sortBy (fun (a b : SortWord × Nat × Word32) => wordBefore a.1 b.1) x.scored else x.pool.map hammingScore
  let out := pool.take p.params.k
  let tie := tieCount (pool.map (fun e => e.1)) (out.map (fun e => e.1)) (if byScore then [] else x.eqDropped)
  let short := x.filter.isSome && x.candTotal < p.params.k
  let status := if truncated then stTruncated else if short then stFilterShort else stOk
  let comp := if truncated then completenessOf p x else 255
  let s1 := if out == [] then s else emit s (.entries x.q x.cid x.pos (resultAddr s x.q x.cid x.pos + 32) (entriesOf x out))
  let s2 := if truncated then countTruncated s1 x.bay comp else s1
  endQuery s2 x { status := status, version := x.version, nan := x.nanDropped, tieCount := tie, count := out.length,
                  completeness := comp, rerankShort := x.rerankShort, widened := x.widened }

/-! The encoder of ENCODE and ENCODE_SEARCH (R83, R133, R270). -/

/-- What the private encoder of a plan produces from a query's tokens, the same in every run: a code of W bits and a rerank vector in slot
layout, whose scale words are valid: one that R151 calls invalid is the zero-group word in its place (R151, R159, R160; log entry 10). -/
def encoderCodeOf (i : Index) (p : Plan) (x : Query) : Nat := Config.encoderCode p.digest.toNat x.tokens % 2 ^ i.params.w
def encoderVectorOf (i : Index) (p : Plan) (x : Query) : Bytes :=
  let v := Config.encoderVector p.digest.toNat x.tokens
  let bs := (List.range (vectorBytes i.params)).map (fun k => v.getD k (Config.unlaidByte p.digest.toNat k))
  let n := i.params.rdim / groupSize i.params.rgs
  bs.take (vectorBytes i.params - 2 * n) ++ (List.range n).flatMap (fun j =>
    let w := vectorScale i.params bs j
    natLe 2 (if scaleWordOk i.params.rsck w then w else 0x80))

/-- The encoder cuts of an ENCODE_SEARCH query, those of STAGE 0, have ended: its search begins with the code, once its reads may start
(R133, R270, R352). -/
def afterEncoder (s : State) (x : Query) (p : Plan) : State :=
  if x.opcode == 0x02 && x.stage == .cuts && x.doneT == stageCuts p 0 && !readsHeld s x then
    match x.index.bind (indexAt s) with
    | some i =>
      let y := { x with code := encoderCodeOf i p x, vec := encoderVectorOf i p x }
      settleSearch (startTraversal s y) x.slot
    | none => failQuery s x stNsBusy
  else s

/-! Rows. -/

/-- QUERY_WORK_START: at its start a query begins; BE work waits while the cap throttle holds it (R72, R122, R352). -/
def execQueryWorkStart (slot : Nat) (s : State) : Host.Outcome State Fault Refusal :=
  .next
    (match queryAt s slot with
     | none => s
     | some x =>
       if x.stage != .waiting || (!x.lc && beHeld s) then s
       else
         let s1 := advanceTo s x.startAt
         match x.opcode with
         | 0x01 => settleSearch (startTraversal s1 x) slot
         | 0x04 => formRerank s1 x
         | 0x02 =>
           let s2 := updQuery s1 slot (fun y => { y with stage := .cuts })
           (match queryAt s2 slot, planAt s2 x.plan with
            | some y, some p => afterEncoder s2 y p
            | _, _ => s2)
         | _ => updQuery s1 slot (fun y => { y with stage := .cuts }))

/-- Survivor words (R75): SELF [53], FPASS [52], DIST [51:40], LOCAL_ID [39:0]. -/
def survivorWord (self fpass : Bool) (dist n : Nat) : Word64 :=
  BitVec.ofNat 64 (n % 2 ^ 40 + dist % 4096 * 2 ^ 40 + (if fpass then 2 ^ 52 else 0) + (if self then 2 ^ 53 else 0))
def svSelf (w : Word64) : Bool := flag w 53
def svPass (w : Word64) : Bool := flag w 52
def svDist (w : Word64) : Nat := field w 40 12
def svId (w : Word64) : Nat := field w 0 40

/-- The survivor words of a record: its own distance and filter result first, then its neighbours within the threshold (R74, R75). -/
def recordSurvivors (i : Index) (v : Version) (x : Query) (n : Node) : List Word64 :=
  survivorWord true (passTagRange x.filter i.params.atype n.tag n.numeric) (hamming i.params.w x.code n.code) n.id ::
  n.nbrs.filterMap (fun m =>
    match nodeAt v m with
    | some y =>
      let d := sketchDist x.code y.code
      if d ≤ x.threshold then some (survivorWord false false d m) else none
    | none => none)

/-! The scribe engines' queues (R73). -/

/-- A read request that waits at a flash channel: the query's class and deadline, its arrival, its place among the requests that arrived
with it, and the read unit. -/
structure ScribeReq where
  lc : Bool
  deadline : Nat
  ticket : Nat
  place : Nat
  loc : UnitLoc

/-- Where a read unit or a rerank read unit of the query's version lies (R44, R50). -/
def unitPlace (v : Version) (x : Query) (u : Nat) : Option UnitLoc := lookupKey (if x.stage == .pool then v.rerankMap else v.nodeMap) u

/-- Class and deadline of a query's flash requests: those of a promoted context go as LC with the end of its quantum as deadline, within its
share (R73, R135). -/
def scribeClass (s : State) (x : Query) : Bool × Nat :=
  let until_ := promotedUntil s x.ctx 0 1
  (x.lc || until_.isSome, if x.lc then x.deadline else until_.getD 0)

/-- The read requests of a query that wait, by the node map or the rerank map of its version (R73). -/
def scribeReqs (s : State) (x : Query) : List ScribeReq :=
  match pinned s x with
  | none => []
  | some (i, v) =>
    let cls := scribeClass s x
    let locs := if x.stage == .pool then
        ((flashUnits i x.slots).filter (fun u => !x.rebuildUnits.contains u)).map (lookupKey v.rerankMap)
      else x.reading.map (fun r => lookupKey v.nodeMap r.1)
    (locs.zip (List.range locs.length)).filterMap (fun e => e.1.map (fun l =>
      { lc := cls.1, deadline := cls.2, ticket := x.ticket, place := e.2, loc := l }))

/-- The seven reads of a unit's stripe that its rebuild queues, each on its own channel with the request's class and deadline (R43, R73). -/
def stripeReqs (s : State) (x : Query) (u : Nat) (loc : Option UnitLoc) : List ScribeReq :=
  match loc with
  | none => []
  | some l =>
    let cls := scribeClass s x
    (otherUnits l).map (fun o => { lc := cls.1, deadline := cls.2, ticket := (lookupKey x.rebuildTickets u).getD 0, place := 0, loc := o })

/-- Order of service: LC before BE, then the earlier deadline, then arrival (R73). -/
def scribeBefore (a b : ScribeReq) : Bool :=
  if a.lc != b.lc then a.lc
  else if a.deadline != b.deadline then a.deadline < b.deadline
  else if a.ticket != b.ticket then a.ticket < b.ticket
  else a.place < b.place

/-- A die programs or erases: its reads wait for the end of the piece (R73, R120). -/
def dieBusy (s : State) (l : UnitLoc) : Bool :=
  s.health.dies.any (fun d => d.channel == l.channel && d.die == l.die && d.piece.any (fun p => p.1 ≤ now s))

/-- The read of a unit is the next that its channel's engine completes: the die is not programming or erasing, and every request that
comes before it on the channel waits for such a die (R73, R115; log entry 101). -/
def scribeTurn (s : State) (x : Query) (loc : Option UnitLoc) : Bool :=
  match loc with
  | none => true
  | some l =>
    !dieBusy s l &&
    (match (scribeReqs s x).find? (fun r => r.loc == l) with
     | none => true
     | some r =>
       s.adm.queries.all (fun y => (scribeReqs s y).all (fun o => o.loc.channel != l.channel || dieBusy s o.loc || !scribeBefore o r)))

/-- The seven stripe reads of a rebuild have had their turn: no request that was there before them waits ahead of one on its channel, other
than for a die that programs or erases (R43, R73). -/
def stripeTurn (s : State) (rs : List ScribeReq) : Bool :=
  rs.all (fun r => s.adm.queries.all (fun y => (scribeReqs s y).all (fun o =>
    o.loc.channel != r.loc.channel || dieBusy s o.loc || r.ticket ≤ o.ticket || !scribeBefore o r)))

/-- A read of a BE query that goes as LC uses the share of its promoted context (R135). -/
def chargeFlash (s : State) (x : Query) : State := if x.lc then s else usePromoted s x.ctx 0 1

/-- A unit is in a lost-unit table (R359). -/
def unitLost (s : State) (loc : Option UnitLoc) : Bool := loc.any (fun l => s.health.lostUnits.contains (l.channel, l.die, l.unit))

/-- A read unit goes to its rebuild: the seven stripe reads take the next arrival number (R43, R73). -/
def startRebuild (s : State) (x : Query) (u : Nat) : State × Query :=
  (takeTicket s, { x with rebuildTickets := putKey x.rebuildTickets u s.adm.tickets })

/-! The DRAM controllers' queues (R229). -/

/-- A read request that waits at the DRAM controllers: the query's class and deadline, its arrival, its channels and its bytes. -/
structure DramReq where
  lc : Bool
  deadline : Nat
  ticket : Nat
  channels : List Nat
  bytes : Nat

/-- Channels on which n bytes of the device range lie; 32 KiB reach every one (R219, R220). -/
def channelsOf (s : State) (a n : Nat) : List Nat :=
  if 32768 ≤ n then List.range 128
  else
    ((List.range ((a + n - 1) / 256 - a / 256 + 1)).filterMap (fun k =>
      let b := 256 * (a / 256 + k)
      (descOfPage s (b / pageBytes)).map (fun d => (blockRow s d (b % pageBytes)).1 / 32))).eraseDups

/-- A query's request for bytes on some channels; of a promoted context, as LC with the end of its quantum as deadline, within its share
(R135, R229). -/
def dramReq (s : State) (x : Query) (ticket : Nat) (channels : List Nat) (bytes : Nat) : DramReq :=
  let until_ := promotedUntil s x.ctx 2 bytes
  { lc := x.lc || until_.isSome, deadline := if x.lc then x.deadline else until_.getD 0, ticket := ticket, channels := channels, bytes := bytes }

/-- A compact record with its attributes, the drift entries of a block, and a rerank slot in DRAM, as requests (R46, R47, R50, R51, R72). -/
def recordReq (s : State) (i : Index) (x : Query) (n : Nat) : DramReq :=
  let z := compactBytes i.params
  dramReq s x x.ticket (channelsOf s (placeAddr i .compact n) z ++ channelsOf s (placeAddr i .attributes n) 32) (z + 32)
def blockReq (s : State) (i : Index) (x : Query) : DramReq :=
  dramReq s x x.scanTicket (List.range 128) (4096 * (32 + i.params.w / 8))
def slotReq (s : State) (i : Index) (x : Query) (a : Nat) : DramReq :=
  dramReq s x x.ticket (channelsOf s a (slotBytes i.params)) (slotBytes i.params)

/-- The requests of a query that wait at the DRAM controllers. -/
def dramReqs (s : State) (x : Query) : List DramReq :=
  match pinned s x with
  | none => []
  | some (i, _) =>
    match x.stage with
    | .traverse => x.recs.map (recordReq s i x) ++ x.blocks.map (fun _ => blockReq s i x)
    | .pool => (x.slots.filterMap (slotAddr i x)).map (slotReq s i x)
    | _ => []

/-- BE bytes that a channel has had in this 10 µs interval of the DTB (R229). -/
def beBytes (s : State) (c : Nat) : Nat :=
  sumOf ((s.tier.beBus.filter (fun e => e.1 == c && e.2.1 == now s / 10000)).map (fun e => e.2.2))

/-- The time left in the interval is no more than the BE time still owed on a channel, of 1,000 ns at 19.2 bytes a nanosecond; no floor holds
while BE work is throttled (R22, R229, R352). -/
def beFirst (s : State) (c : Nat) : Bool :=
  !beHeld s && 96 * (10000 - now s % 10000) + 5 * beBytes s c ≤ 96000

/-- Order of service on a channel: LC before BE, the other way round while BE is owed, the earlier deadline of LC, then arrival (R229). -/
def dramBefore (owed : Bool) (a b : DramReq) : Bool :=
  if a.lc != b.lc then a.lc != owed
  else if a.lc && a.deadline != b.deadline then a.deadline < b.deadline
  else a.ticket < b.ticket

/-- The request is the next that its channels complete (R115, R229; log entry 135). -/
def dramTurn (s : State) (r : DramReq) : Bool :=
  s.adm.queries.all (fun y => (dramReqs s y).all (fun o =>
    !r.channels.any (fun c => o.channels.contains c && dramBefore (beFirst s c) o r)))

/-- A read that its channels have completed: of a BE query, bytes of the channels' BE time, or of the share of its promoted context (R135,
R229). -/
def chargeDram (s : State) (x : Query) (r : DramReq) : State :=
  if x.lc then s
  else if r.lc then usePromoted s x.ctx 2 r.bytes
  else
    let n := now s / 10000
    let part := ceilDiv r.bytes (max 1 r.channels.length)
    { s with tier := { s.tier with
        beBus := s.tier.beBus.filter (fun e => e.2.1 == n && !r.channels.contains e.1) ++
          r.channels.eraseDups.map (fun c => (c, n, beBytes s c + part)) } }

/-- A record of a read unit passes the scribe engine's check (R43, R74): none of its bytes was read other than written and the copy is
valid and not newer than the pinned version, or the altered unit passes all the same. -/
def nodeGood (i : Index) (v : Version) (x : Query) (pair : Nat) (diff : List (Nat × Byte)) (n : Nat) : Bool :=
  match nodeAt v n with
  | none => false
  | some nd =>
    nd.valid && nd.version ≤ x.version &&
    (diff == [] ||
      (let unit := diff.foldl (fun (bs : Bytes) e => bs.set e.1 e.2) (pairBytes i.params i.num v pair)
       flag (sliceOf unit (2048 * (n % 2) + 1) 1 |>.getD 0 0) 0 && recordCheck i.num x.version n unit))

/-- SCRIBE_READ_COMPLETE: the next read of a channel; the wanted records are checked and their survivors returned; a failing unit goes to
its rebuild, a lost one ends the query (R43, R73, R74, R359). -/
def execScribeReadComplete (slot pair : Nat) (m : UnitRead) (s : State) : Host.Outcome State Fault Refusal :=
  .next
    (match queryAt s slot with
     | none => s
     | some x =>
       match lookupKey x.reading pair, pinned s x with
       | some ids, some (i, v) =>
         if !scribeTurn s x (lookupKey v.nodeMap pair) then s
         else
         let s := chargeFlash s x
         if i.lost.contains pair || unitLost s (lookupKey v.nodeMap pair) then failQuery s x stMediaUe
         else
           let ok := fun (n : Nat) => m.media != .uncorrectable && nodeGood i v x pair m.diff n
           let y := { x with
             reading := dropKey x.reading pair,
             survivors := x.survivors ++ ((ids.filter ok).filterMap (nodeAt v)).flatMap (recordSurvivors i v x) }
           let bad := ids.filter (fun n => !ok n)
           if bad == [] then updQuery s slot (fun _ => y)
           else
             let r := startRebuild s { y with rebuilding := y.rebuilding ++ [(pair, bad)] } pair
             updQuery r.1 slot (fun _ => r.2)
       | _, _ => s)

/-- A hop's survivors taken as a set: exact distances and candidates, then unvisited neighbours with their estimates (R68,
R69, R79, R160). -/
def applySurvivors (s : State) (i : Index) (p : SearchParams) (x : Query) : Query :=
  let selfs := x.survivors.filter svSelf
  let nbrs := x.survivors.filter (fun v => !svSelf v)
  let beam1 := x.beam.map (fun e => match selfs.find? (fun v => svId v == e.id) with
    | some v => { e with dist := svDist v, exact := true }
    | none => e)
  let cands := (selfs.filter (fun v => svPass v && passSet s x (svId v))).map (fun v => (svDist v, svId v))
  let fresh := unvisited x.visited (nbrs.map svId)
  let added := fresh.filterMap (fun n => (nbrs.find? (fun v => svId v == n)).map (fun v =>
    ({ dist := svDist v * i.params.w / 256, id := n } : BeamEntry)))
  { x with beam := beamCut p.beamMax (beam1 ++ added), found := x.found ++ cands, visited := insertAllAsc fresh x.visited,
           survivors := [], hopsDone := x.hops }

/-- A compact record of a version as a query read it: as written, or as its read delivered it otherwise (R46, R355). -/
def recordMet (v : Version) (x : Query) (n : Nat) : Option Node :=
  (nodeAt v n).map (fun y => match lookupKey x.readAs n with
    | some r => { y with code := r.1, nbrs := r.2 }
    | none => y)

/-- The compact records of a hop taken as a set: entry points get their exact distances, the other nodes enter the beam, and each keeps
its neighbour IDs (R68, R71, R160). -/
def applyRecords (v : Version) (w : Nat) (p : SearchParams) (x : Query) : Query :=
  let read := x.got.filterMap (recordMet v x)
  let mine := fun (n : Nat) => read.find? (fun r => r.id == n)
  let beam1 := x.beam.map (fun e => match mine e.id with
    | some r => { e with dist := hamming w x.code r.code, exact := true, nbrs := some r.nbrs }
    | none => e)
  let added := (read.filter (fun r => !x.entryReads.contains r.id)).map (fun r =>
    ({ dist := hamming w x.code r.code, id := r.id, exact := true, nbrs := some r.nbrs } : BeamEntry))
  { x with beam := beamCut p.beamMax (beam1 ++ added), got := [], readAs := [], entryReads := [], hopsDone := x.hops }

/-- Nothing of a hop is outstanding. -/
def hopOver (x : Query) : Bool :=
  x.stage == .traverse && !x.traversalEnded && x.reading == [] && x.rebuilding == [] && x.recs == []

/-- The end of a hop: its survivors or records are taken, and the next hop is issued or traversal ends (R66, R68, R71). A set bitmap block
that is poisoned ends the query (R236). -/
def endHop (s : State) (x : Query) : State :=
  match pinned s x, planAt s x.plan with
  | some (i, v), some p =>
    if (x.survivors.filter (fun w => svSelf w && svPass w)).any (fun w => setBad s x (svId w)) then failQuery s x stMediaUe
    else
      let y := if i.params.dramTier then applyRecords v i.params.w p.params x else applySurvivors s i p.params x
      settleSearch (nextHop s i v p.params y) x.slot
  | _, _ => s

/-- HOP_COMPLETE: all survivors or records of the hop are here; what waited for the end of a throttle, a hop, the traversal or the requests
for rerank slots, goes on (R66, R68, R352). -/
def execHopComplete (slot : Nat) (s : State) : Host.Outcome State Fault Refusal :=
  .next
    (match queryAt s slot with
     | none => s
     | some x =>
       if readsHeld s x then s
       else if hopOver x then endHop s x
       else
         match planAt s x.plan with
         | some p => if x.stage == .cuts then afterEncoder s x p else settleSearch s slot
         | none => s)

/-- The records of the hop's entry points have all been read: the records of their unvisited neighbours follow, as long as reads are left; of
more than the reads left, those of the lowest local IDs (R66, R71; DESIGN CHOICE, log entry 128). -/
def followEntries (v : Version) (room : Nat) (x : Query) : Query :=
  if x.recs != [] || x.entryReads == [] then x
  else
    let met := x.entryReads.filter (fun n => x.got.contains n)
    let fresh := (unvisited x.visited ((met.filterMap (recordMet v x)).flatMap (fun n => n.nbrs))).filter (fun n => !x.got.contains n)
    let more := fresh.take room
    { x with recs := more, reads := x.reads + more.length, visited := insertAllAsc more x.visited }

/-- A compact record and its attributes as their bytes give them (R46, R47). -/
def recordOf (p : IndexParams) (n : Node) (bs attrs : Bytes) : Node :=
  { n with code := leAt bs 0 (p.w / 8), nbrs := ((List.range 32).map (fun k => leAt bs (p.w / 8 + 4 * k) 4)).filter (fun x => x != 0xFFFFFFFF),
           tag := BitVec.ofNat 128 (leAt attrs 0 16), numeric := BitVec.ofNat 32 (leAt attrs 16 4), valid := leAt attrs 20 12 % 2 == 1 }

/-- A compact record and its attributes are read: the state after it, the bytes of both, and whether a block of them is poisoned or
uncorrectable; the blocks of the attributes count on from the record's (R46, R47, R229, R236, R355). -/
def readRecord (s : State) (i : Index) (n : Nat) (m : DramRead) : State × Bytes × Bytes × Bool :=
  let a := placeAddr i .compact n
  let z := compactBytes i.params
  let k := z / 64
  let r := dramRead s a z m.wrong
  let t := dramRead r.1 (placeAddr i .attributes n) 32 ((m.wrong.filter (fun e => decide (k ≤ e.1))).map (fun e => (e.1 - k, e.2)))
  (if m.media == .uncorrectable then poisonDev t.1 a else t.1, r.2.1, t.2.1, m.media == .uncorrectable || r.2.2 || t.2.2)

/-- DRAM_RECORD_READ_DONE: distance, filter result and neighbours of a compact record, in its turn at its channels; a record that is not valid
is not met; an entry point's neighbours follow while reads are left (R46, R47, R71, R229, R236, R355). -/
def execDramRecordReadDone (slot localId : Nat) (m : DramRead) (s : State) : Host.Outcome State Fault Refusal :=
  .next
    (match queryAt s slot with
     | none => s
     | some x =>
       match pinned s x, planAt s x.plan with
       | some (i, v), some p =>
         let req := recordReq s i x localId
         if !x.recs.contains localId || !dramTurn s req then s
         else
           let r := readRecord (chargeDram s x req) i localId m
           if r.2.2.2 || setBad r.1 x localId then failQuery r.1 x stMediaUe
           else
             let y := { x with recs := removeFirst (fun n => n == localId) x.recs }
             let z := match (nodeAt v localId).map (fun n => if m.wrong == [] then n else recordOf i.params n r.2.1 r.2.2.1) with
               | none => y
               | some n =>
                 if !n.valid then y
                 else
                   let pass := passTagRange x.filter i.params.atype n.tag n.numeric && passSet r.1 x localId
                   { y with got := insertAsc localId y.got,
                            readAs := if m.wrong == [] then y.readAs else putKey y.readAs localId (n.code, n.nbrs),
                            found := if pass then y.found ++ [(hamming i.params.w x.code n.code, localId)] else y.found }
             let w := followEntries v (readCap i p.params - z.reads) z
             if z.recs == [] && w.recs != [] then updQuery (takeTicket r.1) slot (fun _ => { w with ticket := r.1.adm.tickets })
             else updQuery r.1 slot (fun _ => w)
       | _, _ => s)

/-- DRIFT_BLOCK_SCANNED: valid entries of the query's range that pass the filter and whose kerf bit is clear are offered to the
cell's partial list, in the block's turn at the DRAM channels (R52, R72, R96, R99, R229). -/
def execDriftBlockScanned (slot block cell : Nat) (s : State) : Host.Outcome State Fault Refusal :=
  .next
    (match queryAt s slot with
     | none => s
     | some x =>
       match x.index.bind (indexAt s), planAt s x.plan with
       | some i, some p =>
         let req := blockReq s i x
         let inBlock := fun (e : DriftEntry) => e.seq / 4096 == block && seesEntry x e
         let met := (i.drift.filter (fun e => inBlock e && e.valid && passTagRange x.filter i.params.atype e.tag e.numeric))
         if x.stage != .traverse || !x.blocks.contains block || !dramTurn s req then s
         else
         let rs := (i.drift.filter inBlock).map (fun e => (⟨.driftList, e.seq % i.params.driftLimit, 0, 32 + i.params.w / 8⟩ : PartRead)) ++
           kerfReads ((met.filter (fun e => passSet s x e.id)).map (fun e => e.id))
         let s := touchReads (chargeDram s x req) i rs
         if readsBad s i rs || met.any (fun e => setBad s x e.id) then
           failQuery s x stMediaUe
         else
           let es := met.filter (fun e => passSet s x e.id && !i.kerf.contains e.id)
           let ws := es.map (fun e => searchWord (BitVec.ofNat 32 (hamming i.params.w x.code e.code)) e.id 1)
           let old := (lookupKey x.partials cell).getD ([], 0)
           let new := offerWords old.1 old.2 ws (poolSize p.params)
           let n := min x.driftHi (4096 * (block + 1)) - max x.driftLo (4096 * block)
           settleSearch (updQuery s slot (fun y => { y with
             partials := putKey y.partials cell new, scanned := y.scanned + n,
             blocks := y.blocks.filter (fun b => b != block) })) slot
       | _, _ => s)

/-- A candidate scored with its slot as read; a NaN score drops it (R82, R91). -/
def scoreSlot (i : Index) (p : Plan) (x : Query) (w : SortWord) (slot : Bytes) : Query :=
  let sc := scoreOf i.params p.params.metric p.params.rime x.vec slot
  let rest := x.slots.filter (fun y => y.localId != w.localId)
  if isNan32 sc then { x with slots := rest, nanDropped := x.nanDropped + 1 }
  else
    { x with slots := rest,
             scored := x.scored ++ [({ w with key := keyOfFp32 (p.params.metric != 1) sc }, w.key.toNat, sc)] }

/-- The candidates whose slots lie in a rerank read unit, scored with one read (R83). -/
def scoreUnit (i : Index) (p : Plan) (x : Query) (u : Nat) : Query :=
  (x.slots.filter (fun w => flashUnit i w == some u)).foldl (fun y w => scoreSlot i p y w ((lookupKey i.store w.localId).getD []))
    { x with rebuildUnits := x.rebuildUnits.filter (fun n => n != u) }

/-- A rerank slot in DRAM is read: the state after it, its bytes, and whether a block of them is poisoned or uncorrectable (R50, R229, R236,
R355). -/
def readSlot (s : State) (i : Index) (a : Nat) (m : DramRead) : State × Bytes × Bool :=
  let r := dramRead s a (slotBytes i.params) m.wrong
  (if m.media == .uncorrectable then poisonDev r.1 a else r.1, r.2.1, m.media == .uncorrectable || r.2.2)

/-- RERANK_SLOT_ARRIVAL: a slot in DRAM, or the read unit with the candidate's slot, in its turn at its channel; an uncorrectable read
unit is rebuilt, any other bad slot and a lost read unit end the query (R43, R50, R73, R82, R83, R86, R229, R359). -/
def execRerankSlotArrival (slot localId : Nat) (m : DramRead) (s : State) : Host.Outcome State Fault Refusal :=
  .next
    (match queryAt s slot with
     | none => s
     | some x =>
       match x.slots.find? (fun w => w.localId == localId), pinned s x, planAt s x.plan with
       | some w, some (i, v), some p =>
         if x.stage != .pool then s
         else
           match flashUnit i w, slotAddr i x w with
           | none, some a =>
             let req := slotReq s i x a
             if !dramTurn s req then s
             else
               let r := readSlot (chargeDram s x req) i a m
               if r.2.2 then failQuery r.1 x stMediaUe else updQuery r.1 slot (fun _ => scoreSlot i p x w r.2.1)
           | none, none => updQuery s slot (fun y => { y with slots := y.slots.filter (fun u => u.localId != localId) })
           | some u, _ =>
             if x.rebuildUnits.contains u || !scribeTurn s x (lookupKey v.rerankMap u) then s
             else
               let s := chargeFlash s x
               if unitLost s (lookupKey v.rerankMap u) then failQuery s x stMediaUe
               else if m.media == .uncorrectable then
                 let r := startRebuild s { x with rebuildUnits := x.rebuildUnits ++ [u] } u
                 updQuery r.1 slot (fun _ => r.2)
               else updQuery s slot (fun _ => scoreUnit i p x u)
       | _, _, _ => s)

/-- A unit's stripe has lost another unit (R358). -/
def placeBroken (s : State) (l : Option UnitLoc) : Bool :=
  match l with
  | some u => stripeBroken s u.channel u.die u.unit
  | none => false

/-- BRACE_REBUILD_DONE: the seven stripe reads have had their turns; their XOR is the unit as written (rebuiltUnit), so its records give their
survivors and the slots of a rerank read unit their scores; or a second unit failed and the query ends with ST_MEDIA_UE. In the rerank the unit
is a rerank read unit (R43, R73, R86, R358; log entry 101). -/
def execBraceRebuildDone (slot pair : Nat) (ok : Bool) (s : State) : Host.Outcome State Fault Refusal :=
  .next
    (match queryAt s slot with
     | none => s
     | some x =>
       match pinned s x, planAt s x.plan with
       | some (i, v), some p =>
         if x.stage == .pool then
           (if !x.rebuildUnits.contains pair || !stripeTurn s (stripeReqs s x pair (lookupKey v.rerankMap pair)) then s
            else if !ok || pastGuard s x || placeBroken s (lookupKey v.rerankMap pair) then failQuery s x stMediaUe
            else updQuery s slot (fun _ => { scoreUnit i p x pair with rebuildTickets := dropKey x.rebuildTickets pair }))
         else
           (match lookupKey x.rebuilding pair with
            | none => s
            | some ids =>
              if !stripeTurn s (stripeReqs s x pair (lookupKey v.nodeMap pair)) then s
              else if !ok || pastGuard s x || placeBroken s (lookupKey v.nodeMap pair) then failQuery s x stMediaUe
              else
                updQuery s slot (fun y => { y with
                  rebuilding := dropKey y.rebuilding pair, rebuildTickets := dropKey y.rebuildTickets pair,
                  survivors := y.survivors ++ (ids.filterMap (nodeAt v)).flatMap (recordSurvivors i v y) }))
       | _, _ => s)

/-- RERANK_DONE: selection of K results and the result write (R82, R84, R104). -/
def execRerankDone (slot : Nat) (s : State) : Host.Outcome State Fault Refusal :=
  .next
    (match queryAt s slot with
     | none => s
     | some x =>
       match planAt s x.plan with
       | some p =>
         if x.stage != .pool || x.slots != [] then s else writeResults s x p false (p.params.rerankDepth != 0)
       | none => s)

/-- The weight object on whose arrival a cut waits (R172, R183). -/
def arrivalOf (p : Plan) (d : Cut) : Option WeightObj :=
  if d.waitPeg == 0xFFFF then none
  else (p.pegs[d.waitPeg]?).bind (fun b => if b.kind == 2 then p.weights[b.ref]? else none)

/-- A query's work consists of cuts now. -/
def runsCuts (x : Query) : Bool := x.stage == .cuts || x.stage == .traverse || x.stage == .pool

/-- The wait peg of a cut has reached its value; a binding without a peg never does (R171, R172). -/
def waitPegReached (s : State) (p : Plan) (x : Query) (d : Cut) : Bool :=
  d.waitPeg == 0xFFFF ||
  (match (bindingPeg p x d.waitPeg).bind (pegAt s) with
   | some g => decide (d.waitValue ≤ g.value.toNat)
   | none => false)

/-- Cuts of a query that wait on their weights: in their turn, with an arrival peg that has not reached its value (R183). -/
def arrivalDue (s : State) (p : Plan) (x : Query) : List Nat :=
  (waitingCuts p x).filter (fun c => match p.cuts[c]? with
    | some d => (arrivalOf p d).isSome && !waitPegReached s p x d
    | none => false)

/-- Running cuts of a query that wait inside their bodies: for an object's rebuild, or for a rime request whose home piece is relocated
(R165, R212, R237). -/
def heldCuts (s : State) (x : Query) : List Nat :=
  (x.running.filter (fun r => rimeMoving s x.slot || r.held != [])).map (fun r => r.cut)

/-- The cuts that a query waits with at its guard are abandoned, and counted (R131, R165, R183, R188, R237). -/
def abandonCuts (s : State) (x : Query) (p : Plan) : State :=
  let n := if runsCuts x then (arrivalDue s p x).length + (heldCuts s x).length else 0
  updPlan s p.handle (fun y => { y with counters := { y.counters with cutsAbandoned := satAdd 64 y.counters.cutsAbandoned n } })

/-- The candidates over which a query abandoned at its guard selects; none where a kerf bit that the check reads is poisoned (R104,
R131, R132, R236). -/
def truncatedPool (s : State) (x : Query) (p : Plan) : Option Query :=
  if x.poolReady || p.kind == .rerank then some x
  else
    match pinned s x with
    | some (i, _) =>
      if kerfBad s i (x.found.map (fun c => c.2)) then none
      else let m := mergedPool i x p.params; some { x with pool := m.1, eqDropped := m.2.1, candTotal := m.2.2 }
    | none => some x

/-- A query abandoned at its guard selects over the pool it holds; a media error met on the way comes first (R85, R131 to R133). -/
def truncateQuery (s : State) (x : Query) (p : Plan) : State :=
  match x.failed with
  | some st => failQuery s x st
  | none =>
    match p.kind with
    | .search | .encodeSearch | .rerank =>
      (match truncatedPool s x p with
       | some y => writeResults s { y with rerankShort := p.params.rerankDepth != 0 } p true false
       | none => failQuery s x stMediaUe)
    | _ =>
      let c := completenessOf p x
      endQuery (countTruncated s x.bay c) x { status := stTruncated, version := x.version, completeness := c }

/-- GUARD_TIME: everything stops, and the cuts that wait are abandoned; a rebuild that is not over ends the query with ST_MEDIA_UE;
convergence and budget stops come first, so a hop whose reads are all in is ended before; work that had ended goes on to its result. A query
whose traversal ends in this tick but whose drift blocks or rerank slots are left is truncated (R43, R130 to R133, R136, R183; the last a DESIGN
CHOICE, log entry 133). -/
def execGuardTime (slot : Nat) (s : State) : Host.Outcome State Fault Refusal :=
  .next
    (match queryAt s slot with
     | none => s
     | some x =>
       if !x.lc || x.stage == .done then s
       else
         let s0 := advanceTo s x.guard
         let s1 := match planAt s0 x.plan with
           | some p => abandonCuts s0 x p
           | none => s0
         if x.rebuilding != [] || x.rebuildUnits != [] then failQuery s1 x stMediaUe
         else
           let s2 := if hopOver x then endHop s1 x else s1
           match queryAt s2 slot with
           | none => s2
           | some y =>
             match planAt s2 y.plan with
             | none => s2
             | some p => if y.stage == .done || (y.stage == .pool && y.slots == []) then s2 else truncateQuery s2 y p)

end Sys2Proof.Machine
end

