-- ==== Sys2Proof/Machine/Cells.lean ====
section
/-! DEFINITION. Cells and arrays: the places that cut code reaches and what it may not, vector registers, and the threads of a cell
(R162, R164, R165, R174, R182, R304). -/

namespace Sys2Proof.Machine

open Sys2Proof

/-! Places (R162, R165, R304). -/

/-- Bytes of a cell store and of an array store (R162). -/
def cellBytes : Nat := 32768
def arrayBytes : Nat := 1048576

/-- A page that is pinned for a query's plan: of a DRAM or bank-local region, or of a FLASH region and pinned by that plan (R165, R227). -/
def planPage (s : State) (x : Query) (page : Nat) : Bool :=
  pagePinned s page && ((regionOfPage s page).any (fun r => r.kind != 2) || (planAt s x.plan).any (fun p => p.pinned.contains page))

/-- DRAM that cut code of a query may access: in its context's address space, and pinned for its plan (R165, R216). -/
def dramReach (s : State) (x : Query) (a n : Nat) : Bool := n == 0 || (inSpace s x.ctx a n && (pagesOf a n).all (planPage s x))

/-- Why cut code of a query on some arrays may not access n bytes at a place: a store beyond its size or of another array, or DRAM outside its
reach (R162, R165, R304). -/
def placeFault (s : State) (x : Query) (as_ : List Nat) (n : Nat) (pl : Place) : Option Nat :=
  match pl with
  | .cell c a => if as_.contains (c / 64) && a + n ≤ cellBytes then none else some faultCode
  | .array b a => if as_.contains b && a + n ≤ arrayBytes then none else some faultCode
  | .dram a => if dramReach s x a n then none else some faultSpace

/-- Bytes at a place. -/
def placeRead (s : State) (pl : Place) (n : Nat) : Bytes :=
  match pl with
  | .cell c a => memReadBytes s.cells.cellStore (cellBytes * c + a) n
  | .array b a => memReadBytes s.cells.arrayStore (arrayBytes * b + a) n
  | .dram a => devRead s a n

/-- Bytes written at a place. -/
def placeWrite (s : State) (pl : Place) (bs : Bytes) : State :=
  match pl with
  | .cell c a => { s with cells := { s.cells with cellStore := memWriteBytes s.cells.cellStore (cellBytes * c + a) bs } }
  | .array b a => { s with cells := { s.cells with arrayStore := memWriteBytes s.cells.arrayStore (arrayBytes * b + a) bs } }
  | .dram a => devWrite s a bs

/-! Hint LAST (R226). -/

/-- Sectors that an address range covers wholly. -/
def wholeSectors (addr bytes : Nat) : List Nat :=
  let lo := ceilDiv addr 4096
  let hi := (addr + bytes) / 4096
  (List.range (hi - lo)).map (fun i => 4096 * (lo + i))

/-- After a read with hint LAST: DIRTY cleared for every sector read wholly, the frame DONE, the content unspecified (R226). -/
def afterLast (s : State) (sector : Nat) : State :=
  match frameOfPage s (sector / pageBytes) with
  | none => s
  | some e =>
    if e.state == .dram || e.state == .local_ then s
    else
      let bit := 1#64 <<< (sector % pageBytes / 4096)
      let s1 := setFrame s { e with dirty := e.dirty &&& ~~~bit, cls := 3 }
      { s1 with tier := { s1.tier with unspecified := insertAsc sector s1.tier.unspecified } }

/-! Places read. -/

/-- What a read of n bytes at a place leaves on DRAM: REF set, the class after the region's hint, and LAST on the sectors it covers (R221,
R226). -/
def touchPlace (s : State) (pl : Place) (n : Nat) : State :=
  match pl with
  | .dram a =>
    (wholeSectors a n).foldl (fun st k => if effectiveHint st 0 (k / pageBytes) == 3 then afterLast st k else st)
      ((pagesOf a n).foldl (fun st page =>
        let h := effectiveHint st 0 page
        if h == 1 then st else touchPage st page h) s)
  | .cell _ _ | .array _ _ => s

/-- n bytes read at a place meet poison (R236). -/
def placeBad (s : State) (pl : Place) (n : Nat) : Bool :=
  match pl with
  | .dram a => rangePoison s a n
  | .cell _ _ | .array _ _ => false

/-- A cut's request meets a media error: it ends with ST_MEDIA_UE at the end of the cut (R85, R236). -/
def failCut (s : State) (x : Query) : State := updQuery s x.slot (fun y => { y with failed := some stMediaUe })

/-- Bytes that cut code of a query writes, with what its plan counts; a place out of reach is a fault of its context (R165, R188,
R304). -/
def cutWrite (s : State) (x : Query) (as_ : List Nat) (ws : List (Place × Bytes)) (count : PlanCounters → PlanCounters) : State :=
  match ws.findSome? (fun w => placeFault s x as_ w.2.length w.1) with
  | some k => faultContext s x.ctx k
  | none => updPlan (ws.foldl (fun st w => placeWrite st w.1 w.2) s) x.plan (fun p => { p with counters := count p.counters })

/-- The query whose cut runs on the array of a cell. -/
def cellOwner (s : State) (cell : Nat) : Option Query :=
  s.adm.queries.find? (fun x => match planAt s x.plan with
    | some p => x.running.any (fun r => (cutArrays p r.cut).contains (cell / 64))
    | none => false)

/-! Vector registers (R162). -/

/-- Lanes of a vector register, 64 of 80 bits. -/
def vectorLanes (s : State) (cell reg : Nat) : List (BitVec 80) :=
  let ls := (lookupKey s.cells.vregs (32 * cell + reg)).getD []
  ls ++ List.replicate (64 - ls.length) 0

/-- Lanes of a vector register written, from lane 0 on. -/
def writeLanes (s : State) (cell reg : Nat) (ls : List (BitVec 80)) : State :=
  let new := ls.take 64 ++ (vectorLanes s cell reg).drop (min 64 ls.length)
  let rest := s.cells.vregs.filter (fun e => e.1 != 32 * cell + reg)
  { s with cells := { s.cells with
      vregs := if new.all (fun v => v == 0) then rest
        else insertBy (fun (a b : Nat × List (BitVec 80)) => decide (a.1 < b.1)) (32 * cell + reg, new) rest } }

/-! Threads (R164). -/

/-- A thread by its global number: 256 × global cell number + thread. -/
def threadAt (s : State) (n : Nat) : Thread := (s.cells.threads.find? (fun t => t.num == n)).getD { num := n }

/-- A thread put among those that have run, ascending. -/
def setThread (s : State) (t : Thread) : State :=
  { s with cells := { s.cells with
      threads := insertBy (fun (a b : Thread) => decide (a.num < b.num)) t (s.cells.threads.filter (fun x => x.num != t.num)) } }

/-- A thread's scalar register, 0 where nothing was written. -/
def scalarReg (t : Thread) (r : Nat) : Word64 := (lookupKey t.regs r).getD 0

/-- Threads of a cell that are ready, by their number in the cell, and a thread that runs for the first time. -/
def readyThreads (s : State) (cell first : Nat) : List Nat :=
  insertAllAsc (first :: ((s.cells.threads.filter (fun t => t.num / 256 == cell && t.wait.isNone)).map (fun t => t.num % 256))) []

/-- The thread that the scalar pipeline of a cell issues next: the next ready one after the last, in round-robin order. -/
def issueTurn (s : State) (thr : Nat) : Bool :=
  let rs := readyThreads s (thr / 256) (thr % 256)
  let last := (lookupKey s.cells.turns (thr / 256)).getD 255
  (threadAt s thr).wait.isNone && ((rs.find? (fun t => last < t)).orElse (fun _ => rs.head?)) == some (thr % 256)

/-- One scalar instruction of a thread, in its turn: a register written, and what the thread waits on after it. -/
def issueScalar (s : State) (thr reg : Nat) (v : Word64) (wait : Option ThreadWait) : State :=
  if !issueTurn s thr || 32 ≤ reg then s
  else
    let t := threadAt s thr
    let regs := t.regs.filter (fun e => e.1 != reg)
    let s1 := setThread s { t with
      regs := if v == 0 then regs else insertBy (fun (a b : Nat × Word64) => decide (a.1 < b.1)) (reg, v) regs, wait := wait }
    { s1 with cells := { s1.cells with turns := putKey s1.cells.turns (thr / 256) (thr % 256) } }

/-- A thread is ready again: what it waited on has ended. A thread that waits on a peg is ready at the answer of its try. -/
def wakeThread (s : State) (thr : Nat) : State :=
  match (threadAt s thr).wait with
  | none | some (.peg _) => s
  | some _ => setThread s { threadAt s thr with wait := none }

end Sys2Proof.Machine
end

