-- ==== Sys2Proof/Machine/Cuts.lean ====
section
/-! DEFINITION. Cut lists: when a cut starts, the arithmetic its code performs, its end, weight streaming and stalls, plan
counters and optimizer steps (R131, R141, R142, R156, R158, R165, R171, R175 to R189, R237, R295). -/

namespace Sys2Proof.Machine

open Sys2Proof

/-! Which cut starts (R165, R171, R295). -/

/-- Arrays on which a cut runs now. -/
def busyArrays (s : State) : List Nat :=
  s.adm.queries.flatMap (fun x => match planAt s x.plan with
    | some p => x.running.flatMap (fun r => cutArrays p r.cut)
    | none => [])

/-- The trouble of a weight object, by its address (R237). -/
def weightHealth (s : State) (addr : Nat) : Option WeightHealth := s.tier.weights.find? (fun w => w.addr == addr)

/-- The object that a cut starts to stream (R182). -/
def cutObject (p : Plan) (d : Cut) : Option WeightObj := if d.weightStart == 0xFFFF then none else p.weights[d.weightStart]?

/-- An object is being rebuilt: requests wait at their next read of it (R237). -/
def objectHeld (s : State) (o : WeightObj) : Bool := (weightHealth s o.addr).any (fun w => !w.lost)

/-- An object is lost (R237). -/
def objectLost (s : State) (o : WeightObj) : Bool := (weightHealth s o.addr).any (fun w => w.lost)

/-- Streams that the load engine of an array runs (R162, R182). -/
def loadStreams (s : State) (a : Nat) : Nat :=
  sumOf (s.bay.plans.map (fun p => sumOf (p.weights.map (fun o => (o.streams.filter (fun as_ => as_.contains a)).length))))

/-- The load engines of a cut's arrays can take the stream it starts: 8 at once (R162). -/
def streamFits (s : State) (d : Cut) (as_ : List Nat) : Bool := d.weightStart == 0xFFFF || as_.all (fun a => loadStreams s a < 8)

/-- A cut of a query may start as far as its own conditions go: its turn in the list, its peg, arrays and their domains, a free stream of the
load engines for the object it starts, no save of the bay to come, and for LC the guard, otherwise no hold and no expired grace (R131, R162, R165,
R171, R301, R352). -/
def cutReady (s : State) (x : Query) (cut : Nat) : Bool :=
  match planAt s x.plan with
  | none => false
  | some p =>
    match p.cuts[cut]? with
    | none => false
    | some d =>
      let as_ := cutArrays p cut
      runsCuts x && (waitingCuts p x).contains cut && waitPegReached s p x d && streamFits s d as_ &&
      as_.all (fun a => !(busyArrays s).contains a) && as_.all (fun a => (domainAt s (arrayDomain a)).state == .on) &&
      !savePending s x.bay && (if x.lc then decide (now s + d.worstNs ≤ x.guard) else !(beHeld s) && !graceOver s x.bay)

/-- The cuts of a query that are ready to start. -/
def readyCuts (s : State) (x : Query) : List Nat :=
  match planAt s x.plan with
  | some p => (waitingCuts p x).filter (cutReady s x)
  | none => []

/-- Best-effort contexts of a bay with cuts ready to start (R295). -/
def beReady (s : State) (b : Nat) : List Nat :=
  insertAllAsc ((s.adm.queries.filter (fun x => x.bay == b && !x.lc && x.stage != .done && readyCuts s x != [])).map (fun x => x.ctx)) []

/-- The context after a given one, in ascending number, around (R295). -/
def nextInTurn (cs : List Nat) (c : Nat) : Option Nat :=
  match cs.find? (fun x => decide (c < x)) with
  | some x => some x
  | none => cs.head?

/-- The best-effort context whose cuts may start in a bay: the holder of the slice while it lasts and has cuts ready to start,
otherwise the next in turn (R295). -/
def sliceHolder (s : State) (b : Nat) : Option Nat :=
  let cs := beReady s b
  match (bayAt s b).slice with
  | some (c, t) => if now s < t && cs.contains c then some c else nextInTurn cs c
  | none => cs.head?

/-- Cell-µs that a cut takes at worst on its arrays (R114, R165). -/
def cutUs (d : Cut) : Nat := 64 * d.nLa * ceilDiv d.worstNs 1000

/-- The context of a query is promoted, and its share of cell time covers a cut (R135). -/
def isPromoted (s : State) (x : Query) (d : Cut) : Bool := !x.lc && (promotedUntil s x.ctx 1 (cutUs d)).isSome

/-- Rank of a ready cut: LC by deadline, then the promoted context, then the slice holder; none for a context without slice
(R295). -/
def cutRank (s : State) (x : Query) (d : Cut) : Option (Nat × Nat) :=
  if x.lc then some (0, x.deadline)
  else if isPromoted s x d then some (1, 0)
  else if sliceHolder s x.bay == some x.ctx then some (2, 0)
  else none

/-- A rank comes before another. -/
def rankBefore (a b : Nat × Nat) : Bool := a.1 < b.1 || (a.1 == b.1 && a.2 < b.2)

/-- Another query's ready cut that shares an array comes first (R295). -/
def outranked (s : State) (x : Query) (as_ : List Nat) (r : Nat × Nat) : Bool :=
  s.adm.queries.any (fun y => y.slot != x.slot && y.bay == x.bay &&
    (match planAt s y.plan with
     | some p => (readyCuts s y).any (fun c => (cutArrays p c).any (fun a => as_.contains a) &&
         ((p.cuts[c]?).bind (cutRank s y)).any (fun q => rankBefore q r))
     | none => false))

/-- The slice that a cut of a best-effort context starts under (R295). -/
def holdSlice (s : State) (x : Query) (d : Cut) : State :=
  if x.lc || isPromoted s x d then s
  else
    match (bayAt s x.bay).slice with
    | some (c, t) => if c == x.ctx && now s < t then s else updBay s x.bay (fun v => { v with slice := some (x.ctx, now s + baySlice s) })
    | none => updBay s x.bay (fun v => { v with slice := some (x.ctx, now s + baySlice s) })

/-- BAY_SLICE_EXPIRY: the next context with ready cuts takes the slice for BAY_SLICE (R295). -/
def execBaySliceExpiry (bay : Nat) (s : State) : Host.Outcome State Fault Refusal :=
  .next
    (let v := bayAt s bay
     let s1 := match v.slice with
       | some (_, t) => advanceTo s t
       | none => s
     let next := match v.slice with
       | some (c, _) => nextInTurn (beReady s bay) c
       | none => (beReady s bay).head?
     if bayBound s bay then updBay s1 bay (fun v => { v with slice := next.map (fun c => (c, now s1 + baySlice s1)) }) else s)

/-! Weight streaming (R181 to R183, R226, R237). -/

/-- A page read by streaming: a resident frame is used, and any hint but STREAM takes a frame for a page that has none (R226). -/
def streamPage (hint : Nat) (s : State) (page : Nat) : State :=
  let h := effectiveHint s hint page
  if h == 1 then s
  else
    touchPage (faultPage s page h 0) page h

/-- A weight object of a plan replaced by its image. -/
def updWeight (s : State) (h n : Nat) (f : WeightObj → WeightObj) : State :=
  updPlan s h (fun y => { y with weights := (y.weights.zip (List.range y.weights.length)).map (fun e => if e.2 == n then f e.1 else e.1) })

/-- Streaming of an object starts in the load engines of some arrays: its pages are fetched from their tier (R182). -/
def startStream (s : State) (p : Plan) (n : Nat) (as_ : List Nat) : State :=
  match p.weights[n]? with
  | none => s
  | some o =>
    (objectPages o).foldl (streamPage o.hint)
      (updWeight s p.handle n (fun w => { w with streams := w.streams ++ [as_] }))

/-- The oldest stream of an object ends: data and scale tensor, as they stand, are in the stores of its arrays (R182, R226). What a host write
during the streaming makes of them is open: the bytes delivered are those of the arrival (R6, R161; DESIGN CHOICE, log entry 124). -/
def fetchObject (o : WeightObj) (data scales : Bytes) : WeightObj :=
  let as_ := o.streams.headD []
  { o with streams := o.streams.drop 1, fetched := o.fetched.filter (fun f => f.1 != as_) ++ [(as_, data, scales)] }

/-- Data and scale tensor of an object have been read by its stream: they lie in the array stores (R182, R226). -/
def finishStream (s : State) (o : WeightObj) : State :=
  let s1 := (objectPages o).foldl (fun st page =>
    if effectiveHint st o.hint page == 1 then st else bringPage st page (effectiveHint st o.hint page)) s
  (wholeSectors o.addr o.bytes ++ wholeSectors o.scaleAddr (scaleBytes o)).foldl (fun st k =>
    if effectiveHint st o.hint (k / pageBytes) == 3 then afterLast st k else st) s1

/-- Sectors of data and scale tensor of an object. -/
def objectSectors (o : WeightObj) : List Nat :=
  let of := fun (a n : Nat) => if n == 0 then [] else (List.range ((a + n - 1) / 4096 - a / 4096 + 1)).map (fun i => 4096 * (a / 4096 + i))
  (of o.addr (max 1 o.bytes) ++ of o.scaleAddr (scaleBytes o)).eraseDups

/-- A block of an object is poisoned (R236). -/
def objectPoison (s : State) (o : WeightObj) : Bool := rangePoison s o.addr o.bytes || rangePoison s o.scaleAddr (scaleBytes o)

/-- An object reads bad: when no block of it is marked, which block it is the row does not say, and it is a free value; that block is
poisoned (R236; log entry 5). -/
def markObject (s : State) (o : WeightObj) : State :=
  if objectPoison s o then s
  else
    let v := (freshValue s).toNat
    poisonDev (bumpFree s) ((objectSectors o).getD (bitsAt v 6 58 % max 1 (objectSectors o).length) o.addr + 64 * (v % 64))

/-- Sectors of an object with poisoned blocks (R237). -/
def badSectors (s : State) (o : WeightObj) : List Nat :=
  (objectSectors o).filter (fun k => (List.range 64).any (fun j => devPoison s (k + 64 * j)))

/-- The trouble of an object: every block of its poisoned sectors is to be rewritten (R237). -/
def troubleOf (o : WeightObj) (sectors : List Nat) (lost : Bool) : WeightHealth :=
  { addr := o.addr, bytes := o.bytes, sectors := sectors, lost := lost,
    blocks := sectors.flatMap (fun k => (List.range 64).map (fun i => k + 64 * i)) }

/-- Queries that wait for an object: a cut in its turn starts its stream or waits on its arrival, or a running cut waits for it in its body
(R183, R237). -/
def waitsFor (s : State) (addr : Nat) (x : Query) : Bool :=
  runsCuts x &&
  (match planAt s x.plan with
   | none => false
   | some p =>
     (waitingCuts p x).any (fun c => (p.cuts[c]?).any (fun d =>
       (cutObject p d).any (fun o => o.addr == addr) ||
       ((arrivalDue s p x).contains c && (arrivalOf p d).any (fun o => o.addr == addr)))) ||
     x.running.any (fun r => r.held.contains addr))

/-- The request of a query ends with a status: at once while it waits, with its running cuts otherwise (R85, R183). -/
def endWaiting (status : Nat) (s : State) (x : Query) : State :=
  if x.running.all (fun r => r.held != []) then failQuery s x status
  else updQuery s x.slot (fun y => { y with failed := some (y.failed.getD status) })

/-- The first plan and object that name a weight object's address. -/
def weightName (s : State) (addr : Nat) : Nat × Nat :=
  ((s.bay.plans.findSome? (fun p => (p.weights.findIdx? (fun o => o.addr == addr)).map (fun i => (p.handle, i)))).getD (0, 0))

/-- An object is lost: its plans are suspended and every waiting request ends with ST_WEIGHTS_LOST (R237). -/
def loseObject (s : State) (o : WeightObj) (sectors : List Nat) : State :=
  let rest := s.tier.weights.filter (fun w => w.addr != o.addr)
  let s1 := logError { s with tier := { s.tier with
    weights := troubleOf o sectors true :: rest } } errWeightsLost (weightName s o.addr).1 (weightName s o.addr).2
  (s1.adm.queries.filter (waitsFor s1 o.addr)).foldl (endWaiting stWeightsLost) s1

/-- A read of a SHARED object met a bad block: marked poisoned when it has a home, lost at once in a DRAM region (R237). -/
def poisonObject (s : State) (o : WeightObj) : State :=
  if objectLost s o then s
  else
    let s1 := markObject s o
    let bad := badSectors s1 o
    match regionOfPage s1 (o.addr / pageBytes) with
    | some r =>
      if r.kind == 2 then
        { s1 with tier := { s1.tier with weights := troubleOf o bad false :: s1.tier.weights.filter (fun w => w.addr != o.addr) } }
      else loseObject s1 o bad
    | none => loseObject s1 o bad

/-- A cut of a query has started: the cuts up to nextCut, and those in ahead (R165). -/
def markStarted (x : Query) (cut t : Nat) : Query :=
  let started := insertAsc cut x.ahead
  let n := (firstFrom (fun c => !started.contains c) (started.length + 1) x.nextCut).getD x.nextCut
  { x with nextCut := n, ahead := started.filter (fun c => n ≤ c), running := x.running ++ [{ cut := cut, start := t }],
           stalledSince := dropKey x.stalledSince cut }

/-- A cut in its turn touches a lost object: it starts its stream, or waits on its arrival (R237). -/
def touchesLost (s : State) (x : Query) : Bool := s.tier.weights.any (fun w => w.lost && waitsFor s w.addr x)

/-- CUT_START: a cut of a query starts when its turn, its peg, its arrays and the order of R295 allow it; a stall ends; streaming of
WEIGHT_START begins (R165, R171, R182, R183, R295). A cut that touches a lost object ends its query (R237), one whose object lies outside the
address space its context (R216, R304). -/
def execCutStart (slot cut : Nat) (s : State) : Host.Outcome State Fault Refusal :=
  .next
    (match queryAt s slot with
     | none => s
     | some x =>
       match planAt s x.plan, (planAt s x.plan).bind (fun p => p.cuts[cut]?) with
       | some p, some d =>
         if touchesLost s x then endWaiting stWeightsLost s x
         else
           match cutRank s x d with
           | none => s
           | some r =>
             if !cutReady s x cut || outranked s x (cutArrays p cut) r then s
             else
               let stall := match lookupKey x.stalledSince cut with
                 | some t => now s - t
                 | none => 0
               let s1 := updPlan (holdSlice s x d) p.handle (fun y => { y with counters := { y.counters with
                 stallNs := satAdd 64 y.counters.stallNs stall } })
               let s2 := if isPromoted s x d then usePromoted s1 x.ctx 1 (cutUs d) else s1
               let s3 := updQuery s2 slot (fun y => markStarted y cut (now s))
               (match planAt s3 p.handle, cutObject p d with
                | some q, some o =>
                  if objectInSpace s3 x.ctx o then startStream s3 q d.weightStart (cutArrays q cut) else faultContext s3 x.ctx faultSpace
                | _, _ => s3)
       | _, _ => s)

/-! Arithmetic of cut code (R141, R142, R156, R158, R175 to R180, R185 to R187). -/

/-- The counters of a plan changed (R188). -/
def updPlanCounters (s : State) (h : Nat) (f : PlanCounters → PlanCounters) : State :=
  updPlan s h (fun p => { p with counters := f p.counters })

/-- A floating-point format. -/
def fmtIsFloat (fmt : Nat) : Bool := (fmtShape fmt).isSome

/-- A conversion of the table Unscaled conversions (R156). -/
def conversionDefined (src dst : Nat) : Bool :=
  (src == 0xE && (dst == 0xB || dst == 0xC)) ||
  ((src == 0xE || src == 0xB || src == 0xC) && (dst == 0x7 || dst == 0x8)) ||
  (fmtIsFloat src && fmtIsInt dst) ||
  (src == 0xF && (dst == 0x5 || dst == 0x6 || dst == 0xD)) ||
  (src == 0xF && (dst == 0xE || dst == 0xC || dst == 0xB)) ||
  (fmtIsFloat src && src != 0xE && dst == 0xE)

/-- The formats that groups are encoded in (R138). -/
def fmtGrouped (fmt : Nat) : Bool := 1 ≤ fmt && fmt ≤ 0xA

/-- FP32 words as bytes. -/
def wordBytes (ws : List Word32) : Bytes := ws.flatMap (fun w => natLe 4 w.toNat)

/-- A count that an operation adds to a plan counter. -/
def countBad (n : Nat) (bad : Bool) : Nat := satAdd 64 n (if bad then 1 else 0)

/-- Mode of the encoder stage: the held scale code, none in mode FIT (R179). -/
def heldScale (m : EncMode) : Option Nat := match m with
  | .fit => none
  | .held k => some k

/-- A group has 32, 64 or 128 elements (R139). -/
def groupLength (g : Nat) : Bool := g == 32 || g == 64 || g == 128

/-- A group through the encoder stage, written with its scale word and counted (R179, R180, R188). -/
def encodeOp (s : State) (x : Query) (as_ : List Nat) (mode : EncMode) (fmt kind g : Nat) (xs : List Word32) (dst scaleDst : Place) :
    State :=
  if !fmtGrouped fmt || 3 ≤ kind || !groupLength g || xs.length != g then s
  else
    let e := encodeStage (heldScale mode) fmt kind g xs
    cutWrite s x as_ [(dst, packCodes fmt e.codes), (scaleDst, natLe 2 e.scaleWord)] (fun c => { c with
      rescued := countBad c.rescued e.rescued, encSat := satAdd 64 c.encSat e.sat, nan := satAdd 64 c.nan e.nans })

/-- A value converted to a format, written, and its saturation and NaN counted (R156, R188). -/
def convertOp (s : State) (x : Query) (as_ : List Nat) (fmt : Nat) (dst : Place) (v : Num) : State :=
  let r := convertTo fmt v
  cutWrite s x as_ [(dst, natLe (fmtBits fmt / 8) r.1)] (fun c => { c with outSat := countBad c.outSat r.2.1, nan := countBad c.nan r.2.2 })

/-- A format that the matrix unit takes as an operand, other than of an accumulator: 4-bit, 8-bit, 16-bit or FP32 class (R138). -/
def fmtOperand (fmt : Nat) : Bool := fmtGrouped fmt || fmt == 0xB || fmt == 0xC || fmt == 0xE

/-- Operands of the scaled path: formats of the matrix unit, each with the scale word that it has or without, and one of the two has one
(R138, R175). -/
def scaledOk (fmtA swA fmtB swB : Nat) : Bool :=
  fmtOperand fmtA && fmtOperand fmtB && fmtScaled fmtA (decide (swA < 0x10000)) && fmtScaled fmtB (decide (swB < 0x10000)) && (decide (swA < 0x10000) || decide (swB < 0x10000))

/-- Invalid scale words of an operand: 1 or 0 (R151). -/
def invalidScales (kind sw : Nat) : Nat := if decide (sw < 0x10000) && !scaleWordOk kind sw then 1 else 0

/-- A 16-bit operand of a group with a scale word; an invalid word gives the zero group, and a group without one has scale 1.0 (R138, R151,
R152). -/
def decoded16 (fmt kind sw code : Nat) : Nat :=
  if 0x10000 ≤ sw then toBf16 (numOf32 (toFp32 (elemValue fmt code)))
  else if scaleWordOk kind sw then operandBf16 fmt kind sw code
  else 0

/-! Optimizer steps (R185, R187). -/

/-- The code of an optimizer. -/
def optimizerCode (o : Optimizer) : Nat := match o with
  | .sgd => 0
  | .adam => 1
  | .adamw => 2

/-- What a non-finite gradient makes of a result: NaN stays NaN, an infinity gives a value that is not finite (R187; log entry 33). -/
def propagated (g r : Word32) : Word32 :=
  if isNan32 g then 0x7FC00000 else if nonFinite32 g then r ||| 0x7F800000 else r

/-- One part of an optimizer step on elements with equal places: first moments, second moments or weights; a NaN is the canonical one (R144,
R185, R187; log entry 33). -/
def optimizerPart (part : Nat) (o : Optimizer) (params : List Word32) (es : List (Word32 × Word32 × Word32 × Word32)) : List Word32 :=
  es.map (fun e =>
    let r := propagated e.1 (Config.optimizerStep part (optimizerCode o) params e.1 e.2.1 e.2.2.1 e.2.2.2)
    if isNan32 r then 0x7FC00000 else r)

/-- Non-finite gradients counted for a step of a run, or those at hand where no reduction cut counted any (R187). -/
def stepBad (x : Query) (step : Nat) (gs : List Word32) : Nat := (lookupKey x.steps step).getD (gs.filter nonFinite32).length

/-- A part of an optimizer step, or its skipping, which is counted once for the step (R185, R187). -/
def optimizeOp (s : State) (x : Query) (as_ : List Nat) (o : Optimizer) (step : Nat) (skip : Bool) (params : List Word32)
    (es : List (Word32 × Word32 × Word32 × Word32)) (mdst vdst wdst : Place) : State :=
  if skip && stepBad x step (es.map (fun e => e.1)) != 0 then
    (if x.skippedSteps.contains step then s
     else
       updPlanCounters (updQuery s x.slot (fun y => { y with skippedSteps := step :: y.skippedSteps })) x.plan
         (fun c => { c with stepsSkipped := satAdd 64 c.stepsSkipped 1 }))
  else
    let second := if o == .sgd then [] else [(vdst, wordBytes (optimizerPart 1 o params es))]
    cutWrite s x as_ ([(mdst, wordBytes (optimizerPart 0 o params es)), (wdst, wordBytes (optimizerPart 2 o params es))] ++ second)
      (fun c => { c with nan := satAdd 64 c.nan ((es.map (fun e => e.1)).filter nonFinite32).length })

/-! Streamed groups (R174, R182). -/

/-- Place of a group in its tensor: group g of row r (R174). -/
def groupNumber (o : WeightObj) (r g : Nat) : Nat := r * (o.redLen / groupSize o.gs) + g

/-- Bytes of a group (R139). -/
def groupBytes (o : WeightObj) : Nat := groupSize o.gs * fmtBits o.fmt / 8

/-- The array of a store, and none for DRAM. -/
def placeArray (pl : Place) : Option Nat := match pl with
  | .cell c _ => some (c / 64)
  | .array a _ => some a
  | .dram _ => none

/-- A group of a streamed object with its scale word, delivered together by the load engine of an array to which the object has been fetched,
into the stores that the code names there. The bytes are those that the arrival found: what a tensor gives that the host writes while it streams,
outputs that are undefined, is settled so (R6, R161, R174, R182; DESIGN CHOICE, log entry 124). -/
def loadOp (s : State) (x : Query) (p : Plan) (as_ : List Nat) (obj r g : Nat) (dst scaleDst : Place) : State :=
  match p.weights[obj]?, placeArray dst with
  | some o, some a =>
    let n := groupNumber o r g
    let z := groupBytes o
    let scaled := o.scaleAddr != 0
    (match o.fetched.find? (fun f => f.1.contains a) with
     | none => s
     | some f =>
       if z * (n + 1) > o.bytes || (scaled && placeArray scaleDst != some a) then s
       else
         cutWrite s x as_ ((dst, sliceOf f.2.1 (z * n) z) :: (if scaled then [(scaleDst, sliceOf f.2.2 (2 * n) 2)] else [])) (fun c => c))
  | _, _ => s

/-! Errors of SRAM words and of DRAM codewords that cut code reads (R236, R355, R356). -/

/-- A shared object of a plan that holds an address. -/
def sharedAt (p : Plan) (a : Nat) : Option WeightObj :=
  p.weights.find? (fun o => o.shared && ((o.addr ≤ a && a < o.addr + o.bytes) || (o.scaleAddr ≤ a && a < o.scaleAddr + scaleBytes o)))

/-- A word that cut code reads meets an error. In a store, a single-bit error is corrected and counted, a double-bit error ends the request
and the word is rewritten as zero; in DRAM, a codeword is corrected and counted, or its block poisoned, and the request ends or waits as a
shared object has it (R236, R237, R355, R356). -/
def sramErrorOp (s : State) (x : Query) (p : Plan) (as_ : List Nat) (pl : Place) (double : Bool) : State :=
  match placeFault s x as_ 1 pl, pl with
  | some _, _ => s
  | none, .dram a =>
    (match descOfPage s (a / pageBytes) with
     | none => s
     | some d =>
       let row := blockRow s d (a % pageBytes)
       if !double then noteCorrected s row.1 row.2
       else
         match sharedAt p a with
         | some o => poisonObject (poisonDev s a) o
         | none => failCut (poisonDev s a) x)
  | none, .cell c a =>
    if double then failCut (placeWrite s (.cell c (a / 8 * 8)) (List.replicate 8 0)) x
    else { s with health := { s.health with sramCorrected := s.health.sramCorrected + 1 } }
  | none, .array b a =>
    if double then failCut (placeWrite s (.array b (a / 8 * 8)) (List.replicate 8 0)) x
    else { s with health := { s.health with sramCorrected := s.health.sramCorrected + 1 } }

/-- Generator state of a cell in a run, seeded at PLAN_RUN (R158). -/
def rngState (x : Query) (cell : Nat) : Word32 := (lookupKey x.rng cell).getD (cellSeed x.seed cell)

/-- One operation of the code of a cut that runs on some arrays, for a query of a plan. -/
def runOp (s : State) (x : Query) (p : Plan) (as_ : List Nat) (op : CutOp) : State :=
  match op with
  | .encodeGroup mode fmt kind g xs dst scaleDst => encodeOp s x as_ mode fmt kind g xs dst scaleDst
  | .toB1 xs dst =>
    cutWrite s x as_ [(dst, natLe (ceilDiv xs.length 8) (b1Code xs))] (fun c => { c with nan := satAdd 64 c.nan (xs.filter isNan32).length })
  | .convert src dstFmt v dst => if conversionDefined src dstFmt then convertOp s x as_ dstFmt dst (elemValue src v.toNat) else s
  | .srConvert cell v dst =>
    if !p.sr then s
    else
      let g := Config.rngStep (rngState x cell)
      updQuery (cutWrite s x as_ [(dst, natLe 2 (srBf16 v (Config.rngBits g)))] (fun c => c)) x.slot
        (fun y => { y with rng := putKey y.rng cell g })
  | .decode16 fmt kind sw codes dst =>
    if !fmtGrouped fmt || !fmtScaled fmt (decide (sw < 0x10000)) || 3 ≤ kind then s
    else
      cutWrite s x as_ [(dst, codes.flatMap (fun k => natLe 2 (decoded16 fmt kind sw k)))]
        (fun c => { c with invalidScale := satAdd 64 c.invalidScale (invalidScales kind sw) })
  | .intDot signedA signedB acc ab dst =>
    let r := intAccumulate signedA signedB acc ab
    cutWrite s x as_ [(dst, natLe 4 (patternOf 32 r.1))] (fun c => { c with accSat := satAdd 64 c.accSat r.2 })
  | .floatDot fmtA fmtB ab dst =>
    if [0x7, 0x8, 0xB, 0xC, 0xE].contains fmtA && [0x7, 0x8, 0xB, 0xC, 0xE].contains fmtB then
      cutWrite s x as_ [(dst, natLe 4 (blockSum (ab.map (fun e => mulNum (elemValue fmtA e.1) (elemValue fmtB e.2)))).toNat)] (fun c => c)
    else s
  | .scaledGroup fmtA kindA swA fmtB kindB swB acc ab dst =>
    if !scaledOk fmtA swA fmtB swB || !groupLength ab.length then s
    else
      cutWrite s x as_ [(dst, natLe 4 (scaledAccumulate fmtA kindA swA fmtB kindB swB acc ab).toNat)] (fun c => { c with
        invalidScale := satAdd 64 c.invalidScale (invalidScales kindA swA + invalidScales kindB swB) })
  | .mulShift entry fmt acc dst =>
    if !fmtIsInt fmt || 48 ≤ field entry 64 6 then s
    else
      let r := mulShiftOf entry fmt acc.toInt
      cutWrite s x as_ [(dst, natLe (fmtBits fmt / 8) (patternOf (fmtBits fmt) r.1))] (fun c => { c with outSat := satAdd 64 c.outSat r.2 })
  | .table entry fmt v isInt dst =>
    if fmt == 0xE || conversionDefined 0xE fmt then convertOp s x as_ fmt dst (numOf32 (tableOf entry v isInt)) else s
  | .tableGroup entries xs isInt mode fmt kind g dst scaleDst =>
    encodeOp s x as_ mode fmt kind g ((entries.zip xs).map (fun e => tableOf e.1 e.2 isInt)) dst scaleDst
  | .gradSum parts dst =>
    (match parts with
     | [] => s
     | w :: r => cutWrite s x as_ [(dst, natLe 4 (r.foldl add32 w).toNat)] (fun c => c))
  | .countGradients step gs =>
    updQuery s x.slot (fun y => { y with
      steps := putKey y.steps step ((lookupKey y.steps step).getD 0 + (gs.filter nonFinite32).length) })
  | .optimize o step skip params gs ms vs ws mdst vdst wdst =>
    optimizeOp s x as_ o step skip params (gs.zip (ms.zip ((vs ++ List.replicate (gs.length - vs.length) 0).zip ws))) mdst vdst wdst
  | .loadGroup obj r g dst scaleDst => loadOp s x p as_ obj r g dst scaleDst
  | .vector cell reg lanes => if as_.contains (cell / 64) && reg < 32 then writeLanes s cell reg lanes else s
  | .scalar thr reg v wait => if as_.contains (thr / 16384) then issueScalar s thr reg v wait else s
  | .unitDone thr => if as_.contains (thr / 16384) then wakeThread s thr else s
  | .sramError pl double => sramErrorOp s x p as_ pl double

/-- One operation of the code of a cut that runs on some arrays for the query in a slot; nothing more follows once it or its context has
ended. -/
def cutOp (slot : Nat) (as_ : List Nat) (s : State) (op : CutOp) : State :=
  match queryAt s slot with
  | none => s
  | some x =>
    if x.stage == .done then s
    else
      match planAt s x.plan with
      | some p => runOp s x p as_ op
      | none => s

/-! Ends of cuts. -/

/-- A query whose cuts have all ended: a run or an ENCODE is over (R270, R278). -/
def finishCuts (s : State) (x : Query) (p : Plan) : State :=
  if x.running != [] || x.nextCut != p.cuts.length || x.stage != .cuts then s
  else
    match p.kind with
    | .run | .train => endQuery s x { status := stOk, completeness := 255 }
    | .encode =>
      (match x.index.bind (indexAt s) with
       | some i =>
         let a := resultAddr s x.q x.cid x.pos
         let s1 := emit s (.encoded x.q x.cid x.pos (a + 64) (encoderCodeOf i p x) (a + up64 (64 + i.params.w / 8)) (encoderVectorOf i p x))
         endQuery s1 x { status := stOk, version := x.version, count := 1, completeness := 255 }
       | none => failQuery s x stNsBusy)
    | _ => s

/-- Cuts that wait on an arrival peg in their turn while their preceding cut has ended: for each a stall begins (R183). -/
def noteStall (s : State) (x : Query) (p : Plan) : State :=
  let cs := (arrivalDue s p x).filter (fun c => c != 0 && cutEnded x (c - 1) && (lookupKey x.stalledSince c).isNone)
  if cs == [] then s
  else
    updQuery (updPlanCounters s p.handle (fun c => { c with stalls := satAdd 64 c.stalls cs.length })) x.slot
      (fun y => { y with stalledSince := cs.foldl (fun m c => putKey m c (now s)) y.stalledSince })

/-- A cut done counts toward its stage fraction (R133, R171). -/
def countStage (x : Query) (stage : Nat) : Query :=
  match stage with
  | 0 => { x with doneT := x.doneT + 1 }
  | 1 => { x with doneD := x.doneD + 1 }
  | _ => { x with doneR := x.doneR + 1 }

/-- A running cut of a query ends (R135, R165, R171, R183, R188). -/
def endCut (s : State) (x : Query) (p : Plan) (d : Cut) (cut : Nat) (work : List CutOp) : State :=
  let s1 := work.foldl (cutOp x.slot (cutArrays p cut)) s
  if (queryAt s1 x.slot).isNone then s1 else
  let s2 := updPlanCounters s1 p.handle (fun c => { c with cutsDone := satAdd 64 c.cutsDone 1 })
  let s3 := updQuery s2 x.slot (fun y => countStage { y with running := y.running.filter (fun r => r.cut != cut) } d.stage)
  let s4 := progressCtx s3 x.ctx
  let s5 := match if d.signalPeg == 0xFFFF then none else bindingPeg p x d.signalPeg with
    | some g => signalPeg s4 (nthNat (cutArrays p cut) 0) g
    | none => s4
  match queryAt s5 x.slot, planAt s5 p.handle with
  | some y, some q =>
    if y.stage == .done then s5
    else
      (match y.failed with
       | some st => if y.running == [] then failQuery s5 y st else s5
       | none =>
         let s6 := if touchesLost s5 y then endWaiting stWeightsLost s5 y else noteStall s5 y q
         match queryAt s6 x.slot with
         | some z => if z.stage == .done || z.failed.isSome then s6 else if z.opcode == 0x02 then afterEncoder s6 z q else finishCuts s6 z q
         | none => s6)
  | _, _ => s5

/-- The object that an operation of cut code reads. -/
def objectRead (p : Plan) (op : CutOp) : Option WeightObj := match op with
  | .loadGroup obj _ _ _ _ => p.weights[obj]?
  | _ => none

/-- The objects being rebuilt that the code of a cut reads: it waits inside its body (R165, R237). -/
def heldObjects (s : State) (p : Plan) (work : List CutOp) : List Nat :=
  ((work.filterMap (objectRead p)).filter (objectHeld s)).map (fun o => o.addr)

/-- An operation reads a lost object (R237). -/
def readsLost (s : State) (p : Plan) (op : CutOp) : Bool := (objectRead p op).any (objectLost s)

/-- CUT_END: the results of its code stand in the stores, the counters follow, its signal peg is incremented, and what comes
next begins: a stall, the search of an encoded query, or the end of a run; a cut that waits in its body does not end (R135, R165, R171,
R183, R188, R212, R237). -/
def execCutEnd (slot cut : Nat) (work : List CutOp) (s : State) : Host.Outcome State Fault Refusal :=
  .next
    (match queryAt s slot with
     | none => s
     | some x =>
       match planAt s x.plan with
       | none => s
       | some p =>
         match p.cuts[cut]? with
         | none => s
         | some d =>
           if !x.running.any (fun r => r.cut == cut) || rimeMoving s x.slot then s
           else if heldObjects s p work != [] then
             updQuery s slot (fun y => { y with running := y.running.map (fun r =>
               if r.cut == cut then { r with held := heldObjects s p work } else r) })
           else if work.any (readsLost s p) then settleExpiry (failQuery s x stWeightsLost) x.bay
           else settleExpiry (endCut s x p d cut work) x.bay)

/-- WEIGHT_ARRIVAL: the last byte of a streamed object has arrived in the array stores and its arrival peg is incremented; a bad block marks a
shared object, whose stream then waits for the rebuild, or fails the plan's requests that wait on it or run; the stream of a lost object ends
(R181, R182, R226, R236, R237). -/
def execWeightArrival (handle obj : Nat) (m : Media) (s : State) : Host.Outcome State Fault Refusal :=
  .next
    (match planAt s handle with
     | none => s
     | some p =>
       match p.weights[obj]? with
       | none => s
       | some o =>
         if o.streams == [] || objectHeld s o then s
         else if objectLost s o then
           (s.adm.queries.filter (waitsFor s o.addr)).foldl (endWaiting stWeightsLost) (updWeight s handle obj (fun w => { w with streams := w.streams.drop 1 }))
         else if m == .uncorrectable || objectPoison s o then
           (if o.shared then poisonObject s o
            else
              let s1 := updWeight (markObject s o) handle obj (fun w => { w with streams := w.streams.drop 1 })
              (s1.adm.queries.filter (fun x => x.plan == handle && runsCuts x && (x.running != [] || waitsFor s o.addr x))).foldl (endWaiting stMediaUe) s1)
         else
           let s1 := finishStream s o
           let s1 := updWeight s1 handle obj (fun w => fetchObject w (devRead s1 o.addr o.bytes) (devRead s1 o.scaleAddr (scaleBytes o)))
           match (p.pegs[o.arrival]?).bind (fun b => b.peg) with
           | some g => signalPeg s1 (nthNat (o.streams.headD []) 0) g
           | none => s1)

end Sys2Proof.Machine
end

