-- ==== Sys2Proof/Machine/TierRows.lean ====
section
/-! DEFINITION. The rows of the tiers: faults and fills, the cleaner and write-backs, reserved events and retraining pauses,
evacuations, returns and replenishment, and rebuilds of weight objects (R120, R129, R212, R222 to R237). -/

namespace Sys2Proof.Machine

open Sys2Proof

/-! Faults and fills (R223, R236). -/

/-- PAGE_FAULT: an access of a bay to a FLASH page without a frame takes a frame; a STREAM read does not (R222,
R223, R226). A fill runs at the class of its request, and none of class BE starts while BE work is held (R352). -/
def execPageFault (bay addr : Nat) (write lc : Bool) (s : State) : Host.Outcome State Fault Refusal :=
  .next
    (let page := addr / pageBytes
     match regionOfPage s page with
     | some r =>
       if r.bay != bay || r.custody || r.kind != 2 || !write && r.hint == 1 || !lc && beHeld s then s
       else serveReady (faultPage s page (if write then writeHint r.hint else r.hint) (addr % pageBytes / 4096))
     | none => s)

/-- A sector of a fill may arrive: it has not, and the one that caused the fault comes first (R223). -/
def sectorDue (e : Frame_) (sector : Nat) : Bool := !flag e.arrived sector && decide (sector < 64) && !(e.arrived == 0 && sector != e.first)

/-- FILL_SECTOR_ARRIVAL: the sector is in the frame, the one that caused the fault first; rebuilt from its stripe it is dirty, not rebuilt
its blocks are poisoned, as are those poisoned at the home (R222, R223, R236). A page in custody is freed once it is filled and clean
(R292); the fill of a page that left its region goes on till it ends (R222, R303). -/
def execFillSectorArrival (page sector : Nat) (m : Media) (rebuilt : Bool) (s : State) : Host.Outcome State Fault Refusal :=
  .next
    (match (frameOfPage s page).filter (fun e => e.state == .fill), leavingFrame s page .fill with
     | some e, _ =>
       if !sectorDue e sector then s
       else
         let s1 := fillSector s e.num sector
         let s2 := if m == .uncorrectable then poisonSector s1 e.num sector
           else if rebuilt then markDirty s1 e.num sector else s1
         freeCustody (serveReady s2) page
     | none, some e => if sectorDue e sector then fillLeaving s e sector else s
     | none, none => s)

/-! Write-back (R224, R363). -/

/-- Frames of a bay that migrate, those of them that are dirty, and the dirty frames of regions in custody (R224, R292). -/
def migrating (s : State) (b : Nat) : List Frame_ :=
  s.tier.frames.filter (fun e => e.bay == b && !e.zeroing && (e.state == .fill || e.state == .resident || e.state == .writeback) &&
    !(regionOfPage s e.page).any (fun r => r.custody))
def dirtyFrames (s : State) (b : Nat) : List Frame_ := (migrating s b).filter (fun e => e.dirty != 0)
def custodyFrames (s : State) : List Frame_ :=
  s.tier.frames.filter (fun e => !e.zeroing && e.dirty != 0 && (regionOfPage s e.page).any (fun r => r.custody))

/-- CLEANER_WRITEBACK: beyond TIER_DIRTY_HIGH the oldest dirty frames are written back, and with bay 0's those of regions in custody; not in
a group at level 3, nor while the cap throttle holds BE work (R224, R292, R352, R363). -/
def execCleanerWriteback (bay : Nat) (s : State) : Host.Outcome State Fault Refusal :=
  .next
    (if beHeld s then s
     else
       let ds := dirtyFrames s bay
       let limit := tierDirtyHigh s * (migrating s bay).length / 100
       let can := fun (e : Frame_) => e.state == .resident && groupLevelNow s (homeGroup s e.page) < 3
       let old := (sortBy (fun (a b : Frame_) => decide (a.dirtyAt < b.dirtyAt)) (ds.filter can)).take (ds.length - limit)
       let kept := if bay == 0 then (custodyFrames s).filter can else []
       (old ++ kept).foldl (fun st e => startWriteback st e.num) s)

/-- Pages that a COPY wrote and waits for are written back again where they stayed dirty (R224, R277). -/
def retryCopies (s : State) : State :=
  (s.tier.frames.filter (fun e => e.state == .resident && e.dirty != 0 && !e.zeroing && copyWaits s e.page)).foldl (fun st e => startWriteback st e.num) s

/-- Work that BE work held back goes on once it is not: host accesses whose page has no frame yet fault again, those that need wait no more
are served, and pages that a COPY waits for are written back (R246, R277, R352). -/
def retryFaults (s : State) : State :=
  if beHeld s then s
  else
    retryCopies (serveReady (s.tier.fillWaits.foldl (fun st w =>
      faultPage st (w.1 / pageBytes) (hostHint st (w.1 / pageBytes) w.2.isSome) (w.1 % pageBytes / 4096)) s))

/-- WRITEBACK_DONE: the page has its new home and its frame is RESIDENT; a COPY that wrote it is released, unless the page was written again
meanwhile, which a second write-back then takes once BE work is not held; the frame of a page that left its region is RESIDENT (R222,
R224, R292, R303, R352). -/
def execWritebackDone (page group home : Nat) (s : State) : Host.Outcome State Fault Refusal :=
  .next
    (match (frameOfPage s page).filter (fun e => e.state == .writeback), leavingFrame s page .writeback with
     | some e, _ =>
       if homeGroup s page != group then s
       else
         let s2 := writeHome s e.num group home
         retryFaults (if e.dirty != 0 && copyWaits s2 page then s2 else freeCustody (releaseCopies s2 page) page)
     | none, some e => setFrame s { e with state := .resident, captured := 0 }
     | none, none => s)

/-! Reserved events (R120, R129, R230). -/

/-- What a bay holds of every kind in a window stays within its admissible capacity, which counts as 0 here too while the bay is being reclaimed
or admission is stopped, so any amount held defers an event (R116, R129; DESIGN CHOICE, log entry 134). -/
def bayHolds (s : State) (b w : Nat) (kinds : List Nat) : Bool := kinds.all (fun k => heldIn s b k w ≤ admissible s b k w)

/-- Token kinds that an event touches. -/
def eventKinds (ev : Reserved) : List Nat :=
  match ev with
  | .retrain _ _ => [2, 3]
  | .piece _ _ => [0]

/-- The state with an event placed in a window. -/
def withPlaced (s : State) (ev : Reserved) (w : Nat) : State :=
  { s with adm := { s.adm with placed := s.adm.placed ++ [{ window := w, ev := some ev, bytes := 0 }] } }

/-- Bays in whose share an event placed in a window does not fit (R129). -/
def baysExceeded (s : State) (ev : Reserved) (w : Nat) : List Nat :=
  let t := withPlaced s ev w
  (t.bay.bays.filter (fun e => !bayHolds t e.1 w (eventKinds ev) &&
    (match ev with
     | .retrain _ _ => true
     | .piece c _ => e.2.flash.contains c))).map (fun e => e.1)

/-- The event is placed and has not taken place. -/
def eventPending (s : State) (ev : Reserved) : Bool := s.adm.placed.any (fun p => p.ev == some ev && p.bytes == 0)

/-- An event no longer deferred. -/
def undefer (s : State) (ev : Reserved) : State :=
  { s with adm := { s.adm with deferred := s.adm.deferred.filter (fun d => d.1 != ev) } }

/-- A flash die with its history; a new die has 8 % of its blocks spare (R362; log entry 37). -/
def dieAt (s : State) (c d : Nat) : Die :=
  (s.health.dies.find? (fun x => x.channel == c && x.die == d)).getD
    { channel := c, die := d, spares := 8 * Config.blocksPerDie / 100 }

/-- A die put in place. -/
def setDie (s : State) (v : Die) : State :=
  let before := fun (a b : Die) => decide (a.channel < b.channel) || (a.channel == b.channel && decide (a.die < b.die))
  { s with health := { s.health with
      dies := insertBy before v (s.health.dies.filter (fun x => !(x.channel == v.channel && x.die == v.die))) } }

/-- A placed piece runs on its die from its window on. -/
def beginPiece (s : State) (ev : Reserved) (w : Nat) : State :=
  match ev with
  | .piece c d => setDie s { dieAt s c d with piece := some (w, w + pieceLength s c) }
  | .retrain _ _ => s

/-- The subject of an event exists: one of 128 channels, a die that the ordering code has (R3, R19). -/
def subjectExists (s : State) (ev : Reserved) : Bool :=
  match ev with
  | .retrain c _ => decide (c < 128)
  | .piece c d => decide (c < 128 ∧ d < s.sec.order.dies)

/-- Deferral limit of an event in ns (table Reserved events). -/
def deferral (ev : Reserved) : Nat :=
  match ev with
  | .retrain _ t => if t then 5000000 else 20000000
  | .piece _ _ => 50000000

/-- The first window that can still be announced two windows ahead (R129). -/
def announceable (s : State) : Nat := windowOf (now s) + 200000

/-- The window that an event deferred with a next window tries: a window that can no longer be announced is passed over (R129; log
entry 109). -/
def tryWindow (s : State) (next : Nat) : Nat := max next (announceable s)

/-- RESERVED_EVENT_PLACE: announced at least two windows ahead, the event takes its window when its tokens fit in every bay;
otherwise it tries the next window, and so on up to its deferral limit, counted from the first window tried (R129). -/
def execReservedEventPlace (ev : Reserved) (window : Nat) (s : State) : Host.Outcome State Fault Refusal :=
  .next
    (if window % 100000 != 0 || window < announceable s || eventPending s ev || !subjectExists s ev then s
     else
       let first := ((s.adm.deferred.find? (fun d => d.1 == ev)).map (fun d => d.2.1)).getD window
       let next := ((s.adm.deferred.find? (fun d => d.1 == ev)).map (fun d => tryWindow s d.2.2)).getD window
       if window != next || first + deferral ev ≤ window then s
       else if baysExceeded s ev window == [] then undefer (beginPiece (withPlaced s ev window) ev window) ev
       else
         let s1 := undefer s ev
         { s1 with adm := { s1.adm with deferred := s1.adm.deferred ++ [(ev, first, window + 100000)] } })

/-- The forced window of a deferred event: the first that starts at or after the limit and can still be announced (R129; log entry
109). -/
def forcedWindow (s : State) (ev : Reserved) (first : Nat) : Nat := max (first + deferral ev) (announceable s)

/-- RESERVED_EVENT_FORCED: every window up to the limit has been tried, and the event takes its forced window whatever is held there;
it is counted for each bay whose share it exceeds (R129, R137). -/
def execReservedEventForced (ev : Reserved) (s : State) : Host.Outcome State Fault Refusal :=
  .next
    (match s.adm.deferred.find? (fun d => d.1 == ev) with
     | none => s
     | some d =>
       if tryWindow s d.2.2 < d.2.1 + deferral ev then s
       else
         let w := forcedWindow s ev d.2.1
         let bs := baysExceeded s ev w
         let s1 := undefer (beginPiece (withPlaced s ev w) ev w) ev
         bs.foldl (fun st b => updCounters st b (fun k => match ev with
           | .retrain _ _ => { k with forcedRetrain := wrapAdd 64 k.forcedRetrain 1 }
           | .piece _ _ => { k with forcedPe := wrapAdd 64 k.forcedPe 1 })) s1)

/-- The earliest placed event of a kind that has not taken place. -/
def nextPlaced (s : State) (p : Reserved → Bool) : Option Placed :=
  (sortBy (fun (a b : Placed) => decide (a.window < b.window))
    (s.adm.placed.filter (fun e => e.bytes == 0 && e.ev.any p))).head?

/-- A placed event has taken place. -/
def markTaken (s : State) (e : Placed) : State :=
  { s with adm := { s.adm with placed := updateFirst (fun x => x == e) (fun x => { x with bytes := 1 }) s.adm.placed } }

/-- RETRAINING_PAUSE: in its window the pause stops its channel for 2 µs; no rime segment of the channel runs then (R203, R230). -/
def execRetrainingPause (channel : Nat) (s : State) : Host.Outcome State Fault Refusal :=
  .next
    (match nextPlaced s (fun ev => match ev with
       | .retrain c _ => c == channel
       | .piece _ _ => false) with
     | none => s
     | some e =>
       let s1 := advanceTo s e.window
       if s1.rime.banks.any (fun b => b.bank / 32 == channel && b.segment.isSome) then s
       else advanceTo (markTaken s1 e) (now s1 + 2000))

/-- FLASH_PE_PIECE_END: a placed piece of the die has reached its suspend point (R120, R129). -/
def execFlashPePieceEnd (channel die : Nat) (s : State) : Host.Outcome State Fault Refusal :=
  .next
    (match nextPlaced s (fun ev => ev == .piece channel die) with
     | none => s
     | some e =>
       let s1 := markTaken (advanceTo s e.window) e
       releasePieceWaits (setDie s1 { dieAt s1 channel die with piece := none }))

/-! Evacuation (R212, R231 to R235). -/

/-- A departure of a kind may start now: nothing runs, no TEMPORARY entry stands, the channel is in the interleave, and a permanent
one leaves an entry for a TEMPORARY departure (R231, R234). -/
def departureFree (s : State) (channel : Nat) (kind : DepKind) : Bool :=
  s.tier.evacuation.isNone && !s.tier.departures.any (fun d => d.kind == .temporary || d.channel == channel) &&
  (if kind == .temporary then s.tier.departures.length < 24 else s.tier.departures.length < 23)

/-- A departure of a channel is requested, unless it is awaited or stands: a TEMPORARY one may be asked for again while its return copy runs,
and a retirement waits behind any other entry of the channel (R231, R238, R365, R367). -/
def wantDeparture (s : State) (c : Nat) (k : DepKind) : State :=
  let back := s.tier.evacuation.any (fun v => v.channel == c && v.returning)
  if s.tier.wanted.contains (c, k) || s.tier.departures.any (fun d => d.channel == c && (d.kind == .retired || (d.kind == k && !back))) then s
  else { s with tier := { s.tier with wanted := s.tier.wanted ++ [(c, k)] } }

/-- A retirement would use up the last entry: the channel stays in service, and RETIRE_BLOCKED reports it (R231, R367). -/
def blockRetirement (s : State) (channel : Nat) : State :=
  logError { s with tier := { s.tier with retireBlocked := true, wanted := s.tier.wanted.filter (fun w => w != (channel, .retired)) } }
    errRetireBlocked channel 0

/-- Bank-local frames that pieces may take now (R212; log entry 29). -/
def freePieceFrames (s : State) : Nat :=
  sumOf (s.tier.localSets.map (fun f => ((List.range 4096).filter (fun x => freeLocalFrame s (4096 * f + x))).length))

/-- EVACUATION_START: the entry is reserved and the moved bitmap cleared but for stripes that need no copy; without enough free
bank-local frames the evacuation waits and the wait is logged (R212, R231, R232, R234, R367). A lease starts only when a binding
awaits it; a departure that cannot start yet is kept and waits (R238). -/
def execEvacuationStart (channel : Nat) (kind : DepKind) (s : State) : Host.Outcome State Fault Refusal :=
  .next
    (let awaited := match kind with
       | .lease _ => s.tier.wanted.contains (channel, kind)
       | .standby => false
       | .temporary => true
       | .retired => true
     if !awaited || 128 ≤ channel then s
     else if kind == .retired && 23 ≤ (s.tier.departures.filter (fun d => d.kind != .temporary)).length then blockRetirement s channel
     else if !departureFree s channel kind then wantDeparture s channel kind
     else
       let gone := if kind == .retired then (lookupKey s.health.retiredFrames channel).getD [] else []
       let v : Evacuation := { channel := channel, returning := false, clear := (clearStripes s channel).filter (fun x => !gone.contains (x / 1024)) }
       let s1 := { s with tier := { s.tier with
           departures := s.tier.departures ++ [{ channel := channel, kind := kind }],
           wanted := s.tier.wanted.filter (fun w => w != (channel, kind)),
           evacuation := some v } }
       if freePieceFrames s1 < (localPieces s1 channel).length then logEntry (bumpFree s1) ((freshValue s1).toNat % 65536) 0 channel 0 none else s1)

/-- PIECE_RELOCATED: the piece being copied lies in a free bank-local frame of another channel, at its old address; the requests that
waited follow it (R212; log entry 110). -/
def execPieceRelocated (src dst : Nat) (s : State) : Host.Outcome State Fault Refusal :=
  .next
    (match s.tier.evacuation with
     | none => s
     | some v =>
       if v.returning || copiedPiece s != some src || !freeLocalFrame s dst then s else moveFrame s src dst .free)

/-- The copy of n stripes fits in a window: E = 129 × their bytes leaves every bay what it holds (R129, R233). -/
def copyFits (s : State) (w n : Nat) : Bool :=
  let e := 129 * 256 * n
  let p : Placed := { window := w, ev := none, bytes := e }
  let t := { s with adm := { s.adm with placed := s.adm.placed ++ [p] } }
  e + copyBytesIn s w ≤ 245760000 - 1920000 * channelsOut s - 38400 * pausesIn s w &&
  t.bay.bays.all (fun b => heldIn t b.1 2 w ≤ admissible t b.1 2 w || heldIn t b.1 2 w == 0)

/-- The largest number of stripes that fits, by halving (R233). -/
def copyStripes (s : State) (w : Nat) : Nat :=
  [4096, 2048, 1024, 512, 256, 128, 64, 32, 16, 8, 4, 2, 1].foldl (fun acc b => if copyFits s w (acc + b) then acc + b else acc) 0

/-- Blocks of frames written as poison, which a host that caches them gives up first (R232, R236, R247). -/
def poisonBlocks (ks : List Nat) (s : State) : State :=
  let s1 := ks.foldl (fun st k => backInvalidate st (pageBytes * (frameAt st (k / pageBytes)).page + k % pageBytes)) s
  ((ks.map (fun k => k / pageBytes)).eraseDups).foldl refreshPoison { s1 with tier := { s1.tier with poison := insertAllAsc ks s1.tier.poison } }

/-- EVACUATION_COPY_WINDOW: a window announced two windows ahead takes as many stripes as fit; none fits, none is copied. The
copy waits for the last bank-local piece. The stripes count as moved from the window's end on (R232; log entry 138). A block that a copy
read finds uncorrectable is written as poison and counted (R212, R229, R232, R233, R238). -/
def execEvacuationCopyWindow (window : CopyWindow) (s : State) : Host.Outcome State Fault Refusal :=
  .next
    (match s.tier.evacuation with
     | none => s
     | some v =>
       if window.start % 100000 != 0 || window.start < windowOf (now s) + 200000 || v.announced.any (fun a => a.1 == window.start) ||
           (!v.returning && localPieces s v.channel != []) then s
       else
         let n := min v.clear.length (copyStripes s window.start)
         if n == 0 then s
         else
           let v' : Evacuation := { v with clear := v.clear.drop n, announced := v.announced ++ [(window.start, v.clear.take n)] }
           let moved := window.bad.filter (fun k => k % 64 == 0 && (v.clear.take n).contains (k / 256))
           poisonBlocks moved { s with
             adm := { s.adm with placed := s.adm.placed ++ [{ window := window.start, ev := none, bytes := 129 * 256 * n }] },
             tier := { s.tier with evacuation := some v', copyBad := s.tier.copyBad + moved.length } })

/-- The end of the last announced window. -/
def lastCopyEnd (v : Evacuation) : Nat := (v.announced.map (fun a => a.1 + 100000)).foldl max 0

/-- The state in which a frame is given back: SPARE in slot 127 and the slots that replenished entries spare, and bank-local on a channel that is
out; otherwise FREE (R219, R222, R235, R365). -/
def givenBack (s : State) (d : Nat) : FrameState :=
  let f := d / 4096
  let out := s.tier.localSets.contains f && (outChannels s).contains (d % 4096 / 32)
  let slot := !s.tier.localSets.contains f && (d % 128 == 127 || (spareSlots s f).contains d)
  if out || slot then .spare else .free

/-- A frame held UNAVAILABLE given back (R365, R367). -/
def giveFrameBack (s : State) (d : Nat) : State := setFrame s { num := d, state := givenBack s d }

/-- A frame is held for some failing row: retired for good, or pending a repair (R365). -/
def heldForRow (s : State) (d : Nat) : Bool :=
  s.health.retiredFrames.any (fun e => e.2.contains d) || s.health.banks.any (fun b => b.failing.any (fun r => r.2.contains d))

/-- Frames of rows no longer failing given back, unless another row holds them; those still to be vacated are left where they are (R365). -/
def giveRowBack (s : State) (ds : List Nat) : State :=
  let free := ds.filter (fun d => !heldForRow s d)
  (free.filter (fun d => (frameAt s d).state == .unavailable)).foldl giveFrameBack
    { s with tier := { s.tier with vacateDue := s.tier.vacateDue.filter (fun d => !free.contains d) } }

/-- Frames retired only for rows of a channel that has left the interleave are FREE again (R367). -/
def freeRetired (s : State) (c : Nat) : State :=
  let mine := (lookupKey s.health.retiredFrames c).getD []
  giveRowBack { s with health := { s.health with retiredFrames := dropKey s.health.retiredFrames c } } mine

/-- Bank-local frames of a channel that leaves become SPARE, those of pieces without contents among them; with its return they are FREE again
(R212, R222; log entry 29). -/
def spareLocals (s : State) (c : Nat) : State :=
  (s.tier.localSets.flatMap (fun f => (List.range 32).map (fun i => 4096 * f + 32 * c + i))).foldl (fun st d =>
    let e := frameAt st d
    if e.state == .free || (e.state == .local_ && !e.zeroing && !holdsPiece st e) then setFrame (clearFrame st d) { num := d, state := .spare }
    else st) s
def unspareLocals (s : State) (c : Nat) : State :=
  (s.tier.frames.filter (fun e => e.state == .spare && s.tier.localSets.contains (e.num / 4096) && e.num % 4096 / 32 == c)).foldl
    (fun st e => setFrame st { num := e.num, state := .free }) s

/-- EVACUATION_COPY_END: every stripe is moved and the channel is out of the interleave, its bank-local frames SPARE; a lease binds its
channel, and a retirement is logged (R211, R222, R231, R234, R289, R367). -/
def execEvacuationCopyEnd (s : State) : Host.Outcome State Fault Refusal :=
  .next
    (match s.tier.evacuation with
     | none => s
     | some v =>
       if v.returning || v.clear != [] || localPieces s v.channel != [] then s
       else
         let c := v.channel
         let s1 := advanceTo s (lastCopyEnd v)
         let ds := s1.tier.departures.map (fun (d : Departure) => if d.channel == c then { d with out := true } else d)
         let s2 := vacateLate (spareLocals { s1 with tier := { s1.tier with evacuation := none, departures := ds } } c)
         match ds.find? (fun d => d.channel == c) with
         | none => s2
         | some d =>
           match d.kind with
           | .lease b =>
             (match s2.bay.pendingBinds.find? (fun p => p.bay == b && p.excl.contains c) with
              | some p => awaitLess (bindExclusive s2 b c) p (fun x => { x with excl := x.excl.filter (fun y => y != c) })
              | none => releaseLease s2 c)
           | .retired => logError (freeRetired s2 c) errChannelRetired c ds.length
           | _ => s2)

/-- Slots that a replenished entry made spare are FREE again once it is removed (R222, R235). -/
def freeSpares (s : State) (n : Nat) : State :=
  (s.tier.frames.filter (fun e => e.state == .spare && !s.tier.localSets.contains (e.num / 4096) && e.num % 128 == 127 - n)).foldl
    (fun st e => setFrame st { num := e.num, state := .free }) s

/-- RETURN_COPY_END: the last entry is removed and its spare slots are FREE; the channel's capacity counts again from the next
window, and a STANDBY entry that is the last now returns in turn (R222, R231, R233, R235). -/
def execReturnCopyEnd (s : State) : Host.Outcome State Fault Refusal :=
  .next
    (match s.tier.evacuation, s.tier.departures.getLast? with
     | some v, some d =>
       if !v.returning || v.clear != [] then s
       else
         let n := s.tier.departures.length
         let s1 := advanceTo s (lastCopyEnd v)
         let s2 := { s1 with
           adm := { s1.adm with placed := s1.adm.placed ++ [{ window := windowOf (now s1), ev := none, bytes := 1920000 }] },
           tier := { s1.tier with evacuation := none, departures := s1.tier.departures.take (n - 1) } }
         let s3 := unspareLocals s2 d.channel
         startReturn (vacateLate (if d.replenished then freeSpares s3 n else s3))
     | _, _ => s)

/-- Frames in slot 127 − n of every block of every interleaved set (R235). -/
def slotFrames (s : State) (n : Nat) : List Nat :=
  ((List.range 960).filter (fun f => !s.tier.localSets.contains f)).flatMap (fun f => (List.range 32).map (fun b => 4096 * f + 128 * b + (127 - n)))

/-- A frame of such a slot stays until its contents are copied: it is neither FREE, SPARE nor UNAVAILABLE, nor one that is evicted or zeroed
(R235, R366). -/
def slotCopied (s : State) (d : Nat) : Bool :=
  let e := frameAt s d
  !e.zeroing && (e.state == .dram || e.state == .fill || e.state == .writeback || (e.state == .resident && e.pin != 0))

/-- A frame of such a slot has left it: SPARE, or held UNAVAILABLE for its failing row (R235, R366). -/
def slotDone (s : State) (d : Nat) : Bool := (frameAt s d).state == .spare || (frameAt s d).state == .unavailable

/-- Stripes that windows of a replenishment have copied by now, and those that windows still to end copy (R233, R235). -/
def copiedBy (s : State) (cs : List (Nat × Nat)) : Nat := sumOf ((cs.filter (fun c => c.1 + 100000 ≤ now s)).map (fun c => c.2))
def copiesRunning (s : State) (cs : List (Nat × Nat)) : List (Nat × Nat) := cs.filter (fun c => decide (now s < c.1 + 100000))

/-- A window announced for the stripes that a replenishment still has to copy, as many as fit (R233, R235). -/
def announceCopy (s : State) (cs : List (Nat × Nat)) (stripes : Nat) : State × List (Nat × Nat) :=
  let w := announceable s
  let n := min stripes (copyStripes s w)
  if n == 0 || cs.any (fun c => c.1 == w) then (s, cs)
  else ({ s with adm := { s.adm with placed := s.adm.placed ++ [{ window := w, ev := none, bytes := 129 * 256 * n }] } }, cs ++ [(w, n)])

/-- REPLENISHMENT: slot 127 − n of every block of every interleaved set is made SPARE after a permanent departure. FREE frames and those that
can be evicted turn at once; the others are copied, 1,024 stripes each, in announced windows charged like an evacuation's, and turn as
the windows end; the row goes on until no frame is left (R233, R235; log entry 72). -/
def execReplenishment (entry : Nat) (s : State) : Host.Outcome State Fault Refusal :=
  .next
    (match s.tier.departures[entry - 1]? with
     | none => s
     | some d =>
       if entry == 0 || !d.out || d.replenished || d.kind == .temporary then s
       else
         let slots := slotFrames s entry
         let s1 := (slots.filter (fun x => !slotCopied s x)).foldl (fun st x => vacate st x .spare) s
         let due := slots.filter (slotCopied s1)
         let stripes := copiedBy s1 d.copies
         let s2 := (due.take (stripes / 1024)).foldl (fun st x => vacate st x .spare) s1
         let left := (due.filter (slotCopied s2)).length
         let spent := 1024 * (due.length - left)
         let running := copiesRunning s2 d.copies
         let kept := if stripes == spent then running else (0, stripes - spent) :: running
         let t := announceCopy s2 kept (1024 * left - sumOf (kept.map (fun c => c.2)))
         let d' := { d with copies := t.2, replenished := slots.all (slotDone t.1) }
         { t.1 with tier := { t.1.tier with departures := t.1.tier.departures.set (entry - 1) d' } })

/-- A poisoned sector rebuilt from its flash home: rewritten in its frame with fresh check bytes, and dirty (R237). -/
def rebuildSector (s : State) (k : Nat) : State :=
  match descOfPage s (k / pageBytes) with
  | some d =>
    let key := dramKey d (k % pageBytes)
    let tier := { s.tier with
      dram := memCopy s.tier.flash s.tier.dram k key 4096,
      poison := s.tier.poison.filter (fun p => p / 4096 != key / 4096) }
    markDirty (refreshPoison { s with tier := tier } d) d (k % pageBytes / 4096)
  | none => { s with tier := { s.tier with flashPoison := s.tier.flashPoison.filter (fun p => p / 4096 != k / 4096) } }

/-- WEIGHT_REBUILD_DONE: the rebuild of a poisoned shared object ends, and its requests go on or end with it (R237). -/
def execWeightRebuildDone (addr : Nat) (ok : Bool) (s : State) : Host.Outcome State Fault Refusal :=
  .next
    (match weightHealth s addr with
     | none => s
     | some w =>
       if w.lost then s
       else if ok then
         let s1 := w.sectors.foldl rebuildSector s
         { s1 with tier := { s1.tier with weights := s1.tier.weights.filter (fun x => x.addr != addr) } }
       else
         match s.bay.plans.findSome? (fun p => p.weights.find? (fun o => o.addr == addr)) with
         | some o => loseObject s o w.sectors
         | none => s)

end Sys2Proof.Machine
end

