-- ==== Sys2Proof/Machine/Time.lean ====
section
/-! DEFINITION. The device time base: what a tick does when no command waits, and the PTM rows (R24, R25, R250). -/

namespace Sys2Proof.Machine

open Sys2Proof

/-- The DTB counts single nanoseconds while main power is present (R24, R350). -/
def fastClock (s : State) : Bool := s.pins.mainOn

/-- Nanoseconds of crystal tick n of the 32,768 of a second: 30,517 or 30,518, exact after all of them (R24). -/
def crystalStep (n : Nat) : Nat := (n + 1) * 1000000000 / 32768 - n * 1000000000 / 32768

/-- Nanoseconds slewed within one tick: at most k, toward the offset still to be removed (R25). -/
def slewPart (slew : Int) (k : Nat) : Int :=
  if 0 ≤ slew then min slew k else max slew (-(k : Int))

/-- Nanoseconds that may be slewed within crystal tick n of a second: 15, below 500 ppm; a lead above 1 ms is removed at exactly
−500 ppm, 500 µs in the 32,768 ticks (R25). -/
def slewBudget (t : TimeState) : Nat :=
  if t.ptmOffset < -1000000 then (t.crystal + 1) * 500000 / 32768 - t.crystal * 500000 / 32768 else 15

/-- One tick of the DTB: 1 ns on a fast clock, with one nanosecond slewed in or out of each 2,000 (500 ppm); otherwise a
crystal step with the slew that its budget allows. The count never decreases (R24, R25). -/
def idleTick (s : State) : State :=
  let t := s.time
  if fastClock s then
    if t.slewPhase + 1 < 2000 then { s with time := { t with dtb := t.dtb + 1, slewPhase := t.slewPhase + 1 } }
    else
      let d := slewPart t.slew 1
      { s with time := { t with dtb := t.dtb + (1 + d).toNat, slew := t.slew - d, slewPhase := 0 } }
  else
    let d := slewPart t.slew (slewBudget t)
    { s with time := { t with dtb := t.dtb + (crystalStep t.crystal + d).toNat, slew := t.slew - d,
                              crystal := (t.crystal + 1) % 32768 } }

/-- Some query slot is occupied. -/
def slotOccupied (s : State) : Bool := s.adm.queries != []

/-- PTM_REQUEST: a request leaves while PTM is enabled and the link is up (R250). -/
def execPtmRequest (s : State) : Host.Outcome State Fault Refusal :=
  .next
    (if s.time.ptmEnabled && s.link.up then
      emit { s with time := { s.time with ptmRequestAt := some (s.time.ptmRequestAt.getD (now s)) } } .ptmRequest
    else s)

/-- The slewing or the forward step that an exchange with offset off (host minus DTB) calls for (R25). DESIGN CHOICE (log entry 94):
a lag above 1 ms found at an exchange that is neither the first of the boot count nor the first after a loss of PTM, with no step
waiting, is slewed; an exchange that comes while a forward step waits measures the size of that step anew and leaves its limit of
1 s as the first exchange set it. -/
def disciplineTo (t : TimeState) (off : Int) : TimeState :=
  if off ≤ 1000000 then { t with slew := off, stepDue := none }
  else if t.ptmFirst then { t with slew := 0, stepDue := some (off.toNat, t.dtb) }
  else
    match t.stepDue with
    | some (_, at_) => { t with slew := 0, stepDue := some (off.toNat, at_) }
    | none => { t with slew := off }

/-- PTM_EXCHANGE: the offset is measured and the DTB disciplined (R25). -/
def execPtmExchange (hostTime : Nat) (s : State) : Host.Outcome State Fault Refusal :=
  .next
    (if s.time.ptmEnabled && s.link.up then
      let off : Int := (hostTime : Int) - s.time.dtb
      let t := disciplineTo s.time off
      { s with time := { t with ptmLast := some (now s), ptmOffset := off, ptmFirst := false, ptmRequestAt := none,
                                ptmLost := false } }
    else s)

/-- The DTB runs free: no offset is removed any more, and the next exchange is the first after a loss of PTM (R25, R250). -/
def runFree (t : TimeState) : TimeState :=
  { t with slew := 0, stepDue := none, ptmLast := none, ptmRequestAt := none, ptmFirst := true }

/-- PTM_TIMEOUT: 100 ms after the first unanswered request PTM is lost (R25, R250). -/
def execPtmTimeout (s : State) : Host.Outcome State Fault Refusal :=
  .next
    (match s.time.ptmEnabled, s.time.ptmRequestAt with
     | true, some t =>
       let s1 := advanceTo s (t + 100000000)
       { s1 with time := { runFree s1.time with ptmLost := true } }
     | _, _ => s)

/-- DTB_FORWARD_STEP: the step is taken at a tick with no occupied slot, within 1 s of its exchange (R25). -/
def execDtbForwardStep (s : State) : Host.Outcome State Fault Refusal :=
  .next
    (match s.time.stepDue with
     | some (n, t) =>
       if !slotOccupied s && now s ≤ t + 1000000000 then
         { s with time := { s.time with dtb := s.time.dtb + n, stepDue := none } }
       else s
     | none => s)

/-- DTB_STEP_ABANDON: 1 s after the exchange the lag is left to slewing; where no slot is occupied before then, that tick takes the
step (R25). -/
def execDtbStepAbandon (s : State) : Host.Outcome State Fault Refusal :=
  .next
    (match s.time.stepDue with
     | some (n, t) =>
       if !slotOccupied s && now s ≤ t + 1000000000 then
         { s with time := { s.time with dtb := s.time.dtb + n, stepDue := none } }
       else
       let s1 := advanceTo s (t + 1000000000)
       { s1 with time := { s1.time with stepDue := none, slew := n } }
     | none => s)

/-- PTM_ENABLE_WRITE: a configuration write over the link (R14, R250). -/
def execPtmEnableWrite (on : Bool) (s : State) : Host.Outcome State Fault Refusal :=
  .next
    (if !s.link.up then s
     else if on then { s with time := { s.time with ptmEnabled := true } }
     else { s with time := { runFree s.time with ptmEnabled := false } })

end Sys2Proof.Machine
end

