-- ==== Sys2Proof/Machine/Stage.lean ====
section
/-! DEFINITION. Staged changes: the staging lock and frame, dry fits, raises, and what a raise of BAY0_CONFIG does (R287, R329 to
R336). A row named after a write of a behavioural object takes the master that writes; DICT_WRITE and XSDP_WRITE reach the same
operations. -/

namespace Sys2Proof.Machine

open Sys2Proof

/-- The staging state changed. -/
def updStage (s : State) (f : StageState → StageState) : State := { s with dict := { s.dict with stage := f s.dict.stage } }

/-- A Kept value and its counter written to flash once main power is up (R324, R326; log entry 40). -/
def keepObject (s : State) (i j : Nat) : State :=
  match objAt i j, dictEntry s i j with
  | some o, some e => if o.kept && s.pins.mainOn then { s with dict := { s.dict with kept := putEntry s.dict.kept e } } else s
  | _, _ => s

/-- A value takes effect: current from now on, its change counter one higher, kept where the object is Kept (R324, R326). -/
def applyObject (s : State) (i j v : Nat) : State := keepObject (setDict s i j v) i j

/-- The holder's write to an RWS object or to 0x8000 to 0x8030 restarts LOCK_IDLE (R330). -/
def touchLock (s : State) (by_ : Master) : State :=
  if s.dict.stage.lock == some by_ then updStage s (fun g => { g with lastWrite := now s }) else s

/-- A raise is pending or in refit. -/
def raiseActive (s : State) : Bool := s.dict.stage.raise == .pending || s.dict.stage.raise == .refit

/-! The lock and the frame (R329 to R331). Each operation answers the new state and the status of the write. -/

/-- The value that the host wrote to an object within the current sill tick (R325). -/
def hostWroteNow (s : State) (i j : Nat) : Option Nat :=
  if s.dict.hostTick == some (now s / 125) then (s.dict.hostWrote.find? (fun e => e.1 == i && e.2.1 == j)).map (fun e => e.2.2) else none

/-- STAGE_LOCK written with 1 (R329). Where the host's write of the same sill tick stands before the sideband's in the queue, the
sideband's counts first: it takes the lock, and the host is told ST_BUSY_OTHER_MASTER (R325, R336; log entry 95). -/
def takeLock (s : State) (by_ : Master) : State × Nat :=
  match s.dict.stage.lock with
  | none => (updStage (applyObject s 0x8000 0 1) (fun g => { g with lock := some by_, lastWrite := now s }), stOk)
  | some m =>
    if m == by_ then (touchLock s by_, stOk)
    else if by_ == .sideband && hostWroteNow s 0x8000 0 == some 1 && !raiseActive s then
      (emit (updStage s (fun g => { g with lock := some by_, lastWrite := now s, frame := [] }))
        (.dictAnswer .host 0x8000 0 stBusyOtherMaster (dictCounter s 0x8000 0)), stOk)
    else (s, stBusyOtherMaster)

/-- STAGE_LOCK written with 0 (R329, R330). -/
def releaseLock (s : State) (by_ : Master) : State × Nat :=
  if s.dict.stage.lock != some by_ then (s, stBusyOtherMaster)
  else if raiseActive s then (touchLock s by_, stInProgress)
  else (updStage (applyObject s 0x8000 0 0) (fun g => { g with lock := none, frame := [] }), stOk)

/-- A write into the frame makes a judged fit stale (R331). -/
def staleFit (g : StageState) : StageState := if g.fit == .passed || g.fit == .failed then { g with fit := .stale } else g

/-- The frame with an object staged (R331). -/
def putStaged (l : List (Nat × Nat × Nat × Nat)) (e : Nat × Nat × Nat × Nat) : List (Nat × Nat × Nat × Nat) :=
  if l.any (fun x => x.1 == e.1 && x.2.1 == e.2.1) then l.map (fun x => if x.1 == e.1 && x.2.1 == e.2.1 then e else x) else l ++ [e]

/-- Bytes of the values in a frame. -/
def frameBytes (l : List (Nat × Nat × Nat × Nat)) : Nat := sumOf (l.map (fun e => e.2.2.1))

/-- A write of an RWS object (R329, R331). -/
def stageObject (s : State) (by_ : Master) (i j : Nat) (value : Bytes) : State × Nat :=
  if s.dict.stage.lock != some by_ then (s, stBusyOtherMaster)
  else
    let s1 := touchLock s by_
    let l := putStaged s.dict.stage.frame (i, j, value.length, leNat value)
    if raiseActive s then (s1, stInProgress)
    else if 64 < l.length || 8192 < frameBytes l then (s1, stNoResource)
    else (updStage s1 (fun g => staleFit { g with frame := l }), stOk)

/-- STAGE_DISCARD written (R331). -/
def discardFrame (s : State) (by_ : Master) (v : Nat) : State × Nat :=
  if s.dict.stage.lock != some by_ then (s, stBusyOtherMaster)
  else
    let s1 := touchLock s by_
    if raiseActive s then (s1, stInProgress)
    else
      let s2 := applyObject s1 0x8002 0 v
      (if v == 1 then updStage s2 (fun g => { g with frame := [] }) else s2, stOk)

/-- DRY_FIT written (R331, R332). -/
def startFit (s : State) (by_ : Master) (v : Nat) : State × Nat :=
  if s.dict.stage.lock != some by_ then (s, stBusyOtherMaster)
  else
    let s1 := touchLock s by_
    if raiseActive s || (v == 1 && s.dict.stage.fit == .running) then (s1, stInProgress)
    else
      let s2 := applyObject s1 0x8020 0 v
      (if v == 1 then updStage s2 (fun g => { g with fit := .running }) else s2, stOk)

/-! Dry-fit rules (R332). -/

/-- The staged value of an object, or its current one (R332). -/
def fitValue (s : State) (i j : Nat) : Nat :=
  match s.dict.stage.frame.find? (fun e => e.1 == i && e.2.1 == j) with
  | some e => e.2.2.2
  | none => objNat s .host i j

/-- An object's address as FIT_OBJECT gives it (R328). -/
def fitAddress (i j : Nat) : Nat := i % 65536 + j % 256 * 2 ^ 16

/-- Objects of the frame whose type, size or range fails (DF01). -/
def fitDf01 (s : State) : List Nat :=
  (s.dict.stage.frame.filter (fun e => match objAt e.1 e.2.1 with
    | some o => !(o.right == .rws && o.size == e.2.2.1 && objRangeOk e.1 e.2.1 e.2.2.2)
    | none => true)).map (fun e => fitAddress e.1 e.2.1)

/-- Domains whose timers contradict (DF03). -/
def fitDf03 (s : State) : List Nat :=
  ((List.range 196).filter (fun n =>
    let off := fitValue s (0x2100 + n) 3
    !(off == 0 || fitValue s (0x2100 + n) 2 ≤ off))).map (fun n => fitAddress (0x2100 + n) 3)

/-- The staged BAY0_CONFIG. -/
def stagedBay0 (s : State) : Option (BitVec 1024) :=
  (s.dict.stage.frame.find? (fun e => e.1 == 0x3000 && e.2.1 == 0)).map (fun e => BitVec.ofNat 1024 e.2.2.2)

/-- Bay 0's block lists after a raise: lower counts give up the highest-numbered blocks, higher ones take the lowest free (R289). -/
def newBlocks (held free : List Nat) (n : Nat) : List Nat := insertAllAsc (free.take (n - held.length)) (held.take n)

/-- Every window in which something is held of bay 0 fits shares of a new value (R287). -/
def sharesFit (s : State) (h : BitVec 1024) : Bool :=
  let t := updBay s 0 (fun v => { v with dramShare := bindDramShare h, rimeShare := bindRimeShare h })
  let ws := ((s.adm.queries.filter (fun x => x.bay == 0)).flatMap (fun x => x.holds.map (fun e => e.2.1)) ++
    (s.adm.kept.filter (fun e => e.1 == 0)).map (fun e => e.2.2.1)).eraseDups
  ws.all (fun w =>
    ((bayAt s 0).dramShare ≤ bindDramShare h || heldIn s 0 2 w ≤ admissible t 0 2 w) &&
    ((bayAt s 0).rimeShare ≤ bindRimeShare h || heldIn s 0 3 w ≤ admissible t 0 3 w))

/-- Resources of bay 0 may change as a staged header says: what it names is bay 0's or unbound, and what leaves has drained
(DF04, R287). -/
def bay0MayChange (s : State) (h : BitVec 1024) : Bool :=
  let v := bayAt s 0
  let slots := newBlocks v.slotBlocks (freeSlotBlocks s) (bindSlotBlocks h)
  let pegs := newBlocks v.pegBlocks (freePegBlocks s) (bindPegBlocks h)
  let goneSlots := v.slotBlocks.filter (fun k => !slots.contains k)
  let gonePegs := v.pegBlocks.filter (fun k => !pegs.contains k)
  bindArrays h != [] && 1 ≤ bindSlotBlocks h && 1 ≤ bindPegBlocks h &&
  (bindArrays h).all (fun a => v.arrays.contains a || ((arrayHolder s a).isNone)) &&
  (bindFlash h).all (fun c => v.flash.contains c || (flashHolder s c).isNone) &&
  (bindExcl h).all (fun c => v.excl.contains c || (exclHolder s c).isNone) &&
  (v.arrays.filter (fun a => !(bindArrays h).contains a)).all (fun a => !resourceBusy s 0 (.array a) && !(busyArrays s).contains a) &&
  (v.flash.filter (fun c => !(bindFlash h).contains c)).all (fun c => !resourceBusy s 0 (.flashChannel c)) &&
  (v.excl.filter (fun c => !(bindExcl h).contains c)).all (fun c => !resourceBusy s 0 (.exclChannel c)) &&
  goneSlots.all (fun k => s.adm.queries.all (fun x => x.slot / 256 != k)) &&
  gonePegs.all (fun k => s.bay.pegs.all (fun p => p.num / 1024 != k)) &&
  (s.queues.pairs.filter (fun p => p.bay == 0)).length ≤ bindQpairs h && sharesFit s h

/-- Bay 0's staged totals fit the module (DF05, R286). -/
def bay0Totals (s : State) (h : BitVec 1024) : Bool :=
  let v := bayAt s 0
  let others := fun (f : Bay → Nat) => bayTotal s f - f v
  others (fun x => x.dramShare) + bindDramShare h ≤ 256 && others (fun x => x.rimeShare) + bindRimeShare h ≤ 256 &&
  others (fun x => x.slotBlocks.length) + bindSlotBlocks h ≤ 128 && others (fun x => x.pegBlocks.length) + bindPegBlocks h ≤ 128 &&
  others (fun x => x.qpairs) + bindQpairs h ≤ 4096

/-- Bay 0's staged quota covers what cannot be evicted and 64 frames, and free DRAM covers its growth (DF06, R228). -/
def bay0Frames (s : State) (h : BitVec 1024) : Bool :=
  quotaFixed s 0 + 64 ≤ bindFrames h && bindFrames h ≤ (bayAt s 0).frames + freeDram s

/-- The rules that fail, each with its first failing object, in the order of the table Dry-fit rules. A rule over BAY0_CONFIG is
judged on the staged value. -/
def fitFailures (s : State) : List (Nat × Nat) :=
  let df01 := fitDf01 s
  let df03 := fitDf03 s
  let bay0 := fun (p : BitVec 1024 → Bool) => match stagedBay0 s with
    | some h => p h
    | none => true
  (match df01 with
   | o :: _ => [(1, o)]
   | [] => []) ++
  (if powerFloorLc s ≤ fitValue s 0x2000 1 then [] else [(2, fitAddress 0x2000 1)]) ++
  (match df03 with
   | o :: _ => [(3, o)]
   | [] => []) ++
  (if bay0 (bay0MayChange s) then [] else [(4, fitAddress 0x3000 0)]) ++
  (if bay0 (bay0Totals s) then [] else [(5, fitAddress 0x3000 0)]) ++
  (if bay0 (bay0Frames s) then [] else [(6, fitAddress 0x3000 0)]) ++
  (if s.pins.slotId + 1 < fitValue s 0x1010 4 then [] else [(7, fitAddress 0x1010 4)]) ++
  (if s.dict.stage.frame == [] then [(8, (freshValue s).toNat % 2 ^ 24)] else [])

/-- The result of a fit written: passed, or failed with rule, object and count; the object of rule 8 is a free value (R332). -/
def writeFit (s : State) : State :=
  let fs := fitFailures s
  match fs with
  | [] => updStage s (fun g => { g with fit := .passed })
  | (r, o) :: _ => updStage (bumpFree s) (fun g => { g with fit := .failed, fitRule := r, fitObject := o, fitFails := fs.length })

/-- DRY_FIT_COMPLETE (R332). -/
def execDryFitComplete (s : State) : Host.Outcome State Fault Refusal :=
  .next (if s.dict.stage.fit == .running then writeFit s else s)

/-! Raises (R333, R334). -/

/-- Why a raise request is refused, if it is (R333). -/
def raiseRefused (s : State) (m : RaiseMode) : Option Nat :=
  if raiseActive s then some stInProgress
  else if s.dict.stage.fit != .passed then some stInvalidField
  else
    match m with
    | .immediate => none
    | .atTime t => if t < now s + 2000000 || now s + 86400000000000 < t then some stInvalidField else none
    | .atIdle l => if l < 1000000 || 60000000000 < l then some stInvalidField else none

/-- RAISE_CMD written with a mode (R329, R333). -/
def requestRaise (s : State) (by_ : Master) (m : RaiseMode) (v : Nat) : State × Nat :=
  if s.dict.stage.lock != some by_ then (s, stBusyOtherMaster)
  else
    let s1 := touchLock s by_
    match raiseRefused s m with
    | some st => (s1, st)
    | none =>
      (updStage (applyObject s1 0x8030 0 v) (fun g => { g with
        raise := .pending, mode := some m, requested := now s, refitOk := false }), stOk)

/-- RAISE_CMD written with CANCEL (R333). -/
def cancelRaise (s : State) (by_ : Master) : State × Nat :=
  if s.dict.stage.lock != some by_ then (s, stBusyOtherMaster)
  else
    let s1 := touchLock s by_
    match s.dict.stage.raise with
    | .pending => (updStage (applyObject s1 0x8030 0 3) (fun g => { g with raise := .cancelled, mode := none }), stOk)
    | .refit => (s1, stInProgress)
    | _ => (s1, stOk)

/-- RAISE_CMD written with its 16 bytes (R328, R333). -/
def writeRaiseCmd (s : State) (by_ : Master) (v : Nat) : State × Nat :=
  if s.dict.stage.lock != some by_ then (s, stBusyOtherMaster)
  else if bitsAt v 2 62 != 0 then (touchLock s by_, stInvalidField)
  else
    match v % 4 with
    | 0 => requestRaise s by_ .immediate v
    | 1 => requestRaise s by_ (.atTime (bitsAt v 64 64)) v
    | 2 => requestRaise s by_ (.atIdle (bitsAt v 64 64)) v
    | _ => cancelRaise s by_

/-- RAISE_REFIT: at the request, or 1 ms before T, the rules are evaluated again; a failure ends the raise (R333). -/
def execRaiseRefit (s : State) : Host.Outcome State Fault Refusal :=
  .next
    (if s.dict.stage.raise != .pending || s.health.fatal != .none then s
     else
       let s1 := match s.dict.stage.mode with
         | some (.atTime t) => advanceTo s (t - 1000000)
         | _ => s
       if fitFailures s1 == [] then updStage s1 (fun g => { g with raise := .refit, refitOk := true })
       else
         let s2 := updStage (writeFit s1) (fun g => { g with raise := .refitFailed, mode := none, lastWrite := now s1 })
         raiseEvent s2 0x0002 4)

/-- Bay 0 takes the resources of its new configuration (R287, R289). -/
def applyBay0 (s : State) (h : BitVec 1024) : State :=
  let v := bayAt s 0
  let goneA := v.arrays.filter (fun a => !(bindArrays h).contains a)
  let goneF := v.flash.filter (fun c => !(bindFlash h).contains c)
  let goneX := v.excl.filter (fun c => !(bindExcl h).contains c)
  let newX := (bindExcl h).filter (fun c => !v.excl.contains c)
  let slots := newBlocks v.slotBlocks (freeSlotBlocks s) (bindSlotBlocks h)
  let pegs := newBlocks v.pegBlocks (freePegBlocks s) (bindPegBlocks h)
  let s1 := goneA.foldl clearArray s
  let s2 := updBay s1 0 (fun v => setCredits { v with
    arrays := bindArrays h, flash := bindFlash h, frames := bindFrames h, dramShare := bindDramShare h, rimeShare := bindRimeShare h,
    slotBlocks := slots, pegBlocks := pegs, qpairs := bindQpairs h, pegShare := bindPegShare h })
  let s3 := goneX.foldl (fun st c => releaseLease (dropExclusive st 0 c) c) (settleNotice s2 0)
  let s4 := (goneA.map Resource.array ++ goneF.map Resource.flashChannel).foldl handOver s3
  let returns := fun (c : Nat) => s4.tier.evacuation.any (fun v => v.returning && v.channel == c)
  let standby := newX.filter (fun c => s4.tier.departures.any (fun d => d.channel == c && d.kind == .standby) && !returns c)
  let evac := newX.filter (fun c => !s4.tier.departures.any (fun d => d.channel == c) || returns c)
  let s5 := standby.foldl (fun st c => bindExclusive st 0 c) s4
  if evac == [] then s5
  else
    -- the leases of a raise are awaited like those of a BAY_BIND, with a CID that no command carries
    let p : PendingBind := { cid := 65536, bay := 0, arrays := [], flash := [], excl := evac, extend := true }
    { s5 with bay := { s5.bay with pendingBinds := s5.bay.pendingBinds ++ [p] },
              tier := { s5.tier with wanted := s5.tier.wanted ++ evac.map (fun c => (c, DepKind.lease 0)) } }

/-! The throttle (R352, R353). -/

/-- BE work held or released: aging clocks stand still while it is held, and waiting host accesses fault when it is released (R135,
R352). -/
def settleHold (s : State) : State :=
  match beHeld s, s.power.heldSince with
  | true, none => { s with power := { s.power with heldSince := some (now s) } }
  | false, some t =>
    let cs := s.bay.contexts.map (fun (c : Ctx) => { c with progress := c.progress + (now s - t) })
    retryFaults { s with power := { s.power with heldSince := none }, bay := { s.bay with contexts := cs } }
  | _, _ => s

/-- An episode longer than 10 ms is logged: cause 0 cap, 1 THROTTLE_N, 2 VIN (R352, R375). -/
def logEpisode (s : State) (cause since : Nat) : State :=
  if since + 10000000 < now s then logError s errThrottle cause (now s - since) else s

/-- The cap throttle lifts; an excursion of LC work above the cap is logged with its peak (R352, R375). -/
def liftCap (s : State) : State :=
  let s1 := if s.adm.capPeak == 0 then s else logError s errCapExcursion 0 s.adm.capPeak
  let s2 := logEpisode s1 0 s.adm.throttleSince
  settleHold { s2 with adm := { s2.adm with capThrottle := false, capPeak := 0 } }

/-- POWER_NOW against POWER_CAP: above it the throttle holds, and power that stays above it is an excursion; below 98 % of it the
throttle lifts (R352, R354). -/
def judgePower (s : State) : State :=
  let p := s.power.powerNow
  if powerCap s < p then
    if s.adm.capThrottle then { s with adm := { s.adm with capPeak := max s.adm.capPeak p } }
    else settleHold { s with adm := { s.adm with capThrottle := true, throttleSince := now s } }
  else if s.adm.capThrottle && 100 * p < 98 * powerCap s then liftCap s
  else s

/-- A staged object becomes current: PLAN_DUE follows MARGIN_PERIOD, the throttle POWER_CAP, and bay 0 its
configuration (R287, R334, R354, R370). -/
def raiseObject (s : State) (e : Nat × Nat × Nat × Nat) : State :=
  let old := marginPeriod s
  let s1 := applyObject s e.1 e.2.1 e.2.2.2
  if e.1 == 0x6002 then { s1 with health := { s1.health with planDue := s1.health.planDue - old + marginPeriod s1 } }
  else if e.1 == 0x2000 then judgePower s1
  else if e.1 == 0x3000 then applyBay0 s1 (BitVec.ofNat 1024 e.2.2.2)
  else s1

/-- Some cut runs or waits, or some query slot is occupied: no idle tick (R333). -/
def tickBusy (s : State) : Bool := slotOccupied s || s.indexes.any merging || s.health.selfTest.isSome

/-- The raise tick R: every staged object current, frame empty, lock released, RAISE_DONE sent (R333, R334). -/
def raiseNow (s : State) : State :=
  let l := s.dict.stage.frame
  let s1 := l.foldl raiseObject s
  let s2 := updStage s1 (fun g => { g with
    frame := [], lock := none, raise := .done, mode := none, refitOk := false, raiseTick := now s, raiseObjects := l.length })
  raiseEvent (refreshLevels s2) 0x0001 (BitVec.ofNat 64 (now s))

/-- DICT_RAISE: after a refit that passed, at once, exactly at T, or at an idle tick within the limit (R333, R334). -/
def execDictRaise (s : State) : Host.Outcome State Fault Refusal :=
  .next
    (let g := s.dict.stage
     if g.raise != .refit || !g.refitOk || s.health.fatal != .none then s
     else
       match g.mode with
       | some .immediate => raiseNow s
       | some (.atTime t) => raiseNow (advanceTo s t)
       | some (.atIdle l) => if tickBusy s || g.requested + l < now s then s else raiseNow s
       | none => s)

/-- RAISE_EXPIRY: the limit of AT_IDLE passes without an idle tick; frame and lock are kept (R333). -/
def execRaiseExpiry (s : State) : Host.Outcome State Fault Refusal :=
  .next
    (match s.dict.stage.mode with
     | some (.atIdle l) =>
       if s.dict.stage.raise != .refit || s.health.fatal != .none then s
       else
         let s1 := advanceTo s (s.dict.stage.requested + l)
         raiseEvent (updStage s1 (fun g => { g with raise := .expired, mode := none, refitOk := false, lastWrite := now s1 })) 0x0002 5
     | _ => s)

/-! How the lock ends otherwise (R330). -/

/-- LOCK_LAPSE: LOCK_IDLE after the holder's last write, with no raise pending (R319, R330). -/
def execLockLapse (s : State) : Host.Outcome State Fault Refusal :=
  .next
    (if s.dict.stage.lock.isNone || raiseActive s then s
     else
       let s1 := advanceTo s (s.dict.stage.lastWrite + lockIdle s)
       raiseEvent (updStage s1 (fun g => { g with lock := none, frame := [] })) 0x0003 (BitVec.ofNat 64 (now s1)))

/-- The host's lock at a PF function-level reset, hot reset or link down: released, the frame emptied, and a pending raise cancelled; a
refit in course finds an empty frame and fails with rule 8 (R330, R332, R333; log entry 74). -/
def hostLockLost (s : State) : State :=
  if s.dict.stage.lock == some .host then
    let s1 := updStage s (fun g => { g with
      lock := none, frame := [], mode := none, refitOk := false,
      raise := if g.raise == .pending then .cancelled else g.raise })
    if s.dict.stage.raise == .refit then raiseEvent (updStage (writeFit s1) (fun g => { g with raise := .refitFailed })) 0x0002 4
    else s1
  else s

/-- The staging state after a restart of MGMT or a module reset: a lock that was held returns to its default, and its change counter
with it (R324, R330). A raise that a fatal error stopped is lost here (R381). -/
def stageAfterRestart (s : State) : State :=
  let s1 := if s.dict.stage.lock.isSome then
      { s with dict := { s.dict with entries := s.dict.entries.filter (fun e => e.index != 0x8000) } }
    else s
  updStage s1 (fun g => {
    raise := if g.raise == .pending || g.raise == .refit then .lost else .none, raiseTick := g.raiseTick, raiseObjects := g.raiseObjects })

/-! The rows of behavioural objects. A write that a row names is answered to its master (R323). -/

/-- The write serves while MGMT does, and not during a fatal sequence (R23, R320, R379). -/
def dictServes (s : State) : Bool := mgmtServes s && !isFatal s

/-- A master's way to the dictionary: the host's is DICT_WRITE on the admin queue, served over a link that is up and not degraded;
the sideband master's is XSDP on AUX (R14, R240, R256, R323). -/
def masterReaches (s : State) (by_ : Master) : Bool :=
  match by_ with
  | .host => s.link.up && !s.link.degraded && s.queues.adminCfg.getLsbD 63
  | .sideband => s.pins.auxGood

/-- The source with which a master's request wakes MGMT (R343). -/
def wakeSource (by_ : Master) : Nat :=
  match by_ with
  | .host => 0x09
  | .sideband => 0x02

/-- The state on which a master's write acts: MGMT asleep is woken (R23, R345). -/
def writeStart (s : State) (by_ : Master) : State := rouseMgmt s (wakeSource by_)

/-- A dictionary record whose value is set without a change of its counter. -/
def restoreValue (s : State) (i j v : Nat) : State :=
  match dictEntry s i j with
  | some e => refreshAlert (keepObject { s with dict := { s.dict with entries := putEntry s.dict.entries { e with value := some v } } } i j)
  | none => s

/-- The order of the writes of one sill tick: the sideband's are applied before the host's. A host write that took effect is noted;
a sideband write that stands behind it in the queue is applied beneath it, so that its change is counted and the host's value
stays (R28, R325, R336; log entry 95). -/
def noteWrite (by_ : Master) (i j : Nat) (r : State × Nat) : State × Nat :=
  if r.2 != stOk then r
  else if by_ == .host then
    let earlier := if r.1.dict.hostTick == some (now r.1 / 125) then r.1.dict.hostWrote else []
    let e := (i, j, if i == 0x8000 then (if r.1.dict.stage.lock == some .host then 1 else 0) else dictValue r.1 i j 0)
    ({ r.1 with dict := { r.1.dict with
        hostTick := some (now r.1 / 125), hostWrote := earlier.filter (fun x => !(x.1 == i && x.2.1 == j)) ++ [e] } }, r.2)
  else
    match hostWroteNow r.1 i j, objAt i j with
    | some v, some o => if o.right == .rw && i != 0x8000 && i != 0xA000 then (restoreValue r.1 i j v, r.2) else r
    | _, _ => r

/-- A row's write, where its master reaches the dictionary: refused while the dictionary does not serve, otherwise done, and
answered; MGMT asleep is woken (R14, R23, R320, R323, R379). -/
def rowWrite (s : State) (by_ : Master) (i j : Nat) (act : State → State × Nat) : State :=
  if masterReaches s by_ then
    let s1 := writeStart s by_
    let r := if dictServes s then noteWrite by_ i j (act s1) else (s1, stBusyOtherMaster)
    emit r.1 (.dictAnswer by_ i j r.2 (dictCounter r.1 i j))
  else s

def execStageLockTake (by_ : Master) (s : State) : Host.Outcome State Fault Refusal :=
  .next (rowWrite s by_ 0x8000 0 (fun s => takeLock s by_))
def execStageLockRelease (by_ : Master) (s : State) : Host.Outcome State Fault Refusal :=
  .next (rowWrite s by_ 0x8000 0 (fun s => releaseLock s by_))
def execStageDiscard (by_ : Master) (s : State) : Host.Outcome State Fault Refusal :=
  .next (rowWrite s by_ 0x8002 0 (fun s => discardFrame s by_ 1))
def execDryFit (by_ : Master) (s : State) : Host.Outcome State Fault Refusal :=
  .next (rowWrite s by_ 0x8020 0 (fun s => startFit s by_ 1))
def execRaiseImmediate (by_ : Master) (s : State) : Host.Outcome State Fault Refusal :=
  .next (rowWrite s by_ 0x8030 0 (fun s => requestRaise s by_ .immediate 0))
def execRaiseAtTime (by_ : Master) (t : Word64) (s : State) : Host.Outcome State Fault Refusal :=
  .next (rowWrite s by_ 0x8030 0 (fun s => requestRaise s by_ (.atTime t.toNat) (1 + t.toNat * 2 ^ 64)))
def execRaiseAtIdle (by_ : Master) (limit : Word64) (s : State) : Host.Outcome State Fault Refusal :=
  .next (rowWrite s by_ 0x8030 0 (fun s => requestRaise s by_ (.atIdle limit.toNat) (2 + limit.toNat * 2 ^ 64)))
def execRaiseCancel (by_ : Master) (s : State) : Host.Outcome State Fault Refusal :=
  .next (rowWrite s by_ 0x8030 0 (fun s => cancelRaise s by_))

end Sys2Proof.Machine
end

