-- ==== Sys2Proof/Machine/Media.lean ====
section
/-! DEFINITION. Media health: flash blocks, dies and patrol, rebuilt and lost units, DRAM scrub, failing rows, repair and
retirement, and restored index structures (R231, R234, R355 to R367). -/

namespace Sys2Proof.Machine

open Sys2Proof

/-! Flash (R357 to R363). -/

/-- Blocks of a die that hold data at first, logical block b in physical block b: 92 % of them; the last ones are spare (R362; log entry 37). -/
def logicalBlocks : Nat := Config.blocksPerDie - 8 * Config.blocksPerDie / 100

/-- Dies of a channel. -/
def channelDies (s : State) (c : Nat) : List Die := (List.range s.sec.order.dies).map (dieAt s c)

/-- The logical block, with its die, that a physical block of a die holds (R357). -/
def blockAt (s : State) (c d block : Nat) : Option (Nat × Nat) :=
  let v := dieAt s c d
  ((channelDies s c).findSome? (fun w => (w.moved.find? (fun e => e.2 == (d, block))).map (fun e => (w.die, e.1)))).orElse (fun _ =>
    if block < logicalBlocks && (lookupKey v.moved block).isNone && !v.removed.contains block then some (d, block) else none)

/-- Logical blocks, with their dies, that lie on a die: its own that never left it, and those moved to it (R357). -/
def residents (s : State) (c d : Nat) : List (Nat × Nat) :=
  let v := dieAt s c d
  ((List.range logicalBlocks).filter (fun b => (lookupKey v.moved b).isNone && !v.removed.contains b)).map (fun b => (d, b)) ++
    (channelDies s c).flatMap (fun w => (w.moved.filter (fun e => e.2.1 == d)).map (fun e => (w.die, e.1)))

/-- A physical block of a die is spare: one that a refresh freed, or one of its last blocks that never held data and is not bad (R360, R362;
log entry 37). -/
def spareBlock (s : State) (c d block : Nat) : Bool :=
  let v := dieAt s c d
  v.pool.contains block || (decide (logicalBlocks ≤ block) && !v.bad.contains block && (blockAt s c d block).isNone)

/-- The spare block that a die gives next: one that a refresh freed, else the first of its last blocks (which one is open; log entry 37). -/
def nextSpare (s : State) (c d : Nat) : Nat :=
  ((dieAt s c d).pool.head?).getD (((List.range Config.blocksPerDie).find? (spareBlock s c d)).getD 0)

/-- A logical block of a die takes a spare of die t of its channel (R357, R362). -/
def moveBlock (s : State) (c l b t : Nat) : State :=
  let k := nextSpare s c t
  let v := dieAt s c t
  let s1 := setDie s { v with pool := v.pool.erase k, spares := v.spares - 1 }
  let w := dieAt s1 c l
  setDie s1 { w with moved := putKey w.moved b (t, k) }

/-- The die whose spare a block takes that lay on die d: d itself, else the lowest other die of the channel that has one (R362). -/
def spareDie (s : State) (c d : Nat) : Option Nat :=
  (d :: List.range s.sec.order.dies).find? (fun t => !(dieAt s c t).retired && (dieAt s c t).spares != 0)

/-- The units of a stripe copied to a free stripe of its group, which every map names from then on (R362). -/
def moveStripe (s : State) (g l u : Nat) : State :=
  let n := freeStripe s (usedStripes s) g (freshValue s).toNat
  let pairs := (stripeUnits g l u).zip (stripeUnits g n.1 n.2)
  let to_ := fun (p : UnitLoc) => ((pairs.find? (fun e => e.1 == p)).map (fun e => e.2)).getD p
  let mv := fun (v : Version) => { v with
    nodeMap := v.nodeMap.map (fun e => (e.1, to_ e.2)), rerankMap := v.rerankMap.map (fun e => (e.1, to_ e.2)) }
  { bumpFree s with
    indexes := s.indexes.map (fun (x : Index) => { x with
      versions := x.versions.map mv, merge := x.merge.map (fun m => { m with building := m.building.map mv }) }),
    health := { s.health with lostUnits := s.health.lostUnits.map (fun e =>
      let p := to_ ⟨e.1, e.2.1, e.2.2⟩
      (p.channel, p.die, p.unit)) } }

/-- A FLASH page whose home extent lies in removed blocks gets a new one at the end of its group's log (R224, R362). -/
def moveHome (s : State) (h : PageHome) : State :=
  let n := nextHome s h.group
  { s with tier := { s.tier with
      logHead := putKey s.tier.logHead h.group (n + 64),
      homes := s.tier.homes.map (fun x => if x == h then { x with slot := n } else x),
      frames := s.tier.frames.map (fun e => if e.page == h.page && e.home == some (h.group, h.slot) then { e with home := some (h.group, n) } else e) } }

/-- A logical block of a die that found no spare leaves its group: its valid stripes are copied to free ones, its addresses are used no more,
and the usable capacity falls by 8 units for each of its units (R362, R363). -/
def removeBlock (s : State) (c l b : Nat) : State :=
  let g := c / 8
  let held := (heldStripes s).filter (fun e => e.1 == g && e.2.1 == l && (blockUnits b).contains e.2.2)
  let homes := s.tier.homes.filter (fun h => h.group == g && (List.range 64).any (fun i =>
    let u := Config.slotUnit g (h.slot + i)
    u.2.1 == l && (blockUnits b).contains u.2.2))
  let w := dieAt s c l
  let s1 := setDie s { w with moved := dropKey w.moved b, removed := insertAsc b w.removed }
  let s2 := homes.foldl moveHome (held.foldl (fun st e => moveStripe st g l e.2.2) s1)
  { s2 with health := { s2.health with
      groupLost := putKey s2.health.groupLost g ((lookupKey s2.health.groupLost g).getD 0 + 8 * Config.unitsPerBlock * 4096) } }

/-- A logical block that lay on die d is rebuilt in a spare block, or leaves its group (R359, R362). -/
def placeBlock (c d : Nat) (s : State) (e : Nat × Nat) : State :=
  match spareDie s c d with
  | some t => moveBlock s c e.1 e.2 t
  | none => removeBlock s c e.1 e.2

/-- A die without a spare is retired: what lies on it goes to spares of the other dies of its channel, and what finds none leaves the group; the
entry holds the units removed (R362, R363). -/
def retireDie (s : State) (c d : Nat) : State :=
  let s1 := setDie s { dieAt s c d with retired := true, piece := none, spares := 0, pool := [] }
  let s2 := (residents s1 c d).foldl (placeBlock c d) s1
  let lost := fun (st : State) => sumOf ((channelDies st c).map (fun w => w.removed.length))
  refreshLevels (logError (releasePieceWaits s2) errDieRetired (dieUnit c d) ((lost s2 - lost s1) * Config.unitsPerBlock))

/-- Dies of a channel that have used their last spare are retired one after the other, with fuel (R362). -/
def retireSpent (c : Nat) : Nat → State → State
  | 0, s => s
  | k + 1, s =>
    match s.health.dies.find? (fun v => v.channel == c && !v.retired && v.spares == 0) with
    | some v => retireSpent c k (retireDie s c v.die)
    | none => s

/-- A block of a die turns bad: what it held is rebuilt in a spare of the die, whose last spare retires it (R362). -/
def retireBlock (s : State) (c d block : Nat) : State :=
  let v := dieAt s c d
  if v.retired || v.bad.contains block then s
  else
    let lost := if spareBlock s c d block then 1 else 0
    let held := blockAt s c d block
    let s1 := setDie s { v with bad := insertAsc block v.bad, pool := v.pool.erase block, spares := v.spares - lost }
    retireSpent c s.sec.order.dies (match held with
      | some e => placeBlock c d s1 e
      | none => s1)

/-- A block of a die refreshed: its units are copied to a fresh block, and it is spare from then on (R357, R360). -/
def refreshBlock (s : State) (c d block : Nat) : State :=
  match blockAt s c d block with
  | some e =>
    if (dieAt s c d).spares == 0 then s
    else
      let s1 := moveBlock s c e.1 e.2 d
      let v := dieAt s1 c d
      setDie s1 { v with pool := v.pool ++ [block], spares := v.spares + 1 }
  | none => s

/-- FLASH_PE_FAIL (R362). -/
def execFlashPeFail (channel die block : Nat) (s : State) : Host.Outcome State Fault Refusal :=
  .next (if channel < 128 && die < s.sec.order.dies && block < Config.blocksPerDie then retireBlock s channel die block else s)

/-- 168 h in ns. -/
def patrolPeriod : Nat := 168 * 3600000000000

/-- FLASH_PATROL: a unit that needs 2 or 3 retries, the most there are, or whose corrected bits are high, has its physical block refreshed; a
second time within 168 h of one boot the block is retired (R357, R360, R362). The patrol yields to the power throttle (R352), and asks the
flash group to wake (R343). -/
def execFlashPatrol (channel die block retries : Nat) (bitsHigh : Bool) (s : State) : Host.Outcome State Fault Refusal :=
  .next
    (if beHeld s || 128 ≤ channel || s.sec.order.dies ≤ die then s
     else
       let s := needDomains s [flgDomain (channel / 8)]
       let v := dieAt s channel die
       if v.retired || 3 < retries || (blockAt s channel die block).isNone || !(2 ≤ retries || bitsHigh) then s
       else
         let again := (lookupKey v.refreshed block).any (fun t => t.1 == s.time.bootCount.toNat && decide (now s ≤ t.2 + patrolPeriod))
         let s1 := setDie s { v with refreshed := putKey v.refreshed block (s.time.bootCount.toNat, now s) }
         if again then retireBlock s1 channel die block else refreshBlock s1 channel die block)

/-- The physical block in which a logical block of a die lies; none once it has left its group (R357, R362). -/
def physOf (s : State) (c l b : Nat) : Option (Nat × Nat) :=
  if (dieAt s c l).removed.contains b then none else some ((lookupKey (dieAt s c l).moved b).getD (l, b))

/-- MEDIA_UNIT_REBUILD: rebuilt into a fresh block at the same logical place, or lost, as is a unit of a stripe that lost another one (R358,
R359, R381). -/
def execMediaUnitRebuild (channel die unit : Nat) (ok : Bool) (s : State) : Host.Outcome State Fault Refusal :=
  .next
    (if 128 ≤ channel || s.sec.order.dies ≤ die || s.health.lostUnits.contains (channel, die, unit) then s
     else if ok && !stripeBroken s channel die unit then
       let s1 := match physOf s channel die (unit / Config.unitsPerBlock) with
         | some p => refreshBlock s channel p.1 p.2
         | none => s
       logError s1 errFlashRebuilt (dieUnit channel die) unit
     else loseUnit s channel die unit)

/-- The regions' structures that a restorable structure takes (R361). -/
def structParts (st : IndexStruct) : List IndexPart :=
  match st with
  | .nodeMap => [.nodeRoots, .nodeLeaves]
  | .rerankMap => [.rerankRoots, .rerankLeaves]
  | .hubLayer => [.hubs]
  | .kerfMap => [.kerfBits]
  | .presenceMap => [.presenceBits]

/-- A DRAM byte lies in a structure of an index. -/
def inStruct (s : State) (x : Index) (st : IndexStruct) (key : Nat) : Bool :=
  let page := (frameAt s (key / pageBytes)).page
  (frameAt s (key / pageBytes)).state == .dram &&
  x.parts.any (fun r => (structParts st).contains r.part && r.base ≤ page && page < r.base + r.pages)

/-- INDEX_STRUCTURE_RESTORED: the blocks of the structure are poisoned no more; how the entry codes the structure and how long the
restore took are free values (R361, R375). -/
def execIndexStructureRestored (index : Nat) (st : IndexStruct) (s : State) : Host.Outcome State Fault Refusal :=
  .next
    (match indexAt s index with
     | none => s
     | some x =>
       if !s.tier.poison.any (inStruct s x st) then s
       else
         let ds := ((s.tier.poison.filter (inStruct s x st)).map (fun k => k / pageBytes)).eraseDups
         let s1 := ds.foldl refreshPoison { s with tier := { s.tier with poison := s.tier.poison.filter (fun k => !inStruct s x st k) } }
         logError (bumpFree (bumpFree s1)) errIndexRestored index ((freshValue s1).toNat + (freshValue (bumpFree s1)).toNat * 2 ^ 64))

/-! DRAM (R355, R360, R365 to R367). -/

/-- DRAM_SCRUB_PASS: every codeword of a data frame set is read, corrected and counted; yields to the power throttle, and asks the DRAM
controllers to wake (R343, R355, R360). -/
def execDramScrubPass (set : Nat) (corrected : List (Nat × Nat)) (s : State) : Host.Outcome State Fault Refusal :=
  .next
    (if beHeld s || 960 ≤ set then s
     else
       let mine := corrected.filter (fun e => e.2 / 128 == set && e.1 < 4096)
       let s1 := mine.foldl (fun st e => noteCorrected st e.1 e.2) (needDomains s lpcDomains)
       { s1 with health := { s1.health with scrubbed := putKey s1.health.scrubbed set (now s) } })

/-- A row is failing by its correctable codewords: 3 reads within 24 h (R365). -/
def rowWeak (s : State) (bank row : Nat) : Bool :=
  3 ≤ ((bankHealth s bank).rowHits.filter (fun h => h.1 == row && now s ≤ h.2 + dayNs)).length

/-- Data of an uncorrectable codeword is gone: unless the read that met it has already poisoned a block of the row, one of its 32 blocks is
poisoned, and which one is a free value (R236; log entry 75). The state, and the block as its frame and offset. -/
def poisonRow (s : State) (bank row : Nat) : State × Option (Nat × Nat) :=
  match s.tier.poison.find? (fun p => blockRow s (p / pageBytes) (p % pageBytes) == (bank, row)) with
  | some p => (s, some (p / pageBytes, p % pageBytes))
  | none =>
    match rowPlace s bank row (64 * ((freshValue s).toNat % 32)) with
    | some e =>
      let s1 := bumpFree s
      (refreshPoison { s1 with tier := { s1.tier with poison := insertAsc (dramKey e.1 (e.2 / 64 * 64)) s1.tier.poison } } e.1, some e)
    | none => (s, none)

/-- The device-range address of a place in a frame. -/
def placeAddress (s : State) (e : Option (Nat × Nat)) : Nat := (e.map (fun x => pageBytes * (frameAt s x.1).page + x.2 / 64 * 64)).getD 0

/-- Frames retired for good for a row of a channel; above 64 the channel's RETIRED departure is requested (R365, R367). -/
def retireFrames (s : State) (c : Nat) (frames : List Nat) : State :=
  let old := (lookupKey s.health.retiredFrames c).getD []
  let fresh := frames.filter (fun d => !old.contains d)
  let all := old ++ fresh
  let s1 := logError { s with health := { s.health with retiredFrames := putKey s.health.retiredFrames c all } }
    errFramesRetired c (fresh.length + all.length * 2 ^ 64)
  if 64 < all.length then wantDeparture s1 c .retired else s1

/-- Rows of a channel queued for repair. -/
def queuedRows (s : State) (c : Nat) : Nat :=
  sumOf ((s.health.banks.filter (fun b => b.bank / 32 == c)).map (fun b => b.failing.length))

/-- DRAM_ROW_FAILING: the frames that hold the row are vacated; with a repair row left it is queued for the channel's next TEMPORARY
departure, otherwise its frames retire (R365, R366, R367). -/
def execDramRowFailing (bank row : Nat) (uncorrectable : Bool) (s : State) : Host.Outcome State Fault Refusal :=
  .next
    (let v := bankHealth s bank
     if 4096 ≤ bank || 131072 ≤ row || v.failing.any (fun r => r.1 == row) || !(uncorrectable || rowWeak s bank row) then s
     else
       let c := bank / 32
       let frames := framesOfRow s bank row
       let left := 4 - v.used
       let t := poisonRow s bank row
       let s1 := if uncorrectable then logError t.1 errDramUe bank (row + placeAddress s t.2 * 2 ^ 64) else s
       let s2 := logError s1 errRowFailing bank (row + left * 2 ^ 64)
       let s3 := frames.foldl holdFrame s2
       if v.used + v.failing.length < 4 then
         let s4 := setBankHealth s3 { v with failing := v.failing ++ [(row, frames)] }
         if 8 ≤ queuedRows s4 c then wantDeparture s4 c .temporary else s4
       else retireFrames s3 c frames)

/-- A queued row is repaired, its frames FREE again, or its repair fails and they retire; which of the two is a free value (R365). -/
def repairRow (bank : Nat) (s : State) (r : Nat × List Nat) : State :=
  let ok := (freshValue s).toNat % 2 == 0
  let v := bankHealth s bank
  let s1 := setBankHealth (bumpFree s) { v with used := min 4 (v.used + 1), mended := v.mended + (if ok then 1 else 0), failing := v.failing.filter (fun x => x.1 != r.1) }
  if ok then giveRowBack s1 r.2 else retireFrames s1 (bank / 32) r.2

/-- Queued rows of a channel repaired. -/
def repairChannel (s : State) (c : Nat) : State :=
  (s.health.banks.filter (fun b => b.bank / 32 == c)).foldl (fun st b => b.failing.foldl (repairRow b.bank) st) s

/-- FULL_RETRAINING_DONE: a channel that a TEMPORARY departure took out is retrained and its queued rows are repaired; then its
return copy is announced (R231, R234, R235, R365). -/
def execFullRetrainingDone (channel : Nat) (s : State) : Host.Outcome State Fault Refusal :=
  .next
    (match s.tier.departures.getLast? with
     | some d =>
       if d.channel != channel || d.kind != .temporary || !d.out || s.tier.evacuation.isSome then s
       else
         let s1 := repairChannel s channel
         let v : Evacuation := { channel := channel, returning := true, clear := clearStripes s1 channel }
         { s1 with tier := { s1.tier with evacuation := some v } }
     | none => s)

end Sys2Proof.Machine
end

