-- ==== Sys2Proof/Machine/Ageing.lean ====
section
/-! DEFINITION. Ageing monitors and margin plans (R335, R368 to R373). -/

namespace Sys2Proof.Machine

open Sys2Proof

/-- Monitored kinds of the table Moraine kinds. -/
def monitorKinds : List Nat := [0x0001, 0x0002, 0x0010, 0x0011, 0x0020, 0x0021, 0x0022]

/-- A value has moved by more than 1 % from the recorded one (R368). -/
def movedOne (old new : Word32) : Bool := decide (old.toInt.natAbs < 100 * (new.toInt - old.toInt).natAbs)

/-- A record is due: the unit has none, a value moved, or 24 h have passed (R368). -/
def recordDue (s : State) (kind unit : Nat) (v : List Word32) : Bool :=
  match s.health.moraine.reverse.find? (fun r => r.kind == kind && r.unit == unit) with
  | none => true
  | some r => dayNs ≤ now s - r.dtb || (([r.v0, r.v1, r.v2, r.v3].zip v).any (fun e => movedOne e.1 e.2))

/-- The unit that a record of a kind names exists, and an array's domain is on (R368, R369). -/
def monitored (s : State) (kind unit : Nat) : Bool :=
  let die := unit / 256 % 8 < s.sec.order.dies && unit / 128 % 2 == 0
  match kind with
  | 0x0001 | 0x0002 => 4 ≤ unit && unit < 164 && (domainAt s unit).state == .on
  | 0x0010 => unit < 128
  | 0x0011 => unit < 4096
  | 0x0022 => die && unit / 2048 % 2 == 0 && unit / 4096 < 7
  | _ => die && unit < 2048

/-- MONITOR_SAMPLE (R368, R369). -/
def execMonitorSample (kind unit : Nat) (v0 v1 v2 v3 limit : Word32) (s : State) : Host.Outcome State Fault Refusal :=
  .next
    (if monitorKinds.contains kind && monitored s kind unit && recordDue s kind unit [v0, v1, v2, v3] then logMoraine s kind unit v0 v1 v2 v3 limit else s)

/-- A supply offset, up to the next step of 5 mV, within −50 mV to +75 mV (R371). -/
def clampOffset (mv : Int) : Int := max (-50) (min 75 (-(-mv / 5) * 5))

/-- A read reference offset in steps of 10 mV within ±400 mV, the nearest one to what was measured (R371; log entry 115). -/
def clampReference (mv : Int) : Int := max (-400) (min 400 ((mv + 5) / 10 * 10))

/-- REFRESH_MULT by the hottest memory package, at least 2 while some bank has more than 100 correctable codewords in an hour (R371). -/
def refreshFor (s : State) (hottest : Nat) : Nat :=
  let busy := s.health.banks.any (fun b => decide (100 < (b.rowHits.filter (fun h => now s ≤ h.2 + 3600000000000)).length))
  max (if hottest ≤ 85 then 1 else if hottest ≤ 95 then 2 else 4) (if busy then 2 else 1)

/-- Channels planned for full retraining: below 40 % UI read eye width at their last record, or with queued failing rows (R371). -/
def retrainChannels (s : State) : List Nat :=
  (List.range 128).filter (fun c =>
    (match s.health.moraine.reverse.find? (fun r => r.kind == 0x0010 && r.unit == c) with
     | some r => decide (r.v0.toInt < 40)
     | none => false) || queuedRows s c != 0)

/-- The last recorded slack of an array's critical-path monitors; free where none was recorded (R375). -/
def lastSlack (s : State) (n : Nat) : Nat :=
  match s.health.moraine.reverse.find? (fun r => r.kind == 0x0002 && r.unit == n) with
  | some r => r.v0.toNat
  | none => (freshValue s).toNat % 2 ^ 32

/-- An array whose rule needs more than +75 mV is logged once and bound by no BAY_BIND from now on (R373). -/
def exhaustArray (s : State) (n : Nat) : State :=
  let a := n - 4
  if s.bay.exhausted.contains a then s
  else
    let s1 := logError s errMarginExhausted n (lastSlack s n)
    bumpFree { s1 with bay := { s1.bay with exhausted := insertAsc a s1.bay.exhausted } }

/-- Dies of which a plan changes a reference offset. -/
def refDies (s : State) (rs : List (Nat × Nat × Nat × Int)) : List Nat :=
  ((rs.filter (fun r => (lookupKey (dieAt s r.1 r.2.1).offsets r.2.2.1).getD 0 != r.2.2.2)).map (fun r => 8 * r.1 + r.2.1)).eraseDups

/-- Domains of which a plan changes the supply offset or the clock step. -/
def changedDomains (s : State) (p : MarginPlan) : List Nat :=
  (((p.offsets.filter (fun e => (lookupKey s.health.offsets e.1).getD 0 != e.2)).map (fun e => e.1)) ++
   ((p.clocks.filter (fun e => (lookupKey s.health.clocks e.1).getD 0 != e.2)).map (fun e => e.1))).eraseDups

/-- The plan that measurements call for: offsets clamped, clock steps only of MGMT and SEC at +75 mV, reference offsets within
400 mV; a plan for trigger 0x05 leaves calibration and retraining out (R371, R372). -/
def planOf (s : State) (trigger : Nat) (m : MarginItems) : MarginPlan :=
  let offs := (m.offsets.filter (fun e => e.1 < 196)).map (fun (e : Nat × Int) => (e.1, clampOffset e.2))
  { number := s.health.planNumber + 1, trigger := trigger, offsets := offs,
    clocks := m.clocks.filter (fun e => e.1 < 2 && e.2 ≤ 3 && offs.contains (e.1, 75)),
    refresh := refreshFor s m.hottest,
    refs := if trigger == 5 then [] else (m.refs.filter (fun r => r.1 < 128 && r.2.1 < s.sec.order.dies && r.2.2.1 < 7)).map (fun r =>
      (r.1, r.2.1, r.2.2.1, clampReference r.2.2.2)),
    retrain := if trigger == 5 then [] else retrainChannels s }

/-- MARGIN_PLAN_BUILD: one plan at a time, a trigger during a build being folded into it; the moraine record MARGIN_PLAN and the log
entry are written at the end of the build; MGMT and the flash groups whose dies it calibrates are asked to wake (R343, R370 to R373,
R375). -/
def execMarginPlanBuild (trigger : Nat) (m : MarginItems) (s : State) : Host.Outcome State Fault Refusal :=
  .next
    (if s.health.plan.isSome || !mgmtAwake s || isFatal s || trigger == 0 || 7 < trigger then s
     else
       let s0 := needDomains (rouseMgmt s 0x09) (if trigger == 5 then [] else flgDomains ((m.refs.map (fun r => r.1)).filter (fun c => c < 128)))
       let s1 := if trigger == 1 then
           let t := advanceTo s0 s0.health.planDue
           { t with health := { t.health with planDue := t.health.planDue + marginPeriod t } }
         else s0
       let p := planOf s1 trigger m
       let s2 := ((m.offsets.filter (fun e => 4 ≤ e.1 && e.1 < 164 && 75 < e.2)).map (fun e => e.1)).foldl exhaustArray s1
       let s3 := logMoraine (bumpFree s2) 0x0030 p.number (BitVec.ofNat 32 (changedDomains s2 p).length)
         (BitVec.ofNat 32 p.refresh) (BitVec.ofNat 32 (refDies s2 p.refs).length) (BitVec.ofNat 32 trigger)
         (BitVec.ofNat 32 (freshValue s2).toNat)
       let s4 := logError s3 errMarginPlan p.number trigger
       { s4 with health := { s4.health with plan := some p } })

/-- A die's reference offset in force (R371). -/
def setReference (s : State) (r : Nat × Nat × Nat × Int) : State :=
  let v := dieAt s r.1 r.2.1
  setDie s { v with offsets := putKey v.offsets r.2.2.1 r.2.2.2 }

/-- MARGIN_PLAN_RAISE: at the raise tick offsets, clock steps, references and REFRESH_MULT are in force, PLAN_NUMBER and PLAN_DTB
follow, and the planned departures are requested (R335, R371, R372). -/
def execMarginPlanRaise (s : State) : Host.Outcome State Fault Refusal :=
  .next
    (match s.health.plan with
     | none => s
     | some p =>
       let s1 := p.refs.foldl setReference s
       let s2 := { s1 with health := { s1.health with
         plan := none, planNumber := p.number, planDtb := now s, refreshMult := p.refresh,
         offsets := p.offsets.foldl (fun l e => putKey l e.1 e.2) s1.health.offsets,
         clocks := p.clocks.foldl (fun l e => putKey l e.1 e.2) s1.health.clocks } }
       p.retrain.foldl (fun st c => wantDeparture st c .temporary) s2)

end Sys2Proof.Machine
end

