-- ==== Sys2Proof/Machine/Link.lean ====
section
/-! DEFINITION. The CXL attachment: training, resets of functions, the window and its decoders, the coherency cache and the snoop
filter, IDE failures, CDAT, and the function registers (R239 to R253, R421). -/

namespace Sys2Proof.Machine

open Sys2Proof

/-! Function registers (R252). -/

/-- A stream's two directions both run on a key set (R249, R252). -/
def dirActive (s : State) (d : StreamDir) : Bool := ((s.link.ide.find? (fun e => e.1 == d)).map (fun e => e.2.active.isSome)).getD false
def streamSecure (s : State) (stream : Nat) : Bool :=
  !s.link.ideInsecure.contains stream &&
  (if stream == 0 then dirActive s .cacheTx && dirActive s .cacheRx else dirActive s .ioTx && dirActive s .ioRx)

/-- FN_INFO of a function (R252). -/
def fnInfo (s : State) (fn : Nat) : Word64 := BitVec.ofNat 64 (fn % 64 + s.sec.order.code * 2 ^ 32 + (if fn == 0 then 2 ^ 40 else 0))

/-- BAY_BOUND of a function: from the completion of the BAY_BIND that bound its bay on; bay 0 holds what BAY0_CONFIG gives it once MGMT
serves (R252, R287, R290, R303; log entry 119). -/
def bayShown (s : State) (fn : Nat) : Bool := bayBound s fn && (bayAt s fn).binding.isNone && (fn != 0 || s.sec.mgmtReady)

/-- FN_STATUS of a function (R252). -/
def fnStatus (s : State) (fn : Nat) : Word64 :=
  let b := fun (p : Bool) (i : Nat) => if p then 2 ^ i else 0
  BitVec.ofNat 64 (b s.link.ready 0 + b (bayShown s fn) 1 + b (mgmtServes s) 2 + b s.link.degraded 3 + b (ptmSync s) 4 +
    b s.link.cacheOn 5 + b s.link.memOn 6 + b (streamSecure s 0 && streamSecure s 1) 7)

/-! What the attachment supports (R239). -/

/-- Link widths, and rates in GT/s, that serve in CXL mode. -/
def servedWidths : List Nat := [4, 8, 16]
def servedRates : List Nat := [16, 32, 64]

/-- Modes of CXL.cachemem IDE, and the means of error reporting (table CXL 3.1 support matrix). -/
inductive IdeMode where
  | containment
  | skid
  deriving DecidableEq, Repr
inductive ErrorReport where
  | aer
  | cxlRas
  | viral
  deriving DecidableEq, Repr
def ideModes : List IdeMode := [.containment, .skid]
def errorReports : List ErrorReport := [.aer, .cxlRas, .viral]

/-- The device coherency cache: bytes, bytes of a line, ways. -/
def cacheSize : Nat × Nat × Nat := (2 ^ 20, 64, 16)

/-- HDM decoders that the capability reports: none in 68-byte flit mode (R239, R241). -/
def hdmDecoders (s : State) : Nat := if s.link.flit256 then 4 else 0

/-! Configuration space and BAR0 (R239, R251, R252, R256). -/

/-- Identity of a function: vendor ID, device ID, class code (R251). -/
def fnIdentity (fn : Nat) : Nat × Nat × Nat := (0x1F2C, if fn == 0 then 0x9416 else 0x9417, 0x120000)

/-- Capabilities of a function's configuration space; the DVSECs carry vendor ID 0x1E98 (R251). -/
inductive Capability where
  | pcie
  | msix
  | aer
  | sriov
  | ptm
  | doe
  | ide
  | dvsecDevice
  | dvsecFlexBusPort
  | dvsecRegisterLocator
  | dvsecNonCxlMap
  deriving DecidableEq, Repr

/-- Vendor ID of the CXL DVSECs (R251). -/
def dvsecVendor : Nat := 0x1E98

/-- A base address register: which, 64-bit, prefetchable, bytes (R251). -/
structure Bar where
  num : Nat
  wide : Bool
  prefetch : Bool
  size : Nat
  deriving DecidableEq, Repr

/-- The one BAR of a function, and the entries of its MSI-X table (R251). -/
def bar0 : Bar := { num := 0, wide := true, prefetch := false, size := 2 ^ 20 }
def msixEntries : Nat := 2048

/-- The PF's capabilities and a VF's (R251). -/
def capabilities (fn : Nat) : List Capability :=
  if fn == 0 then [.pcie, .msix, .aer, .sriov, .ptm, .doe, .ide, .dvsecDevice, .dvsecFlexBusPort, .dvsecRegisterLocator, .dvsecNonCxlMap]
  else [.pcie, .msix, .aer]

/-- What lies at an offset of BAR0, with the start of its block (table BAR0 layout). -/
inductive BarBlock where
  | registers
  | doorbells
  | msixTable
  | msixPending
  | component
  | device
  | rsvd
  deriving DecidableEq, Repr

/-- The block of BAR0 that an offset of a function lies in (R251). -/
def barBlock (fn off : Nat) : BarBlock :=
  if off < 0x1000 then .registers
  else if 0x10000 ≤ off && off < 0x18000 then .doorbells
  else if 0x20000 ≤ off && off < 0x28000 then .msixTable
  else if 0x28000 ≤ off && off < 0x28100 then .msixPending
  else if fn == 0 && 0x40000 ≤ off && off < 0x50000 then .component
  else if fn == 0 && 0x50000 ≤ off && off < 0x60000 then .device
  else .rsvd

/-- QP_STOPPED bits of the pairs from q on, 64 of them (R256, R259). -/
def stoppedBits (s : State) (q : Nat) : Word64 :=
  BitVec.ofNat 64 (sumOf ((s.queues.pairs.filter (fun p => p.stopped && q ≤ p.id && p.id < q + 64)).map (fun p => 2 ^ (p.id - q))))

/-- Eight bytes of a function's MSI-X table, and of its pending bits, from an offset in them (R251). -/
def msixWord (s : State) (fn off : Nat) : Word64 :=
  BitVec.ofNat 64 (field ((s.queues.msixTable.find? (fun e => e.1 == (fn, off / 16))).elim 0 (fun e => e.2)) (64 * (off / 8 % 2)) 64)
def pendingWord (s : State) (fn off : Nat) : Word64 :=
  BitVec.ofNat 64 (sumOf (((List.range 64).filter (fun i => s.queues.msixPending.contains (fn, 8 * off + i))).map (fun i => 2 ^ i)))

/-- An 8-byte read of a function register, of a doorbell, of the MSI-X table or pending bits, or of a Rsvd offset; write-only and Rsvd registers
read 0, and so do the queue registers on a VF; the manual lays no component or device register out (R251, R252, R256; log entry 88). -/
def fnRegister (s : State) (fn off : Nat) : Word64 :=
  if barBlock fn off == .msixTable then msixWord s fn (off - 0x20000)
  else if barBlock fn off == .msixPending then pendingWord s fn (off - 0x28000)
  else if barBlock fn off != .registers then 0
  else
    match off with
    | 0x000 => fnInfo s fn
    | 0x008 => fnStatus s fn
    | 0x010 => BitVec.ofNat 64 (now s)
    | 0x018 => s.time.bootCount.setWidth 64
    | _ =>
      if fn != 0 then 0
      else if off == 0x100 then BitVec.ofNat 64 s.queues.admin.sqBase
      else if off == 0x108 then BitVec.ofNat 64 s.queues.admin.cqBase
      else if off == 0x110 then s.queues.adminCfg
      else if 0x200 ≤ off && off < 0x400 && off % 8 == 0 then stoppedBits s (8 * (off - 0x200))
      else 0

/-- READY of the PF, and MOD_READY with it: queues are served in CXL mode within the limits of R240, with MGMT ready, no fatal
error and no power-down (R240, R252, R405, R410). -/
def refreshReady (s : State) : State :=
  let r := s.link.up && !s.link.degraded && s.sec.mgmtReady && s.health.fatal == .none && !s.pins.poweringDown
  { s with link := { s.link with ready := r }, pins := { s.pins with modReady := r } }

/-! Resets of functions (R243). -/

/-- Every function reset: every context of every bay ends, VF Enable and the PF's queue registers return to 0, and PTM is
disabled (R243, R250; log entries 30 and 41). -/
def resetFunctions (s : State) : State :=
  let s1 := dropAdminCids ((List.range 64).foldl (resetFunction none) s)
  { s1 with
    queues := { s1.queues with adminCfg := 0, admin := {} },
    link := { s1.link with vfEnable := false },
    time := { runFree s1.time with ptmEnabled := false } }

/-- Caches, window and decoders return to their state before the host enabled them (R245, R246; log entry 30). -/
def closeWindow (l : LinkState) : LinkState :=
  { l with memOn := false, cacheOn := false, hdm := [(0, {}), (1, {}), (2, {}), (3, {})], snoopFilter := [], cache := [] }

/-- Every IDE key cleared (R249, R393). -/
def clearKeys (s : State) : State :=
  { s with link := { s.link with ide := s.link.ide.map (fun e => (e.1, {})), ideInsecure := [] } }

/-- The link is down: every function reset, keys cleared, sessions over, the host's staging lock lost; the degraded state ends only with a
retraining (R240, R243, R249, R330, R403). -/
def linkLost (s : State) : State :=
  let s1 := clearKeys (hostLockLost (resetFunctions s))
  refreshReady { s1 with link := { closeWindow s1.link with
    up := false, cxlMode := false, width := 0, rate := 0, flit256 := false, sessions := [], training := s.pins.perstN } }

/-- LINK_DOWN (R243). -/
def execLinkDown (s : State) : Host.Outcome State Fault Refusal := .next (if s.link.up then linkLost s else s)

/-- VF_FLR: every context of the VF's bay ends as a fault ends it; a firn merge that names one completes with ST_CONTEXT_ENDED (R63, R243,
R304). -/
def execVfFlr (fn : Nat) (s : State) : Host.Outcome State Fault Refusal :=
  .next (if 1 ≤ fn && fn < 64 && s.link.vfEnable && s.link.up then resetFunction (some stContextEnded) s fn else s)

/-- PF_FLR: every function is reset; keys, decoders and caches stay (R243, R249, R330). -/
def execPfFlr (s : State) : Host.Outcome State Fault Refusal :=
  .next (if s.link.up then hostLockLost (resetFunctions s) else s)

/-- HOT_RESET: every function is reset (R243, R330). -/
def execHotReset (s : State) : Host.Outcome State Fault Refusal :=
  .next
    (if s.link.up then
      let s1 := hostLockLost (resetFunctions s)
      { s1 with link := closeWindow s1.link }
    else s)

/-- VF_ENABLE_CLEAR: every function is reset and every context of every bay ends (R243). -/
def execVfEnableClear (s : State) : Host.Outcome State Fault Refusal :=
  .next (if s.link.up && s.link.vfEnable then resetFunctions s else s)

/-- VF_ENABLE_SET (R242). -/
def execVfEnableSet (s : State) : Host.Outcome State Fault Refusal :=
  .next (if s.link.up then { s with link := { s.link with vfEnable := true } } else s)

/-! Training (R239 to R241). -/

/-- LINK_TRAINED: in service, or degraded outside the widths and rates that serve and outside CXL mode; 68-byte flits withdraw CXL.mem; 64 GT/s
runs 256-byte flits only; completions that waited are committed once the link serves (R239, R240, R241). -/
def execLinkTrained (cxlMode : Bool) (width rate : Nat) (flit256 : Bool) (s : State) : Host.Outcome State Fault Refusal :=
  .next
    (if !s.pins.mainOn || !s.pins.perstN then s
     else
       let deg := !(cxlMode && servedWidths.contains width && servedRates.contains rate)
       let wide := flit256 || rate == 64
       let mem := s.link.memOn && wide && !deg
       let cache := s.link.cacheOn && !deg
       let t := refreshReady { s with link := { s.link with
         up := true, cxlMode := cxlMode, width := width, rate := rate, flit256 := wide, degraded := deg, training := false,
         loopback := none, memOn := mem, snoopFilter := if mem then s.link.snoopFilter else [],
         hdm := if wide then s.link.hdm else [(0, {}), (1, {}), (2, {}), (3, {})],
         cacheOn := cache, cache := if cache then s.link.cache else [] } }
       if deg then t else commitDeferred t)

/-- LINK_LOOPBACK_ENTRY: the module loops the host's symbols back at 64, 32 or 16 GT/s; the link is down meanwhile (R421; log
entry 30). -/
def execLinkLoopbackEntry (rate : Nat) (s : State) : Host.Outcome State Fault Refusal :=
  .next
    (if !s.pins.mainOn || !s.pins.perstN || !(rate == 64 || rate == 32 || rate == 16) then s
     else
       let s1 := if s.link.up then linkLost s else s
       { s1 with link := { s1.link with loopback := some rate, training := false } })

/-! CXL.cache (R245). -/

/-- CXL_CACHE_ENABLE (R245). -/
def execCxlCacheEnable (on : Bool) (s : State) : Host.Outcome State Fault Refusal :=
  .next
    (if !s.link.up || (on && s.link.degraded) then s
     else { s with link := { s.link with cacheOn := on, cache := if on then s.link.cache else [] } })

/-- CXL_CACHE_SNOOP: a line leaves the device coherency cache before the host's write completes (R245). -/
def execCxlCacheSnoop (line : Nat) (s : State) : Host.Outcome State Fault Refusal :=
  .next { s with link := { s.link with cache := s.link.cache.filter (fun x => x != line / 64 * 64) } }

/-! CXL.mem (R241, R246, R247). -/

/-- CXL_MEM_ENABLE: offered in 256-byte flit mode only (R241). -/
def execCxlMemEnable (on : Bool) (s : State) : Host.Outcome State Fault Refusal :=
  .next
    (if !s.link.up || (on && (s.link.degraded || !s.link.flit256)) then s
     else { s with link := { s.link with memOn := on, snoopFilter := if on then s.link.snoopFilter else [] } })

/-- HDM_DECODER_COMMIT: multiples of 256 MiB within the DPA span; a committed decoder is not changed, and one committed with size 0 is uncommitted,
its lines given up (R241, R246, R253; log entry 141). -/
def execHdmDecoderCommit (n base size skip : Nat) (s : State) : Host.Outcome State Fault Refusal :=
  .next
    (match lookupKey s.link.hdm n with
     | none => s
     | some d =>
       let g := 2 ^ 28
       if s.link.up && d.committed && size == 0 then
         backInvalidateRange { s with link := { s.link with hdm := putKey s.link.hdm n {} } } (d.skip + 2 ^ 30) d.size
       else if !s.link.up || hdmDecoders s ≤ n || d.committed || base % g != 0 || size % g != 0 || skip % g != 0 || size == 0 ||
           s.sec.order.dpaSpan < skip + size then s
       else { s with link := { s.link with hdm := putKey s.link.hdm n { base := base, size := size, skip := skip, committed := true } } })

/-- Device-range address of a host physical address in the window (R246). -/
def windowAddr (s : State) (hpa : Nat) : Option Nat :=
  if !s.link.up || !s.link.memOn then none
  else
    match s.link.hdm.find? (fun e => e.2.committed && e.2.base ≤ hpa && hpa < e.2.base + e.2.size) with
    | some e => some (hpa - e.2.base + e.2.skip + 2 ^ 30)
    | none => none

/-- The region of a page that a window can reach: one that lies wholly in the DPA span (R246). -/
def windowRegion (s : State) (page : Nat) : Option Region :=
  (regionOfPage s page).filter (fun r => 4096 ≤ r.base && pageBytes * (r.base + r.pages) ≤ 2 ^ 30 + s.sec.order.dpaSpan)

/-- A line that the host caches is tracked; for a full filter the least recently filled one goes first (R247). -/
def trackLine (s : State) (line : Nat) : State :=
  let s1 := { s with link := { s.link with snoopFilter := s.link.snoopFilter.filter (fun x => x != line) } }
  let s2 := if s1.link.snoopFilter.length < 262144 then s1 else
    (match s1.link.snoopFilter with
     | v :: _ => backInvalidate s1 v
     | [] => s1)
  { s2 with link := { s2.link with snoopFilter := s2.link.snoopFilter ++ [line] } }

/-- The sector of a device-range address lies in DRAM now. -/
def sectorResident (s : State) (a : Nat) : Bool :=
  match frameOfPage s (a / pageBytes) with
  | some e => e.state != .fill || flag e.arrived (a % pageBytes / 4096)
  | none => false

/-- CXL_MEM_READ: a host read through the window; where the region's hint is STREAM a page without a frame is read from its home, with no
frame taken; wrong bytes of its codeword are corrected and counted, or the data comes as poison (R223, R226, R236, R246, R247, R355). -/
def execCxlMemRead (r : HostRead) (s : State) : Host.Outcome State Fault Refusal :=
  .next
    (match windowAddr s r.hpa with
     | none => s
     | some x =>
       let a := x / 64 * 64
       match windowRegion s (a / pageBytes) with
       | none => emit (freeBlock s).1 (.memData (freeBlock s).2 true)
       | some _ =>
         let page := a / pageBytes
         let h := hostHint s page false
         let s1 := trackLine s a
         let s2 := if (frameOfPage s1 page).isNone && h != 1 && !beHeld s1 then faultPage s1 page h (a % pageBytes / 4096) else s1
         if sectorResident s2 a || (h == 1 && (frameOfPage s2 page).isNone) then answerRead s2 a r.wrong
         else { s2 with tier := { s2.tier with fillWaits := s2.tier.fillWaits ++ [(a, none)] } })

/-- CXL_MEM_WRITE: a host write of a 64-byte block through the window; dropped and counted where no region is (R223, R236, R237,
R246). -/
def execCxlMemWrite (hpa : Nat) (data : Bytes) (s : State) : Host.Outcome State Fault Refusal :=
  .next
    (match windowAddr s hpa with
     | none => s
     | some x =>
       let a := x / 64 * 64
       let bs := padTo 64 data
       match windowRegion s (a / pageBytes) with
       | none => updLinkCounters s 0 (fun c => { c with winWriteDropped := wrapAdd 64 c.winWriteDropped 1 })
       | some _ =>
         let page := a / pageBytes
         let s1 := if (frameOfPage s page).isNone && !beHeld s then faultPage s page (hostHint s page true) (a % pageBytes / 4096) else s
         if sectorResident s1 a then hostWrite s1 a bs
         else { s1 with tier := { s1.tier with fillWaits := s1.tier.fillWaits ++ [(a, some bs)] } })

/-- BISNPINV: a tracked line is back-invalidated before the module changes it (R247). -/
def execBisnpinv (line : Nat) (s : State) : Host.Outcome State Fault Refusal := .next (backInvalidate s (line / 64 * 64))

/-! DOE, CDAT and IDE (R239, R248, R249). An answer of the mailbox carries its fields as 8-byte numbers, since the manual does not
restate the layouts of the CDAT and SPDM specifications (log entry 43). -/

/-- Codes of the DOE answers. -/
def doeError : Nat := 0
def doeDiscovery : Nat := 1
def doeCdat : Nat := 2
def doeMeasurements : Nat := 3
def doeEvidence : Nat := 4
def doeKeyExchange : Nat := 5
def doeKeyManagement : Nat := 6
def doeCertificate : Nat := 7
def doeChallenge : Nat := 8
def doeAlgorithms : Nat := 9

/-- The DOE mailbox answers on the PF while the link is up, in the degraded state too (R240). -/
def doeAnswer (s : State) (code : Nat) (fields : List Nat) : State := if s.link.up then emit s (.doe code (fields.flatMap (natLe 8))) else s

/-- A DSLBIS of handle 0: data type, base unit, value (table CDAT content; PRESUMED layout of the CDAT specification, log entry 140). -/
def dslbis (type base value : Nat) : Bytes :=
  natLe 1 1 ++ natLe 1 0 ++ natLe 2 24 ++ natLe 1 0 ++ natLe 1 0 ++ natLe 1 type ++ natLe 1 0 ++ natLe 8 base ++ natLe 2 value ++ natLe 6 0

/-- The structures of the CDAT after its header: DSMAS, DSLBIS for read and write latency in units of 1,000 ps and read and write bandwidth in
MB/s, DSIS, DSEMTS (R248; PRESUMED layouts, log entry 140). -/
def cdatEntries (s : State) : List Bytes :=
  let c := s.sec.order.dpaSpan
  [natLe 1 0 ++ natLe 1 0 ++ natLe 2 24 ++ natLe 1 0 ++ natLe 1 0 ++ natLe 2 0 ++ natLe 8 0 ++ natLe 8 c,
   dslbis 1 1000 600, dslbis 2 1000 550, dslbis 4 10 11000, dslbis 5 10 11000,
   natLe 1 3 ++ natLe 1 0 ++ natLe 2 8 ++ natLe 1 1 ++ natLe 1 0 ++ natLe 2 0,
   natLe 1 4 ++ natLe 1 0 ++ natLe 2 24 ++ natLe 1 0 ++ natLe 1 2 ++ natLe 2 0 ++ natLe 8 0 ++ natLe 8 c]

/-- The CDAT header with a checksum byte: table length, revision 1, checksum, sequence number (R248; PRESUMED layout, log entry 140). -/
def cdatHeader (s : State) (sum : Nat) : Bytes :=
  natLe 4 (16 + sumOf ((cdatEntries s).map (fun e => e.length))) ++ natLe 1 1 ++ natLe 1 sum ++ natLe 6 0 ++ natLe 4 s.link.cdatSeq

/-- The structures of the CDAT by entry, the header first; the checksum makes the bytes of the table add up to 0 (R248). -/
def cdatTable (s : State) : List Bytes :=
  let bytes := cdatHeader s 0 ++ (cdatEntries s).flatMap id
  cdatHeader s ((256 - sumOf (bytes.map (fun b => b.toNat)) % 256) % 256) :: cdatEntries s

/-- CDAT_TABLE_ACCESS: table type 0 only; the answer carries one structure (R248). -/
def execCdatTableAccess (tableType entry : Nat) (s : State) : Host.Outcome State Fault Refusal :=
  .next
    (match (if tableType == 0 then (cdatTable s)[entry]? else none) with
     | some bs => if s.link.up then emit s (.doe doeCdat bs) else s
     | none => doeAnswer s doeError [])

/-- DOE_DISCOVERY: the data object protocols by index: discovery, CMA/SPDM, secured CMA/SPDM, CDAT table access (R239). -/
def execDoeDiscovery (index : Nat) (s : State) : Host.Outcome State Fault Refusal :=
  .next (if index < 4 then doeAnswer s doeDiscovery [index, if index + 1 < 4 then index + 1 else 0] else doeAnswer s doeError [])

/-- IDE_INTEGRITY_FAIL: fatal through AER, counted and logged; the stream is Insecure and the link counts as down (R249, R328). -/
def execIdeIntegrityFail (stream : Nat) (s : State) : Host.Outcome State Fault Refusal :=
  .next
    (if !s.link.up || 2 ≤ stream then s
     else
       let s1 := linkLost (emit (logError s errIdeFail stream 0) (.aerFatal stream))
       { s1 with link := { s1.link with
         ideFails := s.link.ideFails + 1, ideFailDtb := now s, ideInsecure := [stream], aerFatal := insertAsc stream s.link.aerFatal } })

end Sys2Proof.Machine
end

