-- ==== Sys2Proof/Machine/Fatal.lean ====
section
/-! DEFINITION. Fatal errors and their dump, the code check of MGMT, restarts of MGMT, and self-tests (R280, R376 to R380, R390,
R399). -/

namespace Sys2Proof.Machine

open Sys2Proof

/-! Fatal errors (R376, R377). -/

/-- Every consumed command without a completion completes with ST_CONTEXT_ENDED (R377); a COPY reports the bytes it copied. -/
def abandonAll (s : State) : State :=
  let s1 := { s with bay := { s.bay with waits := [], pendingBinds := [] } }
  let s2 := s1.queues.pairs.foldl (fun st p => p.q.cmds.foldl (fun st2 c => abandonCmd st2 p.id c c.result) st) s1
  s2.queues.admin.cmds.foldl (fun st c => abandonCmd st adminQ c c.result) s2

/-- Program and erase pieces in progress end; the rounds and self-tests in course are cut off with their commands, and the regions of copies
that a round made are given back (R63, R377). -/
def haltWork (s : State) : State :=
  let s0 := (s.bay.contexts).foldl (fun st c => abortRimeOf st c.num) s
  let s1 := (s0.indexes.map (fun x => x.num)).foldl trimParts { s0 with indexes := s0.indexes.map (fun x => { x with merge := none }) }
  { s1 with
    adm := { s1.adm with queries := [] },
    health := { s1.health with selfTest := none, dies := s1.health.dies.map (fun d => { d with piece := none }) } }

/-- For cause 0x0004 the arrays and flash groups go off after the halt; what an array held is lost (R349, R377). -/
def hotOff (s : State) : State :=
  let s1 := ((List.range 160).map arrayDomain ++ (List.range 16).map flgDomain).foldl
    (fun st n => setDomain st { domainAt st n with state := .off, latches := [], edge := none }) s
  { s1 with cells := {} }

/-- A fatal error: admission stops, FAULT_N, the FATAL entry, the halt, completions or, for a cause in the CXL block, link down;
IDE keys are cleared. A second one during the dump service changes nothing here: it is logged in the trace ring of section A (R377,
R381, R393). -/
def fatalEffect (s : State) (cause unit : Nat) (inCxl : Bool) : State :=
  if isFatal s || !s.pins.mainOn then s
  else
    let entry := s.health.nextEntry
    let s1 := logError s errFatal cause unit
    let s2 := haltWork (if inCxl then linkLost s1 else abandonAll s1)
    let s3 := clearKeys { s2 with
      queues := { s2.queues with pairs := s2.queues.pairs.map (fun p => { p with q := { p.q with cmds := [] } }) },
      adm := { s2.adm with stopped := true }, pins := { s2.pins with faultLow := true },
      health := { s2.health with fatal := .halted, fatalInfo := some (cause, unit, now s, entry) } }
    refreshReady (if cause == 4 then hotOff s3 else s3)

/-- FATAL_ERROR (R376, R377). -/
def execFatalError (cause unit : Nat) (inCxl : Bool) (s : State) : Host.Outcome State Fault Refusal :=
  .next (if 1 ≤ cause && cause ≤ 6 then fatalEffect s cause unit inCxl else s)

/-- DUMP_WRITTEN (R377, R378). -/
def execDumpWritten (s : State) : Host.Outcome State Fault Refusal :=
  .next
    (if s.health.fatal == .halted && s.health.dumpState != 1 then
      { s with health := { s.health with dump := some (dumpOf s), dumpState := 1 } }
    else s)

/-! MGMT (R330, R376, R390, R399). -/

/-- MGMT_CODE_CHECK: the digest of the code region in MGMT SRAM differs from the one recorded at load: fatal error 0x0005; the
unit that the entry names is a free value (R375, R390). -/
def execMgmtCodeCheck (digest : Nat) (s : State) : Host.Outcome State Fault Refusal :=
  .next
    (match s.sec.booted with
     | some f =>
       if (domainAt s 0).state == .on && f.code != digest then fatalEffect (bumpFree s) 5 ((freshValue s).toNat % 2 ^ 16) false else s
     | none => s)

/-- A FW_STAGE whose staging area is emptied while it is verified ends with a status that the manual does not state (free value; R262, R396; log
entry 143). -/
def endStaging (s : State) : State :=
  match s.sec.staging with
  | .verifying cid _ => postCompletion (bumpFree s) adminQ cid ((freshValue s).toNat % 65536) 0
  | _ => s

/-- What a restart of MGMT loses: the staged image and transfers, the staging lock, frame and raise, event frames not yet
acknowledged, and a margin plan not yet raised (R319, R330, R396; log entry 44). -/
def mgmtLost (s : State) : State :=
  let s1 := stageAfterRestart (endStaging s)
  { s1 with
    sec := { s1.sec with mgmtReady := false, staging := .empty, fwRxState := 0, cfgRxState := 0 },
    sb := { s1.sb with events := [] },
    health := { s1.health with plan := none },
    power := { s1.power with mgmtPll := false } }

/-- MGMT_RESTART: by the watchdog; the second without reaching ready within 10 s is fatal error 0x0002 (R376, R399). -/
def execMgmtRestart (s : State) : Host.Outcome State Fault Refusal :=
  .next
    (if isFatal s || (domainAt s 0).state != .on || s.sec.booted.isNone then s
     else
       let recent := if s.sec.mgmtReady then [] else s.health.restarts.filter (fun t => now s ≤ t + 10000000000)
       let s1 := mgmtLost s
       let s2 := refreshReady { s1 with
         health := { s1.health with restarts := recent ++ [now s] }, sec := { s1.sec with failedBoots := s1.sec.failedBoots + 1 } }
       if recent == [] then s2 else fatalEffect s2 2 0 false)

/-! Self-tests (R280, R380). -/

/-- The TEST field of a SELF_TEST command. -/
def cmdTest (c : Cmd) : Nat := field c.sqe 64 2

/-- A self-test starts, one at a time (R280, R282). -/
def startTest (s : State) (c : Cmd) (extended : Bool) : State :=
  if cmdTest c != (if extended then 2 else 1) then (if cmdTest c == 0 then endCmd s adminQ c stInvalidField 0 else s)
  else if s.health.selfTest.isSome then endCmd s adminQ c stInProgress 0
  else
    let s1 := startCmd s adminQ c
    { s1 with health := { s1.health with selfTest := some { cid := c.cid, extended := extended, start := now s } } }

/-- SELF_TEST_SHORT, SELF_TEST_EXTENDED (R280). -/
def execSelfTestShort (cid : Nat) (s : State) : Host.Outcome State Fault Refusal :=
  .next (withAdmin s cid 0x88 (fun s c => startTest s c false))
def execSelfTestExtended (cid : Nat) (s : State) : Host.Outcome State Fault Refusal :=
  .next (withAdmin s cid 0x88 (fun s c => startTest s c true))

/-- SELF_TEST_STOP: the running test stops, and both commands complete when its record is written (R280). With no running test the
completion status is one the manual leaves open; a second stop is refused as a second SELF_TEST (R282). -/
def execSelfTestStop (cid : Nat) (s : State) : Host.Outcome State Fault Refusal :=
  .next
    (withAdmin s cid 0x88 (fun s c =>
      if cmdTest c != 3 then (if cmdTest c == 0 then endCmd s adminQ c stInvalidField 0 else s)
      else
        match s.health.selfTest with
        | none => endCmd (bumpFree s) adminQ c ((freshValue s).toNat % 65536) 0
        | some t =>
          if t.stopCid.isSome then endCmd s adminQ c stInProgress 0
          else
            let s1 := startCmd s adminQ c
            { s1 with health := { s1.health with selfTest := some { t with stopCid := some cid } } }))

/-- The result record of 4,096 bytes: header and at most 63 entries, their Rsvd bits 0 (R380). -/
def testRecord (t : SelfTest) (end_ : Nat) (failures : List (BitVec 512)) (items yieldNs : Nat) : Bytes :=
  let head := (if t.extended then 2 else 1) + (if t.stopCid.isSome then 4 else 0) + failures.length % 2 ^ 32 * 2 ^ 32 +
    t.start % 2 ^ 64 * 2 ^ 64 + end_ % 2 ^ 64 * 2 ^ 128 + yieldNs % 2 ^ 64 * 2 ^ 192 + items % 2 ^ 32 * 2 ^ 256
  let entry := fun (f : BitVec 512) => natLe 64 (field f 0 16 + field f 32 288 * 2 ^ 32)
  padTo 4096 (natLe 64 head ++ (failures.take 63).flatMap entry)

/-- SELF_TEST_DONE: the record is written to PTR0 and the test's command completes, with the stopping one if there is one (R280,
R380). -/
def execSelfTestDone (failures : List (BitVec 512)) (items yieldNs : Nat) (s : State) : Host.Outcome State Fault Refusal :=
  .next
    (match s.health.selfTest with
     | none => s
     | some t =>
       let status := if failures == [] then stOk else stTestFail
       let s1 := emit { s with health := { s.health with selfTest := none } }
         (.hostWrite adminQ t.cid (testRecord t (now s) failures items yieldNs))
       let s2 := postCompletion s1 adminQ t.cid status failures.length
       match t.stopCid with
       | some c => postCompletion s2 adminQ c stOk 0
       | none => s2)

end Sys2Proof.Machine
end

