-- ==== Sys2Proof/Machine/Boot.lean ====
section
/-! DEFINITION. Images, configuration records and the boot of MGMT: what the ROM accepts, which image it boots, and what it measures
(R384 to R390, R394, R395, R398 to R400). -/

namespace Sys2Proof.Machine

open Sys2Proof

/-- Context labels of the signatures (R385, R391, R394, R398), and the model's number for the SPDM signatures. -/
def labelFw : Nat := 1
def labelCfg : Nat := 2
def labelEvidence : Nat := 3
def labelArb : Nat := 4
def labelSpdm : Nat := 5

/-- Bytes of a SLH-DSA-SHAKE-256s signature (R382). -/
def sigBytes : Nat := 29792

/-! Firmware images (R394, R395). -/

/-- The image header as a word. -/
def imageHeader (bs : Bytes) : BitVec 1024 := BitVec.ofNat 1024 (leNat (bs.take 128))

/-- BODY_LEN. -/
def imageBody (bs : Bytes) : Nat := field (imageHeader bs) 352 32

/-- What the module keeps of an image; the digest of its code region is taken over its body (log entry 46). -/
def parseImage (bs : Bytes) : FwImage :=
  let h := imageHeader bs
  { version := field h 224 32, svn := field h 304 16, floor := field h 288 16, keySlot := field h 280 8,
    digest := Config.shake256 (bs.take (128 + imageBody bs)),
    code := (Config.shake256 (sliceOf bs 128 (imageBody bs))).toNat, bytes := some bs }

/-- A root key slot exists and is not revoked (R386, R395). -/
def slotOk (revoked : BitVec 4) (slot : Nat) : Bool := revoked == 0 || (slot < 4 && !flag revoked slot)

/-- Bit of ORDER_MASK for an ordering code (R394). -/
def orderBit (o : Order) : Nat :=
  match o with
  | .f128 => 0
  | .f64 => 1

/-- An image is valid (R395). -/
def imageValid (s : State) (revoked : BitVec 4) (bs : Bytes) : Bool :=
  let h := imageHeader bs
  let n := imageBody bs
  let pk := field h 512 512
  let step := field h 264 8
  field h 0 8 == 1 && field h 8 216 == 0 && field h 384 128 == 0 && bs.length == n + 29952 && n % 4096 == 0 && n ≤ 2 ^ 26 &&
  field h 280 8 < 4 && slotOk revoked (field h 280 8) &&
  Config.shake256 (natLe 64 pk) == Config.rootKeyDigest (field h 280 8) &&
  Config.slhVerify (BitVec.ofNat 512 pk) labelFw (bs.take (128 + n)) (sliceOf bs (128 + n) sigBytes) &&
  field h 288 16 ≤ field h 304 16 && bitAt (field h 256 8) (orderBit s.sec.order) && field h 272 8 ≤ s.sec.hwLevel &&
  (step == 0 || step == s.sec.stepping)

/-- A transfer into the staging area is in progress (R396, R401). -/
def transferring (s : State) : Bool :=
  match s.sec.staging with
  | .empty | .image _ => false
  | _ => true

/-- The security block's verdict on an image: status, and the image when it is to be staged (R395, R396). -/
def judgeImage (s : State) (bs : Bytes) : Nat × Option FwImage :=
  let rev := BitVec.ofNat 4 (keysRevoked s)
  if !imageValid s rev bs then (stFwInvalid, none)
  else if (parseImage bs).svn < svnFloor s then (stFwRollback, none)
  else (stOk, some (parseImage bs))

/-- The staging area after a verification: the image, or empty (R396). -/
def stagedAs (s : State) (i : Option FwImage) : State :=
  { s with sec := { s.sec with staging := match i with
    | some f => .image f
    | none => .empty } }

/-- RESULT of FW_STAGE and FW_ACTIVATE: FW_VERSION and SVN (R396). -/
def imageResult (f : FwImage) : Nat := f.version % 2 ^ 32 + f.svn % 2 ^ 16 * 2 ^ 32

/-- The end of the verification that FW_STAGE began: the staging area holds the image or is empty, and the command completes (R279, R396; log
entry 143). -/
def finishStage (s : State) : State :=
  match s.sec.staging with
  | .verifying cid bs =>
    let v := judgeImage s bs
    postCompletion (stagedAs s v.2) adminQ cid v.1 ((v.2.map imageResult).getD 0)
  | _ => s

/-! Configuration records (R385, R386). -/

/-- A record as it stands in the staging area (R385). -/
def parseRecord (bs : Bytes) : CfgRecord :=
  let h := BitVec.ofNat 512 (leNat (bs.take 64))
  let n := field h 32 32
  { type := field h 16 8, seq := field h 448 64, serial := BitVec.ofNat 128 (field h 256 128), slot := field h 24 8,
    payload := sliceOf bs 64 n, signature := sliceOf bs (64 + n) sigBytes, header := h }

/-- Bytes that a record's signature covers, and the whole record. -/
def recordMessage (r : CfgRecord) : Bytes := natLe 64 r.header.toNat ++ r.payload
def recordBytes (r : CfgRecord) : Bytes := recordMessage r ++ r.signature

/-- LEVEL of a DEBUG_UNLOCK record (R417). -/
def debugLevelOf (r : CfgRecord) : Nat := leAt r.payload 0 1

/-- The record is not ignored at boot (R386). -/
def recordGood (s : State) (revoked : BitVec 4) (r : CfgRecord) : Bool :=
  r.slot < 4 && slotOk revoked r.slot && (r.serial == 0 || r.serial == s.sec.serial) &&
  !(r.type == 4 && debugLevelOf r == 2 && r.serial == 0) &&
  Config.slhVerify (Config.rootKey r.slot) labelCfg (recordMessage r) r.signature

/-- The MODULE_CONFIG and DEVID_CERT records that the module carries as shipped: valid, so long as their key slot is not revoked
(R386; log entry 6). -/
def shippedRecord (t : Nat) : CfgRecord := { parseRecord (Config.shippedRecord t) with type := t }

/-- Records of a type that count at a boot, as shipped first (R385, R386). -/
def goodRecords (s : State) (revoked : BitVec 4) (t : Nat) : List CfgRecord :=
  (if (t == 1 || t == 2) && slotOk revoked (shippedRecord t).slot then [shippedRecord t] else []) ++
  s.sec.records.filter (fun r => r.type == t && recordGood s revoked r)

/-- The record of the highest SEQ. -/
def highestRecord : List CfgRecord → Option CfgRecord
  | [] => none
  | r :: rs => some (rs.foldl (fun (a b : CfgRecord) => if a.seq < b.seq then b else a) r)

/-- The record of a type in force (R385). -/
def recordInForce (s : State) (revoked : BitVec 4) (t : Nat) : Option CfgRecord := highestRecord (goodRecords s revoked t)

/-- REVOKED after the valid KEY_REVOKE records were ORed in (R386, R403). -/
def revokedAfter (s : State) (revoked : BitVec 4) : BitVec 4 :=
  (goodRecords s revoked 3).foldl (fun m r => m ||| BitVec.ofNat 4 (leAt r.payload 0 1)) revoked

/-- The 64 bytes of the anti-rollback record (R398). -/
def arbBytes (a : ArbRecord) : Bytes :=
  natLe 64 (1 + a.revoked.toNat * 2 ^ 352 + a.svnFloor % 2 ^ 16 * 2 ^ 368 + a.fw % 2 ^ 32 * 2 ^ 384 + a.boot.toNat * 2 ^ 416 +
    a.counter % 2 ^ 64 * 2 ^ 448)

/-! Boot (R388, R398, R400). -/

/-- The better of two valid copies: higher SVN, then higher FW_VERSION, then the first (R388). -/
def betterImage (a b : FwImage) : FwImage :=
  if a.svn < b.svn || (a.svn == b.svn && a.version < b.version) then b else a

/-- The image that the ROM boots from flash, if a copy is valid (R388). -/
def chooseImage (s : State) (revoked : BitVec 4) : Option FwImage :=
  match ([s.sec.copy0, s.sec.copy1].filterMap id).filter (fun f => slotOk revoked f.keySlot) with
  | [] => none
  | f :: r => some (r.foldl betterImage f)

/-- The record in force after the boot of an image: a new one where its floor is higher or KEY_REVOKE adds bits (R398). -/
def arbAfter (s : State) (a : ArbRecord) (f : FwImage) (revoked : BitVec 4) : ArbRecord :=
  if f.floor ≤ a.svnFloor && revoked == a.revoked then a
  else { counter := a.counter + 1, boot := s.time.bootCount, fw := f.version, svnFloor := max a.svnFloor f.floor, revoked := revoked }

/-- CFG_RECORD_IGNORED, with TYPE and SEQ; the unit it names is a free value (R386). -/
def logIgnored (s : State) (r : CfgRecord) : State :=
  logError (bumpFree s) 0x0602 ((freshValue s).toNat % 2 ^ 32) (r.type + r.seq * 2 ^ 64)

/-- The recovery state of a boot, if one applies; the manual gives no order among them (R386, R400; log entry 45). -/
def recoveryOf (s : State) : Option Nat :=
  match s.sec.arb with
  | none => some (if s.sec.pufOk then 3 else 4)
  | some a =>
    if !s.sec.pufOk then some 4
    else
      let rev := revokedAfter s a.revoked
      if (recordInForce s a.revoked 1).isNone || (recordInForce s a.revoked 2).isNone then some 5
      else if (chooseImage s rev).isNone then some 1
      else if 4 ≤ s.sec.failedBoots then some 2
      else none

/-- MGMT comes out of recovery or boot into service: trips are logged, latches cleared (R346, R422). -/
def serveMgmt (s : State) : State :=
  let s1 := s.power.toLog.foldl (fun st e => logError st errComparator e.1 e.2) s
  let d := domainAt s1 0
  let s2 := setDomain s1 { d with state := .on, latches := [], edge := none }
  refreshReady { s2 with power := { s2.power with toLog := [] }, sec := { s2.sec with mgmtReady := true, failedBoots := 0 },
                         health := { s2.health with restarts := [] } }

/-- A boot from flash: MGMT ready, or recovery (R386, R388, R389, R398 to R400). -/
def bootFlash (s : State) : State :=
  let forces := [1, 2, 3, 4].filterMap (recordInForce s ((s.sec.arb.map (fun a => a.revoked)).getD 0))
  match recoveryOf s, s.sec.arb with
  | some code, _ =>
    refreshReady { s with sec := { s.sec with bootState := code, booted := none, mgmtReady := false, inForce := forces } }
  | none, none => s
  | none, some a =>
    let rev := revokedAfter s a.revoked
    match chooseImage s rev with
    | none => s
    | some f =>
      let arb := arbAfter s a f rev
      let level := match recordInForce s a.revoked 4 with
        | some r => debugLevelOf r
        | none => 0
      let s1 := { s with sec := { s.sec with
        booted := some f, copy0 := some f, copy1 := some f, pending := 0, activated := none, activatedBoot := s.sec.activated.isSome,
        arb := some arb, debugLevel := level, bootState := 0, inForce := forces, fwRxState := 0,
        measRom := Config.romDigest, measImage := f.digest, measArb := Config.shake256 (arbBytes arb),
        measRecords := Config.shake256 (forces.flatMap recordBytes) } }
      -- the controllers have initialised their channels (R199; log entry 112)
      let s1 := { s1 with rime := { s1.rime with rcfg := (List.range 128).map (fun c => (c, 0x80)) } }
      let ignored := s.sec.records.filter (fun r => !recordGood s a.revoked r)
      ignored.foldl logIgnored (serveMgmt s1)

/-- MGMT_READY: from flash at power-up and module reset; otherwise the image in segment 0 is loaded again (R388, R399). -/
def execMgmtReady (s : State) : Host.Outcome State Fault Refusal :=
  .next
    (let d := (domainAt s 0).state
     if !s.pins.mainOn || s.sec.mgmtReady || isFatal s || !(d == .on || d == .waking) then s
     else if s.sec.booted.isSome then serveMgmt { s with sec := { s.sec with bootState := 0 } }
     else bootFlash s)

end Sys2Proof.Machine
end

