-- ==== Sys2Proof/Machine/Power.lean ====
section
/-! DEFINITION. Power domains at work: idle conditions, entries and wakes, DTB comparators, the sill's comparators, the power cap
and throttles, and MGMT's PLL (R337 to R354). -/

namespace Sys2Proof.Machine

open Sys2Proof

/-! Clocks (R350, R351): which run follows from the domains and the supplies. -/

/-- The clocks of the table Clocks. -/
inductive Clock where
  | sillCrystal
  | sillRc
  | sidebandCrystal
  | xo50
  | mgmtRing
  | mgmtPll
  | core (i : Nat)
  | mesh
  | dram (p : Nat)
  | flash (g : Nat)
  | cxl
  deriving DecidableEq, Repr

/-- A domain is not off. -/
def notOff (s : State) (n : Nat) : Bool := (domainAt s n).state != .off

/-- A clock runs: a PLL while some domain that it feeds is not off, an oscillator with its supply, MGMT's ring while MGMT is waking or on
(R350, R351). -/
def clockRuns (s : State) (c : Clock) : Bool :=
  match c with
  | .sillCrystal | .sillRc | .sidebandCrystal => s.pins.auxGood
  | .xo50 => s.pins.mainOn
  | .mgmtRing => supplied s 0 && ((domainAt s 0).state == .waking || (domainAt s 0).state == .on)
  | .mgmtPll => s.pins.mainOn && notOff s 0
  | .core i => s.pins.mainOn && ((List.range 40).any (fun k => notOff s (arrayDomain (40 * i + k))) ||
      (i == 0 && (List.range 16).any (fun g => notOff s (flgDomain g))))
  | .mesh => s.pins.mainOn && notOff s 3
  | .dram p => s.pins.mainOn && notOff s (lpcDomain p)
  | .flash g => s.pins.mainOn && notOff s (flgDomain g)
  | .cxl => s.pins.mainOn && notOff s 2

/-! Idle conditions (table Idle conditions). -/

/-- A cut runs or is ready on an array, a thread executes there, or its load engine streams; cuts that wait on a peg are allowed. -/
def arrayWorks (s : State) (a : Nat) : Bool :=
  (busyArrays s).contains a ||
  s.adm.queries.any (fun x => match planAt s x.plan with
    | some p => (x.stage == .traverse || x.stage == .pool) && p.arrays.contains a ||
        (readyCuts s x).any (fun c => (cutArrays p c).contains a)
    | none => false) ||
  s.bay.plans.any (fun p => p.arrays.contains a && p.weights.any (fun w => w.streams.any (fun as_ => as_.contains a))) ||
  s.indexes.any (fun x => match x.merge with
    | some m => (bayAt s (bayOfCtx s m.ctx)).arrays.contains a
    | none => false) ||
  (s.health.selfTest.isSome && ((arrayHolder s a).isNone || (bayAt s 0).arrays.contains a))

/-- Some consumed I/O command with one of the opcodes runs. -/
def ioRuns (s : State) (ops : List Nat) : Bool :=
  s.queues.pairs.any (fun p => p.q.cmds.any (fun c => c.phase == .running && ops.contains (sqeOpcode c.sqe)))

/-- A frame is being filled or written back. -/
def frameMoves (e : Frame_) : Bool := e.state == .fill || e.state == .writeback

/-- A query reads memory. -/
def queryReads (x : Query) : Bool := x.stage == .traverse || x.stage == .pool || x.stage == .cuts

/-- DRAM controller p has an access, a rime request, a copy, or retraining on its channels. -/
def lpcWorks (s : State) (p : Nat) : Bool :=
  s.rime.banks.any (fun b => b.bank / 256 == p && (b.current.isSome || b.queue != [])) || s.tier.evacuation.isSome ||
  s.adm.queries.any queryReads || s.tier.fillWaits != [] || s.tier.frames.any frameMoves || ioRuns s [5, 6, 8] ||
  s.adm.placed.any (fun e => e.window == windowOf (now s) && e.bytes == 0 && (match e.ev with
    | some (.retrain c _) => c / 8 == p
    | _ => false))

/-- Flash group g has a read, program, erase, scribe work, fill or write-back on its channels. -/
def flgWorks (s : State) (g : Nat) : Bool :=
  s.health.dies.any (fun d => d.channel / 8 == g && d.piece.isSome) ||
  s.tier.frames.any (fun e => frameMoves e && (homeGroup s e.page == g || e.home.any (fun h => h.1 == g))) ||
  s.adm.queries.any (fun x => (x.reading != [] || x.rebuilding != [] || x.slots != []) && (match x.index.bind (indexAt s) with
    | some i => flag i.params.groups g
    | none => false)) ||
  ioRuns s [5, 6] || (transferring s && (g == 0 || g == 8))

/-- Earliest instant at which firmware has something due: a periodic plan, the lapse of the lock, the refit of an AT_TIME raise. -/
def mgmtDue (s : State) : Nat :=
  let g := s.dict.stage
  let lapse := if g.lock.isSome && !raiseActive s then [g.lastWrite + lockIdle s] else []
  let refit := match g.raise, g.mode with
    | .pending, some (.atTime t) => [t - 1000000]
    | _, _ => []
  (lapse ++ refit).foldl min s.health.planDue

/-- A domain is idle (table Idle conditions). -/
def domainIdle (s : State) (n : Nat) : Bool :=
  let quiet := fun (u : Queue) => u.cmds == [] && u.sqHead == u.sqTail && u.uncovered == 0
  match domKind n with
  | .array => !arrayWorks s (n - 4)
  | .lpc => !lpcWorks s (n - 164)
  | .flg => !flgWorks s (n - 180)
  | .fab => (dependents s 3).all (fun d => (domainAt s d).state == .retention || (domainAt s d).state == .off) && s.tier.fillWaits == []
  | .cxl => s.queues.pairs.all (fun p => quiet p.q) && quiet s.queues.admin && s.queues.deferred == [] && s.tier.fillWaits == []
  | .sec => s.sec.evidence == [] && !transferring s
  | .mgmt => s.sec.mgmtReady && !isFatal s && s.queues.admin.cmds == [] && s.sb.events == [] && !raiseActive s &&
      s.dict.stage.fit != .running && s.health.plan.isNone && s.health.selfTest.isNone &&
      decide (now s + 1000 * timerRet s 0 < mgmtDue s)

/-- A domain loses nothing that must be kept when it goes off (table What off loses). -/
def offAllowed (s : State) (n : Nat) : Bool :=
  match domKind n with
  | .array => !s.adm.queries.any (fun x => match planAt s x.plan with
      | some p => p.arrays.contains (n - 4)
      | none => false)
  | .lpc => true
  | .flg => !flgWorks s (n - 180)
  | .fab => s.tier.evacuation.isNone && s.tier.departures.all (fun d => d.replenished || !d.out || d.kind == .temporary)
  | .sec => !streamSecure s 0 && !streamSecure s 1 && s.link.sessions == []
  | .cxl => !s.link.up
  | .mgmt => s.queues.admin.cmds == []

/-! Entry (R339, R340, R342, R354). -/

/-- A level source holds its latch for domain n, which is on or still to be woken: a trip that MGMT has not logged, or a doorbell (R342,
R343). -/
def levelHeld (s : State) (n : Nat) : Bool :=
  s.power.toLog.any (fun e => n == 0 || (e.1 == 0 && (n == 2 || n == 3))) || (s.power.doorbellLatch.isSome && (n == 2 || n == 3))

/-- Entry into a depth begins: STATE 3; MGMT sets a DTB comparator for what it has due (R337, R342). -/
def beginEntry (s : State) (n depth : Nat) : State :=
  let s1 := setDomain s { domainAt s n with state := .entering depth, entryAt := now s, edge := none }
  if n == 0 then { s1 with time := { s1.time with comparators := putKey s1.time.comparators 0 (0, mgmtDue s) } } else s1

/-- A domain may enter retention: no deeper than its cap, with every domain that depends on it in retention or off (R340). -/
def retentionOpen (s : State) (n : Nat) : Bool :=
  (domainAt s n).state == .on && 1 ≤ depthCap s n &&
  (dependents s n).all (fun d => (domainAt s d).state == .retention || (domainAt s d).state == .off)

/-- A domain may enter off, from on or from retention (R340, R349). -/
def offOpen (s : State) (n : Nat) : Bool :=
  ((domainAt s n).state == .on || (domainAt s n).state == .retention) && 2 ≤ depthCap s n && offAllowed s n &&
  (dependents s n).all (fun d => (domainAt s d).state == .off)

/-- A domain whose timer has asked for a depth enters the deepest state that it may: off, or retention on the way there; what it cannot
enter yet stays due, and its timer keeps running (R127, R340). -/
def enterDue (s : State) (n : Nat) : State :=
  let d := domainAt s n
  if d.due == 2 && offOpen s n then beginEntry (setDomain s { d with due := 0 }) n 2
  else if 1 ≤ d.due && retentionOpen s n then beginEntry (setDomain s { d with due := if d.due == 1 then 0 else d.due }) n 1
  else s

/-- The timer of an idle domain reaches TIMER_RET or TIMER_OFF, us after the start of the idle period: with a latch set the entry is not
begun, and the timer restarts when the domain is next idle (R339, R340, R342, R354). -/
def timerExpires (s : State) (n us depth : Nat) : State :=
  if us == 0 || !supplied s n || !(n < 196) || !domainIdle s n then s
  else
    let start := (domainAt s n).idleSince.getD (now s)
    let s1 := advanceTo s (start + 1000 * us)
    let d := domainAt s1 n
    if d.latches != [] || levelHeld s1 n then setDomain s1 { d with idleSince := none, due := 0 }
    else enterDue (setDomain s1 { d with idleSince := some start, due := max d.due depth }) n

/-- DOMAIN_TIMER_RET (R339, R340, R342). -/
def execDomainTimerRet (n : Nat) (s : State) : Host.Outcome State Fault Refusal :=
  .next (if (domainAt s n).state == .on then timerExpires s n (timerRet s n) 1 else s)

/-- DOMAIN_TIMER_OFF: off where it is permitted; where the cap permits retention only, a domain that is on is left there (R127, R339, R340,
R342, R349). -/
def execDomainTimerOff (n : Nat) (s : State) : Host.Outcome State Fault Refusal :=
  .next
    (if (domainAt s n).state == .on || (domainAt s n).state == .retention then timerExpires s n (timerOff s n) 2 else s)

/-- The idle timer of a domain at a tick: it starts when the domain becomes idle, activity stops and clears it, and an entry that was
due is begun as soon as it can be (R339, R340). -/
def tickDomain (s : State) (n : Nat) : State :=
  let d := domainAt s n
  if !(d.state == .on || d.state == .retention) || !supplied s n then s
  else if !domainIdle s n then (if d.idleSince.isSome || d.due != 0 then setDomain s { d with idleSince := none, due := 0 } else s)
  else
    let s1 := if d.idleSince.isSome then s else setDomain s { d with idleSince := some (now s) }
    if d.due == 0 || d.latches != [] || levelHeld s1 n then s1 else enterDue s1 n

/-- The idle timers of all domains at a tick. -/
def tickDomains (s : State) : State := (s.power.domains.map (fun d => d.num)).foldl tickDomain s

/-- What a domain loses with its supply (table What off loses): an array its stores, MGMT its firmware state. DRAM stays in
self-refresh, and FAB's maps and pegs are written to segment 0 before and restored from there (R349). -/
def loseOff (s : State) (n : Nat) : State :=
  match domKind n with
  | .array => clearArray s (n - 4)
  | .fab => { s with power := { s.power with fabSave := some (s.tier.frames, s.bay.pegs) } }
  | .mgmt => { mgmtLost s with sec := { (mgmtLost s).sec with failedBoots := s.sec.failedBoots + 1 } }
  | _ => s

/-- DOMAIN_ENTRY_DONE: STATE 1 or 2 at the entry time; a latch set, or an edge seen after the window, starts a wake at once (R342,
R347, R348). -/
def execDomainEntryDone (n : Nat) (s : State) : Host.Outcome State Fault Refusal :=
  .next
    (let d := domainAt s n
     match d.state with
     | .entering t =>
       let s1 := advanceTo s (d.entryAt + (if t == 2 then entryToOff n else entryToRet n))
       let s2 := setDomain s1 { d with state := if t == 2 then .off else .retention, edge := none }
       let s3 := refreshReady (if t == 2 then loseOff s2 n else s2)
       match d.latches ++ d.edge.toList with
       | [] => s3
       | c :: r => startWake s3 n (r.foldl min c)
     | _ => s)

/-! Wakes (R343 to R348). -/

/-- Domains that a wake source wakes (table Wake sources): a doorbell CXL, FAB and what admission needs, a frame MGMT, a peg signal
arrays and CXL, a DTB comparator the domain that set one, the sill's comparators their own, a dependency FAB and the DRAM
controllers, a request any. -/
def sourceWakes (s : State) (source n : Nat) : Bool :=
  match source with
  | 1 => 2 ≤ n
  | 2 | 6 | 7 => n == 0
  | 3 => n == 2 || domKind n == .array
  | 4 => s.time.comparators.any (fun e => e.2.1 == n)
  | 5 => n == 0 || n == 2 || n == 3
  | 8 => n == 3 || domKind n == .lpc
  | 9 => true
  | _ => false

/-- DOMAIN_WAKE: a source wakes a domain (R343). -/
def execDomainWake (n source : Nat) (s : State) : Host.Outcome State Fault Refusal :=
  .next (if supplied s n && n < 196 && sourceWakes s source n then startWake s n source else s)

/-- Blocks of STORER and SAVE commands that a controller's start finds cut off are poisoned (R208). -/
def startController (s : State) (p : Nat) : State := poisonJournal (settleJournal s) (fun b => b / 256 == p)

/-- What a domain does when it is on: the doorbell latch is taken, journals poisoned, K_PUF reconstructed, trips logged (R208,
R343, R344, R346, R351, R383, R403). -/
def takeWake (s : State) (n : Nat) : State :=
  match domKind n with
  | .cxl => { s with power := { s.power with doorbellLatch := none } }
  | .lpc => startController s (n - 164)
  | .sec => if s.sec.pufOk then s else fatalEffect (bumpFree s) 5 ((freshValue s).toNat % 2 ^ 16) false
  | .mgmt =>
    let s1 := { s with power := { s.power with mgmtPll := false } }
    if s1.sec.mgmtReady then serveMgmt s1 else s1
  | _ => s

/-- DOMAIN_WAKE_DONE: the domains it depends on are on first; latches and edges are taken, and commands that waited complete (R341,
R343, R348). -/
def execDomainWakeDone (n : Nat) (s : State) : Host.Outcome State Fault Refusal :=
  .next
    (let d := domainAt s n
     if d.state != .waking || (dependsOn n).any (fun m => (domainAt s m).state != .on) ||
         (n == 3 && d.fromOff && (List.range 16).any (fun p => (domainAt s (lpcDomain p)).state != .on)) || !supplied s n then s
     else releaseWakeWaits (takeWake (setDomain s { d with state := .on, latches := [], edge := none }) n) n)

/-- DTB_COMPARATOR: a comparator of the sill expires and wakes the domain that set it (R337, R343). -/
def execDtbComparator (i : Nat) (s : State) : Host.Outcome State Fault Refusal :=
  .next
    (match lookupKey s.time.comparators i with
     | none => s
     | some (n, t) =>
       let s1 := advanceTo s t
       let s2 := { s1 with time := { s1.time with comparators := dropKey s1.time.comparators i } }
       if supplied s2 n then startWake s2 n 0x04 else s2)

/-! The sill's comparators (R346). -/

/-- Number of a comparator in the error log, its wake code and the domains it wakes (R343, R375). -/
def compNumber (c : Comparator) : Nat :=
  match c with
  | .wakeA => 0
  | .temperature => 1
  | .vinDroop => 2
def compWakes (c : Comparator) : List Nat :=
  match c with
  | .wakeA => [0, 2, 3]
  | _ => [0]

/-- Threshold of a comparator and its accuracy, in µV for the two voltages and in 0.001 °C (table Comparators). -/
def compThreshold (s : State) (c : Comparator) : Nat × Nat :=
  match c with
  | .wakeA => (200000 + dictValue s 0x2001 0 8 * 160000 / 3, 15000)
  | .temperature => (95000, 3000)
  | .vinDroop => (42000000, 500000)

/-- Level at which a comparator releases. -/
def compRelease (s : State) (c : Comparator) : Nat :=
  match c with
  | .wakeA => (compThreshold s c).1 - 20000
  | .temperature => 90000
  | .vinDroop => 44000000

/-- A measured value, in mV for the voltages and in °C, lies past a level in the sense of the comparator, as far as its accuracy can tell
(R346; log entry 121). -/
def compPast (s : State) (c : Comparator) (value : Nat) : Bool :=
  let t := compThreshold s c
  match c with
  | .vinDroop => 1000 * value < t.1 + t.2
  | _ => t.1 - t.2 < 1000 * value
def compBack (s : State) (c : Comparator) (value : Nat) : Bool :=
  let r := compRelease s c
  let a := (compThreshold s c).2
  match c with
  | .vinDroop => r - a ≤ 1000 * value
  | _ => 1000 * value ≤ r + a

/-- COMPARATOR_TRIP: latched, MGMT and its other targets woken, logged by MGMT; VIN droop throttles BE work (R346, R353). -/
def execComparatorTrip (c : Comparator) (value : Nat) (s : State) : Host.Outcome State Fault Refusal :=
  .next
    (if !s.pins.auxGood || s.power.tripped.contains c || !compPast s c value then s
     else
       let s1 := { s with power := { s.power with
         tripped := s.power.tripped ++ [c], vinSince := if c == .vinDroop then now s else s.power.vinSince } }
       let s2 := if mgmtAwake s1 then logError s1 errComparator (compNumber c) value
         else { s1 with power := { s1.power with toLog := s1.power.toLog ++ [(compNumber c, value)] } }
       let s3 := ((compWakes c).filter (supplied s2)).foldl (fun st n => startWake st n (5 + compNumber c)) s2
       settleHold s3)

/-- COMPARATOR_RELEASE: the input, as read, lies at the release level or beyond (R346, R352, R353). -/
def execComparatorRelease (r : InputReading) (s : State) : Host.Outcome State Fault Refusal :=
  let c := r.comparator
  .next
    (if !s.power.tripped.contains c || !compBack s c r.value then s
     else
       let s1 := { s with power := { s.power with tripped := s.power.tripped.filter (fun x => x != c) } }
       settleHold (if c == .vinDroop then logEpisode s1 2 s.power.vinSince else s1))

/-! The power cap and THROTTLE_N (R352, R353). -/

/-- POWER_CAP_THROTTLE and its lift: POWER_NOW as measured, judged against POWER_CAP (R352). -/
def execPowerCapThrottle (watts : Nat) (s : State) : Host.Outcome State Fault Refusal :=
  .next (if s.pins.mainOn then judgePower { s with power := { s.power with powerNow := watts } } else s)
def execPowerCapThrottleLift (watts : Nat) (s : State) : Host.Outcome State Fault Refusal :=
  .next (if s.pins.mainOn then judgePower { s with power := { s.power with powerNow := watts } } else s)

/-- THROTTLE_N_ASSERT (R353). -/
def execThrottleNAssert (s : State) : Host.Outcome State Fault Refusal :=
  .next
    (if !s.pins.auxGood || !s.pins.throttleN then s
     else settleHold { s with pins := { s.pins with throttleN := false }, power := { s.power with throttleNSince := now s } })

/-- THROTTLE_N_RELEASE (R352, R353). -/
def execThrottleNRelease (s : State) : Host.Outcome State Fault Refusal :=
  .next
    (if !s.pins.auxGood || s.pins.throttleN then s
     else settleHold (logEpisode { s with pins := { s.pins with throttleN := true } } 1 s.power.throttleNSince))

/-- MGMT_PLL_LOCK: firmware switches MGMT from the ring oscillator to the PLL (R351). -/
def execMgmtPllLock (s : State) : Host.Outcome State Fault Refusal :=
  .next
    (if s.pins.mainOn && (domainAt s 0).state == .on then { s with power := { s.power with mgmtPll := true } } else s)

end Sys2Proof.Machine
end

