-- ==== Sys2Proof/Machine/Reset.lean ====
section
/-! DEFINITION. Supplies and resets: AUX, main power up and down, its loss, module reset, and the end of a fatal dump's copy
(R26, R326, R377, R405 to R413, R422). -/

namespace Sys2Proof.Machine

open Sys2Proof

/-! What module reset and loss of main power have in common. -/

/-- Dictionary values return to their defaults at a module reset, those of Kept objects excepted (R322, R324, R326, R327, R402). -/
def dictDefaults (s : State) : State :=
  let kept := fun (e : DictEntry) => match objAt e.index e.sub with
    | some o => o.kept
    | none => false
  let s1 := { s with
    dict := { s.dict with entries := s.dict.entries.filter kept, secLock := false, logHost := (1, 0, 0), logSideband := (1, 0, 0) },
    sec := { s.sec with fwRxLen := 0, cfgRxLen := 0 } }
  refreshAlert s1

/-- MGMT starts again from flash: its firmware state, waiting requests and blocks of evidence are lost, a boot is counted (R391,
R396, R400, R413; log entry 44). -/
def restartFromFlash (s : State) : State :=
  let s1 := mgmtLost s
  { s1 with sec := { s1.sec with
      booted := none, failedBoots := s1.sec.failedBoots + 1, evidence := [], evidenceHost := none, evidenceSideband := none } }

/-- Rime units are idle, and what they held is gone; the mode registers lie in the packages (R199, R413). -/
def clearRime (s : State) : State := { s with rime := { s.rime with banks := [], ready := [] } }

/-! Module reset (R413). -/

/-- A bay other than bay 0 is unbound: its regions go to custody or are released, its channels' leases end, its arrays are cleared
(R292, R303, R413). -/
def unbindBay (s : State) (b : Nat) : State :=
  let v := bayAt s b
  if v.mode == .unbound then s
  else
    let s1 := giveUpRegions s b
    let s2 := v.excl.foldl (fun st c => releaseLease (dropExclusive st b c) c) s1
    let s3 := v.arrays.foldl clearArray s2
    let s4 := { s3 with bay := { s3.bay with pegs := s3.bay.pegs.filter (fun p => p.bay != b) } }
    setBay s4 b { register := v.register, parkAddr := v.parkAddr, saved := v.saved, counters := v.counters }

/-- MGMT starts again at a module reset: the staging state was lost at its beginning, with a raise that was pending or in refit (R326,
R330). -/
def resetStart (s : State) : State :=
  let s1 := dictDefaults (restartFromFlash s)
  { s1 with dict := { s1.dict with stage := s.dict.stage } }

/-- A module reset (R249, R292, R326, R330, R377, R379, R413). -/
def moduleReset (s : State) : State :=
  let s1 := linkLost (stageAfterRestart s)
  let s2 := (List.range 63).foldl (fun st i => unbindBay st (i + 1)) { s1 with bay := { s1.bay with pendingBinds := [] } }
  let s3 := clearRime (poisonJournal (settleJournal s2) (fun _ => true))
  let s4 := resetStart { s3 with
    health := { s3.health with fatal := .none, fatalInfo := none, selfTest := none },
    adm := { s3.adm with queries := [], stopped := false },
    pins := { s3.pins with faultLow := false, clkreqLow := false, resetDue := false } }
  refreshReady { s4 with link := { s4.link with training := false }, tap := { s4.tap with marked := [] } }

/-- PERST_N_ASSERT, for at least 100 µs: a module reset while the main rails are on, after the copy of a fatal dump that runs; with
the rails off FAULT_N alone is released (R405, R413, R422; log entry 14). -/
def execPerstNAssert (s : State) : Host.Outcome State Fault Refusal :=
  .next
    (if !s.pins.perstN then s
     else
       let s1 := { s with pins := { s.pins with perstN := false } }
       if !s1.pins.mainOn then
         { s1 with pins := { s1.pins with faultLow := false }, health := { s1.health with fatal := .none, fatalInfo := none } }
       else if s1.health.fatal == .halted && s1.health.dumpState == 1 then { s1 with pins := { s1.pins with resetDue := true } }
       else moduleReset s1)

/-- DUMP_COPIED: in flash from now on; the dump service begins, or the reset that waited for it (R377, R379, R422). -/
def execDumpCopied (s : State) : Host.Outcome State Fault Refusal :=
  .next
    (if s.health.fatal == .halted && s.health.dumpState == 1 then
       let s1 := { s with health := { s.health with dumpState := 2, fatal := .service } }
       if s1.pins.resetDue then moduleReset s1 else s1
     else s)

/-- What blocks of a die that were marked bad still hold is rebuilt into spares, and dies left without a spare are retired (R362, R420). -/
def rebuildMarked (s : State) (c d : Nat) : State :=
  let bad := (residents s c d).filter (fun e => (physOf s c e.1 e.2).any (fun p => p.1 == d && (dieAt s c d).bad.contains p.2))
  retireSpent c s.sec.order.dies (if (dieAt s c d).retired then s else bad.foldl (placeBlock c d) s)

/-- A start of MGMT after bring-up: repaired rows that were listed as failing return their frames to FREE, with a moraine record per
bank, whose LIMIT is a free value, and dies that marks left without spares are retired; units of marked blocks are rebuilt at their logical places (R362, R419,
R420). -/
def startRepairs (s : State) : State :=
  let s1 := s.health.banks.foldl (fun (st : State) (b : BankHealth) =>
    if b.repaired == [] then st
    else
      let done := b.failing.filter (fun r => b.repaired.contains r.1)
      let v : BankHealth := { b with failing := b.failing.filter (fun r => !b.repaired.contains r.1), repaired := [], corrected := 0 }
      let st1 := setBankHealth (bumpFree st) v
      let st2 := giveRowBack st1 (done.flatMap (fun r => r.2))
      logMoraine st2 0x0011 b.bank (BitVec.ofNat 32 b.corrected) (BitVec.ofNat 32 v.failing.length) (BitVec.ofNat 32 (4 - v.used))
        (BitVec.ofNat 32 (retiredCount st2 (b.bank / 32))) (BitVec.ofNat 32 (freshValue st).toNat)) s
  s1.health.dies.foldl (fun st v => rebuildMarked st v.channel v.die) s1

/-- PERST_N_RELEASE: CLKREQ_N, link training after a bring-up operation in course; the TAP's instructions for reset act no more
(R405, R409, R417, R421, R422). -/
def execPerstNRelease (s : State) : Host.Outcome State Fault Refusal :=
  .next
    (if s.pins.perstN then s
     else
       let s1 := { s with
         pins := { s.pins with perstN := true, clkreqLow := s.pins.mainOn },
         link := { s.link with training := s.pins.mainOn && s.tap.op.isNone },
         tap := { s.tap with loop := none, driven := false, highZ := false, halted := false, marked := [] } }
       if s1.pins.mainOn then startWake (startRepairs s1) 2 0x09 else s1)

/-! Main power (R408 to R412). -/

/-- The DRAM's contents and the tier map are gone: frames of FLASH regions are free again and their pages at home or ZERO, frames of
DRAM and bank-local regions read zeros, an unfinished copy waits to start again (R215, R412). -/
def loseDram (s : State) : State :=
  let moves := s.tier.frames.filter (fun e => e.zeroing || e.state == .fill || e.state == .resident || e.state == .writeback)
  let s1 := moves.foldl (fun st e => if e.zeroing then giveFrameBack st e.num else freeFrame st e.num)
    { s with tier := { s.tier with
        dram := [], poison := [], written := [], unspecified := [], fillWaits := [], weights := [], capture := [], captureBad := [] } }
  let cut := s1.tier.departures.filter (fun d => !d.out)
  vacateLate { s1 with tier := { s1.tier with
      frames := s1.tier.frames.map (fun e => { e with poison := false, ref := false, captured := 0 }),
      evacuation := none, departures := (s1.tier.departures.filter (fun d => d.out)).map (fun d => { d with copies := [] }),
      wanted := s1.tier.wanted ++ cut.map (fun d => (d.channel, d.kind)) } }

/-- The main rails go off: link, contexts, DRAM with the staging area, stores, and every domain but MGMT, which AUX supplies; the sill and
its clock go on (R27, R350, R396, R405, R411, R412). -/
def railsOff (s : State) : State :=
  let s1 := loseDram (clearRime (linkLost s))
  let s2 := { s1 with sec := { s1.sec with staging := .empty, fwRxState := 0, cfgRxState := 0 } }
  let pegs := (s2.bay.pegs.filter (fun p => p.kind == .notice)).map (fun (p : Peg) => { p with value := 0, holder := none, broken := false })
  let doms := s2.power.domains.map (fun (d : Domain) =>
    if d.num == 0 then d else { d with state := .off, latches := [], edge := none, idleSince := none, due := 0 })
  refreshReady { s2 with
    pins := { s2.pins with mainOn := false, clkreqLow := false, poweringDown := false, resetDue := false },
    link := { s2.link with training := false, loopback := none, degraded := false, aerFatal := [] },
    queues := { s2.queues with deferred := [] },
    bay := { s2.bay with pegs := pegs, waits := [], threadResults := [] },
    adm := { s2.adm with queries := [], kept := [], placed := [], deferred := [], stopped := false, capThrottle := false, capPeak := 0 },
    indexes := s2.indexes.map restoreIndex,
    cells := {},
    rime := { s2.rime with rcfg := [], journal := [] },
    time := { s2.time with comparators := s2.time.comparators.filter (fun e => e.2.1 == 0) },
    power := { s2.power with
      domains := doms, powerNow := 0, doorbellLatch := none, mgmtPll := false, fabSave := none,
      heldSince := if !s2.pins.throttleN || s2.power.tripped.contains .vinDroop then s2.power.heldSince else none },
    health := { s2.health with
      selfTest := none, dies := s2.health.dies.map (fun (d : Die) => { d with piece := none }),
      dumpState := if s2.health.dumpState == 1 then 0 else s2.health.dumpState,
      dump := if s2.health.dumpState == 1 then none else s2.health.dump },
    tap := { s2.tap with loop := none, op := none, halted := false, driven := false } }

/-- Domains that main power brings up, with source 0x0A: MGMT, SEC, CXL, FAB and the DRAM controllers; arrays and flash groups stay off
until work wakes them (R343, R409; log entry 47). -/
def poweredDomains : List Nat := [0, 1, 2, 3] ++ (List.range 16).map lpcDomain

/-- The main rails come up: Kept values changed meanwhile are written, and MGMT boots from flash (R326, R330, R400, R409). -/
def railsOn (s : State) : State :=
  let s1 := poweredDomains.foldl (fun st n =>
    setDomain st { domainAt st n with
      state := .waking, lastWake := 0x0A, lastWakeDtb := now s, fromOff := true, idleSince := none, due := 0 }) (restartFromFlash s)
  let kept := s.dict.entries.filter (fun e => match objAt e.index e.sub with
    | some o => o.kept
    | none => false)
  { s1 with
    pins := { s1.pins with mainOn := true, inputLost := false, clkreqLow := s.pins.perstN },
    link := { s1.link with training := s.pins.perstN },
    adm := { s1.adm with stopped := isFatal s },
    dict := { s1.dict with kept := kept } }

/-- PWR_EN acts while AUX is good and the input in range (R408, R409). -/
def tryPower (s : State) : State :=
  if s.pins.pwrEn && s.pins.auxGood && s.pins.inputInRange && !s.pins.mainOn then railsOn s else s

/-- PWR_EN_RISE: sampled high; during a power-down it takes effect at the end (R409, R410). -/
def execPwrEnRise (s : State) : Host.Outcome State Fault Refusal :=
  .next (tryPower { s with pins := { s.pins with pwrEn := true } })

/-- Some accepted LC query has not completed. -/
def lcLeft (s : State) : Bool := s.adm.queries.any (fun x => x.lc && x.stage != .done)

/-- The power-down sequence ends: rails off; a PWR_EN that rose meanwhile takes effect (R410). -/
def finishPowerDown (s : State) : State := tryPower (railsOff s)

/-- Best-effort contexts: those without an LC pair (R410). -/
def beContexts (s : State) : List Nat :=
  (s.bay.contexts.filter (fun c => !s.queues.pairs.any (fun p => p.ctx == c.num && p.lc))).map (fun c => c.num)

/-- PWR_EN_FALL: admission stops, MOD_READY goes low, BE contexts end; the rails go off once no LC query is left, or 1.2 s after the
fall (R410; log entry 48). -/
def execPwrEnFall (s : State) : Host.Outcome State Fault Refusal :=
  .next
    (let s1 := { s with pins := { s.pins with pwrEn := false } }
     if !s1.pins.mainOn then s1
     else
       let s2 := if s1.pins.poweringDown then s1 else
         { s1 with pins := { s1.pins with poweringDown := true, downSince := now s1 }, adm := { s1.adm with stopped := true } }
       let s3 := refreshReady ((beContexts s2).foldl tearDown s2)
       if lcLeft s3 then s3 else finishPowerDown s3)

/-- A tick of the clock, with the end of a verification and of a power-down that fall on it (R24, R396, R410; log entries 1, 48 and 143). -/
def idle (s : State) : State :=
  let t := finishStage (tickDomains (idleTick s))
  if t.pins.poweringDown && (!lcLeft t || t.pins.downSince + 1200000000 ≤ now t) then finishPowerDown t else t

/-- MAIN_POWER_LOSS: the input leaves its limits (R408, R412, R422). -/
def execMainPowerLoss (s : State) : Host.Outcome State Fault Refusal :=
  .next
    (let s1 := { s with pins := { s.pins with inputInRange := false, inputLost := s.pins.mainOn || s.pins.inputLost } }
     if s1.pins.mainOn then railsOff s1 else s1)

/-- MAIN_INPUT_RETURN: the input at a voltage within 40 V to 60 V for 10 ms, which lies within the levels at which the rails come back
(R408, R409). -/
def execMainInputReturn (millivolts : Nat) (s : State) : Host.Outcome State Fault Refusal :=
  .next
    (if 40000 ≤ millivolts && millivolts ≤ 60000 then tryPower { s with pins := { s.pins with inputInRange := true, inputLost := false } }
     else s)

/-! AUX (R26, R411). -/

/-- AUX_LOSS: rails off, and everything that the sill alone held is lost; what flash holds stays (R318, R326, R330, R400, R411). -/
def execAuxLoss (s : State) : Host.Outcome State Fault Refusal :=
  .next
    (if !s.pins.auxGood then s
     else
       let s1 := mgmtLost (if s.pins.mainOn then railsOff s else s)
       { s1 with
         pins := { s1.pins with auxGood := false, alertLow := false, faultLow := false },
         time := { bootCount := s1.time.bootCount, dtb := s1.time.dtb },
         link := { s1.link with ideFails := 0, ideFailDtb := 0 },
         dict := { s1.dict with entries := s1.dict.kept, stage := {}, secLock := false, logHost := (1, 0, 0), logSideband := (1, 0, 0) },
         sb := {}, power := {}, tap := {},
         rime := { s1.rime with journal := [] },
         health := { s1.health with fatal := .none, fatalInfo := none, restarts := [] },
         sec := { s1.sec with
           failedBoots := 0, bootState := 0, debugLevel := 0, pending := 0, booted := none, fwRxLen := 0, cfgRxLen := 0,
           evidence := [], evidenceHost := none, evidenceSideband := none } })

/-- AUX_POWER_UP: the DTB from 0, the next boot count, SLOT_ID from the straps; AUX_GOOD, ALERT_N and FAULT_N driven (R26, R314,
R409). -/
def execAuxPowerUp (straps : Nat) (s : State) : Host.Outcome State Fault Refusal :=
  .next
    (if s.pins.auxGood then s
     else
       settleHold (refreshAlert { s with
         pins := { s.pins with auxGood := true, slotId := straps % 16 },
         time := { bootCount := s.time.bootCount + 1 } }))

end Sys2Proof.Machine
end

