-- ==== Sys2Proof/Machine/Security.lean ====
section
/-! DEFINITION. Attestation evidence, SPDM and IDE keys (R389, R391 to R393). Answers of the DOE mailbox carry the values that the manual
names, since it does not restate the message layouts of SPDM and IDE_KM (log entries 43 and 49). -/

namespace Sys2Proof.Machine

open Sys2Proof

/-! Measurements and evidence (R389, R391). -/

/-- IDE_ON: both streams Secure (R252). -/
def ideOn (s : State) : Bool := streamSecure s 0 && streamSecure s 1

/-- Measurement 4: SEC_LOCK, whether SB_KEY is non-zero, IDE_ON and the DEBUG_UNLOCK reach, one byte each, live (R389). -/
def measLive (s : State) : BitVec 512 :=
  let b := fun (p : Bool) => if p then 1#8 else 0#8
  Config.shake256 [b s.dict.secLock, b (sbKey s != 0), b (ideOn s), BitVec.ofNat 8 s.sec.debugLevel]

/-- Measurements 0 to 4 in index order (R389). -/
def measurements (s : State) : List (Nat × BitVec 512) :=
  [(0, s.sec.measRom), (1, s.sec.measImage), (2, s.sec.measArb), (3, s.sec.measRecords), (4, measLive s)]

/-- Bytes of an SLH-DSA-SHAKE-256f signature (R382). -/
def evidenceSig : Nat := 49856

/-- The evidence block of a request, all values sampled now (R391). -/
def evidenceOf (s : State) (r : EvidenceReq) : Evidence :=
  let ms := measurements s ++ (match r.bay with
    | some b => [(16 + b, (bayAt s b).register)]
    | none => [])
  let len := 128 + 80 * ms.length + evidenceSig
  let h := Config.devidPk.toNat * 2 ^ 512 + r.nonce.toNat * 2 ^ 256 + now s % 2 ^ 64 * 2 ^ 192 + s.time.bootCount.toNat * 2 ^ 160 +
    fwVersion s % 2 ^ 32 * 2 ^ 128 + ms.length * 2 ^ 112 + r.bay.getD 0xFF % 256 * 2 ^ 104 + len * 2 ^ 16 + 1
  let e : Evidence := { header := BitVec.ofNat 1024 h, meas := ms, signature := [] }
  { e with signature := padTo evidenceSig (Config.slhSign labelEvidence (evidenceBytes e)) }

/-- A request for evidence: 32 bytes nonce, a bay or 0xFF, 7 Rsvd bytes; at most four wait (R391, R402). The security block wakes for
it (R343). -/
def requestEvidence (s : State) (by_ : Master) (value : Bytes) (spdm : Bool) : State × Nat :=
  let b := leAt value 32 1
  if !(b < 64 || b == 0xFF) || leAt value 33 7 != 0 then (s, stInvalidField)
  else if b != 0xFF && !bayBound s b then (s, stNotFound)
  else if 4 ≤ s.sec.evidence.length then (s, stInProgress)
  else
    let r : EvidenceReq := { by_ := by_, nonce := BitVec.ofNat 256 (leAt value 0 32), bay := if b == 0xFF then none else some b,
                             spdm := spdm }
    (startWake { s with sec := { s.sec with evidence := s.sec.evidence ++ [r] } } 1 0x09, stOk)

/-- EVIDENCE_SIGN: the oldest request is served; its block is the last of its master, and answers an SPDM request (R391, R392). -/
def execEvidenceSign (s : State) : Host.Outcome State Fault Refusal :=
  .next
    (match s.sec.evidence with
     | [] => s
     | r :: rest =>
       if !s.pins.mainOn then s
       else
         let e := evidenceOf s r
         let sec := { s.sec with evidence := rest }
         let s1 := { s with sec := if r.by_ == .host then { sec with evidenceHost := some e } else { sec with evidenceSideband := some e } }
         if r.spdm && s1.link.up then emit s1 (.doe doeEvidence (evidenceBytes e)) else s1)

/-! SPDM (R392). -/

/-- The DOE mailbox serves a request with the security block, which wakes for it (R240, R343, R392). -/
def spdmServe (s : State) (k : State → State) : State := if s.link.up then k (startWake s 1 0x09) else s

/-- NEGOTIATE_ALGORITHMS: SHA3-512, AES-256-GCM, secp384r1 and the extended SLH-DSA algorithm, or the error (R392). -/
def execNegotiateAlgorithms (hash aead dhe sig : Bool) (s : State) : Host.Outcome State Fault Refusal :=
  .next (spdmServe s (fun s =>
    if hash && aead && dhe && sig then doeAnswer { s with link := { s.link with negotiated := true } } doeAlgorithms []
    else doeAnswer s doeError []))

/-- GET_CERTIFICATE: a portion of the DEVID_CERT chain of slot 0; no other slot is provisioned (R385, R392). -/
def execGetCertificate (slot offset len : Nat) (s : State) : Host.Outcome State Fault Refusal :=
  .next (spdmServe s (fun s =>
    match s.sec.inForce.find? (fun r => r.type == 2) with
    | some r => if slot == 0 then emit s (.doe doeCertificate (sliceOf r.payload offset len)) else doeAnswer s doeError []
    | none => doeAnswer s doeError []))

/-- CHALLENGE: a signature over the requester's nonce under the key of slot 0 (R382, R392). -/
def execChallenge (slot : Nat) (nonce : BitVec 256) (s : State) : Host.Outcome State Fault Refusal :=
  .next (spdmServe s (fun s =>
    if slot == 0 && s.link.negotiated then
      emit s (.doe doeChallenge (padTo evidenceSig (Config.slhSign labelSpdm (natLe 32 nonce.toNat))))
    else doeAnswer s doeError []))

/-- GET_MEASUREMENTS: indexes 0 to 4 as raw values of 64 bytes, signed (R392). -/
def execGetMeasurements (slot : Nat) (nonce : BitVec 256) (s : State) : Host.Outcome State Fault Refusal :=
  .next (spdmServe s (fun s =>
    if slot == 0 && s.link.negotiated then
      let v := (measurements s).flatMap (fun m => natLe 64 m.2.toNat)
      emit s (.doe doeMeasurements (v ++ padTo evidenceSig (Config.slhSign labelSpdm (natLe 32 nonce.toNat ++ v))))
    else doeAnswer s doeError []))

/-- SPDM_EVIDENCE_REQUEST: the value of EVIDENCE_REQ; the block answers it once signed (R391, R392). -/
def execSpdmEvidenceRequest (value : Bytes) (s : State) : Host.Outcome State Fault Refusal :=
  .next (spdmServe s (fun s =>
    let r := requestEvidence s .host value true
    if r.2 == stOk then r.1 else doeAnswer r.1 doeError [r.2]))

/-- SPDM_KEY_EXCHANGE: at most two secured sessions (R392). -/
def execSpdmKeyExchange (s : State) : Host.Outcome State Fault Refusal :=
  .next (spdmServe s (fun s =>
    if s.link.negotiated && s.link.sessions.length < 2 then
      doeAnswer { s with link := { s.link with sessions := s.link.sessions ++ [s.link.nextSession], nextSession := s.link.nextSession + 1 } }
        doeKeyExchange [s.link.nextSession]
    else doeAnswer s doeError []))

/-! IDE keys (R249, R393). -/

/-- Stream of a direction (R249). -/
def streamOf (d : StreamDir) : Nat :=
  match d with
  | .cacheTx | .cacheRx => 0
  | .ioTx | .ioRx => 1

/-- Key sets of a direction. -/
def ideDir (s : State) (d : StreamDir) : IdeDir := ((s.link.ide.find? (fun e => e.1 == d)).map (fun e => e.2)).getD {}
def setIdeDir (s : State) (d : StreamDir) (v : IdeDir) : State :=
  { s with link := { s.link with ide := s.link.ide.map (fun e => if e.1 == d then (d, v) else e) } }

/-- The key of a set. -/
def ideKey (v : IdeDir) (set : Nat) : Option (BitVec 256) := if set == 0 then v.key0 else v.key1
def putIdeKey (v : IdeDir) (set : Nat) (k : Option (BitVec 256)) : IdeDir := if set == 0 then { v with key0 := k } else { v with key1 := k }

/-- An IDE_KM message acts within a secured session only (R393). -/
def withinSession (s : State) (session set : Nat) (k : State → State) : State :=
  spdmServe s (fun s => if s.link.sessions.contains session && set < 2 then k s else doeAnswer s doeError [])

/-- KEY_PROG: into the set that does not run; the other is refused (R393; log entry 49). -/
def execKeyProg (session : Nat) (dir : StreamDir) (set : Nat) (key : BitVec 256) (s : State) : Host.Outcome State Fault Refusal :=
  .next (withinSession s session set (fun s =>
    let v := ideDir s dir
    if v.active == some set then doeAnswer s doeError []
    else doeAnswer (setIdeDir s dir (putIdeKey v set (some key))) doeKeyManagement []))

/-- K_SET_GO: the direction switches to the named set; its stream leaves the Insecure state (R249, R393; log entry 49). -/
def execKSetGo (session : Nat) (dir : StreamDir) (set : Nat) (s : State) : Host.Outcome State Fault Refusal :=
  .next (withinSession s session set (fun s =>
    let v := ideDir s dir
    if (ideKey v set).isNone then doeAnswer s doeError []
    else
      let s1 := setIdeDir s dir { v with active := some set }
      doeAnswer { s1 with link := { s1.link with ideInsecure := s1.link.ideInsecure.filter (fun x => x != streamOf dir) } }
        doeKeyManagement []))

/-- K_SET_STOP: refused for the set in use; otherwise the set's key is given up (R393; log entry 49). -/
def execKSetStop (session : Nat) (dir : StreamDir) (set : Nat) (s : State) : Host.Outcome State Fault Refusal :=
  .next (withinSession s session set (fun s =>
    let v := ideDir s dir
    if v.active == some set then doeAnswer s doeError []
    else doeAnswer (setIdeDir s dir (putIdeKey v set none)) doeKeyManagement []))

end Sys2Proof.Machine
end

