-- ==== Sys2Proof/Machine/Firmware.lean ====
section
/-! DEFINITION. Firmware and configuration records: staging, activation, the CXL primary mailbox, and the FW_RX and CFG_RX objects
(R387, R396, R397, R400 to R403). -/

namespace Sys2Proof.Machine

open Sys2Proof

/-! Staging and activation (R396, R397). -/

/-- Only recovery states 0x01 and 0x02 accept an image (R400). -/
def loaderTakesImage (s : State) : Bool := s.sec.bootState == 1 || s.sec.bootState == 2

/-- The image is written to copy 0 and then copy 1, each read back; an uncorrectable copy ends it (R397). The running firmware is
unchanged; the CDAT's sequence number changes (R248; log entry 140). -/
def writeCopies (s : State) (f : FwImage) (m0 m1 : Media) : State × Nat :=
  if s.sec.activated == some f then (s, stOk)
  else if m0 == .uncorrectable then ({ s with sec := { s.sec with copy0 := none } }, stMediaUe)
  else if m1 == .uncorrectable then ({ s with sec := { s.sec with copy0 := some f, copy1 := none } }, stMediaUe)
  else ({ s with
      sec := { s.sec with copy0 := some f, copy1 := some f, activated := some f, pending := f.version },
      link := { s.link with cdatSeq := (s.link.cdatSeq + 1) % 2 ^ 32 } }, stOk)

/-- FW_STAGE: IMAGE_LEN bytes from PTR0, which the security block then verifies while the command runs on; a failed read leaves the staging area
empty (R279, R396, R401). -/
def execFwStage (cid : Nat) (image : Bytes) (s : State) : Host.Outcome State Fault Refusal :=
  .next
    (withAdmin s cid 0x89 (fun s c =>
      let n := field c.sqe 64 32
      let bs := image.take n
      if n % 64 != 0 then endCmd s adminQ c stInvalidField 0
      else if transferring s then endCmd s adminQ c stInProgress 0
      else if bs.length < n then
        endCmd (stagedAs (updLinkCounters s 0 (fun k => { k with hostFaults := wrapAdd 64 k.hostFaults 1 })) none) adminQ c stHostFault 0
      else
        let s1 := startCmd (startWake s 1 0x09) adminQ c
        { s1 with sec := { s1.sec with staging := .verifying c.cid bs } }))

/-- FW_ACTIVATE (R397). -/
def execFwActivate (cid : Nat) (m0 m1 : Media) (s : State) : Host.Outcome State Fault Refusal :=
  .next
    (withAdmin s cid 0x8A (fun s c =>
      match s.sec.staging with
      | .image f =>
        let r := writeCopies s f m0 m1
        endCmd r.1 adminQ c r.2 (if r.2 == stOk then imageResult f else 0)
      | _ => endCmd s adminQ c stFwNoImage 0))

/-- An image accepted in recovery is written and booted at once; the boot count is cleared, and MGMT_READY follows (R400). -/
def bootStaged (s : State) (f : FwImage) (m0 m1 : Media) : State × Nat :=
  let r := writeCopies s f m0 m1
  if r.2 == stOk then ({ r.1 with sec := { r.1.sec with failedBoots := 0, fwRxState := 6 } }, stOk)
  else ({ r.1 with sec := { r.1.sec with fwRxState := 4 } }, r.2)

/-! Configuration records (R387). -/

/-- SEQ of the record of a type in force (R385). -/
def seqInForce (s : State) (t : Nat) : Option Nat := (s.sec.inForce.find? (fun r => r.type == t)).map (fun r => r.seq)

/-- The check of a delivered record: layout, type, key slot, serial and signature, then SEQ (R385 to R387). -/
def judgeRecord (s : State) (bs : Bytes) : Nat :=
  let r := parseRecord bs
  let n := field r.header 32 32
  let rsvd := field r.header 8 8 != 0 || field r.header 64 192 != 0 || field r.header 384 64 != 0
  if bs.length != 64 + n + sigBytes || 262144 < n || field r.header 0 8 != 1 || rsvd || !(1 ≤ r.type && r.type ≤ 4) ||
      !recordGood s (BitVec.ofNat 4 (keysRevoked s)) r then stFwInvalid
  else
    match seqInForce s r.type with
    | some q => if r.seq ≤ q then stFwRollback else stOk
    | none => stOk

/-- Verify and install: the record is in flash from now on and takes effect at the next boot, which in BOOT_STATE 0x05 follows at
once: MGMT_READY boots again (R387). -/
def installRecord (s : State) (bs : Bytes) : State × Nat :=
  let st := judgeRecord s bs
  let s1 := { s with sec := { s.sec with staging := .empty } }
  if st == stOk then ({ s1 with sec := { s1.sec with records := s1.sec.records ++ [parseRecord bs] } }, stOk) else (s1, st)

/-! The CXL primary mailbox (R401). Payloads of the CXL specification are not restated by the manual (log entry 50). -/

/-- Return codes of the model: success, busy, unsupported, and a status of the manual as data. -/
def mbSuccess : Nat := 0
def mbBusy : Nat := 1
def mbUnsupported : Nat := 2
def mbStatus : Nat := 3

/-- An answer of the mailbox. -/
def mbAnswer (s : State) (opcode ret : Nat) (data : Bytes) : State := emit s (.mailbox opcode ret data)

/-- A status as an answer. -/
def mbEnd (s : State) (opcode status : Nat) : State :=
  if status == stOk then mbAnswer s opcode mbSuccess [] else mbAnswer s opcode mbStatus (natLe 2 status)

/-- The mailbox serves on the PF while the link is up: module firmware outside a fatal sequence, or the ROM loader; otherwise it is
busy (R379, R400, R401). -/
def mbServe (s : State) (opcode : Nat) (k : State → State) : State :=
  if !s.link.up then s
  else if (mgmtServes s && !isFatal s) || loaderServes s then k (rouseMgmt s 0x09)
  else mbAnswer (rouseMgmt s 0x09) opcode mbBusy []

/-- GET_FW_INFO: one slot, slot 1; the staged slot is 1 after an activation; no online activation (R401). -/
def execGetFwInfo (s : State) : Host.Outcome State Fault Refusal :=
  .next (mbServe s 0x0200 (fun s =>
    let staged := if s.sec.pending == 0 then 0 else 1
    mbAnswer s 0x0200 mbSuccess (natLe 16 (1 + (1 + 8 * staged) * 2 ^ 8) ++ natLe 16 (fwVersion s) ++ List.replicate 48 0)))

/-- Data placed at an offset of a transfer. -/
def placeAt (bs : Bytes) (off : Nat) (data : Bytes) : Bytes := padTo off bs ++ data ++ bs.drop (off + data.length)

/-- The verification at the end of a transfer (R396, R401). -/
def endTransfer (s : State) (bs : Bytes) : State :=
  let v := judgeImage s bs
  mbEnd (stagedAs s v.2) 0x0201 v.1

/-- Bytes of the staging area (R396). -/
def stagingBytes : Nat := 2 ^ 26 + 2 ^ 15

/-- TRANSFER_FW: full (0), initiate (1), continue (2), end (3), abort (4); offsets in units of 128 bytes (R401). -/
def execTransferFw (action offset : Nat) (data : Bytes) (s : State) : Host.Outcome State Fault Refusal :=
  .next (mbServe s 0x0201 (fun s =>
    let mine := match s.sec.staging with
      | .mailbox bs => some bs
      | _ => none
    if loaderServes s && !loaderTakesImage s then mbAnswer s 0x0201 mbUnsupported []
    else if transferring s && mine.isNone then mbAnswer s 0x0201 mbBusy []
    else if stagingBytes < 128 * offset + data.length then mbEnd (stagedAs s none) 0x0201 stFwInvalid
    else
      match action, mine with
      | 0, _ => endTransfer s data
      | 1, _ => mbEnd { s with sec := { s.sec with staging := .mailbox (placeAt [] (128 * offset) data) } } 0x0201 stOk
      | 2, some bs => mbEnd { s with sec := { s.sec with staging := .mailbox (placeAt bs (128 * offset) data) } } 0x0201 stOk
      | 3, some bs => endTransfer s (placeAt bs (128 * offset) data)
      | 4, some _ => mbEnd (stagedAs s none) 0x0201 stOk
      | _, _ => mbAnswer s 0x0201 mbUnsupported []))

/-- ACTIVATE_FW: at the next cold reset; online activation is unsupported; the ROM loader boots at once (R397, R400, R401). -/
def execActivateFw (online : Bool) (m0 m1 : Media) (s : State) : Host.Outcome State Fault Refusal :=
  .next (mbServe s 0x0202 (fun s =>
    if online then mbAnswer s 0x0202 mbUnsupported []
    else
      match s.sec.staging with
      | .image f =>
        let r := if loaderServes s then bootStaged s f m0 m1 else writeCopies s f m0 m1
        mbEnd r.1 0x0202 r.2
      | _ => mbEnd s 0x0202 stFwNoImage))

/-- Vendor logs that the mailbox gives: pages 0x01 to 0x03, of the ROM loader 0x03 alone (R401). -/
def mbLogs (s : State) : List Nat := if loaderServes s then [3] else [1, 2, 3]

/-- GET_SUPPORTED_LOGS (R401). -/
def execGetSupportedLogs (s : State) : Host.Outcome State Fault Refusal :=
  .next (mbServe s 0x0400 (fun s =>
    mbAnswer s 0x0400 mbSuccess ((mbLogs s).flatMap (fun p => natLe 8 p ++ natLe 8 (logPage s .host p 0).2.length))))

/-- GET_LOG: bytes of a vendor log (R401). -/
def execGetLog (page offset len : Nat) (s : State) : Host.Outcome State Fault Refusal :=
  .next (mbServe s 0x0401 (fun s =>
    if (mbLogs s).contains page then mbAnswer s 0x0401 mbSuccess (sliceOf (logPage s .host page 0).2 offset len)
    else mbAnswer s 0x0401 mbUnsupported []))

/-- INSTALL_CONFIG_RECORD: parts of up to 32 KiB at offsets in units of 128 bytes, the last one installs (R387, R401). -/
def execInstallConfigRecord (offset : Nat) (last : Bool) (data : Bytes) (s : State) : Host.Outcome State Fault Refusal :=
  .next (mbServe s 0xC100 (fun s =>
    let mine := match s.sec.staging with
      | .cfgMailbox bs => some bs
      | .empty | .image _ => some []
      | _ => none
    match mine with
    | none => mbAnswer s 0xC100 mbBusy []
    | some bs =>
      if 32768 < data.length || stagingBytes < 128 * offset + data.length then mbEnd s 0xC100 stInvalidField
      else
        let all := placeAt bs (128 * offset) data
        if last then
          let r := installRecord s all
          mbEnd r.1 0xC100 r.2
        else mbEnd { s with sec := { s.sec with staging := .cfgMailbox all } } 0xC100 stOk))

/-! FW_RX and CFG_RX (R402). Each operation answers the new state and the status of the write. -/

/-- FW_RX objects are served by the ROM loader, in the states that accept an image (R400, R402; log entry 51). -/
def fwRxServes (s : State) : Bool := loaderServes s && loaderTakesImage s

/-- FW_RX_LEN written: the staging area is emptied and the offset 0 (R402). -/
def fwRxSetLen (s : State) (v : Nat) : State × Nat :=
  if !fwRxServes s then (s, stDictAccess)
  else
    let s1 := applyObject s 0x7020 0 v
    ({ s1 with sec := { s1.sec with fwRxLen := BitVec.ofNat 32 v, fwRxState := 1, staging := .fwRx (v % 2 ^ 32) [] } }, stOk)

/-- FW_RX_DATA: the next 1,024 bytes; those past the length are ignored (R402). -/
def fwRxPut (s : State) (data : Bytes) : State × Nat :=
  if !fwRxServes s then (s, stDictAccess)
  else
    match s.sec.staging with
    | .fwRx n bs =>
      let s1 := applyObject s 0x7021 0 0
      ({ s1 with sec := { s1.sec with staging := .fwRx n ((bs ++ data).take n) } }, stOk)
    | _ => (s, stInvalidField)

/-- FW_RX_CMD: 1 verify; 2 activate and boot; 3 abort; a verification or a writing that fails shows in FW_RX_STATE (R400, R402). -/
def fwRxCommand (s : State) (v : Nat) (m0 m1 : Media) : State × Nat :=
  if !fwRxServes s then (s, stDictAccess)
  else
    let s1 := applyObject s 0x7022 0 v
    match v with
    | 1 =>
      (match s.sec.staging with
       | .fwRx n bs =>
         let j := if bs.length < n then (stFwInvalid, none) else judgeImage s1 bs
         let s2 := stagedAs s1 j.2
         ({ s2 with sec := { s2.sec with fwRxState := if j.1 == stOk then 3 else 4 } }, stOk)
       | _ => (s, stInvalidField))
    | 2 =>
      (match s.sec.staging with
       | .image f => ((bootStaged s1 f m0 m1).1, stOk)
       | _ => (s, stFwNoImage))
    | _ =>
      -- a transfer on another way is not this object's to end (R401)
      let s2 := match s1.sec.staging with
        | .fwRx _ _ | .image _ => stagedAs s1 none
        | _ => s1
      ({ s2 with sec := { s2.sec with fwRxState := 0 } }, stOk)

/-- CFG_RX objects are served by module firmware and the ROM loader (R402). -/
def cfgRxSetLen (s : State) (v : Nat) : State × Nat :=
  let s1 := applyObject (endStaging s) 0x7024 0 v
  ({ s1 with sec := { s1.sec with cfgRxLen := BitVec.ofNat 32 v, cfgRxState := 1, staging := .cfgRx (v % 2 ^ 32) [] } }, stOk)

/-- CFG_RX_DATA (R402). -/
def cfgRxPut (s : State) (data : Bytes) : State × Nat :=
  match s.sec.staging with
  | .cfgRx n bs =>
    let s1 := applyObject s 0x7025 0 0
    ({ s1 with sec := { s1.sec with staging := .cfgRx n ((bs ++ data).take n) } }, stOk)
  | _ => (s, stInvalidField)

/-- CFG_RX_CMD: 1 verify and install, which ends with the status of R387; 3 abort (R387, R402). -/
def cfgRxCommand (s : State) (v : Nat) : State × Nat :=
  let s1 := applyObject s 0x7026 0 v
  if v == 1 then
    match s.sec.staging with
    | .cfgRx n bs =>
      let r := if bs.length < n then ({ s1 with sec := { s1.sec with staging := .empty } }, stFwInvalid) else installRecord s1 bs
      ({ r.1 with sec := { r.1.sec with cfgRxState := if r.2 == stOk then 7 else 4 } }, r.2)
    | _ => (s, stInvalidField)
  else
    let s2 := match s1.sec.staging with
      | .cfgRx _ _ => stagedAs s1 none
      | _ => s1
    ({ s2 with sec := { s2.sec with cfgRxState := 0 } }, stOk)

end Sys2Proof.Machine
end

