-- ==== Sys2Proof/Machine/Dict.lean ====
section
/-! DEFINITION. Writes of dictionary objects by either master, DICT_READ and DICT_WRITE, and the rows named after writes of security,
log and transfer objects (R322 to R328, R364, R375, R379, R391, R402). -/

namespace Sys2Proof.Machine

open Sys2Proof

/-- Media outcome of a write that the row does not tell: a free value. -/
def freeMedia (n : Nat) : Media := if (Config.freeValue n).toNat % 2 == 0 then .ok else .uncorrectable

/-- A write is refused by the access right (R322, R402). -/
def writeForbidden (s : State) (o : Obj) (i : Nat) : Bool :=
  o.right == .ro || (s.dict.secLock && (o.right == .rwl || (o.right == .wo && 0x7000 ≤ i && i < 0x8000))) ||
  (0x7020 ≤ i && i ≤ 0x7022 && !fwRxServes s)

/-- A write needs the staging lock, which the master does not hold (R329). -/
def lockMissing (s : State) (by_ : Master) (o : Obj) (i : Nat) : Bool :=
  (o.right == .rws || i == 0x8002 || i == 0x8020 || i == 0x8030) && s.dict.stage.lock != some by_

/-- LOG_PAGE, LOG_SELECTOR and LOG_OFFSET of the writing master alone (R327). -/
def writeLog (s : State) (by_ : Master) (j v : Nat) : State :=
  let l := logOf s by_
  let l1 := if j == 1 then (v, l.2.1, l.2.2) else if j == 2 then (l.1, v, l.2.2) else (l.1, l.2.1, v)
  let s1 := applyObject s 0xA000 j v
  if by_ == .host then { s1 with dict := { s1.dict with logHost := l1 } } else { s1 with dict := { s1.dict with logSideband := l1 } }

/-- DUMP_CLEAR: the held dump is discarded (R364, R379). -/
def clearDump (s : State) (v : Nat) : State :=
  let s1 := applyObject s 0x600A 0 v
  if v == 1 then { s1 with health := { s1.health with dump := none, dumpState := 0 } } else s1

/-- SEC_LOCK written (R322). -/
def writeSecLock (s : State) (v : Nat) : State :=
  let s1 := applyObject s 0x7000 0 v
  { s1 with dict := { s1.dict with secLock := v == 1 } }

/-- A RW, WO or RWL object with a value in range takes it, with what the object does (R322, R328, R364, R402). -/
def applyWrite (s : State) (by_ : Master) (i j : Nat) (value : Bytes) : State × Nat :=
  let v := leNat value
  if i == 0x8000 then (if v == 1 then takeLock s by_ else releaseLock s by_)
  else if i == 0x8002 then discardFrame s by_ v
  else if i == 0x8020 then startFit s by_ v
  else if i == 0x8030 then writeRaiseCmd s by_ v
  else if i == 0x7000 then (writeSecLock s v, stOk)
  else if i == 0x600A then (clearDump s v, stOk)
  else if i == 0x600B then (refreshAlert (applyObject s i j v), stOk)
  else if i == 0x7020 then fwRxSetLen s v
  else if i == 0x7021 then fwRxPut s value
  else if i == 0x7022 then fwRxCommand (bumpFree (bumpFree s)) v (freeMedia s.free) (freeMedia (s.free + 1))
  else if i == 0x7024 then cfgRxSetLen s v
  else if i == 0x7025 then cfgRxPut s value
  else if i == 0x7026 then cfgRxCommand s v
  else if i == 0x7030 then
    let r := requestEvidence s by_ value false
    if r.2 == stOk then (applyObject r.1 i j v, stOk) else r
  else if i == 0xA000 then (writeLog s by_ j v, stOk)
  else (touchLockFor (applyObject s i j v), stOk)
where
  /-- A holder's write to LOCK_IDLE counts as one to 0x8000 to 0x8030 (R330). -/
  touchLockFor (t : State) : State := if i == 0x8001 then touchLock t by_ else t

/-- A write of an object by a master: existence, access right, staging lock, size, range, effect (R321 to R323, R328 to R332). -/
def writeObject (s : State) (by_ : Master) (i j : Nat) (value : Bytes) : State × Nat :=
  match objAt i j with
  | none => (s, stNotFound)
  | some o =>
    if writeForbidden s o i then (s, stDictAccess)
    else if lockMissing s by_ o i then (s, stBusyOtherMaster)
    else if o.right == .rws then
      (if by_ == .host && value.length != o.size then (s, stInvalidField) else stageObject s by_ i j value)
    else if value.length != o.size || !objRangeOk i j (leNat value) then (s, stInvalidField)
    else applyWrite s by_ i j value

/-! DICT_READ and DICT_WRITE (R272, R323). -/

def cmdObject (c : Cmd) : Nat := field c.sqe 64 16
def cmdSub (c : Cmd) : Nat := field c.sqe 80 8
def cmdBufLen (c : Cmd) : Nat := field c.sqe 88 16

/-- DICT_READ: exactly the object's size is written; RESULT is its change counter (R323, R324). -/
def execDictRead (cid : Nat) (s : State) : Host.Outcome State Fault Refusal :=
  .next
    (withAdmin s cid 0x8C (fun s c =>
      let r := readObject s .host (cmdObject c) (cmdSub c)
      if r.1 != stOk then endCmd s adminQ c r.1 0
      else if cmdBufLen c < r.2.length then endCmd s adminQ c stInvalidField 0
      else endCmd (emit s (.hostWrite adminQ cid r.2)) adminQ c stOk (dictCounter s (cmdObject c) (cmdSub c)).toNat))

/-- DICT_WRITE: RESULT is the change counter after the write (R322, R323, R325). -/
def execDictWrite (cid : Nat) (value : Bytes) (s : State) : Host.Outcome State Fault Refusal :=
  .next
    (withAdmin s cid 0x8D (fun s c =>
      let n := cmdBufLen c
      if value.length < n then
        endCmd (updLinkCounters s 0 (fun k => { k with hostFaults := wrapAdd 64 k.hostFaults 1 })) adminQ c stHostFault 0
      else
        let r := noteWrite .host (cmdObject c) (cmdSub c) (writeObject s .host (cmdObject c) (cmdSub c) (value.take n))
        endCmd r.1 adminQ c r.2 (dictCounter r.1 (cmdObject c) (cmdSub c)).toNat))

/-- STAGED_OBJECT_WRITE: an RWS object goes into the frame; a write of any other object does what its access right says (R322, R329,
R331). -/
def execStagedObjectWrite (by_ : Master) (index sub : Nat) (value : Bytes) (s : State) : Host.Outcome State Fault Refusal :=
  .next (rowWrite s by_ index sub (fun s => writeObject s by_ index sub value))

/-! Rows named after writes. The FW_RX and CFG_RX rows are writes of the sideband master, whose way to the ROM loader they are. -/

/-- SEC_LOCK (R322). -/
def execSecLock (by_ : Master) (s : State) : Host.Outcome State Fault Refusal :=
  .next (rowWrite s by_ 0x7000 0 (fun s => writeObject s by_ 0x7000 0 [1]))
/-- ERR_ACK (R364, R375). -/
def execErrAck (by_ : Master) (entry : Word32) (s : State) : Host.Outcome State Fault Refusal :=
  .next (rowWrite s by_ 0x600B 0 (fun s => writeObject s by_ 0x600B 0 (natLe 4 entry.toNat)))
/-- DUMP_CLEAR (R364, R379). -/
def execDumpClear (by_ : Master) (s : State) : Host.Outcome State Fault Refusal :=
  .next (rowWrite s by_ 0x600A 0 (fun s => writeObject s by_ 0x600A 0 [1]))
/-- EVIDENCE_REQ (R391). -/
def execEvidenceReq (by_ : Master) (value : Bytes) (s : State) : Host.Outcome State Fault Refusal :=
  .next (rowWrite s by_ 0x7030 0 (fun s => writeObject s by_ 0x7030 0 value))

/-- A write that module firmware or the ROM loader serves, answered to the sideband master (R400, R402). -/
def rxWrite (s : State) (i : Nat) (act : State → State × Nat) : State :=
  if masterReaches s .sideband then
    let s1 := writeStart s .sideband
    let o := (objAt i 0).getD ⟨0, .ro, false⟩
    let r := if !(dictServes s || loaderServes s) then (s1, stBusyOtherMaster)
      else if writeForbidden s o i then (s1, stDictAccess) else act s1
    emit r.1 (.dictAnswer .sideband i 0 r.2 (dictCounter r.1 i 0))
  else s

/-- FW_RX_LEN, FW_RX_DATA, FW_RX_CMD (R402). -/
def execFwRxLen (v : Word32) (s : State) : Host.Outcome State Fault Refusal := .next (rxWrite s 0x7020 (fun s => fwRxSetLen s v.toNat))
def execFwRxData (data : Bytes) (s : State) : Host.Outcome State Fault Refusal :=
  .next (rxWrite s 0x7021 (fun s => fwRxPut s (padTo 1024 data)))
def execFwRxVerify (s : State) : Host.Outcome State Fault Refusal := .next (rxWrite s 0x7022 (fun s => fwRxCommand s 1 .ok .ok))
def execFwRxActivateBoot (m0 m1 : Media) (s : State) : Host.Outcome State Fault Refusal :=
  .next (rxWrite s 0x7022 (fun s => fwRxCommand s 2 m0 m1))
def execFwRxAbort (s : State) : Host.Outcome State Fault Refusal := .next (rxWrite s 0x7022 (fun s => fwRxCommand s 3 .ok .ok))

/-- CFG_RX_LEN, CFG_RX_DATA, CFG_RX_CMD (R387, R402). -/
def execCfgRxLen (v : Word32) (s : State) : Host.Outcome State Fault Refusal := .next (rxWrite s 0x7024 (fun s => cfgRxSetLen s v.toNat))
def execCfgRxData (data : Bytes) (s : State) : Host.Outcome State Fault Refusal :=
  .next (rxWrite s 0x7025 (fun s => cfgRxPut s (padTo 1024 data)))
def execCfgRxInstall (s : State) : Host.Outcome State Fault Refusal := .next (rxWrite s 0x7026 (fun s => cfgRxCommand s 1))
def execCfgRxAbort (s : State) : Host.Outcome State Fault Refusal := .next (rxWrite s 0x7026 (fun s => cfgRxCommand s 3))

end Sys2Proof.Machine
end

