-- ==== Sys2Proof/Machine/Sideband.lean ====
section
/-! DEFINITION. The sideband: reception of XSDP datagrams, sequence state of peers, event acknowledgements and repetitions, PLCA status,
Neighbor Discovery and echo (R313 to R320). -/

namespace Sys2Proof.Machine

open Sys2Proof

/-! Header fields of a request (R316). -/

def xdBoot (h : BitVec 256) : Word32 := BitVec.ofNat 32 (field h 224 32)
def xdLen (h : BitVec 256) : Nat := field h 112 16
def xdIndex (h : BitVec 256) : Nat := field h 80 16
def xdSub (h : BitVec 256) : Nat := field h 72 8
def xdSeq (h : BitVec 256) : BitVec 16 := BitVec.ofNat 16 (field h 16 16)
def xdType (h : BitVec 256) : Nat := field h 8 8
def xdVer (h : BitVec 256) : Nat := field h 0 8

/-- Rsvd bits of the header are 0 (R316). -/
def xdRsvdOk (h : BitVec 256) : Bool := field h 65 7 == 0 && field h 32 32 == 0

/-- The length places no tag (R316). -/
def lengthBad (f : Frame) : Bool := f.len < 48 || 1024 < xdLen f.header || f.len != 48 + xdLen f.header

/-- VER or TYPE that no request and no acknowledgement has (R316). -/
def typeBad (f : Frame) : Bool := xdVer f.header != 1 || !(xdType f.header == 1 || xdType f.header == 3 || xdType f.header == 6)

/-- The value, LEN bytes of it. -/
def xdValue (f : Frame) : Bytes := padTo (xdLen f.header) f.value

/-- Counters SB_AUTH_FAIL and SB_SEQ_DROP (R328). -/
def countAuth (s : State) : State := { s with sb := { s.sb with authFail := s.sb.authFail + 1 } }
def countSeq (s : State) : State := { s with sb := { s.sb with seqDrop := s.sb.seqDrop + 1 } }

/-! Peers (R318). -/

/-- The sequence state of a peer. -/
def peerAt (s : State) (a : Nat) : Option Peer := s.sb.peers.find? (fun p => p.addr == a)

/-- A peer's state put in place; of a ninth peer, the one heard least recently is dropped (R318). -/
def putPeer (s : State) (p : Peer) : State :=
  let rest := s.sb.peers.filter (fun x => x.addr != p.addr)
  let kept := if rest.length < 8 then rest else
    (match rest with
     | [] => []
     | x :: xs =>
       let old := xs.foldl (fun (a b : Peer) => if b.heard < a.heard then b else a) x
       rest.filter (fun y => y.addr != old.addr))
  { s with sb := { s.sb with peers := kept ++ [p] } }

/-- A peer of which state is held was heard now (R318). -/
def hearPeer (s : State) (a : Nat) : State :=
  { s with sb := { s.sb with peers := updateFirst (fun (p : Peer) => p.addr == a) (fun p => { p with heard := now s }) s.sb.peers } }

/-! Responses (R316, R318). -/

/-- The header of a response to a frame. -/
def responseHeader (s : State) (f : Frame) (status len : Nat) (change : Word32) (retx : Bool) : BitVec 256 :=
  xsdpHeader s.time.bootCount (now s) change len status (xdIndex f.header) (xdSub f.header) retx (xdSeq f.header) (xdType f.header + 1)

/-- The change counter of the object that a frame addresses (R316). -/
def counterOf (s : State) (f : Frame) : Word32 := dictCounter s (xdIndex f.header) (xdSub f.header)

/-- A response is sent. -/
def respond (s : State) (f : Frame) (status : Nat) (change : Word32) (value : Bytes) : State :=
  sendFrame s f.peer (responseHeader s f status value.length change false) value

/-- A response is sent and kept in the peer's cache as its answer to an accepted SEQ, the last 16 of them (R318). -/
def respondKept (s : State) (f : Frame) (status : Nat) (change : Word32) (value : Bytes) : State :=
  let h := responseHeader s f status value.length change false
  let s1 := sendFrame s f.peer h value
  let keep := fun (p : Peer) => { p with last := some (xdSeq f.header), cache := ((xdSeq f.header, h, value) :: p.cache).take 16 }
  { s1 with sb := { s1.sb with peers := updateFirst (fun (p : Peer) => p.addr == f.peer) keep s1.sb.peers } }

/-- A cached response sent again, RETX saying that it repeats an earlier frame (R316, R318). -/
def respondAgain (s : State) (f : Frame) (h : BitVec 256) (value : Bytes) : State :=
  sendFrame s f.peer (h ||| BitVec.ofNat 256 (2 ^ 64)) value

/-- What a request answers, executed: READ, or WRITE; during a fatal sequence only LOG_PAGE, LOG_SELECTOR and LOG_OFFSET are written
(R322, R379). The state after, the status, the change counter and the value. -/
def runRequest (s : State) (f : Frame) : State × Nat × Word32 × Bytes :=
  let i := xdIndex f.header
  let j := xdSub f.header
  if xdType f.header == 1 then
    let r := readObject s .sideband i j
    (s, r.1, dictCounter s i j, r.2)
  else if isFatal s && i != 0xA000 then (s, stBusyOtherMaster, dictCounter s i j, [])
  else
    let r := noteWrite .sideband i j (writeObject (writeStart s .sideband) .sideband i j (xdValue f))
    (r.1, r.2, dictCounter r.1 i j, [])

/-- MGMT asked to wake by a frame (R320, R343, R345). -/
def wakeMgmt (s : State) : State := rouseMgmt s 0x02

/-- A frame handed over to MGMT: asleep, it is woken; the sill's own answers and the ROM loader's need no wake (R320, R345, R400). -/
def handFrame (s : State) : State := if mgmtServes s then wakeMgmt s else s

/-- A request executed without sequence state, and one that becomes the peer's last accepted (R318). -/
def runOpen (s : State) (f : Frame) : State :=
  let r := runRequest (handFrame s) f
  respond r.1 f r.2.1 r.2.2.1 r.2.2.2
def runKept (s : State) (f : Frame) : State :=
  let r := runRequest (handFrame s) f
  respondKept r.1 f r.2.1 r.2.2.1 r.2.2.2

/-! Who serves a request (R320, R400). -/

/-- Objects whose reads the sill answers itself (R320). -/
def sillReads (i j : Nat) : Bool := i == 0x1000 || i == 0x1001 || i == 0x1010 || (i == 0x2000 && j == 2)

/-- Requests that the ROM loader serves: the objects of R402 and reads of 0x1000, 0x1001 and 0x1010 (R400, R402). -/
def loaderRequest (f : Frame) : Bool :=
  let i := xdIndex f.header
  (xdType f.header == 1 && (i == 0x1000 || i == 0x1001 || i == 0x1010)) || i == 0x7002 || i == 0x7003 ||
  (0x7020 ≤ i && i ≤ 0x7027) || i == 0x7030

/-- The request is served now: by MGMT, by the ROM loader, or as a read by the sill (R320, R400). -/
def requestServed (s : State) (f : Frame) : Bool :=
  mgmtServes s || (loaderServes s && loaderRequest f) || (xdType f.header == 1 && sillReads (xdIndex f.header) (xdSub f.header))

/-! Reception (R316 to R320). -/

/-- Untagged requests while SB_KEY is all zero: reads of the identity objects, and transfers to the ROM loader; the rest is refused
(R317, R402). -/
def openRequest (f : Frame) : Bool :=
  xdType f.header == 1 && (xdIndex f.header == 0x1000 || xdIndex f.header == 0x1001 || xdIndex f.header == 0x1010)
def receiveOpen (s : State) (f : Frame) : State :=
  let i := xdIndex f.header
  if openRequest f || (loaderServes s && xdType f.header == 3 && 0x7020 ≤ i && i ≤ 0x7026) then
    (if !xdRsvdOk f.header then respond s f stInvalidField (counterOf s f) [] else runOpen s f)
  else respond s f stDictAccess (counterOf s f) []

/-- The sequence rules of an authenticated request (R318, R320). -/
def receiveSequenced (s : State) (f : Frame) : State :=
  let seq := xdSeq f.header
  let read := xdType f.header == 1
  let served := requestServed s f
  let busy := fun (st : State) => wakeMgmt (respond st f stBusyOtherMaster (counterOf st f) [])
  match peerAt s f.peer with
  | none =>
    if !served then busy s
    else if read then runOpen s f
    else
      let b := Config.sequenceBase s.sb.draws
      let s1 := putPeer { s with sb := { s.sb with draws := s.sb.draws + 1 } } { addr := f.peer, base := b, heard := now s }
      respond s1 f stInvalidField (b.setWidth 32) []
  | some p =>
    let s := hearPeer s f.peer
    match p.cache.find? (fun c => c.1 == seq), p.last with
    | some c, _ => respondAgain s f c.2.1 c.2.2
    | none, none =>
      if seq == p.base then (if served then runKept s f else busy s)
      else if read then (if served then runOpen s f else busy s)
      else countSeq s
    | none, some l =>
      if 1 ≤ (seq - l).toNat && (seq - l).toNat ≤ 32767 then (if served then runKept s f else busy s) else countSeq s

/-- An acknowledged event is pending no more (R318, R319). -/
def takeAck (s : State) (f : Frame) : State :=
  { s with sb := { s.sb with events := s.sb.events.filter (fun e => e.seq != xdSeq f.header) } }

/-- No frame passes the PHY: AUX is absent, or the PHY stands in its own loopback (R421). -/
def phyDeaf (s : State) : Bool := !s.pins.auxGood || s.tap.loop.any (fun l => l.1 == 4)

/-- The frame reaches nobody: no AUX, the PHY in its own loopback, or MGMT's entry window (R342, R354, R421). -/
def frameLost (s : State) : Bool :=
  phyDeaf s ||
  (match (domainAt s 0).state with
   | .entering _ => decide (now s < (domainAt s 0).entryAt + 500)
   | _ => false)

/-- A datagram goes through the checks of R316 in their order. -/
def checkFrame (s : State) (f : Frame) : State :=
  if lengthBad f then countAuth s
  else if sbKey s != 0 && f.tag != Config.kmacXsdp (sbKey s) f.header (xdValue f) then countAuth s
  else if typeBad f then countSeq s
  else if xdType f.header == 6 then takeAck s f
  else if sbKey s == 0 then receiveOpen s f
  else if xdBoot f.header != s.time.bootCount then respond s f stInvalidField (counterOf s f) []
  else if !xdRsvdOk f.header then respond s f stInvalidField (counterOf s f) []
  else receiveSequenced s f

/-- A datagram that arrives: MGMT in retention is woken by every frame, which the sill keeps for it (R316, R345). -/
def receive (s : State) (f : Frame) : State := if frameLost s then s else handFrame (checkFrame s f)

/-- XSDP_READ, XSDP_WRITE, EVENT_ACK, and a datagram that is none of them (R316 to R319). -/
def execXsdpRead (f : Frame) (s : State) : Host.Outcome State Fault Refusal := .next (if xdType f.header == 1 then receive s f else s)
def execXsdpWrite (f : Frame) (s : State) : Host.Outcome State Fault Refusal := .next (if xdType f.header == 3 then receive s f else s)
def execEventAck (f : Frame) (s : State) : Host.Outcome State Fault Refusal := .next (if xdType f.header == 6 then receive s f else s)
def execXsdpMalformedDatagram (f : Frame) (s : State) : Host.Outcome State Fault Refusal :=
  .next (if lengthBad f || typeBad f then receive s f else s)

/-- EVENT_RETRANSMIT: 2 ms after the last sending, five attempts in all (R319). -/
def execEventRetransmit (seq : Nat) (s : State) : Host.Outcome State Fault Refusal :=
  .next
    (match s.sb.events.find? (fun e => e.seq.toNat == seq) with
     | none => s
     | some e =>
       if !mgmtAwake s then s
       else
         let s1 := advanceTo s (e.sentAt + 2000000)
         if 5 ≤ e.attempts then { s1 with sb := { s1.sb with events := s1.sb.events.filter (fun x => x.seq != e.seq) } }
         else
           let s2 := emitEvent s1 e.seq true e.code e.data
           { s2 with sb := { s2.sb with events := s2.sb.events.map (fun x =>
               if x.seq == e.seq then { x with attempts := x.attempts + 1, sentAt := now s2 } else x) } })

/-- PLCA_STATUS_CHANGE: CSMA/CD while the status is inactive (R313). -/
def execPlcaStatusChange (active : Bool) (s : State) : Host.Outcome State Fault Refusal :=
  .next (if s.pins.auxGood then { s with sb := { s.sb with plcaActive := active } } else s)

/-- NEIGHBOR_DISCOVERY: answered for the module's link-local address with its MAC address (R315). -/
def execNeighborDiscovery (target : Nat) (s : State) : Host.Outcome State Fault Refusal :=
  .next (if !phyDeaf s && target == leNat linkLocal then emit s (.netReply target sidebandMac) else s)

/-- ICMPV6_ECHO (R315). -/
def execIcmpv6Echo (peer : Nat) (payload : Bytes) (s : State) : Host.Outcome State Fault Refusal :=
  .next (if phyDeaf s then s else emit s (.netReply peer payload))

end Sys2Proof.Machine
end

