-- ==== Sys2Proof/Machine/Copy.lean ====
section
/-! DEFINITION. COPY (R216, R224, R226, R236, R245, R247, R277, R363). -/

namespace Sys2Proof.Machine

open Sys2Proof

def copyLen (c : Cmd) : Nat := field c.sqe 64 48
def copySrcDev (c : Cmd) : Bool := flag c.sqe 112
def copyDstDev (c : Cmd) : Bool := flag c.sqe 113
def copyHint (c : Cmd) : Nat := field c.sqe 114 2

/-- The device range read by a COPY: STREAM takes no frame, LAST leaves the sectors it covers clean and unspecified (R226). -/
def copyRead (s : State) (hint addr n : Nat) : State × Bytes :=
  let s1 := (pagesOf addr n).foldl (fun st p =>
    let h := effectiveHint st hint p
    if h == 1 then st
    else touchPage (bringPage st p h) p h) s
  let bs := devRead s1 addr n
  ((wholeSectors addr n).foldl (fun st k => if effectiveHint st hint (k / pageBytes) == 3 then afterLast st k else st) s1, bs)

/-- Bytes before the first poisoned block of a source, counted in blocks from its start (R236). -/
def cleanBytes (s : State) (addr n : Nat) : Nat :=
  match (List.range (n / 64)).find? (fun i => devPoison s (addr + 64 * i)) with
  | some i => 64 * i
  | none => n

/-- FLASH pages of a destination (R224). -/
def flashPages (s : State) (addr n : Nat) : List Nat :=
  (pagesOf addr n).filter (fun p => match regionOfPage s p with
    | some r => r.kind == 2
    | none => false)

/-- The field checks of a COPY (R216, R277). -/
def copyFieldsOk (s : State) (ctx : Nat) (c : Cmd) : Bool :=
  let n := copyLen c
  64 ≤ n && n ≤ 2 ^ 40 && n % 64 == 0 && (copySrcDev c || copyDstDev c) &&
  (!copySrcDev c || inSpace s ctx (sqePtr0 c.sqe) n) && (!copyDstDev c || inSpace s ctx (sqePtr1 c.sqe) n)

/-- COPY: data carries what a host source read, m whether a device-range source met an uncorrectable error besides poison; how far such
a copy came is then a free value, and the block where it stopped is poisoned (R236). A copy into FLASH pages completes once every frame that it wrote is written back, one that stopped midway
too (R224, R277). -/
def execCopy (q cid : Nat) (data : Bytes) (m : Media) (s : State) : Host.Outcome State Fault Refusal :=
  .next
    (withIo s q cid 0x08 (fun s c =>
      let n := copyLen c
      let src := sqePtr0 c.sqe
      let dst := sqePtr1 c.sqe
      let pages := if copyDstDev c then flashPages s dst n else []
      if !copyFieldsOk s (ctxOfQueue s q) c then endCmd s q c stInvalidField 0
      else if pages.any (fun p => decide (2 ≤ groupLevelNow s (homeGroup s p))) then endCmd s q c stCapacitySpare 0
      else if !copySrcDev c && data.length < n then
        endCmd (updLinkCounters s (bayOfQueue s q) (fun k => { k with hostFaults := wrapAdd 64 k.hostFaults 1 })) q c stHostFault 0
      else if beHeld s then s
      else
        let s0 := if copySrcDev c && m == .uncorrectable then bumpFree s else s
        let clean := if copySrcDev c then cleanBytes s src n else n
        let whole := if copySrcDev c && m == .uncorrectable then min clean (64 * ((freshValue s).toNat % (n / 64))) else clean
        let r := if copySrcDev c then copyRead s0 (copyHint c) src whole else (hostRead s0 src n, data.take n)
        let t := if copySrcDev c && m == .uncorrectable then poisonDev r.1 (src + whole) else r.1
        let s1 := if copyDstDev c then devWriteHint t (copyHint c) dst r.2 else emit t (.hostWrite q cid r.2)
        let ctx := ctxOfQueue s1 q
        let status := if whole < n then stMediaUe else stOk
        let mine := (if whole < n then flashPages s dst whole else pages).filter (fun p => match frameOfPage s1 p with
          | some e => e.dirty != 0 || e.state == .writeback
          | none => false)
        if mine == [] || !copyDstDev c then progressCtx (endCmd s1 q c status whole) ctx
        else
          let s2 := startCmd s1 q c (fun d => { d with pages := mine, status := status, result := whole })
          (mine.filterMap (descOfPage s2)).foldl startWriteback s2))

end Sys2Proof.Machine
end

