-- ==== Sys2Proof/Machine/PegRows.lean ====
section
/-! DEFINITION. The peg rows: PEG_OP on a queue pair, tries of a cut's thread, the timeout of a wait and the repetition of a
lost signal (R277, R306 to R311, R345). -/

namespace Sys2Proof.Machine

open Sys2Proof

/-- PEG_OP with a given OP on a queue pair: the peg unit answers, or the command waits (R277, R309). -/
def pegHost (op q cid : Nat) (s : State) : State :=
  withIo s q cid 0x09 (fun s c =>
    if field c.sqe 84 4 != op then s
    else
      let ctx := ctxOfQueue s q
      let p := field c.sqe 64 17
      let v : Word64 := BitVec.ofNat 64 (field c.sqe 128 64)
      let r := pegOp op (pegTurn s p 160) ctx p v
      match r.2 with
      | .ended st result => progressCtx (endCmd r.1 q c st result) ctx
      | .waits k => beginWait r.1 q c ctx p k v)

/-- The answer that a thread's try gets is kept: whether it was satisfied, VALUE, and the broken indication; a thread that waited for it
is ready again (R164, R309, R310). -/
def threadAnswer (s : State) (ctx thr p : Nat) (ok broken : Bool) : State :=
  let v := ((pegAt s p).map (fun x => x.value)).getD 0
  let s1 := { s with bay := { s.bay with threadResults := s.bay.threadResults ++ [(ctx, thr, p, ok, v, broken)] } }
  if (threadAt s1 thr).wait == some (.peg p) then setThread s1 { threadAt s1 thr with wait := none } else s1

/-- A try by a cut's thread: tests and ACQUIRE never wait in the peg unit; a peg that the context may not use is a fault of the context
(R304, R309, R310). -/
def pegThread (op ctx thr p : Nat) (v : Word64) (s : State) : State :=
  if (ctxAt s ctx).isNone then s
  else
    let broken := (pegAt s p).any (fun x => x.broken) && 2 ≤ op && op ≤ 4
    let r := pegOp op (pegTurn s p (thr / 16384)) ctx p v
    match r.2 with
    | .ended st _ =>
      if st == stNotFound then faultContext s ctx faultPeg
      else threadAnswer r.1 ctx thr p (st == stOk || st == stPegBroken) broken
    | .waits _ => threadAnswer r.1 ctx thr p false broken

/-- A peg operation by its issuer. -/
def pegBy (op : Nat) (i : PegIssuer) (s : State) : State :=
  match i with
  | .host q cid => pegHost op q cid s
  | .thread ctx thr p v => pegThread op ctx thr p v s

/-- PEG_SET (R307, R309). -/
def execPegSet (i : PegIssuer) (s : State) : Host.Outcome State Fault Refusal := .next (pegBy 0 i s)
/-- PEG_ADD (R309). -/
def execPegAdd (i : PegIssuer) (s : State) : Host.Outcome State Fault Refusal := .next (pegBy 1 i s)
/-- PEG_WAIT_GE (R309). -/
def execPegWaitGe (i : PegIssuer) (s : State) : Host.Outcome State Fault Refusal := .next (pegBy 2 i s)
/-- PEG_WAIT_EQ (R309). -/
def execPegWaitEq (i : PegIssuer) (s : State) : Host.Outcome State Fault Refusal := .next (pegBy 3 i s)
/-- PEG_ACQUIRE (R309, R310). -/
def execPegAcquire (i : PegIssuer) (s : State) : Host.Outcome State Fault Refusal := .next (pegBy 4 i s)
/-- PEG_RELEASE (R309). -/
def execPegRelease (i : PegIssuer) (s : State) : Host.Outcome State Fault Refusal := .next (pegBy 5 i s)

/-- PEG_WAIT_TIMEOUT: a wait that is not satisfied at its limit ends with ST_PEG_TIMEOUT (R309). -/
def execPegWaitTimeout (q cid : Nat) (s : State) : Host.Outcome State Fault Refusal :=
  .next
    (match s.bay.waits.find? (fun w => w.q == q && w.cid == cid && !w.lost) with
     | some w =>
       (match w.limit with
        | some t => endWait (advanceTo s t) w stPegTimeout
        | none => s)
     | none => s)

/-- PEG_SIGNAL_REPEAT: a signal lost while CXL or an array slept is sent again; waits still satisfied are served (R345). -/
def execPegSignalRepeat (peg : Nat) (s : State) : Host.Outcome State Fault Refusal :=
  .next
    (let waits := s.bay.waits.map (fun w => if w.peg == peg then { w with lost := false } else w)
     settlePeg { s with bay := { s.bay with waits := waits } } peg)

end Sys2Proof.Machine
end

