-- ==== Sys2Proof/Machine/QueueCmds.lean ====
section
/-! DEFINITION. Doorbells, the admin queue's registers, consumption of submission entries, interrupts, host read faults,
batch completions, and the creation and deletion of queue pairs (R254 to R265, R273, R279). -/

namespace Sys2Proof.Machine

open Sys2Proof

/-- A doorbell reaches its target: CXL and FAB wake when they are not on, and the latch keeps its DTB (R343, R344). -/
def doorbellWake (s : State) : State :=
  if (domainAt s 2).state == .on then s
  else
    let s1 := startWake (startWake s 3 0x01) 2 0x01
    { s1 with power := { s1.power with doorbellLatch := some (s.power.doorbellLatch.getD (now s)) } }

/-- A doorbell write to a pair that is dropped is counted by its cause; otherwise it acts (R240, R251, R258). -/
def doorbell (s : State) (fn q : Nat) (v depth : Nat) (act : State → State) : State :=
  if !s.link.up then s
  else if s.link.degraded then updLinkCounters s fn (fun c => { c with dbDegraded := wrapAdd 64 c.dbDegraded 1 })
  else
    match pairOf s q with
    | none => updLinkCounters s fn (fun c => { c with dbStopped := wrapAdd 64 c.dbStopped 1 })
    | some p =>
      if p.bay != fn then updLinkCounters s fn (fun c => { c with dbWrongFn := wrapAdd 64 c.dbWrongFn 1 })
      else if p.stopped || p.deleting.isSome || p.reclaimed then
        updLinkCounters s fn (fun c => { c with dbStopped := wrapAdd 64 c.dbStopped 1 })
      else if depth ≤ v then updLinkCounters s fn (fun c => { c with dbBadValue := wrapAdd 64 c.dbBadValue 1 })
      else act s

/-- The mark of a doorbell that makes entries visible, with its DTB; one that repeats the tail shows none (R109). -/
def addMark (u : Queue) (tail t : Nat) : List (Nat × Nat) := if tail == u.sqTail then u.marks else u.marks ++ [(tail, t)]

/-- SQ_TAIL_DOORBELL: the tail moves and the arrival DTB of its entries is kept; bits [31:16], which are Rsvd, are ignored (R9, R109, R258;
DESIGN CHOICE, log entry 123). -/
def execSqTailDoorbell (fn q : Nat) (v : Word32) (s : State) : Host.Outcome State Fault Refusal :=
  .next
    (let tail := v.toNat % 65536
     let depth := match pairOf s q with
       | some p => p.q.sqDepth
       | none => 0
     doorbell s fn q tail depth (fun s =>
       doorbellWake (updQueue s q (fun u => { u with sqTail := tail, marks := addMark u tail (now s) }))))

/-- CQ_HEAD_DOORBELL: a doorbell write like the other; bits [31:16], which are Rsvd, are ignored (R9, R258, R343; DESIGN CHOICE,
log entry 123). -/
def execCqHeadDoorbell (fn q : Nat) (v : Word32) (s : State) : Host.Outcome State Fault Refusal :=
  .next
    (let head := v.toNat % 65536
     let depth := match pairOf s q with
       | some p => p.q.cqDepth
       | none => 0
     doorbell s fn q head depth (fun s => doorbellWake (updQueue s q (fun u => { u with cqHead := head }))))

/-- An admin doorbell acts while ENABLE is 1 and its value lies below the depth (R256, R258). -/
def adminDoorbell (s : State) (v depth : Nat) (act : Queue → Queue) : State :=
  if !s.link.up then s
  else if s.link.degraded then updLinkCounters s 0 (fun c => { c with dbDegraded := wrapAdd 64 c.dbDegraded 1 })
  else if !flag s.queues.adminCfg 63 then updLinkCounters s 0 (fun c => { c with dbStopped := wrapAdd 64 c.dbStopped 1 })
  else if depth ≤ v then updLinkCounters s 0 (fun c => { c with dbBadValue := wrapAdd 64 c.dbBadValue 1 })
  else doorbellWake (updQueue s adminQ act)

/-- ADMIN_SQ_TAIL (R256). -/
def execAdminSqTail (v : Word32) (s : State) : Host.Outcome State Fault Refusal :=
  .next
    (let tail := v.toNat % 65536
     adminDoorbell s tail s.queues.admin.sqDepth (fun u => { u with sqTail := tail, marks := addMark u tail (now s) }))

/-- ADMIN_CQ_HEAD (R256). -/
def execAdminCqHead (v : Word32) (s : State) : Host.Outcome State Fault Refusal :=
  .next
    (let head := v.toNat % 65536
     adminDoorbell s head s.queues.admin.cqDepth (fun u => { u with cqHead := head }))

/-- Defined bits of ADMIN_CFG (R256). -/
def adminCfgMask : Word64 := BitVec.ofNat 64 (2 ^ 63 + 0x7FF * 2 ^ 32 + 0xFFF * 2 ^ 16 + 0xFFF)

/-- ADMIN_ENABLE: the bases and ADMIN_CFG are written with ENABLE 1; ignored while ENABLE is 1, and a depth field of 0 leaves
it 0 (R256, R257). The queues start at entry 0 with phase 1. -/
def execAdminEnable (sqBase cqBase cfg : Word64) (s : State) : Host.Outcome State Fault Refusal :=
  .next
    (if !s.link.up || flag s.queues.adminCfg 63 then s
     else
       let c := cfg &&& adminCfgMask
       let depths := field c 0 12 != 0 && field c 16 12 != 0
       let enabled := if depths then c ||| (1#64 <<< 63) else c &&& ~~~(1#64 <<< 63)
       { s with queues := { s.queues with
           adminCfg := enabled,
           admin := { sqBase := sqBase.toNat, cqBase := cqBase.toNat, sqDepth := field c 0 12 + 1,
                      cqDepth := field c 16 12 + 1, msix := field c 32 11, intEn := true } } })

/-- ADMIN_DISABLE: fetching stops; commands already started run on, and their completions are not written, not even after another
ADMIN_ENABLE (R257). -/
def execAdminDisable (s : State) : Host.Outcome State Fault Refusal :=
  .next
    (if !s.link.up then s
     else
       let s1 := dropAdminCids s
       { s1 with queues := { s1.queues with
           adminCfg := s1.queues.adminCfg &&& ~~~(1#64 <<< 63),
           admin := { s1.queues.admin with cmds := [] } } })

/-! Consumption (R262, R263, R279). -/

/-- The queue fetches entries: enabled, not stopped and not being deleted (R257, R259, R273). -/
def queueFetches (s : State) (q : Nat) : Bool :=
  if q == adminQ then flag s.queues.adminCfg 63 && !s.queues.admin.halted
  else
    match pairOf s q with
    | some p => !p.stopped && p.deleting.isNone && !p.reclaimed
    | none => false

/-- The entry at the head taken off: the head moves, and a doorbell mark whose entries are all consumed goes (R109, R262). -/
def advanceHead (u : Queue) : Queue :=
  let h := (u.sqHead + 1) % max 1 u.sqDepth
  { u with sqHead := h, consumed := u.consumed + 1,
           marks := (match u.marks with
             | (t, d) :: r => if t == h then r else (t, d) :: r
             | [] => []) }

/-- The record of a consumed entry. -/
def consumedCmd (u : Queue) (sqe : BitVec 512) (t : Nat) : Cmd :=
  { cid := sqeCid sqe, sqe := sqe, arrival := (match u.marks with
      | (_, d) :: _ => d
      | [] => t),
    sqHead := (u.sqHead + 1) % max 1 u.sqDepth, seq := u.consumed }

/-- An entry that no row of the command set decides is refused at once: an opcode that is Rsvd or on the wrong kind of queue,
an admin command while MGMT does not serve it, a Rsvd peg operation, a Rsvd self-test (R256, R272, R279, R379). -/
def earlyRefusal (s : State) (q : Nat) (c : Cmd) : Option Nat :=
  let op := sqeOpcode c.sqe
  let known := if q == adminQ then adminOpcodes.contains op else ioOpcodes.contains op
  if !known then some stInvalidOpcode
  else if q == adminQ && !adminServes s c then some stBusyOtherMaster
  else if op == 0x09 && 6 ≤ field c.sqe 84 4 then some stInvalidField
  else if op == 0x88 && field c.sqe 64 2 == 0 then some stInvalidField
  else none

/-- An entry decided at its consumption waits while an earlier entry is undecided, or its fence is not met (R282). -/
def refusalWaits (u : Queue) (c : Cmd) : Bool :=
  u.cmds.any (fun d => d.phase == .consumed) || (sqeFence c.sqe && u.cmds != [])

/-- A queue has an entry to fetch now: it is served, fetches, is not empty, and of the admin queue at most 64 commands run (R240, R257, R259,
R279). -/
def entryDue (s : State) (q : Nat) (u : Queue) : Bool :=
  s.link.up && !s.link.degraded && queueFetches s q && u.sqHead != u.sqTail && !(q == adminQ && 64 ≤ u.cmds.length)

/-- SUBMISSION_CONSUME: the entry at the head, as read from host memory, is consumed when a completion slot is free
(R262, R263, R265, R279, R282). -/
def execSubmissionConsume (q : Nat) (sqe : BitVec 512) (s : State) : Host.Outcome State Fault Refusal :=
  .next
    (match queueOf s q with
     | none => s
     | some u =>
       if !entryDue s q u then s
       else if !cqSlotFree u then
         updLinkCounters s (bayOfQueue s q) (fun c => { c with cqSlotWaits := wrapAdd 64 c.cqSlotWaits 1 })
       else
         let c := consumedCmd u sqe (now s)
         match earlyRefusal s q c with
         | none => updQueue s q (fun u => { advanceHead u with cmds := u.cmds ++ [c] })
         | some st =>
           if refusalWaits u c then s
           else endCmd (updQueue s q (fun u => { advanceHead u with cmds := u.cmds ++ [c] })) q c st 0)

/-- MSIX_COALESCE_TIMER: 50 µs after the oldest uncovered entry the message is sent (R260). -/
def execMsixCoalesceTimer (q : Nat) (s : State) : Host.Outcome State Fault Refusal :=
  .next
    (match queueOf s q with
     | some u => if u.intEn && 0 < u.uncovered then sendMsix (advanceTo s (u.oldest + 50000)) q else s
     | none => s)

/-- A submission entry that could not be read is consumed, and its command ends; its CID, which was not read, is a free value (R262, R265; log entry
142). -/
def failEntry (s : State) (q : Nat) (u : Queue) : State :=
  let c := { consumedCmd u 0 (now s) with cid := (freshValue s).toNat % 65536 }
  endCmd (updQueue (bumpFree s) q (fun u => { advanceHead u with cmds := u.cmds ++ [c] })) q c stHostFault 0

/-- HOST_READ_FAULT: a failed entry read stops the queue and ends that entry's command; a failed block ends the command and a failed position ends
its query, with ST_HOST_FAULT (R259, R265). -/
def execHostReadFault (q cid : Nat) (t : ReadTarget) (s : State) : Host.Outcome State Fault Refusal :=
  .next
    (match queueOf s q with
     | none => s
     | some u =>
       let s1 := updLinkCounters s (bayOfQueue s q) (fun c => { c with hostFaults := wrapAdd 64 c.hostFaults 1 })
       match t with
       | .entry =>
         if !entryDue s q u || !cqSlotFree u then s
         else
           let s2 := failEntry s1 q u
           if q == adminQ then updQueue s2 q (fun u => { u with halted := true })
           else updPair s2 q (fun p => { p with stopped := true })
       | .block =>
         match nextUndecided u with
         | some c => if c.cid == cid then endCmd s1 q c stHostFault 0 else s
         | none => s
       | .position i =>
         match s.adm.queries.find? (fun x => x.q == q && x.cid == cid && x.pos == i && x.stage != .done) with
         | some x => failQuery s1 x stHostFault
         | none => s)

/-- BATCH_COMPLETION_POST: every accepted query has ended; the completion entry follows the last result write, and what
windows still hold returns; a context marked at grace expiry may end with it (R124, R128, R244, R271, R301). -/
def execBatchCompletionPost (q cid : Nat) (s : State) : Host.Outcome State Fault Refusal :=
  .next
    (match runningCmd s q cid with
     | some c =>
       let op := sqeOpcode c.sqe
       if (op == 0x07 || (1 ≤ op && op ≤ 4)) && batchOver s q cid then endReclaimed (postBatch s q cid) (ctxOfQueue s q) else s
     | none => s)

/-! Queue pairs (R254, R255, R273). -/

/-- Fields of QP_CREATE lie in their ranges (R107, R255, R273). -/
def qpFieldsOk (e : BitVec 512) : Bool :=
  let lc := flag e 104
  let d := field e 192 32
  1 ≤ field e 128 16 && 1 ≤ field e 144 16 && 1 ≤ field e 112 10 && field e 112 10 ≤ 512 &&
  (if lc then 300000 ≤ d && d ≤ 1000000000 else d == 0) && sqePtr0 e % 4096 == 0 && sqePtr1 e % 4096 == 0

/-- The pair that QP_CREATE describes. -/
def newPair (e : BitVec 512) : QPair :=
  { id := field e 64 12, ctx := field e 80 12, bay := field e 96 6, lc := flag e 104, dqp := field e 192 32,
    bsize := field e 112 10,
    q := { sqBase := sqePtr0 e, cqBase := sqePtr1 e, sqDepth := field e 128 16 + 1, cqDepth := field e 144 16 + 1,
           msix := field e 160 11, intEn := flag e 171 } }

/-- The pair added, with its context where it is new (R254). -/
def addPair (s : State) (p : QPair) : State :=
  let s1 := { s with queues := { s.queues with
    pairs := insertBy (fun a b => decide (a.id < b.id)) p s.queues.pairs } }
  if (ctxAt s p.ctx).isSome then s1
  else { s1 with bay := { s1.bay with contexts := s1.bay.contexts ++ [{ num := p.ctx, bay := p.bay, progress := now s }] } }

/-- QP_CREATE (R242, R254, R255, R273, R299, R332, R341). -/
def execQpCreate (cid : Nat) (s : State) : Host.Outcome State Fault Refusal :=
  .next (withAdmin s cid 0x82 (fun s c =>
    let p := newPair c.sqe
    if (p.lc && refitHolds s 0x2000 1) || (p.bay == 0 && refitHolds s 0x3000 0) then s
    else if bayReclaiming s p.bay then endCmd s adminQ c stInProgress 0
    else if !qpFieldsOk c.sqe || (pairOf s p.id).isSome || !fnEnabled s p.bay ||
        (match ctxAt s p.ctx with
         | some x => x.bay != p.bay || x.ending
         | none => false) then
      endCmd s adminQ c stInvalidField 0
    else if (bayAt s p.bay).qpairs ≤ (s.queues.pairs.filter (fun x => x.bay == p.bay)).length then
      endCmd s adminQ c stNoResource 0
    else
      let t := addPair s p
      if liftsFloor s t then endCmd s adminQ c stNoResource 0
      else completeAfterWake (startCmd t adminQ c) adminQ c.cid stOk 0))

/-- QP_DELETE: doorbells stop and unconsumed entries are discarded; the command completes with QP_DELETE_COMPLETE (R273). -/
def execQpDelete (cid : Nat) (s : State) : Host.Outcome State Fault Refusal :=
  .next (withAdmin s cid 0x83 (fun s c =>
    let q := field c.sqe 64 12
    match pairOf s q with
    | none => endCmd s adminQ c stNotFound 0
    | some p =>
      if p.deleting.isSome then endCmd s adminQ c stInProgress 0
      else
        updPair (startCmd s adminQ c) q (fun p => { p with
          deleting := some c.cid, afterDelete := 0, q := { p.q with sqTail := p.q.sqHead, marks := [] } })))

/-- QP_DELETE_COMPLETE: the last consumed command has completed (R254, R271, R273, R301). -/
def execQpDeleteComplete (qp : Nat) (s : State) : Host.Outcome State Fault Refusal := .next (finishDelete s qp)

end Sys2Proof.Machine
end

