-- ==== Sys2Proof/Machine/RimeRows.lean ====
section
/-! DEFINITION. The rime rows: a request is submitted, runs in segments between refreshes and pauses and ends; the commands of the unit;
the aperture's control writes and RCFG (R22, R194 to R205, R207, R212, R304). -/

namespace Sys2Proof.Machine

open Sys2Proof

/-- A request ends; UNINIT, BOUNDS and ILLEGAL are faults of its context (R198, R304). What waited for it goes on: frames to vacate, the
forced save of its bay (R213, R366). -/
def endRequest (s : State) (r : RimeReq) (u : RimeUnit) (code : Nat) : State :=
  let s1 := settleExpiry (vacateLate (finishRequest s r u code)) (bayOfCtx s r.ctx)
  if code == 3 || code == 4 || code == 5 then faultContext s1 r.ctx faultRime else s1

/-- Class and deadline of a request: those of the query slot of its thread, or its context's class where no slot applies: LC when the
context has an LC pair, after every LC request with a deadline (R196; log entry 111). -/
def requestClass (s : State) (slot : Option Nat) (ctx : Nat) : Option (Bool × Nat) :=
  match slot with
  | some n => (queryAt s n).bind (fun x => if x.ctx == ctx then some (x.lc, x.deadline) else none)
  | none => if (ctxAt s ctx).isSome then some (s.queues.pairs.any (fun p => p.ctx == ctx && p.lc), 2 ^ 64) else none

/-- A page lies in the rerank store or the drift rerank buffer of the index that the query's plan names (R50, R193). -/
def indexHome (s : State) (slot : Option Nat) (page : Nat) : Bool :=
  match (slot.bind (queryAt s)).bind (fun x => x.index.bind (indexAt s)) with
  | some i => i.parts.any (fun r => (r.part == .store || r.part == .driftBuffer) && r.base ≤ page && page < r.base + r.pages)
  | none => false

/-- The plan whose code issues a request: that of the query whose slot applies, otherwise the plan of the context that runs on the cell's
array (R165, R196; log entry 111). -/
def issuingPlan (s : State) (slot : Option Nat) (ctx cell : Nat) : Option Plan :=
  match slot.bind (queryAt s) with
  | some x => planAt s x.plan
  | none => s.bay.plans.find? (fun p => p.ctx == ctx && p.arrays.contains (cell / 64))

/-- The peg that SIGNAL_PEG names: a binding of the plan; an argument of a run names one only in a run (R172, R196; log entry 111). -/
def requestPeg (s : State) (slot : Option Nat) (p : Plan) (b : Nat) : Option Nat :=
  match slot.bind (queryAt s) with
  | some x => bindingPeg p x b
  | none => (p.pegs[b]?).bind (fun e => if e.kind == 1 then none else e.peg)

/-- The bank of a request's home piece: a bank-local piece of the context, or of the index that its query searches (R193, R198). -/
def homeBank (s : State) (slot : Option Nat) (ctx home : Nat) : Option Nat :=
  match frameOfPage s (home / pageBytes) with
  | some e =>
    if e.state == .local_ && home % pageBytes == 0 && (inSpace s ctx home pageBytes || indexHome s slot (home / pageBytes)) then some (e.num % 4096)
    else none
  | none => none

/-- RIME_REQUEST_SUBMIT: a thread of a cell submits the list that stands in its array's store; the request joins the queue of its home
piece's bank, or ends at once with ILLEGAL or BOUNDS. A list that holds SAVE or RESTORE is refused whole (R193, R194, R196 to
R198). -/
def execRimeRequestSubmit (slot : Option Nat) (ctx cell : Nat) (desc : BitVec 256) (s : State) : Host.Outcome State Fault Refusal :=
  .next
    (match requestClass s slot ctx with
     | none => s
     | some (lc, deadline) =>
       let s1 := { s with rime := { s.rime with ready := s.rime.ready.filter (fun b => b != (cell, rdReady desc)) } }
       let p := issuingPlan s slot ctx cell
       let r : RimeReq := { bank := 0, slot := slot, ctx := ctx, cell := cell, desc := desc, home := rdHome desc / pageBytes,
                            plan := p.map (fun v => v.handle), peg := p.bind (fun v => requestPeg s slot v (rdSignal desc)),
                            sector := p.bind (fun v => v.rimeSector), job := ((slot.bind (queryAt s)).map jobOf).getD (0, 0, 0, 0),
                            list := requestList s cell desc, lc := lc, deadline := deadline, arrival := now s }
       if !rdOk desc || r.list.any (fun w => rwOp w == 0x3E || rwOp w == 0x3F) then endRequest s1 r {} 5
       else
         match homeBank s1 slot ctx (rdHome desc) with
         | none => endRequest s1 r {} 4
         | some bank => setRimeBank s1 { rimeBank s1 bank with queue := (rimeBank s1 bank).queue ++ [{ r with bank := bank }] })

/-- When a segment of a bank must end: before the refresh gap, and before a retraining pause of the channel begins. A segment that would
reach the pause is shortened to end as it begins (R202, R203; the shortening for a pause is the model's, DESIGN CHOICE, log entry 108). -/
def segmentDue (s : State) (bank : Nat) : Nat :=
  let due := (rimeBank s bank).refreshed + refreshInterval s.health.refreshMult - 200
  match nextPause s (bank / 32) with
  | some p => min due p
  | none => due

/-- RIME_SEGMENT_START: the chosen request computes for at most the segment limit; less than 400 ns is not started; without a free
computing slot the start waits. A resumed request opens its row again, and the time since its last segment counts as used (R22,
R198, R202, R203). -/
def execRimeSegmentStart (bank : Nat) (s : State) : Host.Outcome State Fault Refusal :=
  .next
    (let s1 := chooseRequest s bank
     let b := rimeBank s1 bank
     let len := min (segmentLimit s1.health.refreshMult) (segmentDue s1 bank - now s1)
     if b.segment.isSome || !rimeEnabled s1 bank then s
     else
       match b.current with
       | none => s
       | some r =>
         if len < 400 then s
         else if !slotFree s1 bank then { s with rime := { s.rime with slotWaits := s.rime.slotWaits + 1 } }
         else
           let used := match b.unit.paused with
             | some (t, c) => max b.unit.cycles (c + ceilDiv (2 * (now s1 - t)) 5) + 12
             | none => b.unit.cycles
           let s2 := if r.lc then s1 else usePromoted s1 r.ctx 3 (ceilDiv len 1000)
           setRimeBank s2 { b with unit := { b.unit with susp := false, paused := none, cycles := used }, segment := some (now s1 + len) })

/-- RIME_SEGMENT_END: the unit is suspended, the slot released, and an LC request may displace a BE one (R202, R205). -/
def execRimeSegmentEnd (bank : Nat) (s : State) : Host.Outcome State Fault Refusal :=
  .next
    (let b := rimeBank s bank
     match b.segment with
     | none => s
     | some t =>
       let s1 := advanceTo s t
       preemptBank (setRimeBank s1 { b with segment := none, unit := { b.unit with susp := true, paused := some (now s1, b.unit.cycles) } }) bank)

/-- RIME_REQUEST_DONE: the list is executed or ended by a code; the slot is released (R196, R198, R205). -/
def execRimeRequestDone (bank : Nat) (s : State) : Host.Outcome State Fault Refusal :=
  .next
    (let b := rimeBank s bank
     match b.current with
     | none => s
     | some r =>
       if rimeBusy b then s
       else endRequest (setRimeBank s { b with current := none, segment := none, unit := {} }) r b.unit r.code)

/-- BANK_REFRESH: a per-bank refresh ends now; it closes the row, which a suspended request opens again (R202). -/
def execBankRefresh (bank : Nat) (s : State) : Host.Outcome State Fault Refusal :=
  .next
    (let b := rimeBank s bank
     if b.segment.isSome then s
     else setRimeBank s { b with refreshed := now s, unit := if b.unit.paused.isSome then b.unit else { b.unit with openRow := none } })

/-- BANK_ACCESS_DURING_RIME: the unit is suspended at a step boundary, the access served and the row reopened; the cycles
that this takes are not given (R204; free value, log entry 25). -/
def execBankAccessDuringRime (bank : Nat) (s : State) : Host.Outcome State Fault Refusal :=
  .next
    (let b := rimeBank s bank
     if b.segment.isNone then s
     else setRimeBank (bumpFree s) { b with unit := { b.unit with cycles := b.unit.cycles + (freshValue s).toNat % 2 ^ 32 } })

/-- NOP (R194). -/
def execNop (bank : Nat) (w : BitVec 128) (s : State) : Host.Outcome State Fault Refusal := .next (runWord s bank 0x00 w .ok [])
/-- CLR (R194). -/
def execClr (bank : Nat) (w : BitVec 128) (s : State) : Host.Outcome State Fault Refusal := .next (runWord s bank 0x01 w .ok [])
/-- LOADQ (R194). -/
def execLoadq (bank : Nat) (w : BitVec 128) (m : Media) (corrected : List Nat) (s : State) : Host.Outcome State Fault Refusal :=
  .next (runWord s bank 0x02 w m corrected)
/-- LOADR (R194). -/
def execLoadr (bank : Nat) (w : BitVec 128) (m : Media) (corrected : List Nat) (s : State) : Host.Outcome State Fault Refusal :=
  .next (runWord s bank 0x03 w m corrected)
/-- STORER (R194, R207, R208). -/
def execStorer (bank : Nat) (w : BitVec 128) (s : State) : Host.Outcome State Fault Refusal := .next (runWord s bank 0x04 w .ok [])
/-- DOT (R194, R195). -/
def execDot (bank : Nat) (w : BitVec 128) (m : Media) (corrected : List Nat) (s : State) : Host.Outcome State Fault Refusal :=
  .next (runWord s bank 0x10 w m corrected)
/-- MAXSIM (R194, R195). -/
def execMaxsim (bank : Nat) (w : BitVec 128) (m : Media) (corrected : List Nat) (s : State) : Host.Outcome State Fault Refusal :=
  .next (runWord s bank 0x11 w m corrected)
/-- WSUM (R194, R195). -/
def execWsum (bank : Nat) (w : BitVec 128) (m : Media) (corrected : List Nat) (s : State) : Host.Outcome State Fault Refusal :=
  .next (runWord s bank 0x12 w m corrected)
/-- VMAX (R194, R195). -/
def execVmax (bank : Nat) (w : BitVec 128) (s : State) : Host.Outcome State Fault Refusal := .next (runWord s bank 0x13 w .ok [])
/-- RMAX (R194, R195). -/
def execRmax (bank : Nat) (w : BitVec 128) (s : State) : Host.Outcome State Fault Refusal := .next (runWord s bank 0x14 w .ok [])

/-- SAVE, issued by the controller between segments: a BE request gives way to an LC one that waits; otherwise the registers
and QB are only written. The controller issues none while the area holds a saved request (R194, R205, R209). -/
def execSave (bank : Nat) (s : State) : Host.Outcome State Fault Refusal :=
  .next
    (let b := rimeBank s bank
     if !rimeEnabled s bank || b.segment.isSome || b.parked.isSome then s
     else
       let s1 := preemptBank s bank
       if (rimeBank s1 bank).parked != b.parked then s1 else saveUnit s bank)

/-- RESTORE, issued by the controller between segments, to a unit that no request is on: the saved request takes it back (R194, R205,
R209). -/
def execRestore (bank : Nat) (m : AreaRead) (s : State) : Host.Outcome State Fault Refusal :=
  .next
    (let b := rimeBank s bank
     if !rimeEnabled s bank || b.segment.isSome || b.current.isSome then s
     else
       match b.parked with
       | some p => unparkBank s bank p m.media m.corrected
       | none => restoreUnit s bank m.media m.corrected)

/-- CMDQ: a 32-byte burst enqueues two words, lower address first, while the queue of 64 has room (R199). -/
def execCmdq (bank : Nat) (w0 w1 : BitVec 128) (s : State) : Host.Outcome State Fault Refusal :=
  .next
    (let b := rimeBank s bank
     if !rimeEnabled s bank then s
     else setRimeBank s { b with unit := { b.unit with cmdq := (b.unit.cmdq ++ [w0, w1]).take 64 } })

/-- CTRL with CLEAR: registers, QB and ERR are cleared (R199). -/
def execRimeCtrlClear (bank : Nat) (s : State) : Host.Outcome State Fault Refusal :=
  .next
    (let b := rimeBank s bank
     if !rimeEnabled s bank then s else setRimeBank s { b with unit := clearUnit b.unit })

/-- CTRL with ABORT: CMDQ and the current command are discarded; the request that they belong to gives no result (R199; log entry 112). -/
def execRimeCtrlAbort (bank : Nat) (s : State) : Host.Outcome State Fault Refusal :=
  .next
    (let b := rimeBank s bank
     if !rimeEnabled s bank then s
     else setRimeBank s { b with
       unit := { b.unit with cmdq := [] }, current := b.current.map (fun r => if r.cmds == [] then r else { r with cmds := [], code := 6 }) })

/-- CTRL with SUSPEND = 1 (R199). -/
def execRimeCtrlSuspend (bank : Nat) (s : State) : Host.Outcome State Fault Refusal :=
  .next
    (let b := rimeBank s bank
     if !rimeEnabled s bank then s else setRimeBank s { b with unit := { b.unit with susp := true } })

/-- CTRL with SUSPEND = 0 (R199). -/
def execRimeCtrlResume (bank : Nat) (s : State) : Host.Outcome State Fault Refusal :=
  .next
    (let b := rimeBank s bank
     if !rimeEnabled s bank then s else setRimeBank s { b with unit := { b.unit with susp := false } })

/-- RCFG_WRITE: RIME_EN is bit 7; the Rsvd bits stay 0 (R9, R199). -/
def execRcfgWrite (channel : Nat) (value : Byte) (s : State) : Host.Outcome State Fault Refusal :=
  .next { s with rime := { s.rime with
    rcfg := if flag value 7 then putKey s.rime.rcfg channel 0x80 else dropKey s.rime.rcfg channel } }

end Sys2Proof.Machine
end

