-- ==== Sys2Proof/Machine/Select.lean ====
section
/-! DEFINITION. The selection operations of cut code on the stores of a cell, of its array and on pinned DRAM (R87 to R97, R173). -/

namespace Sys2Proof.Machine

open Sys2Proof

/-! Rows of words (R87, R97, R162). -/

/-- The place that a location of a cell's selection operation names. -/
def placeOfLoc (cell : Nat) (l : Loc) : Place := match l.space with
  | .cellStore => .cell cell l.addr
  | .arrayStore => .array (cell / 64) l.addr
  | .dram => .dram l.addr

/-- Why n bytes at a location may not be accessed; DRAM is pinned for the plan whose cut runs on the cell (R165, R304). -/
def locFault (s : State) (cell : Nat) (e : Loc × Nat) : Option Nat :=
  match cellOwner s cell with
  | some x => placeFault s x [cell / 64] e.2 (placeOfLoc cell e.1)
  | none =>
    match placeOfLoc cell e.1 with
    | .dram _ => if e.2 == 0 then none else some faultSpace
    | .cell _ a => if a + e.2 ≤ cellBytes then none else some faultCode
    | .array _ a => if a + e.2 ≤ arrayBytes then none else some faultCode

/-- n bytes at a location can be accessed. -/
def storeFits (s : State) (cell : Nat) (l : Loc) (n : Nat) : Bool := (locFault s cell (l, n)).isNone

/-- Bytes at a location. -/
def storeRead (s : State) (cell : Nat) (l : Loc) (n : Nat) : Bytes := placeRead s (placeOfLoc cell l) n

/-- Bytes written at a location. -/
def storeWrite (s : State) (cell : Nat) (l : Loc) (bs : Bytes) : State := placeWrite s (placeOfLoc cell l) bs

/-- The words of a row of n as they stand (R87). -/
def rawWords (s : State) (cell : Nat) (l : Loc) (n : Nat) : List SortWord := (piecesOf 10 (storeRead s cell l (10 * n))).map wordOfBytes

/-- The sort words of a row of n, with the keys of their scores (R87, R90). -/
def readWords (s : State) (cell : Nat) (w : Word64) (l : Loc) (n : Nat) : List SortWord := keyWords w (rawWords s cell l n)

/-- Words of rows that have NaN scores: they are dropped (R91). -/
def nanWords (s : State) (cell : Nat) (w : Word64) (rows : List (Loc × Nat)) : Nat :=
  sumOf (rows.map (fun e => ((rawWords s cell e.1 e.2).filter (fun x => scoreNan (selType w) x.key)).length))

/-- What an operation's reads leave: its sources in DRAM touched, and its dropped words counted for the query whose cut runs (R91, R221, R226,
R278). -/
def readRows (s : State) (cell : Nat) (srcs : List (Loc × Nat)) (nans : Nat) : State :=
  let s1 := srcs.foldl (fun st e => touchPlace st (placeOfLoc cell e.1) e.2) s
  match if nans == 0 then none else cellOwner s cell with
  | some x => updQuery s1 x.slot (fun y => { y with nanDropped := y.nanDropped + nans })
  | none => s1

/-- A selection operation of a cell: an encoding that the cell does not execute, or a place out of reach, is a fault of the context whose
cut runs there; input that meets poison ends its request with ST_MEDIA_UE (R173, R236, R304). -/
def selectRow (s : State) (cell : Nat) (ok : Bool) (srcs dsts : List (Loc × Nat)) (nans : Nat) (f : State → State) : State :=
  match if ok then (srcs ++ dsts).findSome? (locFault s cell) else some faultCode, cellOwner s cell with
  | some k, some x => faultContext s x.ctx k
  | some _, none => s
  | none, o =>
    if srcs.any (fun e => placeBad s (placeOfLoc cell e.1) e.2) then (match o with
      | some x => failCut s x
      | none => s)
    else f (readRows s cell srcs nans)

/-- The last selection result of a cell. -/
def setSelection (s : State) (cell n : Nat) (f : Bool) : State :=
  { s with cells := { s.cells with selection := putKey s.cells.selection cell (n, f) } }

/-- n words of free values: the output of an operation that met a pad word as data (R6, R89; log entry 5). -/
def freeWords (s : State) (n : Nat) : List SortWord :=
  (List.range n).map (fun i =>
    { key := BitVec.ofNat 32 (Config.freeValue (s.free + 2 * i)).toNat,
      id := BitVec.ofNat 48 (Config.freeValue (s.free + 2 * i + 1)).toNat })

/-- Words of an operation written at a location, with its result; free values when a pad word was among the input (R89). -/
def putWords (s : State) (cell : Nat) (dst : Loc) (input out : List SortWord) (res : Option (Nat × Bool)) : State :=
  let bad := input.contains padWord
  let ws := if bad then freeWords s out.length else out
  let s1 := if bad then { s with free := s.free + 2 * out.length + 1 } else s
  let s2 := storeWrite s1 cell dst (ws.flatMap bytesOfWord)
  match res with
  | some (n, f) =>
    if bad then setSelection s2 cell (Config.freeValue (s.free + 2 * out.length)).toNat (flag (Config.freeValue (s.free + 2 * out.length)) 0)
    else setSelection s2 cell n f
  | none => s2

/-! Rows. -/

/-- SORT: n words in order, n at most 2,048. What the vector registers that it is carried out in hold after it is open: they stay as they are
(R92, R93; DESIGN CHOICE, log entry 131). -/
def execSort (cell : Nat) (w : Word64) (src dst : Loc) (n : Nat) (s : State) : Host.Outcome State Fault Refusal :=
  .next
    (let ws := readWords s cell w src n
     selectRow s cell (selOk w 0x40 && selCount w == 0 && n ≤ 2048) [(src, 10 * n)] [(dst, 10 * n)]
       (nanWords s cell w [(src, n)]) (fun s => putWords s cell dst ws (sortWords ws) none))

/-- SELECT: the first K words in order, with the tie count of R102. Where the intermediate runs of K > 1,024 lie, and what they leave there, is
open: they leave no trace, and the vector registers stay as they are (R92, R96; DESIGN CHOICE, log entries 131 and 132). -/
def execSelect (cell : Nat) (w : Word64) (src dst : Loc) (n : Nat) (s : State) : Host.Outcome State Fault Refusal :=
  .next
    (let k := min (selCount w) n
     let ws := readWords s cell w src n
     let out := (sortWords ws).take k
     let t := tieCount ws out []
     selectRow s cell (selOk w 0x41) [(src, 10 * n)] [(dst, 10 * k)] (nanWords s cell w [(src, n)])
       (fun s => putWords s cell dst ws out (some (t, decide (2 ≤ t)))))

/-- THRESH: words with KEY ≤ T in input order; the count is exact, and the overflow flag tells a count above C (R94). -/
def execThresh (cell : Nat) (w : Word64) (src dst : Loc) (n : Nat) (t : Word32) (s : State) : Host.Outcome State Fault Refusal :=
  .next
    (let ws := readWords s cell w src n
     let q := ws.filter (fun x => x.key.toNat ≤ t.toNat)
     selectRow s cell (selOk w 0x42) [(src, 10 * n)] [(dst, 10 * min (selCount w) n)]
       (nanWords s cell w [(src, n)]) (fun s => putWords s cell dst ws (q.take (selCount w)) (some (q.length, decide (selCount w < q.length)))))

/-- MERGE: the first K words of the union; with DEDUP, words that repeat a whole ID field are removed (R92, R100). -/
def execMerge (cell : Nat) (w : Word64) (srcs : List (Loc × Nat)) (dst : Loc) (s : State) : Host.Outcome State Fault Refusal :=
  .next
    (let total := sumOf (srcs.map (fun e => e.2))
     let ws := srcs.flatMap (fun e => readWords s cell w e.1 e.2)
     let u := sortWords ws
     let v := if selDedup w then dedupBy (fun x => x.id.toNat) [] u else u
     let out := v.take (selCount w)
     selectRow s cell (selOk w 0x43 && srcs.length == selLists w) (srcs.map (fun e => (e.1, 10 * e.2)))
       [(dst, 10 * min (selCount w) total)] (nanWords s cell w srcs) (fun s => putWords s cell dst ws out (some (out.length, false))))

/-- ARGMAX: position and value of the largest score; the value of a BF16 or FP16 score is its 16-bit pattern, in the low half of the
result (R95; log entry 106). -/
def execArgmax (cell : Nat) (w : Word64) (src : Loc) (n : Nat) (s : State) : Host.Outcome State Fault Refusal :=
  .next
    (let b := scoreBytes (selType w)
     let vs := (piecesOf b (storeRead s cell src (b * n))).map leNat
     let r := match argmaxOf (selType w) ((List.range n).zip vs) none with
       | some (p, v) => (BitVec.ofNat 32 p, BitVec.ofNat 32 v)
       | none => (0xFFFFFFFF#32, 0#32)
     selectRow s cell (selOk w 0x44 && selType w != 0 && selCount w == 0) [(src, b * n)] [] 0
       (fun s => { s with cells := { s.cells with argmax := putKey s.cells.argmax cell r } }))

end Sys2Proof.Machine
end

