-- ==== Sys2Proof/Machine/Tap.lean ====
section
/-! DEFINITION. The test access port: its instructions, the BRINGUP register and its operations (R417 to R422). -/

namespace Sys2Proof.Machine

open Sys2Proof

/-! Instructions (R417). -/

/-- PERST_N asserted and main rails on. -/
def inBringup (s : State) : Bool := !s.pins.perstN && s.pins.mainOn

/-- An instruction is loaded: it acts, or acts as BYPASS and sets BLOCKED, below its level or outside its condition. EXTEST and CLAMP
drive the outputs from the boundary register; HIGHZ releases them. -/
def loadIr (s : State) (code level : Nat) (cond : Bool) : State :=
  let acts := level ≤ s.sec.debugLevel && cond
  let a := if acts then code else 0xFF
  { s with tap := { s.tap with ir := code, acting := a, blocked := !acts, driven := a == 0x00 || a == 0x09, highZ := a == 0x08 } }

/-- A TAP row acts while AUX is present. -/
def onTap (s : State) (k : State → State) : State := if s.pins.auxGood then k s else s

/-- The data register captured by an instruction that acts; 0 of the bypass register. -/
def capture (s : State) (code : Nat) (v : BitVec 128) : State :=
  { s with tap := { s.tap with captured := if s.tap.acting == code then v else 0 } }

/-- EXTEST: acts only while PERST_N is asserted and the main rails are on. -/
def execExtest (s : State) : Host.Outcome State Fault Refusal :=
  .next (onTap s (fun s => capture (loadIr s 0x00 0 (inBringup s)) 0x00 (BitVec.ofNat 128 s.tap.boundary)))

/-- IDCODE (R417; log entry 7). -/
def idcodeWord : BitVec 32 := BitVec.ofNat 32 (0x2 * 2 ^ 28 + 0x9416 * 2 ^ 12 + Config.jedecId.toNat * 2 + 1)
def execIdcode (s : State) : Host.Outcome State Fault Refusal :=
  .next (onTap s (fun s => capture (loadIr s 0x01 0 true) 0x01 (idcodeWord.setWidth 128)))

/-- SAMPLE/PRELOAD: the pins as sampled into the boundary register. -/
def execSamplePreload (pins : Nat) (s : State) : Host.Outcome State Fault Refusal :=
  .next (onTap s (fun s =>
    let s1 := loadIr s 0x02 0 s.pins.mainOn
    if s1.tap.acting == 0x02 then capture { s1 with tap := { s1.tap with boundary := pins } } 0x02 (BitVec.ofNat 128 pins)
    else capture s1 0x02 0))

/-- HIGHZ and CLAMP: act only while PERST_N is asserted; the bypass register is captured. -/
def execHighz (s : State) : Host.Outcome State Fault Refusal :=
  .next (onTap s (fun s => capture (loadIr s 0x08 0 (!s.pins.perstN)) 0x08 0))
def execClamp (s : State) : Host.Outcome State Fault Refusal :=
  .next (onTap s (fun s => capture (loadIr s 0x09 0 (!s.pins.perstN)) 0x09 0))

/-- DBG_STATUS, with BLOCKED as it stood before this load (R417; log entry 52). -/
def dbgWord (s : State) : BitVec 32 :=
  let b := fun (p : Bool) (i : Nat) => if p then 2 ^ i else 0
  BitVec.ofNat 32 (b s.pins.auxGood 0 + b s.sec.mgmtReady 1 + b s.tap.blocked 2 + b s.pins.faultLow 3 + b s.pins.mainOn 4 +
    b (!s.pins.perstN) 5 + s.sec.debugLevel % 4 * 2 ^ 6 + s.sec.bootState % 256 * 2 ^ 8)
def execDbgStatus (s : State) : Host.Outcome State Fault Refusal :=
  .next (onTap s (fun s => capture (loadIr s 0x10 0 true) 0x10 ((dbgWord s).setWidth 128)))

/-- MGMT_DEBUG: halts or resumes the MGMT cores and reads MGMT SRAM, whose content is not laid out (R417; log entry 12). -/
def execMgmtDebug (halt : Bool) (addr : Nat) (s : State) : Host.Outcome State Fault Refusal :=
  .next (onTap s (fun s =>
    let s1 := loadIr s 0x40 2 (inBringup s)
    if s1.tap.acting == 0x40 then
      capture { s1 with tap := { s1.tap with halted := halt } } 0x40 (BitVec.ofNat 128 (leNat (unlaid 13 addr 16)))
    else capture s1 0x40 0))

/-- BYPASS. -/
def execBypass (s : State) : Host.Outcome State Fault Refusal := .next (onTap s (fun s => capture (loadIr s 0xFF 0 true) 0xFF 0))

/-! The BRINGUP register (R418). -/

def brOp (d : BitVec 128) : Nat := field d 0 8
def brArg0 (d : BitVec 128) : Nat := field d 32 32
def brArg1 (d : BitVec 128) : Nat := field d 64 32
def brArg2 (d : BitVec 128) : Nat := field d 96 32

/-- The register with STATUS and result fields. -/
def brWord (op status a0 a1 a2 : Nat) : BitVec 128 :=
  BitVec.ofNat 128 (op % 256 + status % 256 * 2 ^ 16 + a0 % 2 ^ 32 * 2 ^ 32 + a1 % 2 ^ 32 * 2 ^ 64 + a2 % 2 ^ 32 * 2 ^ 96)

/-- What a Capture-DR returns: the latest operation's register, with STATUS busy while one runs. -/
def brCapture (s : State) : BitVec 128 :=
  match s.tap.op with
  | some d => brWord (brOp d) 1 (brArg0 d) (brArg1 d) (brArg2 d)
  | none => s.tap.dr

/-- An Update-DR: with an OP other than 0 an operation starts, unless one runs; it needs BRINGUP acting and MGMT's service. -/
def updateDr (s : State) (d : BitVec 128) : State :=
  if s.tap.acting != 0x30 || !inBringup s || s.tap.op.isSome || !mgmtAwake s then s
  else if brOp d == 0 then { s with tap := { s.tap with dr := d } }
  else { s with tap := { s.tap with op := some d } }

/-- BRINGUP: loaded, with an Update-DR where the row brings one; then a Capture-DR. -/
def execBringup (dr : Option (BitVec 128)) (s : State) : Host.Outcome State Fault Refusal :=
  .next (onTap s (fun s =>
    let s1 := loadIr s 0x30 1 (inBringup s)
    let s2 := match dr with
      | some d => updateDr s1 d
      | none => s1
    capture s2 0x30 (brCapture s2)))

/-- A row of a bring-up operation: the Update-DR that starts it. -/
def startOp (s : State) (op : Nat) (d : BitVec 128) : State := onTap s (fun s => if brOp d == op then updateDr s d else s)

def execPprQuery (dr : BitVec 128) (s : State) : Host.Outcome State Fault Refusal := .next (startOp s 0x01 dr)
def execPprRepair (dr : BitVec 128) (s : State) : Host.Outcome State Fault Refusal := .next (startOp s 0x02 dr)
def execBbtQuery (dr : BitVec 128) (s : State) : Host.Outcome State Fault Refusal := .next (startOp s 0x10 dr)
def execBbtRead (dr : BitVec 128) (s : State) : Host.Outcome State Fault Refusal := .next (startOp s 0x11 dr)
def execBbtMark (dr : BitVec 128) (s : State) : Host.Outcome State Fault Refusal := .next (startOp s 0x12 dr)
def execLoopStart (dr : BitVec 128) (s : State) : Host.Outcome State Fault Refusal := .next (startOp s 0x20 dr)
def execLoopStop (dr : BitVec 128) (s : State) : Host.Outcome State Fault Refusal := .next (startOp s 0x21 dr)

/-! Operations (R418 to R421). Each answers the new state, STATUS, ARG1 and ARG2. -/

/-- PPR_QUERY. -/
def opPprQuery (s : State) (b : Nat) : State × Nat × Nat × Nat := (s, 0, 4 - (bankHealth s b).used, (bankHealth s b).mended)

/-- PPR_REPAIR: a repair row is consumed, also by a repair that does not verify (R419). -/
def opPprRepair (s : State) (b row : Nat) (ok : Bool) : State × Nat × Nat × Nat :=
  let v := bankHealth s b
  if 122880 ≤ row then (s, 3, 4 - v.used, 0)
  else if 4 ≤ v.used then (s, 4, 0, 0)
  else
    let v1 := { v with
      used := v.used + 1, mended := v.mended + (if ok then 1 else 0), repaired := if ok then v.repaired ++ [row] else v.repaired }
    (setBankHealth s v1, if ok then 0 else 5, 4 - v1.used, 0)

/-- The flags of a block: bad, marked at manufacture, spare, retired die (R418; log entry 37). -/
def blockFlags (s : State) (v : Die) (block : Nat) : Nat :=
  (if v.bad.contains block then 1 else 0) + (if v.factoryBad.contains block then 2 else 0) + (if spareBlock s v.channel v.die block then 4 else 0) +
  (if v.retired then 8 else 0)

/-- BBT_QUERY, BBT_READ. -/
def opBbtQuery (s : State) (c d : Nat) : State × Nat × Nat × Nat := (s, 0, Config.blocksPerDie, (dieAt s c d).spares)
def opBbtRead (s : State) (c d block : Nat) : State × Nat × Nat × Nat :=
  if Config.blocksPerDie ≤ block then (s, 3, block, 0) else (s, 0, block, blockFlags s (dieAt s c d) block)

/-- BBT_MARK: on one channel of each flash group in one assertion of PERST_N (R420). -/
def opBbtMark (s : State) (c d block : Nat) : State × Nat × Nat × Nat :=
  let v := dieAt s c d
  if Config.blocksPerDie ≤ block then (s, 3, block, 0)
  else if s.tap.marked.any (fun x => x != c && x / 8 == c / 8) then (s, 6, block, blockFlags s v block)
  else
    -- a spare is one less; what another block holds is rebuilt at the next start
    let lost := if spareBlock s c d block then 1 else 0
    let v1 := if v.bad.contains block then v else { v with bad := insertAsc block v.bad, pool := v.pool.erase block, spares := v.spares - lost }
    let s1 := setDie s v1
    ({ s1 with tap := { s1.tap with marked := insertAsc c s1.tap.marked } }, 0, block, blockFlags s1 v1 block)

/-- A loop's kind and unit exist (table Loopbacks). -/
def loopOk (kind unit : Nat) : Bool :=
  (kind == 1 && unit < 16) || ((kind == 2 || kind == 3) && unit < 128) || (kind == 4 && unit == 0)

/-- LOOP_START: one loopback at a time (R421; log entry 52). -/
def opLoopStart (s : State) (a0 : Nat) : State × Nat × Nat × Nat :=
  let kind := bitsAt a0 16 8
  let unit := bitsAt a0 0 7
  if !loopOk kind unit || a0 != unit + kind * 2 ^ 16 then (s, 3, 0, 0)
  else if s.tap.loop.isSome then (s, 2, 0, 0)
  else ({ s with tap := { s.tap with loop := some (kind, unit, now s) } }, 0, 0, 0)

/-- LOOP_STOP: bit errors, which the loop's medium decides and are a free value, and the run time in ms (R418, R421). -/
def opLoopStop (s : State) : State × Nat × Nat × Nat :=
  match s.tap.loop with
  | some l => (bumpFree { s with tap := { s.tap with loop := none } }, 0, (freshValue s).toNat % 2 ^ 32, (now s - l.2.2) / 1000000)
  | none => (s, 2, 0, 0)

/-- The operation of a register carried out. -/
def bringupOp (s : State) (d : BitVec 128) (ok : Bool) : State × Nat × Nat × Nat :=
  let a0 := brArg0 d
  let bank := 32 * bitsAt a0 0 7 + bitsAt a0 8 5
  let c := bitsAt a0 0 7
  let die := bitsAt a0 8 3
  let dram := a0 == bitsAt a0 0 7 + bitsAt a0 8 5 * 2 ^ 8
  let flash := a0 == c + die * 2 ^ 8 && die < s.sec.order.dies
  if field d 8 8 != 0 || field d 24 8 != 0 then (s, 3, brArg1 d, brArg2 d)
  else
    match brOp d with
    | 0x01 => if dram then opPprQuery s bank else (s, 3, 0, 0)
    | 0x02 => if dram then opPprRepair s bank (brArg1 d) ok else (s, 3, 0, 0)
    | 0x10 => if flash then opBbtQuery s c die else (s, 3, 0, 0)
    | 0x11 => if flash then opBbtRead s c die (brArg1 d) else (s, 3, 0, 0)
    | 0x12 => if flash then opBbtMark s c die (brArg1 d) else (s, 3, 0, 0)
    | 0x20 => opLoopStart s a0
    | 0x21 => opLoopStop s
    | _ => (s, 3, brArg1 d, brArg2 d)

/-- BRINGUP_OP_COMPLETE: the result is in the register; ok says whether a repair verified. Link training that waited for the operation
starts (R418, R422). -/
def execBringupOpComplete (ok : Bool) (s : State) : Host.Outcome State Fault Refusal :=
  .next
    (match s.tap.op with
     | none => s
     | some d =>
       let r := bringupOp { s with tap := { s.tap with op := none } } d ok
       let s1 := { r.1 with tap := { r.1.tap with dr := brWord (brOp d) r.2.1 (brArg0 d) r.2.2.1 r.2.2.2 } }
       if s1.pins.perstN && s1.pins.mainOn && !s1.link.up then
         let s2 := startRepairs s1
         { s2 with link := { s2.link with training := true } }
       else s1)

end Sys2Proof.Machine
end

