-- ==== Sys2Proof/Machine/Dispatch.lean ====
section
/-! DEFINITION. One arm per command: each calls its meaning. -/

namespace Sys2Proof.Machine

open Sys2Proof

/-- The effect of a command on everything but the queue. -/
def exec (i : Instr) (s : State) : Host.Outcome State Fault Refusal :=
  match i with
  | .search q cid desc es => Sys2Proof.Machine.execSearch q cid desc es s
  | .encodeSearch q cid desc es => Sys2Proof.Machine.execEncodeSearch q cid desc es s
  | .encode q cid desc es => Sys2Proof.Machine.execEncode q cid desc es s
  | .rerank q cid desc es => Sys2Proof.Machine.execRerank q cid desc es s
  | .queryWorkStart slot => Sys2Proof.Machine.execQueryWorkStart slot s
  | .scribeReadComplete slot pair m => Sys2Proof.Machine.execScribeReadComplete slot pair m s
  | .hopComplete slot => Sys2Proof.Machine.execHopComplete slot s
  | .dramRecordReadDone slot localId m => Sys2Proof.Machine.execDramRecordReadDone slot localId m s
  | .driftBlockScanned slot block cell => Sys2Proof.Machine.execDriftBlockScanned slot block cell s
  | .braceRebuildDone slot pair ok => Sys2Proof.Machine.execBraceRebuildDone slot pair ok s
  | .rerankSlotArrival slot localId m => Sys2Proof.Machine.execRerankSlotArrival slot localId m s
  | .rerankDone slot => Sys2Proof.Machine.execRerankDone slot s
  | .guardTime slot => Sys2Proof.Machine.execGuardTime slot s
  | .batchCompletionPost q cid => Sys2Proof.Machine.execBatchCompletionPost q cid s
  | .insert q cid es => Sys2Proof.Machine.execInsert q cid es s
  | .delete q cid ids => Sys2Proof.Machine.execDelete q cid ids s
  | .journalWriteDone q cid => Sys2Proof.Machine.execJournalWriteDone q cid s
  | .planRun q cid desc => Sys2Proof.Machine.execPlanRun q cid desc s
  | .copy q cid data m => Sys2Proof.Machine.execCopy q cid data m s
  | .pegSet x => Sys2Proof.Machine.execPegSet x s
  | .pegAdd x => Sys2Proof.Machine.execPegAdd x s
  | .pegWaitGe x => Sys2Proof.Machine.execPegWaitGe x s
  | .pegWaitEq x => Sys2Proof.Machine.execPegWaitEq x s
  | .pegAcquire x => Sys2Proof.Machine.execPegAcquire x s
  | .pegRelease x => Sys2Proof.Machine.execPegRelease x s
  | .pegWaitTimeout q cid => Sys2Proof.Machine.execPegWaitTimeout q cid s
  | .pegSignalRepeat peg => Sys2Proof.Machine.execPegSignalRepeat peg s
  | .nsCreate cid => Sys2Proof.Machine.execNsCreate cid s
  | .nsDelete cid => Sys2Proof.Machine.execNsDelete cid s
  | .nsDeleteRelease index => Sys2Proof.Machine.execNsDeleteRelease index s
  | .qpCreate cid => Sys2Proof.Machine.execQpCreate cid s
  | .qpDelete cid => Sys2Proof.Machine.execQpDelete cid s
  | .qpDeleteComplete qp => Sys2Proof.Machine.execQpDeleteComplete qp s
  | .planLoad cid image => Sys2Proof.Machine.execPlanLoad cid image s
  | .planUnload cid => Sys2Proof.Machine.execPlanUnload cid s
  | .planUnloadRelease handle => Sys2Proof.Machine.execPlanUnloadRelease handle s
  | .bayBind cid hdr regs => Sys2Proof.Machine.execBayBind cid hdr regs s
  | .bayReclaim cid => Sys2Proof.Machine.execBayReclaim cid s
  | .reclaimGraceExpiry bay => Sys2Proof.Machine.execReclaimGraceExpiry bay s
  | .resourceDrained bay r => Sys2Proof.Machine.execResourceDrained bay r s
  | .reclaimComplete bay => Sys2Proof.Machine.execReclaimComplete bay s
  | .frameZeroed frame => Sys2Proof.Machine.execFrameZeroed frame s
  | .selfTestShort cid => Sys2Proof.Machine.execSelfTestShort cid s
  | .selfTestExtended cid => Sys2Proof.Machine.execSelfTestExtended cid s
  | .selfTestStop cid => Sys2Proof.Machine.execSelfTestStop cid s
  | .selfTestDone failures items yieldNs => Sys2Proof.Machine.execSelfTestDone failures items yieldNs s
  | .fwStage cid image => Sys2Proof.Machine.execFwStage cid image s
  | .fwActivate cid m0 m1 => Sys2Proof.Machine.execFwActivate cid m0 m1 s
  | .logGet cid => Sys2Proof.Machine.execLogGet cid s
  | .dictRead cid => Sys2Proof.Machine.execDictRead cid s
  | .dictWrite cid value => Sys2Proof.Machine.execDictWrite cid value s
  | .stagedObjectWrite by_ index sub value => Sys2Proof.Machine.execStagedObjectWrite by_ index sub value s
  | .firnMergeDrift cid => Sys2Proof.Machine.execFirnMergeDrift cid s
  | .firnMergeSweep cid => Sys2Proof.Machine.execFirnMergeSweep cid s
  | .firnRoundStart index => Sys2Proof.Machine.execFirnRoundStart index s
  | .indexVersionRaise index => Sys2Proof.Machine.execIndexVersionRaise index s
  | .firnRoundCutoff index cause => Sys2Proof.Machine.execFirnRoundCutoff index cause s
  | .versionRelease index version => Sys2Proof.Machine.execVersionRelease index version s
  | .indexReplayDone index => Sys2Proof.Machine.execIndexReplayDone index s
  | .cutStart slot cut => Sys2Proof.Machine.execCutStart slot cut s
  | .cutEnd slot cut work => Sys2Proof.Machine.execCutEnd slot cut work s
  | .weightArrival handle obj m => Sys2Proof.Machine.execWeightArrival handle obj m s
  | .sort cell w src dst n => Sys2Proof.Machine.execSort cell w src dst n s
  | .select cell w src dst n => Sys2Proof.Machine.execSelect cell w src dst n s
  | .thresh cell w src dst n t => Sys2Proof.Machine.execThresh cell w src dst n t s
  | .merge cell w srcs dst => Sys2Proof.Machine.execMerge cell w srcs dst s
  | .argmax cell w src n => Sys2Proof.Machine.execArgmax cell w src n s
  | .baySliceExpiry bay => Sys2Proof.Machine.execBaySliceExpiry bay s
  | .bePromotion bay ctx => Sys2Proof.Machine.execBePromotion bay ctx s
  | .promotionQuantumEnd bay => Sys2Proof.Machine.execPromotionQuantumEnd bay s
  | .contextFault ctx cause => Sys2Proof.Machine.execContextFault ctx cause s
  | .rimeRequestSubmit slot ctx cell desc => Sys2Proof.Machine.execRimeRequestSubmit slot ctx cell desc s
  | .rimeSegmentStart bank => Sys2Proof.Machine.execRimeSegmentStart bank s
  | .rimeSegmentEnd bank => Sys2Proof.Machine.execRimeSegmentEnd bank s
  | .rimeRequestDone bank => Sys2Proof.Machine.execRimeRequestDone bank s
  | .bankRefresh bank => Sys2Proof.Machine.execBankRefresh bank s
  | .bankAccessDuringRime bank => Sys2Proof.Machine.execBankAccessDuringRime bank s
  | .nop bank w => Sys2Proof.Machine.execNop bank w s
  | .clr bank w => Sys2Proof.Machine.execClr bank w s
  | .loadq bank w m corrected => Sys2Proof.Machine.execLoadq bank w m corrected s
  | .loadr bank w m corrected => Sys2Proof.Machine.execLoadr bank w m corrected s
  | .storer bank w => Sys2Proof.Machine.execStorer bank w s
  | .dot bank w m corrected => Sys2Proof.Machine.execDot bank w m corrected s
  | .maxsim bank w m corrected => Sys2Proof.Machine.execMaxsim bank w m corrected s
  | .wsum bank w m corrected => Sys2Proof.Machine.execWsum bank w m corrected s
  | .vmax bank w => Sys2Proof.Machine.execVmax bank w s
  | .rmax bank w => Sys2Proof.Machine.execRmax bank w s
  | .save bank => Sys2Proof.Machine.execSave bank s
  | .restore bank m => Sys2Proof.Machine.execRestore bank m s
  | .cmdq bank w0 w1 => Sys2Proof.Machine.execCmdq bank w0 w1 s
  | .rimeCtrlClear bank => Sys2Proof.Machine.execRimeCtrlClear bank s
  | .rimeCtrlAbort bank => Sys2Proof.Machine.execRimeCtrlAbort bank s
  | .rimeCtrlSuspend bank => Sys2Proof.Machine.execRimeCtrlSuspend bank s
  | .rimeCtrlResume bank => Sys2Proof.Machine.execRimeCtrlResume bank s
  | .rcfgWrite channel value => Sys2Proof.Machine.execRcfgWrite channel value s
  | .reservedEventPlace ev window => Sys2Proof.Machine.execReservedEventPlace ev window s
  | .reservedEventForced ev => Sys2Proof.Machine.execReservedEventForced ev s
  | .retrainingPause channel => Sys2Proof.Machine.execRetrainingPause channel s
  | .flashPePieceEnd channel die => Sys2Proof.Machine.execFlashPePieceEnd channel die s
  | .flashPeFail channel die block => Sys2Proof.Machine.execFlashPeFail channel die block s
  | .pageFault bay addr write lc => Sys2Proof.Machine.execPageFault bay addr write lc s
  | .fillSectorArrival page sector m rebuilt => Sys2Proof.Machine.execFillSectorArrival page sector m rebuilt s
  | .cleanerWriteback bay => Sys2Proof.Machine.execCleanerWriteback bay s
  | .writebackDone page group home => Sys2Proof.Machine.execWritebackDone page group home s
  | .evacuationStart channel kind => Sys2Proof.Machine.execEvacuationStart channel kind s
  | .pieceRelocated src dst => Sys2Proof.Machine.execPieceRelocated src dst s
  | .evacuationCopyWindow window => Sys2Proof.Machine.execEvacuationCopyWindow window s
  | .evacuationCopyEnd => Sys2Proof.Machine.execEvacuationCopyEnd s
  | .returnCopyEnd => Sys2Proof.Machine.execReturnCopyEnd s
  | .replenishment entry => Sys2Proof.Machine.execReplenishment entry s
  | .weightRebuildDone addr ok => Sys2Proof.Machine.execWeightRebuildDone addr ok s
  | .indexStructureRestored index st => Sys2Proof.Machine.execIndexStructureRestored index st s
  | .mediaUnitRebuild channel die unit ok => Sys2Proof.Machine.execMediaUnitRebuild channel die unit ok s
  | .dramScrubPass set corrected => Sys2Proof.Machine.execDramScrubPass set corrected s
  | .flashPatrol channel die block retries bitsHigh => Sys2Proof.Machine.execFlashPatrol channel die block retries bitsHigh s
  | .dramRowFailing bank row uncorrectable => Sys2Proof.Machine.execDramRowFailing bank row uncorrectable s
  | .monitorSample kind unit v0 v1 v2 v3 limit => Sys2Proof.Machine.execMonitorSample kind unit v0 v1 v2 v3 limit s
  | .marginPlanBuild trigger m => Sys2Proof.Machine.execMarginPlanBuild trigger m s
  | .marginPlanRaise => Sys2Proof.Machine.execMarginPlanRaise s
  | .fatalError cause unit inCxl => Sys2Proof.Machine.execFatalError cause unit inCxl s
  | .dumpWritten => Sys2Proof.Machine.execDumpWritten s
  | .dumpCopied => Sys2Proof.Machine.execDumpCopied s
  | .mgmtCodeCheck digest => Sys2Proof.Machine.execMgmtCodeCheck digest s
  | .mgmtRestart => Sys2Proof.Machine.execMgmtRestart s
  | .sqTailDoorbell fn q v => Sys2Proof.Machine.execSqTailDoorbell fn q v s
  | .cqHeadDoorbell fn q v => Sys2Proof.Machine.execCqHeadDoorbell fn q v s
  | .adminSqTail v => Sys2Proof.Machine.execAdminSqTail v s
  | .adminCqHead v => Sys2Proof.Machine.execAdminCqHead v s
  | .adminEnable sqBase cqBase cfg => Sys2Proof.Machine.execAdminEnable sqBase cqBase cfg s
  | .adminDisable => Sys2Proof.Machine.execAdminDisable s
  | .submissionConsume q sqe => Sys2Proof.Machine.execSubmissionConsume q sqe s
  | .msixCoalesceTimer q => Sys2Proof.Machine.execMsixCoalesceTimer q s
  | .hostReadFault q cid t => Sys2Proof.Machine.execHostReadFault q cid t s
  | .cxlMemRead hpa => Sys2Proof.Machine.execCxlMemRead hpa s
  | .cxlMemWrite hpa data => Sys2Proof.Machine.execCxlMemWrite hpa data s
  | .bisnpinv line => Sys2Proof.Machine.execBisnpinv line s
  | .cxlCacheSnoop line => Sys2Proof.Machine.execCxlCacheSnoop line s
  | .hdmDecoderCommit n base size skip => Sys2Proof.Machine.execHdmDecoderCommit n base size skip s
  | .linkTrained cxlMode width rate flit256 => Sys2Proof.Machine.execLinkTrained cxlMode width rate flit256 s
  | .linkDown => Sys2Proof.Machine.execLinkDown s
  | .vfFlr fn => Sys2Proof.Machine.execVfFlr fn s
  | .pfFlr => Sys2Proof.Machine.execPfFlr s
  | .hotReset => Sys2Proof.Machine.execHotReset s
  | .vfEnableClear => Sys2Proof.Machine.execVfEnableClear s
  | .ideIntegrityFail stream => Sys2Proof.Machine.execIdeIntegrityFail stream s
  | .keyProg session dir set key => Sys2Proof.Machine.execKeyProg session dir set key s
  | .kSetGo session dir set => Sys2Proof.Machine.execKSetGo session dir set s
  | .kSetStop session dir set => Sys2Proof.Machine.execKSetStop session dir set s
  | .cdatTableAccess tableType entry => Sys2Proof.Machine.execCdatTableAccess tableType entry s
  | .getMeasurements slot nonce => Sys2Proof.Machine.execGetMeasurements slot nonce s
  | .spdmEvidenceRequest value => Sys2Proof.Machine.execSpdmEvidenceRequest value s
  | .spdmKeyExchange => Sys2Proof.Machine.execSpdmKeyExchange s
  | .ptmRequest => Sys2Proof.Machine.execPtmRequest s
  | .ptmExchange hostTime => Sys2Proof.Machine.execPtmExchange hostTime s
  | .ptmTimeout => Sys2Proof.Machine.execPtmTimeout s
  | .dtbForwardStep => Sys2Proof.Machine.execDtbForwardStep s
  | .dtbStepAbandon => Sys2Proof.Machine.execDtbStepAbandon s
  | .getFwInfo => Sys2Proof.Machine.execGetFwInfo s
  | .transferFw action offset data => Sys2Proof.Machine.execTransferFw action offset data s
  | .activateFw online m0 m1 => Sys2Proof.Machine.execActivateFw online m0 m1 s
  | .getSupportedLogs => Sys2Proof.Machine.execGetSupportedLogs s
  | .getLog page offset len => Sys2Proof.Machine.execGetLog page offset len s
  | .installConfigRecord offset last data => Sys2Proof.Machine.execInstallConfigRecord offset last data s
  | .xsdpRead f => Sys2Proof.Machine.execXsdpRead f s
  | .xsdpWrite f => Sys2Proof.Machine.execXsdpWrite f s
  | .eventAck f => Sys2Proof.Machine.execEventAck f s
  | .eventRetransmit seq => Sys2Proof.Machine.execEventRetransmit seq s
  | .stageLockTake by_ => Sys2Proof.Machine.execStageLockTake by_ s
  | .stageLockRelease by_ => Sys2Proof.Machine.execStageLockRelease by_ s
  | .lockLapse => Sys2Proof.Machine.execLockLapse s
  | .stageDiscard by_ => Sys2Proof.Machine.execStageDiscard by_ s
  | .dryFit by_ => Sys2Proof.Machine.execDryFit by_ s
  | .dryFitComplete => Sys2Proof.Machine.execDryFitComplete s
  | .raiseImmediate by_ => Sys2Proof.Machine.execRaiseImmediate by_ s
  | .raiseAtTime by_ t => Sys2Proof.Machine.execRaiseAtTime by_ t s
  | .raiseAtIdle by_ limit => Sys2Proof.Machine.execRaiseAtIdle by_ limit s
  | .raiseCancel by_ => Sys2Proof.Machine.execRaiseCancel by_ s
  | .raiseRefit => Sys2Proof.Machine.execRaiseRefit s
  | .dictRaise => Sys2Proof.Machine.execDictRaise s
  | .raiseExpiry => Sys2Proof.Machine.execRaiseExpiry s
  | .secLock by_ => Sys2Proof.Machine.execSecLock by_ s
  | .errAck by_ entry => Sys2Proof.Machine.execErrAck by_ entry s
  | .dumpClear by_ => Sys2Proof.Machine.execDumpClear by_ s
  | .evidenceReq by_ value => Sys2Proof.Machine.execEvidenceReq by_ value s
  | .evidenceSign => Sys2Proof.Machine.execEvidenceSign s
  | .fwRxLen v => Sys2Proof.Machine.execFwRxLen v s
  | .fwRxData data => Sys2Proof.Machine.execFwRxData data s
  | .fwRxVerify => Sys2Proof.Machine.execFwRxVerify s
  | .fwRxActivateBoot m0 m1 => Sys2Proof.Machine.execFwRxActivateBoot m0 m1 s
  | .fwRxAbort => Sys2Proof.Machine.execFwRxAbort s
  | .cfgRxLen v => Sys2Proof.Machine.execCfgRxLen v s
  | .cfgRxData data => Sys2Proof.Machine.execCfgRxData data s
  | .cfgRxInstall => Sys2Proof.Machine.execCfgRxInstall s
  | .cfgRxAbort => Sys2Proof.Machine.execCfgRxAbort s
  | .domainTimerRet n => Sys2Proof.Machine.execDomainTimerRet n s
  | .domainTimerOff n => Sys2Proof.Machine.execDomainTimerOff n s
  | .domainEntryDone n => Sys2Proof.Machine.execDomainEntryDone n s
  | .domainWake n source => Sys2Proof.Machine.execDomainWake n source s
  | .domainWakeDone n => Sys2Proof.Machine.execDomainWakeDone n s
  | .dtbComparator x => Sys2Proof.Machine.execDtbComparator x s
  | .comparatorTrip c value => Sys2Proof.Machine.execComparatorTrip c value s
  | .comparatorRelease c => Sys2Proof.Machine.execComparatorRelease c s
  | .powerCapThrottle watts => Sys2Proof.Machine.execPowerCapThrottle watts s
  | .powerCapThrottleLift watts => Sys2Proof.Machine.execPowerCapThrottleLift watts s
  | .throttleNAssert => Sys2Proof.Machine.execThrottleNAssert s
  | .throttleNRelease => Sys2Proof.Machine.execThrottleNRelease s
  | .auxPowerUp straps => Sys2Proof.Machine.execAuxPowerUp straps s
  | .auxLoss => Sys2Proof.Machine.execAuxLoss s
  | .pwrEnRise => Sys2Proof.Machine.execPwrEnRise s
  | .mgmtReady => Sys2Proof.Machine.execMgmtReady s
  | .pwrEnFall => Sys2Proof.Machine.execPwrEnFall s
  | .mainPowerLoss => Sys2Proof.Machine.execMainPowerLoss s
  | .perstNAssert => Sys2Proof.Machine.execPerstNAssert s
  | .perstNRelease => Sys2Proof.Machine.execPerstNRelease s
  | .extest => Sys2Proof.Machine.execExtest s
  | .idcode => Sys2Proof.Machine.execIdcode s
  | .samplePreload pins => Sys2Proof.Machine.execSamplePreload pins s
  | .highz => Sys2Proof.Machine.execHighz s
  | .clamp => Sys2Proof.Machine.execClamp s
  | .dbgStatus => Sys2Proof.Machine.execDbgStatus s
  | .bringup dr => Sys2Proof.Machine.execBringup dr s
  | .mgmtDebug halt addr => Sys2Proof.Machine.execMgmtDebug halt addr s
  | .bypass => Sys2Proof.Machine.execBypass s
  | .pprQuery dr => Sys2Proof.Machine.execPprQuery dr s
  | .pprRepair dr => Sys2Proof.Machine.execPprRepair dr s
  | .bbtQuery dr => Sys2Proof.Machine.execBbtQuery dr s
  | .bbtRead dr => Sys2Proof.Machine.execBbtRead dr s
  | .bbtMark dr => Sys2Proof.Machine.execBbtMark dr s
  | .loopStart dr => Sys2Proof.Machine.execLoopStart dr s
  | .loopStop dr => Sys2Proof.Machine.execLoopStop dr s
  | .bringupOpComplete ok => Sys2Proof.Machine.execBringupOpComplete ok s
  | .plcaStatusChange active => Sys2Proof.Machine.execPlcaStatusChange active s
  | .mainInputReturn millivolts => Sys2Proof.Machine.execMainInputReturn millivolts s
  | .neighborDiscovery target => Sys2Proof.Machine.execNeighborDiscovery target s
  | .icmpv6Echo peer payload => Sys2Proof.Machine.execIcmpv6Echo peer payload s
  | .xsdpMalformedDatagram f => Sys2Proof.Machine.execXsdpMalformedDatagram f s
  | .fullRetrainingDone channel => Sys2Proof.Machine.execFullRetrainingDone channel s
  | .mgmtPllLock => Sys2Proof.Machine.execMgmtPllLock s
  | .getCertificate slot offset len => Sys2Proof.Machine.execGetCertificate slot offset len s
  | .challenge slot nonce => Sys2Proof.Machine.execChallenge slot nonce s
  | .negotiateAlgorithms hash aead dhe sig => Sys2Proof.Machine.execNegotiateAlgorithms hash aead dhe sig s
  | .doeDiscovery index => Sys2Proof.Machine.execDoeDiscovery index s
  | .vfEnableSet => Sys2Proof.Machine.execVfEnableSet s
  | .ptmEnableWrite on => Sys2Proof.Machine.execPtmEnableWrite on s
  | .cxlCacheEnable on => Sys2Proof.Machine.execCxlCacheEnable on s
  | .cxlMemEnable on => Sys2Proof.Machine.execCxlMemEnable on s
  | .linkLoopbackEntry rate => Sys2Proof.Machine.execLinkLoopbackEntry rate s

end Sys2Proof.Machine
end

