-- ==== Sys2Proof/Safety.lean ====
section
/-! DEFINITION. The terms in which the statements about the block are made: when a command's own effect is in reach, the
canonical form of the byte stores, and what a safe run is. -/

namespace Sys2Proof.Machine

open Sys2Proof

/-- The byte stores of the block hold their canonical form: DRAM, flash home content, contents captured by write-backs, cell stores and
array stores. -/
def storesWf (s : State) : Prop :=
  memWf s.tier.dram = true ∧ memWf s.tier.flash = true ∧ memWf s.tier.capture = true ∧ memWf s.cells.cellStore = true ∧
  memWf s.cells.arrayStore = true

/-- The tier map lists its entries by rising descriptor, each once (R219). -/
def tierMapWf (s : State) : Prop := (s.tier.frames.map (fun e => e.num)).Pairwise (· < ·)

/-- The banks that compute: those with a running segment (R22, R202). -/
def computingBanks (s : State) : List RimeBank := s.rime.banks.filter (fun b => b.segment.isSome)

/-- Each bank has one rime record, and the concurrency limit of R22 holds: at most 1,024 computing banks on the module and at
most 8 in each channel. -/
def rimeSlotsWf (s : State) : Prop :=
  (s.rime.banks.map (fun b => b.bank)).Nodup ∧ (computingBanks s).length ≤ 1024 ∧
  ∀ c, ((computingBanks s).filter (fun b => b.bank / 32 == c)).length ≤ 8

/-- t is s with bytes written at a place that cut code reaches: they read back from a store of a cell or an array and every other byte of
the stores stands, and DRAM takes them as device-range memory does; nothing changes outside the places and the results that cells keep
(R162, R165). -/
def wroteAt (s t : State) (pl : Place) (bs : Bytes) : Prop :=
  match pl with
  | .cell c a =>
    t = { s with cells := t.cells } ∧ placeRead t pl bs.length = bs ∧ t.cells.arrayStore = s.cells.arrayStore ∧
    ∀ k, k < cellBytes * c + a ∨ cellBytes * c + a + bs.length ≤ k → memRead t.cells.cellStore k = memRead s.cells.cellStore k
  | .array b a =>
    t = { s with cells := t.cells } ∧ placeRead t pl bs.length = bs ∧ t.cells.cellStore = s.cells.cellStore ∧
    ∀ k, k < arrayBytes * b + a ∨ arrayBytes * b + a + bs.length ≤ k → memRead t.cells.arrayStore k = memRead s.cells.arrayStore k
  | .dram a =>
    t = { devWrite s a bs with cells := t.cells } ∧ t.cells.cellStore = s.cells.cellStore ∧ t.cells.arrayStore = s.cells.arrayStore

/-- A selection operation of a cell reaches its places, and its input is not poisoned (R165, R236, R304). -/
def selReach (s : State) (cell : Nat) (srcs dsts : List (Loc × Nat)) : Prop :=
  (∀ e ∈ srcs ++ dsts, storeFits s cell e.1 e.2 = true) ∧ ∀ e ∈ srcs, placeBad s (placeOfLoc cell e.1) e.2 = false

/-- s with a TAP instruction loaded: its code, what acts, BLOCKED, and how the outputs are driven (R417). -/
def tapLoaded (s : State) (code acting : Nat) (blocked driven highZ : Bool) (v : BitVec 128) : State :=
  { s with tap := { s.tap with
    ir := code, acting := acting, blocked := blocked, driven := driven, highZ := highZ, captured := v } }

/-- The link takes doorbells and host accesses: up and not degraded (R240). -/
def linkServes (s : State) : Prop := s.link.up = true ∧ s.link.degraded = false

/-- A queue pair takes a function's doorbells (R251, R258). -/
def pairOpen (s : State) (fn q : Nat) (p : QPair) : Prop :=
  pairOf s q = some p ∧ p.bay = fn ∧ p.stopped = false ∧ p.deleting = none ∧ p.reclaimed = false

/-- An I/O row finds its command, with no Rsvd bit set (R9, R272). -/
def ioTakes (s : State) (q cid opcode : Nat) (c : Cmd) : Prop :=
  takeCmd s q cid opcode = some c ∧ sqeValid c.sqe = true

/-- An admin row finds its command, MGMT's firmware runs and serves it, and no Rsvd bit is set (R9, R279, R379). -/
def adminTakes (s : State) (cid opcode : Nat) (c : Cmd) : Prop :=
  takeCmd s adminQ cid opcode = some c ∧ mgmtAwake s = true ∧ adminServes s c = true ∧ sqeValid c.sqe = true

/-- A write of an object was answered to its master, with the change counter that then stands (R323). -/
def answered (s t : State) (by_ : Master) (i j status : Nat) : Prop :=
  t.out = s.out ++ [.dictAnswer by_ i j status (dictCounter t i j)]

/-- The rows of batch commands with their opcodes and plan kinds. -/
def batchRows (q cid : Nat) (desc : BitVec 1024) (es : List Bytes) : List (Instr × Nat × PlanKind) :=
  [(.search q cid desc es, 0x01, .search), (.encodeSearch q cid desc es, 0x02, .encodeSearch),
   (.encode q cid desc es, 0x03, .encode), (.rerank q cid desc es, 0x04, .rerank)]

/-- No IDE key is held in any direction (R249). -/
def noKeys (s : State) : Prop := ∀ e ∈ s.link.ide, e.2.key0 = none ∧ e.2.key1 = none ∧ e.2.active = none

/-- Neither a queue pair nor a context of a function is left (R243). -/
def functionEnded (s : State) (fn : Nat) : Prop :=
  (∀ p ∈ s.queues.pairs, p.bay ≠ fn) ∧ ∀ c ∈ s.bay.contexts, c.bay ≠ fn

/-- Every function is reset: no pair, no context, the PF's queue registers at 0, VF Enable clear (R243). -/
def functionsReset (s : State) : Prop :=
  (∀ fn, fn < 64 → functionEnded s fn) ∧ s.queues.admin = {} ∧ s.queues.adminCfg = 0 ∧ s.link.vfEnable = false ∧
  s.time.ptmEnabled = false

/-- What binds a bay is unchanged: u is v but for the turns of its contexts (R243, R290). -/
def sameBinding (u v : Bay) : Prop := u = { v with slice := u.slice, promoted := u.promoted }

/-- A reset changed neither the DTB, nor the binding of a bay, nor what an index holds; of the security block it changes at most the command
that an image under verification names (R243, R257). -/
def resetBounded (s t : State) : Prop :=
  t.time.dtb = s.time.dtb ∧ t.sec = { s.sec with staging := t.sec.staging } ∧
  ((∀ cid bs, s.sec.staging ≠ .verifying cid bs) → t.sec.staging = s.sec.staging) ∧ t.tap = s.tap ∧
  (∀ b, sameBinding (bayAt t b) (bayAt s b)) ∧
  ∀ n, (indexAt t n).map (fun x => { x with merge := none, parts := [], deleting := none }) =
    (indexAt s n).map (fun x => { x with merge := none, parts := [], deleting := none })

/-- No admin command in course is named by a CID that a command may carry: what runs on completes none (R257). -/
def noAdminCids (s : State) : Prop :=
  (∀ p ∈ s.queues.pairs, ∀ c, p.deleting = some c → c = noCid) ∧ (∀ x ∈ s.indexes, ∀ c, x.deleting = some c → c = noCid) ∧
  (∀ x ∈ s.indexes, ∀ m, x.merge = some m → m.cid = noCid) ∧ (∀ p ∈ s.bay.plans, ∀ c, p.unloading = some c → c = noCid) ∧
  (∀ p ∈ s.bay.pendingBinds, p.cid = noCid) ∧ (∀ e ∈ s.bay.bays, ∀ x, e.2.expiry = some x → x.2 = noCid) ∧
  (∀ t, s.health.selfTest = some t → t.cid = noCid ∧ ∀ c, t.stopCid = some c → c = noCid) ∧
  (∀ c bs, s.sec.staging = .verifying c bs → c = noCid) ∧ ∀ d ∈ s.queues.deferred, d.q ≠ adminQ

/-- A frame reaches the sequence rules: it arrives, its length and its tag are right, it is a request of this boot with no Rsvd
bit set, and SB_KEY is not zero (R316, R317). -/
def authentic (s : State) (f : Frame) : Prop :=
  frameLost s = false ∧ lengthBad f = false ∧ typeBad f = false ∧ sbKey s ≠ 0 ∧
  f.tag = Config.kmacXsdp (sbKey s) f.header (xdValue f) ∧ xdBoot f.header = s.time.bootCount ∧ xdRsvdOk f.header = true

/-- No block of DRAM and no sector at a flash home is poisoned (R236). -/
def noPoison (s : State) : Prop := s.tier.poison = [] ∧ s.tier.flashPoison = []

/-- A run is safe when every step of it answers a next state. -/
def safeRun (k : Nat) (s : State) : Prop :=
  ∀ j, j ≤ k → ∃ t, Host.Core.run { State := State, Fault := Fault, Refusal := Refusal, step := step, reset := State.reset } j s = .next t

end Sys2Proof.Machine
end

