-- ==== Sys2Proof/Certificates/Slice0/Obligations.lean ====
section
/-! DEFINITION. The statements for the provers. Each row of the table completes in one of them: under hypotheses on the state
and the operands alone, exec answers a next state with the row's own effect and nothing else changed. A clause of the form
t = { s with x := t.x, … } says that no field of the state but those named changes. -/

open Sys2Proof Sys2Proof.Machine

/-! The queue of commands, reset, and what holds of every step. -/

/-- A step runs the command at the front of the queue on the state with the queue's rest. -/
def Obligations.StepRunsFrontCommand : Prop :=
  ∀ (c : Instr) (rest : List Instr) (s : State),
    Machine.step { s with pending := c :: rest } = Machine.exec c { s with pending := rest }

/-- No command ends a run: every step from every state answers a next state. -/
def Obligations.EveryStepAnswersNext : Prop := ∀ s : State, ∃ t, Machine.step s = .next t

/-- The canonical form of the byte stores is kept by every step. -/
def Obligations.StepKeepsStoresWf : Prop :=
  ∀ s t : State, storesWf s → Machine.step s = .next t → storesWf t

/-- The tier map keeps its order at every step. -/
def Obligations.StepKeepsTierMapOrder : Prop :=
  ∀ s t : State, tierMapWf s → Machine.step s = .next t → tierMapWf t

/-- At reset the byte stores have the canonical form and the tier map its order. -/
def Obligations.ResetStoresWf : Prop := storesWf State.reset ∧ tierMapWf State.reset

/-! Time (R24, R25, R250). -/

/-- The PTM rows and the steps of the DTB; a forward step never happens while a query slot is occupied. -/
def Obligations.TimeRows : Prop :=
  (∀ s : State, s.time.ptmEnabled = true → s.link.up = true →
    Machine.exec .ptmRequest s = .next { s with
      time := { s.time with ptmRequestAt := some (s.time.ptmRequestAt.getD s.time.dtb) }, out := s.out ++ [.ptmRequest] }) ∧
  (∀ (s : State) (h : Nat), s.time.ptmEnabled = true → s.link.up = true →
    ∃ t, Machine.exec (.ptmExchange h) s = .next t ∧ t = { s with time := t.time } ∧ t.time.dtb = s.time.dtb ∧
      t.time.ptmOffset = (h : Int) - s.time.dtb ∧ t.time.ptmLast = some s.time.dtb ∧ t.time.ptmFirst = false ∧
      ((h : Int) - s.time.dtb ≤ 1000000 → t.time.slew = (h : Int) - s.time.dtb ∧ t.time.stepDue = none) ∧
      (1000000 < (h : Int) - s.time.dtb → s.time.ptmFirst = true →
        t.time.slew = 0 ∧ t.time.stepDue = some (h - s.time.dtb, s.time.dtb))) ∧
  (∀ (s : State) (r : Nat), s.time.ptmEnabled = true → s.time.ptmRequestAt = some r →
    ∃ t, Machine.exec .ptmTimeout s = .next t ∧ t = { s with time := t.time } ∧ ptmSync t = false ∧ t.time.slew = 0 ∧
      t.time.stepDue = none ∧ s.time.dtb ≤ t.time.dtb ∧ r + 100000000 ≤ t.time.dtb) ∧
  (∀ (s : State) (n r : Nat), s.time.stepDue = some (n, r) → s.adm.queries = [] → s.time.dtb ≤ r + 1000000000 →
    Machine.exec .dtbForwardStep s = .next { s with time := { s.time with dtb := s.time.dtb + n, stepDue := none } }) ∧
  (∀ s : State, s.adm.queries ≠ [] → Machine.exec .dtbForwardStep s = .next s) ∧
  (∀ (s : State) (n r : Nat), s.time.stepDue = some (n, r) → (s.adm.queries ≠ [] ∨ r + 1000000000 < s.time.dtb) →
    Machine.exec .dtbStepAbandon s = .next { s with
      time := { s.time with dtb := max s.time.dtb (r + 1000000000), stepDue := none, slew := n } }) ∧
  (∀ (s : State) (n r : Nat), s.time.stepDue = some (n, r) → s.adm.queries = [] → s.time.dtb ≤ r + 1000000000 →
    Machine.exec .dtbStepAbandon s = .next { s with time := { s.time with dtb := s.time.dtb + n, stepDue := none } }) ∧
  (∀ (s : State) (on : Bool), s.link.up = true →
    ∃ t, Machine.exec (.ptmEnableWrite on) s = .next t ∧ t = { s with time := t.time } ∧
      t.time.ptmEnabled = on ∧ t.time.dtb = s.time.dtb ∧
      (on = false → ptmSync t = false ∧ t.time.slew = 0 ∧ t.time.ptmFirst = true))

/-- The DTB restarts from 0 with the boot counter one higher, or it does not decrease and the boot counter stands: no step of
any command does anything else, so that a pair of boot counter and DTB identifies an instant. -/
def Obligations.DtbNeverDecreases : Prop :=
  (∀ s t : State, Machine.step s = .next t →
    (t.time.bootCount = s.time.bootCount ∧ s.time.dtb ≤ t.time.dtb) ∨
    (t.time.bootCount = s.time.bootCount + 1 ∧ t.time.dtb = 0)) ∧
  (∀ (s : State) (straps : Nat), s.pins.auxGood = false →
    ∃ t, Machine.exec (.auxPowerUp straps) s = .next t ∧ t.time.dtb = 0 ∧ t.time.bootCount = s.time.bootCount + 1 ∧
      identValue t 0x1001 1 = (s.time.bootCount + 1).toNat)

/-- On an empty queue time passes: the DTB advances on a fast clock by 0 to 2 ns, on the crystal by 30,502 to 30,533 ns, and
never goes backward; the idle timers of the domains run, and unless an image is under verification nothing else changes; a verification
ends, with its verdict in the staging area and the completion of its FW_STAGE (model's choices, log entries 1 and 143). -/
def Obligations.EmptyQueueTicks : Prop :=
  (∀ s : State, s.pending = [] → s.pins.poweringDown = false → (∀ cid bs, s.sec.staging ≠ .verifying cid bs) →
    ∃ t, Machine.step s = .next t ∧ t = { s with time := t.time, power := { s.power with domains := t.power.domains } } ∧
      s.time.dtb ≤ t.time.dtb ∧
      (s.pins.mainOn = true → t.time.dtb ≤ s.time.dtb + 2) ∧
      (s.pins.mainOn = false → s.time.dtb + 30502 ≤ t.time.dtb ∧ t.time.dtb ≤ s.time.dtb + 30533)) ∧
  (∀ (s : State) (cid : Nat) (bs : Bytes), s.pending = [] → s.pins.poweringDown = false → s.sec.staging = .verifying cid bs →
    ∃ t, Machine.step s = .next t ∧
      t = { s with
        time := t.time, power := { s.power with domains := t.power.domains }, sec := { s.sec with staging := t.sec.staging },
        queues := t.queues, out := t.out } ∧
      t.sec.staging = (match (judgeImage s bs).2 with
        | some f => Staging.image f
        | none => Staging.empty) ∧
      (s.link.degraded = false → flag s.queues.adminCfg 63 = true → ∀ c, runningCmd s adminQ cid = some c →
        ∃ r, t.out = s.out ++ .completion adminQ s.queues.admin.cqTail (completionEntry (((judgeImage s bs).2.map imageResult).getD 0)
          t.time.dtb cid c.sqHead adminQ (judgeImage s bs).1 0 0 s.queues.admin.phase) :: r))

/-! Queues (R251, R255 to R265, R273). -/

/-- Doorbells of I/O pairs: the tail or the head is written, the arrival of new entries is marked, every other pair stands. -/
def Obligations.DoorbellRows : Prop :=
  (∀ (s : State) (fn q : Nat) (v : Word32) (p : QPair), linkServes s → pairOpen s fn q p → q ≠ adminQ →
    v.toNat % 65536 < p.q.sqDepth →
    ∃ t, Machine.exec (.sqTailDoorbell fn q v) s = .next t ∧ t = { s with queues := t.queues, power := t.power } ∧
      pairOf t q = some { p with q := { p.q with
        sqTail := v.toNat % 65536, marks := if v.toNat % 65536 = p.q.sqTail then p.q.marks else p.q.marks ++ [(v.toNat % 65536,
          s.time.dtb)] } } ∧
      t.queues.admin = s.queues.admin ∧ ∀ q', q' ≠ q → pairOf t q' = pairOf s q') ∧
  (∀ (s : State) (fn q : Nat) (v : Word32) (p : QPair), linkServes s → pairOpen s fn q p → q ≠ adminQ →
    v.toNat % 65536 < p.q.cqDepth →
    ∃ t, Machine.exec (.cqHeadDoorbell fn q v) s = .next t ∧ t = { s with queues := t.queues, power := t.power } ∧
      pairOf t q = some { p with q := { p.q with cqHead := v.toNat % 65536 } } ∧
      t.queues.admin = s.queues.admin ∧ ∀ q', q' ≠ q → pairOf t q' = pairOf s q')

/-- A doorbell that is dropped moves no queue: a value not below the depth, a pair that does not exist, is stopped or is being
deleted, each counted in the link page. -/
def Obligations.DroppedDoorbells : Prop :=
  ∀ (s : State) (fn q : Nat) (v : Word32), linkServes s →
    (∀ p, pairOf s q = some p → p.bay = fn ∧ (p.stopped = true ∨ p.deleting ≠ none ∨ p.q.sqDepth ≤ v.toNat % 65536)) →
    ∃ t, Machine.exec (.sqTailDoorbell fn q v) s = .next t ∧ t = { s with link := { s.link with counters := t.link.counters } } ∧
      ∀ c, lookupKey s.link.counters fn = some c → c.dbStopped < 2 ^ 64 - 1 → c.dbBadValue < 2 ^ 64 - 1 →
        ∃ d, lookupKey t.link.counters fn = some d ∧ d.dbStopped + d.dbBadValue = c.dbStopped + c.dbBadValue + 1 ∧
          d = { c with dbStopped := d.dbStopped, dbBadValue := d.dbBadValue }

/-- The admin queue's doorbells and registers: the depths and bases are written at enable; a disable clears ENABLE and the running commands, what
they left in course completes no command that comes later, and of an I/O pair no more than that changes. -/
def Obligations.AdminQueueRows : Prop :=
  (∀ (s : State) (v : Word32), linkServes s → flag s.queues.adminCfg 63 = true → v.toNat % 65536 < s.queues.admin.sqDepth →
    ∃ t, Machine.exec (.adminSqTail v) s = .next t ∧ t = { s with queues := t.queues, power := t.power } ∧
      t.queues = { s.queues with admin := { s.queues.admin with
        sqTail := v.toNat % 65536,
          marks := if v.toNat % 65536 = s.queues.admin.sqTail then s.queues.admin.marks else s.queues.admin.marks ++ [(v.toNat % 65536, s.time.dtb)] } }) ∧
  (∀ (s : State) (v : Word32), linkServes s → flag s.queues.adminCfg 63 = true → v.toNat % 65536 < s.queues.admin.cqDepth →
    ∃ t, Machine.exec (.adminCqHead v) s = .next t ∧ t = { s with queues := t.queues, power := t.power } ∧
      t.queues = { s.queues with admin := { s.queues.admin with cqHead := v.toNat % 65536 } }) ∧
  (∀ (s : State) (a b cfg : Word64), s.link.up = true → flag s.queues.adminCfg 63 = false →
    ∃ t, Machine.exec (.adminEnable a b cfg) s = .next t ∧ t = { s with queues := t.queues } ∧
      t.queues.pairs = s.queues.pairs ∧ t.queues.admin.sqBase = a.toNat ∧ t.queues.admin.cqBase = b.toNat ∧
      t.queues.admin.sqDepth = field cfg 0 12 + 1 ∧ t.queues.admin.cqDepth = field cfg 16 12 + 1 ∧
      t.queues.admin.phase = true ∧ t.queues.admin.cmds = [] ∧
      flag t.queues.adminCfg 63 = (field cfg 0 12 != 0 && field cfg 16 12 != 0)) ∧
  (∀ (s : State) (a b cfg : Word64), flag s.queues.adminCfg 63 = true → Machine.exec (.adminEnable a b cfg) s = .next s) ∧
  (∀ s : State, s.link.up = true →
    ∃ t, Machine.exec .adminDisable s = .next t ∧
      t = { s with
        queues := t.queues, indexes := t.indexes, bay := t.bay, health := t.health, sec := t.sec } ∧
      t.queues.pairs = s.queues.pairs.map (fun p => { p with deleting := p.deleting.map (fun _ => noCid) }) ∧
      t.queues.deferred = s.queues.deferred.filter (fun d => d.q != adminQ) ∧ resetBounded s t ∧ noAdminCids t ∧
      flag t.queues.adminCfg 63 = false ∧ t.queues.admin = { s.queues.admin with cmds := [] })

/-- A submission entry is consumed only when a completion slot is free: then the head moves by one and its command waits to be
decided; without a slot nothing but a link counter changes. -/
def Obligations.ConsumptionNeedsCompletionSlot : Prop :=
  (∀ (s : State) (q : Nat) (sqe : BitVec 512) (u : Queue), linkServes s → queueOf s q = some u → queueFetches s q = true →
    u.sqHead ≠ u.sqTail → (q = adminQ → u.cmds.length < 64) → cqSlotFree u = true →
    earlyRefusal s q (consumedCmd u sqe s.time.dtb) = none →
    ∃ t, Machine.exec (.submissionConsume q sqe) s = .next t ∧ t = { s with queues := t.queues } ∧
      queueOf t q = some { advanceHead u with cmds := u.cmds ++ [consumedCmd u sqe s.time.dtb] }) ∧
  (∀ (s : State) (q : Nat) (sqe : BitVec 512) (u : Queue), queueOf s q = some u → cqSlotFree u = false →
    ∃ t, Machine.exec (.submissionConsume q sqe) s = .next t ∧ t = { s with link := { s.link with counters := t.link.counters } })

/-- One completion: the command's record leaves its queue, one entry with the current phase goes to the slot at the completion
tail, the tail moves by one slot and the phase inverts at the wrap; everything but the queues and the outputs stands. While the link is
degraded no entry is written: the completion is kept behind those that wait already (model's choice, log entry 144). -/
def Obligations.CompletionPostsOneEntry : Prop :=
  (∀ (s : State) (q : Nat) (c : Cmd) (status result nacc ndiff : Nat) (u : Queue),
    queueOf s q = some u → queueWrites s q = true → s.link.degraded = false →
    postRecord s q c status result nacc ndiff = { s with
      queues := (postRecord s q c status result nacc ndiff).queues, out := (postRecord s q c status result nacc ndiff).out } ∧
    (∃ r, (postRecord s q c status result nacc ndiff).out = s.out ++
      .completion q u.cqTail (completionEntry result s.time.dtb c.cid c.sqHead q status nacc ndiff u.phase) :: r ∧
      (r = [] ∨ r = [.msix (bayOfQueue s q) u.msix])) ∧
    ∃ v, queueOf (postRecord s q c status result nacc ndiff) q = some v ∧
      v.cmds = removeFirst (fun x => x.seq == c.seq) u.cmds ∧
      v.cqTail = (if u.cqTail + 1 < u.cqDepth then u.cqTail + 1 else 0) ∧
      v.phase = (if u.cqTail + 1 < u.cqDepth then u.phase else !u.phase) ∧ v.sqHead = u.sqHead ∧ v.sqTail = u.sqTail) ∧
  (∀ (s : State) (q : Nat) (c : Cmd) (status result nacc ndiff : Nat) (u : Queue),
    queueOf s q = some u → s.link.degraded = true →
    postRecord s q c status result nacc ndiff = { s with queues := (postRecord s q c status result nacc ndiff).queues } ∧
    (postRecord s q c status result nacc ndiff).queues.deferred = s.queues.deferred ++
      [{ q := q, cmd := c, status := status, result := result, nacc := nacc, ndiff := ndiff }] ∧
    queueOf (postRecord s q c status result nacc ndiff) q = some { u with cmds := removeFirst (fun x => x.seq == c.seq) u.cmds })

/-- Interrupts and host read faults of a queue: a masked vector becomes pending instead of a message; a failed read of an entry stops its
pair and completes the entry with ST_HOST_FAULT under a free CID (model's choice, log entry 142); a failed block ends its command. -/
def Obligations.QueueEventRows : Prop :=
  (∀ (s : State) (q : Nat) (u : Queue), queueOf s q = some u → u.intEn = true → 0 < u.uncovered →
    ∃ t, Machine.exec (.msixCoalesceTimer q) s = .next t ∧ t = { s with time := t.time, queues := t.queues, out := t.out } ∧
      (msixMasked s (bayOfQueue s q) u.msix = false → t.out = s.out ++ [.msix (bayOfQueue s q) u.msix]) ∧
      (msixMasked s (bayOfQueue s q) u.msix = true → t.out = s.out ∧ (bayOfQueue s q, u.msix) ∈ t.queues.msixPending) ∧
      queueOf t q = some { u with uncovered := 0 } ∧
      u.oldest + 50000 ≤ t.time.dtb ∧ s.time.dtb ≤ t.time.dtb) ∧
  (∀ (s : State) (q cid : Nat) (p : QPair), q ≠ adminQ → pairOf s q = some p → entryDue s q p.q = true → cqSlotFree p.q = true →
    (∀ d ∈ p.q.cmds, d.seq ≠ p.q.consumed) →
    ∃ t n r, Machine.exec (.hostReadFault q cid .entry) s = .next t ∧
      t = { s with queues := t.queues, link := t.link, out := t.out, free := t.free } ∧
      t.out = s.out ++ .completion q p.q.cqTail (completionEntry 0 s.time.dtb n (advanceHead p.q).sqHead q stHostFault 0 0 p.q.phase) :: r ∧
      (∃ p', pairOf t q = some p' ∧ p'.stopped = true ∧ p'.q.sqHead = (advanceHead p.q).sqHead ∧ p'.q.cmds = p.q.cmds ∧ p'.ctx = p.ctx) ∧
      ∀ q', q' ≠ q → pairOf t q' = pairOf s q') ∧
  (∀ (s : State) (q cid : Nat) (u : Queue) (c : Cmd), queueOf s q = some u → nextUndecided u = some c → c.cid = cid →
    queueWrites s q = true → s.link.degraded = false →
    ∃ t r, Machine.exec (.hostReadFault q cid .block) s = .next t ∧
      t = { s with queues := t.queues, link := t.link, out := t.out } ∧
      t.out = s.out ++ .completion q u.cqTail (completionEntry 0 s.time.dtb cid c.sqHead q stHostFault 0 0 u.phase) :: r)

/-- The completion of a batch: every accepted position is done; the entry carries NACC and NDIFF and the slots of the batch are
free afterwards. -/
def Obligations.BatchCompletion : Prop :=
  ∀ (s : State) (q cid : Nat) (p : QPair) (c : Cmd), q ≠ adminQ → pairOf s q = some p → runningCmd s q cid = some c →
    1 ≤ sqeOpcode c.sqe → sqeOpcode c.sqe ≤ 4 → batchOver s q cid = true → s.link.degraded = false →
    (∀ x, ctxAt s p.ctx = some x → x.reclaimed = false) →
    ∃ t r, Machine.exec (.batchCompletionPost q cid) s = .next t ∧
      t = { s with queues := t.queues, out := t.out, adm := t.adm, bay := t.bay } ∧
      t.out = s.out ++ .completion q p.q.cqTail (completionEntry 0 s.time.dtb c.cid c.sqHead q
        (if c.ndiff = 0 then stOk else stQueryStatus) c.nacc c.ndiff p.q.phase) :: r ∧
      ∀ x ∈ t.adm.queries, ¬(x.q = q ∧ x.cid = cid)

/-- Creation and deletion of queue pairs. -/
def Obligations.QueuePairRows : Prop :=
  (∀ (s : State) (cid : Nat) (c : Cmd), adminTakes s cid 0x82 c →
    ((newPair c.sqe).lc && refitHolds s 0x2000 1) = false → ((newPair c.sqe).bay == 0 && refitHolds s 0x3000 0) = false →
    bayReclaiming s (newPair c.sqe).bay = false → qpFieldsOk c.sqe = true → pairOf s (newPair c.sqe).id = none →
    fnEnabled s (newPair c.sqe).bay = true →
    (∀ x, ctxAt s (newPair c.sqe).ctx = some x → x.bay = (newPair c.sqe).bay ∧ x.ending = false) →
    (s.queues.pairs.filter (fun x => x.bay == (newPair c.sqe).bay)).length < (bayAt s (newPair c.sqe).bay).qpairs →
    liftsFloor s (addPair s (newPair c.sqe)) = false →
    ∃ t, Machine.exec (.qpCreate cid) s = .next t ∧
      t = { s with queues := t.queues, bay := t.bay, power := t.power, out := t.out } ∧
      pairOf t (newPair c.sqe).id = some (newPair c.sqe) ∧ (ctxAt t (newPair c.sqe).ctx).isSome = true) ∧
  (∀ (s : State) (cid : Nat) (c : Cmd) (p : QPair), adminTakes s cid 0x83 c → pairOf s (field c.sqe 64 12) = some p →
    p.deleting = none →
    ∃ t, Machine.exec (.qpDelete cid) s = .next t ∧ t = { s with queues := t.queues } ∧
      pairOf t (field c.sqe 64 12) = some { p with
        deleting := some c.cid, afterDelete := 0, q := { p.q with sqTail := p.q.sqHead, marks := [] } } ∧
      ∀ q', q' ≠ field c.sqe 64 12 → pairOf t q' = pairOf s q') ∧
  (∀ (s : State) (qp cid : Nat) (p : QPair), pairOf s qp = some p → p.q.cmds = [] → p.deleting = some cid →
    (∀ d ∈ s.queues.deferred, d.q ≠ qp) → s.queues.pairs.any (fun x => x.id != qp && x.ctx == p.ctx) = true →
    ∃ t, Machine.exec (.qpDeleteComplete qp) s = .next t ∧ t = { s with queues := t.queues, out := t.out } ∧
      pairOf t qp = none ∧
      t = postCompletion { s with queues := { s.queues with pairs := s.queues.pairs.filter (fun x => x.id != qp) } }
        adminQ cid stOk p.afterDelete)

/-! The link (R239 to R250, R421). -/

/-- Training, loss and loopback of the link: a training ends the degraded state exactly in CXL mode at a width and a rate that the link
supports, and the completions kept meanwhile are posted then (log entry 144); an IDE failure is fatal through AER. -/
def Obligations.LinkRows : Prop :=
  (∀ (s : State) (cxl : Bool) (width rate : Nat) (flit : Bool), s.pins.mainOn = true → s.pins.perstN = true →
    ∃ t, Machine.exec (.linkTrained cxl width rate flit) s = .next t ∧
      t = { s with link := t.link, pins := t.pins, queues := t.queues, out := t.out } ∧
      t.link.up = true ∧ t.link.width = width ∧ t.link.rate = rate ∧
      (t.link.degraded = false ↔ cxl = true ∧ (width = 4 ∨ width = 8 ∨ width = 16) ∧ (rate = 16 ∨ rate = 32 ∨ rate = 64)) ∧
      (t.link.degraded = true ∨ s.queues.deferred = [] → t.queues = s.queues ∧ t.out = s.out) ∧
      (t.link.degraded = false → t.queues.deferred = [] ∧
        ∀ d ∈ s.queues.deferred, (queueOf s d.q).isSome = true → queueWrites s d.q = true →
          ∃ slot phase, .completion d.q slot (completionEntry d.result s.time.dtb d.cmd.cid d.cmd.sqHead d.q d.status d.nacc d.ndiff phase) ∈
            t.out) ∧
      (t.link.memOn = true → (flit = true ∨ rate = 64) ∧ t.link.degraded = false) ∧
      t.link.ready = (!t.link.degraded && s.sec.mgmtReady && s.health.fatal == .none && !s.pins.poweringDown) ∧
      t.pins = { s.pins with modReady := t.link.ready }) ∧
  (∀ s : State, s.link.up = true →
    ∃ t, Machine.exec .linkDown s = .next t ∧ resetBounded s t ∧ t.sb = s.sb ∧ t.link.up = false ∧ t.link.ready = false ∧ t.pins.modReady = false ∧ noKeys t ∧
      t.link.sessions = [] ∧ t.link.memOn = false ∧ t.link.cacheOn = false ∧ functionsReset t ∧ t.dict.stage.lock ≠ some .host) ∧
  (∀ (s : State) (rate : Nat), s.pins.mainOn = true → s.pins.perstN = true → (rate = 64 ∨ rate = 32 ∨ rate = 16) →
    ∃ t, Machine.exec (.linkLoopbackEntry rate) s = .next t ∧ resetBounded s t ∧ t.sb = s.sb ∧ t.link.loopback = some rate ∧ t.link.up = false) ∧
  (∀ (s : State) (stream : Nat), s.link.up = true → stream < 2 →
    ∃ t, Machine.exec (.ideIntegrityFail stream) s = .next t ∧ resetBounded s t ∧ t.link.ideInsecure = [stream] ∧ t.link.up = false ∧ noKeys t ∧
      t.link.ideFails = s.link.ideFails + 1 ∧ t.link.ideFailDtb = s.time.dtb ∧ stream ∈ t.link.aerFatal ∧ .aerFatal stream ∈ t.out)

/-- The resets of functions through the link, and VF Enable. -/
def Obligations.FunctionResetRows : Prop :=
  (∀ (s : State) (fn : Nat), 1 ≤ fn → fn < 64 → s.link.vfEnable = true → s.link.up = true →
    ∃ t, Machine.exec (.vfFlr fn) s = .next t ∧ t = resetFunction (some stContextEnded) s fn ∧ functionEnded t fn ∧
      resetBounded s t ∧ t.link = s.link ∧ t.pins = s.pins ∧ t.time = s.time ∧ t.dict = s.dict ∧ t.sb = s.sb ∧
      (∀ p ∈ s.queues.pairs, p.bay ≠ fn → (∀ d ∈ s.bay.contexts, d.bay = fn → d.num ≠ p.ctx) →
        ∃ y ∈ t.queues.pairs, y.id = p.id ∧ y.ctx = p.ctx ∧ y.bay = p.bay ∧ y.stopped = p.stopped) ∧
      ∀ c ∈ s.bay.contexts, c.bay ≠ fn → (∀ d ∈ s.bay.contexts, d.bay = fn → d.num ≠ c.num) →
        ∃ y ∈ t.bay.contexts, y.num = c.num ∧ y.bay = c.bay) ∧
  (∀ s : State, s.link.up = true →
    ∃ t, Machine.exec .pfFlr s = .next t ∧ functionsReset t ∧ resetBounded s t ∧ t.sb = s.sb ∧ t.pins = s.pins ∧
      t.link = { s.link with vfEnable := false } ∧ t.dict.stage.lock ≠ some .host) ∧
  (∀ s : State, s.link.up = true →
    ∃ t, Machine.exec .hotReset s = .next t ∧ functionsReset t ∧ resetBounded s t ∧ t.sb = s.sb ∧ t.pins = s.pins ∧
      t.link.memOn = false ∧ t.link.cacheOn = false ∧
      t.link.cache = [] ∧ t.dict.stage.lock ≠ some .host) ∧
  (∀ s : State, s.link.up = true → s.link.vfEnable = true →
    ∃ t, Machine.exec .vfEnableClear s = .next t ∧ functionsReset t ∧ resetBounded s t ∧ t.sb = s.sb ∧ t.pins = s.pins ∧
      t.dict = s.dict ∧ t.link = { s.link with vfEnable := false }) ∧
  (∀ s : State, s.link.up = true → Machine.exec .vfEnableSet s = .next { s with link := { s.link with vfEnable := true } })

/-- The enables of CXL.mem and CXL.cache, decoders, snoops and back-invalidations; a committed decoder is changed by nothing but a commit
of size 0, which uncommits it and gives up the lines that the host caches of its range (model's choice, log entry 141). -/
def Obligations.WindowControlRows : Prop :=
  (∀ (s : State) (on : Bool), s.link.up = true → (on = true → s.link.degraded = false) →
    ∃ t, Machine.exec (.cxlCacheEnable on) s = .next t ∧ t = { s with link := t.link } ∧ t.link.cacheOn = on ∧
      (on = false → t.link.cache = [])) ∧
  (∀ (s : State) (on : Bool), s.link.up = true → (on = true → s.link.degraded = false ∧ s.link.flit256 = true) →
    ∃ t, Machine.exec (.cxlMemEnable on) s = .next t ∧ t = { s with link := t.link } ∧ t.link.memOn = on ∧
      (on = false → t.link.snoopFilter = [])) ∧
  (∀ (s : State) (n base size skip : Nat) (d : HdmDecoder), lookupKey s.link.hdm n = some d → n < 4 → s.link.up = true →
    s.link.flit256 = true → d.committed = false → base % 2 ^ 28 = 0 → size % 2 ^ 28 = 0 → skip % 2 ^ 28 = 0 → 0 < size →
    skip + size ≤ s.sec.order.dpaSpan →
    ∃ t, Machine.exec (.hdmDecoderCommit n base size skip) s = .next t ∧ t = { s with link := { s.link with hdm := t.link.hdm } } ∧
      lookupKey t.link.hdm n = some { base := base, size := size, skip := skip, committed := true } ∧
      ∀ m, m ≠ n → lookupKey t.link.hdm m = lookupKey s.link.hdm m) ∧
  (∀ (s : State) (n base size skip : Nat) (d : HdmDecoder), lookupKey s.link.hdm n = some d → d.committed = true → size ≠ 0 →
    Machine.exec (.hdmDecoderCommit n base size skip) s = .next s) ∧
  (∀ (s : State) (n base skip : Nat) (d : HdmDecoder), lookupKey s.link.hdm n = some d → d.committed = true → s.link.up = true →
    ∃ t, Machine.exec (.hdmDecoderCommit n base 0 skip) s = .next t ∧ t = { s with link := t.link, out := t.out } ∧
      t.link = { s.link with hdm := t.link.hdm, snoopFilter := t.link.snoopFilter } ∧ lookupKey t.link.hdm n = some {} ∧
      (∀ m, m ≠ n → lookupKey t.link.hdm m = lookupKey s.link.hdm m) ∧
      ∀ l ∈ t.link.snoopFilter, ¬(d.skip + 2 ^ 30 ≤ l ∧ l < d.skip + 2 ^ 30 + d.size)) ∧
  (∀ (s : State) (line : Nat), ∃ t, Machine.exec (.cxlCacheSnoop line) s = .next t ∧
    t = { s with link := { s.link with cache := t.link.cache } } ∧ line / 64 * 64 ∉ t.link.cache ∧
    ∀ x ∈ s.link.cache, x ≠ line / 64 * 64 → x ∈ t.link.cache) ∧
  (∀ (s : State) (line : Nat), line / 64 * 64 ∈ s.link.snoopFilter →
    ∃ t, Machine.exec (.bisnpinv line) s = .next t ∧
      t = { s with link := { s.link with snoopFilter := t.link.snoopFilter }, out := t.out } ∧
      t.out = s.out ++ [.bisnp (line / 64 * 64)] ∧ line / 64 * 64 ∉ t.link.snoopFilter)

/-! The staging area of the dictionary (R329 to R334). -/

/-- The staging lock and the frame: each write of the holder changes the staging state as its rule says, is answered with ST_OK,
and changes nothing outside the dictionary. -/
def Obligations.StagingRows : Prop :=
  (∀ (s : State) (m : Master), masterReaches s m = true → dictServes s = true → s.dict.stage.lock = none →
    ∃ t, Machine.exec (.stageLockTake m) s = .next t ∧ t = { writeStart s m with dict := t.dict, out := t.out } ∧
      t.dict.stage = { s.dict.stage with lock := some m, lastWrite := (writeStart s m).time.dtb } ∧ answered s t m 0x8000 0 stOk) ∧
  (∀ (s : State) (m : Master), masterReaches s m = true → dictServes s = true → s.dict.stage.lock = some m → raiseActive s = false →
    ∃ t, Machine.exec (.stageLockRelease m) s = .next t ∧ t = { writeStart s m with dict := t.dict, out := t.out } ∧
      t.dict.stage = { s.dict.stage with lock := none, frame := [] } ∧ answered s t m 0x8000 0 stOk) ∧
  (∀ (s : State) (m : Master) (i j : Nat) (v : Bytes) (o : Obj), masterReaches s m = true → dictServes s = true →
    s.dict.stage.lock = some m →
    raiseActive s = false → objAt i j = some o → o.right = .rws → (m = .host → v.length = o.size) →
    (putStaged s.dict.stage.frame (i, j, v.length, leNat v)).length ≤ 64 →
    frameBytes (putStaged s.dict.stage.frame (i, j, v.length, leNat v)) ≤ 8192 →
    ∃ t, Machine.exec (.stagedObjectWrite m i j v) s = .next t ∧
      t = { writeStart s m with dict := { s.dict with stage := t.dict.stage, hostTick := t.dict.hostTick, hostWrote := t.dict.hostWrote }, out := t.out } ∧
      t.dict.stage.frame = putStaged s.dict.stage.frame (i, j, v.length, leNat v) ∧ t.dict.stage.lock = some m ∧
      t.dict.stage.fit ≠ .passed ∧ answered s t m i j stOk) ∧
  (∀ (s : State) (m : Master), masterReaches s m = true → dictServes s = true → s.dict.stage.lock = some m → raiseActive s = false →
    ∃ t, Machine.exec (.stageDiscard m) s = .next t ∧ t = { writeStart s m with dict := t.dict, out := t.out } ∧
      t.dict.stage = { s.dict.stage with frame := [], lastWrite := (writeStart s m).time.dtb } ∧ answered s t m 0x8002 0 stOk) ∧
  (∀ (s : State) (m : Master), masterReaches s m = true → dictServes s = true → s.dict.stage.lock = some m → raiseActive s = false →
    s.dict.stage.fit ≠ .running →
    ∃ t, Machine.exec (.dryFit m) s = .next t ∧ t = { writeStart s m with dict := t.dict, out := t.out } ∧
      t.dict.stage = { s.dict.stage with fit := .running, lastWrite := (writeStart s m).time.dtb } ∧ answered s t m 0x8020 0 stOk) ∧
  (∀ s : State, s.dict.stage.fit = .running →
    ∃ t, Machine.exec .dryFitComplete s = .next t ∧ t = { s with dict := { s.dict with stage := t.dict.stage }, free := t.free } ∧
      t.dict.stage.fit = (if fitFailures s = [] then .passed else .failed) ∧ t.dict.stage.frame = s.dict.stage.frame ∧
      (∀ r o l, fitFailures s = (r, o) :: l →
        t.dict.stage.fitRule = r ∧ t.dict.stage.fitObject = o ∧ t.dict.stage.fitFails = l.length + 1)) ∧
  (∀ (s : State) (m : Master), s.dict.stage.lock = some m → raiseActive s = false →
    ∃ t, Machine.exec .lockLapse s = .next t ∧
      t = { s with
        free := t.free, out := t.out, time := t.time, pins := t.pins, health := t.health, dict := t.dict, sb := t.sb } ∧
      t.dict.stage.lock = none ∧ t.dict.stage.frame = [] ∧
      s.dict.stage.lastWrite + lockIdle s ≤ t.time.dtb ∧ s.time.dtb ≤ t.time.dtb)

/-- A write that needs the staging lock from a master that does not hold it is refused and leaves the staging state alone. -/
def Obligations.StagingNeedsLock : Prop :=
  ∀ (s : State) (m : Master), masterReaches s m = true → dictServes s = true → s.dict.stage.lock ≠ some m →
    (∃ t, Machine.exec (.stageDiscard m) s = .next t ∧ t = { writeStart s m with out := t.out } ∧
      answered s t m 0x8002 0 stBusyOtherMaster) ∧
    (∃ t, Machine.exec (.dryFit m) s = .next t ∧ t = { writeStart s m with out := t.out } ∧
      answered s t m 0x8020 0 stBusyOtherMaster) ∧
    (∃ t, Machine.exec (.raiseImmediate m) s = .next t ∧ t = { writeStart s m with out := t.out } ∧
      answered s t m 0x8030 0 stBusyOtherMaster) ∧
    (∃ t, Machine.exec (.raiseCancel m) s = .next t ∧ t = { writeStart s m with out := t.out } ∧
      answered s t m 0x8030 0 stBusyOtherMaster)

/-- Raises: a request of a fit frame is pending; the refit decides; the raise makes the frame empty, the lock free and the tick
known; a cancel and an expiry keep the lock. -/
def Obligations.RaiseRows : Prop :=
  (∀ (s : State) (m : Master), masterReaches s m = true → dictServes s = true → s.dict.stage.lock = some m → raiseActive s = false →
    s.dict.stage.fit = .passed →
    ∃ t, Machine.exec (.raiseImmediate m) s = .next t ∧ t = { writeStart s m with dict := t.dict, out := t.out } ∧
      t.dict.stage = { s.dict.stage with
        raise := .pending, mode := some .immediate, requested := (writeStart s m).time.dtb, refitOk := false,
          lastWrite := (writeStart s m).time.dtb } ∧
      answered s t m 0x8030 0 stOk) ∧
  (∀ (s : State) (m : Master) (r : Word64), masterReaches s m = true → dictServes s = true → s.dict.stage.lock = some m →
    raiseActive s = false →
    s.dict.stage.fit = .passed → (writeStart s m).time.dtb + 2000000 ≤ r.toNat →
      r.toNat ≤ (writeStart s m).time.dtb + 86400000000000 →
    ∃ t, Machine.exec (.raiseAtTime m r) s = .next t ∧ t = { writeStart s m with dict := t.dict, out := t.out } ∧
      t.dict.stage = { s.dict.stage with
        raise := .pending, mode := some (.atTime r.toNat), requested := (writeStart s m).time.dtb, refitOk := false,
          lastWrite := (writeStart s m).time.dtb } ∧
      answered s t m 0x8030 0 stOk) ∧
  (∀ (s : State) (m : Master) (l : Word64), masterReaches s m = true → dictServes s = true → s.dict.stage.lock = some m →
    raiseActive s = false →
    s.dict.stage.fit = .passed → 1000000 ≤ l.toNat → l.toNat ≤ 60000000000 →
    ∃ t, Machine.exec (.raiseAtIdle m l) s = .next t ∧ t = { writeStart s m with dict := t.dict, out := t.out } ∧
      t.dict.stage = { s.dict.stage with
        raise := .pending, mode := some (.atIdle l.toNat), requested := (writeStart s m).time.dtb, refitOk := false,
          lastWrite := (writeStart s m).time.dtb } ∧
      answered s t m 0x8030 0 stOk) ∧
  (∀ (s : State) (m : Master), masterReaches s m = true → dictServes s = true → s.dict.stage.lock = some m →
    s.dict.stage.raise = .pending →
    ∃ t, Machine.exec (.raiseCancel m) s = .next t ∧ t = { writeStart s m with dict := t.dict, out := t.out } ∧
      t.dict.stage = { s.dict.stage with raise := .cancelled, mode := none, lastWrite := (writeStart s m).time.dtb } ∧
      answered s t m 0x8030 0 stOk) ∧
  (∀ s : State, s.dict.stage.raise = .pending → s.health.fatal = .none →
    ∃ t, Machine.exec .raiseRefit s = .next t ∧
      t = { s with
        free := t.free, out := t.out, time := t.time, pins := t.pins, health := t.health, dict := t.dict, sb := t.sb } ∧
      t.dict.stage.lock = s.dict.stage.lock ∧ t.dict.stage.frame = s.dict.stage.frame ∧
      s.time.dtb ≤ t.time.dtb ∧
      (t.dict.stage.raise = .refit ∧ t.dict.stage.refitOk = true ∨
        t.dict.stage.raise = .refitFailed ∧ t.dict.stage.mode = none) ∧
      ((∀ r, s.dict.stage.mode ≠ some (.atTime r)) → (t.dict.stage.raise = .refit ↔ fitFailures s = []))) ∧
  (∀ s : State, s.dict.stage.raise = .refit → s.dict.stage.refitOk = true → s.health.fatal = .none →
    s.dict.stage.mode = some .immediate →
    ∃ t, Machine.exec .dictRaise s = .next t ∧ t = raiseNow s ∧ t.dict.stage.lock = none ∧ t.dict.stage.frame = [] ∧
      t.dict.stage.raise = .done ∧ t.dict.stage.raiseTick = s.time.dtb ∧
      t.dict.stage.raiseObjects = s.dict.stage.frame.length) ∧
  (∀ (s : State) (l : Nat), s.dict.stage.raise = .refit → s.health.fatal = .none → s.dict.stage.mode = some (.atIdle l) →
    ∃ t, Machine.exec .raiseExpiry s = .next t ∧
      t = { s with
        free := t.free, out := t.out, time := t.time, pins := t.pins, health := t.health, dict := t.dict, sb := t.sb } ∧
      t.dict.stage.raise = .expired ∧ t.dict.stage.lock = s.dict.stage.lock ∧
      t.dict.stage.frame = s.dict.stage.frame ∧ s.dict.stage.requested + l ≤ t.time.dtb)

/-! The dictionary and the receive objects (R322 to R328, R364, R375, R387, R391, R402). -/

/-- DICT_READ and DICT_WRITE: RESULT is the object's change counter, and the bytes read go to the host's buffer. -/
def Obligations.DictCommandRows : Prop :=
  (∀ (s : State) (cid : Nat) (c : Cmd), adminTakes s cid 0x8C c → (readObject s .host (cmdObject c) (cmdSub c)).1 = stOk →
    (readObject s .host (cmdObject c) (cmdSub c)).2.length ≤ cmdBufLen c →
    Machine.exec (.dictRead cid) s = .next (endCmd
      (emit s (.hostWrite adminQ cid (readObject s .host (cmdObject c) (cmdSub c)).2)) adminQ c stOk
      (dictCounter s (cmdObject c) (cmdSub c)).toNat)) ∧
  (∀ (s : State) (cid : Nat) (v : Bytes) (c : Cmd), adminTakes s cid 0x8D c → cmdBufLen c ≤ v.length →
    ∃ t st, Machine.exec (.dictWrite cid v) s = .next (endCmd t adminQ c st (dictCounter t (cmdObject c) (cmdSub c)).toNat) ∧
      (t, st) = noteWrite .host (cmdObject c) (cmdSub c) (writeObject s .host (cmdObject c) (cmdSub c) (v.take (cmdBufLen c)))) ∧
  (∀ (s : State) (cid : Nat) (c : Cmd), takeCmd s adminQ cid 0x8C = some c → adminServes s c = true → sqeValid c.sqe = true →
    s.pins.mainOn = true → (domainAt s 0).state = .retention →
    ∃ t, Machine.exec (.dictRead cid) s = .next t ∧
      t = { s with out := t.out, queues := t.queues, power := t.power } ∧
      (domainAt t 0).state = .waking ∧ (domainAt t 0).lastWake = 0x09) ∧
  (∀ (s : State) (cid : Nat) (v : Bytes) (c : Cmd) (row : Instr), row ∈ [Instr.dictRead cid, .dictWrite cid v] →
    takeCmd s adminQ cid (if row = .dictRead cid then 0x8C else 0x8D) = some c → s.pins.mainOn = true →
    (domainAt s 0).state = .off → Machine.exec row s = .next (endCmd (startWake s 0 0x09) adminQ c stBusyOtherMaster 0))

/-- An object's value takes effect with its change counter one higher; no other object's value or counter changes. -/
def Obligations.ChangeCounterGrowsByOne : Prop :=
  ∀ (s : State) (i j v : Nat), applyObject s i j v = { s with dict := (applyObject s i j v).dict } ∧
    dictCounter (applyObject s i j v) i j = dictCounter s i j + 1 ∧
    (∀ d, dictValue (applyObject s i j v) i j d = v) ∧
    ∀ i' j', (i' ≠ i ∨ j' ≠ j) → dictCounter (applyObject s i j v) i' j' = dictCounter s i' j' ∧
      ∀ d, dictValue (applyObject s i j v) i' j' d = dictValue s i' j' d

/-- The rows named after writes of single objects. -/
def Obligations.ObjectRows : Prop :=
  (∀ (s : State) (m : Master), masterReaches s m = true → dictServes s = true → s.dict.secLock = false →
    ∃ t, Machine.exec (.secLock m) s = .next t ∧ t = { writeStart s m with dict := t.dict, out := t.out } ∧ t.dict.secLock = true ∧
      t.dict.stage = s.dict.stage ∧ answered s t m 0x7000 0 stOk) ∧
  (∀ (s : State) (m : Master) (e : Word32), masterReaches s m = true → dictServes s = true →
    ∃ t, Machine.exec (.errAck m e) s = .next t ∧ t = { writeStart s m with dict := t.dict, pins := t.pins, out := t.out } ∧
      dictValue t 0x600B 0 0 = e.toNat ∧ t.pins = { s.pins with alertLow := alertOpen t } ∧ answered s t m 0x600B 0 stOk) ∧
  (∀ (s : State) (m : Master), masterReaches s m = true → dictServes s = true →
    ∃ t, Machine.exec (.dumpClear m) s = .next t ∧ t = { writeStart s m with dict := t.dict, health := t.health, out := t.out } ∧
      t.health = { s.health with dump := none, dumpState := 0 } ∧ answered s t m 0x600A 0 stOk) ∧
  (∀ (s : State) (m : Master) (v : Bytes), masterReaches s m = true → dictServes s = true → s.dict.secLock = false →
    v.length = 40 → leAt v 32 1 = 0xFF →
    leAt v 33 7 = 0 → s.sec.evidence.length < 4 →
    ∃ t, Machine.exec (.evidenceReq m v) s = .next t ∧
      t = { s with
        free := t.free, out := t.out, time := t.time, pins := t.pins, bay := t.bay, health := t.health, dict := t.dict,
        power := t.power, sec := t.sec } ∧
      t.sec.evidence = s.sec.evidence ++ [{ by_ := m, nonce := BitVec.ofNat 256 (leAt v 0 32), bay := none }] ∧
      t.sec = { s.sec with evidence := t.sec.evidence } ∧ answered s t m 0x7030 0 stOk)

/-- A security-relevant object is not written while SEC_LOCK is set: the write is refused and nothing but its answer happens. -/
def Obligations.SecLockRefusesWrites : Prop :=
  ∀ (s : State) (m : Master), masterReaches s m = true → dictServes s = true → s.dict.secLock = true →
    ∃ t, Machine.exec (.secLock m) s = .next t ∧ t = { writeStart s m with out := t.out } ∧ answered s t m 0x7000 0 stDictAccess

/-- Images and records received through the dictionary: a length empties the staging area, data fill it up to the length, an
abort empties it; the commands end with the verdicts of the security block. -/
def Obligations.ReceiveRows : Prop :=
  (∀ (s : State) (v : Word32), fwRxServes s = true → s.pins.auxGood = true → s.dict.secLock = false →
    ∃ t, Machine.exec (.fwRxLen v) s = .next t ∧ t = { writeStart s .sideband with dict := t.dict, sec := t.sec, out := t.out } ∧
      t.sec = { s.sec with fwRxLen := v, fwRxState := 1, staging := .fwRx v.toNat [] } ∧ answered s t .sideband 0x7020 0 stOk) ∧
  (∀ (s : State) (bs data : Bytes) (n : Nat), fwRxServes s = true → s.pins.auxGood = true → s.dict.secLock = false →
    s.sec.staging = .fwRx n bs →
    ∃ t, Machine.exec (.fwRxData data) s = .next t ∧ t = { writeStart s .sideband with dict := t.dict, sec := t.sec, out := t.out } ∧
      t.sec = { s.sec with staging := .fwRx n ((bs ++ padTo 1024 data).take n) } ∧ answered s t .sideband 0x7021 0 stOk) ∧
  (∀ (s : State) (bs : Bytes) (n : Nat), fwRxServes s = true → s.pins.auxGood = true → s.dict.secLock = false →
    s.sec.staging = .fwRx n bs →
    ∃ t, Machine.exec .fwRxVerify s = .next t ∧ t = { writeStart s .sideband with dict := t.dict, sec := t.sec, out := t.out } ∧
      (t.sec.fwRxState = 3 ∧ (∃ f, t.sec.staging = .image f) ∨ t.sec.fwRxState = 4 ∧ t.sec.staging = .empty) ∧
      (bs.length < n → t.sec.fwRxState = 4) ∧ answered s t .sideband 0x7022 0 stOk) ∧
  (∀ (s : State) (f : FwImage), fwRxServes s = true → s.pins.auxGood = true → s.dict.secLock = false → s.sec.staging = .image f →
    ∃ t, Machine.exec (.fwRxActivateBoot .ok .ok) s = .next t ∧
      t = { writeStart s .sideband with dict := t.dict, sec := t.sec, out := t.out, link := t.link } ∧
      t.link = { s.link with cdatSeq := t.link.cdatSeq } ∧ t.sec.fwRxState = 6 ∧ t.sec.failedBoots = 0 ∧
      (s.sec.activated ≠ some f → t.sec.copy0 = some f ∧ t.sec.copy1 = some f ∧ t.sec.activated = some f) ∧
      answered s t .sideband 0x7022 0 stOk) ∧
  (∀ s : State, fwRxServes s = true → s.pins.auxGood = true → s.dict.secLock = false →
    ∃ t, Machine.exec .fwRxAbort s = .next t ∧ t = { writeStart s .sideband with dict := t.dict, sec := t.sec, out := t.out } ∧
      t.sec = { s.sec with staging := .empty, fwRxState := 0 } ∧ answered s t .sideband 0x7022 0 stOk) ∧
  (∀ (s : State) (v : Word32), (dictServes s || loaderServes s) = true → s.pins.auxGood = true → s.dict.secLock = false →
    ∃ t, Machine.exec (.cfgRxLen v) s = .next t ∧
      t = { writeStart s .sideband with
        dict := t.dict, sec := t.sec, out := t.out, queues := t.queues, free := t.free } ∧
      t.sec = { s.sec with cfgRxLen := v, cfgRxState := 1, staging := .cfgRx v.toNat [] } ∧
      ((∀ cid bs, s.sec.staging ≠ .verifying cid bs) → t.queues = s.queues ∧ t.free = s.free ∧ answered s t .sideband 0x7024 0 stOk)) ∧
  (∀ (s : State) (bs data : Bytes) (n : Nat), (dictServes s || loaderServes s) = true → s.pins.auxGood = true →
    s.dict.secLock = false →
    s.sec.staging = .cfgRx n bs →
    ∃ t, Machine.exec (.cfgRxData data) s = .next t ∧ t = { writeStart s .sideband with dict := t.dict, sec := t.sec, out := t.out } ∧
      t.sec = { s.sec with staging := .cfgRx n ((bs ++ padTo 1024 data).take n) } ∧ answered s t .sideband 0x7025 0 stOk) ∧
  (∀ (s : State) (bs : Bytes) (n : Nat), (dictServes s || loaderServes s) = true → s.pins.auxGood = true → s.dict.secLock = false →
    s.sec.staging = .cfgRx n bs → n ≤ bs.length →
    ∃ t, Machine.exec .cfgRxInstall s = .next t ∧ t = { writeStart s .sideband with dict := t.dict, sec := t.sec, out := t.out } ∧
      t.sec.staging = .empty ∧ (t.sec.cfgRxState = 7 ∧ t.sec.records = s.sec.records ++ [parseRecord bs] ∨
        t.sec.cfgRxState = 4 ∧ t.sec.records = s.sec.records)) ∧
  (∀ s : State, (dictServes s || loaderServes s) = true → s.pins.auxGood = true → s.dict.secLock = false →
    ∃ t, Machine.exec .cfgRxAbort s = .next t ∧ t = { writeStart s .sideband with dict := t.dict, sec := t.sec, out := t.out } ∧
      t.sec = { s.sec with staging := .empty, cfgRxState := 0 } ∧ answered s t .sideband 0x7026 0 stOk)

/-! Firmware, records and boot (R387, R388, R395 to R401). -/

/-- FW_STAGE and FW_ACTIVATE: the image that FW_STAGE has read is under verification while the command runs on, and a second one is refused
meanwhile; an activation writes both copies, and the running firmware is unchanged. -/
def Obligations.FirmwareCommandRows : Prop :=
  (∀ (s : State) (cid : Nat) (image : Bytes) (c : Cmd), adminTakes s cid 0x89 c → transferring s = false →
    field c.sqe 64 32 % 64 = 0 → field c.sqe 64 32 ≤ image.length →
    ∃ t, Machine.exec (.fwStage cid image) s = .next t ∧ t = { s with sec := t.sec, power := t.power, queues := t.queues } ∧
      t.sec = { s.sec with staging := .verifying c.cid (image.take (field c.sqe 64 32)) } ∧
      t.queues = (startCmd s adminQ c).queues) ∧
  (∀ (s : State) (cid : Nat) (image : Bytes) (c : Cmd), adminTakes s cid 0x89 c → transferring s = true →
    field c.sqe 64 32 % 64 = 0 → Machine.exec (.fwStage cid image) s = .next (endCmd s adminQ c stInProgress 0)) ∧
  (∀ (s : State) (cid : Nat) (image : Bytes) (c : Cmd), adminTakes s cid 0x89 c → transferring s = false →
    field c.sqe 64 32 % 64 = 0 → image.length < field c.sqe 64 32 →
    ∃ t, Machine.exec (.fwStage cid image) s = .next (endCmd t adminQ c stHostFault 0) ∧
      t = { s with link := { s.link with counters := t.link.counters }, sec := { s.sec with staging := .empty } }) ∧
  (∀ (s : State) (cid : Nat) (c : Cmd) (f : FwImage), adminTakes s cid 0x8A c → s.sec.staging = .image f →
    s.sec.activated ≠ some f →
    ∃ t, Machine.exec (.fwActivate cid .ok .ok) s = .next (endCmd t adminQ c stOk (imageResult f)) ∧
      t = { s with
        sec := { s.sec with copy0 := some f, copy1 := some f, activated := some f, pending := f.version },
        link := { s.link with cdatSeq := (s.link.cdatSeq + 1) % 2 ^ 32 } }) ∧
  (∀ (s : State) (cid : Nat) (c : Cmd) (f : FwImage) (m : Media), adminTakes s cid 0x8A c → s.sec.staging = .image f →
    s.sec.activated ≠ some f →
    ∃ t, Machine.exec (.fwActivate cid .uncorrectable m) s = .next (endCmd t adminQ c stMediaUe 0) ∧
      t = { s with sec := { s.sec with copy0 := none } })

/-- No step stages a firmware image whose SVN lies below the floor of the anti-rollback record: an image that stands in the
staging area after a step stood there before it or reaches the floor. An image that is not valid is refused with ST_FW_INVALID
and not staged. -/
def Obligations.RollbackRefused : Prop :=
  (∀ (s t : State) (f : FwImage), Machine.step s = .next t → t.sec.staging = .image f →
    s.sec.staging = .image f ∨ svnFloor s ≤ f.svn) ∧
  (∀ (s : State) (bs : Bytes), imageValid s (BitVec.ofNat 4 (keysRevoked s)) bs = false → judgeImage s bs = (stFwInvalid, none))

/-- The rows of the CXL primary mailbox, served by module firmware or by the ROM loader. -/
def Obligations.MailboxRows : Prop :=
  (∀ s : State, s.link.up = true → ((mgmtServes s && !isFatal s) || loaderServes s) = true →
    ∃ d, Machine.exec .getFwInfo s = .next { rouseMgmt s 0x09 with out := s.out ++ [.mailbox 0x0200 mbSuccess d] } ∧ d.length = 80) ∧
  (∀ s : State, s.link.up = true → ((mgmtServes s && !isFatal s) || loaderServes s) = true →
    ∃ d, Machine.exec .getSupportedLogs s = .next { rouseMgmt s 0x09 with out := s.out ++ [.mailbox 0x0400 mbSuccess d] } ∧
      d.length = 16 * (mbLogs s).length) ∧
  (∀ (s : State) (page offset len : Nat), s.link.up = true → ((mgmtServes s && !isFatal s) || loaderServes s) = true →
    page ∈ mbLogs s →
      Machine.exec (.getLog page offset len) s = .next { rouseMgmt s 0x09 with
        out := s.out ++ [.mailbox 0x0401 mbSuccess (sliceOf (logPage (rouseMgmt s 0x09) .host page 0).2 offset len)] }) ∧
  (∀ (s : State) (offset : Nat) (data : Bytes), s.link.up = true → ((mgmtServes s && !isFatal s) || loaderServes s) = true →
    (loaderServes s = true → loaderTakesImage s = true) → transferring s = false →
      128 * offset + data.length ≤ stagingBytes →
      Machine.exec (.transferFw 1 offset data) s = .next { rouseMgmt s 0x09 with
        sec := { s.sec with staging := .mailbox (placeAt [] (128 * offset) data) },
        out := s.out ++ [.mailbox 0x0201 mbSuccess []] }) ∧
  (∀ (s : State) (offset : Nat) (data bs : Bytes), s.link.up = true → ((mgmtServes s && !isFatal s) || loaderServes s) = true →
    (loaderServes s = true → loaderTakesImage s = true) → s.sec.staging = .mailbox bs →
      128 * offset + data.length ≤ stagingBytes →
      Machine.exec (.transferFw 2 offset data) s = .next { rouseMgmt s 0x09 with
        sec := { s.sec with staging := .mailbox (placeAt bs (128 * offset) data) },
        out := s.out ++ [.mailbox 0x0201 mbSuccess []] }) ∧
  (∀ (s : State) (f : FwImage), s.link.up = true → ((mgmtServes s && !isFatal s) || loaderServes s) = true →
    loaderServes s = false → s.sec.staging = .image f → s.sec.activated ≠ some f →
      Machine.exec (.activateFw false .ok .ok) s = .next { rouseMgmt s 0x09 with
        sec := { s.sec with copy0 := some f, copy1 := some f, activated := some f, pending := f.version },
        link := { s.link with cdatSeq := (s.link.cdatSeq + 1) % 2 ^ 32 },
        out := s.out ++ [.mailbox 0x0202 mbSuccess []] }) ∧
  (∀ (s : State) (m0 m1 : Media), s.link.up = true → ((mgmtServes s && !isFatal s) || loaderServes s) = true →
    Machine.exec (.activateFw true m0 m1) s = .next { rouseMgmt s 0x09 with
        out := s.out ++ [.mailbox 0x0202 mbUnsupported []] }) ∧
  (∀ (s : State) (offset : Nat) (data bs : Bytes), s.link.up = true → ((mgmtServes s && !isFatal s) || loaderServes s) = true →
    s.sec.staging = .cfgMailbox bs → data.length ≤ 32768 → 128 * offset + data.length ≤ stagingBytes →
      Machine.exec (.installConfigRecord offset false data) s = .next { rouseMgmt s 0x09 with
        sec := { s.sec with staging := .cfgMailbox (placeAt bs (128 * offset) data) },
        out := s.out ++ [.mailbox 0xC100 mbSuccess []] })

/-- MGMT starts: again in service with the image in segment 0, or from flash; a boot chooses no image below another valid copy's
SVN and never lowers the floor. -/
def Obligations.MgmtReadyRow : Prop :=
  (∀ (s : State) (f : FwImage), s.pins.mainOn = true → s.sec.mgmtReady = false → isFatal s = false →
    ((domainAt s 0).state = .on ∨ (domainAt s 0).state = .waking) → s.sec.booted = some f →
    ∃ t, Machine.exec .mgmtReady s = .next t ∧
      t = { s with
        free := t.free, out := t.out, pins := t.pins, link := t.link, rime := t.rime, health := t.health, sb := t.sb,
        power := t.power, sec := t.sec } ∧
      t.sec.mgmtReady = true ∧ t.sec.failedBoots = 0 ∧ t.sec.bootState = 0 ∧
      t.sec.booted = some f ∧ (domainAt t 0).state = .on ∧ t.health.restarts = [] ∧ t.power.toLog = []) ∧
  (∀ (s : State) (code : Nat), s.pins.mainOn = true → s.sec.mgmtReady = false → isFatal s = false →
    ((domainAt s 0).state = .on ∨ (domainAt s 0).state = .waking) → s.sec.booted = none → recoveryOf s = some code →
    ∃ t, Machine.exec .mgmtReady s = .next t ∧
      t = { s with
        free := t.free, out := t.out, pins := t.pins, link := t.link, rime := t.rime, health := t.health, sb := t.sb,
        power := t.power, sec := t.sec } ∧
      t.sec.bootState = code ∧ t.sec.mgmtReady = false ∧ t.sec.booted = none ∧
      t.link.ready = false) ∧
  (∀ (s : State) (a : ArbRecord) (f : FwImage) (rev : BitVec 4), a.svnFloor ≤ (arbAfter s a f rev).svnFloor ∧
    f.floor ≤ (arbAfter s a f rev).svnFloor) ∧
  (∀ (s : State) (rev : BitVec 4) (f g : FwImage), chooseImage s rev = some f → (s.sec.copy0 = some g ∨ s.sec.copy1 = some g) →
    slotOk rev g.keySlot = true → g.svn ≤ f.svn)

/-! Security: SPDM, measurements and keys of the link (R389 to R393). -/

/-- The SPDM rows. -/
def Obligations.SpdmRows : Prop :=
  (∀ s : State, s.link.up = true →
    ∃ t, Machine.exec (.negotiateAlgorithms true true true true) s = .next t ∧
      t = { s with link := { s.link with negotiated := true }, power := t.power, out := s.out ++ [.doe doeAlgorithms []] }) ∧
  (∀ (s : State) (offset len : Nat) (r : CfgRecord), s.link.up = true →
    s.sec.inForce.find? (fun x => x.type == 2) = some r →
      ∃ t, Machine.exec (.getCertificate 0 offset len) s = .next t ∧
        t = { s with power := t.power, out := s.out ++ [.doe doeCertificate (sliceOf r.payload offset len)] }) ∧
  (∀ (s : State) (nonce : BitVec 256), s.link.up = true →
    s.link.negotiated = true →
      ∃ t d, Machine.exec (.challenge 0 nonce) s = .next t ∧
        t = { s with power := t.power, out := s.out ++ [.doe doeChallenge d] }) ∧
  (∀ (s : State) (nonce : BitVec 256), s.link.up = true →
    s.link.negotiated = true →
      ∃ t d, Machine.exec (.getMeasurements 0 nonce) s = .next t ∧
        t = { s with power := t.power, out := s.out ++ [.doe doeMeasurements
          (natLe 64 s.sec.measRom.toNat ++ natLe 64 s.sec.measImage.toNat ++ natLe 64 s.sec.measArb.toNat ++
            natLe 64 s.sec.measRecords.toNat ++ natLe 64 (measLive s).toNat ++ d)] }) ∧
  (∀ (s : State) (v : Bytes), s.link.up = true →
    leAt v 32 1 = 0xFF → leAt v 33 7 = 0 → s.sec.evidence.length < 4 →
      ∃ t, Machine.exec (.spdmEvidenceRequest v) s = .next t ∧ t = { s with sec := t.sec, power := t.power } ∧
        t.sec = { s.sec with evidence := s.sec.evidence ++
          [{ by_ := .host, nonce := BitVec.ofNat 256 (leAt v 0 32), bay := none, spdm := true }] }) ∧
  (∀ s : State, s.link.up = true →
    s.link.negotiated = true → s.link.sessions.length < 2 →
      ∃ t, Machine.exec .spdmKeyExchange s = .next t ∧
        t = { s with power := t.power, out := s.out ++ [.doe doeKeyExchange (natLe 8 s.link.nextSession)],
                     link := { s.link with sessions := s.link.sessions ++ [s.link.nextSession],
                                           nextSession := s.link.nextSession + 1 } }) ∧
  (∀ s : State, s.link.up = true →
    s.link.negotiated = true → s.link.sessions.length = 2 →
      ∃ t, Machine.exec .spdmKeyExchange s = .next t ∧ t = { s with power := t.power, out := s.out ++ [.doe doeError []] })

/-- A block of evidence is signed for the oldest request: it leaves the waiting list and becomes its master's last block. -/
def Obligations.EvidenceSignRow : Prop :=
  ∀ (s : State) (r : EvidenceReq) (rest : List EvidenceReq), s.sec.evidence = r :: rest → s.pins.mainOn = true →
    ∃ t, Machine.exec .evidenceSign s = .next t ∧ t = { s with sec := t.sec, out := t.out } ∧ t.sec.evidence = rest ∧
      (r.by_ = .host → t.sec.evidenceHost = some (evidenceOf s r) ∧ t.sec.evidenceSideband = s.sec.evidenceSideband) ∧
      (r.by_ = .sideband → t.sec.evidenceSideband = some (evidenceOf s r) ∧ t.sec.evidenceHost = s.sec.evidenceHost) ∧
      (evidenceOf s r).meas.length = (if r.bay = none then 5 else 6) ∧ (evidenceOf s r).signature.length = 49856

/-- IDE keys within a secured session: a key goes into the set that does not run, the direction switches to a set that holds a
key, and a set that runs is neither programmed nor given up. -/
def Obligations.IdeKeyRows : Prop :=
  (∀ (s : State) (session set : Nat) (dir : StreamDir) (key : BitVec 256), s.link.up = true → session ∈ s.link.sessions → set < 2 →
    (s.link.ide.any (fun e => e.1 == dir)) = true →
    (ideDir s dir).active ≠ some set → ∃ t, Machine.exec (.keyProg session dir set key) s = .next t ∧
        t = { s with power := t.power, out := s.out ++ [.doe doeKeyManagement []], link := { s.link with ide := t.link.ide } } ∧
        ideDir t dir = putIdeKey (ideDir s dir) set (some key) ∧ ∀ d, d ≠ dir → ideDir t d = ideDir s d) ∧
  (∀ (s : State) (session set : Nat) (dir : StreamDir), s.link.up = true → session ∈ s.link.sessions → set < 2 →
    (s.link.ide.any (fun e => e.1 == dir)) = true →
    (ideKey (ideDir s dir) set).isSome = true →
      ∃ t, Machine.exec (.kSetGo session dir set) s = .next t ∧
        t = { s with power := t.power, out := s.out ++ [.doe doeKeyManagement []],
                     link := { s.link with ide := t.link.ide, ideInsecure := t.link.ideInsecure } } ∧
        ideDir t dir = { ideDir s dir with active := some set } ∧ streamOf dir ∉ t.link.ideInsecure ∧
        ∀ d, d ≠ dir → ideDir t d = ideDir s d) ∧
  (∀ (s : State) (session set : Nat) (dir : StreamDir), s.link.up = true → session ∈ s.link.sessions → set < 2 →
    (s.link.ide.any (fun e => e.1 == dir)) = true →
    (ideDir s dir).active ≠ some set →
      ∃ t, Machine.exec (.kSetStop session dir set) s = .next t ∧
        t = { s with power := t.power, out := s.out ++ [.doe doeKeyManagement []], link := { s.link with ide := t.link.ide } } ∧
        ideDir t dir = putIdeKey (ideDir s dir) set none) ∧
  (∀ (s : State) (session set : Nat) (dir : StreamDir) (key : BitVec 256), s.link.up = true → session ∈ s.link.sessions → set < 2 →
    (s.link.ide.any (fun e => e.1 == dir)) = true →
    (ideDir s dir).active = some set → ∃ t, Machine.exec (.keyProg session dir set key) s = .next t ∧
        t = { s with power := t.power, out := s.out ++ [.doe doeError []] })


/-! The sideband (R313 to R320). -/

/-- Requests: the identity objects are readable without a key, a request with the next sequence number is executed once and its
answer kept, a repeated one is answered from the cache without being executed again, and a number out of the window is dropped
and counted. -/
def Obligations.SidebandRequestRows : Prop :=
  (∀ (s : State) (f : Frame), frameLost s = false → lengthBad f = false → typeBad f = false → xdType f.header = 1 →
    sbKey s = 0 → xdRsvdOk f.header = true → openRequest f = true →
    Machine.exec (.xsdpRead f) s = .next { handFrame s with out := s.out ++ [.frame f.peer
      (responseHeader s f (readObject s .sideband (xdIndex f.header) (xdSub f.header)).1
        (readObject s .sideband (xdIndex f.header) (xdSub f.header)).2.length
        (dictCounter s (xdIndex f.header) (xdSub f.header)) false)
      (readObject s .sideband (xdIndex f.header) (xdSub f.header)).2 0] }) ∧
  (∀ (s : State) (f : Frame), frameLost s = false → lengthBad f = false → typeBad f = false → xdType f.header = 1 →
    sbKey s = 0 → openRequest f = false →
    Machine.exec (.xsdpRead f) s = .next { handFrame s with
      out := s.out ++ [.frame f.peer (responseHeader s f stDictAccess 0 0 false) [] 0] }) ∧
  (∀ (s : State) (f : Frame) (p : Peer) (l : BitVec 16), authentic s f → xdType f.header = 3 → peerAt s f.peer = some p →
    p.cache.find? (fun c => c.1 == xdSeq f.header) = none → p.last = some l →
    1 ≤ (xdSeq f.header - l).toNat → (xdSeq f.header - l).toNat ≤ 32767 → requestServed s f = true →
    Machine.exec (.xsdpWrite f) s = .next (runKept (hearPeer s f.peer) f)) ∧
  (∀ (s : State) (f : Frame) (p : Peer) (l : BitVec 16), authentic s f → xdType f.header = 3 → peerAt s f.peer = some p →
    p.cache.find? (fun c => c.1 == xdSeq f.header) = none → p.last = some l →
    ((xdSeq f.header - l).toNat = 0 ∨ 32767 < (xdSeq f.header - l).toNat) →
    ∃ t, Machine.exec (.xsdpWrite f) s = .next t ∧ t = { handFrame s with sb := t.sb } ∧ t.sb.seqDrop = s.sb.seqDrop + 1) ∧
  (∀ (s : State) (f : Frame) (p : Peer) (h : BitVec 256) (v : Bytes), authentic s f → xdType f.header = 3 →
    peerAt s f.peer = some p → p.cache.find? (fun c => c.1 == xdSeq f.header) = some (xdSeq f.header, h, v) →
    ∃ t, Machine.exec (.xsdpWrite f) s = .next t ∧ t = { handFrame s with sb := t.sb, out := t.out } ∧
      ∃ tag, t.out = s.out ++ [.frame f.peer (h ||| BitVec.ofNat 256 (2 ^ 64)) v tag])

/-- A frame whose tag is wrong while SB_KEY is set is dropped and counted; it wakes a sleeping MGMT as every frame does, and nothing else
happens. -/
def Obligations.WrongTagIsDropped : Prop :=
  ∀ (s : State) (f : Frame), frameLost s = false → lengthBad f = false → sbKey s ≠ 0 →
    f.tag ≠ Config.kmacXsdp (sbKey s) f.header (xdValue f) →
    receive s f = { handFrame s with sb := { s.sb with authFail := s.sb.authFail + 1 } }

/-- Events, malformed datagrams and the network rows. -/
def Obligations.SidebandEventRows : Prop :=
  (∀ (s : State) (f : Frame), frameLost s = false → lengthBad f = false → typeBad f = false → sbKey s = 0 → xdType f.header = 6 →
    ∃ t, Machine.exec (.eventAck f) s = .next t ∧ t = { handFrame s with sb := { s.sb with events := t.sb.events } } ∧
      (∀ e ∈ t.sb.events, e.seq ≠ xdSeq f.header) ∧ ∀ e ∈ s.sb.events, e.seq ≠ xdSeq f.header → e ∈ t.sb.events) ∧
  (∀ (s : State) (f : Frame), frameLost s = false → lengthBad f = true →
    Machine.exec (.xsdpMalformedDatagram f) s = .next { handFrame s with sb := { s.sb with authFail := s.sb.authFail + 1 } }) ∧
  (∀ (s : State) (f : Frame), frameLost s = false → lengthBad f = false → typeBad f = true → sbKey s = 0 →
    Machine.exec (.xsdpMalformedDatagram f) s = .next { handFrame s with sb := { s.sb with seqDrop := s.sb.seqDrop + 1 } }) ∧
  (∀ (s : State) (e : PendingEvent), s.sb.events.find? (fun x => x.seq.toNat == e.seq.toNat) = some e → mgmtAwake s = true →
    e.attempts < 5 →
    ∃ t tag, Machine.exec (.eventRetransmit e.seq.toNat) s = .next t ∧
      t = { s with sb := { s.sb with events := t.sb.events }, time := t.time, out := t.out } ∧
      t.out = s.out ++ [.frame (eventPeer s) (xsdpHeader s.time.bootCount t.time.dtb 0 16 0 0 0 true e.seq 0x05)
        (eventValue e.code e.data) tag] ∧
      e.sentAt + 2000000 ≤ t.time.dtb ∧
      t.sb.events = s.sb.events.map (fun x =>
        if x.seq == e.seq then { x with attempts := x.attempts + 1, sentAt := t.time.dtb } else x)) ∧
  (∀ (s : State) (e : PendingEvent), s.sb.events.find? (fun x => x.seq.toNat == e.seq.toNat) = some e → mgmtAwake s = true →
    5 ≤ e.attempts →
    ∃ t, Machine.exec (.eventRetransmit e.seq.toNat) s = .next t ∧
      t = { s with sb := { s.sb with events := s.sb.events.filter (fun x => x.seq != e.seq) }, time := t.time }) ∧
  (∀ (s : State) (b : Bool), s.pins.auxGood = true →
    Machine.exec (.plcaStatusChange b) s = .next { s with sb := { s.sb with plcaActive := b } }) ∧
  (∀ (s : State) (n : Nat), s.pins.auxGood = true → n = leNat linkLocal →
    Machine.exec (.neighborDiscovery n) s = .next { s with out := s.out ++ [.netReply n sidebandMac] }) ∧
  (∀ (s : State) (a : Nat) (bs : Bytes), s.pins.auxGood = true →
    Machine.exec (.icmpv6Echo a bs) s = .next { s with out := s.out ++ [.netReply a bs] })

/-! Errors, fatal errors and MGMT (R374 to R381, R390, R399). -/

/-- An error log entry: the next ENTRY number, the newest 16,384 entries; an ALERT sends its event and drives ALERT_N by the
unacknowledged entries; nothing else changes. -/
def Obligations.ErrorLogEntry : Prop :=
  ∀ (s : State) (cls unit detail : Nat) (ctx : Option (Nat × Nat)),
    ∃ e, (logError s cls unit detail ctx).health = { s.health with
        nextEntry := s.health.nextEntry + 1, errors := (s.health.errors ++ [e]).drop ((s.health.errors ++ [e]).length - 16384) } ∧
      e.entry = s.health.nextEntry ∧ e.dtb = s.time.dtb ∧ e.boot = s.time.bootCount ∧ e.cls = cls ∧ e.unit = unit ∧
      e.severity = severityOf cls ∧
      logError s cls unit detail ctx = { s with
        health := (logError s cls unit detail ctx).health, sb := (logError s cls unit detail ctx).sb,
        pins := (logError s cls unit detail ctx).pins, out := (logError s cls unit detail ctx).out } ∧
      (severityOf cls = 2 → (logError s cls unit detail ctx).pins.alertLow = alertOpen (logError s cls unit detail ctx) ∧
        (logError s cls unit detail ctx).out.length = s.out.length + 1) ∧
      (severityOf cls ≠ 2 → (logError s cls unit detail ctx).pins = s.pins ∧ (logError s cls unit detail ctx).out = s.out)

/-- The fatal sequence: its first error halts the module, a second one while it is in course changes nothing, and a dump in
course is copied before PERST_N resets the module. -/
def Obligations.FatalRows : Prop :=
  (∀ (s : State) (cause unit : Nat) (cxl : Bool), 1 ≤ cause → cause ≤ 6 → isFatal s = false → s.pins.mainOn = true →
    ∃ t, Machine.exec (.fatalError cause unit cxl) s = .next t ∧ t.health.fatal = .halted ∧ t.pins.faultLow = true ∧
      (∃ d, t.health.fatalInfo = some (cause, unit, d, s.health.nextEntry)) ∧ t.adm.stopped = true ∧ t.adm.queries = [] ∧
      noKeys t ∧ t.link.ready = false ∧ t.pins.modReady = false ∧ (∀ p ∈ t.queues.pairs, p.q.cmds = []) ∧
      t.health.selfTest = none ∧ (∀ d ∈ t.health.dies, d.piece = none)) ∧
  (∀ (s : State) (cause unit : Nat) (cxl : Bool), isFatal s = true → Machine.exec (.fatalError cause unit cxl) s = .next s) ∧
  (∀ s : State, s.pins.perstN = true → s.pins.mainOn = true → s.health.fatal = .halted → s.health.dumpState = 1 →
    Machine.exec .perstNAssert s = .next { s with pins := { s.pins with perstN := false, resetDue := true } }) ∧
  (∀ s : State, s.health.fatal = .halted → s.health.dumpState ≠ 1 →
    Machine.exec .dumpWritten s = .next { s with health := { s.health with dump := some (dumpOf s), dumpState := 1 } }) ∧
  (∀ s : State, s.health.fatal = .halted → s.health.dumpState = 1 → s.pins.resetDue = false →
    Machine.exec .dumpCopied s = .next { s with health := { s.health with dumpState := 2, fatal := .service } }) ∧
  (∀ s : State, s.health.fatal = .halted → s.health.dumpState = 1 → s.pins.resetDue = true →
    ∃ t, Machine.exec .dumpCopied s = .next t ∧ t.health.fatal = .none ∧ t.pins.resetDue = false ∧ t.sec.mgmtReady = false) ∧
  (∀ (s : State) (f : FwImage) (d : Nat), s.sec.booted = some f → f.code ≠ d → (domainAt s 0).state = .on →
    isFatal s = false → s.pins.mainOn = true →
    ∃ t u r, Machine.exec (.mgmtCodeCheck d) s = .next t ∧ t.health.fatal = .halted ∧ t.health.fatalInfo = some (5, u, r)) ∧
  (∀ (s : State) (f : FwImage), isFatal s = false → (domainAt s 0).state = .on → s.sec.booted = some f → s.sec.mgmtReady = true →
    ∃ t, Machine.exec .mgmtRestart s = .next t ∧ t.sec.mgmtReady = false ∧ t.sec.staging = .empty ∧
      t.sec.failedBoots = s.sec.failedBoots + 1 ∧ t.health.restarts = [s.time.dtb] ∧ t.dict.stage.lock = none ∧
      t.dict.stage.frame = [] ∧ t.sb.events = [] ∧ t.link.ready = false ∧ t.health.fatal = .none)

/-- Self-tests run one at a time: a short or an extended test starts and its command waits; a stop waits with it; a second test and
a second stop are refused. The end of a test writes its record of 4,096 bytes, completes the test's command with ST_OK or, with a
failure found, ST_TEST_FAIL, and completes the stopping command with ST_OK. -/
def Obligations.SelfTestRows : Prop :=
  (∀ (s : State) (cid : Nat) (c : Cmd), adminTakes s cid 0x88 c → cmdTest c = 1 → s.health.selfTest = none →
    ∃ t, Machine.exec (.selfTestShort cid) s = .next t ∧
      t = { s with queues := t.queues, health := { s.health with
        selfTest := some { cid := c.cid, extended := false, start := s.time.dtb } } } ∧ t.queues.pairs = s.queues.pairs) ∧
  (∀ (s : State) (cid : Nat) (c : Cmd), adminTakes s cid 0x88 c → cmdTest c = 2 → s.health.selfTest = none →
    ∃ t, Machine.exec (.selfTestExtended cid) s = .next t ∧
      t = { s with queues := t.queues, health := { s.health with
        selfTest := some { cid := c.cid, extended := true, start := s.time.dtb } } } ∧ t.queues.pairs = s.queues.pairs) ∧
  (∀ (s : State) (cid : Nat) (c : Cmd) (x : SelfTest), adminTakes s cid 0x88 c → cmdTest c = 3 → s.health.selfTest = some x →
    x.stopCid = none →
    ∃ t, Machine.exec (.selfTestStop cid) s = .next t ∧
      t = { s with queues := t.queues, health := { s.health with selfTest := some { x with stopCid := some cid } } }) ∧
  (∀ (s : State) (fs : List (BitVec 512)) (items y : Nat) (x : SelfTest), s.health.selfTest = some x →
    ∃ t r, Machine.exec (.selfTestDone fs items y) s = .next t ∧ t.health.selfTest = none ∧
      t.out = s.out ++ .hostWrite adminQ x.cid (testRecord x s.time.dtb fs items y) :: r ∧
      (testRecord x s.time.dtb fs items y).length = 4096 ∧
      t = { s with queues := t.queues, health := { s.health with selfTest := none }, out := t.out }) ∧
  (∀ (s : State) (fs : List (BitVec 512)) (items y : Nat) (x : SelfTest) (c : Cmd), s.health.selfTest = some x →
    runningCmd s adminQ x.cid = some c → queueWrites s adminQ = true → s.link.degraded = false →
    ∃ t, Machine.exec (.selfTestDone fs items y) s = .next t ∧
      .completion adminQ s.queues.admin.cqTail (completionEntry fs.length s.time.dtb x.cid c.sqHead adminQ
        (if fs = [] then stOk else stTestFail) 0 0 s.queues.admin.phase) ∈ t.out) ∧
  (∀ (s : State) (fs : List (BitVec 512)) (items y k : Nat) (x : SelfTest) (d : Cmd), s.health.selfTest = some x →
    x.stopCid = some k → runningCmd s adminQ x.cid = none → runningCmd s adminQ k = some d → queueWrites s adminQ = true →
    s.link.degraded = false →
    ∃ t, Machine.exec (.selfTestDone fs items y) s = .next t ∧
      .completion adminQ s.queues.admin.cqTail (completionEntry 0 s.time.dtb k d.sqHead adminQ stOk 0 0 s.queues.admin.phase)
        ∈ t.out) ∧
  (∀ (s : State) (fs : List (BitVec 512)) (items y k : Nat) (x : SelfTest) (c d : Cmd), s.health.selfTest = some x →
    x.stopCid = some k → runningCmd s adminQ x.cid = some c → runningCmd s adminQ k = some d → k ≠ x.cid → c.seq ≠ d.seq →
    queueWrites s adminQ = true → s.link.degraded = false → s.queues.admin.cqTail + 1 < s.queues.admin.cqDepth →
    ∃ t, Machine.exec (.selfTestDone fs items y) s = .next t ∧
      .completion adminQ (s.queues.admin.cqTail + 1)
        (completionEntry 0 s.time.dtb k d.sqHead adminQ stOk 0 0 s.queues.admin.phase) ∈ t.out) ∧
  (∀ (s : State) (cid : Nat) (c : Cmd), adminTakes s cid 0x88 c → cmdTest c = 1 → s.health.selfTest ≠ none →
    Machine.exec (.selfTestShort cid) s = .next (endCmd s adminQ c stInProgress 0)) ∧
  (∀ (s : State) (cid : Nat) (c : Cmd), adminTakes s cid 0x88 c → cmdTest c = 2 → s.health.selfTest ≠ none →
    Machine.exec (.selfTestExtended cid) s = .next (endCmd s adminQ c stInProgress 0)) ∧
  (∀ (s : State) (cid : Nat) (c : Cmd) (x : SelfTest), adminTakes s cid 0x88 c → cmdTest c = 3 → s.health.selfTest = some x →
    x.stopCid ≠ none → Machine.exec (.selfTestStop cid) s = .next (endCmd s adminQ c stInProgress 0))

/-! Power domains, comparators and throttles (R337 to R354). -/

/-- Entry, wake and timers of a power domain: the named domain alone changes its state; an entry comes at the start of the idle period
plus the timer. A domain that becomes idle starts its timer at that tick, and activity stops and clears it (the tick is the model's
choice, log entries 1 and 87). -/
def Obligations.DomainRows : Prop :=
  (∀ (s : State) (n : Nat), n < 196 → supplied s n = true → domainIdle s n = true → (domainAt s n).latches = [] →
    levelHeld s n = false → (domainAt s n).state = .on → (domainAt s n).due = 0 → timerRet s n ≠ 0 → 1 ≤ depthCap s n →
    (∀ d ∈ dependents s n, (domainAt s d).state = .retention ∨ (domainAt s d).state = .off) →
    ∃ t, Machine.exec (.domainTimerRet n) s = .next t ∧ t = { s with power := t.power, time := t.time } ∧
      (domainAt t n).state = .entering 1 ∧ (domainAt t n).entryAt = t.time.dtb ∧
      t.time.dtb = max s.time.dtb ((domainAt s n).idleSince.getD s.time.dtb + 1000 * timerRet s n) ∧
      ∀ m, m ≠ n → domainAt t m = domainAt s m) ∧
  (∀ (s : State) (n : Nat), n < 196 → supplied s n = true → domainIdle s n = true → (domainAt s n).latches = [] →
    levelHeld s n = false → ((domainAt s n).state = .on ∨ (domainAt s n).state = .retention) →
    timerOff s n ≠ 0 → 2 ≤ depthCap s n → offAllowed s n = true → (domainAt s n).due ≤ 2 →
    (∀ d ∈ dependents s n, (domainAt s d).state = .off) →
    ∃ t, Machine.exec (.domainTimerOff n) s = .next t ∧ t = { s with power := t.power, time := t.time } ∧
      (domainAt t n).state = .entering 2 ∧ (domainAt t n).entryAt = t.time.dtb ∧
      t.time.dtb = max s.time.dtb ((domainAt s n).idleSince.getD s.time.dtb + 1000 * timerOff s n) ∧
      ∀ m, m ≠ n → domainAt t m = domainAt s m) ∧
  (∀ (s : State) (n : Nat), n < 196 → supplied s n = true → domainIdle s n = true → (domainAt s n).state = .on → timerRet s n ≠ 0 →
    ((domainAt s n).latches ≠ [] ∨ levelHeld s n = true) →
    ∃ t, Machine.exec (.domainTimerRet n) s = .next t ∧ t = { s with power := t.power, time := t.time } ∧
      domainAt t n = { domainAt s n with idleSince := none, due := 0 } ∧ ∀ m, m ≠ n → domainAt t m = domainAt s m) ∧
  (∀ (s : State) (n : Nat), (domainAt s n).state = .entering 1 → (domainAt s n).latches = [] → (domainAt s n).edge = none →
    ∃ t, Machine.exec (.domainEntryDone n) s = .next t ∧
      t = { s with time := t.time, pins := t.pins, link := t.link, cells := t.cells, power := t.power, sec := t.sec } ∧
      (domainAt t n).state = .retention ∧
      (domainAt s n).entryAt + entryToRet n ≤ t.time.dtb ∧ s.time.dtb ≤ t.time.dtb ∧ t.tier = s.tier ∧ t.cells = s.cells ∧
      ∀ m, m ≠ n → domainAt t m = domainAt s m) ∧
  (∀ (s : State) (a : Nat), a < 160 → (domainAt s (arrayDomain a)).state = .entering 2 → (domainAt s (arrayDomain a)).latches = [] →
    (domainAt s (arrayDomain a)).edge = none →
    ∃ t, Machine.exec (.domainEntryDone (arrayDomain a)) s = .next t ∧
      t = { s with time := t.time, pins := t.pins, link := t.link, cells := t.cells, power := t.power, sec := t.sec } ∧
      (domainAt t (arrayDomain a)).state = .off ∧
      (∀ k, k < 1048576 → memRead t.cells.arrayStore (a * 1048576 + k) = 0) ∧ t.tier = s.tier) ∧
  (∀ (s : State) (n source : Nat), supplied s n = true → n < 196 → sourceWakes s source n = true →
    ((domainAt s n).state = .off ∨ (domainAt s n).state = .retention) →
    ∃ t, Machine.exec (.domainWake n source) s = .next t ∧ t = { s with power := t.power } ∧
      (domainAt t n).state = .waking ∧ (domainAt t n).lastWake = source ∧ (domainAt t n).lastWakeDtb = s.time.dtb) ∧
  (∀ (s : State) (n : Nat), (domainAt s n).state = .waking → (∀ m ∈ dependsOn n, (domainAt s m).state = .on) →
    (n = 3 → (domainAt s n).fromOff = true → ∀ p, p < 16 → (domainAt s (lpcDomain p)).state = .on) → supplied s n = true →
    s.sec.pufOk = true →
    ∃ t, Machine.exec (.domainWakeDone n) s = .next t ∧ (domainAt t n).state = .on ∧ (domainAt t n).latches = [] ∧
      (domainAt t n).edge = none ∧ (n = 2 → t.power.doorbellLatch = none)) ∧
  (∀ (s : State) (i n d : Nat), lookupKey s.time.comparators i = some (n, d) →
    ∃ t, Machine.exec (.dtbComparator i) s = .next t ∧ t = { s with power := t.power, time := t.time } ∧
      t.time = { s.time with dtb := max s.time.dtb d, comparators := t.time.comparators } ∧
      lookupKey t.time.comparators i = none ∧
      (supplied s n = true → (domainAt s n).state = .off → (domainAt t n).state = .waking ∧ (domainAt t n).lastWake = 0x04)) ∧
  (∀ s : State, s.pins.mainOn = true → (domainAt s 0).state = .on →
    Machine.exec .mgmtPllLock s = .next { s with power := { s.power with mgmtPll := true } }) ∧
  (∀ (s : State) (n : Nat), (domainAt s n).state = .on → (domainAt s n).num = n → supplied s n = true → domainIdle s n = true →
    (domainAt s n).idleSince = none → (domainAt s n).due = 0 →
    tickDomain s n = setDomain s { domainAt s n with idleSince := some s.time.dtb }) ∧
  (∀ (s : State) (n : Nat), (domainAt s n).state = .on → (domainAt s n).num = n → supplied s n = true → domainIdle s n = false →
    (tickDomain s n = s ∧ (domainAt s n).idleSince = none ∧ (domainAt s n).due = 0) ∨
    tickDomain s n = setDomain s { domainAt s n with idleSince := none, due := 0 })

/-- The sill's comparators, the power cap and THROTTLE_N: a comparator trips past its level and releases past its release level, as far as
its accuracy can tell (model's choice, log entry 121), and otherwise nothing happens; each holds best-effort work or lifts its own hold.
-/
def Obligations.ThrottleRows : Prop :=
  (∀ (s : State) (c : Comparator) (v : Nat), s.pins.auxGood = true → c ∉ s.power.tripped → compPast s c v = true →
    ∃ t, Machine.exec (.comparatorTrip c v) s = .next t ∧
      t = { s with
        free := t.free, out := t.out, pins := t.pins, link := t.link, bay := t.bay, tier := t.tier, health := t.health,
        sb := t.sb, power := t.power } ∧
      t.power.tripped = s.power.tripped ++ [c] ∧
      t.time = s.time ∧ t.adm.capThrottle = s.adm.capThrottle ∧ (c = .vinDroop → beHeld t = true)) ∧
  (∀ (s : State) (c : Comparator) (v : Nat), c ∉ s.power.tripped ∨ compBack s c v = false →
    Machine.exec (.comparatorRelease { comparator := c, value := v }) s = .next s) ∧
  (∀ (s : State) (c : Comparator) (v : Nat), compPast s c v = false → Machine.exec (.comparatorTrip c v) s = .next s) ∧
  (∀ (s : State) (c : Comparator) (v : Nat), c ∈ s.power.tripped → compBack s c v = true →
    ∃ t, Machine.exec (.comparatorRelease { comparator := c, value := v }) s = .next t ∧
      t = { s with
        free := t.free, out := t.out, pins := t.pins, link := t.link, bay := t.bay, tier := t.tier, health := t.health,
        sb := t.sb, power := t.power } ∧
      t.power.tripped = s.power.tripped.filter (fun x => x != c) ∧
      c ∉ t.power.tripped ∧ t.time = s.time ∧ t.adm.capThrottle = s.adm.capThrottle) ∧
  (∀ (s : State) (w : Nat), s.pins.mainOn = true → s.adm.capThrottle = false → powerCap s < w →
    ∃ t, Machine.exec (.powerCapThrottle w) s = .next t ∧ t = { s with power := t.power, adm := t.adm } ∧
      t.adm = { s.adm with capThrottle := true, throttleSince := s.time.dtb } ∧ t.power.powerNow = w ∧ beHeld t = true) ∧
  (∀ (s : State) (w : Nat), s.pins.mainOn = true → s.adm.capThrottle = true → 100 * w < 98 * powerCap s →
    ∃ t, Machine.exec (.powerCapThrottleLift w) s = .next t ∧
      t.time = s.time ∧ t.queues = s.queues ∧ t.indexes = s.indexes ∧ t.rime = s.rime ∧ t.cells = s.cells ∧
        t.dict = s.dict ∧ t.sec = s.sec ∧ t.tap = s.tap ∧
      t.adm.capThrottle = false ∧ t.time = s.time ∧
      t.power.tripped = s.power.tripped) ∧
  (∀ s : State, s.pins.auxGood = true → s.pins.throttleN = true →
    ∃ t, Machine.exec .throttleNAssert s = .next t ∧ t = { s with pins := { s.pins with throttleN := false }, power := t.power } ∧
      t.power.throttleNSince = s.time.dtb ∧ beHeld t = true) ∧
  (∀ s : State, s.pins.auxGood = true → s.pins.throttleN = false →
    ∃ t, Machine.exec .throttleNRelease s = .next t ∧
      t = { s with
        free := t.free, out := t.out, pins := t.pins, link := t.link, bay := t.bay, tier := t.tier, health := t.health,
        sb := t.sb, power := t.power } ∧
      t.pins.throttleN = true ∧ t.time = s.time ∧
      t.adm.capThrottle = s.adm.capThrottle)

/-- Supplies and resets of the module: what a module reset, a loss of main power, a loss of AUX and their returns leave; MGMT, which AUX
supplies, goes on over a loss of main power (log entry 80). -/
def Obligations.SupplyRows : Prop :=
  (∀ (s : State) (straps : Nat), s.pins.auxGood = false →
    ∃ t, Machine.exec (.auxPowerUp straps) s = .next t ∧ t.pins.auxGood = true ∧ t.pins.slotId = straps % 16 ∧
      t.time.dtb = 0 ∧ t.time.bootCount = s.time.bootCount + 1) ∧
  (∀ s : State, s.pins.auxGood = true →
    ∃ t, Machine.exec .auxLoss s = .next t ∧ t.pins.auxGood = false ∧ t.pins.mainOn = false ∧ t.power = {} ∧ t.sb = {} ∧ t.tap = {} ∧
      t.dict.stage = {} ∧ t.dict.entries = t.dict.kept ∧ t.sec.failedBoots = 0 ∧ t.health.fatal = .none) ∧
  (∀ s : State, s.pins.auxGood = true → s.pins.inputInRange = true → s.pins.mainOn = false →
    (∀ cid bs, s.sec.staging ≠ .verifying cid bs) →
    ∃ t, Machine.exec .pwrEnRise s = .next t ∧
      t = { s with
        pins := t.pins, link := t.link, adm := t.adm, dict := t.dict, power := t.power, sec := t.sec,
        sb := { s.sb with events := [] }, health := { s.health with plan := none } } ∧
      t.pins.pwrEn = true ∧ t.pins.mainOn = true ∧ t.sec.mgmtReady = false ∧
      t.sec.booted = none ∧ t.time = s.time ∧
      ∀ n ∈ poweredDomains, (domainAt t n).state = .waking ∧ (domainAt t n).lastWake = 0x0A) ∧
  (∀ s : State, s.pins.mainOn = true → (s.pins.poweringDown = true → s.adm.stopped = true) →
    ∃ t, Machine.exec .pwrEnFall s = .next t ∧ t.pins.pwrEn = false ∧ t.link.ready = false ∧
      (t.pins.mainOn = false ∨ t.pins.poweringDown = true ∧ t.adm.stopped = true ∧ lcLeft t = true)) ∧
  (∀ s : State, s.pins.mainOn = true →
    ∃ t, Machine.exec .mainPowerLoss s = .next t ∧ t.pins.mainOn = false ∧ t.pins.inputLost = true ∧ t.link.ready = false ∧
      t.cells = {} ∧ t.adm.queries = [] ∧ t.rime.banks = [] ∧ t.sec.mgmtReady = s.sec.mgmtReady ∧ t.sec.staging = .empty ∧
      (∀ d ∈ t.power.domains, d.num ≠ 0 → d.state = .off) ∧ (domainAt t 0).state = (domainAt s 0).state ∧ ∀ p ∈ t.bay.pegs, p.kind = .notice ∧ p.value = 0) ∧
  (∀ (s : State) (mv : Nat), 40000 ≤ mv → mv ≤ 60000 → s.pins.pwrEn = true → s.pins.auxGood = true → s.pins.mainOn = false →
    (∀ cid bs, s.sec.staging ≠ .verifying cid bs) →
    ∃ t, Machine.exec (.mainInputReturn mv) s = .next t ∧
      t = { s with
        pins := t.pins, link := t.link, adm := t.adm, dict := t.dict, power := t.power, sec := t.sec,
        sb := { s.sb with events := [] }, health := { s.health with plan := none } } ∧
      t.pins.inputInRange = true ∧ t.pins.mainOn = true ∧
      t.pins.inputLost = false) ∧
  (∀ s : State, s.pins.perstN = true → s.pins.mainOn = true → s.health.fatal = .none →
    ∃ t, Machine.exec .perstNAssert s = .next t ∧ t.link.ready = false ∧ t.health.selfTest = none ∧ t.adm.queries = [] ∧
      t.sec.mgmtReady = false ∧ t.sec.booted = none ∧ t.sec.staging = .empty ∧ t.sec.evidence = [] ∧ t.rime.banks = [] ∧
      t.tap.marked = [] ∧ t.pins.faultLow = false) ∧
  (∀ s : State, s.pins.perstN = false → s.pins.mainOn = false →
    ∃ t, Machine.exec .perstNRelease s = .next t ∧ t = { s with pins := t.pins, link := t.link, tap := t.tap } ∧
      t.pins.perstN = true ∧ t.link.training = false ∧ t.tap.driven = false ∧ t.tap.highZ = false ∧ t.tap.loop = none ∧
      t.tap.halted = false)

/-! The window, CDAT and DOE discovery (R236, R239, R245 to R248). -/

/-- Host accesses through the window: a read answers the block as it then stands and tracks the line, a write changes the 64 bytes of the
block in its frame and no other byte; an access to a page that must wait is kept; outside every region that lies in the span a read is
poisoned and a write is dropped and counted. A wrong byte of a codeword is corrected and counted for its bank; two or three are delivered
as poison, and the block is poisoned. An entry of the CDAT is answered, and the bytes of the whole table add up to 0 (their layouts are
the model's choice, log entry 140). -/
def Obligations.WindowDataRows : Prop :=
  (∀ (s : State) (h : HostRead) (x : Nat), windowAddr s h.hpa = some x → windowRegion s (x / 64 * 64 / pageBytes) = none →
    ∃ t d, Machine.exec (.cxlMemRead h) s = .next t ∧ t = { s with free := t.free, out := t.out } ∧
      t.out = s.out ++ [.memData d true] ∧ d.length = 64) ∧
  (∀ (s : State) (hpa x : Nat) (r : Region), windowAddr s hpa = some x → windowRegion s (x / 64 * 64 / pageBytes) = some r →
    (frameOfPage s (x / 64 * 64 / pageBytes)).isSome = true → sectorResident s (x / 64 * 64) = true →
    s.link.snoopFilter.length < 262144 →
    ∃ t, Machine.exec (.cxlMemRead { hpa := hpa }) s = .next t ∧
      t = { s with link := { s.link with snoopFilter := t.link.snoopFilter }, tier := { s.tier with frames := t.tier.frames },
                   out := t.out } ∧
      t.link.snoopFilter = s.link.snoopFilter.filter (fun l => l != x / 64 * 64) ++ [x / 64 * 64] ∧
      t.out = s.out ++ [.memData (devRead t (x / 64 * 64) 64) (devPoison t (x / 64 * 64))]) ∧
  (∀ (s : State) (h : HostRead) (x : Nat) (r : Region) (e : Frame_), windowAddr s h.hpa = some x →
    windowRegion s (x / 64 * 64 / pageBytes) = some r → frameOfPage s (x / 64 * 64 / pageBytes) = some e →
    sectorResident s (x / 64 * 64) = true →
    (codewordErrors (devPoison s (x / 64 * 64)) (devRead s (x / 64 * 64) 64) h.wrong).length = 1 →
    ∃ t, Machine.exec (.cxlMemRead h) s = .next t ∧
      t = { s with link := t.link, out := t.out, health := t.health, tier := { s.tier with frames := t.tier.frames } } ∧
      (∃ o, t.out = o ++ [.memData (devRead s (x / 64 * 64) 64) (devPoison s (x / 64 * 64))]) ∧
      (bankHealth t (blockRow s e.num (x / 64 * 64 % pageBytes)).1).corrected =
        (bankHealth s (blockRow s e.num (x / 64 * 64 % pageBytes)).1).corrected + 1) ∧
  (∀ (s : State) (h : HostRead) (x : Nat) (r : Region) (e : Frame_), windowAddr s h.hpa = some x →
    windowRegion s (x / 64 * 64 / pageBytes) = some r → frameOfPage s (x / 64 * 64 / pageBytes) = some e →
    sectorResident s (x / 64 * 64) = true →
    ((codewordErrors (devPoison s (x / 64 * 64)) (devRead s (x / 64 * 64) 64) h.wrong).length = 2 ∨
      (codewordErrors (devPoison s (x / 64 * 64)) (devRead s (x / 64 * 64) 64) h.wrong).length = 3) →
    ∃ t, Machine.exec (.cxlMemRead h) s = .next t ∧
      t = { s with link := t.link, out := t.out, tier := { s.tier with frames := t.tier.frames, poison := t.tier.poison } } ∧
      (∃ o, t.out = o ++ [.memData (devRead s (x / 64 * 64) 64) true]) ∧ devPoison t (x / 64 * 64) = true) ∧
  (∀ (s : State) (h : HostRead) (x : Nat) (r : Region), windowAddr s h.hpa = some x → windowRegion s (x / 64 * 64 / pageBytes) = some r →
    frameOfPage s (x / 64 * 64 / pageBytes) = none → beHeld s = true → hostHint s (x / 64 * 64 / pageBytes) false ≠ 1 →
    ∃ t, Machine.exec (.cxlMemRead h) s = .next t ∧
      t = { s with free := t.free, out := t.out, link := t.link, bay := t.bay, tier := t.tier } ∧
      t.tier = { s.tier with fillWaits := s.tier.fillWaits ++ [(x / 64 * 64, none)] }) ∧
  (∀ (s : State) (hpa x : Nat) (data : Bytes), windowAddr s hpa = some x → windowRegion s (x / 64 * 64 / pageBytes) = none →
    ∃ t, Machine.exec (.cxlMemWrite hpa data) s = .next t ∧ t = { s with link := { s.link with counters := t.link.counters } } ∧
      lookupKey t.link.counters 0 = some { (lookupKey s.link.counters 0).getD {} with
        winWriteDropped := wrapAdd 64 ((lookupKey s.link.counters 0).getD {}).winWriteDropped 1 }) ∧
  (∀ (s : State) (hpa x : Nat) (data : Bytes) (r : Region) (e : Frame_), storesWf s → windowAddr s hpa = some x →
    windowRegion s (x / 64 * 64 / pageBytes) = some r → frameOfPage s (x / 64 * 64 / pageBytes) = some e →
    sectorResident s (x / 64 * 64) = true →
    ∃ t, Machine.exec (.cxlMemWrite hpa data) s = .next t ∧ t = { s with tier := t.tier } ∧
      (∀ k, k < 64 → memRead t.tier.dram (dramKey e.num (x / 64 * 64 % pageBytes) + k) = (padTo 64 data).getD k 0) ∧
      (∀ b, b < dramKey e.num (x / 64 * 64 % pageBytes) ∨ dramKey e.num (x / 64 * 64 % pageBytes) + 64 ≤ b →
        memRead t.tier.dram b = memRead s.tier.dram b) ∧ t.tier.flash = s.tier.flash) ∧
  (∀ (s : State) (entry : Nat) (bs : Bytes), s.link.up = true → (cdatTable s)[entry]? = some bs →
    Machine.exec (.cdatTableAccess 0 entry) s = .next { s with out := s.out ++ [.doe doeCdat bs] }) ∧
  (∀ s : State, sumOf (((cdatTable s).flatMap id).map (fun b => b.toNat)) % 256 = 0 ∧
    (cdatTable s).map (fun e => e.length) = [16, 24, 24, 24, 24, 24, 8, 24]) ∧
  (∀ (s : State) (tableType entry : Nat), s.link.up = true → tableType ≠ 0 →
    Machine.exec (.cdatTableAccess tableType entry) s = .next { s with out := s.out ++ [.doe doeError []] }) ∧
  (∀ (s : State) (i : Nat), s.link.up = true → i < 4 →
    Machine.exec (.doeDiscovery i) s = .next { s with
      out := s.out ++ [.doe doeDiscovery ([i, if i + 1 < 4 then i + 1 else 0].flatMap (natLe 8))] })

/-! The test access port (R417 to R421). -/

/-- The TAP's instructions and BRINGUP operations: an instruction that may act is loaded, drives or releases the outputs and
captures its register; BRINGUP below its level acts as BYPASS and sets BLOCKED; a row of a bring-up operation starts it when
none runs, and its completion puts the result into the register. -/
def Obligations.TapRows : Prop :=
  (∀ s : State, s.pins.auxGood = true → inBringup s = true →
    Machine.exec .extest s = .next (tapLoaded s 0x00 0x00 false true false (BitVec.ofNat 128 s.tap.boundary))) ∧
  (∀ s : State, s.pins.auxGood = true →
    Machine.exec .idcode s = .next (tapLoaded s 0x01 0x01 false false false (idcodeWord.setWidth 128))) ∧
  (∀ (s : State) (pins : Nat), s.pins.auxGood = true → s.pins.mainOn = true →
    Machine.exec (.samplePreload pins) s =
      .next (tapLoaded { s with tap := { s.tap with boundary := pins } } 0x02 0x02 false false false (BitVec.ofNat 128 pins))) ∧
  (∀ s : State, s.pins.auxGood = true → s.pins.perstN = false →
    Machine.exec .highz s = .next (tapLoaded s 0x08 0x08 false false true 0)) ∧
  (∀ s : State, s.pins.auxGood = true → s.pins.perstN = false →
    Machine.exec .clamp s = .next (tapLoaded s 0x09 0x09 false true false 0)) ∧
  (∀ s : State, s.pins.auxGood = true → ∃ t, Machine.exec .dbgStatus s = .next t ∧
    t = tapLoaded s 0x10 0x10 false false false t.tap.captured ∧
    flag t.tap.captured 0 = true ∧ flag t.tap.captured 1 = s.sec.mgmtReady ∧ flag t.tap.captured 3 = s.pins.faultLow ∧
    flag t.tap.captured 4 = s.pins.mainOn ∧ flag t.tap.captured 5 = !s.pins.perstN ∧
    field t.tap.captured 6 2 = s.sec.debugLevel % 4 ∧ field t.tap.captured 8 8 = s.sec.bootState % 256) ∧
  (∀ s : State, s.pins.auxGood = true →
    Machine.exec .bypass s = .next (tapLoaded s 0xFF 0xFF false false false 0)) ∧
  (∀ (s : State) (halt : Bool) (addr : Nat), s.pins.auxGood = true → inBringup s = true → 2 ≤ s.sec.debugLevel →
    ∃ t, Machine.exec (.mgmtDebug halt addr) s = .next t ∧
      t = tapLoaded { s with tap := { s.tap with halted := halt } } 0x40 0x40 false false false t.tap.captured) ∧
  (∀ s : State, s.pins.auxGood = true → inBringup s = true → 1 ≤ s.sec.debugLevel →
    Machine.exec (.bringup none) s = .next (tapLoaded s 0x30 0x30 false false false (brCapture s))) ∧
  (∀ (s : State) (d : Option (BitVec 128)), s.pins.auxGood = true → (inBringup s = false ∨ s.sec.debugLevel = 0) →
    Machine.exec (.bringup d) s = .next (tapLoaded s 0x30 0xFF true false false 0)) ∧
  (∀ (s : State) (d : BitVec 128) (row : Instr) (op : Nat),
    (row, op) ∈ [(.pprQuery d, 0x01), (.pprRepair d, 0x02), (.bbtQuery d, 0x10), (.bbtRead d, 0x11), (.bbtMark d, 0x12),
      (.loopStart d, 0x20), (.loopStop d, 0x21)] →
    s.pins.auxGood = true → s.tap.acting = 0x30 → inBringup s = true → s.tap.op = none → mgmtAwake s = true → brOp d = op →
    Machine.exec row s = .next { s with tap := { s.tap with op := some d } }) ∧
  (∀ (s : State) (ok : Bool) (d : BitVec 128), s.tap.op = some d → s.pins.perstN = false →
    ∃ t, Machine.exec (.bringupOpComplete ok) s = .next t ∧
      t = { s with tap := t.tap, health := t.health, free := t.free } ∧ t.tap.op = none ∧
      field t.tap.dr 0 8 = brOp d ∧ field t.tap.dr 32 32 = brArg0 d) ∧
  (∀ (s : State) (d : BitVec 128) (channel bank row : Nat), channel < 128 → bank < 32 → row < 122880 →
    d = brWord 0x02 0 (channel + bank * 2 ^ 8) row 0 → s.tap.op = some d → s.pins.perstN = false →
    (bankHealth s (32 * channel + bank)).used < 4 →
    ∃ t, Machine.exec (.bringupOpComplete true) s = .next t ∧
      t = { s with
        free := t.free, out := t.out, pins := t.pins, link := t.link, queues := t.queues, tier := t.tier, health := t.health,
        sb := t.sb, tap := t.tap } ∧
      field t.tap.dr 16 8 = 0 ∧
      bankHealth t (32 * channel + bank) = { bankHealth s (32 * channel + bank) with
        used := (bankHealth s (32 * channel + bank)).used + 1, mended := (bankHealth s (32 * channel + bank)).mended + 1,
        repaired := (bankHealth s (32 * channel + bank)).repaired ++ [row] } ∧
      field t.tap.dr 64 32 = 4 - (bankHealth t (32 * channel + bank)).used)

/-! Pegs (R307 to R311, R345). -/

/-- A PEG_OP of an opcode on a queue pair: the command that a row finds, its peg as it stands and its operand (R277). -/
def Obligations.PegRows : Prop :=
  (∀ (s : State) (q cid p : Nat) (c : Cmd) (v : Word64) (x : Peg), ioTakes s q cid 0x09 c → field c.sqe 84 4 = 0 →
    p = field c.sqe 64 17 → v = BitVec.ofNat 64 (field c.sqe 128 64) → pegAt s p = some x → mayUsePeg s (ctxOfQueue s q) x = true →
    x.kind ≠ .notice →
    ∃ t y, Machine.exec (.pegSet (.host q cid)) s = .next t ∧ pegAt t p = some y ∧ y.value = v ∧
      t = progressCtx (endCmd (settlePeg (updPeg (pegTurn s p 160) p (fun z => { z with value := v })) p) q c stOk v.toNat)
        (ctxOfQueue s q)) ∧
  (∀ (s : State) (q cid p : Nat) (c : Cmd) (v : Word64) (x : Peg), ioTakes s q cid 0x09 c → field c.sqe 84 4 = 1 →
    p = field c.sqe 64 17 → v = BitVec.ofNat 64 (field c.sqe 128 64) → pegAt s p = some x → mayUsePeg s (ctxOfQueue s q) x = true →
    x.kind ≠ .notice →
    ∃ t y, Machine.exec (.pegAdd (.host q cid)) s = .next t ∧ pegAt t p = some y ∧ y.value = x.value + v ∧
      t = progressCtx (endCmd (settlePeg (updPeg (pegTurn s p 160) p (fun z => { z with value := z.value + v })) p) q c stOk
        (x.value + v).toNat)
        (ctxOfQueue s q)) ∧
  (∀ (s : State) (q cid p op : Nat) (c : Cmd) (v : Word64) (x : Peg) (row : Instr), ioTakes s q cid 0x09 c → field c.sqe 84 4 = op →
    p = field c.sqe 64 17 → v = BitVec.ofNat 64 (field c.sqe 128 64) → pegAt s p = some x → mayUsePeg s (ctxOfQueue s q) x = true →
    (row = .pegWaitGe (.host q cid) ∧ op = 2 ∧ v.toNat ≤ x.value.toNat ∨ row = .pegWaitEq (.host q cid) ∧ op = 3 ∧ x.value = v) →
    Machine.exec row s = .next (progressCtx (endCmd (pegTurn s p 160) q c stOk x.value.toNat) (ctxOfQueue s q))) ∧
  (∀ (s : State) (q cid p op : Nat) (c : Cmd) (v : Word64) (x : Peg) (row : Instr), ioTakes s q cid 0x09 c → field c.sqe 84 4 = op →
    p = field c.sqe 64 17 → v = BitVec.ofNat 64 (field c.sqe 128 64) → pegAt s p = some x → mayUsePeg s (ctxOfQueue s q) x = true →
    (row = .pegWaitGe (.host q cid) ∧ op = 2 ∧ x.value.toNat < v.toNat ∨ row = .pegWaitEq (.host q cid) ∧ op = 3 ∧ x.value ≠ v) →
    field c.sqe 192 32 = 0 → Machine.exec row s = .next (endCmd (pegTurn s p 160) q c stPegTimeout x.value.toNat)) ∧
  (∀ (s : State) (q cid p op : Nat) (c : Cmd) (v : Word64) (x : Peg) (row : Instr), ioTakes s q cid 0x09 c → field c.sqe 84 4 = op →
    p = field c.sqe 64 17 → v = BitVec.ofNat 64 (field c.sqe 128 64) → pegAt s p = some x → mayUsePeg s (ctxOfQueue s q) x = true →
    (row = .pegWaitGe (.host q cid) ∧ op = 2 ∧ x.value.toNat < v.toNat ∨ row = .pegWaitEq (.host q cid) ∧ op = 3 ∧ x.value ≠ v) →
    field c.sqe 192 32 ≠ 0 → s.bay.waits.length < 65536 → ∃ t w, Machine.exec row s = .next t ∧
      t = { pegTurn s p 160 with queues := t.queues, bay := { (pegTurn s p 160).bay with waits := s.bay.waits ++ [w] } } ∧
      w.q = q ∧ w.cid = cid ∧ w.peg = p ∧ w.operand = v ∧
      w.limit = if field c.sqe 192 32 = 0xFFFFFFFF then none else some ((pegTurn s p 160).time.dtb + 1000 * field c.sqe 192 32)) ∧
  (∀ (s : State) (q cid p : Nat) (c : Cmd) (x : Peg), ioTakes s q cid 0x09 c → field c.sqe 84 4 = 4 → p = field c.sqe 64 17 →
    pegAt s p = some x → mayUsePeg s (ctxOfQueue s q) x = true → x.kind ≠ .notice → x.holder = none →
    ∃ t, Machine.exec (.pegAcquire (.host q cid)) s = .next t ∧
      pegAt t p = some { x with holder := some (ctxOfQueue s q), broken := false } ∧
      t = progressCtx (endCmd (takePeg (pegTurn s p 160) p (ctxOfQueue s q)) q c (if x.broken then stPegBroken else stOk)
        x.value.toNat)
        (ctxOfQueue s q)) ∧
  (∀ (s : State) (q cid p : Nat) (c : Cmd) (x : Peg), ioTakes s q cid 0x09 c → field c.sqe 84 4 = 5 → p = field c.sqe 64 17 →
    field c.sqe 128 64 = 0 → pegAt s p = some x → mayUsePeg s (ctxOfQueue s q) x = true → x.kind ≠ .notice →
    x.holder = some (ctxOfQueue s q) →
    ∃ t y, Machine.exec (.pegRelease (.host q cid)) s = .next t ∧ pegAt t p = some y ∧ y.value = x.value ∧
      ((∀ w ∈ s.bay.waits, w.peg = p → w.kind ≠ .acquire) → y.holder = none) ∧
      t = progressCtx (endCmd (settlePeg (updPeg (pegTurn s p 160) p (fun z => { z with holder := none })) p) q c stOk x.value.toNat)
        (ctxOfQueue s q)) ∧
  (∀ (s : State) (ctx thr p op : Nat) (v : Word64) (c : Ctx) (x : Peg) (row : Instr) (met : Bool), ctxAt s ctx = some c →
    pegAt s p = some x → mayUsePeg s ctx x = true →
    (row = .pegWaitGe (.thread ctx thr p v) ∧ op = 2 ∧ met = decide (v.toNat ≤ x.value.toNat) ∨
      row = .pegWaitEq (.thread ctx thr p v) ∧ op = 3 ∧ met = (x.value == v)) →
    ∃ t, Machine.exec row s = .next t ∧
      t = { pegTurn s p (thr / 16384) with cells := t.cells, bay := { (pegTurn s p (thr / 16384)).bay with
        threadResults := s.bay.threadResults ++ [(ctx, thr, p, met, x.value, x.broken)] } } ∧
      t.cells = { s.cells with threads := t.cells.threads } ∧
      ((threadAt s thr).wait = some (.peg p) → (threadAt t thr).wait = none) ∧ (threadAt t thr).regs = (threadAt s thr).regs ∧
      ∀ k, k ≠ thr → threadAt t k = threadAt s k) ∧
  (∀ (s : State) (ctx thr p : Nat) (v : Word64) (c : Ctx) (row : Instr), ctxAt s ctx = some c →
    (∀ x, pegAt s p = some x → mayUsePeg s ctx x = false) →
    row ∈ [.pegWaitGe (.thread ctx thr p v), .pegWaitEq (.thread ctx thr p v)] →
    ∃ t, Machine.exec row s = .next t ∧ t = faultContext s ctx faultPeg) ∧
  (∀ (s : State) (q cid lim : Nat) (w : PegWait), s.bay.waits.find? (fun y => y.q == q && y.cid == cid && !y.lost) = some w →
    w.limit = some lim →
    ∃ t, Machine.exec (.pegWaitTimeout q cid) s = .next t ∧ t = endWait (advanceTo s lim) w stPegTimeout ∧
      t.time.dtb = max s.time.dtb lim ∧ t.bay.waits = removeFirst (fun y => y == w) s.bay.waits) ∧
  (∀ (s : State) (p : Nat), ∃ t, Machine.exec (.pegSignalRepeat p) s = .next t ∧
    t = settlePeg { s with bay := { s.bay with
      waits := s.bay.waits.map (fun w => if w.peg = p then { w with lost := false } else w) } } p ∧
    ∀ y, pegAt s p = some y → ∃ z, pegAt t p = some z ∧ z.value = y.value) ∧
  (∀ (s : State) (p port : Nat), ∃ k, k = (if turnOver s p port then s.time.dtb + 1 else s.time.dtb) ∧
    pegTurn s p port = { s with time := { s.time with dtb := k }, bay := { s.bay with pegTurns := (pegTurn s p port).bay.pegTurns } } ∧
    lookupKey (pegTurn s p port).bay.pegTurns p = some (k, portOrder port k)) ∧
  (∀ (s : State) (ctx thr p : Nat) (v w : Word64) (c : Ctx) (x : Peg) (row : Instr), ctxAt s ctx = some c → pegAt s p = some x →
    mayUsePeg s ctx x = true → x.kind ≠ .notice →
    (row, w) ∈ [(.pegSet (.thread ctx thr p v), v), (.pegAdd (.thread ctx thr p v), x.value + v)] →
    ∃ t y, Machine.exec row s = .next t ∧ pegAt t p = some y ∧ y.value = w ∧
      t = threadAnswer (settlePeg (updPeg (pegTurn s p (thr / 16384)) p (fun z => { z with value := w })) p) ctx thr p true false) ∧
  (∀ (s : State) (ctx thr p : Nat) (v : Word64) (c : Ctx) (x : Peg), ctxAt s ctx = some c → pegAt s p = some x →
    mayUsePeg s ctx x = true → x.kind ≠ .notice → x.holder ≠ some ctx →
    Machine.exec (.pegAcquire (.thread ctx thr p v)) s = .next (if x.holder = none
      then threadAnswer (takePeg (pegTurn s p (thr / 16384)) p ctx) ctx thr p true x.broken
      else threadAnswer (pegTurn s p (thr / 16384)) ctx thr p false x.broken)) ∧
  (∀ (s : State) (ctx thr p : Nat) (c : Ctx) (x : Peg), ctxAt s ctx = some c → pegAt s p = some x → mayUsePeg s ctx x = true →
    x.kind ≠ .notice → x.holder = some ctx →
    ∃ t y, Machine.exec (.pegRelease (.thread ctx thr p 0)) s = .next t ∧ pegAt t p = some y ∧ y.value = x.value ∧
      t = threadAnswer (settlePeg (updPeg (pegTurn s p (thr / 16384)) p (fun z => { z with holder := none })) p) ctx thr p true false)

/-! Batches, plans and runs (R121, R124, R167, R168, R266 to R269, R278). -/

/-- Batch commands and runs: a well-formed command starts and its positions are decided one by one; a refused position gets its header and
no slot, an accepted one a slot with what it holds, its code, vector, tokens and filter cut from the bytes of its query block; a run is
one query with its arguments and seed. -/
def Obligations.BatchRows : Prop :=
  (∀ (s : State) (q cid op : Nat) (kind : PlanKind) (desc : BitVec 1024) (es : List Bytes) (row : Instr) (c : Cmd) (pr : QPair)
      (p : Plan), (row, op, kind) ∈ batchRows q cid desc es → ioTakes s q cid op c → pairOf s q = some pr →
    lowerPairFirst s q c = false →
    descOk desc pr.bsize = true → planAt s (cmdPlan c.sqe) = some p → p.ctx = pr.ctx → p.unloading = none → p.kind = kind →
    (pr.lc = true → p.lcOk = true) →
    Machine.exec row s = .next (((descPositions desc pr.bsize).zip (List.range (descPositions desc pr.bsize).length)).foldl
      (fun st e => decidePosition pr p c op (descStride desc) st e.1 es[e.2]?) (startCmd s q c))) ∧
  (∀ (s : State) (q cid op pos st : Nat) (kind : PlanKind) (desc : BitVec 1024) (es : List Bytes) (row : Instr) (c : Cmd)
      (pr : QPair) (p : Plan), (row, op, kind) ∈ batchRows q cid desc es → ioTakes s q cid op c → pairOf s q = some pr →
    lowerPairFirst s q c = false →
    descOk desc pr.bsize = true → planAt s (cmdPlan c.sqe) = some p → p.ctx = pr.ctx → p.unloading = none → p.kind = kind →
    (pr.lc = true → p.lcOk = true) → descPositions desc pr.bsize = [pos] →
    (∀ b, decideQuery (startCmd s q c) pr p c.arrival b = .refused st) →
    ∃ t, Machine.exec row s = .next t ∧ t = { s with queues := t.queues, bay := t.bay, out := t.out } ∧
      t.out = s.out ++ [.header q cid pos (sqePtr2 c.sqe + pos * regionBytes s p) (headerWord s.time.dtb { status := st })]) ∧
  (∀ (s : State) (q cid op pos slot start off : Nat) (holds : List (Nat × Nat × Nat)) (kind : PlanKind) (desc : BitVec 1024)
      (b : Bytes) (e : QueryEntry) (row : Instr) (c : Cmd) (pr : QPair) (p : Plan) (n : Nat) (i : Index),
    (row, op, kind) ∈ batchRows q cid desc [b] → ioTakes s q cid op c → pairOf s q = some pr → lowerPairFirst s q c = false →
    descOk desc pr.bsize = true → planAt s (cmdPlan c.sqe) = some p → p.ctx = pr.ctx → p.unloading = none → p.kind = kind →
    (pr.lc = true → p.lcOk = true) → descPositions desc pr.bsize = [pos] →
    (∀ b, decideQuery (startCmd s q c) pr p c.arrival b = .accepted slot start off holds) → p.index = some n →
    indexAt s n = some i → 64 * descStride desc ≤ b.length → e = cutEntry op p i.params b →
    (∀ u : State, entryOk u op (descStride desc) p i e = true) →
    ∃ t, Machine.exec row s = .next t ∧
      t = { s with
        queues := t.queues, bay := t.bay, adm := { s.adm with queries := t.adm.queries }, power := t.power,
        link := { s.link with cache := t.link.cache } } ∧
      t.adm.queries.length = s.adm.queries.length + 1 ∧
      ∃ x ∈ t.adm.queries, x.slot = slot ∧ x.q = q ∧ x.cid = cid ∧ x.pos = pos ∧ x.plan = p.handle ∧ x.holds = holds ∧
        x.index = some n ∧ x.version = i.version ∧ x.startAt = start ∧ x.code = e.code % 2 ^ i.params.w ∧ x.vec = e.rerank ∧
        x.tokens = e.tokens ∧ x.filter = filterOf e.head e.filt) ∧
  (∀ (s : State) (q cid op : Nat) (kind : PlanKind) (desc : BitVec 1024) (es : List Bytes) (row : Instr) (c : Cmd) (pr : QPair),
    ((row, op, kind) ∈ batchRows q cid desc es ∨ (row, op) = (.planRun q cid desc, 0x07)) → ioTakes s q cid op c →
    pairOf s q = some pr → lowerPairFirst s q c = true → Machine.exec row s = .next s) ∧
  (∀ (s : State) (q cid st : Nat) (desc : BitVec 1024) (c : Cmd) (pr : QPair) (p : Plan), ioTakes s q cid 0x07 c →
    pairOf s q = some pr → lowerPairFirst s q c = false → runArgsOk desc = true → planAt s (cmdPlan c.sqe) = some p → p.ctx = pr.ctx → p.unloading = none →
    (p.kind = .run ∨ p.kind = .train) → (pr.lc = true → p.lcOk = true) →
    runArgsUsable s p ((List.range 16).map (runArg desc)) = true →
    decideQuery (startCmd s q c) pr p c.arrival false = .refused st →
    ∃ t, Machine.exec (.planRun q cid desc) s = .next t ∧ t = { s with queues := t.queues, bay := t.bay, out := t.out } ∧
      t.out = s.out ++ [.header q cid 0 (sqePtr2 c.sqe) (headerWord s.time.dtb { status := st })]) ∧
  (∀ (s : State) (q cid slot start off : Nat) (holds : List (Nat × Nat × Nat)) (desc : BitVec 1024) (c : Cmd) (pr : QPair) (p : Plan),
    ioTakes s q cid 0x07 c → pairOf s q = some pr → lowerPairFirst s q c = false → runArgsOk desc = true → planAt s (cmdPlan c.sqe) = some p → p.ctx = pr.ctx →
    p.unloading = none → (p.kind = .run ∨ p.kind = .train) → (pr.lc = true → p.lcOk = true) →
    runArgsUsable s p ((List.range 16).map (runArg desc)) = true →
    decideQuery (startCmd s q c) pr p c.arrival false = .accepted slot start off holds →
    ∃ t x, Machine.exec (.planRun q cid desc) s = .next t ∧ t.out = s.out ∧ t.adm.queries = s.adm.queries ++ [x] ∧ x.slot = slot ∧
      x.opcode = 0x07 ∧ x.plan = p.handle ∧ x.seed = runSeed desc ∧ x.params = runParams desc ∧
      x.args = (List.range 16).map (runArg desc))

/-- Plans and their cuts: a plan is loaded under the lowest free handle, or not at all where a pinned sector cannot be read (model's
choice, log entry 145), unloading stops its admission and its release frees the handle once no rime request of it is left; a cut starts
and ends on its query, a cut that touches a lost object ends the query, one that reads an object being rebuilt or whose rime requests move
waits; an arrival keeps the tensor's bytes for its arrays and increments the arrival peg. -/
def Obligations.PlanRows : Prop :=
  (∀ (s : State) (cid : Nat) (image : ImageRead) (c : Cmd) (m : Image), adminTakes s cid 0x84 c →
    m = imageOf (image.data.take (field c.sqe 64 32)) → field c.sqe 64 32 % 64 = 0 → field c.sqe 64 32 ≤ image.data.length →
    (imLcOk m && refitHolds s 0x2000 1) = false → (bayOfCtx s (field c.sqe 96 12) == 0 && refitHolds s 0x3000 0) = false →
    planStatus s (field c.sqe 96 12) m = stOk → badFills s m image.bad = [] →
    (framesTaken s (bayOfCtx s (field c.sqe 96 12)) m = 0 ∨
      roomFor s (bayOfCtx s (field c.sqe 96 12)) (framesTaken s (bayOfCtx s (field c.sqe 96 12)) m) = true) →
    ∃ t h p, Machine.exec (.planLoad cid image) s = .next t ∧
      t = { s with
        free := t.free, out := t.out, link := t.link, queues := t.queues, bay := t.bay, tier := t.tier, rime := t.rime,
        health := t.health, power := t.power } ∧
      freeHandle s = some h ∧ planAt t h = some p ∧
      p.ctx = field c.sqe 96 12 ∧ p.unloading = none ∧ p.lcOk = imLcOk m ∧ p.cuts.length = imCutCount m ∧
      p.codeOff = imCodeOff m ∧ p.weights.length = imWeightCount m ∧
      p.digest = Config.shake256 (image.data.take (field c.sqe 64 32))) ∧
  (∀ (s : State) (cid : Nat) (image : ImageRead) (c : Cmd) (m : Image), adminTakes s cid 0x84 c →
    m = imageOf (image.data.take (field c.sqe 64 32)) → field c.sqe 64 32 % 64 = 0 → field c.sqe 64 32 ≤ image.data.length →
    (imLcOk m && refitHolds s 0x2000 1) = false → (bayOfCtx s (field c.sqe 96 12) == 0 && refitHolds s 0x3000 0) = false →
    planStatus s (field c.sqe 96 12) m = stOk → badFills s m image.bad ≠ [] →
    (framesTaken s (bayOfCtx s (field c.sqe 96 12)) m = 0 ∨
      roomFor s (bayOfCtx s (field c.sqe 96 12)) (framesTaken s (bayOfCtx s (field c.sqe 96 12)) m) = true) →
    ∃ t, Machine.exec (.planLoad cid image) s = .next (endCmd t adminQ c stMediaUe 0) ∧ t.bay.plans = s.bay.plans) ∧
  (∀ (s : State) (cid : Nat) (c : Cmd) (p : Plan), adminTakes s cid 0x85 c → planAt s (field c.sqe 64 16) = some p →
    p.unloading = none →
    ∃ t, Machine.exec (.planUnload cid) s = .next t ∧
      t = { s with queues := t.queues, bay := { s.bay with plans := t.bay.plans } } ∧
      planAt t (field c.sqe 64 16) = some { p with unloading := some cid }) ∧
  (∀ (s : State) (h cid : Nat) (p : Plan), planAt s h = some p → p.unloading = some cid → (∀ x ∈ s.adm.queries, x.plan ≠ h) →
    planRequests s h = false →
    ∃ t, Machine.exec (.planUnloadRelease h) s = .next t ∧ t = postCompletion (releasePlan s h) adminQ cid stOk 0 ∧
      planAt t h = none) ∧
  (∀ (s : State) (h : Nat), planRequests s h = true → Machine.exec (.planUnloadRelease h) s = .next s) ∧
  (∀ (s : State) (slot cut : Nat) (x : Query) (p : Plan) (r : Nat × Nat) (d : Cut), queryAt s slot = some x →
    planAt s x.plan = some p → p.cuts[cut]? = some d → touchesLost s x = false → cutRank s x d = some r → cutReady s x cut = true →
    outranked s x (cutArrays p cut) r = false → d.weightStart = 0xFFFF →
    ∃ t y, Machine.exec (.cutStart slot cut) s = .next t ∧ t = { s with adm := { s.adm with queries := t.adm.queries }, bay := t.bay } ∧
      queryAt t slot = some y ∧
      y = { x with
        nextCut := y.nextCut, ahead := y.ahead, running := x.running ++ [{ cut := cut, start := s.time.dtb }],
        stalledSince := dropKey x.stalledSince cut } ∧
      (cut = x.nextCut → x.ahead = [] → y.nextCut = cut + 1 ∧ y.ahead = []) ∧
      (x.nextCut < cut → x.ahead = [] → y.nextCut = x.nextCut ∧ y.ahead = [cut])) ∧
  (∀ (s : State) (slot cut : Nat) (x : Query) (p : Plan) (d : Cut), queryAt s slot = some x → planAt s x.plan = some p →
    p.cuts[cut]? = some d → touchesLost s x = true → x.running = [] →
    ∃ t y, Machine.exec (.cutStart slot cut) s = .next t ∧ t = failQuery s x stWeightsLost ∧ queryAt t slot = some y ∧
      y.stage = .done ∧ y.status = stWeightsLost) ∧
  (∀ (s : State) (slot cut : Nat) (work : List CutOp) (x : Query) (p : Plan) (d : Cut), queryAt s slot = some x →
    planAt s x.plan = some p → p.cuts[cut]? = some d → x.running.any (fun r => r.cut == cut) = true →
    graceOver s x.bay = false → rimeMoving s x.slot = false → heldObjects s p work = [] → work.any (readsLost s p) = false →
    (∃ y, queryAt (work.foldl (cutOp slot (cutArrays p cut)) s) slot = some y ∧ y.stage ≠ .done) →
    ∃ t, Machine.exec (.cutEnd slot cut work) s = .next t ∧
      (∀ y, queryAt t slot = some y → ∀ r ∈ y.running, r.cut ≠ cut) ∧
      ∃ pl, planAt t x.plan = some pl ∧ pl.counters.cutsDone = satAdd 64 p.counters.cutsDone 1) ∧
  (∀ (s : State) (slot cut : Nat) (work : List CutOp) (x : Query) (p : Plan) (d : Cut), queryAt s slot = some x →
    planAt s x.plan = some p → p.cuts[cut]? = some d → rimeMoving s x.slot = true →
    Machine.exec (.cutEnd slot cut work) s = .next s) ∧
  (∀ (s : State) (slot cut : Nat) (work : List CutOp) (x : Query) (p : Plan) (d : Cut), queryAt s slot = some x →
    planAt s x.plan = some p → p.cuts[cut]? = some d → x.running.any (fun r => r.cut == cut) = true → rimeMoving s x.slot = false →
    heldObjects s p work ≠ [] →
    ∃ t, Machine.exec (.cutEnd slot cut work) s = .next t ∧ t = { s with adm := { s.adm with queries := t.adm.queries } } ∧
      queryAt t slot = some { x with running := x.running.map (fun r =>
        if r.cut = cut then { r with held := heldObjects s p work } else r) }) ∧
  (∀ (s : State) (slot : Nat) (as_ : List Nat) (op : CutOp) (k : Nat), storesWf s →
    ((∀ a ∈ as_, k < arrayBytes * a ∨ arrayBytes * (a + 1) ≤ k) →
      memRead (cutOp slot as_ s op).cells.arrayStore k = memRead s.cells.arrayStore k) ∧
    ((∀ a ∈ as_, k < 64 * cellBytes * a ∨ 64 * cellBytes * (a + 1) ≤ k) →
      memRead (cutOp slot as_ s op).cells.cellStore k = memRead s.cells.cellStore k) ∧
    (k / 16384 ∉ as_ → threadAt (cutOp slot as_ s op) k = threadAt s k) ∧
    ∀ reg, reg < 32 → k / 64 ∉ as_ → vectorLanes (cutOp slot as_ s op) k reg = vectorLanes s k reg) ∧
  (∀ (s : State) (slot : Nat) (as_ : List Nat) (x : Query) (p : Plan) (dst : Place) (op : CutOp) (bs : Bytes)
      (count : PlanCounters → PlanCounters), storesWf s → queryAt s slot = some x → x.stage ≠ .done → planAt s x.plan = some p →
    placeFault s x as_ bs.length dst = none →
    ((∃ sa sb acc ab, op = .intDot sa sb acc ab dst ∧ bs = natLe 4 (patternOf 32 (intAccumulate sa sb acc ab).1) ∧
        count = (fun c => { c with accSat := satAdd 64 c.accSat (intAccumulate sa sb acc ab).2 })) ∨
      (∃ xs, op = .toB1 xs dst ∧ bs = natLe (ceilDiv xs.length 8) (b1Code xs) ∧
        count = (fun c => { c with nan := satAdd 64 c.nan (xs.filter isNan32).length })) ∨
      ∃ w rest, op = .gradSum (w :: rest) dst ∧ bs = natLe 4 (rest.foldl add32 w).toNat ∧ count = id) →
    wroteAt s { cutOp slot as_ s op with bay := s.bay } dst bs ∧
    (cutOp slot as_ s op).bay = { s.bay with plans := (cutOp slot as_ s op).bay.plans } ∧
    planAt (cutOp slot as_ s op) x.plan = some { p with counters := count p.counters }) ∧
  (∀ (s : State) (slot a cell reg : Nat) (lanes : List (BitVec 80)) (x : Query) (p : Plan), queryAt s slot = some x → x.stage ≠ .done →
    planAt s x.plan = some p → a = cell / 64 → reg < 32 → lanes.length ≤ 64 →
    vectorLanes (cutOp slot [a] s (.vector cell reg lanes)) cell reg = lanes ++ (vectorLanes s cell reg).drop lanes.length) ∧
  (∀ (s : State) (slot a thr reg : Nat) (v : Word64) (wait : Option ThreadWait) (x : Query) (p : Plan), queryAt s slot = some x →
    x.stage ≠ .done → planAt s x.plan = some p → a = thr / 16384 → reg < 32 → issueTurn s thr = true →
    scalarReg (threadAt (cutOp slot [a] s (.scalar thr reg v wait)) thr) reg = v ∧
    (threadAt (cutOp slot [a] s (.scalar thr reg v wait)) thr).wait = wait ∧
    (wait ≠ none → issueTurn (cutOp slot [a] s (.scalar thr reg v wait)) thr = false)) ∧
  (∀ (s : State) (h obj g : Nat) (p : Plan) (o : WeightObj) (y : Peg), planAt s h = some p → p.weights[obj]? = some o →
    o.streams ≠ [] → objectHeld s o = false → objectLost s o = false → objectPoison s o = false →
    (p.pegs[o.arrival]?).bind (fun b => b.peg) = some g → pegAt s g = some y →
    ∃ t pl z, Machine.exec (.weightArrival h obj .ok) s = .next t ∧
      t.indexes = s.indexes ∧ t.rime = s.rime ∧ t.cells = s.cells ∧ t.dict = s.dict ∧ t.sec = s.sec ∧ t.tap = s.tap ∧
      planAt t h = some pl ∧
      (pl.weights[obj]?).map (fun w => w.streams) = some (o.streams.drop 1) ∧
      (∃ w d sc, pl.weights[obj]? = some w ∧ (o.streams.headD [], d, sc) ∈ w.fetched ∧ d.length = o.bytes) ∧ pegAt t g = some z ∧ z.value = y.value + 1)

/-! The work of a query (R43, R66 to R75, R82, R84, R96, R131, R132). -/

/-- A query from its start to its results: cuts begin, records and rebuilds give survivors, a block is scanned, a slot is scored, and the
results or the guard time end its work. A read of flash or DRAM, or a rebuild, that is not the next of its channels changes nothing (log
entries 101 and 135); one that delivers poison or a lost unit ends the query with ST_MEDIA_UE. -/
def Obligations.QueryRows : Prop :=
  (∀ (s : State) (slot : Nat) (x : Query), queryAt s slot = some x → x.stage = .waiting → (x.lc = true ∨ beHeld s = false) →
    x.opcode ≠ 0x01 → x.opcode ≠ 0x02 → x.opcode ≠ 0x04 →
    ∃ t, Machine.exec (.queryWorkStart slot) s = .next t ∧
      t = { s with time := { s.time with dtb := max s.time.dtb x.startAt }, adm := { s.adm with queries := t.adm.queries } } ∧
      queryAt t slot = some { x with stage := .cuts }) ∧
  (∀ (s : State) (slot : Nat) (x : Query), queryAt s slot = some x → x.stage = .waiting → (x.lc = true ∨ beHeld s = false) →
    x.opcode = 0x01 → Machine.exec (.queryWorkStart slot) s = .next (settleSearch (startTraversal (advanceTo s x.startAt) x) slot)) ∧
  (∀ (s : State) (slot : Nat) (x : Query), queryAt s slot = some x → x.stage = .waiting → beHeld s = true → x.lc = false →
    Machine.exec (.queryWorkStart slot) s = .next s) ∧
  (∀ (s : State) (slot pair : Nat) (diff : List (Nat × Byte)) (x : Query) (ids : List Nat) (i : Index) (v : Version),
    queryAt s slot = some x → lookupKey x.reading pair = some ids → pinned s x = some (i, v) →
    scribeTurn s x (lookupKey v.nodeMap pair) = true → i.lost.contains pair = false → unitLost s (lookupKey v.nodeMap pair) = false →
    ∃ t y, Machine.exec (.scribeReadComplete slot pair ⟨.ok, diff⟩) s = .next t ∧
      t = { s with adm := { s.adm with queries := t.adm.queries, tickets := t.adm.tickets }, bay := t.bay } ∧
      (x.lc = true → t.bay = s.bay) ∧
      y = { x with
        reading := dropKey x.reading pair,
        survivors := x.survivors ++ ((ids.filter (nodeGood i v x pair diff)).filterMap (nodeAt v)).flatMap (recordSurvivors i v x) } ∧
      queryAt t slot = some (
        if ids.all (nodeGood i v x pair diff) then y
        else
          { y with
            rebuilding := x.rebuilding ++ [(pair, ids.filter (fun n => !nodeGood i v x pair diff n))],
            rebuildTickets := putKey x.rebuildTickets pair s.adm.tickets }) ∧
      t.adm.tickets = s.adm.tickets + (if ids.all (nodeGood i v x pair diff) then 0 else 1)) ∧
  (∀ (s : State) (slot pair : Nat) (diff : List (Nat × Byte)) (x : Query) (ids : List Nat) (i : Index) (v : Version),
    queryAt s slot = some x → lookupKey x.reading pair = some ids → pinned s x = some (i, v) →
    scribeTurn s x (lookupKey v.nodeMap pair) = true → i.lost.contains pair = false → unitLost s (lookupKey v.nodeMap pair) = false →
    ids ≠ [] →
    ∃ t, Machine.exec (.scribeReadComplete slot pair ⟨.uncorrectable, diff⟩) s = .next t ∧
      t = { s with adm := { s.adm with queries := t.adm.queries, tickets := s.adm.tickets + 1 }, bay := t.bay } ∧
      queryAt t slot = some { x with
        reading := dropKey x.reading pair, rebuilding := x.rebuilding ++ [(pair, ids)],
        rebuildTickets := putKey x.rebuildTickets pair s.adm.tickets }) ∧
  (∀ (s : State) (slot pair : Nat) (m : UnitRead) (x : Query) (ids : List Nat) (i : Index) (v : Version),
    queryAt s slot = some x → lookupKey x.reading pair = some ids → pinned s x = some (i, v) →
    scribeTurn s x (lookupKey v.nodeMap pair) = true → (i.lost.contains pair = true ∨ unitLost s (lookupKey v.nodeMap pair) = true) →
    ∃ t y, Machine.exec (.scribeReadComplete slot pair m) s = .next t ∧ t = failQuery (chargeFlash s x) x stMediaUe ∧
      queryAt t slot = some y ∧ y.stage = .done ∧ y.status = stMediaUe) ∧
  (∀ (s : State) (slot pair : Nat) (m : UnitRead) (x : Query) (i : Index) (v : Version),
    queryAt s slot = some x → pinned s x = some (i, v) → scribeTurn s x (lookupKey v.nodeMap pair) = false →
    Machine.exec (.scribeReadComplete slot pair m) s = .next s) ∧
  (∀ (s : State) (slot pair : Nat) (x : Query) (ids : List Nat) (i : Index) (v : Version) (p : Plan), queryAt s slot = some x →
    lookupKey x.rebuilding pair = some ids → pinned s x = some (i, v) → planAt s x.plan = some p → x.stage ≠ .pool →
    pastGuard s x = false → placeBroken s (lookupKey v.nodeMap pair) = false →
    stripeTurn s (stripeReqs s x pair (lookupKey v.nodeMap pair)) = true →
    ∃ t, Machine.exec (.braceRebuildDone slot pair true) s = .next t ∧ t = { s with adm := { s.adm with queries := t.adm.queries } } ∧
      queryAt t slot = some { x with rebuilding := dropKey x.rebuilding pair,
                                     rebuildTickets := dropKey x.rebuildTickets pair,
                                     survivors := x.survivors ++ (ids.filterMap (nodeAt v)).flatMap (recordSurvivors i v x) }) ∧
  (∀ (s : State) (slot unit : Nat) (x : Query) (i : Index) (v : Version) (p : Plan), queryAt s slot = some x →
    x.rebuildUnits.contains unit = true → pinned s x = some (i, v) → planAt s x.plan = some p → x.stage = .pool →
    pastGuard s x = false → placeBroken s (lookupKey v.rerankMap unit) = false →
    stripeTurn s (stripeReqs s x unit (lookupKey v.rerankMap unit)) = true →
    ∃ t y, Machine.exec (.braceRebuildDone slot unit true) s = .next t ∧ t = { s with adm := { s.adm with queries := t.adm.queries } } ∧
      queryAt t slot = some y ∧ y = { scoreUnit i p x unit with rebuildTickets := dropKey x.rebuildTickets unit } ∧
      unit ∉ y.rebuildUnits ∧ ∀ w ∈ y.slots, flashUnit i w ≠ some unit) ∧
  (∀ (s : State) (slot unit : Nat) (ok : Bool) (x : Query) (i : Index) (v : Version), queryAt s slot = some x →
    pinned s x = some (i, v) →
    stripeTurn s (stripeReqs s x unit (lookupKey (if x.stage = .pool then v.rerankMap else v.nodeMap) unit)) = false →
    Machine.exec (.braceRebuildDone slot unit ok) s = .next s) ∧
  (∀ (s : State) (slot pair : Nat) (ok : Bool) (x : Query) (ids : List Nat) (i : Index) (v : Version) (p : Plan), queryAt s slot = some x →
    lookupKey x.rebuilding pair = some ids → pinned s x = some (i, v) → planAt s x.plan = some p → x.stage ≠ .pool →
    stripeTurn s (stripeReqs s x pair (lookupKey v.nodeMap pair)) = true →
    (ok = false ∨ placeBroken s (lookupKey v.nodeMap pair) = true) →
    ∃ t y, Machine.exec (.braceRebuildDone slot pair ok) s = .next t ∧ t = failQuery s x stMediaUe ∧
      queryAt t slot = some y ∧ y.stage = .done ∧ y.status = stMediaUe) ∧
  (∀ (s : State) (slot : Nat) (x : Query) (i : Index) (v : Version) (p : Plan), queryAt s slot = some x → hopOver x = true →
    readsHeld s x = false → noPoison s → pinned s x = some (i, v) → planAt s x.plan = some p →
    Machine.exec (.hopComplete slot) s = .next (settleSearch (nextHop s i v p.params
      (if i.params.dramTier then applyRecords v i.params.w p.params x else applySurvivors s i p.params x)) slot)) ∧
  (∀ (s : State) (slot n : Nat) (x : Query) (i : Index) (v : Version) (p : Plan) (nd : Node), queryAt s slot = some x →
    noPoison s → pinned s x = some (i, v) → planAt s x.plan = some p → x.recs.contains n = true → nodeAt v n = some nd →
    nd.valid = true → dramTurn s (recordReq s i x n) = true →
    ∃ t y, Machine.exec (.dramRecordReadDone slot n { media := .ok }) s = .next t ∧
      t = { s with
        adm := { s.adm with queries := t.adm.queries, tickets := t.adm.tickets }, bay := t.bay,
        tier := { s.tier with frames := t.tier.frames, beBus := t.tier.beBus } } ∧
      (x.lc = true → t.bay = s.bay ∧ t.tier.beBus = s.tier.beBus) ∧
      queryAt t slot = some y ∧ y.got = insertAsc n x.got ∧ y.beam = x.beam ∧
      (removeFirst (fun k => k == n) x.recs ≠ [] → y.recs = removeFirst (fun k => k == n) x.recs) ∧
      y.found = (if passTagRange x.filter i.params.atype nd.tag nd.numeric && passSet s x n then
        x.found ++ [(hamming i.params.w x.code nd.code, n)] else x.found)) ∧
  (∀ (s : State) (slot n : Nat) (x : Query) (i : Index) (v : Version) (p : Plan), queryAt s slot = some x →
    pinned s x = some (i, v) → planAt s x.plan = some p → x.recs.contains n = true → dramTurn s (recordReq s i x n) = true →
    ∃ t y, Machine.exec (.dramRecordReadDone slot n { media := .uncorrectable }) s = .next t ∧
      t = failQuery (readRecord (chargeDram s x (recordReq s i x n)) i n { media := .uncorrectable }).1 x stMediaUe ∧
      queryAt t slot = some y ∧ y.stage = .done ∧ y.status = stMediaUe) ∧
  (∀ (s : State) (slot n : Nat) (m : DramRead) (x : Query) (i : Index) (v : Version), queryAt s slot = some x →
    pinned s x = some (i, v) → dramTurn s (recordReq s i x n) = false →
    Machine.exec (.dramRecordReadDone slot n m) s = .next s) ∧
  (∀ (s : State) (slot block cell m : Nat) (x : Query) (i : Index) (p : Plan), queryAt s slot = some x → x.index = some m →
    indexAt s m = some i → planAt s x.plan = some p → x.stage = .traverse → x.blocks.contains block = true →
    noPoison s → x.traversalEnded = false → dramTurn s (blockReq s i x) = true →
    ∃ t y, Machine.exec (.driftBlockScanned slot block cell) s = .next t ∧
      t = { s with
        adm := { s.adm with queries := t.adm.queries }, bay := t.bay,
        tier := { s.tier with frames := t.tier.frames, beBus := t.tier.beBus } } ∧
      (x.lc = true → t.bay = s.bay ∧ t.tier.beBus = s.tier.beBus) ∧ queryAt t slot = some y ∧
      y.blocks = x.blocks.filter (fun b => b != block) ∧
      y.scanned = x.scanned + (min x.driftHi (4096 * (block + 1)) - max x.driftLo (4096 * block)) ∧
      (∀ k, k ≠ cell → lookupKey y.partials k = lookupKey x.partials k)) ∧
  (∀ (s : State) (slot n a : Nat) (x : Query) (w : SortWord) (i : Index) (v : Version) (p : Plan), queryAt s slot = some x →
    x.slots.find? (fun y => y.localId == n) = some w → pinned s x = some (i, v) → planAt s x.plan = some p →
    x.stage = .pool → flashUnit i w = none → slotAddr i x w = some a → dramTurn s (slotReq s i x a) = true → noPoison s →
    ∃ t sc, Machine.exec (.rerankSlotArrival slot n { media := .ok }) s = .next t ∧
      sc = scoreOf i.params p.params.metric p.params.rime x.vec (devRead s a (slotBytes i.params)) ∧
      t = { s with
        adm := { s.adm with queries := t.adm.queries }, bay := t.bay,
        tier := { s.tier with frames := t.tier.frames, beBus := t.tier.beBus } } ∧
      (x.lc = true → t.bay = s.bay ∧ t.tier.beBus = s.tier.beBus) ∧
      queryAt t slot = some (
        if isNan32 sc then { x with slots := x.slots.filter (fun y => y.localId != n), nanDropped := x.nanDropped + 1 }
        else
          { x with
            slots := x.slots.filter (fun y => y.localId != n),
            scored := x.scored ++ [({ w with key := keyOfFp32 (p.params.metric != 1) sc }, w.key.toNat, sc)] })) ∧
  (∀ (s : State) (slot n a : Nat) (x : Query) (w : SortWord) (i : Index) (v : Version) (p : Plan), queryAt s slot = some x →
    x.slots.find? (fun y => y.localId == n) = some w → pinned s x = some (i, v) → planAt s x.plan = some p →
    x.stage = .pool → flashUnit i w = none → slotAddr i x w = some a → dramTurn s (slotReq s i x a) = true →
    ∃ t y, Machine.exec (.rerankSlotArrival slot n { media := .uncorrectable }) s = .next t ∧
      t = failQuery (readSlot (chargeDram s x (slotReq s i x a)) i a { media := .uncorrectable }).1 x stMediaUe ∧
      queryAt t slot = some y ∧ y.stage = .done ∧ y.status = stMediaUe) ∧
  (∀ (s : State) (slot n u : Nat) (m : DramRead) (x : Query) (w : SortWord) (i : Index) (v : Version) (p : Plan), queryAt s slot = some x →
    x.slots.find? (fun y => y.localId == n) = some w → pinned s x = some (i, v) → planAt s x.plan = some p →
    x.stage = .pool → flashUnit i w = some u → x.rebuildUnits.contains u = false → scribeTurn s x (lookupKey v.rerankMap u) = true →
    unitLost s (lookupKey v.rerankMap u) = false →
    ∃ t y, Machine.exec (.rerankSlotArrival slot n m) s = .next t ∧
      t = { s with adm := { s.adm with queries := t.adm.queries, tickets := t.adm.tickets }, bay := t.bay } ∧
      (x.lc = true → t.bay = s.bay) ∧ queryAt t slot = some y ∧
      (m.media ≠ .uncorrectable → t.adm.tickets = s.adm.tickets ∧ y = scoreUnit i p x u ∧ ∀ z ∈ y.slots, flashUnit i z ≠ some u) ∧
      (m.media = .uncorrectable → t.adm.tickets = s.adm.tickets + 1 ∧
        y = { x with rebuildUnits := x.rebuildUnits ++ [u], rebuildTickets := putKey x.rebuildTickets u s.adm.tickets })) ∧
  (∀ (s : State) (slot : Nat) (x : Query) (p : Plan), queryAt s slot = some x → planAt s x.plan = some p → x.stage = .pool →
    x.slots = [] →
    ∃ t y, Machine.exec (.rerankDone slot) s = .next t ∧ queryAt t slot = some y ∧ y.stage = .done ∧ y.running = [] ∧
      t = writeResults s x p false (p.params.rerankDepth != 0)) ∧
  (∀ (s : State) (slot : Nat) (x : Query) (p : Plan), queryAt s slot = some x → x.lc = true → x.stage ≠ .done →
    planAt s x.plan = some p → x.rebuilding = [] → x.rebuildUnits = [] → hopOver x = false → (x.stage = .pool → x.slots ≠ []) →
    x.failed = none → noPoison s →
    ∃ t y pl, Machine.exec (.guardTime slot) s = .next t ∧ t.time.dtb = max s.time.dtb x.guard ∧ queryAt t slot = some y ∧
      y.stage = .done ∧ y.status = stTruncated ∧ y.slots = [] ∧ y.running = [] ∧ planAt t x.plan = some pl ∧
      pl.counters.cutsAbandoned = satAdd 64 p.counters.cutsAbandoned
        (if runsCuts x then (arrivalDue s p x).length + (heldCuts s x).length else 0)) ∧
  (∀ (s : State) (slot : Nat) (x : Query) (p : Plan), queryAt s slot = some x → x.lc = true → x.stage ≠ .done →
    planAt s x.plan = some p → (x.rebuilding ≠ [] ∨ x.rebuildUnits ≠ []) →
    ∃ t y, Machine.exec (.guardTime slot) s = .next t ∧ t = failQuery (abandonCuts (advanceTo s x.guard) x p) x stMediaUe ∧
      queryAt t slot = some y ∧ y.stage = .done ∧ y.status = stMediaUe) ∧
  (∀ (s : State) (slot : Nat) (x : Query) (p : Plan), queryAt s slot = some x → x.lc = true → x.stage = .pool → x.slots = [] →
    planAt s x.plan = some p → x.rebuilding = [] → x.rebuildUnits = [] →
    Machine.exec (.guardTime slot) s = .next (abandonCuts (advanceTo s x.guard) x p))

/-! Indexes (R34 to R37, R52, R55 to R63, R274 to R276). -/

/-- Creation, deletion, INSERT and DELETE: the named index alone changes, an INSERT appends the entries cut from its block at the tail and
refuses the whole block at its first bad one, a DELETE sets kerf bits, and the completion follows the journal. -/
def Obligations.IndexRows : Prop :=
  (∀ (s : State) (cid : Nat) (c : Cmd), adminTakes s cid 0x80 c → nsStatus s (field c.sqe 64 12) c.sqe (nsParams c.sqe) = stOk →
    ∃ t x, Machine.exec (.nsCreate cid) s = .next t ∧
      t = { s with
        out := t.out, pins := t.pins, queues := t.queues, indexes := t.indexes, bay := t.bay, tier := t.tier, health := t.health, sb := t.sb, power := t.power } ∧
      indexAt t (field c.sqe 64 12) = some x ∧ x.params = nsParams c.sqe ∧
      x.versions = [{ num := 0, driftBase := 0 }] ∧ x.version = 0 ∧ x.presence = [] ∧ x.kerf = [] ∧ x.tail = 0 ∧
      ∀ k, k ≠ field c.sqe 64 12 → indexAt t k = indexAt s k) ∧
  (∀ (s : State) (cid : Nat) (c : Cmd) (x : Index), adminTakes s cid 0x81 c → indexAt s (field c.sqe 64 12) = some x →
    indexBusy x = false → merging x = false → (∀ p ∈ s.bay.plans, p.index ≠ some (field c.sqe 64 12)) →
    ∃ t, Machine.exec (.nsDelete cid) s = .next t ∧ t = { s with queues := t.queues, indexes := t.indexes } ∧
      indexAt t (field c.sqe 64 12) = some { x with deleting := some cid } ∧
      ∀ k, k ≠ field c.sqe 64 12 → indexAt t k = indexAt s k) ∧
  (∀ (s : State) (n cid : Nat) (x : Index), indexAt s n = some x → x.deleting = some cid → queriesOn s n = [] →
    ∃ t, Machine.exec (.nsDeleteRelease n) s = .next t ∧
      t = { s with
        free := t.free, out := t.out, pins := t.pins, queues := t.queues, indexes := t.indexes, bay := t.bay, tier := t.tier,
        health := t.health, sb := t.sb } ∧
      t.indexes = s.indexes.filter (fun y => y.num != n) ∧ indexAt t n = none) ∧
  (∀ (s : State) (q cid n k : Nat) (block : Bytes) (es : List InsertEntry) (c : Cmd) (x : Index), ioTakes s q cid 0x05 c →
    n = cmdIndex c.sqe → k = cmdCount c.sqe → indexAt s n = some x → indexBusy x = false → insertStride x.params * k ≤ block.length →
    es = (List.range k).map (cutInsert x.params block) → firstBadEntry x es [] 0 = none →
    driftL x + k ≤ driftRoom s x → maskAtLevel s x.params.groups 1 = false →
    ∃ t y new, Machine.exec (.insert q cid block) s = .next t ∧
      t = { s with queues := t.queues, indexes := t.indexes, tier := (writeDriftSlots s x new).tier } ∧
      indexAt t n = some y ∧ y.drift = x.drift ++ new ∧ new.length = k ∧ y.tail = x.tail + k ∧
      (∀ i (h : i < new.length), (es[i]?).map (driftEntry x.params (x.tail + i)) = some new[i] ∧ new[i].id ∈ y.presence) ∧
      y.kerf = x.kerf ∧ y.versions = x.versions ∧
      y.journal = x.journal ++ [{ entries := new, kerfs := [], q := q, cid := c.cid, ready := s.time.dtb }] ∧
      (∀ m, m ≠ n → indexAt t m = indexAt s m) ∧
      (storesWf s → ∀ a, (∀ e ∈ new, ∀ d, x.params.rfmt ≠ 0 →
          descOfPage s (placeAddr x .driftBuffer (e.seq % x.params.driftLimit) / pageBytes) = some d →
          a < dramKey d (placeAddr x .driftBuffer (e.seq % x.params.driftLimit) % pageBytes) ∨
          dramKey d (placeAddr x .driftBuffer (e.seq % x.params.driftLimit) % pageBytes) + e.slot.length ≤ a) →
        memRead t.tier.dram a = memRead s.tier.dram a)) ∧
  (∀ (s : State) (q cid k : Nat) (block : Bytes) (es : List InsertEntry) (c : Cmd) (x : Index) (st i : Nat), ioTakes s q cid 0x05 c →
    indexAt s (cmdIndex c.sqe) = some x → indexBusy x = false → k = cmdCount c.sqe → insertStride x.params * k ≤ block.length →
    es = (List.range k).map (cutInsert x.params block) → firstBadEntry x es [] 0 = some (st, i) →
    Machine.exec (.insert q cid block) s = .next (endCmd s q c st (2 ^ 63 + i % 65536))) ∧
  (∀ (s : State) (q cid n : Nat) (ids : List Word64) (c : Cmd) (x : Index), ioTakes s q cid 0x06 c → n = cmdIndex c.sqe →
    cmdCount c.sqe ≤ ids.length → indexAt s n = some x → indexBusy x = false →
    (∀ v ∈ ids.take (cmdCount c.sqe), vidIndex v = n ∧ vidRsvd v = 0) →
    ∃ t y, Machine.exec (.delete q cid ids) s = .next t ∧ t = { s with queues := t.queues, indexes := t.indexes } ∧
      indexAt t n = some y ∧ y.presence = x.presence ∧ y.drift = x.drift ∧ y.tail = x.tail ∧
      (∀ k, k ∈ y.kerf ↔ k ∈ x.kerf ∨ k ∈ kerfChanges x (ids.take (cmdCount c.sqe))) ∧ ∀ m, m ≠ n → indexAt t m = indexAt s m) ∧
  (∀ (s : State) (q cid : Nat) (c : Cmd) (u : Queue), queueOf s q = some u → runningCmd s q cid = some c → startedUpdate c = true →
    q ≠ adminQ → journalHeld s q cid = false → s.link.degraded = false →
    ∃ t r, Machine.exec (.journalWriteDone q cid) s = .next t ∧
      t = { s with queues := t.queues, indexes := t.indexes, out := t.out, bay := t.bay } ∧
      t.out = s.out ++ .completion q u.cqTail (completionEntry c.result s.time.dtb c.cid c.sqHead q stOk 0 0 u.phase) :: r ∧
      ∀ m x, indexAt s m = some x → ∃ y, indexAt t m = some y ∧ y = { x with journal := y.journal })

/-- DELETE sets the kerf bit of every listed local ID that is present; absent, deleted, reserved and out-of-range IDs are passed
over; the running command carries the number of bits changed, and the completion reports it. -/
def Obligations.DeleteSetsKerfBits : Prop :=
  (∀ (s : State) (q cid : Nat) (ids : List Word64) (c : Cmd) (x : Index) (u : Queue), ioTakes s q cid 0x06 c →
    queueOf s q = some u → cmdCount c.sqe ≤ ids.length → indexAt s (cmdIndex c.sqe) = some x → indexBusy x = false →
    (∀ v ∈ ids.take (cmdCount c.sqe), vidIndex v = cmdIndex c.sqe ∧ vidRsvd v = 0) →
    ∃ t y, ∃ ks : List Nat, Machine.exec (.delete q cid ids) s = .next t ∧ t = { s with queues := t.queues, indexes := t.indexes } ∧
      indexAt t (cmdIndex c.sqe) = some y ∧ y = { x with kerf := y.kerf, journal := y.journal } ∧
      (∀ m, m ≠ cmdIndex c.sqe → indexAt t m = indexAt s m) ∧
      (∀ k, k ∈ y.kerf ↔ k ∈ x.kerf ∨ k ∈ (ids.take (cmdCount c.sqe)).map vidLocal ∧ localOk x.params k = true ∧ k ∈ x.presence) ∧
      ks.Nodup ∧ (∀ k, k ∈ ks ↔ k ∈ y.kerf ∧ k ∉ x.kerf) ∧
      queueOf t q = some { u with
        cmds := updateFirst (fun d => d.seq == c.seq) (fun d => { d with phase := .running, result := ks.length }) u.cmds }) ∧
  (∀ (s : State) (q cid : Nat) (c : Cmd) (u : Queue), queueOf s q = some u → runningCmd s q cid = some c → sqeOpcode c.sqe = 0x06 →
    q ≠ adminQ → journalHeld s q cid = false → s.link.degraded = false → ∃ t r, Machine.exec (.journalWriteDone q cid) s = .next t ∧
      t.out = s.out ++ .completion q u.cqTail (completionEntry c.result s.time.dtb c.cid c.sqHead q stOk 0 0 u.phase) :: r)

/-- Firn merge: a command starts a merge, a round builds the next version, its raise makes it current with drift list, kerf map and
presence map unchanged, a cutoff leaves the versions as they were, and an older version without queries is released. -/
def Obligations.FirnRows : Prop :=
  (∀ (s : State) (cid n ctx : Nat) (sweep : Bool) (row : Instr) (c : Cmd) (x : Index) (k : Ctx),
    (row, sweep) ∈ [(.firnMergeDrift cid, false), (.firnMergeSweep cid, true)] → adminTakes s cid 0x8E c → flag c.sqe 92 = sweep →
    n = field c.sqe 64 12 → ctx = field c.sqe 80 12 → 4096 ≤ mergeRound c.sqe → mergeRound c.sqe ≤ 2 ^ 20 →
      mergeRound c.sqe % 4096 = 0 →
    indexAt s n = some x → ctxAt s ctx = some k → indexBusy x = false → merging x = false → x.version ≠ 0xFFFFFFFF →
    (sweep = false → maskAtLevel s x.params.groups 2 = false) → (driftMerged x = true → sweep = true) →
    ∃ t, Machine.exec row s = .next t ∧ t = { s with queues := t.queues, indexes := t.indexes } ∧
      indexAt t n = some { x with merge := some { cid := cid, ctx := ctx, sweep := sweep, round := mergeRound c.sqe,
                                                  maxRounds := field c.sqe 128 32 } } ∧
      ∀ m, m ≠ n → indexAt t m = indexAt s m) ∧
  (∀ (s : State) (n : Nat) (x : Index) (m : MergeState) (v : Version), indexAt s n = some x → x.merge = some m →
    versionAt x x.version = some v → m.building = none → mergeOver x m = false → beHeld s = false →
    moreParts s x (roundVersion s x m v) = [] →
    ∃ t m' b, Machine.exec (.firnRoundStart n) s = .next t ∧ t = { s with free := t.free, indexes := t.indexes } ∧
      indexAt t n = some { x with merge := some m' } ∧ m'.building = some b ∧ b = roundVersion s x m v ∧ b.num = v.num + 1 ∧
      b.driftBase = min x.tail (v.driftBase + m.round) ∧ m'.snapshot = x.kerf ∧
      (∀ k, k ∈ m'.skipped ↔ k ∈ x.kerf ∧ ∃ e ∈ x.drift, e.id = k ∧ v.driftBase ≤ e.seq ∧ e.seq < b.driftBase)) ∧
  (∀ (s : State) (n : Nat) (x : Index) (m : MergeState), indexAt s n = some x → x.merge = some m → beHeld s = true →
    Machine.exec (.firnRoundStart n) s = .next s) ∧
  (∀ (s : State) (n : Nat) (x : Index) (m : MergeState) (b : Version), indexAt s n = some x → x.merge = some m → m.building = some b →
    ∃ t y, Machine.exec (.indexVersionRaise n) s = .next t ∧
      t.time = s.time ∧ t.pins = s.pins ∧ t.link = s.link ∧ t.cells = s.cells ∧ t.dict = s.dict ∧ t.sb = s.sb ∧
        t.sec = s.sec ∧ t.tap = s.tap ∧
      indexAt t n = some y ∧ y.version = b.num ∧ b ∈ y.versions ∧
      y.versions.length = x.versions.length + 1 ∧ y.drift = x.drift ∧ y.tail = x.tail ∧ y.kerf = x.kerf ∧ y.presence = x.presence ∧
      y.checkpoint.version = b.num) ∧
  (∀ (s : State) (n : Nat) (cause : CutoffCause) (x : Index), indexAt s n = some x → merging x = true →
    ∃ t y, Machine.exec (.firnRoundCutoff n cause) s = .next t ∧
      t.time = s.time ∧ t.link = s.link ∧ t.cells = s.cells ∧ t.dict = s.dict ∧ t.sec = s.sec ∧ t.tap = s.tap ∧
      indexAt t n = some y ∧ y.merge = none ∧ y.version = x.version ∧
      y.versions = x.versions ∧ y.drift = x.drift ∧ y.presence = x.presence) ∧
  (∀ (s : State) (n k : Nat) (x : Index) (v : Version), indexAt s n = some x → versionAt x k = some v → k ≠ x.version →
    (∀ y ∈ queriesOn s n, y.version ≠ k) →
    ∃ t y, Machine.exec (.versionRelease n k) s = .next t ∧ t = { s with indexes := t.indexes } ∧ indexAt t n = some y ∧
      y.versions = x.versions.filter (fun w => w.num != k) ∧ y.version = x.version ∧ y.tail = x.tail ∧
      ∀ i ∈ v.reclaim, i ∉ y.presence ∧ i ∉ y.kerf) ∧
  (∀ (s : State) (n : Nat) (x : Index), indexAt s n = some x →
    ∃ t, Machine.exec (.indexReplayDone n) s = .next t ∧ t = { s with indexes := t.indexes } ∧
      indexAt t n = some { x with replaying := false } ∧ ∀ m, m ≠ n → indexAt t m = indexAt s m)

/-! Bays and contexts (R135, R289 to R305). -/

/-- Bays from binding to reclaim, and their slices, promotions and context faults; a reclaim counts as one tick after a decision of its
own tick (model's choice, log entry 122), and its save waits for the running cuts. -/
def Obligations.BayRows : Prop :=
  (∀ (s : State) (cid b : Nat) (hdr : BitVec 1024) (regs : List (BitVec 128)) (c : Cmd), adminTakes s cid 0x86 c →
    b = field c.sqe 64 6 → refitHolds s 0x2000 1 = false → refitHolds s 0x3000 0 = false → bindStatus s b hdr regs = stOk →
    bindRoom s b hdr regs = true →
    liftsFloor s (acceptBind s c b hdr regs) = false →
    ∃ t, Machine.exec (.bayBind cid hdr regs) s = .next t ∧
      t = { s with
        free := t.free, out := t.out, link := t.link, queues := t.queues, bay := t.bay, tier := t.tier, health := t.health,
        power := t.power } ∧
      (bayAt t b).mode = .bound ∧
      (bayAt t b).dramShare = (if bindExtend hdr then (bayAt s b).dramShare else 0) + bindDramShare hdr ∧
      (bayAt t b).rimeShare = (if bindExtend hdr then (bayAt s b).rimeShare else 0) + bindRimeShare hdr ∧
      (bayAt t b).qpairs = (if bindExtend hdr then (bayAt s b).qpairs else 0) + bindQpairs hdr ∧
      ∀ k, k ≠ b → (bayAt t k).mode = (bayAt s k).mode) ∧
  (∀ (s : State) (cid b : Nat) (c : Cmd), adminTakes s cid 0x87 c → b = field c.sqe 64 6 → b ≠ 0 → field c.sqe 80 16 ≤ 60000 →
    bayBound s b = true → bayReclaiming s b = false →
    ∃ t e, Machine.exec (.bayReclaim cid) s = .next t ∧
      e = s.time.dtb + (if s.adm.queries.any (fun x => x.bay == b && x.decided == s.time.dtb) then 1 else 0) +
        field c.sqe 80 16 * 1000000 ∧
      t = { s with
        out := t.out, time := t.time, queues := t.queues, bay := t.bay, tier := t.tier, health := t.health, power := t.power } ∧
      (bayAt t b).mode = .reclaiming ∧ (bayAt t b).expiry = some (e, cid) ∧ (bayAt t b).expired = false ∧
      t.bay.pendingBinds = s.bay.pendingBinds.filter (fun p => p.bay != b) ∧
      (∀ n x, noticePeg s b = some n → pegAt s n = some x →
        ∃ y, pegAt t n = some y ∧ y.value = BitVec.ofNat 64 e)) ∧
  (∀ (s : State) (b e cid : Nat), (bayAt s b).mode = .reclaiming → (bayAt s b).expiry = some (e, cid) → (bayAt s b).expired = false →
    bayCutRuns s b = false →
    ∃ t, Machine.exec (.reclaimGraceExpiry b) s = .next t ∧
      t.pins = s.pins ∧ t.dict = s.dict ∧ t.sb = s.sb ∧ t.sec = s.sec ∧ t.tap = s.tap ∧
      t.time.dtb = max s.time.dtb e ∧ (bayAt t b).expired = true ∧
      (∀ x ∈ t.bay.contexts, x.bay = b → x.reclaimed = true) ∧ ∀ p ∈ t.queues.pairs, p.bay = b → p.reclaimed = true) ∧
  (∀ (s : State) (b e cid : Nat), (bayAt s b).mode = .reclaiming → (bayAt s b).expiry = some (e, cid) → (bayAt s b).expired = false →
    bayCutRuns s b = true →
    ∃ t, Machine.exec (.reclaimGraceExpiry b) s = .next t ∧
      t = { s with bay := { s.bay with bays := t.bay.bays }, time := { s.time with dtb := max s.time.dtb e } } ∧
      bayAt t b = { bayAt s b with expired := true } ∧
      (∀ k, k ≠ b → bayAt t k = bayAt s k) ∧
      ∀ x ∈ t.adm.queries, x.bay = b → (x.lc = false ∨ ∃ y ∈ s.bay.contexts, y.bay = b ∧ y.reclaimed = false) →
        ∀ k, cutReady t x k = false) ∧
  (∀ (s : State) (b a : Nat), (bayAt s b).mode = .reclaiming → resourceBusy s b (.array a) = false →
    (bayAt s b).arrays.contains a = true → awaitedArray s a = false →
    ∃ t, Machine.exec (.resourceDrained b (.array a)) s = .next t ∧ t = { s with bay := t.bay, cells := t.cells } ∧
      (bayAt t b).arrays = (bayAt s b).arrays.filter (fun x => x != a) ∧
      (∀ k, k < 1048576 → memRead t.cells.arrayStore (1048576 * a + k) = 0) ∧
      ∀ k, k ≠ b → bayAt t k = bayAt s k) ∧
  (∀ (s : State) (b : Nat), (bayAt s b).mode = .reclaiming → resourceBusy s b .slotBlocks = false →
    ∃ t, Machine.exec (.resourceDrained b .slotBlocks) s = .next t ∧ t = { s with bay := t.bay } ∧ (bayAt t b).slotBlocks = [] ∧
      ∀ k, k ≠ b → bayAt t k = bayAt s k) ∧
  (∀ (s : State) (b e cid : Nat), (bayAt s b).mode = .reclaiming → (bayAt s b).expiry = some (e, cid) → (bayAt s b).arrays = [] →
    (bayAt s b).flash = [] → (bayAt s b).excl = [] → (bayAt s b).slotBlocks = [] → (bayAt s b).pegBlocks = [] →
    (bayAt s b).credits = 0 → functionEnded s b →
    ∃ t, Machine.exec (.reclaimComplete b) s = .next t ∧
      t = { s with free := t.free, out := t.out, queues := t.queues, bay := t.bay, tier := t.tier } ∧
      (bayAt t b).mode = .unbound ∧
      (bayAt t b).register = (bayAt s b).register ∧ (∀ r ∈ t.bay.regions, r.bay = b → r.module = true ∨ r.custody = true) ∧
      ∀ k, k ≠ b → bayAt t k = bayAt s k) ∧
  (∀ (s : State) (d : Nat), (frameAt s d).zeroing = true →
    ∃ t, Machine.exec (.frameZeroed d) s = .next t ∧ t = { s with tier := t.tier } ∧ (frameAt t d).zeroing = false ∧
      (∀ k, k < 262144 → memRead t.tier.dram (dramKey d k) = 0) ∧
      (s.tier.localSets.contains (d / 4096) = false → frameAt t d = { num := d, state := .free })) ∧
  (∀ (s : State) (b : Nat), bayBound s b = true → (bayAt s b).slice = none →
    ∃ t, Machine.exec (.baySliceExpiry b) s = .next t ∧ t = { s with bay := { s.bay with bays := t.bay.bays } } ∧
      bayAt t b = { bayAt s b with slice := (beReady s b).head?.map (fun c => (c, s.time.dtb + baySlice s)) }) ∧
  (∀ (s : State) (b c0 lim : Nat), bayBound s b = true → (bayAt s b).slice = some (c0, lim) →
    ∃ t, Machine.exec (.baySliceExpiry b) s = .next t ∧
      t = { s with time := t.time, bay := t.bay } ∧
      t.time.dtb = max s.time.dtb lim ∧
      bayAt t b = { bayAt s b with slice := (nextInTurn (beReady s b) c0).map (fun c => (c, max s.time.dtb lim + baySlice s)) }) ∧
  (∀ (s : State) (b ctx : Nat) (c : Ctx), ctxAt s ctx = some c → c.bay = b → beHeld s = false → (bayAt s b).promoted = none →
    beWork s ctx = true → (∀ d ∈ s.bay.contexts, d.bay = b → d.num ≠ ctx → beWork s d.num = false) →
    ∃ t, Machine.exec (.bePromotion b ctx) s = .next t ∧
      t = { s with time := t.time, bay := t.bay } ∧
      t.time.dtb = max s.time.dtb (c.progress + beAgeTime s) ∧
      (bayAt t b).promoted = some (ctx, t.time.dtb + 2000000) ∧
      (bayAt t b).counters = { (bayAt s b).counters with bePromotions := wrapAdd 64 (bayAt s b).counters.bePromotions 1 } ∧
      ∀ k, k ≠ b → bayAt t k = bayAt s k) ∧
  (∀ (s : State) (b ctx lim : Nat), (bayAt s b).promoted = some (ctx, lim) →
    ∃ t, Machine.exec (.promotionQuantumEnd b) s = .next t ∧
      t = { s with bay := t.bay, time := { s.time with dtb := max s.time.dtb lim } } ∧
      bayAt t b = { bayAt s b with promoted := none }) ∧
  (∀ (s : State) (ctx cause : Nat) (c : Ctx), ctxAt s ctx = some c →
    ∃ t e, Machine.exec (.contextFault ctx cause) s = .next t ∧ t.dict = s.dict ∧ t.sec = s.sec ∧ t.tap = s.tap ∧ ctxAt t ctx = none ∧ (∀ p ∈ t.queues.pairs, p.ctx = ctx →
      p.stopped = true) ∧
      e ∈ t.health.errors ∧ e.cls = errContextFault ∧ e.ctx = some (c.bay, ctx) ∧ e.detail = BitVec.ofNat 128 cause)

/-! Selection in the cells (R87 to R103, R173). -/

/-- SORT, SELECT, THRESH, MERGE and ARGMAX: the words written and the result of the cell; a pad word in the input leaves only the words
and the result open; an encoding that is not executed or a place out of reach is a fault of the context whose cut runs there. -/
def Obligations.SelectionRows : Prop :=
  (∀ (s : State) (cell n : Nat) (w : Word64) (src dst : Loc), storesWf s → selOk w 0x40 = true → selCount w = 0 → n ≤ 2048 →
    selReach s cell [(src, 10 * n)] [(dst, 10 * n)] → (readWords s cell w src n).contains padWord = false →
    ∃ t, Machine.exec (.sort cell w src dst n) s = .next t ∧
      wroteAt s t (placeOfLoc cell dst) ((sortWords (readWords s cell w src n)).flatMap bytesOfWord) ∧
      t.cells = { s.cells with cellStore := t.cells.cellStore, arrayStore := t.cells.arrayStore }) ∧
  (∀ (s : State) (cell n k : Nat) (w : Word64) (src dst : Loc), storesWf s → selOk w 0x41 = true → k = min (selCount w) n →
    selReach s cell [(src, 10 * n)] [(dst, 10 * k)] → (readWords s cell w src n).contains padWord = false →
    ∃ t m, Machine.exec (.select cell w src dst n) s = .next t ∧
      wroteAt s t (placeOfLoc cell dst) (((sortWords (readWords s cell w src n)).take k).flatMap bytesOfWord) ∧
      t.cells = { s.cells with
        cellStore := t.cells.cellStore, arrayStore := t.cells.arrayStore, selection := t.cells.selection } ∧
      lookupKey t.cells.selection cell = some (m, decide (2 ≤ m)) ∧
      m = tieCount (readWords s cell w src n) ((sortWords (readWords s cell w src n)).take k) []) ∧
  (∀ (s : State) (cell n : Nat) (w : Word64) (src dst : Loc) (x : Word32) (hits : List SortWord), storesWf s →
    selOk w 0x42 = true → selReach s cell [(src, 10 * n)] [(dst, 10 * min (selCount w) n)] →
    (readWords s cell w src n).contains padWord = false → hits = (readWords s cell w src n).filter (fun y => y.key.toNat ≤ x.toNat) →
    ∃ t, Machine.exec (.thresh cell w src dst n x) s = .next t ∧
      wroteAt s t (placeOfLoc cell dst) ((hits.take (selCount w)).flatMap bytesOfWord) ∧
      t.cells = { s.cells with
        cellStore := t.cells.cellStore, arrayStore := t.cells.arrayStore, selection := t.cells.selection } ∧
      lookupKey t.cells.selection cell = some (hits.length, decide (selCount w < hits.length))) ∧
  (∀ (s : State) (cell : Nat) (w : Word64) (srcs : List (Loc × Nat)) (dst : Loc) (ws out : List SortWord), storesWf s →
    selOk w 0x43 = true → srcs.length = selLists w →
    selReach s cell (srcs.map (fun e => (e.1, 10 * e.2))) [(dst, 10 * min (selCount w) (sumOf (srcs.map (fun e => e.2))))] →
    ws = srcs.flatMap (fun e => readWords s cell w e.1 e.2) → ws.contains padWord = false →
    out = (if selDedup w then dedupBy (fun y => y.id.toNat) [] (sortWords ws) else sortWords ws).take (selCount w) →
    ∃ t, Machine.exec (.merge cell w srcs dst) s = .next t ∧ wroteAt s t (placeOfLoc cell dst) (out.flatMap bytesOfWord) ∧
      t.cells = { s.cells with
        cellStore := t.cells.cellStore, arrayStore := t.cells.arrayStore, selection := t.cells.selection } ∧
      lookupKey t.cells.selection cell = some (out.length, false)) ∧
  (∀ (s : State) (cell n : Nat) (w : Word64) (src : Loc) (vs : List Nat), selOk w 0x44 = true → selType w ≠ 0 → selCount w = 0 →
    selReach s cell [(src, scoreBytes (selType w) * n)] [] →
    vs = (piecesOf (scoreBytes (selType w)) (storeRead s cell src (scoreBytes (selType w) * n))).map leNat →
    ∃ t, Machine.exec (.argmax cell w src n) s = .next t ∧ t = { s with cells := { s.cells with argmax := t.cells.argmax } } ∧
      (∀ p v, argmaxOf (selType w) ((List.range n).zip vs) none = some (p, v) →
        lookupKey t.cells.argmax cell = some (BitVec.ofNat 32 p, BitVec.ofNat 32 v)) ∧
      (argmaxOf (selType w) ((List.range n).zip vs) none = none → lookupKey t.cells.argmax cell = some (0xFFFFFFFF, 0))) ∧
  (∀ (s : State) (cell n : Nat) (w : Word64) (src dst : Loc), storesWf s → selOk w 0x40 = true → selCount w = 0 → n ≤ 2048 →
    selReach s cell [(src, 10 * n)] [(dst, 10 * n)] → (readWords s cell w src n).contains padWord = true →
    ∃ t bs, Machine.exec (.sort cell w src dst n) s = .next t ∧ bs.length = 10 * (readWords s cell w src n).length ∧
      wroteAt s { t with free := s.free } (placeOfLoc cell dst) bs) ∧
  (∀ (s : State) (cell op n : Nat) (w : Word64) (src dst : Loc) (x : Word32) (srcs : List (Loc × Nat)) (row : Instr),
    (row, op) ∈ [(.sort cell w src dst n, 0x40), (.select cell w src dst n, 0x41), (.thresh cell w src dst n x, 0x42),
      (.merge cell w srcs dst, 0x43), (.argmax cell w src n, 0x44)] → selOk w op = false →
    (∀ y, cellOwner s cell = some y → Machine.exec row s = .next (faultContext s y.ctx faultCode)) ∧
    (cellOwner s cell = none → Machine.exec row s = .next s)) ∧
  (∀ (s : State) (cell n : Nat) (w : Word64) (src dst : Loc) (y : Query), selOk w 0x41 = true → cellOwner s cell = some y →
    storeFits s cell src (10 * n) = true → storeFits s cell dst (10 * min (selCount w) n) = true →
    placeBad s (placeOfLoc cell src) (10 * n) = true → Machine.exec (.select cell w src dst n) s = .next (failCut s y))

/-! Rime (R190 to R209). -/

/-- A word that is the next one of its unit: it leaves its queue, its tag, cycles and open row are kept and its arithmetic takes
effect on the unit of its bank alone; STORER writes 64 bytes; an illegal word ends the request with code ILLEGAL; CLR clears the
lanes of its register alone. -/
def Obligations.RimeWordRows : Prop :=
  (∀ (s : State) (bank op cyc : Nat) (n : List Nat) (w : BitVec 128) (m : Media) (row : Instr) (open_ : Option Nat),
    (row, op, m, n) ∈ [(.nop bank w, 0x00, .ok, []), (.clr bank w, 0x01, .ok, []), (.loadq bank w m n, 0x02, m, n),
      (.loadr bank w m n, 0x03, m, n), (.dot bank w m n, 0x10, m, n), (.maxsim bank w m n, 0x11, m, n), (.wsum bank w m n, 0x12,
        m, n),
      (.vmax bank w, 0x13, .ok, []), (.rmax bank w, 0x14, .ok, [])] →
    rimeEnabled s bank = true → (rimeBank s bank).segment.isSome = true → (rimeBank s bank).unit.susp = false → nextWord (rimeBank s bank) = some w → rwOp w = op →
    rwLegal w = true → (rwExtent w = 0 ∨ rwByte w + rwExtent w ≤ 245760 * 1024) → operandFault s bank w m = 0 →
    (cyc, open_) = (rwCycles w (rowOpenings (rimeBank s bank).unit.openRow (spanRows (rwByte w) (rwSpans w))).1,
      (rowOpenings (rimeBank s bank).unit.openRow (spanRows (rwByte w) (rwSpans w))).2) →
    ∃ t, Machine.exec row s = .next t ∧ t = { s with rime := t.rime, health := { s.health with banks := t.health.banks } } ∧
      (n = [] → t.health = s.health) ∧
      rimeBank t bank = { popWord (rimeBank s bank) w with
        unit := unitEffect s bank { (popWord (rimeBank s bank) w).unit with
          tag := rwTag w, cycles := (rimeBank s bank).unit.cycles + cyc, openRow := open_ } w } ∧
      ∀ b, b ≠ bank → rimeBank t b = rimeBank s b) ∧
  (∀ (s : State) (bank : Nat) (w : BitVec 128), storesWf s → rimeEnabled s bank = true →
    (rimeBank s bank).segment.isSome = true → (rimeBank s bank).unit.susp = false →
    nextWord (rimeBank s bank) = some w → rwOp w = 0x04 → rwLegal w = true → rwByte w + rwExtent w ≤ 245760 * 1024 →
    ∃ t, Machine.exec (.storer bank w) s = .next t ∧
      t = { s with rime := t.rime, tier := t.tier, link := t.link, out := t.out } ∧
      (∀ i, i < 16 → memLe t.tier.dram (bankKey s bank (rwByte w) + 4 * i) 4 =
        (laneAt (rimeBank s bank).unit (16 * rwDst w + i)).toNat) ∧
      (∀ k, k < bankKey s bank (rwByte w) ∨ bankKey s bank (rwByte w) + 64 ≤ k →
        memRead t.tier.dram k = memRead s.tier.dram k) ∧
      (rimeBank t bank).unit.lanes = (rimeBank s bank).unit.lanes ∧ (rimeBank t bank).unit.qb = (rimeBank s bank).unit.qb) ∧
  (∀ (s : State) (bank op : Nat) (n : List Nat) (w : BitVec 128) (m : Media) (row : Instr),
    (row, op) ∈ [(.nop bank w, 0x00), (.clr bank w, 0x01), (.loadq bank w m n, 0x02), (.loadr bank w m n, 0x03), (.storer bank w,
      0x04),
      (.dot bank w m n, 0x10), (.maxsim bank w m n, 0x11), (.wsum bank w m n, 0x12), (.vmax bank w, 0x13), (.rmax bank w, 0x14)] →
    rimeEnabled s bank = true → (rimeBank s bank).segment.isSome = true → (rimeBank s bank).unit.susp = false →
    nextWord (rimeBank s bank) = some w → rwOp w = op → rwLegal w = false →
    ∃ t, Machine.exec row s = .next t ∧ t = { s with rime := t.rime } ∧ (rimeBank t bank).unit.err = 3 ∧
      (rimeBank t bank).unit.cmdq = [] ∧ (rimeBank t bank).unit.lanes = (rimeBank s bank).unit.lanes ∧
      ∀ r, (rimeBank t bank).current = some r → r.cmds = [] ∧ r.code = 5) ∧
  (∀ (s : State) (bank : Nat) (w : BitVec 128), rwOp w = 0x01 → ∀ j,
    laneAt (unitEffect s bank (rimeBank s bank).unit w) j =
      if 16 * rwDst w ≤ j ∧ j < 16 * rwDst w + 16 then 0 else laneAt (rimeBank s bank).unit j)

/-- The rime concurrency limit: no step takes the module above 1,024 computing banks or a channel above 8, reset is below both,
and a segment that would exceed either waits: nothing but its delay is counted. -/
def Obligations.RimeConcurrencyLimit : Prop :=
  (∀ s t : State, rimeSlotsWf s → Machine.step s = .next t → rimeSlotsWf t) ∧ rimeSlotsWf State.reset ∧
  (∀ (s u : State) (bank len : Nat), u = chooseRequest s bank → (rimeBank u bank).segment = none → (rimeBank u bank).current ≠ none →
    rimeEnabled u bank = true → len = min (segmentLimit u.health.refreshMult) (segmentDue u bank - u.time.dtb) →
    400 ≤ len → (1024 ≤ (computingBanks u).length ∨ 8 ≤ ((computingBanks u).filter (fun b => b.bank / 32 == bank / 32)).length) →
    Machine.exec (.rimeSegmentStart bank) s = .next { s with rime := { s.rime with slotWaits := s.rime.slotWaits + 1 } })

/-- Requests, segments, refresh, SAVE and RESTORE, and the aperture's writes. -/
def Obligations.RimeRequestRows : Prop :=
  (∀ (s : State) (slot : Option Nat) (ctx cell deadline bank : Nat) (desc : BitVec 256) (lc : Bool),
    requestClass s slot ctx = some (lc, deadline) → rdOk desc = true →
    (requestList s cell desc).any (fun w => rwOp w == 0x3E || rwOp w == 0x3F) = false → homeBank s slot ctx (rdHome desc) = some bank →
    ∃ t r, Machine.exec (.rimeRequestSubmit slot ctx cell desc) s = .next t ∧ t = { s with rime := t.rime } ∧
      rimeBank t bank = { rimeBank s bank with queue := (rimeBank s bank).queue ++ [r] } ∧
      r.bank = bank ∧ r.slot = slot ∧ r.ctx = ctx ∧ r.cell = cell ∧ r.desc = desc ∧ r.lc = lc ∧ r.deadline = deadline ∧
      r.arrival = s.time.dtb ∧ r.list = requestList s cell desc ∧
      t.rime.ready = s.rime.ready.filter (fun b => b != (cell, rdReady desc))) ∧
  (∀ (s : State) (slot : Option Nat) (ctx cell code : Nat) (desc : BitVec 256) (c : Bool × Nat), requestClass s slot ctx = some c →
    ((rdOk desc = false ∨ ∃ w ∈ requestList s cell desc, rwOp w = 0x3E ∨ rwOp w = 0x3F) ∧ code = 5 ∨
      rdOk desc = true ∧ (requestList s cell desc).any (fun w => rwOp w == 0x3E || rwOp w == 0x3F) = false ∧
        homeBank s slot ctx (rdHome desc) = none ∧ code = 4) →
    ∃ t r, Machine.exec (.rimeRequestSubmit slot ctx cell desc) s = .next t ∧
      t.out = s.out ++ .rimeRecord cell (rdResult desc) (rimeRecordWord code 0 0 0) [] :: r ∧ (cell, rdReady desc) ∈ t.rime.ready ∧
      ctxAt t ctx = none) ∧
  (∀ (s u : State) (bank len : Nat), u = chooseRequest s bank → (rimeBank u bank).segment = none → (rimeBank u bank).current ≠ none →
    rimeEnabled u bank = true → len = min (segmentLimit u.health.refreshMult) (segmentDue u bank - u.time.dtb) →
    400 ≤ len → slotFree u bank = true →
    ∃ t, Machine.exec (.rimeSegmentStart bank) s = .next t ∧ t = { u with rime := t.rime, bay := t.bay } ∧
      (rimeBank t bank).segment = some (u.time.dtb + len) ∧ (rimeBank t bank).unit.susp = false ∧
      ((rimeBank u bank).unit.paused = none → (rimeBank t bank).unit.cycles = (rimeBank u bank).unit.cycles) ∧
      (∀ k c, (rimeBank u bank).unit.paused = some (k, c) →
        (rimeBank t bank).unit.cycles = max (rimeBank u bank).unit.cycles (c + ceilDiv (2 * (u.time.dtb - k)) 5) + 12) ∧
      (∀ p ∈ u.adm.placed, ∀ ty, p.bytes = 0 → p.ev = some (.retrain (bank / 32) ty) → u.time.dtb + len ≤ p.window) ∧
      (rimeBank t bank).current = (rimeBank u bank).current) ∧
  (∀ (s : State) (bank lim : Nat), (rimeBank s bank).segment = some lim →
    (rimeBank s bank).queue.any (fun r => (arbitrated (advanceTo s lim) r).lc) = false →
    ∃ t, Machine.exec (.rimeSegmentEnd bank) s = .next t ∧
      t = { s with rime := t.rime, time := { s.time with dtb := max s.time.dtb lim } } ∧
      rimeBank t bank = { rimeBank s bank with
        segment := none,
        unit := { (rimeBank s bank).unit with susp := true, paused := some (max s.time.dtb lim, (rimeBank s bank).unit.cycles) } }) ∧
  (∀ (s : State) (bank lim : Nat) (r : RimeReq), (rimeBank s bank).segment = some lim → (rimeBank s bank).current = some r →
    (arbitrated (advanceTo s lim) r).lc = false → r.cmds ≠ [] → (rimeBank s bank).parked = none →
    (rimeBank s bank).queue.any (fun x => (arbitrated (advanceTo s lim) x).lc) = true →
    ∃ t p, Machine.exec (.rimeSegmentEnd bank) s = .next t ∧ (rimeBank t bank).current = none ∧ (rimeBank t bank).segment = none ∧
      (rimeBank t bank).parked = some p ∧ p.desc = r.desc ∧ p.cmds = r.cmds ∧ p.saved = true ∧
      p.held.cycles = (rimeBank s bank).unit.cycles + 106) ∧
  (∀ (s : State) (bank : Nat) (r : RimeReq), (rimeBank s bank).current = some r → rimeBusy (rimeBank s bank) = false →
    ∃ t rec_ ls z, Machine.exec (.rimeRequestDone bank) s = .next t ∧ (rimeBank t bank).current = none ∧
      (rimeBank t bank).segment = none ∧ (rimeBank t bank).unit.lanes = [] ∧
      t.out = s.out ++ .rimeRecord r.cell (rdResult r.desc) rec_ ls :: z ∧ field rec_ 0 8 = r.code % 256 ∧
      (r.code = 0 → ls = (List.range (rdLanes r.desc)).map (laneAt (rimeBank s bank).unit)) ∧ (r.code ≠ 0 → ls = []) ∧
      (r.cell, rdReady r.desc) ∈ t.rime.ready) ∧
  (∀ (s : State) (bank : Nat), (rimeBank s bank).segment = none →
    ∃ t, Machine.exec (.bankRefresh bank) s = .next t ∧ t = { s with rime := t.rime } ∧
      rimeBank t bank = { rimeBank s bank with
        refreshed := s.time.dtb, unit := if (rimeBank s bank).unit.paused.isSome then (rimeBank s bank).unit
          else { (rimeBank s bank).unit with openRow := none } }) ∧
  (∀ (s : State) (bank lim : Nat), (rimeBank s bank).segment = some lim →
    ∃ t n, Machine.exec (.bankAccessDuringRime bank) s = .next t ∧ t = { s with rime := t.rime, free := s.free + 1 } ∧
      rimeBank t bank = { rimeBank s bank with
        unit := { (rimeBank s bank).unit with cycles := (rimeBank s bank).unit.cycles + n } }) ∧
  (∀ (s : State) (bank : Nat), storesWf s → rimeEnabled s bank = true → (rimeBank s bank).segment = none →
    (rimeBank s bank).current = none →
    ∃ t, Machine.exec (.save bank) s = .next t ∧ t = { s with rime := t.rime, tier := t.tier } ∧
      memReadBytes t.tier.dram (bankKey s bank saveArea) 2560 = unitBytes (rimeBank s bank).unit ∧
      (rimeBank t bank).unit.cycles = (rimeBank s bank).unit.cycles + 106 ∧
      ∀ k, k < bankKey s bank saveArea ∨ bankKey s bank saveArea + 2560 ≤ k → memRead t.tier.dram k = memRead s.tier.dram k) ∧
  (∀ (s : State) (bank : Nat) (cs : List Nat), rimeEnabled s bank = true → (rimeBank s bank).segment = none →
    (rimeBank s bank).parked = none → saveAreaPoisoned s bank = false →
    ∃ t, Machine.exec (.restore bank ⟨.ok, cs⟩) s = .next t ∧
      t = { s with rime := t.rime, health := { s.health with banks := t.health.banks } } ∧
      unitBytes (rimeBank t bank).unit = bankRead s bank saveArea 2560) ∧
  (∀ (s : State) (bank : Nat) (w0 w1 : BitVec 128), rimeEnabled s bank = true → (rimeBank s bank).unit.cmdq.length ≤ 62 →
    ∃ t, Machine.exec (.cmdq bank w0 w1) s = .next t ∧ t = { s with rime := t.rime } ∧
      rimeBank t bank = { rimeBank s bank with
        unit := { (rimeBank s bank).unit with cmdq := (rimeBank s bank).unit.cmdq ++ [w0, w1] } }) ∧
  (∀ (s : State) (bank : Nat) (row : Instr) (u : RimeUnit),
    (row, u) ∈ [(.rimeCtrlClear bank, { (rimeBank s bank).unit with lanes := [], qb := [], err := 0 }),
      (.rimeCtrlSuspend bank, { (rimeBank s bank).unit with susp := true }),
      (.rimeCtrlResume bank, { (rimeBank s bank).unit with susp := false })] → rimeEnabled s bank = true →
    ∃ t, Machine.exec row s = .next t ∧ t = { s with rime := t.rime } ∧ rimeBank t bank = { rimeBank s bank with unit := u } ∧
      ∀ b, b ≠ bank → rimeBank t b = rimeBank s b) ∧
  (∀ (s : State) (bank : Nat), rimeEnabled s bank = true →
    ∃ t, Machine.exec (.rimeCtrlAbort bank) s = .next t ∧ t = { s with rime := t.rime } ∧ rimeBusy (rimeBank t bank) = false ∧
      (rimeBank t bank).queue = (rimeBank s bank).queue ∧ (rimeBank t bank).parked = (rimeBank s bank).parked ∧
      (rimeBank t bank).segment = (rimeBank s bank).segment ∧
      (∀ r, (rimeBank s bank).current = some r → ∃ x, (rimeBank t bank).current = some x ∧ x.desc = r.desc ∧ x.cmds = [] ∧
        (r.cmds ≠ [] → x.code = 6)) ∧
      ∀ b, b ≠ bank → rimeBank t b = rimeBank s b) ∧
  (∀ (s : State) (channel : Nat) (v : Byte),
    ∃ t, Machine.exec (.rcfgWrite channel v) s = .next t ∧ t = { s with rime := { s.rime with rcfg := t.rime.rcfg } } ∧
      (∀ b, b / 32 = channel → rimeEnabled t b = flag v 7) ∧ ∀ b, b / 32 ≠ channel → rimeEnabled t b = rimeEnabled s b)

/-! Tiers (R222 to R228, R237, R277). -/

/-- Faults, fills, write-backs, rebuilt objects and COPY: a page without a frame takes one and the domains of its fill are asked to wake,
a sector arrives from its home with the blocks poisoned there, dirty frames are written back and their pages have new homes, poisoned
where the captured blocks were; a COPY answers the bytes that its source held. -/
def Obligations.TierRows : Prop :=
  (∀ (s : State) (bay addr d : Nat) (write lc : Bool) (r : Region), regionOfPage s (addr / pageBytes) = some r → r.bay = bay →
    r.custody = false → r.kind = 2 → (write = true ∨ r.hint ≠ 1) → (lc = true ∨ beHeld s = false) →
    frameOfPage s (addr / pageBytes) = none → (takeFrame s bay).2 = some d →
    ∃ t, Machine.exec (.pageFault bay addr write lc) s = .next t ∧
      t = { s with free := t.free, out := t.out, link := t.link, tier := t.tier, power := t.power } ∧
      t.power = (needDomains s (fillDomains s (addr / pageBytes))).power ∧ (frameAt t d).page = addr / pageBytes ∧
      (frameAt t d).bay = bay ∧ (frameAt t d).ref = true ∧ ((frameAt t d).state = .fill ∨ (frameAt t d).state = .resident) ∧
      t.tier.flash = s.tier.flash) ∧
  (∀ (s : State) (bay addr : Nat) (lc : Bool) (r : Region), regionOfPage s (addr / pageBytes) = some r → r.hint = 1 →
    Machine.exec (.pageFault bay addr false lc) s = .next s) ∧
  (∀ (s : State) (page sector : Nat) (e : Frame_), storesWf s → tierMapWf s → frameOfPage s page = some e → e.state = .fill →
    flag e.arrived sector = false → sector < 64 → (e.arrived = 0 → sector = e.first) →
    (∀ w ∈ s.tier.fillWaits, waitReady s w = false ∧ w.1 / 4096 * 4096 ≠ pageBytes * page + 4096 * sector) →
    (∀ r, regionOfPage s page = some r → r.custody = false) →
    ∃ t, Machine.exec (.fillSectorArrival page sector .ok false) s = .next t ∧ t = { s with tier := t.tier } ∧
      flag (frameAt t e.num).arrived sector = !((frameAt t e.num).state == .resident) ∧
      (∀ k, k < 4096 → memRead t.tier.dram (dramKey e.num (4096 * sector + k)) =
        memRead s.tier.flash (pageBytes * page + 4096 * sector + k)) ∧
      (∀ k, k < dramKey e.num (4096 * sector) ∨ dramKey e.num (4096 * sector) + 4096 ≤ k →
        memRead t.tier.dram k = memRead s.tier.dram k) ∧ t.tier.flash = s.tier.flash ∧
      ∀ k, k ∈ t.tier.poison ↔ (k ∈ s.tier.poison ∧ k / 4096 ≠ dramKey e.num (4096 * sector) / 4096) ∨
        ∃ p ∈ s.tier.flashPoison, p / 4096 = (pageBytes * page + 4096 * sector) / 4096 ∧
          k = dramKey e.num (4096 * sector) + p % 4096) ∧
  (∀ (s : State) (bay : Nat), (dirtyFrames s bay).length ≤ tierDirtyHigh s * (migrating s bay).length / 100 →
    (bay ≠ 0 ∨ custodyFrames s = []) →
    Machine.exec (.cleanerWriteback bay) s = .next s) ∧
  (∀ (s : State) (bay : Nat), beHeld s = false →
    ∃ t, Machine.exec (.cleanerWriteback bay) s = .next t ∧
      t = { s with tier := { s.tier with frames := t.tier.frames, capture := t.tier.capture, captureBad := t.tier.captureBad } } ∧
      (∀ d, frameAt t d = frameAt s d ∨ (frameAt s d).state = .resident ∧ (frameAt s d).dirty ≠ 0 ∧
        frameAt t d = { frameAt s d with state := .writeback, captured := (frameAt s d).dirty, dirty := 0 }) ∧
      (∀ e, bay ≠ 0 → tierDirtyHigh s * (migrating s bay).length / 100 = 0 → dirtyFrames s bay = [e] → storesWf s → tierMapWf s →
        e.state = .resident → groupLevelNow s (homeGroup s e.page) < 3 → (frameAt t e.num).state = .writeback ∧
        (∀ k, k < pageBytes → memRead t.tier.capture (pageBytes * e.page + k) = memRead s.tier.dram (dramKey e.num k)) ∧
        (∀ k, k ∈ t.tier.captureBad ↔ (k ∈ s.tier.captureBad ∧ k / pageBytes ≠ e.page) ∨ k ∈ poisonedBlocks s e.num e.page) ∧
        ∀ k, k < pageBytes * e.page ∨ pageBytes * e.page + pageBytes ≤ k →
          memRead t.tier.capture k = memRead s.tier.capture k)) ∧
  (∀ (s : State) (page group home : Nat) (e : Frame_), storesWf s → tierMapWf s → frameOfPage s page = some e →
    e.state = .writeback → homeGroup s page = group → (∀ p, copyWaits s p = false) → s.tier.fillWaits = [] →
    (∀ r, regionOfPage s page = some r → r.custody = false) →
    ∃ t, Machine.exec (.writebackDone page group home) s = .next t ∧ t = { s with tier := t.tier } ∧
      frameAt t e.num = { e with state := .resident, home := some (group, home), captured := 0 } ∧
      t.tier.dram = s.tier.dram ∧
      (∀ k, k ∈ t.tier.flashPoison ↔ (k ∈ s.tier.flashPoison ∧ k / pageBytes ≠ page) ∨ (k ∈ s.tier.captureBad ∧ k / pageBytes = page)) ∧
      (∀ k, k < pageBytes → memRead t.tier.flash (pageBytes * page + k) = memRead s.tier.capture (pageBytes * page + k)) ∧
      (∀ k, k < pageBytes * page ∨ pageBytes * page + pageBytes ≤ k → memRead t.tier.flash k = memRead s.tier.flash k)) ∧
  (∀ (s : State) (addr : Nat) (w : WeightHealth), weightHealth s addr = some w → w.lost = false →
    ∃ t, Machine.exec (.weightRebuildDone addr true) s = .next t ∧ t = { s with tier := t.tier } ∧ weightHealth t addr = none) ∧
  (∀ (s : State) (q cid : Nat) (data : Bytes) (c : Cmd), ioTakes s q cid 0x08 c → copyFieldsOk s (ctxOfQueue s q) c = true →
    copySrcDev c = true → copyDstDev c = false → beHeld s = false → cleanBytes s (sqePtr0 c.sqe) (copyLen c) = copyLen c →
    (∀ p ∈ pagesOf (sqePtr0 c.sqe) (copyLen c), effectiveHint s (copyHint c) p = 1) →
    Machine.exec (.copy q cid data .ok) s = .next (progressCtx (endCmd
      { s with out := s.out ++ [.hostWrite q cid (devRead s (sqePtr0 c.sqe) (copyLen c))] } q c stOk (copyLen c)) (ctxOfQueue s q))) ∧
  (∀ (s : State) (q cid : Nat) (data : Bytes) (m : Media) (c : Cmd), ioTakes s q cid 0x08 c →
    copyFieldsOk s (ctxOfQueue s q) c = true → copySrcDev c = false → copyDstDev c = true →
    flashPages s (sqePtr1 c.sqe) (copyLen c) = [] → copyLen c ≤ data.length → beHeld s = false →
    Machine.exec (.copy q cid data m) s = .next (progressCtx (endCmd
      (devWriteHint (hostRead s (sqePtr0 c.sqe) (copyLen c)) (copyHint c) (sqePtr1 c.sqe) (data.take (copyLen c))) q c stOk (copyLen c))
      (ctxOfQueue s q)))

/-! Reserved events and departures (R120, R129, R212, R230 to R235). -/

/-- Reserved events are placed, deferred or forced and take place in their windows; a departure reserves its entry or is kept waiting,
relocates pieces, announces the stripes of its copies and ends; a return removes the last entry, and a replenishment spares the frames of
its slots as their copies end (windows: model's choice, log entry 72). -/
def Obligations.DepartureRows : Prop :=
  (∀ (s : State) (ev : Reserved) (w : Nat), w % 100000 = 0 → announceable s ≤ w → eventPending s ev = false →
    subjectExists s ev = true → (∀ d ∈ s.adm.deferred, d.1 = ev → w = tryWindow s d.2.2 ∧ w < d.2.1 + deferral ev) →
    baysExceeded s ev w = [] →
    ∃ t, Machine.exec (.reservedEventPlace ev w) s = .next t ∧ t = { s with adm := t.adm, health := t.health } ∧
      t.adm.placed = s.adm.placed ++ [{ window := w, ev := some ev, bytes := 0 }] ∧
      t.adm.deferred = s.adm.deferred.filter (fun d => d.1 != ev)) ∧
  (∀ (s : State) (ev : Reserved) (w : Nat), w % 100000 = 0 → announceable s ≤ w → eventPending s ev = false →
    subjectExists s ev = true → baysExceeded s ev w ≠ [] → (∀ d ∈ s.adm.deferred, d.1 ≠ ev) →
    Machine.exec (.reservedEventPlace ev w) s =
      .next { s with adm := { s.adm with deferred := s.adm.deferred ++ [(ev, w, w + 100000)] } }) ∧
  (∀ (s : State) (ev : Reserved) (d : Reserved × Nat × Nat), s.adm.deferred.find? (fun x => x.1 == ev) = some d →
    d.2.1 + deferral ev ≤ tryWindow s d.2.2 →
    ∃ t, Machine.exec (.reservedEventForced ev) s = .next t ∧ t = { s with adm := t.adm, health := t.health, bay := t.bay } ∧
      t.adm.placed = s.adm.placed ++ [{ window := max (d.2.1 + deferral ev) (announceable s), ev := some ev, bytes := 0 }] ∧
      (∀ x ∈ t.adm.deferred, x.1 ≠ ev) ∧
      ∀ b, b ∉ baysExceeded s ev (max (d.2.1 + deferral ev) (announceable s)) → bayAt t b = bayAt s b) ∧
  (∀ (s : State) (ev : Reserved), (∀ d, s.adm.deferred.find? (fun x => x.1 == ev) = some d → tryWindow s d.2.2 < d.2.1 + deferral ev) →
    Machine.exec (.reservedEventForced ev) s = .next s) ∧
  (∀ (s : State) (channel : Nat) (e : Placed), nextPlaced s (fun ev => match ev with
      | .retrain c _ => c == channel
      | .piece _ _ => false) = some e →
    (∀ b ∈ s.rime.banks, b.bank / 32 = channel → b.segment = none) →
    ∃ t, Machine.exec (.retrainingPause channel) s = .next t ∧ t.time.dtb = max s.time.dtb e.window + 2000 ∧
      t = { s with time := { s.time with dtb := t.time.dtb }, adm := { s.adm with placed := t.adm.placed } } ∧
      ∃ x ∈ t.adm.placed, x = { e with bytes := 1 }) ∧
  (∀ (s : State) (channel die : Nat) (e : Placed), nextPlaced s (fun ev => ev == .piece channel die) = some e →
    ∃ t, Machine.exec (.flashPePieceEnd channel die) s = .next t ∧
      t = { s with out := t.out, time := t.time, queues := t.queues, adm := t.adm, health := t.health } ∧
      t.time.dtb = max s.time.dtb e.window ∧
      dieAt t channel die = { dieAt s channel die with piece := none }) ∧
  (∀ (s : State) (channel : Nat) (kind : DepKind), channel < 128 → departureFree s channel kind = true →
    (kind = .temporary ∨ ∃ b, kind = .lease b ∧ s.tier.wanted.contains (channel, kind) = true) →
    ∃ t u, Machine.exec (.evacuationStart channel kind) s = .next t ∧
      u = { s with tier := { s.tier with
        departures := s.tier.departures ++ [{ channel := channel, kind := kind }],
        wanted := s.tier.wanted.filter (fun w => w != (channel, kind)),
        evacuation := some { channel := channel, returning := false, clear := clearStripes s channel } } } ∧
      (t = u ∨ freePieceFrames u < (localPieces u channel).length ∧
        t = { u with free := t.free, pins := t.pins, health := t.health, sb := t.sb, out := t.out } ∧
        ∃ e ∈ t.health.errors, e.unit = channel)) ∧
  (∀ (s : State) (channel : Nat), channel < 128 → departureFree s channel .temporary = false →
    ∃ t, Machine.exec (.evacuationStart channel .temporary) s = .next t ∧
      t = { s with tier := { s.tier with wanted := t.tier.wanted } } ∧
      ((channel, DepKind.temporary) ∈ t.tier.wanted ∨ ∃ d ∈ s.tier.departures, d.channel = channel)) ∧
  (∀ (s : State) (src dst : Nat) (v : Evacuation), storesWf s → tierMapWf s → s.tier.evacuation = some v → v.returning = false →
    copiedPiece s = some src → s.tier.departures.any (fun d => d.channel == v.channel) = true → freeLocalFrame s dst = true →
    ∃ t, Machine.exec (.pieceRelocated src dst) s = .next t ∧ t = { s with tier := t.tier, rime := t.rime } ∧
      frameAt t dst = { frameAt s src with num := dst } ∧ frameAt t src = { num := src, state := .free } ∧
      (∀ k, k < pageBytes → memRead t.tier.dram (dramKey dst k) = memRead s.tier.dram (dramKey src k)) ∧
      ∀ d k, d ≠ src → d ≠ dst → k < pageBytes → memRead t.tier.dram (dramKey d k) = memRead s.tier.dram (dramKey d k)) ∧
  (∀ (s : State) (w n : Nat) (bad : List Nat) (v : Evacuation), s.tier.evacuation = some v → w % 100000 = 0 → windowOf s.time.dtb + 200000 ≤ w →
    (∀ a ∈ v.announced, a.1 ≠ w) → (v.returning = true ∨ localPieces s v.channel = []) →
    n = min v.clear.length (copyStripes s w) → n ≠ 0 →
    ∃ t, Machine.exec (.evacuationCopyWindow ⟨w, bad⟩) s = .next t ∧
      t = { s with adm := { s.adm with placed := s.adm.placed ++ [{ window := w, ev := none, bytes := 129 * 256 * n }] }, tier := t.tier } ∧
      t.tier.evacuation = some { v with clear := v.clear.drop n, announced := v.announced ++ [(w, v.clear.take n)] } ∧
      t.tier.dram = s.tier.dram ∧ t.tier.flash = s.tier.flash ∧
      (∀ k ∈ bad, k % 64 = 0 → k / 256 ∈ v.clear.take n → k ∈ t.tier.poison) ∧
      ∀ k ∈ t.tier.poison, k ∈ s.tier.poison ∨ k ∈ bad ∧ k / 256 ∈ v.clear.take n) ∧
  (∀ (s : State) (v : Evacuation) (d : Departure), s.tier.evacuation = some v → v.returning = false → v.clear = [] →
    localPieces s v.channel = [] → s.tier.vacateDue = [] → s.tier.departures.find? (fun x => x.channel == v.channel) = some d →
    d.kind = .temporary →
    ∃ t, Machine.exec .evacuationCopyEnd s = .next t ∧
      t = { s with time := { s.time with dtb := max s.time.dtb (lastCopyEnd v) }, tier := { s.tier with
        evacuation := none, frames := t.tier.frames, dram := t.tier.dram, poison := t.tier.poison, written := t.tier.written,
        departures := s.tier.departures.map (fun x => if x.channel == v.channel then { x with out := true } else x) } } ∧
      (∀ n, frameAt t n = frameAt s n ∨ ((frameAt s n).state = .free ∨ (frameAt s n).state = .local_ ∧ holdsPiece s (frameAt s n) = false) ∧
        n % 4096 / 32 = v.channel ∧ s.tier.localSets.contains (n / 4096) = true ∧ frameAt t n = { num := n, state := .spare }) ∧
      (storesWf s → ∀ n k, frameAt t n = frameAt s n → k < pageBytes →
        memRead t.tier.dram (dramKey n k) = memRead s.tier.dram (dramKey n k))) ∧
  (∀ (s : State) (v : Evacuation) (d : Departure), s.tier.evacuation = some v → s.tier.departures.getLast? = some d →
    v.returning = true → v.clear = [] →
    ∃ t, Machine.exec .returnCopyEnd s = .next t ∧
      t = { s with
        out := t.out, time := t.time, queues := t.queues, bay := t.bay, adm := t.adm, tier := t.tier, link := t.link, rime := t.rime } ∧
      t.tier.departures = s.tier.departures.take (s.tier.departures.length - 1) ∧
      t.time.dtb = max s.time.dtb (lastCopyEnd v) ∧
      (∀ x, t.tier.evacuation = some x → x.returning = true ∧ x.announced = [])) ∧
  (∀ (s : State) (entry : Nat) (d : Departure), 1 ≤ entry → s.tier.departures[entry - 1]? = some d → d.out = true →
    d.replenished = false → d.kind ≠ .temporary →
    ∃ t e, Machine.exec (.replenishment entry) s = .next t ∧
      t = { s with adm := { s.adm with placed := t.adm.placed }, tier := t.tier, rime := t.rime } ∧
      t.tier.departures.length = s.tier.departures.length ∧
      t.tier.departures[entry - 1]? = some e ∧ e = { d with copies := e.copies, replenished := e.replenished } ∧
      (e.replenished = true ↔ ∀ x ∈ slotFrames s entry, slotDone t x = true) ∧
      ∀ i, i ≠ entry - 1 → t.tier.departures[i]? = s.tier.departures[i]?) ∧
  (∀ (s : State) (channel : Nat) (d : Departure), s.tier.departures.getLast? = some d → d.channel = channel → d.kind = .temporary →
    d.out = true → s.tier.evacuation = none →
    ∃ t v, Machine.exec (.fullRetrainingDone channel) s = .next t ∧
      t = { s with free := t.free, out := t.out, pins := t.pins, tier := t.tier, health := t.health, sb := t.sb } ∧
      t.tier.evacuation = some v ∧ v.channel = channel ∧
      v.returning = true ∧ t.tier.departures = s.tier.departures ∧
      ∀ b ∈ t.health.banks, b.bank / 32 = channel → b.failing = [])

/-! Media health and margins (R281, R355 to R373). -/

/-- Bad blocks, patrol, rebuilt and lost units, the XOR of a stripe, restored structures, scrub, failing rows, monitors, margin plans, and
LOG_GET; which spare block a block takes is left open. -/
def Obligations.HealthRows : Prop :=
  (∀ (s : State) (channel die block : Nat) (h : Nat × Nat), channel < 128 → die < s.sec.order.dies →
    (dieAt s channel die).retired = false → (dieAt s channel die).bad.contains block = false →
    (dieAt s channel die).pool.contains block = false → blockAt s channel die block = some h → 2 ≤ (dieAt s channel die).spares →
    (∀ v ∈ s.health.dies, v.channel = channel → v.retired = true ∨ v.spares ≠ 0) →
    ∃ t, Machine.exec (.flashPeFail channel die block) s = .next t ∧
      t = { s with health := { s.health with dies := t.health.dies } } ∧
      (Config.blocksPerDie ≤ block → t = s) ∧
      (block < Config.blocksPerDie →
        (dieAt t channel die).bad = insertAsc block (dieAt s channel die).bad ∧
        (dieAt t channel die).spares = (dieAt s channel die).spares - 1 ∧ (dieAt t channel die).retired = false ∧
        ∃ k, lookupKey (dieAt t channel h.1).moved h.2 = some (die, k))) ∧
  (∀ (s : State) (channel die block retries : Nat) (high : Bool) (h : Nat × Nat), channel < 128 → die < s.sec.order.dies →
    (dieAt s channel die).retired = false → beHeld s = false → retries ≤ 3 → (2 ≤ retries ∨ high = true) →
    blockAt s channel die block = some h → (dieAt s channel die).spares ≠ 0 →
    lookupKey (dieAt s channel die).refreshed block = none →
    ∃ t, Machine.exec (.flashPatrol channel die block retries high) s = .next t ∧
      t = { s with power := t.power, health := { s.health with dies := t.health.dies } } ∧
      lookupKey (dieAt t channel die).refreshed block = some (s.time.bootCount.toNat, s.time.dtb) ∧
      (dieAt t channel die).spares = (dieAt s channel die).spares ∧ block ∈ (dieAt t channel die).pool ∧
      (dieAt t channel die).bad = (dieAt s channel die).bad ∧
      ∃ k, lookupKey (dieAt t channel h.1).moved h.2 = some (die, k)) ∧
  (∀ (s : State) (channel die block retries : Nat) (high : Bool), beHeld s = false → (retries ≤ 1 ∧ high = false ∨ 3 < retries) →
    ∃ t, Machine.exec (.flashPatrol channel die block retries high) s = .next t ∧ t = { s with power := t.power }) ∧
  (∀ (s : State) (channel die unit : Nat), channel < 128 → die < s.sec.order.dies → s.health.lostUnits.contains (channel, die, unit) = false →
    (stripeBroken s channel die unit = false →
      ∃ u, Machine.exec (.mediaUnitRebuild channel die unit true) s = .next (logError u errFlashRebuilt (dieUnit channel die) unit) ∧
        u = { s with health := { s.health with dies := u.health.dies } }) ∧
    ∀ ok, (ok = false ∨ stripeBroken s channel die unit = true) → ∃ t, Machine.exec (.mediaUnitRebuild channel die unit ok) s = .next t ∧
      (soleCopy s channel die unit = true → t.health.lostUnits.contains (channel, die, unit) = true ∧
        ∀ a ∈ unitSectors s channel die unit, ∀ k, k < 64 → a + 64 * k ∈ t.tier.flashPoison) ∧
      (soleCopy s channel die unit = false → t.health.lostUnits = s.health.lostUnits ∧ t.tier = s.tier ∧ t.indexes = s.indexes)) ∧
  (∀ (s : State) (l : UnitLoc), (∀ c, c < 8 → (readUnitBytes s { l with channel := 8 * (l.channel / 8) + c }).length = 4096) →
    rebuiltUnit s l = stripeUnit s l) ∧
  (∀ (s : State) (n : Nat) (st : IndexStruct) (x : Index), indexAt s n = some x → s.tier.poison.any (inStruct s x st) = true →
    ∃ t, Machine.exec (.indexStructureRestored n st) s = .next t ∧
      t = { s with
        tier := { s.tier with poison := s.tier.poison.filter (fun k => !inStruct s x st k), frames := t.tier.frames },
        free := t.free, health := t.health } ∧
      (∀ d, (frameAt t d).poison = (frameAt s d).poison ∨ (frameAt t d).poison = t.tier.poison.any (fun k => k / pageBytes == d)) ∧
      ∃ e ∈ t.health.errors, e.cls = errIndexRestored ∧ e.unit = n) ∧
  (∀ (s : State) (set : Nat) (cs : List (Nat × Nat)), beHeld s = false → set < 960 →
    ∃ t, Machine.exec (.dramScrubPass set cs) s = .next t ∧
      t = { s with power := t.power, health := { s.health with banks := t.health.banks, scrubbed := t.health.scrubbed } } ∧
      lookupKey t.health.scrubbed set = some s.time.dtb) ∧
  (∀ (s : State) (bank row : Nat), bank < 4096 → row < 131072 → (bankHealth s bank).failing.any (fun r => r.1 == row) = false →
    rowWeak s bank row = true → (bankHealth s bank).used + (bankHealth s bank).failing.length < 4 →
    ∃ t, Machine.exec (.dramRowFailing bank row false) s = .next t ∧
      t = { s with
        free := t.free, out := t.out, pins := t.pins, queues := t.queues, bay := t.bay, tier := t.tier, health := t.health,
        sb := t.sb, link := t.link, rime := t.rime } ∧
      bankHealth t bank = { bankHealth s bank with
        failing := (bankHealth s bank).failing ++ [(row, framesOfRow s bank row)] } ∧
      ∃ e ∈ t.health.errors, e.cls = errRowFailing ∧ e.unit = bank) ∧
  (∀ (s : State) (kind unit : Nat) (v0 v1 v2 v3 limit : Word32), monitorKinds.contains kind = true →
    monitored s kind unit = true → recordDue s kind unit [v0, v1, v2, v3] = true →
    ∃ t r, Machine.exec (.monitorSample kind unit v0 v1 v2 v3 limit) s = .next t ∧
      t = { s with health := { s.health with nextRecord := s.health.nextRecord + 1, moraine := t.health.moraine } } ∧
      t.health.moraine.getLast? = some r ∧ r.kind = kind ∧ r.unit = unit ∧ r.v0 = v0 ∧ r.v1 = v1 ∧ r.v2 = v2 ∧ r.v3 = v3 ∧
      r.limit = limit ∧ r.dtb = s.time.dtb ∧ r.boot = s.time.bootCount ∧ r.seq = s.health.nextRecord) ∧
  (∀ (s : State) (kind unit : Nat) (v0 v1 v2 v3 limit : Word32), recordDue s kind unit [v0, v1, v2, v3] = false →
    Machine.exec (.monitorSample kind unit v0 v1 v2 v3 limit) s = .next s) ∧
  (∀ (s : State) (trigger : Nat) (m : MarginItems), s.health.plan = none → mgmtAwake s = true → isFatal s = false → 2 ≤ trigger →
    trigger ≤ 7 →
    ∃ t p, Machine.exec (.marginPlanBuild trigger m) s = .next t ∧
      t = { s with
        free := t.free, out := t.out, time := t.time, pins := t.pins, bay := t.bay, health := t.health, sb := t.sb, power := t.power } ∧
      t.health.plan = some p ∧ p.number = s.health.planNumber + 1 ∧
      p.trigger = trigger ∧ (∀ e ∈ p.offsets, -50 ≤ e.2 ∧ e.2 ≤ 75) ∧ (∀ r ∈ p.refs, -400 ≤ r.2.2.2 ∧ r.2.2.2 ≤ 400) ∧
      (∀ e ∈ p.clocks, e.1 < 2 ∧ e.2 ≤ 3) ∧ (trigger = 5 → p.refs = [] ∧ p.retrain = [])) ∧
  (∀ (s : State) (p : MarginPlan), s.health.plan = some p →
    ∃ t, Machine.exec .marginPlanRaise s = .next t ∧
      t = { s with health := t.health, tier := { s.tier with wanted := t.tier.wanted } } ∧
      t.health.plan = none ∧ t.health.planNumber = p.number ∧ t.health.planDtb = s.time.dtb ∧ t.health.refreshMult = p.refresh) ∧
  (∀ (s : State) (cid : Nat) (c : Cmd) (bs : Bytes), adminTakes s cid 0x8B c → field c.sqe 112 32 % 64 = 0 →
    field c.sqe 144 32 % 64 = 0 → field c.sqe 144 32 ≠ 0 → logPage s .host (field c.sqe 64 8) (field c.sqe 80 32) = (stOk, bs) →
    Machine.exec (.logGet cid) s = .next (endCmd { s with
      out := s.out ++ [.hostWrite adminQ cid (sliceOf bs (field c.sqe 112 32) (field c.sqe 144 32))] } adminQ c stOk
      (sliceOf bs (field c.sqe 112 32) (field c.sqe 144 32)).length))
end

