-- ==== Sys2Proof/Laws/Ends.lean ====
section
/-! SUPPORT. What a reset leaves of pairs and contexts: a property of every pair's bay and of every context's number and bay is
kept by the operations that ends of contexts are made of. -/

namespace Sys2Proof.Machine

open Sys2Proof

/-- A property of a pair's bay, and one of a context's number and bay. -/
structure Ends where
  pair : Nat → Bool
  ctx : Nat → Nat → Bool

/-- Every pair has the property. -/
def pairsAll (E : Ends) (l : List QPair) : Prop := ∀ p ∈ l, E.pair p.bay = true

/-- Every context has the property. -/
def ctxsAll (E : Ends) (l : List Ctx) : Prop := ∀ c ∈ l, E.ctx c.num c.bay = true

/-- Every pair and context of a state has its property. -/
def endsAll (E : Ends) (s : State) : Prop := pairsAll E s.queues.pairs ∧ ctxsAll E s.bay.contexts

variable {E : Ends} {s : State}

@[simp] theorem endsAll_mk (a b c d e f g h i j t k x l m n o p q) :
    endsAll E (State.mk a b c d e f g h i j t k x l m n o p q) ↔ pairsAll E g.pairs ∧ ctxsAll E i.contexts := Iff.rfl

@[simp] theorem endsAll_pairs (h : endsAll E s) : pairsAll E s.queues.pairs := h.1
@[simp] theorem endsAll_ctxs (h : endsAll E s) : ctxsAll E s.bay.contexts := h.2

@[simp] theorem endsAll_ite (c : Prop) [Decidable c] (a b : State) :
    endsAll E (if c then a else b) ↔ if c then endsAll E a else endsAll E b := by split <;> rfl

@[simp] theorem pairsAll_filter (l : List QPair) (g : QPair → Bool) (h : pairsAll E l) : pairsAll E (l.filter g) :=
  fun p hp => h p (List.mem_filter.1 hp).1

@[simp] theorem ctxsAll_filter (l : List Ctx) (g : Ctx → Bool) (h : ctxsAll E l) : ctxsAll E (l.filter g) :=
  fun p hp => h p (List.mem_filter.1 hp).1

/-- Elements of a list with one replaced: old ones, or the image of an old one. -/
theorem mem_updateFirst {α : Type} (g : α → Bool) (f : α → α) (l : List α) (x : α) (h : x ∈ updateFirst g f l) :
    x ∈ l ∨ ∃ y ∈ l, x = f y := by
  induction l with
  | nil => exact .inl h
  | cons a r ih =>
    simp only [updateFirst] at h
    split at h
    · rcases List.mem_cons.1 h with rfl | h
      · exact .inr ⟨a, List.mem_cons_self, rfl⟩
      · exact .inl (List.mem_cons_of_mem _ h)
    · rcases List.mem_cons.1 h with rfl | h
      · exact .inl List.mem_cons_self
      · rcases ih h with h | ⟨y, hy, e⟩
        · exact .inl (List.mem_cons_of_mem _ h)
        · exact .inr ⟨y, List.mem_cons_of_mem _ hy, e⟩

@[simp] theorem pairsAll_updateFirst (l : List QPair) (g : QPair → Bool) (f : QPair → QPair) (hf : ∀ p, (f p).bay = p.bay)
    (h : pairsAll E l) : pairsAll E (updateFirst g f l) := by
  intro p hp
  rcases mem_updateFirst g f l p hp with hp | ⟨y, hy, rfl⟩
  · exact h p hp
  · rw [hf]; exact h y hy

@[simp] theorem ctxsAll_updateFirst (l : List Ctx) (g : Ctx → Bool) (f : Ctx → Ctx)
    (hf : ∀ c, (f c).num = c.num ∧ (f c).bay = c.bay) (h : ctxsAll E l) : ctxsAll E (updateFirst g f l) := by
  intro p hp
  rcases mem_updateFirst g f l p hp with hp | ⟨y, hy, rfl⟩
  · exact h p hp
  · rw [(hf y).1, (hf y).2]; exact h y hy

/-- A fold of operations that keep the property keeps it. -/
@[simp] theorem endsAll_foldl {α : Type} (f : State → α → State) (l : List α) (hf : ∀ t a, endsAll E t → endsAll E (f t a)) :
    ∀ s, endsAll E s → endsAll E (l.foldl f s) := by
  induction l with
  | nil => intro s h; exact h
  | cons a r ih => intro s h; exact ih _ (hf s a h)

end Sys2Proof.Machine
end

