-- ==== Sys2Proof/Laws/State.lean ====
section
/-! SUPPORT. One lemma for each field that an elementary operation of the machine leaves alone, so that no proof unfolds a record
update to read another field. -/

namespace Sys2Proof.Machine

open Sys2Proof

@[simp] theorem emit_pending (s : State) (o : Out) : (emit s o).pending = s.pending := rfl
@[simp] theorem emit_free (s : State) (o : Out) : (emit s o).free = s.free := rfl
@[simp] theorem emit_time (s : State) (o : Out) : (emit s o).time = s.time := rfl
@[simp] theorem emit_pins (s : State) (o : Out) : (emit s o).pins = s.pins := rfl
@[simp] theorem emit_link (s : State) (o : Out) : (emit s o).link = s.link := rfl
@[simp] theorem emit_queues (s : State) (o : Out) : (emit s o).queues = s.queues := rfl
@[simp] theorem emit_indexes (s : State) (o : Out) : (emit s o).indexes = s.indexes := rfl
@[simp] theorem emit_bay (s : State) (o : Out) : (emit s o).bay = s.bay := rfl
@[simp] theorem emit_adm (s : State) (o : Out) : (emit s o).adm = s.adm := rfl
@[simp] theorem emit_tier (s : State) (o : Out) : (emit s o).tier = s.tier := rfl
@[simp] theorem emit_rime (s : State) (o : Out) : (emit s o).rime = s.rime := rfl
@[simp] theorem emit_cells (s : State) (o : Out) : (emit s o).cells = s.cells := rfl
@[simp] theorem emit_health (s : State) (o : Out) : (emit s o).health = s.health := rfl
@[simp] theorem emit_dict (s : State) (o : Out) : (emit s o).dict = s.dict := rfl
@[simp] theorem emit_sb (s : State) (o : Out) : (emit s o).sb = s.sb := rfl
@[simp] theorem emit_power (s : State) (o : Out) : (emit s o).power = s.power := rfl
@[simp] theorem emit_sec (s : State) (o : Out) : (emit s o).sec = s.sec := rfl
@[simp] theorem emit_tap (s : State) (o : Out) : (emit s o).tap = s.tap := rfl

@[simp] theorem bumpFree_pending (s : State) : (bumpFree s).pending = s.pending := rfl
@[simp] theorem bumpFree_out (s : State) : (bumpFree s).out = s.out := rfl
@[simp] theorem bumpFree_time (s : State) : (bumpFree s).time = s.time := rfl
@[simp] theorem bumpFree_pins (s : State) : (bumpFree s).pins = s.pins := rfl
@[simp] theorem bumpFree_link (s : State) : (bumpFree s).link = s.link := rfl
@[simp] theorem bumpFree_queues (s : State) : (bumpFree s).queues = s.queues := rfl
@[simp] theorem bumpFree_indexes (s : State) : (bumpFree s).indexes = s.indexes := rfl
@[simp] theorem bumpFree_bay (s : State) : (bumpFree s).bay = s.bay := rfl
@[simp] theorem bumpFree_adm (s : State) : (bumpFree s).adm = s.adm := rfl
@[simp] theorem bumpFree_tier (s : State) : (bumpFree s).tier = s.tier := rfl
@[simp] theorem bumpFree_rime (s : State) : (bumpFree s).rime = s.rime := rfl
@[simp] theorem bumpFree_cells (s : State) : (bumpFree s).cells = s.cells := rfl
@[simp] theorem bumpFree_health (s : State) : (bumpFree s).health = s.health := rfl
@[simp] theorem bumpFree_dict (s : State) : (bumpFree s).dict = s.dict := rfl
@[simp] theorem bumpFree_sb (s : State) : (bumpFree s).sb = s.sb := rfl
@[simp] theorem bumpFree_power (s : State) : (bumpFree s).power = s.power := rfl
@[simp] theorem bumpFree_sec (s : State) : (bumpFree s).sec = s.sec := rfl
@[simp] theorem bumpFree_tap (s : State) : (bumpFree s).tap = s.tap := rfl

@[simp] theorem advanceTo_pending (s : State) (n : Nat) : (advanceTo s n).pending = s.pending := rfl
@[simp] theorem advanceTo_free (s : State) (n : Nat) : (advanceTo s n).free = s.free := rfl
@[simp] theorem advanceTo_out (s : State) (n : Nat) : (advanceTo s n).out = s.out := rfl
@[simp] theorem advanceTo_pins (s : State) (n : Nat) : (advanceTo s n).pins = s.pins := rfl
@[simp] theorem advanceTo_link (s : State) (n : Nat) : (advanceTo s n).link = s.link := rfl
@[simp] theorem advanceTo_queues (s : State) (n : Nat) : (advanceTo s n).queues = s.queues := rfl
@[simp] theorem advanceTo_indexes (s : State) (n : Nat) : (advanceTo s n).indexes = s.indexes := rfl
@[simp] theorem advanceTo_bay (s : State) (n : Nat) : (advanceTo s n).bay = s.bay := rfl
@[simp] theorem advanceTo_adm (s : State) (n : Nat) : (advanceTo s n).adm = s.adm := rfl
@[simp] theorem advanceTo_tier (s : State) (n : Nat) : (advanceTo s n).tier = s.tier := rfl
@[simp] theorem advanceTo_rime (s : State) (n : Nat) : (advanceTo s n).rime = s.rime := rfl
@[simp] theorem advanceTo_cells (s : State) (n : Nat) : (advanceTo s n).cells = s.cells := rfl
@[simp] theorem advanceTo_health (s : State) (n : Nat) : (advanceTo s n).health = s.health := rfl
@[simp] theorem advanceTo_dict (s : State) (n : Nat) : (advanceTo s n).dict = s.dict := rfl
@[simp] theorem advanceTo_sb (s : State) (n : Nat) : (advanceTo s n).sb = s.sb := rfl
@[simp] theorem advanceTo_power (s : State) (n : Nat) : (advanceTo s n).power = s.power := rfl
@[simp] theorem advanceTo_sec (s : State) (n : Nat) : (advanceTo s n).sec = s.sec := rfl
@[simp] theorem advanceTo_tap (s : State) (n : Nat) : (advanceTo s n).tap = s.tap := rfl

@[simp] theorem updPair_pending (s : State) (q : Nat) (f : QPair → QPair) : (updPair s q f).pending = s.pending := rfl
@[simp] theorem updPair_free (s : State) (q : Nat) (f : QPair → QPair) : (updPair s q f).free = s.free := rfl
@[simp] theorem updPair_out (s : State) (q : Nat) (f : QPair → QPair) : (updPair s q f).out = s.out := rfl
@[simp] theorem updPair_time (s : State) (q : Nat) (f : QPair → QPair) : (updPair s q f).time = s.time := rfl
@[simp] theorem updPair_pins (s : State) (q : Nat) (f : QPair → QPair) : (updPair s q f).pins = s.pins := rfl
@[simp] theorem updPair_link (s : State) (q : Nat) (f : QPair → QPair) : (updPair s q f).link = s.link := rfl
@[simp] theorem updPair_indexes (s : State) (q : Nat) (f : QPair → QPair) : (updPair s q f).indexes = s.indexes := rfl
@[simp] theorem updPair_bay (s : State) (q : Nat) (f : QPair → QPair) : (updPair s q f).bay = s.bay := rfl
@[simp] theorem updPair_adm (s : State) (q : Nat) (f : QPair → QPair) : (updPair s q f).adm = s.adm := rfl
@[simp] theorem updPair_tier (s : State) (q : Nat) (f : QPair → QPair) : (updPair s q f).tier = s.tier := rfl
@[simp] theorem updPair_rime (s : State) (q : Nat) (f : QPair → QPair) : (updPair s q f).rime = s.rime := rfl
@[simp] theorem updPair_cells (s : State) (q : Nat) (f : QPair → QPair) : (updPair s q f).cells = s.cells := rfl
@[simp] theorem updPair_health (s : State) (q : Nat) (f : QPair → QPair) : (updPair s q f).health = s.health := rfl
@[simp] theorem updPair_dict (s : State) (q : Nat) (f : QPair → QPair) : (updPair s q f).dict = s.dict := rfl
@[simp] theorem updPair_sb (s : State) (q : Nat) (f : QPair → QPair) : (updPair s q f).sb = s.sb := rfl
@[simp] theorem updPair_power (s : State) (q : Nat) (f : QPair → QPair) : (updPair s q f).power = s.power := rfl
@[simp] theorem updPair_sec (s : State) (q : Nat) (f : QPair → QPair) : (updPair s q f).sec = s.sec := rfl
@[simp] theorem updPair_tap (s : State) (q : Nat) (f : QPair → QPair) : (updPair s q f).tap = s.tap := rfl

@[simp] theorem updQueue_pending (s : State) (q : Nat) (f : Queue → Queue) : (updQueue s q f).pending = s.pending := by unfold updQueue; split <;> rfl
@[simp] theorem updQueue_free (s : State) (q : Nat) (f : Queue → Queue) : (updQueue s q f).free = s.free := by unfold updQueue; split <;> rfl
@[simp] theorem updQueue_out (s : State) (q : Nat) (f : Queue → Queue) : (updQueue s q f).out = s.out := by unfold updQueue; split <;> rfl
@[simp] theorem updQueue_time (s : State) (q : Nat) (f : Queue → Queue) : (updQueue s q f).time = s.time := by unfold updQueue; split <;> rfl
@[simp] theorem updQueue_pins (s : State) (q : Nat) (f : Queue → Queue) : (updQueue s q f).pins = s.pins := by unfold updQueue; split <;> rfl
@[simp] theorem updQueue_link (s : State) (q : Nat) (f : Queue → Queue) : (updQueue s q f).link = s.link := by unfold updQueue; split <;> rfl
@[simp] theorem updQueue_indexes (s : State) (q : Nat) (f : Queue → Queue) : (updQueue s q f).indexes = s.indexes := by unfold updQueue; split <;> rfl
@[simp] theorem updQueue_bay (s : State) (q : Nat) (f : Queue → Queue) : (updQueue s q f).bay = s.bay := by unfold updQueue; split <;> rfl
@[simp] theorem updQueue_adm (s : State) (q : Nat) (f : Queue → Queue) : (updQueue s q f).adm = s.adm := by unfold updQueue; split <;> rfl
@[simp] theorem updQueue_tier (s : State) (q : Nat) (f : Queue → Queue) : (updQueue s q f).tier = s.tier := by unfold updQueue; split <;> rfl
@[simp] theorem updQueue_rime (s : State) (q : Nat) (f : Queue → Queue) : (updQueue s q f).rime = s.rime := by unfold updQueue; split <;> rfl
@[simp] theorem updQueue_cells (s : State) (q : Nat) (f : Queue → Queue) : (updQueue s q f).cells = s.cells := by unfold updQueue; split <;> rfl
@[simp] theorem updQueue_health (s : State) (q : Nat) (f : Queue → Queue) : (updQueue s q f).health = s.health := by unfold updQueue; split <;> rfl
@[simp] theorem updQueue_dict (s : State) (q : Nat) (f : Queue → Queue) : (updQueue s q f).dict = s.dict := by unfold updQueue; split <;> rfl
@[simp] theorem updQueue_sb (s : State) (q : Nat) (f : Queue → Queue) : (updQueue s q f).sb = s.sb := by unfold updQueue; split <;> rfl
@[simp] theorem updQueue_power (s : State) (q : Nat) (f : Queue → Queue) : (updQueue s q f).power = s.power := by unfold updQueue; split <;> rfl
@[simp] theorem updQueue_sec (s : State) (q : Nat) (f : Queue → Queue) : (updQueue s q f).sec = s.sec := by unfold updQueue; split <;> rfl
@[simp] theorem updQueue_tap (s : State) (q : Nat) (f : Queue → Queue) : (updQueue s q f).tap = s.tap := by unfold updQueue; split <;> rfl

@[simp] theorem updCmd_pending (s : State) (q cid : Nat) (f : Cmd → Cmd) : (updCmd s q cid f).pending = s.pending := updQueue_pending _ _ _
@[simp] theorem updCmd_free (s : State) (q cid : Nat) (f : Cmd → Cmd) : (updCmd s q cid f).free = s.free := updQueue_free _ _ _
@[simp] theorem updCmd_out (s : State) (q cid : Nat) (f : Cmd → Cmd) : (updCmd s q cid f).out = s.out := updQueue_out _ _ _
@[simp] theorem updCmd_time (s : State) (q cid : Nat) (f : Cmd → Cmd) : (updCmd s q cid f).time = s.time := updQueue_time _ _ _
@[simp] theorem updCmd_pins (s : State) (q cid : Nat) (f : Cmd → Cmd) : (updCmd s q cid f).pins = s.pins := updQueue_pins _ _ _
@[simp] theorem updCmd_link (s : State) (q cid : Nat) (f : Cmd → Cmd) : (updCmd s q cid f).link = s.link := updQueue_link _ _ _
@[simp] theorem updCmd_indexes (s : State) (q cid : Nat) (f : Cmd → Cmd) : (updCmd s q cid f).indexes = s.indexes := updQueue_indexes _ _ _
@[simp] theorem updCmd_bay (s : State) (q cid : Nat) (f : Cmd → Cmd) : (updCmd s q cid f).bay = s.bay := updQueue_bay _ _ _
@[simp] theorem updCmd_adm (s : State) (q cid : Nat) (f : Cmd → Cmd) : (updCmd s q cid f).adm = s.adm := updQueue_adm _ _ _
@[simp] theorem updCmd_tier (s : State) (q cid : Nat) (f : Cmd → Cmd) : (updCmd s q cid f).tier = s.tier := updQueue_tier _ _ _
@[simp] theorem updCmd_rime (s : State) (q cid : Nat) (f : Cmd → Cmd) : (updCmd s q cid f).rime = s.rime := updQueue_rime _ _ _
@[simp] theorem updCmd_cells (s : State) (q cid : Nat) (f : Cmd → Cmd) : (updCmd s q cid f).cells = s.cells := updQueue_cells _ _ _
@[simp] theorem updCmd_health (s : State) (q cid : Nat) (f : Cmd → Cmd) : (updCmd s q cid f).health = s.health := updQueue_health _ _ _
@[simp] theorem updCmd_dict (s : State) (q cid : Nat) (f : Cmd → Cmd) : (updCmd s q cid f).dict = s.dict := updQueue_dict _ _ _
@[simp] theorem updCmd_sb (s : State) (q cid : Nat) (f : Cmd → Cmd) : (updCmd s q cid f).sb = s.sb := updQueue_sb _ _ _
@[simp] theorem updCmd_power (s : State) (q cid : Nat) (f : Cmd → Cmd) : (updCmd s q cid f).power = s.power := updQueue_power _ _ _
@[simp] theorem updCmd_sec (s : State) (q cid : Nat) (f : Cmd → Cmd) : (updCmd s q cid f).sec = s.sec := updQueue_sec _ _ _
@[simp] theorem updCmd_tap (s : State) (q cid : Nat) (f : Cmd → Cmd) : (updCmd s q cid f).tap = s.tap := updQueue_tap _ _ _

@[simp] theorem startCmd_pending (s : State) (q : Nat) (c : Cmd) (f : Cmd → Cmd) : (startCmd s q c f).pending = s.pending := updQueue_pending _ _ _
@[simp] theorem startCmd_free (s : State) (q : Nat) (c : Cmd) (f : Cmd → Cmd) : (startCmd s q c f).free = s.free := updQueue_free _ _ _
@[simp] theorem startCmd_out (s : State) (q : Nat) (c : Cmd) (f : Cmd → Cmd) : (startCmd s q c f).out = s.out := updQueue_out _ _ _
@[simp] theorem startCmd_time (s : State) (q : Nat) (c : Cmd) (f : Cmd → Cmd) : (startCmd s q c f).time = s.time := updQueue_time _ _ _
@[simp] theorem startCmd_pins (s : State) (q : Nat) (c : Cmd) (f : Cmd → Cmd) : (startCmd s q c f).pins = s.pins := updQueue_pins _ _ _
@[simp] theorem startCmd_link (s : State) (q : Nat) (c : Cmd) (f : Cmd → Cmd) : (startCmd s q c f).link = s.link := updQueue_link _ _ _
@[simp] theorem startCmd_indexes (s : State) (q : Nat) (c : Cmd) (f : Cmd → Cmd) : (startCmd s q c f).indexes = s.indexes := updQueue_indexes _ _ _
@[simp] theorem startCmd_bay (s : State) (q : Nat) (c : Cmd) (f : Cmd → Cmd) : (startCmd s q c f).bay = s.bay := updQueue_bay _ _ _
@[simp] theorem startCmd_adm (s : State) (q : Nat) (c : Cmd) (f : Cmd → Cmd) : (startCmd s q c f).adm = s.adm := updQueue_adm _ _ _
@[simp] theorem startCmd_tier (s : State) (q : Nat) (c : Cmd) (f : Cmd → Cmd) : (startCmd s q c f).tier = s.tier := updQueue_tier _ _ _
@[simp] theorem startCmd_rime (s : State) (q : Nat) (c : Cmd) (f : Cmd → Cmd) : (startCmd s q c f).rime = s.rime := updQueue_rime _ _ _
@[simp] theorem startCmd_cells (s : State) (q : Nat) (c : Cmd) (f : Cmd → Cmd) : (startCmd s q c f).cells = s.cells := updQueue_cells _ _ _
@[simp] theorem startCmd_health (s : State) (q : Nat) (c : Cmd) (f : Cmd → Cmd) : (startCmd s q c f).health = s.health := updQueue_health _ _ _
@[simp] theorem startCmd_dict (s : State) (q : Nat) (c : Cmd) (f : Cmd → Cmd) : (startCmd s q c f).dict = s.dict := updQueue_dict _ _ _
@[simp] theorem startCmd_sb (s : State) (q : Nat) (c : Cmd) (f : Cmd → Cmd) : (startCmd s q c f).sb = s.sb := updQueue_sb _ _ _
@[simp] theorem startCmd_power (s : State) (q : Nat) (c : Cmd) (f : Cmd → Cmd) : (startCmd s q c f).power = s.power := updQueue_power _ _ _
@[simp] theorem startCmd_sec (s : State) (q : Nat) (c : Cmd) (f : Cmd → Cmd) : (startCmd s q c f).sec = s.sec := updQueue_sec _ _ _
@[simp] theorem startCmd_tap (s : State) (q : Nat) (c : Cmd) (f : Cmd → Cmd) : (startCmd s q c f).tap = s.tap := updQueue_tap _ _ _

@[simp] theorem setBay_pending (s : State) (b : Nat) (v : Bay) : (setBay s b v).pending = s.pending := rfl
@[simp] theorem setBay_free (s : State) (b : Nat) (v : Bay) : (setBay s b v).free = s.free := rfl
@[simp] theorem setBay_out (s : State) (b : Nat) (v : Bay) : (setBay s b v).out = s.out := rfl
@[simp] theorem setBay_time (s : State) (b : Nat) (v : Bay) : (setBay s b v).time = s.time := rfl
@[simp] theorem setBay_pins (s : State) (b : Nat) (v : Bay) : (setBay s b v).pins = s.pins := rfl
@[simp] theorem setBay_link (s : State) (b : Nat) (v : Bay) : (setBay s b v).link = s.link := rfl
@[simp] theorem setBay_queues (s : State) (b : Nat) (v : Bay) : (setBay s b v).queues = s.queues := rfl
@[simp] theorem setBay_indexes (s : State) (b : Nat) (v : Bay) : (setBay s b v).indexes = s.indexes := rfl
@[simp] theorem setBay_adm (s : State) (b : Nat) (v : Bay) : (setBay s b v).adm = s.adm := rfl
@[simp] theorem setBay_tier (s : State) (b : Nat) (v : Bay) : (setBay s b v).tier = s.tier := rfl
@[simp] theorem setBay_rime (s : State) (b : Nat) (v : Bay) : (setBay s b v).rime = s.rime := rfl
@[simp] theorem setBay_cells (s : State) (b : Nat) (v : Bay) : (setBay s b v).cells = s.cells := rfl
@[simp] theorem setBay_health (s : State) (b : Nat) (v : Bay) : (setBay s b v).health = s.health := rfl
@[simp] theorem setBay_dict (s : State) (b : Nat) (v : Bay) : (setBay s b v).dict = s.dict := rfl
@[simp] theorem setBay_sb (s : State) (b : Nat) (v : Bay) : (setBay s b v).sb = s.sb := rfl
@[simp] theorem setBay_power (s : State) (b : Nat) (v : Bay) : (setBay s b v).power = s.power := rfl
@[simp] theorem setBay_sec (s : State) (b : Nat) (v : Bay) : (setBay s b v).sec = s.sec := rfl
@[simp] theorem setBay_tap (s : State) (b : Nat) (v : Bay) : (setBay s b v).tap = s.tap := rfl

@[simp] theorem updBay_pending (s : State) (b : Nat) (f : Bay → Bay) : (updBay s b f).pending = s.pending := rfl
@[simp] theorem updBay_free (s : State) (b : Nat) (f : Bay → Bay) : (updBay s b f).free = s.free := rfl
@[simp] theorem updBay_out (s : State) (b : Nat) (f : Bay → Bay) : (updBay s b f).out = s.out := rfl
@[simp] theorem updBay_time (s : State) (b : Nat) (f : Bay → Bay) : (updBay s b f).time = s.time := rfl
@[simp] theorem updBay_pins (s : State) (b : Nat) (f : Bay → Bay) : (updBay s b f).pins = s.pins := rfl
@[simp] theorem updBay_link (s : State) (b : Nat) (f : Bay → Bay) : (updBay s b f).link = s.link := rfl
@[simp] theorem updBay_queues (s : State) (b : Nat) (f : Bay → Bay) : (updBay s b f).queues = s.queues := rfl
@[simp] theorem updBay_indexes (s : State) (b : Nat) (f : Bay → Bay) : (updBay s b f).indexes = s.indexes := rfl
@[simp] theorem updBay_adm (s : State) (b : Nat) (f : Bay → Bay) : (updBay s b f).adm = s.adm := rfl
@[simp] theorem updBay_tier (s : State) (b : Nat) (f : Bay → Bay) : (updBay s b f).tier = s.tier := rfl
@[simp] theorem updBay_rime (s : State) (b : Nat) (f : Bay → Bay) : (updBay s b f).rime = s.rime := rfl
@[simp] theorem updBay_cells (s : State) (b : Nat) (f : Bay → Bay) : (updBay s b f).cells = s.cells := rfl
@[simp] theorem updBay_health (s : State) (b : Nat) (f : Bay → Bay) : (updBay s b f).health = s.health := rfl
@[simp] theorem updBay_dict (s : State) (b : Nat) (f : Bay → Bay) : (updBay s b f).dict = s.dict := rfl
@[simp] theorem updBay_sb (s : State) (b : Nat) (f : Bay → Bay) : (updBay s b f).sb = s.sb := rfl
@[simp] theorem updBay_power (s : State) (b : Nat) (f : Bay → Bay) : (updBay s b f).power = s.power := rfl
@[simp] theorem updBay_sec (s : State) (b : Nat) (f : Bay → Bay) : (updBay s b f).sec = s.sec := rfl
@[simp] theorem updBay_tap (s : State) (b : Nat) (f : Bay → Bay) : (updBay s b f).tap = s.tap := rfl

@[simp] theorem updCounters_pending (s : State) (b : Nat) (f : AdmCounters → AdmCounters) : (updCounters s b f).pending = s.pending := rfl
@[simp] theorem updCounters_free (s : State) (b : Nat) (f : AdmCounters → AdmCounters) : (updCounters s b f).free = s.free := rfl
@[simp] theorem updCounters_out (s : State) (b : Nat) (f : AdmCounters → AdmCounters) : (updCounters s b f).out = s.out := rfl
@[simp] theorem updCounters_time (s : State) (b : Nat) (f : AdmCounters → AdmCounters) : (updCounters s b f).time = s.time := rfl
@[simp] theorem updCounters_pins (s : State) (b : Nat) (f : AdmCounters → AdmCounters) : (updCounters s b f).pins = s.pins := rfl
@[simp] theorem updCounters_link (s : State) (b : Nat) (f : AdmCounters → AdmCounters) : (updCounters s b f).link = s.link := rfl
@[simp] theorem updCounters_queues (s : State) (b : Nat) (f : AdmCounters → AdmCounters) : (updCounters s b f).queues = s.queues := rfl
@[simp] theorem updCounters_indexes (s : State) (b : Nat) (f : AdmCounters → AdmCounters) : (updCounters s b f).indexes = s.indexes := rfl
@[simp] theorem updCounters_adm (s : State) (b : Nat) (f : AdmCounters → AdmCounters) : (updCounters s b f).adm = s.adm := rfl
@[simp] theorem updCounters_tier (s : State) (b : Nat) (f : AdmCounters → AdmCounters) : (updCounters s b f).tier = s.tier := rfl
@[simp] theorem updCounters_rime (s : State) (b : Nat) (f : AdmCounters → AdmCounters) : (updCounters s b f).rime = s.rime := rfl
@[simp] theorem updCounters_cells (s : State) (b : Nat) (f : AdmCounters → AdmCounters) : (updCounters s b f).cells = s.cells := rfl
@[simp] theorem updCounters_health (s : State) (b : Nat) (f : AdmCounters → AdmCounters) : (updCounters s b f).health = s.health := rfl
@[simp] theorem updCounters_dict (s : State) (b : Nat) (f : AdmCounters → AdmCounters) : (updCounters s b f).dict = s.dict := rfl
@[simp] theorem updCounters_sb (s : State) (b : Nat) (f : AdmCounters → AdmCounters) : (updCounters s b f).sb = s.sb := rfl
@[simp] theorem updCounters_power (s : State) (b : Nat) (f : AdmCounters → AdmCounters) : (updCounters s b f).power = s.power := rfl
@[simp] theorem updCounters_sec (s : State) (b : Nat) (f : AdmCounters → AdmCounters) : (updCounters s b f).sec = s.sec := rfl
@[simp] theorem updCounters_tap (s : State) (b : Nat) (f : AdmCounters → AdmCounters) : (updCounters s b f).tap = s.tap := rfl

@[simp] theorem updCtx_pending (s : State) (c : Nat) (f : Ctx → Ctx) : (updCtx s c f).pending = s.pending := rfl
@[simp] theorem updCtx_free (s : State) (c : Nat) (f : Ctx → Ctx) : (updCtx s c f).free = s.free := rfl
@[simp] theorem updCtx_out (s : State) (c : Nat) (f : Ctx → Ctx) : (updCtx s c f).out = s.out := rfl
@[simp] theorem updCtx_time (s : State) (c : Nat) (f : Ctx → Ctx) : (updCtx s c f).time = s.time := rfl
@[simp] theorem updCtx_pins (s : State) (c : Nat) (f : Ctx → Ctx) : (updCtx s c f).pins = s.pins := rfl
@[simp] theorem updCtx_link (s : State) (c : Nat) (f : Ctx → Ctx) : (updCtx s c f).link = s.link := rfl
@[simp] theorem updCtx_queues (s : State) (c : Nat) (f : Ctx → Ctx) : (updCtx s c f).queues = s.queues := rfl
@[simp] theorem updCtx_indexes (s : State) (c : Nat) (f : Ctx → Ctx) : (updCtx s c f).indexes = s.indexes := rfl
@[simp] theorem updCtx_adm (s : State) (c : Nat) (f : Ctx → Ctx) : (updCtx s c f).adm = s.adm := rfl
@[simp] theorem updCtx_tier (s : State) (c : Nat) (f : Ctx → Ctx) : (updCtx s c f).tier = s.tier := rfl
@[simp] theorem updCtx_rime (s : State) (c : Nat) (f : Ctx → Ctx) : (updCtx s c f).rime = s.rime := rfl
@[simp] theorem updCtx_cells (s : State) (c : Nat) (f : Ctx → Ctx) : (updCtx s c f).cells = s.cells := rfl
@[simp] theorem updCtx_health (s : State) (c : Nat) (f : Ctx → Ctx) : (updCtx s c f).health = s.health := rfl
@[simp] theorem updCtx_dict (s : State) (c : Nat) (f : Ctx → Ctx) : (updCtx s c f).dict = s.dict := rfl
@[simp] theorem updCtx_sb (s : State) (c : Nat) (f : Ctx → Ctx) : (updCtx s c f).sb = s.sb := rfl
@[simp] theorem updCtx_power (s : State) (c : Nat) (f : Ctx → Ctx) : (updCtx s c f).power = s.power := rfl
@[simp] theorem updCtx_sec (s : State) (c : Nat) (f : Ctx → Ctx) : (updCtx s c f).sec = s.sec := rfl
@[simp] theorem updCtx_tap (s : State) (c : Nat) (f : Ctx → Ctx) : (updCtx s c f).tap = s.tap := rfl

@[simp] theorem updPlan_pending (s : State) (h : Nat) (f : Plan → Plan) : (updPlan s h f).pending = s.pending := rfl
@[simp] theorem updPlan_free (s : State) (h : Nat) (f : Plan → Plan) : (updPlan s h f).free = s.free := rfl
@[simp] theorem updPlan_out (s : State) (h : Nat) (f : Plan → Plan) : (updPlan s h f).out = s.out := rfl
@[simp] theorem updPlan_time (s : State) (h : Nat) (f : Plan → Plan) : (updPlan s h f).time = s.time := rfl
@[simp] theorem updPlan_pins (s : State) (h : Nat) (f : Plan → Plan) : (updPlan s h f).pins = s.pins := rfl
@[simp] theorem updPlan_link (s : State) (h : Nat) (f : Plan → Plan) : (updPlan s h f).link = s.link := rfl
@[simp] theorem updPlan_queues (s : State) (h : Nat) (f : Plan → Plan) : (updPlan s h f).queues = s.queues := rfl
@[simp] theorem updPlan_indexes (s : State) (h : Nat) (f : Plan → Plan) : (updPlan s h f).indexes = s.indexes := rfl
@[simp] theorem updPlan_adm (s : State) (h : Nat) (f : Plan → Plan) : (updPlan s h f).adm = s.adm := rfl
@[simp] theorem updPlan_tier (s : State) (h : Nat) (f : Plan → Plan) : (updPlan s h f).tier = s.tier := rfl
@[simp] theorem updPlan_rime (s : State) (h : Nat) (f : Plan → Plan) : (updPlan s h f).rime = s.rime := rfl
@[simp] theorem updPlan_cells (s : State) (h : Nat) (f : Plan → Plan) : (updPlan s h f).cells = s.cells := rfl
@[simp] theorem updPlan_health (s : State) (h : Nat) (f : Plan → Plan) : (updPlan s h f).health = s.health := rfl
@[simp] theorem updPlan_dict (s : State) (h : Nat) (f : Plan → Plan) : (updPlan s h f).dict = s.dict := rfl
@[simp] theorem updPlan_sb (s : State) (h : Nat) (f : Plan → Plan) : (updPlan s h f).sb = s.sb := rfl
@[simp] theorem updPlan_power (s : State) (h : Nat) (f : Plan → Plan) : (updPlan s h f).power = s.power := rfl
@[simp] theorem updPlan_sec (s : State) (h : Nat) (f : Plan → Plan) : (updPlan s h f).sec = s.sec := rfl
@[simp] theorem updPlan_tap (s : State) (h : Nat) (f : Plan → Plan) : (updPlan s h f).tap = s.tap := rfl

@[simp] theorem updPeg_pending (s : State) (p : Nat) (f : Peg → Peg) : (updPeg s p f).pending = s.pending := rfl
@[simp] theorem updPeg_free (s : State) (p : Nat) (f : Peg → Peg) : (updPeg s p f).free = s.free := rfl
@[simp] theorem updPeg_out (s : State) (p : Nat) (f : Peg → Peg) : (updPeg s p f).out = s.out := rfl
@[simp] theorem updPeg_time (s : State) (p : Nat) (f : Peg → Peg) : (updPeg s p f).time = s.time := rfl
@[simp] theorem updPeg_pins (s : State) (p : Nat) (f : Peg → Peg) : (updPeg s p f).pins = s.pins := rfl
@[simp] theorem updPeg_link (s : State) (p : Nat) (f : Peg → Peg) : (updPeg s p f).link = s.link := rfl
@[simp] theorem updPeg_queues (s : State) (p : Nat) (f : Peg → Peg) : (updPeg s p f).queues = s.queues := rfl
@[simp] theorem updPeg_indexes (s : State) (p : Nat) (f : Peg → Peg) : (updPeg s p f).indexes = s.indexes := rfl
@[simp] theorem updPeg_adm (s : State) (p : Nat) (f : Peg → Peg) : (updPeg s p f).adm = s.adm := rfl
@[simp] theorem updPeg_tier (s : State) (p : Nat) (f : Peg → Peg) : (updPeg s p f).tier = s.tier := rfl
@[simp] theorem updPeg_rime (s : State) (p : Nat) (f : Peg → Peg) : (updPeg s p f).rime = s.rime := rfl
@[simp] theorem updPeg_cells (s : State) (p : Nat) (f : Peg → Peg) : (updPeg s p f).cells = s.cells := rfl
@[simp] theorem updPeg_health (s : State) (p : Nat) (f : Peg → Peg) : (updPeg s p f).health = s.health := rfl
@[simp] theorem updPeg_dict (s : State) (p : Nat) (f : Peg → Peg) : (updPeg s p f).dict = s.dict := rfl
@[simp] theorem updPeg_sb (s : State) (p : Nat) (f : Peg → Peg) : (updPeg s p f).sb = s.sb := rfl
@[simp] theorem updPeg_power (s : State) (p : Nat) (f : Peg → Peg) : (updPeg s p f).power = s.power := rfl
@[simp] theorem updPeg_sec (s : State) (p : Nat) (f : Peg → Peg) : (updPeg s p f).sec = s.sec := rfl
@[simp] theorem updPeg_tap (s : State) (p : Nat) (f : Peg → Peg) : (updPeg s p f).tap = s.tap := rfl

@[simp] theorem addPeg_pending (s : State) (p : Peg) : (addPeg s p).pending = s.pending := rfl
@[simp] theorem addPeg_free (s : State) (p : Peg) : (addPeg s p).free = s.free := rfl
@[simp] theorem addPeg_out (s : State) (p : Peg) : (addPeg s p).out = s.out := rfl
@[simp] theorem addPeg_time (s : State) (p : Peg) : (addPeg s p).time = s.time := rfl
@[simp] theorem addPeg_pins (s : State) (p : Peg) : (addPeg s p).pins = s.pins := rfl
@[simp] theorem addPeg_link (s : State) (p : Peg) : (addPeg s p).link = s.link := rfl
@[simp] theorem addPeg_queues (s : State) (p : Peg) : (addPeg s p).queues = s.queues := rfl
@[simp] theorem addPeg_indexes (s : State) (p : Peg) : (addPeg s p).indexes = s.indexes := rfl
@[simp] theorem addPeg_adm (s : State) (p : Peg) : (addPeg s p).adm = s.adm := rfl
@[simp] theorem addPeg_tier (s : State) (p : Peg) : (addPeg s p).tier = s.tier := rfl
@[simp] theorem addPeg_rime (s : State) (p : Peg) : (addPeg s p).rime = s.rime := rfl
@[simp] theorem addPeg_cells (s : State) (p : Peg) : (addPeg s p).cells = s.cells := rfl
@[simp] theorem addPeg_health (s : State) (p : Peg) : (addPeg s p).health = s.health := rfl
@[simp] theorem addPeg_dict (s : State) (p : Peg) : (addPeg s p).dict = s.dict := rfl
@[simp] theorem addPeg_sb (s : State) (p : Peg) : (addPeg s p).sb = s.sb := rfl
@[simp] theorem addPeg_power (s : State) (p : Peg) : (addPeg s p).power = s.power := rfl
@[simp] theorem addPeg_sec (s : State) (p : Peg) : (addPeg s p).sec = s.sec := rfl
@[simp] theorem addPeg_tap (s : State) (p : Peg) : (addPeg s p).tap = s.tap := rfl

@[simp] theorem updQuery_pending (s : State) (slot : Nat) (f : Query → Query) : (updQuery s slot f).pending = s.pending := rfl
@[simp] theorem updQuery_free (s : State) (slot : Nat) (f : Query → Query) : (updQuery s slot f).free = s.free := rfl
@[simp] theorem updQuery_out (s : State) (slot : Nat) (f : Query → Query) : (updQuery s slot f).out = s.out := rfl
@[simp] theorem updQuery_time (s : State) (slot : Nat) (f : Query → Query) : (updQuery s slot f).time = s.time := rfl
@[simp] theorem updQuery_pins (s : State) (slot : Nat) (f : Query → Query) : (updQuery s slot f).pins = s.pins := rfl
@[simp] theorem updQuery_link (s : State) (slot : Nat) (f : Query → Query) : (updQuery s slot f).link = s.link := rfl
@[simp] theorem updQuery_queues (s : State) (slot : Nat) (f : Query → Query) : (updQuery s slot f).queues = s.queues := rfl
@[simp] theorem updQuery_indexes (s : State) (slot : Nat) (f : Query → Query) : (updQuery s slot f).indexes = s.indexes := rfl
@[simp] theorem updQuery_bay (s : State) (slot : Nat) (f : Query → Query) : (updQuery s slot f).bay = s.bay := rfl
@[simp] theorem updQuery_tier (s : State) (slot : Nat) (f : Query → Query) : (updQuery s slot f).tier = s.tier := rfl
@[simp] theorem updQuery_rime (s : State) (slot : Nat) (f : Query → Query) : (updQuery s slot f).rime = s.rime := rfl
@[simp] theorem updQuery_cells (s : State) (slot : Nat) (f : Query → Query) : (updQuery s slot f).cells = s.cells := rfl
@[simp] theorem updQuery_health (s : State) (slot : Nat) (f : Query → Query) : (updQuery s slot f).health = s.health := rfl
@[simp] theorem updQuery_dict (s : State) (slot : Nat) (f : Query → Query) : (updQuery s slot f).dict = s.dict := rfl
@[simp] theorem updQuery_sb (s : State) (slot : Nat) (f : Query → Query) : (updQuery s slot f).sb = s.sb := rfl
@[simp] theorem updQuery_power (s : State) (slot : Nat) (f : Query → Query) : (updQuery s slot f).power = s.power := rfl
@[simp] theorem updQuery_sec (s : State) (slot : Nat) (f : Query → Query) : (updQuery s slot f).sec = s.sec := rfl
@[simp] theorem updQuery_tap (s : State) (slot : Nat) (f : Query → Query) : (updQuery s slot f).tap = s.tap := rfl

@[simp] theorem dropQueries_pending (s : State) (p : Query → Bool) : (dropQueries s p).pending = s.pending := rfl
@[simp] theorem dropQueries_free (s : State) (p : Query → Bool) : (dropQueries s p).free = s.free := rfl
@[simp] theorem dropQueries_out (s : State) (p : Query → Bool) : (dropQueries s p).out = s.out := rfl
@[simp] theorem dropQueries_time (s : State) (p : Query → Bool) : (dropQueries s p).time = s.time := rfl
@[simp] theorem dropQueries_pins (s : State) (p : Query → Bool) : (dropQueries s p).pins = s.pins := rfl
@[simp] theorem dropQueries_link (s : State) (p : Query → Bool) : (dropQueries s p).link = s.link := rfl
@[simp] theorem dropQueries_queues (s : State) (p : Query → Bool) : (dropQueries s p).queues = s.queues := rfl
@[simp] theorem dropQueries_indexes (s : State) (p : Query → Bool) : (dropQueries s p).indexes = s.indexes := rfl
@[simp] theorem dropQueries_bay (s : State) (p : Query → Bool) : (dropQueries s p).bay = s.bay := rfl
@[simp] theorem dropQueries_tier (s : State) (p : Query → Bool) : (dropQueries s p).tier = s.tier := rfl
@[simp] theorem dropQueries_rime (s : State) (p : Query → Bool) : (dropQueries s p).rime = s.rime := rfl
@[simp] theorem dropQueries_cells (s : State) (p : Query → Bool) : (dropQueries s p).cells = s.cells := rfl
@[simp] theorem dropQueries_health (s : State) (p : Query → Bool) : (dropQueries s p).health = s.health := rfl
@[simp] theorem dropQueries_dict (s : State) (p : Query → Bool) : (dropQueries s p).dict = s.dict := rfl
@[simp] theorem dropQueries_sb (s : State) (p : Query → Bool) : (dropQueries s p).sb = s.sb := rfl
@[simp] theorem dropQueries_power (s : State) (p : Query → Bool) : (dropQueries s p).power = s.power := rfl
@[simp] theorem dropQueries_sec (s : State) (p : Query → Bool) : (dropQueries s p).sec = s.sec := rfl
@[simp] theorem dropQueries_tap (s : State) (p : Query → Bool) : (dropQueries s p).tap = s.tap := rfl

@[simp] theorem updIndex_pending (s : State) (n : Nat) (f : Index → Index) : (updIndex s n f).pending = s.pending := rfl
@[simp] theorem updIndex_free (s : State) (n : Nat) (f : Index → Index) : (updIndex s n f).free = s.free := rfl
@[simp] theorem updIndex_out (s : State) (n : Nat) (f : Index → Index) : (updIndex s n f).out = s.out := rfl
@[simp] theorem updIndex_time (s : State) (n : Nat) (f : Index → Index) : (updIndex s n f).time = s.time := rfl
@[simp] theorem updIndex_pins (s : State) (n : Nat) (f : Index → Index) : (updIndex s n f).pins = s.pins := rfl
@[simp] theorem updIndex_link (s : State) (n : Nat) (f : Index → Index) : (updIndex s n f).link = s.link := rfl
@[simp] theorem updIndex_queues (s : State) (n : Nat) (f : Index → Index) : (updIndex s n f).queues = s.queues := rfl
@[simp] theorem updIndex_bay (s : State) (n : Nat) (f : Index → Index) : (updIndex s n f).bay = s.bay := rfl
@[simp] theorem updIndex_adm (s : State) (n : Nat) (f : Index → Index) : (updIndex s n f).adm = s.adm := rfl
@[simp] theorem updIndex_tier (s : State) (n : Nat) (f : Index → Index) : (updIndex s n f).tier = s.tier := rfl
@[simp] theorem updIndex_rime (s : State) (n : Nat) (f : Index → Index) : (updIndex s n f).rime = s.rime := rfl
@[simp] theorem updIndex_cells (s : State) (n : Nat) (f : Index → Index) : (updIndex s n f).cells = s.cells := rfl
@[simp] theorem updIndex_health (s : State) (n : Nat) (f : Index → Index) : (updIndex s n f).health = s.health := rfl
@[simp] theorem updIndex_dict (s : State) (n : Nat) (f : Index → Index) : (updIndex s n f).dict = s.dict := rfl
@[simp] theorem updIndex_sb (s : State) (n : Nat) (f : Index → Index) : (updIndex s n f).sb = s.sb := rfl
@[simp] theorem updIndex_power (s : State) (n : Nat) (f : Index → Index) : (updIndex s n f).power = s.power := rfl
@[simp] theorem updIndex_sec (s : State) (n : Nat) (f : Index → Index) : (updIndex s n f).sec = s.sec := rfl
@[simp] theorem updIndex_tap (s : State) (n : Nat) (f : Index → Index) : (updIndex s n f).tap = s.tap := rfl

@[simp] theorem setFrame_pending (s : State) (e : Frame_) : (setFrame s e).pending = s.pending := by unfold setFrame; dsimp only; split <;> rfl
@[simp] theorem setFrame_free (s : State) (e : Frame_) : (setFrame s e).free = s.free := by unfold setFrame; dsimp only; split <;> rfl
@[simp] theorem setFrame_out (s : State) (e : Frame_) : (setFrame s e).out = s.out := by unfold setFrame; dsimp only; split <;> rfl
@[simp] theorem setFrame_time (s : State) (e : Frame_) : (setFrame s e).time = s.time := by unfold setFrame; dsimp only; split <;> rfl
@[simp] theorem setFrame_pins (s : State) (e : Frame_) : (setFrame s e).pins = s.pins := by unfold setFrame; dsimp only; split <;> rfl
@[simp] theorem setFrame_link (s : State) (e : Frame_) : (setFrame s e).link = s.link := by unfold setFrame; dsimp only; split <;> rfl
@[simp] theorem setFrame_queues (s : State) (e : Frame_) : (setFrame s e).queues = s.queues := by unfold setFrame; dsimp only; split <;> rfl
@[simp] theorem setFrame_indexes (s : State) (e : Frame_) : (setFrame s e).indexes = s.indexes := by unfold setFrame; dsimp only; split <;> rfl
@[simp] theorem setFrame_bay (s : State) (e : Frame_) : (setFrame s e).bay = s.bay := by unfold setFrame; dsimp only; split <;> rfl
@[simp] theorem setFrame_adm (s : State) (e : Frame_) : (setFrame s e).adm = s.adm := by unfold setFrame; dsimp only; split <;> rfl
@[simp] theorem setFrame_rime (s : State) (e : Frame_) : (setFrame s e).rime = s.rime := by unfold setFrame; dsimp only; split <;> rfl
@[simp] theorem setFrame_cells (s : State) (e : Frame_) : (setFrame s e).cells = s.cells := by unfold setFrame; dsimp only; split <;> rfl
@[simp] theorem setFrame_health (s : State) (e : Frame_) : (setFrame s e).health = s.health := by unfold setFrame; dsimp only; split <;> rfl
@[simp] theorem setFrame_dict (s : State) (e : Frame_) : (setFrame s e).dict = s.dict := by unfold setFrame; dsimp only; split <;> rfl
@[simp] theorem setFrame_sb (s : State) (e : Frame_) : (setFrame s e).sb = s.sb := by unfold setFrame; dsimp only; split <;> rfl
@[simp] theorem setFrame_power (s : State) (e : Frame_) : (setFrame s e).power = s.power := by unfold setFrame; dsimp only; split <;> rfl
@[simp] theorem setFrame_sec (s : State) (e : Frame_) : (setFrame s e).sec = s.sec := by unfold setFrame; dsimp only; split <;> rfl
@[simp] theorem setFrame_tap (s : State) (e : Frame_) : (setFrame s e).tap = s.tap := by unfold setFrame; dsimp only; split <;> rfl

@[simp] theorem updFrame_pending (s : State) (d : Nat) (f : Frame_ → Frame_) : (updFrame s d f).pending = s.pending := setFrame_pending _ _
@[simp] theorem updFrame_free (s : State) (d : Nat) (f : Frame_ → Frame_) : (updFrame s d f).free = s.free := setFrame_free _ _
@[simp] theorem updFrame_out (s : State) (d : Nat) (f : Frame_ → Frame_) : (updFrame s d f).out = s.out := setFrame_out _ _
@[simp] theorem updFrame_time (s : State) (d : Nat) (f : Frame_ → Frame_) : (updFrame s d f).time = s.time := setFrame_time _ _
@[simp] theorem updFrame_pins (s : State) (d : Nat) (f : Frame_ → Frame_) : (updFrame s d f).pins = s.pins := setFrame_pins _ _
@[simp] theorem updFrame_link (s : State) (d : Nat) (f : Frame_ → Frame_) : (updFrame s d f).link = s.link := setFrame_link _ _
@[simp] theorem updFrame_queues (s : State) (d : Nat) (f : Frame_ → Frame_) : (updFrame s d f).queues = s.queues := setFrame_queues _ _
@[simp] theorem updFrame_indexes (s : State) (d : Nat) (f : Frame_ → Frame_) : (updFrame s d f).indexes = s.indexes := setFrame_indexes _ _
@[simp] theorem updFrame_bay (s : State) (d : Nat) (f : Frame_ → Frame_) : (updFrame s d f).bay = s.bay := setFrame_bay _ _
@[simp] theorem updFrame_adm (s : State) (d : Nat) (f : Frame_ → Frame_) : (updFrame s d f).adm = s.adm := setFrame_adm _ _
@[simp] theorem updFrame_rime (s : State) (d : Nat) (f : Frame_ → Frame_) : (updFrame s d f).rime = s.rime := setFrame_rime _ _
@[simp] theorem updFrame_cells (s : State) (d : Nat) (f : Frame_ → Frame_) : (updFrame s d f).cells = s.cells := setFrame_cells _ _
@[simp] theorem updFrame_health (s : State) (d : Nat) (f : Frame_ → Frame_) : (updFrame s d f).health = s.health := setFrame_health _ _
@[simp] theorem updFrame_dict (s : State) (d : Nat) (f : Frame_ → Frame_) : (updFrame s d f).dict = s.dict := setFrame_dict _ _
@[simp] theorem updFrame_sb (s : State) (d : Nat) (f : Frame_ → Frame_) : (updFrame s d f).sb = s.sb := setFrame_sb _ _
@[simp] theorem updFrame_power (s : State) (d : Nat) (f : Frame_ → Frame_) : (updFrame s d f).power = s.power := setFrame_power _ _
@[simp] theorem updFrame_sec (s : State) (d : Nat) (f : Frame_ → Frame_) : (updFrame s d f).sec = s.sec := setFrame_sec _ _
@[simp] theorem updFrame_tap (s : State) (d : Nat) (f : Frame_ → Frame_) : (updFrame s d f).tap = s.tap := setFrame_tap _ _

@[simp] theorem setDomain_pending (s : State) (d : Domain) : (setDomain s d).pending = s.pending := rfl
@[simp] theorem setDomain_free (s : State) (d : Domain) : (setDomain s d).free = s.free := rfl
@[simp] theorem setDomain_out (s : State) (d : Domain) : (setDomain s d).out = s.out := rfl
@[simp] theorem setDomain_time (s : State) (d : Domain) : (setDomain s d).time = s.time := rfl
@[simp] theorem setDomain_pins (s : State) (d : Domain) : (setDomain s d).pins = s.pins := rfl
@[simp] theorem setDomain_link (s : State) (d : Domain) : (setDomain s d).link = s.link := rfl
@[simp] theorem setDomain_queues (s : State) (d : Domain) : (setDomain s d).queues = s.queues := rfl
@[simp] theorem setDomain_indexes (s : State) (d : Domain) : (setDomain s d).indexes = s.indexes := rfl
@[simp] theorem setDomain_bay (s : State) (d : Domain) : (setDomain s d).bay = s.bay := rfl
@[simp] theorem setDomain_adm (s : State) (d : Domain) : (setDomain s d).adm = s.adm := rfl
@[simp] theorem setDomain_tier (s : State) (d : Domain) : (setDomain s d).tier = s.tier := rfl
@[simp] theorem setDomain_rime (s : State) (d : Domain) : (setDomain s d).rime = s.rime := rfl
@[simp] theorem setDomain_cells (s : State) (d : Domain) : (setDomain s d).cells = s.cells := rfl
@[simp] theorem setDomain_health (s : State) (d : Domain) : (setDomain s d).health = s.health := rfl
@[simp] theorem setDomain_dict (s : State) (d : Domain) : (setDomain s d).dict = s.dict := rfl
@[simp] theorem setDomain_sb (s : State) (d : Domain) : (setDomain s d).sb = s.sb := rfl
@[simp] theorem setDomain_sec (s : State) (d : Domain) : (setDomain s d).sec = s.sec := rfl
@[simp] theorem setDomain_tap (s : State) (d : Domain) : (setDomain s d).tap = s.tap := rfl

@[simp] theorem setDict_pending (s : State) (i j v : Nat) : (setDict s i j v).pending = s.pending := rfl
@[simp] theorem setDict_free (s : State) (i j v : Nat) : (setDict s i j v).free = s.free := rfl
@[simp] theorem setDict_out (s : State) (i j v : Nat) : (setDict s i j v).out = s.out := rfl
@[simp] theorem setDict_time (s : State) (i j v : Nat) : (setDict s i j v).time = s.time := rfl
@[simp] theorem setDict_pins (s : State) (i j v : Nat) : (setDict s i j v).pins = s.pins := rfl
@[simp] theorem setDict_link (s : State) (i j v : Nat) : (setDict s i j v).link = s.link := rfl
@[simp] theorem setDict_queues (s : State) (i j v : Nat) : (setDict s i j v).queues = s.queues := rfl
@[simp] theorem setDict_indexes (s : State) (i j v : Nat) : (setDict s i j v).indexes = s.indexes := rfl
@[simp] theorem setDict_bay (s : State) (i j v : Nat) : (setDict s i j v).bay = s.bay := rfl
@[simp] theorem setDict_adm (s : State) (i j v : Nat) : (setDict s i j v).adm = s.adm := rfl
@[simp] theorem setDict_tier (s : State) (i j v : Nat) : (setDict s i j v).tier = s.tier := rfl
@[simp] theorem setDict_rime (s : State) (i j v : Nat) : (setDict s i j v).rime = s.rime := rfl
@[simp] theorem setDict_cells (s : State) (i j v : Nat) : (setDict s i j v).cells = s.cells := rfl
@[simp] theorem setDict_health (s : State) (i j v : Nat) : (setDict s i j v).health = s.health := rfl
@[simp] theorem setDict_sb (s : State) (i j v : Nat) : (setDict s i j v).sb = s.sb := rfl
@[simp] theorem setDict_power (s : State) (i j v : Nat) : (setDict s i j v).power = s.power := rfl
@[simp] theorem setDict_sec (s : State) (i j v : Nat) : (setDict s i j v).sec = s.sec := rfl
@[simp] theorem setDict_tap (s : State) (i j v : Nat) : (setDict s i j v).tap = s.tap := rfl

@[simp] theorem updLinkCounters_pending (s : State) (fn : Nat) (f : LinkCounters → LinkCounters) : (updLinkCounters s fn f).pending = s.pending := rfl
@[simp] theorem updLinkCounters_free (s : State) (fn : Nat) (f : LinkCounters → LinkCounters) : (updLinkCounters s fn f).free = s.free := rfl
@[simp] theorem updLinkCounters_out (s : State) (fn : Nat) (f : LinkCounters → LinkCounters) : (updLinkCounters s fn f).out = s.out := rfl
@[simp] theorem updLinkCounters_time (s : State) (fn : Nat) (f : LinkCounters → LinkCounters) : (updLinkCounters s fn f).time = s.time := rfl
@[simp] theorem updLinkCounters_pins (s : State) (fn : Nat) (f : LinkCounters → LinkCounters) : (updLinkCounters s fn f).pins = s.pins := rfl
@[simp] theorem updLinkCounters_queues (s : State) (fn : Nat) (f : LinkCounters → LinkCounters) : (updLinkCounters s fn f).queues = s.queues := rfl
@[simp] theorem updLinkCounters_indexes (s : State) (fn : Nat) (f : LinkCounters → LinkCounters) : (updLinkCounters s fn f).indexes = s.indexes := rfl
@[simp] theorem updLinkCounters_bay (s : State) (fn : Nat) (f : LinkCounters → LinkCounters) : (updLinkCounters s fn f).bay = s.bay := rfl
@[simp] theorem updLinkCounters_adm (s : State) (fn : Nat) (f : LinkCounters → LinkCounters) : (updLinkCounters s fn f).adm = s.adm := rfl
@[simp] theorem updLinkCounters_tier (s : State) (fn : Nat) (f : LinkCounters → LinkCounters) : (updLinkCounters s fn f).tier = s.tier := rfl
@[simp] theorem updLinkCounters_rime (s : State) (fn : Nat) (f : LinkCounters → LinkCounters) : (updLinkCounters s fn f).rime = s.rime := rfl
@[simp] theorem updLinkCounters_cells (s : State) (fn : Nat) (f : LinkCounters → LinkCounters) : (updLinkCounters s fn f).cells = s.cells := rfl
@[simp] theorem updLinkCounters_health (s : State) (fn : Nat) (f : LinkCounters → LinkCounters) : (updLinkCounters s fn f).health = s.health := rfl
@[simp] theorem updLinkCounters_dict (s : State) (fn : Nat) (f : LinkCounters → LinkCounters) : (updLinkCounters s fn f).dict = s.dict := rfl
@[simp] theorem updLinkCounters_sb (s : State) (fn : Nat) (f : LinkCounters → LinkCounters) : (updLinkCounters s fn f).sb = s.sb := rfl
@[simp] theorem updLinkCounters_power (s : State) (fn : Nat) (f : LinkCounters → LinkCounters) : (updLinkCounters s fn f).power = s.power := rfl
@[simp] theorem updLinkCounters_sec (s : State) (fn : Nat) (f : LinkCounters → LinkCounters) : (updLinkCounters s fn f).sec = s.sec := rfl
@[simp] theorem updLinkCounters_tap (s : State) (fn : Nat) (f : LinkCounters → LinkCounters) : (updLinkCounters s fn f).tap = s.tap := rfl

end Sys2Proof.Machine
end

