-- ==== Sys2Proof/Laws/Frames.lean ====
section
/-! SUPPORT. What each shared operation can change: its result is the state before with the named components of the result, and
nothing else. Callers rewrite with these instead of unfolding the operation. -/

namespace Sys2Proof.Machine

open Sys2Proof

/-- A fold of an operation that changes one component changes that component alone. -/
theorem foldl_power {α : Type} (f : State → α → State) (hf : ∀ s a, f s a = { s with power := (f s a).power }) (l : List α) (s : State) :
    l.foldl f s = { s with power := (l.foldl f s).power } := by
  induction l generalizing s with
  | nil => rfl
  | cons a l ih => rw [List.foldl_cons, ih (f s a), hf s a]

/-! Domains (R341 to R348). -/

theorem wakeOne_frame (s : State) (n source : Nat) : wakeOne s n source = { s with power := (wakeOne s n source).power } := by
  unfold wakeOne
  dsimp only
  (repeat' split) <;> rfl

theorem startWake_frame (s : State) (n source : Nat) : startWake s n source = { s with power := (startWake s n source).power } := by
  have fab : ∀ c, wakeOne (if wakesFromOff s 3 then (List.range 16).foldl (fun st p => wakeOne st (lpcDomain p) 0x08) s else s) 3 c =
      { s with power := (wakeOne (if wakesFromOff s 3 then (List.range 16).foldl (fun st p => wakeOne st (lpcDomain p) 0x08) s
        else s) 3 c).power } := by
    intro c
    split
    · rw [wakeOne_frame, foldl_power _ (fun s p => wakeOne_frame s (lpcDomain p) _)]
    · exact wakeOne_frame s 3 c
  unfold startWake
  dsimp only
  split
  · exact fab source
  · split
    · exact wakeOne_frame s n source
    · rw [wakeOne_frame, fab]

theorem wakeCapped_frame (s : State) : wakeCapped s = { s with power := (wakeCapped s).power } :=
  foldl_power _ (fun s a => startWake_frame s a _) _ s

/-! Queues and results (R84, R258 to R262, R271). -/

theorem updQueue_frame (s : State) (q : Nat) (f : Queue → Queue) : updQueue s q f = { s with queues := (updQueue s q f).queues } := by
  unfold updQueue
  split <;> rfl

theorem updCmd_frame (s : State) (q cid : Nat) (f : Cmd → Cmd) : updCmd s q cid f = { s with queues := (updCmd s q cid f).queues } :=
  updQueue_frame _ _ _

theorem startCmd_frame (s : State) (q : Nat) (c : Cmd) (f : Cmd → Cmd) :
    startCmd s q c f = { s with queues := (startCmd s q c f).queues } :=
  updQueue_frame _ _ _

theorem raiseVector_frame (s : State) (fn v : Nat) :
    raiseVector s fn v = { s with queues := (raiseVector s fn v).queues, out := (raiseVector s fn v).out } := by
  unfold raiseVector
  split <;> rfl

theorem sendMsix_frame (s : State) (q : Nat) :
    sendMsix s q = { s with queues := (sendMsix s q).queues, out := (sendMsix s q).out } := by
  unfold sendMsix
  split
  · rw [raiseVector_frame, updQueue_frame]
  · rfl

theorem afterCommit_frame (s : State) (q : Nat) :
    afterCommit s q = { s with queues := (afterCommit s q).queues, out := (afterCommit s q).out } := by
  unfold afterCommit
  split
  · split
    · rfl
    · dsimp only
      split
      · rw [sendMsix_frame, updQueue_frame]
      · rw [updQueue_frame]
  · rfl

theorem commitEntry_frame (s : State) (d : Deferred) :
    commitEntry s d = { s with queues := (commitEntry s d).queues, out := (commitEntry s d).out } := by
  unfold commitEntry
  split
  · rfl
  · dsimp only
    split
    · rw [afterCommit_frame]
      unfold countAfterDelete updPair emit
      rw [updQueue_frame]
    · rfl

/-- A completion changes the queues and what leaves the module, and nothing else. -/
theorem postRecord_frame (s : State) (q : Nat) (c : Cmd) (status result nacc ndiff : Nat) :
    postRecord s q c status result nacc ndiff =
      { s with queues := (postRecord s q c status result nacc ndiff).queues, out := (postRecord s q c status result nacc ndiff).out } := by
  unfold postRecord
  split
  · rfl
  · dsimp only
    split
    · rw [updQueue_frame]
    · rw [commitEntry_frame, updQueue_frame]

theorem endCmd_frame (s : State) (q : Nat) (c : Cmd) (status result : Nat) :
    endCmd s q c status result = { s with queues := (endCmd s q c status result).queues, out := (endCmd s q c status result).out } :=
  postRecord_frame _ _ _ _ _ _ _

theorem writeHeader_frame (s : State) (q cid pos : Nat) (h : Header) :
    writeHeader s q cid pos h = { s with queues := (writeHeader s q cid pos h).queues, out := (writeHeader s q cid pos h).out } := by
  unfold writeHeader emit
  rw [updCmd_frame]

theorem dropQueries_frame (s : State) (p : Query → Bool) : dropQueries s p = { s with adm := (dropQueries s p).adm } := rfl

/-- The end of a query changes the queues, what leaves the module and the query slots. -/
theorem endQuery_frame (s : State) (x : Query) (h : Header) :
    endQuery s x h =
      { s with queues := (endQuery s x h).queues, out := (endQuery s x h).out, adm := (endQuery s x h).adm } := by
  unfold endQuery updQuery
  rw [writeHeader_frame]

theorem failQuery_frame (s : State) (x : Query) (status : Nat) :
    failQuery s x status =
      { s with queues := (failQuery s x status).queues, out := (failQuery s x status).out, adm := (failQuery s x status).adm } :=
  endQuery_frame _ _ _

theorem postBatch_frame (s : State) (q cid : Nat) :
    postBatch s q cid =
      { s with queues := (postBatch s q cid).queues, out := (postBatch s q cid).out, adm := (postBatch s q cid).adm,
               bay := (postBatch s q cid).bay } := by
  unfold postBatch
  split
  · rfl
  · dsimp only
    split <;> (rw [postRecord_frame]; rfl)

/-- The acceptance of a query changes the slots, the bay's counters, its command's record and the domains. -/
theorem acceptQuery_frame (s : State) (p : Plan) (x : Query) (offset : Nat) :
    acceptQuery s p x offset =
      { s with queues := (acceptQuery s p x offset).queues, adm := (acceptQuery s p x offset).adm, bay := (acceptQuery s p x offset).bay,
               power := (acceptQuery s p x offset).power } := by
  unfold acceptQuery
  dsimp only
  rw [foldl_power _ (fun s a => startWake_frame s a _), updCmd_frame]
  rfl

/-! The link and the log (R245, R319, R374, R375). -/

theorem hostRead_frame (s : State) (addr n : Nat) : hostRead s addr n = { s with link := (hostRead s addr n).link } := by
  unfold hostRead
  split <;> rfl

theorem setFrame_frame (s : State) (e : Frame_) : setFrame s e = { s with tier := (setFrame s e).tier } := by
  unfold setFrame
  dsimp only
  split <;> rfl

theorem touchPage_frame (s : State) (page h : Nat) : touchPage s page h = { s with tier := (touchPage s page h).tier } := by
  unfold touchPage
  (repeat' split) <;> first | rfl | exact setFrame_frame _ _

/-- A block read without wrong bytes is delivered as it stands. -/
@[simp] theorem readBlock_nil (s : State) (a : Nat) : readBlock s a [] = (s, devRead s a 64, devPoison s a) := by
  unfold readBlock codewordErrors
  dsimp only
  split <;> simp

theorem answerRead_frame (s : State) (a : Nat) :
    answerRead s a = { s with tier := (answerRead s a).tier, out := (answerRead s a).out } := by
  unfold answerRead emit
  dsimp only
  simp only [readBlock_nil]
  split
  · rfl
  · rw [touchPage_frame]

theorem sendEvent_frame (s : State) (code : Nat) (data : Word64) :
    sendEvent s code data = { s with sb := (sendEvent s code data).sb, out := (sendEvent s code data).out } := rfl

/-- A log entry changes the log, and with an ALERT the event list, what leaves the module and ALERT_N. -/
theorem logEntry_frame (s : State) (cls sev unit detail : Nat) (ctx : Option (Nat × Nat)) :
    logEntry s cls sev unit detail ctx =
      { s with health := (logEntry s cls sev unit detail ctx).health, sb := (logEntry s cls sev unit detail ctx).sb,
               out := (logEntry s cls sev unit detail ctx).out, pins := (logEntry s cls sev unit detail ctx).pins } := by
  unfold logEntry
  dsimp only
  split <;> rfl

theorem logError_frame (s : State) (cls unit detail : Nat) (ctx : Option (Nat × Nat)) :
    logError s cls unit detail ctx =
      { s with health := (logError s cls unit detail ctx).health, sb := (logError s cls unit detail ctx).sb,
               out := (logError s cls unit detail ctx).out, pins := (logError s cls unit detail ctx).pins } :=
  logEntry_frame _ _ _ _ _ _

theorem raiseEvent_frame (s : State) (code : Nat) (data : Word64) :
    raiseEvent s code data =
      { s with free := s.free + 1, health := (raiseEvent s code data).health, sb := (raiseEvent s code data).sb,
               out := (raiseEvent s code data).out } := rfl

theorem logMoraine_frame (s : State) (kind unit : Nat) (v0 v1 v2 v3 limit : Word32) :
    logMoraine s kind unit v0 v1 v2 v3 limit = { s with health := (logMoraine s kind unit v0 v1 v2 v3 limit).health } := rfl

theorem refreshReady_frame (s : State) :
    refreshReady s = { s with link := (refreshReady s).link, pins := (refreshReady s).pins } := rfl

theorem clearKeys_frame (s : State) : clearKeys s = { s with link := (clearKeys s).link } := rfl

/-! Firmware and objects (R323, R396, R397, R402). -/

theorem applyObject_frame (s : State) (i j v : Nat) : applyObject s i j v = { s with dict := (applyObject s i j v).dict } := by
  unfold applyObject keepObject
  (repeat' split) <;> rfl

theorem writeCopies_frame (s : State) (f : FwImage) (m0 m1 : Media) :
    (writeCopies s f m0 m1).1 = { s with sec := (writeCopies s f m0 m1).1.sec, link := (writeCopies s f m0 m1).1.link } := by
  unfold writeCopies
  (repeat' split) <;> rfl

theorem installRecord_frame (s : State) (bs : Bytes) : (installRecord s bs).1 = { s with sec := (installRecord s bs).1.sec } := by
  unfold installRecord
  dsimp only
  split <;> rfl

theorem bootStaged_frame (s : State) (f : FwImage) (m0 m1 : Media) :
    (bootStaged s f m0 m1).1 = { s with sec := (bootStaged s f m0 m1).1.sec, link := (bootStaged s f m0 m1).1.link } := by
  unfold bootStaged
  dsimp only
  split
  · dsimp only
    rw [writeCopies_frame]
  · dsimp only
    rw [writeCopies_frame]

end Sys2Proof.Machine
end

