-- ==== Sys2Proof/Laws/Gates.lean ====
section
/-! SUPPORT. The gates of the block: its pins but for the lines that follow other state, its time, the trips and throttles, the
stop of admission, a fatal error, and the bytes of the cells. Most operations leave all of them alone. -/

namespace Sys2Proof.Machine

open Sys2Proof

/-- The gates. -/
structure Gates where
  pins : PinState
  time : TimeState
  tripped : List Comparator
  stopped : Bool
  capThrottle : Bool
  fatal : FatalPhase
  fatalInfo : Option (Nat × Nat × Nat × Word32)
  deriving DecidableEq, Repr

/-- Pins without MOD_READY and ALERT_N, which follow other state. -/
def plainPins (p : PinState) : PinState := { p with modReady := false, alertLow := false }

/-- The gates of a state. -/
def gates (s : State) : Gates :=
  { pins := plainPins s.pins, time := s.time, tripped := s.power.tripped, stopped := s.adm.stopped,
    capThrottle := s.adm.capThrottle, fatal := s.health.fatal, fatalInfo := s.health.fatalInfo }

variable {G : Gates} {s : State}

/-- The parts of a state that hold the gates G. -/
def pinsAre (G : Gates) (p : PinState) : Prop := plainPins p = G.pins
def timeIs (G : Gates) (t : TimeState) : Prop := t = G.time
def tripsAre (G : Gates) (l : List Comparator) : Prop := l = G.tripped
def stopIs (G : Gates) (b : Bool) : Prop := b = G.stopped
def capIs (G : Gates) (b : Bool) : Prop := b = G.capThrottle
def fatalIs (G : Gates) (f : FatalPhase) : Prop := f = G.fatal
def infoIs (G : Gates) (i : Option (Nat × Nat × Nat × Word32)) : Prop := i = G.fatalInfo

/-- A state has the gates G. -/
def gatesAre (G : Gates) (s : State) : Prop :=
  pinsAre G s.pins ∧ timeIs G s.time ∧ tripsAre G s.power.tripped ∧ stopIs G s.adm.stopped ∧ capIs G s.adm.capThrottle ∧
  fatalIs G s.health.fatal ∧ infoIs G s.health.fatalInfo

/-- Every state has its own gates. -/
theorem gatesAre_self (s : State) : gatesAre (gates s) s := ⟨rfl, rfl, rfl, rfl, rfl, rfl, rfl⟩

@[simp] theorem gatesAre_mk (a b c d e f g h i j t k x l m n o p q) :
    gatesAre G (State.mk a b c d e f g h i j t k x l m n o p q) ↔
      pinsAre G e ∧ timeIs G d ∧ tripsAre G o.tripped ∧ stopIs G j.stopped ∧ capIs G j.capThrottle ∧ fatalIs G l.fatal ∧
      infoIs G l.fatalInfo := Iff.rfl

@[simp] theorem pinsAre_alert (p : PinState) (b : Bool) : pinsAre G { p with alertLow := b } ↔ pinsAre G p := Iff.rfl
@[simp] theorem pinsAre_ready (p : PinState) (b : Bool) : pinsAre G { p with modReady := b } ↔ pinsAre G p := Iff.rfl

@[simp] theorem gatesAre_pins (h : gatesAre G s) : pinsAre G s.pins := h.1
@[simp] theorem gatesAre_time (h : gatesAre G s) : timeIs G s.time := h.2.1
@[simp] theorem gatesAre_trips (h : gatesAre G s) : tripsAre G s.power.tripped := h.2.2.1
@[simp] theorem gatesAre_stop (h : gatesAre G s) : stopIs G s.adm.stopped := h.2.2.2.1
@[simp] theorem gatesAre_cap (h : gatesAre G s) : capIs G s.adm.capThrottle := h.2.2.2.2.1
@[simp] theorem gatesAre_fatal (h : gatesAre G s) : fatalIs G s.health.fatal := h.2.2.2.2.2.1
@[simp] theorem gatesAre_info (h : gatesAre G s) : infoIs G s.health.fatalInfo := h.2.2.2.2.2.2

@[simp] theorem gatesAre_ite (c : Prop) [Decidable c] (a b : State) :
    gatesAre G (if c then a else b) ↔ if c then gatesAre G a else gatesAre G b := by split <;> rfl

@[simp] theorem gatesAre_ite_fst {α : Type} (c : Prop) [Decidable c] (a b : State × α) :
    gatesAre G (if c then a else b).1 ↔ if c then gatesAre G a.1 else gatesAre G b.1 := by split <;> rfl

/-- A fold of operations that leave the gates alone does. -/
@[simp] theorem gatesAre_foldl {α : Type} (f : State → α → State) (l : List α) (hf : ∀ t a, gatesAre G t → gatesAre G (f t a)) :
    ∀ s, gatesAre G s → gatesAre G (l.foldl f s) := by
  induction l with
  | nil => intro s h; exact h
  | cons a r ih => intro s h; exact ih _ (hf s a h)

end Sys2Proof.Machine
end

