-- ==== Sys2Proof/Laws/Lists.lean ====
section
/-! SUPPORT. Small lemmas about the list operations that records are found and replaced with. -/

namespace Sys2Proof.Machine

open Sys2Proof

/-- A record replaced by an image of the same key is found under the key. -/
theorem find_updateFirst_same {α : Type} (p : α → Bool) (f : α → α) (l : List α) (h : ∀ a, p a = true → p (f a) = true) :
    (updateFirst p f l).find? p = (l.find? p).map f := by
  induction l with
  | nil => rfl
  | cons a r ih =>
    by_cases ha : p a = true
    · simp [updateFirst, ha, h a ha]
    · simp [updateFirst, ha, ih]

/-- A record under another key is not changed by a replacement. -/
theorem find_updateFirst_other {α : Type} (p r : α → Bool) (f : α → α) (l : List α)
    (h : ∀ a, p a = true → r a = false ∧ r (f a) = false) : (updateFirst p f l).find? r = l.find? r := by
  induction l with
  | nil => rfl
  | cons a t ih =>
    by_cases ha : p a = true
    · simp [updateFirst, ha, (h a ha).1, (h a ha).2]
    · simp only [updateFirst, ha]
      cases hr : r a <;> simp [hr, ih]

/-- A key put in place is looked up. -/
theorem lookupKey_putKey_same {α : Type} (l : List (Nat × α)) (n : Nat) (v : α) : lookupKey (putKey l n v) n = some v := by
  induction l with
  | nil => simp [putKey, lookupKey]
  | cons e r ih =>
    obtain ⟨k, w⟩ := e
    simp only [putKey]
    split
    · simp [lookupKey]
    · split
      · simp [lookupKey]
      · rename_i h1 h2
        have h3 : (k == n) = false := by simp_all; omega
        simp [lookupKey, h3, ih]

/-- The other keys stand. -/
theorem lookupKey_putKey_other {α : Type} (l : List (Nat × α)) (n m : Nat) (v : α) (h : m ≠ n) :
    lookupKey (putKey l n v) m = lookupKey l m := by
  induction l with
  | nil => simp [putKey, lookupKey, Ne.symm h]
  | cons e r ih =>
    obtain ⟨k, w⟩ := e
    simp only [putKey]
    split
    · simp [lookupKey, Ne.symm h]
    · split
      · rename_i h1 h2
        have h3 : (k == m) = false := by simp_all; omega
        simp [lookupKey, Ne.symm h, h3]
      · simp_all [lookupKey]

end Sys2Proof.Machine
end

