-- ==== Sys2Proof/Laws/Lookups.lean ====
section
/-! SUPPORT. What a lookup by number answers after a record was put in place: the new record under its own number, the old one under
every other. -/

namespace Sys2Proof.Machine

open Sys2Proof

/-! Lists. -/

/-- A record put into a list that holds none of its key is found under its key. -/
theorem find_insertBy_same {α : Type} (before : α → α → Bool) (p : α → Bool) (v : α) (l : List α) (hv : p v = true)
    (hl : ∀ a ∈ l, p a = false) : (insertBy before v l).find? p = some v := by
  induction l with
  | nil => simp [insertBy, hv]
  | cons a r ih =>
    have ha := hl a (by simp)
    simp only [insertBy]
    split
    · simp [ha, ih (fun b hb => hl b (by simp [hb]))]
    · simp [hv]

/-- A record put into a list hides nothing found by another test. -/
theorem find_insertBy_other {α : Type} (before : α → α → Bool) (p : α → Bool) (v : α) (l : List α) (hv : p v = false) :
    (insertBy before v l).find? p = l.find? p := by
  induction l with
  | nil => simp [insertBy, hv]
  | cons a r ih =>
    simp only [insertBy]
    split
    · cases ha : p a <;> simp [ha, ih]
    · simp [hv]

/-- Records taken out of a list were found by no test that fails on them. -/
theorem find_filter_other {α : Type} (p r : α → Bool) (l : List α) (h : ∀ a, p a = true → r a = true) :
    (l.filter r).find? p = l.find? p := by
  induction l with
  | nil => rfl
  | cons a t ih =>
    cases ha : p a
    · cases hr : r a <;> simp [ha, hr, ih]
    · simp [ha, h a ha]

/-! Domains, rime units, dies and banks. -/

@[simp] theorem domainAt_setDomain_same (s : State) (d : Domain) : domainAt (setDomain s d) d.num = d := by
  unfold domainAt setDomain
  rw [find_insertBy_same _ _ _ _ (by simp) (by simp)]
  rfl

theorem domainAt_setDomain_other (s : State) (d : Domain) (n : Nat) (h : n ≠ d.num) :
    domainAt (setDomain s d) n = domainAt s n := by
  unfold domainAt setDomain
  rw [find_insertBy_other _ _ _ _ (by simp [Ne.symm h]), find_filter_other _ _ _ (by simp_all)]

@[simp] theorem rimeBank_setRimeBank_same (s : State) (b : RimeBank) : rimeBank (setRimeBank s b) b.bank = b := by
  unfold rimeBank setRimeBank
  rw [find_insertBy_same _ _ _ _ (by simp) (by simp)]
  rfl

theorem rimeBank_setRimeBank_other (s : State) (b : RimeBank) (n : Nat) (h : n ≠ b.bank) :
    rimeBank (setRimeBank s b) n = rimeBank s n := by
  unfold rimeBank setRimeBank
  rw [find_insertBy_other _ _ _ _ (by simp [Ne.symm h]), find_filter_other _ _ _ (by simp_all)]

@[simp] theorem bankHealth_setBankHealth_same (s : State) (v : BankHealth) : bankHealth (setBankHealth s v) v.bank = v := by
  unfold bankHealth setBankHealth
  rw [find_insertBy_same _ _ _ _ (by simp) (by simp)]
  rfl

theorem bankHealth_setBankHealth_other (s : State) (v : BankHealth) (n : Nat) (h : n ≠ v.bank) :
    bankHealth (setBankHealth s v) n = bankHealth s n := by
  unfold bankHealth setBankHealth
  rw [find_insertBy_other _ _ _ _ (by simp [Ne.symm h]), find_filter_other _ _ _ (by simp_all)]

@[simp] theorem dieAt_setDie_same (s : State) (v : Die) : dieAt (setDie s v) v.channel v.die = v := by
  unfold dieAt setDie
  dsimp only
  rw [find_insertBy_same _ _ _ _ (by simp) (by simp; tauto)]
  rfl

theorem dieAt_setDie_other (s : State) (v : Die) (c d : Nat) (h : c ≠ v.channel ∨ d ≠ v.die) :
    dieAt (setDie s v) c d = dieAt s c d := by
  unfold dieAt setDie
  dsimp only
  rw [find_insertBy_other _ (fun x : Die => x.channel == c && x.die == d) v _
      (by rcases h with h | h <;> simp [Ne.symm h]), find_filter_other]
  intro a ha
  rcases h with h | h <;> simp_all

/-! Bays, queues, indexes, contexts, plans, pegs and query slots. -/

@[simp] theorem bayAt_setBay_same (s : State) (b : Nat) (v : Bay) : bayAt (setBay s b v) b = v := by
  simp [bayAt, setBay, lookupKey_putKey_same]

theorem bayAt_setBay_other (s : State) (b n : Nat) (v : Bay) (h : n ≠ b) : bayAt (setBay s b v) n = bayAt s n := by
  simp [bayAt, setBay, lookupKey_putKey_other _ _ _ _ h]

theorem pairOf_updPair_same (s : State) (q : Nat) (f : QPair → QPair) (h : ∀ p, (f p).id = p.id) :
    pairOf (updPair s q f) q = (pairOf s q).map f :=
  find_updateFirst_same _ _ _ (fun a ha => by simpa [h] using ha)

theorem pairOf_updPair_other (s : State) (q n : Nat) (f : QPair → QPair) (h : ∀ p, (f p).id = p.id) (hn : n ≠ q) :
    pairOf (updPair s q f) n = pairOf s n :=
  find_updateFirst_other _ _ _ _ (fun a ha => by
    have : a.id = q := by simpa using ha
    simp [h, this, Ne.symm hn])

/-- The queue that an update names is replaced by its image. -/
theorem queueOf_updQueue_same (s : State) (q : Nat) (f : Queue → Queue) : queueOf (updQueue s q f) q = (queueOf s q).map f := by
  by_cases hq : q = adminQ
  · simp [queueOf, updQueue, hq]
  · have hb : (q == adminQ) = false := by simpa using hq
    simp only [queueOf, updQueue, hb, Bool.false_eq_true, if_false]
    have h := pairOf_updPair_same s q (fun p => { p with q := f p.q }) (fun _ => rfl)
    rw [h]
    cases pairOf s q <;> rfl

theorem indexAt_updIndex_same (s : State) (n : Nat) (f : Index → Index) (h : ∀ x, (f x).num = x.num) :
    indexAt (updIndex s n f) n = (indexAt s n).map f :=
  find_updateFirst_same _ _ _ (fun a ha => by simpa [h] using ha)

theorem indexAt_updIndex_other (s : State) (n m : Nat) (f : Index → Index) (h : ∀ x, (f x).num = x.num) (hm : m ≠ n) :
    indexAt (updIndex s n f) m = indexAt s m :=
  find_updateFirst_other _ _ _ _ (fun a ha => by
    have : a.num = n := by simpa using ha
    simp [h, this, Ne.symm hm])

theorem ctxAt_updCtx_same (s : State) (c : Nat) (f : Ctx → Ctx) (h : ∀ x, (f x).num = x.num) :
    ctxAt (updCtx s c f) c = (ctxAt s c).map f :=
  find_updateFirst_same _ _ _ (fun a ha => by simpa [h] using ha)

theorem planAt_updPlan_same (s : State) (p : Nat) (f : Plan → Plan) (h : ∀ x, (f x).handle = x.handle) :
    planAt (updPlan s p f) p = (planAt s p).map f :=
  find_updateFirst_same _ _ _ (fun a ha => by simpa [h] using ha)

theorem pegAt_updPeg_same (s : State) (p : Nat) (f : Peg → Peg) (h : ∀ x, (f x).num = x.num) :
    pegAt (updPeg s p f) p = (pegAt s p).map f :=
  find_updateFirst_same _ _ _ (fun a ha => by simpa [h] using ha)

theorem pegAt_updPeg_other (s : State) (p n : Nat) (f : Peg → Peg) (h : ∀ x, (f x).num = x.num) (hn : n ≠ p) :
    pegAt (updPeg s p f) n = pegAt s n :=
  find_updateFirst_other _ _ _ _ (fun a ha => by
    have : a.num = p := by simpa using ha
    simp [h, this, Ne.symm hn])

theorem queryAt_updQuery_same (s : State) (slot : Nat) (f : Query → Query) (h : ∀ x, (f x).slot = x.slot) :
    queryAt (updQuery s slot f) slot = (queryAt s slot).map f :=
  find_updateFirst_same _ _ _ (fun a ha => by simpa [h] using ha)

theorem queryAt_updQuery_other (s : State) (slot n : Nat) (f : Query → Query) (h : ∀ x, (f x).slot = x.slot) (hn : n ≠ slot) :
    queryAt (updQuery s slot f) n = queryAt s n :=
  find_updateFirst_other _ _ _ _ (fun a ha => by
    have : a.slot = slot := by simpa using ha
    simp [h, this, Ne.symm hn])

end Sys2Proof.Machine
end

