-- ==== Sys2Proof/Laws/Memory.lean ====
section
/-! SUPPORT. The byte stores: every operation keeps the canonical form, a byte written is read back and every other byte
reads as before. -/

namespace Sys2Proof.Machine

open Sys2Proof

/-- The canonical form says: addresses strictly rising, no entry 0. -/
theorem memWf_iff (m : List Host.Cell) :
    memWf m = true ↔ m.Pairwise (fun e f => e.1 < f.1) ∧ ∀ e ∈ m, e.2 ≠ 0 := by
  induction m with
  | nil => simp [memWf]
  | cons e r ih =>
    cases r with
    | nil => simp [memWf]
    | cons f t =>
      simp only [memWf, Bool.and_eq_true, ih, List.pairwise_cons, List.mem_cons, bne_iff_ne, decide_eq_true_eq]
      constructor
      · rintro ⟨⟨h1, h2⟩, ⟨h3, h4⟩, h5⟩
        refine ⟨⟨?_, h3, h4⟩, ?_⟩
        · rintro a (rfl | ha)
          · exact h2
          · exact lt_trans h2 (h3 a ha)
        · rintro a (rfl | ha)
          · exact h1
          · exact h5 a ha
      · rintro ⟨⟨h1, h3, h4⟩, h5⟩
        exact ⟨⟨h5 e (.inl rfl), h1 f (.inl rfl)⟩, ⟨h3, h4⟩, fun a ha => h5 a (.inr ha)⟩

theorem memWrite_mem (m : List Host.Cell) (a : Nat) (b : Byte) (e : Host.Cell) (h : e ∈ memWrite m a b) :
    e ∈ m ∨ (e = (a, b) ∧ b ≠ 0) := by
  induction m with
  | nil =>
    by_cases hb : b = 0 <;> simp_all [memWrite]
  | cons x r ih =>
    obtain ⟨k, c⟩ := x
    simp only [memWrite] at h
    by_cases hb : b = 0
    · simp only [hb, beq_self_eq_true, if_true] at h
      split at h
      · exact .inl h
      · split at h
        · exact .inl (List.mem_cons_of_mem _ h)
        · subst hb
          rcases List.mem_cons.1 h with rfl | h
          · exact .inl List.mem_cons_self
          · rcases ih h with h | h
            · exact .inl (List.mem_cons_of_mem _ h)
            · exact .inr h
    · have hb' : (b == 0) = false := by simpa using hb
      simp only [hb'] at h
      split at h
      · rcases List.mem_cons.1 h with rfl | h
        · exact .inr ⟨rfl, hb⟩
        · exact .inl h
      · split at h
        · rcases List.mem_cons.1 h with rfl | h
          · exact .inr ⟨rfl, hb⟩
          · exact .inl (List.mem_cons_of_mem _ h)
        · rcases List.mem_cons.1 h with rfl | h
          · exact .inl List.mem_cons_self
          · rcases ih h with h | h
            · exact .inl (List.mem_cons_of_mem _ h)
            · exact .inr h

/-- One byte written keeps the canonical form. -/
@[simp] theorem memWf_memWrite (m : List Host.Cell) (a : Nat) (b : Byte) (h : memWf m = true) : memWf (memWrite m a b) = true := by
  rw [memWf_iff] at h ⊢
  obtain ⟨h1, h2⟩ := h
  constructor
  · induction m with
    | nil => simp only [memWrite]; split <;> simp
    | cons x r ih =>
      obtain ⟨k, c⟩ := x
      have hr := List.pairwise_cons.1 h1
      simp only [memWrite]
      split
      · split
        · exact h1
        · rename_i hk _
          refine List.pairwise_cons.2 ⟨?_, h1⟩
          rintro e he
          rcases List.mem_cons.1 he with rfl | he
          · exact hk
          · exact lt_trans hk (hr.1 e he)
      · split
        · rename_i hk hk2
          have : a = k := by simpa using hk2
          split
          · exact hr.2
          · exact List.pairwise_cons.2 ⟨fun e he => this ▸ hr.1 e he, hr.2⟩
        · rename_i hk hk2
          have hne : a ≠ k := by simpa using hk2
          refine List.pairwise_cons.2 ⟨?_, ih hr.2 (fun e he => h2 e (List.mem_cons_of_mem _ he))⟩
          intro e he
          rcases memWrite_mem r a b e he with he | ⟨rfl, _⟩
          · exact hr.1 e he
          · show k < a; omega
  · intro e he
    rcases memWrite_mem m a b e he with he | ⟨rfl, hb⟩
    · exact h2 e he
    · exact hb

/-- Bytes written keep the canonical form. -/
@[simp] theorem memWf_memWriteBytes (bs : Bytes) : ∀ (m : List Host.Cell) (a : Nat), memWf m = true →
    memWf (memWriteBytes m a bs) = true := by
  induction bs with
  | nil => intro m a h; exact h
  | cons b r ih => intro m a h; exact ih _ _ (memWf_memWrite m a b h)

/-- A part of a store in canonical form has it too. -/
@[simp] theorem memWf_filter (m : List Host.Cell) (p : Host.Cell → Bool) (h : memWf m = true) : memWf (m.filter p) = true := by
  rw [memWf_iff] at h ⊢
  exact ⟨h.1.filter p, fun e he => h.2 e ((List.mem_filter.1 he).1)⟩

/-- Bytes cleared keep the canonical form. -/
@[simp] theorem memWf_memClear (m : List Host.Cell) (a n : Nat) (h : memWf m = true) : memWf (memClear m a n) = true :=
  memWf_filter m _ h

/-- Entries put in keep the canonical form. -/
@[simp] theorem memWf_memPut (es : List Host.Cell) (src dst : Nat) : ∀ m : List Host.Cell, memWf m = true →
    memWf (memPut m src dst es) = true := by
  induction es with
  | nil => intro m h; exact h
  | cons e r ih => intro m h; exact ih _ (memWf_memWrite m _ _ h)

/-- A copy keeps the canonical form. -/
@[simp] theorem memWf_memCopy (x m : List Host.Cell) (src dst n : Nat) (h : memWf m = true) :
    memWf (memCopy x m src dst n) = true := memWf_memPut _ _ _ _ (memWf_memClear m dst n h)

@[simp] theorem memWf_nil : memWf [] = true := rfl

/-- A byte written is read back. -/
theorem memRead_memWrite_same (m : List Host.Cell) (a : Nat) (b : Byte) (h : memWf m = true) :
    memRead (memWrite m a b) a = b := by
  rw [memWf_iff] at h
  obtain ⟨h1, h2⟩ := h
  have low : ∀ l : List Host.Cell, (∀ e ∈ l, a < e.1) → memRead l a = 0 := by
    intro l hl
    induction l with
    | nil => rfl
    | cons e r ih =>
      obtain ⟨k, c⟩ := e
      have hk : a < k := hl (k, c) List.mem_cons_self
      have : (k == a) = false := by simp; omega
      simp [memRead, this, ih (fun e he => hl e (List.mem_cons_of_mem _ he))]
  induction m with
  | nil =>
    simp only [memWrite]
    split
    · rename_i hb; simp at hb; simp [memRead, hb]
    · simp [memRead]
  | cons x r ih =>
    obtain ⟨k, c⟩ := x
    have hr := List.pairwise_cons.1 h1
    simp only [memWrite]
    split
    · rename_i hk
      split
      · rename_i hb
        simp at hb
        rw [hb]
        refine low _ ?_
        intro e he
        rcases List.mem_cons.1 he with rfl | he
        · exact hk
        · exact lt_trans hk (hr.1 e he)
      · simp [memRead]
    · split
      · rename_i hk2
        have hak : a = k := by simpa using hk2
        split
        · rename_i hb
          simp at hb
          rw [hb]
          exact low _ (fun e he => hak ▸ hr.1 e he)
        · simp [memRead]
      · rename_i hk2
        have hne : (k == a) = false := by simp at hk2 ⊢; omega
        simp only [memRead, hne]
        exact ih hr.2 (fun e he => h2 e (List.mem_cons_of_mem _ he))

/-- Every other byte reads as before. -/
theorem memRead_memWrite_other (m : List Host.Cell) (a c : Nat) (b : Byte) (hc : c ≠ a) :
    memRead (memWrite m a b) c = memRead m c := by
  have hac : (a == c) = false := by simp; omega
  induction m with
  | nil =>
    simp only [memWrite]
    split <;> simp [memRead, hac]
  | cons x r ih =>
    obtain ⟨k, d⟩ := x
    simp only [memWrite]
    split
    · split
      · rfl
      · simp [memRead, hac]
    · split
      · rename_i hk2
        have hak : a = k := by simpa using hk2
        subst hak
        split <;> simp [memRead, hac]
      · simp [memRead, ih]

end Sys2Proof.Machine
end

