-- ==== Sys2Proof/Laws/OpsEnds.lean ====
section
/-! SUPPORT. The operations that resets are made of keep a property of pairs and contexts (Laws/Ends), and what a reset of a
function, and of every function, leaves (R243). -/

namespace Sys2Proof.Machine

open Sys2Proof

set_option Elab.async false

variable {E : Ends}

@[simp] theorem advanceTo_ends (s : State) (t : Nat) (hw : endsAll E s) : endsAll E (advanceTo s t) := by
  unfold advanceTo
  (repeat' split) <;> first | (simp +contextual (maxDischargeDepth := 60) [*]; done) | ((simp +contextual (maxDischargeDepth := 60) [*]; repeat' split) <;> simp +contextual (maxDischargeDepth := 60) [*])

@[simp] theorem emit_ends (s : State) (o : Out) (hw : endsAll E s) : endsAll E (emit s o) := by
  unfold emit
  (repeat' split) <;> first | (simp +contextual (maxDischargeDepth := 60) [*]; done) | ((simp +contextual (maxDischargeDepth := 60) [*]; repeat' split) <;> simp +contextual (maxDischargeDepth := 60) [*])

@[simp] theorem bumpFree_ends (s : State) (hw : endsAll E s) : endsAll E (bumpFree s) := by
  unfold bumpFree
  (repeat' split) <;> first | (simp +contextual (maxDischargeDepth := 60) [*]; done) | ((simp +contextual (maxDischargeDepth := 60) [*]; repeat' split) <;> simp +contextual (maxDischargeDepth := 60) [*])

@[simp] theorem updPair_ends (s : State) (q : Nat) (f : QPair → QPair) (hf : ∀ p, (f p).bay = p.bay) (hw : endsAll E s) :
    endsAll E (updPair s q f) := by
  unfold updPair
  simp +contextual (maxDischargeDepth := 60) [*]

@[simp] theorem updQueue_ends (s : State) (q : Nat) (f : Queue → Queue) (hw : endsAll E s) : endsAll E (updQueue s q f) := by
  unfold updQueue
  (repeat' split) <;> first | (simp +contextual (maxDischargeDepth := 60) [*]; done) | ((simp +contextual (maxDischargeDepth := 60) [*]; repeat' split) <;> simp +contextual (maxDischargeDepth := 60) [*])

@[simp] theorem updCmd_ends (s : State) (q cid : Nat) (f : Cmd → Cmd) (hw : endsAll E s) : endsAll E (updCmd s q cid f) := by
  unfold updCmd
  (repeat' split) <;> first | (simp +contextual (maxDischargeDepth := 60) [*]; done) | ((simp +contextual (maxDischargeDepth := 60) [*]; repeat' split) <;> simp +contextual (maxDischargeDepth := 60) [*])

@[simp] theorem setBay_ends (s : State) (b : Nat) (v : Bay) (hw : endsAll E s) : endsAll E (setBay s b v) := by
  unfold setBay
  (repeat' split) <;> first | (simp +contextual (maxDischargeDepth := 60) [*]; done) | ((simp +contextual (maxDischargeDepth := 60) [*]; repeat' split) <;> simp +contextual (maxDischargeDepth := 60) [*])

@[simp] theorem updBay_ends (s : State) (b : Nat) (f : Bay → Bay) (hw : endsAll E s) : endsAll E (updBay s b f) := by
  unfold updBay
  (repeat' split) <;> first | (simp +contextual (maxDischargeDepth := 60) [*]; done) | ((simp +contextual (maxDischargeDepth := 60) [*]; repeat' split) <;> simp +contextual (maxDischargeDepth := 60) [*])

@[simp] theorem updCtx_ends (s : State) (c : Nat) (f : Ctx → Ctx) (hf : ∀ x, (f x).num = x.num ∧ (f x).bay = x.bay)
    (hw : endsAll E s) : endsAll E (updCtx s c f) := by
  unfold updCtx
  simp +contextual (maxDischargeDepth := 60) [*]

@[simp] theorem updPlan_ends (s : State) (h : Nat) (f : Plan → Plan) (hw : endsAll E s) : endsAll E (updPlan s h f) := by
  unfold updPlan
  (repeat' split) <;> first | (simp +contextual (maxDischargeDepth := 60) [*]; done) | ((simp +contextual (maxDischargeDepth := 60) [*]; repeat' split) <;> simp +contextual (maxDischargeDepth := 60) [*])

@[simp] theorem updPeg_ends (s : State) (p : Nat) (f : Peg → Peg) (hw : endsAll E s) : endsAll E (updPeg s p f) := by
  unfold updPeg
  (repeat' split) <;> first | (simp +contextual (maxDischargeDepth := 60) [*]; done) | ((simp +contextual (maxDischargeDepth := 60) [*]; repeat' split) <;> simp +contextual (maxDischargeDepth := 60) [*])

@[simp] theorem updQuery_ends (s : State) (slot : Nat) (f : Query → Query) (hw : endsAll E s) : endsAll E (updQuery s slot f) := by
  unfold updQuery
  (repeat' split) <;> first | (simp +contextual (maxDischargeDepth := 60) [*]; done) | ((simp +contextual (maxDischargeDepth := 60) [*]; repeat' split) <;> simp +contextual (maxDischargeDepth := 60) [*])

@[simp] theorem updIndex_ends (s : State) (n : Nat) (f : Index → Index) (hw : endsAll E s) : endsAll E (updIndex s n f) := by
  unfold updIndex
  (repeat' split) <;> first | (simp +contextual (maxDischargeDepth := 60) [*]; done) | ((simp +contextual (maxDischargeDepth := 60) [*]; repeat' split) <;> simp +contextual (maxDischargeDepth := 60) [*])

@[simp] theorem setFrame_ends (s : State) (e : Frame_) (hw : endsAll E s) : endsAll E (setFrame s e) := by
  unfold setFrame
  (repeat' split) <;> first | (simp +contextual (maxDischargeDepth := 60) [*]; done) | ((simp +contextual (maxDischargeDepth := 60) [*]; repeat' split) <;> simp +contextual (maxDischargeDepth := 60) [*])

@[simp] theorem updFrame_ends (s : State) (d : Nat) (f : Frame_ → Frame_) (hw : endsAll E s) : endsAll E (updFrame s d f) := by
  unfold updFrame
  (repeat' split) <;> first | (simp +contextual (maxDischargeDepth := 60) [*]; done) | ((simp +contextual (maxDischargeDepth := 60) [*]; repeat' split) <;> simp +contextual (maxDischargeDepth := 60) [*])

@[simp] theorem setDomain_ends (s : State) (d : Domain) (hw : endsAll E s) : endsAll E (setDomain s d) := by
  unfold setDomain
  (repeat' split) <;> first | (simp +contextual (maxDischargeDepth := 60) [*]; done) | ((simp +contextual (maxDischargeDepth := 60) [*]; repeat' split) <;> simp +contextual (maxDischargeDepth := 60) [*])

@[simp] theorem raiseVector_ends (s : State) (fn v : Nat) (hw : endsAll E s) : endsAll E (raiseVector s fn v) := by
  unfold raiseVector
  (repeat' split) <;> first | (simp +contextual (maxDischargeDepth := 60) [*]; done) | ((simp +contextual (maxDischargeDepth := 60) [*]; repeat' split) <;> simp +contextual (maxDischargeDepth := 60) [*])

@[simp] theorem sendMsix_ends (s : State) (q : Nat) (hw : endsAll E s) : endsAll E (sendMsix s q) := by
  unfold sendMsix
  (repeat' split) <;> first | (simp +contextual (maxDischargeDepth := 60) [*]; done) | ((simp +contextual (maxDischargeDepth := 60) [*]; repeat' split) <;> simp +contextual (maxDischargeDepth := 60) [*])

@[simp] theorem afterCommit_ends (s : State) (q : Nat) (hw : endsAll E s) : endsAll E (afterCommit s q) := by
  unfold afterCommit
  (repeat' split) <;> first | (simp +contextual (maxDischargeDepth := 60) [*]; done) | ((simp +contextual (maxDischargeDepth := 60) [*]; repeat' split) <;> simp +contextual (maxDischargeDepth := 60) [*])

@[simp] theorem countAfterDelete_ends (s : State) (q : Nat) (hw : endsAll E s) : endsAll E (countAfterDelete s q) := by
  unfold countAfterDelete
  refine updPair_ends _ _ _ (fun p => ?_) hw
  split <;> rfl

@[simp] theorem commitEntry_ends (s : State) (d : Deferred) (hw : endsAll E s) : endsAll E (commitEntry s d) := by
  unfold commitEntry
  (repeat' split) <;> first | (simp +contextual (maxDischargeDepth := 60) [*]; done) | ((simp +contextual (maxDischargeDepth := 60) [*]; repeat' split) <;> simp +contextual (maxDischargeDepth := 60) [*])

@[simp] theorem postRecord_ends (s : State) (q : Nat) (c : Cmd) (status result nacc ndiff : Nat) (hw : endsAll E s) : endsAll E (postRecord s q c status result nacc ndiff) := by
  unfold postRecord
  (repeat' split) <;> first | (simp +contextual (maxDischargeDepth := 60) [*]; done) | ((simp +contextual (maxDischargeDepth := 60) [*]; repeat' split) <;> simp +contextual (maxDischargeDepth := 60) [*])

@[simp] theorem dropDeferred_ends (s : State) (hw : endsAll E s) : endsAll E (dropDeferred s) := by
  unfold dropDeferred
  (repeat' split) <;> first | (simp +contextual (maxDischargeDepth := 60) [*]; done) | ((simp +contextual (maxDischargeDepth := 60) [*]; repeat' split) <;> simp +contextual (maxDischargeDepth := 60) [*])

@[simp] theorem postCompletion_ends (s : State) (q cid status result : Nat) (hw : endsAll E s) : endsAll E (postCompletion s q cid status result) := by
  unfold postCompletion
  (repeat' split) <;> first | (simp +contextual (maxDischargeDepth := 60) [*]; done) | ((simp +contextual (maxDischargeDepth := 60) [*]; repeat' split) <;> simp +contextual (maxDischargeDepth := 60) [*])

@[simp] theorem sendFrame_ends (s : State) (dest : Nat) (h : BitVec 256) (v : Bytes) (hw : endsAll E s) : endsAll E (sendFrame s dest h v) := by
  unfold sendFrame
  (repeat' split) <;> first | (simp +contextual (maxDischargeDepth := 60) [*]; done) | ((simp +contextual (maxDischargeDepth := 60) [*]; repeat' split) <;> simp +contextual (maxDischargeDepth := 60) [*])

@[simp] theorem emitEvent_ends (s : State) (seq : BitVec 16) (retx : Bool) (code : Nat) (data : Word64) (hw : endsAll E s) : endsAll E (emitEvent s seq retx code data) := by
  unfold emitEvent
  (repeat' split) <;> first | (simp +contextual (maxDischargeDepth := 60) [*]; done) | ((simp +contextual (maxDischargeDepth := 60) [*]; repeat' split) <;> simp +contextual (maxDischargeDepth := 60) [*])

@[simp] theorem sendEvent_ends (s : State) (code : Nat) (data : Word64) (hw : endsAll E s) : endsAll E (sendEvent s code data) := by
  unfold sendEvent
  (repeat' split) <;> first | (simp +contextual (maxDischargeDepth := 60) [*]; done) | ((simp +contextual (maxDischargeDepth := 60) [*]; repeat' split) <;> simp +contextual (maxDischargeDepth := 60) [*])

@[simp] theorem refreshAlert_ends (s : State) (hw : endsAll E s) : endsAll E (refreshAlert s) := by
  unfold refreshAlert
  (repeat' split) <;> first | (simp +contextual (maxDischargeDepth := 60) [*]; done) | ((simp +contextual (maxDischargeDepth := 60) [*]; repeat' split) <;> simp +contextual (maxDischargeDepth := 60) [*])

@[simp] theorem logEntry_ends (s : State) (cls sev unit detail : Nat) (ctx : Option (Nat × Nat)) (hw : endsAll E s) : endsAll E (logEntry s cls sev unit detail ctx) := by
  unfold logEntry
  (repeat' split) <;> first | (simp +contextual (maxDischargeDepth := 60) [*]; done) | ((simp +contextual (maxDischargeDepth := 60) [*]; repeat' split) <;> simp +contextual (maxDischargeDepth := 60) [*])

@[simp] theorem logError_ends (s : State) (cls unit detail : Nat) (ctx : Option (Nat × Nat)) (hw : endsAll E s) : endsAll E (logError s cls unit detail ctx) := by
  unfold logError
  (repeat' split) <;> first | (simp +contextual (maxDischargeDepth := 60) [*]; done) | ((simp +contextual (maxDischargeDepth := 60) [*]; repeat' split) <;> simp +contextual (maxDischargeDepth := 60) [*])

@[simp] theorem raiseEvent_ends (s : State) (code : Nat) (data : Word64) (hw : endsAll E s) : endsAll E (raiseEvent s code data) := by
  unfold raiseEvent
  (repeat' split) <;> first | (simp +contextual (maxDischargeDepth := 60) [*]; done) | ((simp +contextual (maxDischargeDepth := 60) [*]; repeat' split) <;> simp +contextual (maxDischargeDepth := 60) [*])

@[simp] theorem refreshLevel_ends (s : State) (g : Nat) (hw : endsAll E s) : endsAll E (refreshLevel s g) := by
  unfold refreshLevel
  (repeat' split) <;> first | (simp +contextual (maxDischargeDepth := 60) [*]; done) | ((simp +contextual (maxDischargeDepth := 60) [*]; repeat' split) <;> simp +contextual (maxDischargeDepth := 60) [*])

@[simp] theorem refreshLevels_ends (s : State) (hw : endsAll E s) : endsAll E (refreshLevels s) := by
  unfold refreshLevels
  (repeat' split) <;> first | (simp +contextual (maxDischargeDepth := 60) [*]; done) | ((simp +contextual (maxDischargeDepth := 60) [*]; repeat' split) <;> simp +contextual (maxDischargeDepth := 60) [*])

@[simp] theorem wakeOne_ends (s : State) (n source : Nat) (hw : endsAll E s) : endsAll E (wakeOne s n source) := by
  unfold wakeOne
  (repeat' split) <;> first | (simp +contextual (maxDischargeDepth := 60) [*]; done) | ((simp +contextual (maxDischargeDepth := 60) [*]; repeat' split) <;> simp +contextual (maxDischargeDepth := 60) [*])

@[simp] theorem startWake_ends (s : State) (n source : Nat) (hw : endsAll E s) : endsAll E (startWake s n source) := by
  unfold startWake
  (repeat' split) <;> first | (simp +contextual (maxDischargeDepth := 60) [*]; done) | ((simp +contextual (maxDischargeDepth := 60) [*]; repeat' split) <;> simp +contextual (maxDischargeDepth := 60) [*])

@[simp] theorem writeHeader_ends (s : State) (q cid pos : Nat) (h : Header) (hw : endsAll E s) : endsAll E (writeHeader s q cid pos h) := by
  unfold writeHeader
  (repeat' split) <;> first | (simp +contextual (maxDischargeDepth := 60) [*]; done) | ((simp +contextual (maxDischargeDepth := 60) [*]; repeat' split) <;> simp +contextual (maxDischargeDepth := 60) [*])

@[simp] theorem endQuery_ends (s : State) (x : Query) (h : Header) (hw : endsAll E s) : endsAll E (endQuery s x h) := by
  unfold endQuery
  (repeat' split) <;> first | (simp +contextual (maxDischargeDepth := 60) [*]; done) | ((simp +contextual (maxDischargeDepth := 60) [*]; repeat' split) <;> simp +contextual (maxDischargeDepth := 60) [*])

@[simp] theorem failQuery_ends (s : State) (x : Query) (status : Nat) (hw : endsAll E s) : endsAll E (failQuery s x status) := by
  unfold failQuery
  (repeat' split) <;> first | (simp +contextual (maxDischargeDepth := 60) [*]; done) | ((simp +contextual (maxDischargeDepth := 60) [*]; repeat' split) <;> simp +contextual (maxDischargeDepth := 60) [*])

@[simp] theorem progressCtx_ends (s : State) (c : Nat) (hw : endsAll E s) : endsAll E (progressCtx s c) := by
  unfold progressCtx
  (repeat' split) <;> first | (simp +contextual (maxDischargeDepth := 60) [*]; done) | ((simp +contextual (maxDischargeDepth := 60) [*]; repeat' split) <;> simp +contextual (maxDischargeDepth := 60) [*])

@[simp] theorem endWait_ends (s : State) (w : PegWait) (status : Nat) (hw : endsAll E s) : endsAll E (endWait s w status) := by
  unfold endWait
  (repeat' split) <;> first | (simp +contextual (maxDischargeDepth := 60) [*]; done) | ((simp +contextual (maxDischargeDepth := 60) [*]; repeat' split) <;> simp +contextual (maxDischargeDepth := 60) [*])

@[simp] theorem serveWait_ends (s : State) (w : PegWait) (status : Nat) (hw : endsAll E s) : endsAll E (serveWait s w status) := by
  unfold serveWait
  (repeat' split) <;> first | (simp +contextual (maxDischargeDepth := 60) [*]; done) | ((simp +contextual (maxDischargeDepth := 60) [*]; repeat' split) <;> simp +contextual (maxDischargeDepth := 60) [*])

@[simp] theorem pegTurn_ends (s : State) (p port : Nat) (hw : endsAll E s) : endsAll E (pegTurn s p port) := by
  unfold pegTurn
  (repeat' split) <;> first | (simp +contextual (maxDischargeDepth := 60) [*]; done) | ((simp +contextual (maxDischargeDepth := 60) [*]; repeat' split) <;> simp +contextual (maxDischargeDepth := 60) [*])

@[simp] theorem takePeg_ends (s : State) (p ctx : Nat) (hw : endsAll E s) : endsAll E (takePeg s p ctx) := by
  unfold takePeg
  (repeat' split) <;> first | (simp +contextual (maxDischargeDepth := 60) [*]; done) | ((simp +contextual (maxDischargeDepth := 60) [*]; repeat' split) <;> simp +contextual (maxDischargeDepth := 60) [*])

@[simp] theorem wakeWaitingCuts_ends (s : State) (p : Nat) (v : Word64) (hw : endsAll E s) : endsAll E (wakeWaitingCuts s p v) := by
  unfold wakeWaitingCuts
  refine endsAll_foldl _ _ (fun t a ht => ?_) _ (by simp +contextual (maxDischargeDepth := 60) [*])
  (repeat' split) <;> simp +contextual (maxDischargeDepth := 60) [*]

@[simp] theorem settlePeg_ends (s : State) (p : Nat) (hw : endsAll E s) : endsAll E (settlePeg s p) := by
  unfold settlePeg
  (repeat' split) <;> first | (simp +contextual (maxDischargeDepth := 60) [*]; done) | ((simp +contextual (maxDischargeDepth := 60) [*]; repeat' split) <;> simp +contextual (maxDischargeDepth := 60) [*])

@[simp] theorem breakPeg_ends (s : State) (p : Nat) (hw : endsAll E s) : endsAll E (breakPeg s p) := by
  unfold breakPeg
  (repeat' split) <;> first | (simp +contextual (maxDischargeDepth := 60) [*]; done) | ((simp +contextual (maxDischargeDepth := 60) [*]; repeat' split) <;> simp +contextual (maxDischargeDepth := 60) [*])

@[simp] theorem breakHeld_ends (s : State) (ctx : Nat) (hw : endsAll E s) : endsAll E (breakHeld s ctx) := by
  unfold breakHeld
  (repeat' split) <;> first | (simp +contextual (maxDischargeDepth := 60) [*]; done) | ((simp +contextual (maxDischargeDepth := 60) [*]; repeat' split) <;> simp +contextual (maxDischargeDepth := 60) [*])

@[simp] theorem endRunsOnPeg_ends (s : State) (p status : Nat) (hw : endsAll E s) : endsAll E (endRunsOnPeg s p status) := by
  unfold endRunsOnPeg
  (repeat' split) <;> first | (simp +contextual (maxDischargeDepth := 60) [*]; done) | ((simp +contextual (maxDischargeDepth := 60) [*]; repeat' split) <;> simp +contextual (maxDischargeDepth := 60) [*])

@[simp] theorem freePeg_ends (s : State) (p : Nat) (hw : endsAll E s) : endsAll E (freePeg s p) := by
  unfold freePeg
  (repeat' split) <;> first | (simp +contextual (maxDischargeDepth := 60) [*]; done) | ((simp +contextual (maxDischargeDepth := 60) [*]; repeat' split) <;> simp +contextual (maxDischargeDepth := 60) [*])

@[simp] theorem freePegsOf_ends (s : State) (ctx : Nat) (hw : endsAll E s) : endsAll E (freePegsOf s ctx) := by
  unfold freePegsOf
  (repeat' split) <;> first | (simp +contextual (maxDischargeDepth := 60) [*]; done) | ((simp +contextual (maxDischargeDepth := 60) [*]; repeat' split) <;> simp +contextual (maxDischargeDepth := 60) [*])

@[simp] theorem raisePeg_ends (s : State) (p : Nat) (hw : endsAll E s) : endsAll E (raisePeg s p) := by
  unfold raisePeg
  (repeat' split) <;> first | (simp +contextual (maxDischargeDepth := 60) [*]; done) | ((simp +contextual (maxDischargeDepth := 60) [*]; repeat' split) <;> simp +contextual (maxDischargeDepth := 60) [*])

@[simp] theorem signalPeg_ends (s : State) (port p : Nat) (hw : endsAll E s) : endsAll E (signalPeg s port p) := by
  unfold signalPeg
  (repeat' split) <;> first | (simp +contextual (maxDischargeDepth := 60) [*]; done) | ((simp +contextual (maxDischargeDepth := 60) [*]; repeat' split) <;> simp +contextual (maxDischargeDepth := 60) [*])

@[simp] theorem refreshPoison_ends (s : State) (d : Nat) (hw : endsAll E s) : endsAll E (refreshPoison s d) := by
  unfold refreshPoison
  (repeat' split) <;> first | (simp +contextual (maxDischargeDepth := 60) [*]; done) | ((simp +contextual (maxDischargeDepth := 60) [*]; repeat' split) <;> simp +contextual (maxDischargeDepth := 60) [*])

@[simp] theorem setMoved_ends (s : State) (p : Nat → Bool) (hw : endsAll E s) : endsAll E (setMoved s p) := by
  unfold setMoved
  (repeat' split) <;> first | (simp +contextual (maxDischargeDepth := 60) [*]; done) | ((simp +contextual (maxDischargeDepth := 60) [*]; repeat' split) <;> simp +contextual (maxDischargeDepth := 60) [*])

@[simp] theorem clearFrame_ends (s : State) (d : Nat) (hw : endsAll E s) : endsAll E (clearFrame s d) := by
  unfold clearFrame
  (repeat' split) <;> first | (simp +contextual (maxDischargeDepth := 60) [*]; done) | ((simp +contextual (maxDischargeDepth := 60) [*]; repeat' split) <;> simp +contextual (maxDischargeDepth := 60) [*])

@[simp] theorem freeFrame_ends (s : State) (d : Nat) (hw : endsAll E s) : endsAll E (freeFrame s d) := by
  unfold freeFrame
  (repeat' split) <;> first | (simp +contextual (maxDischargeDepth := 60) [*]; done) | ((simp +contextual (maxDischargeDepth := 60) [*]; repeat' split) <;> simp +contextual (maxDischargeDepth := 60) [*])

@[simp] theorem startWriteback_ends (s : State) (d : Nat) (hw : endsAll E s) : endsAll E (startWriteback s d) := by
  unfold startWriteback
  (repeat' split) <;> first | (simp +contextual (maxDischargeDepth := 60) [*]; done) | ((simp +contextual (maxDischargeDepth := 60) [*]; repeat' split) <;> simp +contextual (maxDischargeDepth := 60) [*])

@[simp] theorem endWriteback_ends (s : State) (d group slot : Nat) (hw : endsAll E s) : endsAll E (endWriteback s d group slot) := by
  unfold endWriteback
  (repeat' split) <;> first | (simp +contextual (maxDischargeDepth := 60) [*]; done) | ((simp +contextual (maxDischargeDepth := 60) [*]; repeat' split) <;> simp +contextual (maxDischargeDepth := 60) [*])

@[simp] theorem writeHome_ends (s : State) (d group slot : Nat) (hw : endsAll E s) : endsAll E (writeHome s d group slot) := by
  unfold writeHome
  (repeat' split) <;> first | (simp +contextual (maxDischargeDepth := 60) [*]; done) | ((simp +contextual (maxDischargeDepth := 60) [*]; repeat' split) <;> simp +contextual (maxDischargeDepth := 60) [*])

@[simp] theorem releaseCopies_ends (s : State) (page : Nat) (hw : endsAll E s) : endsAll E (releaseCopies s page) := by
  unfold releaseCopies
  (repeat' split) <;> first | (simp +contextual (maxDischargeDepth := 60) [*]; done) | ((simp +contextual (maxDischargeDepth := 60) [*]; repeat' split) <;> simp +contextual (maxDischargeDepth := 60) [*])

@[simp] theorem finishWriteback_ends (s : State) (d : Nat) (hw : endsAll E s) : endsAll E (finishWriteback s d) := by
  unfold finishWriteback
  (repeat' split) <;> first | (simp +contextual (maxDischargeDepth := 60) [*]; done) | ((simp +contextual (maxDischargeDepth := 60) [*]; repeat' split) <;> simp +contextual (maxDischargeDepth := 60) [*])

@[simp] theorem cleanFrame_ends (s : State) (d : Nat) (hw : endsAll E s) : endsAll E (cleanFrame s d) := by
  unfold cleanFrame
  (repeat' split) <;> first | (simp +contextual (maxDischargeDepth := 60) [*]; done) | ((simp +contextual (maxDischargeDepth := 60) [*]; repeat' split) <;> simp +contextual (maxDischargeDepth := 60) [*])

@[simp] theorem freeCustody_ends (s : State) (page : Nat) (hw : endsAll E s) : endsAll E (freeCustody s page) := by
  unfold freeCustody
  (repeat' split) <;> first | (simp +contextual (maxDischargeDepth := 60) [*]; done) | ((simp +contextual (maxDischargeDepth := 60) [*]; repeat' split) <;> simp +contextual (maxDischargeDepth := 60) [*])

@[simp] theorem unpinPage_ends (s : State) (page : Nat) (hw : endsAll E s) : endsAll E (unpinPage s page) := by
  unfold unpinPage
  (repeat' split) <;> first | (simp +contextual (maxDischargeDepth := 60) [*]; done) | ((simp +contextual (maxDischargeDepth := 60) [*]; repeat' split) <;> simp +contextual (maxDischargeDepth := 60) [*])

@[simp] theorem dropLocal_ends (s : State) (fs : List Nat) (hw : endsAll E s) : endsAll E (dropLocal s fs) := by
  unfold dropLocal
  (repeat' split) <;> first | (simp +contextual (maxDischargeDepth := 60) [*]; done) | ((simp +contextual (maxDischargeDepth := 60) [*]; repeat' split) <;> simp +contextual (maxDischargeDepth := 60) [*])

@[simp] theorem dropLeaves_ends (s : State) (hw : endsAll E s) : endsAll E (dropLeaves s) := by
  unfold dropLeaves
  (repeat' split) <;> first | (simp +contextual (maxDischargeDepth := 60) [*]; done) | ((simp +contextual (maxDischargeDepth := 60) [*]; repeat' split) <;> simp +contextual (maxDischargeDepth := 60) [*])

@[simp] theorem releaseRegion_ends (s : State) (r : Region) (zeroing : Bool) (hw : endsAll E s) : endsAll E (releaseRegion s r zeroing) := by
  unfold releaseRegion
  (repeat' split) <;> first | (simp +contextual (maxDischargeDepth := 60) [*]; done) | ((simp +contextual (maxDischargeDepth := 60) [*]; repeat' split) <;> simp +contextual (maxDischargeDepth := 60) [*])

@[simp] theorem setRimeBank_ends (s : State) (b : RimeBank) (hw : endsAll E s) : endsAll E (setRimeBank s b) := by
  unfold setRimeBank
  (repeat' split) <;> first | (simp +contextual (maxDischargeDepth := 60) [*]; done) | ((simp +contextual (maxDischargeDepth := 60) [*]; repeat' split) <;> simp +contextual (maxDischargeDepth := 60) [*])

@[simp] theorem writeResult_ends (s : State) (cell : Nat) (d : BitVec 256) (bs : Bytes) (hw : endsAll E s) : endsAll E (writeResult s cell d bs) := by
  unfold writeResult
  (repeat' split) <;> first | (simp +contextual (maxDischargeDepth := 60) [*]; done) | ((simp +contextual (maxDischargeDepth := 60) [*]; repeat' split) <;> simp +contextual (maxDischargeDepth := 60) [*])

@[simp] theorem signalRequest_ends (s : State) (r : RimeReq) (code : Nat) (hw : endsAll E s) : endsAll E (signalRequest s r code) := by
  unfold signalRequest
  (repeat' split) <;> first | (simp +contextual (maxDischargeDepth := 60) [*]; done) | ((simp +contextual (maxDischargeDepth := 60) [*]; repeat' split) <;> simp +contextual (maxDischargeDepth := 60) [*])

@[simp] theorem chargeRequest_ends (s : State) (r : RimeReq) (u : RimeUnit) (code : Nat) (hw : endsAll E s) : endsAll E (chargeRequest s r u code) := by
  unfold chargeRequest
  (repeat' split) <;> first | (simp +contextual (maxDischargeDepth := 60) [*]; done) | ((simp +contextual (maxDischargeDepth := 60) [*]; repeat' split) <;> simp +contextual (maxDischargeDepth := 60) [*])

@[simp] theorem finishRequest_ends (s : State) (r : RimeReq) (u : RimeUnit) (code : Nat) (hw : endsAll E s) : endsAll E (finishRequest s r u code) := by
  unfold finishRequest
  (repeat' split) <;> first | (simp +contextual (maxDischargeDepth := 60) [*]; done) | ((simp +contextual (maxDischargeDepth := 60) [*]; repeat' split) <;> simp +contextual (maxDischargeDepth := 60) [*])

@[simp] theorem redirectHome_ends (s : State) (page bank to_ : Nat) (hw : endsAll E s) : endsAll E (redirectHome s page bank to_) := by
  unfold redirectHome
  (repeat' split) <;> first | (simp +contextual (maxDischargeDepth := 60) [*]; done) | ((simp +contextual (maxDischargeDepth := 60) [*]; repeat' split) <;> simp +contextual (maxDischargeDepth := 60) [*])

@[simp] theorem moveFrame_ends (s : State) (src dst : Nat) (left : FrameState) (hw : endsAll E s) : endsAll E (moveFrame s src dst left) := by
  unfold moveFrame
  (repeat' split) <;> first | (simp +contextual (maxDischargeDepth := 60) [*]; done) | ((simp +contextual (maxDischargeDepth := 60) [*]; repeat' split) <;> simp +contextual (maxDischargeDepth := 60) [*])

@[simp] theorem vacate_ends (s : State) (d : Nat) (left : FrameState) (hw : endsAll E s) : endsAll E (vacate s d left) := by
  unfold vacate
  (repeat' split) <;> first | (simp +contextual (maxDischargeDepth := 60) [*]; done) | ((simp +contextual (maxDischargeDepth := 60) [*]; repeat' split) <;> simp +contextual (maxDischargeDepth := 60) [*])

@[simp] theorem holdFrame_ends (s : State) (d : Nat) (hw : endsAll E s) : endsAll E (holdFrame s d) := by
  unfold holdFrame
  (repeat' split) <;> first | (simp +contextual (maxDischargeDepth := 60) [*]; done) | ((simp +contextual (maxDischargeDepth := 60) [*]; repeat' split) <;> simp +contextual (maxDischargeDepth := 60) [*])

@[simp] theorem vacateLate_ends (s : State) (hw : endsAll E s) : endsAll E (vacateLate s) := by
  unfold vacateLate
  (repeat' split) <;> first | (simp +contextual (maxDischargeDepth := 60) [*]; done) | ((simp +contextual (maxDischargeDepth := 60) [*]; repeat' split) <;> simp +contextual (maxDischargeDepth := 60) [*])

@[simp] theorem abortRimeOf_ends (s : State) (ctx : Nat) (hw : endsAll E s) : endsAll E (abortRimeOf s ctx) := by
  unfold abortRimeOf
  (repeat' split) <;> first | (simp +contextual (maxDischargeDepth := 60) [*]; done) | ((simp +contextual (maxDischargeDepth := 60) [*]; repeat' split) <;> simp +contextual (maxDischargeDepth := 60) [*])

@[simp] theorem poisonJournal_ends (s : State) (p : Nat → Bool) (hw : endsAll E s) : endsAll E (poisonJournal s p) := by
  unfold poisonJournal
  (repeat' split) <;> first | (simp +contextual (maxDischargeDepth := 60) [*]; done) | ((simp +contextual (maxDischargeDepth := 60) [*]; repeat' split) <;> simp +contextual (maxDischargeDepth := 60) [*])

@[simp] theorem settleJournal_ends (s : State) (hw : endsAll E s) : endsAll E (settleJournal s) := by
  unfold settleJournal
  (repeat' split) <;> first | (simp +contextual (maxDischargeDepth := 60) [*]; done) | ((simp +contextual (maxDischargeDepth := 60) [*]; repeat' split) <;> simp +contextual (maxDischargeDepth := 60) [*])

@[simp] theorem giveBack_ends (s : State) (r : Region) (hw : endsAll E s) : endsAll E (giveBack s r) := by
  unfold giveBack
  (repeat' split) <;> first | (simp +contextual (maxDischargeDepth := 60) [*]; done) | ((simp +contextual (maxDischargeDepth := 60) [*]; repeat' split) <;> simp +contextual (maxDischargeDepth := 60) [*])

@[simp] theorem dropRegionAt_ends (s : State) (base : Nat) (hw : endsAll E s) : endsAll E (dropRegionAt s base) := by
  unfold dropRegionAt
  (repeat' split) <;> first | (simp +contextual (maxDischargeDepth := 60) [*]; done) | ((simp +contextual (maxDischargeDepth := 60) [*]; repeat' split) <;> simp +contextual (maxDischargeDepth := 60) [*])

@[simp] theorem dropScratchSet_ends (s : State) (b : Nat) (hw : endsAll E s) : endsAll E (dropScratchSet s b) := by
  unfold dropScratchSet
  (repeat' split) <;> first | (simp +contextual (maxDischargeDepth := 60) [*]; done) | ((simp +contextual (maxDischargeDepth := 60) [*]; repeat' split) <;> simp +contextual (maxDischargeDepth := 60) [*])

@[simp] theorem clearSectors_ends (s : State) (b k : Nat) (hw : endsAll E s) : endsAll E (clearSectors s b k) := by
  unfold clearSectors
  (repeat' split) <;> first | (simp +contextual (maxDischargeDepth := 60) [*]; done) | ((simp +contextual (maxDischargeDepth := 60) [*]; repeat' split) <;> simp +contextual (maxDischargeDepth := 60) [*])

@[simp] theorem unpinWeights_ends (s : State) (p : Plan) (hw : endsAll E s) : endsAll E (unpinWeights s p) := by
  unfold unpinWeights
  (repeat' split) <;> first | (simp +contextual (maxDischargeDepth := 60) [*]; done) | ((simp +contextual (maxDischargeDepth := 60) [*]; repeat' split) <;> simp +contextual (maxDischargeDepth := 60) [*])

@[simp] theorem reevalPieces_ends (s : State) (hw : endsAll E s) : endsAll E (reevalPieces s) := by
  unfold reevalPieces
  (repeat' split) <;> first | (simp +contextual (maxDischargeDepth := 60) [*]; done) | ((simp +contextual (maxDischargeDepth := 60) [*]; repeat' split) <;> simp +contextual (maxDischargeDepth := 60) [*])

@[simp] theorem releasePlan_ends (s : State) (h : Nat) (hw : endsAll E s) : endsAll E (releasePlan s h) := by
  unfold releasePlan
  (repeat' split) <;> first | (simp +contextual (maxDischargeDepth := 60) [*]; done) | ((simp +contextual (maxDischargeDepth := 60) [*]; repeat' split) <;> simp +contextual (maxDischargeDepth := 60) [*])

@[simp] theorem endContext_ends (s : State) (ctx : Nat) (hw : endsAll E s) : endsAll E (endContext s ctx) := by
  unfold endContext
  (repeat' split) <;> first | (simp +contextual (maxDischargeDepth := 60) [*]; done) | ((simp +contextual (maxDischargeDepth := 60) [*]; repeat' split) <;> simp +contextual (maxDischargeDepth := 60) [*])

@[simp] theorem trimParts_ends (s : State) (index : Nat) (hw : endsAll E s) : endsAll E (trimParts s index) := by
  unfold trimParts
  (repeat' split) <;> first | (simp +contextual (maxDischargeDepth := 60) [*]; done) | ((simp +contextual (maxDischargeDepth := 60) [*]; repeat' split) <;> simp +contextual (maxDischargeDepth := 60) [*])

@[simp] theorem endMerge_ends (s : State) (index : Nat) (status : Option Nat) (hw : endsAll E s) : endsAll E (endMerge s index status) := by
  unfold endMerge
  (repeat' split) <;> first | (simp +contextual (maxDischargeDepth := 60) [*]; done) | ((simp +contextual (maxDischargeDepth := 60) [*]; repeat' split) <;> simp +contextual (maxDischargeDepth := 60) [*])

@[simp] theorem cutMerges_ends (s : State) (p : MergeState → Bool) (status : Option Nat) (hw : endsAll E s) : endsAll E (cutMerges s p status) := by
  unfold cutMerges
  (repeat' split) <;> first | (simp +contextual (maxDischargeDepth := 60) [*]; done) | ((simp +contextual (maxDischargeDepth := 60) [*]; repeat' split) <;> simp +contextual (maxDischargeDepth := 60) [*])

@[simp] theorem dropWaits_ends (s : State) (ctx : Nat) (hw : endsAll E s) : endsAll E (dropWaits s ctx) := by
  unfold dropWaits
  (repeat' split) <;> first | (simp +contextual (maxDischargeDepth := 60) [*]; done) | ((simp +contextual (maxDischargeDepth := 60) [*]; repeat' split) <;> simp +contextual (maxDischargeDepth := 60) [*])

@[simp] theorem resetContext_ends (status : Option Nat) (s : State) (ctx : Nat) (hw : endsAll E s) : endsAll E (resetContext status s ctx) := by
  unfold resetContext
  (repeat' split) <;> first | (simp +contextual (maxDischargeDepth := 60) [*]; done) | ((simp +contextual (maxDischargeDepth := 60) [*]; repeat' split) <;> simp +contextual (maxDischargeDepth := 60) [*])

@[simp] theorem resetFunction_ends (status : Option Nat) (s : State) (fn : Nat) (hw : endsAll E s) : endsAll E (resetFunction status s fn) := by
  unfold resetFunction
  (repeat' split) <;> first | (simp +contextual (maxDischargeDepth := 60) [*]; done) | ((simp +contextual (maxDischargeDepth := 60) [*]; repeat' split) <;> simp +contextual (maxDischargeDepth := 60) [*])

@[simp] theorem dropAdminCids_ends (s : State) (hw : endsAll E s) : endsAll E (dropAdminCids s) := by
  refine ⟨fun p hp => ?_, hw.2⟩
  simp only [dropAdminCids, List.mem_map] at hp
  obtain ⟨q, hq, rfl⟩ := hp
  exact hw.1 q hq

@[simp] theorem unwriteChannel_ends (s : State) (c : Nat) (hw : endsAll E s) : endsAll E (unwriteChannel s c) := by
  unfold unwriteChannel
  (repeat' split) <;> first | (simp +contextual (maxDischargeDepth := 60) [*]; done) | ((simp +contextual (maxDischargeDepth := 60) [*]; repeat' split) <;> simp +contextual (maxDischargeDepth := 60) [*])

@[simp] theorem clearArray_ends (s : State) (a : Nat) (hw : endsAll E s) : endsAll E (clearArray s a) := by
  unfold clearArray
  (repeat' split) <;> first | (simp +contextual (maxDischargeDepth := 60) [*]; done) | ((simp +contextual (maxDischargeDepth := 60) [*]; repeat' split) <;> simp +contextual (maxDischargeDepth := 60) [*])

@[simp] theorem dropExclusive_ends (s : State) (b c : Nat) (hw : endsAll E s) : endsAll E (dropExclusive s b c) := by
  unfold dropExclusive
  (repeat' split) <;> first | (simp +contextual (maxDischargeDepth := 60) [*]; done) | ((simp +contextual (maxDischargeDepth := 60) [*]; repeat' split) <;> simp +contextual (maxDischargeDepth := 60) [*])

@[simp] theorem startReturn_ends (s : State) (hw : endsAll E s) : endsAll E (startReturn s) := by
  unfold startReturn
  (repeat' split) <;> first | (simp +contextual (maxDischargeDepth := 60) [*]; done) | ((simp +contextual (maxDischargeDepth := 60) [*]; repeat' split) <;> simp +contextual (maxDischargeDepth := 60) [*])

@[simp] theorem releaseLease_ends (s : State) (c : Nat) (hw : endsAll E s) : endsAll E (releaseLease s c) := by
  unfold releaseLease
  (repeat' split) <;> first | (simp +contextual (maxDischargeDepth := 60) [*]; done) | ((simp +contextual (maxDischargeDepth := 60) [*]; repeat' split) <;> simp +contextual (maxDischargeDepth := 60) [*])

@[simp] theorem giveUpRegions_ends (s : State) (b : Nat) (hw : endsAll E s) : endsAll E (giveUpRegions s b) := by
  unfold giveUpRegions
  (repeat' split) <;> first | (simp +contextual (maxDischargeDepth := 60) [*]; done) | ((simp +contextual (maxDischargeDepth := 60) [*]; repeat' split) <;> simp +contextual (maxDischargeDepth := 60) [*])

@[simp] theorem giveFrameBack_ends (s : State) (d : Nat) (hw : endsAll E s) : endsAll E (giveFrameBack s d) := by
  unfold giveFrameBack
  (repeat' split) <;> first | (simp +contextual (maxDischargeDepth := 60) [*]; done) | ((simp +contextual (maxDischargeDepth := 60) [*]; repeat' split) <;> simp +contextual (maxDischargeDepth := 60) [*])

@[simp] theorem updStage_ends (s : State) (f : StageState → StageState) (hw : endsAll E s) : endsAll E (updStage s f) := by
  unfold updStage
  (repeat' split) <;> first | (simp +contextual (maxDischargeDepth := 60) [*]; done) | ((simp +contextual (maxDischargeDepth := 60) [*]; repeat' split) <;> simp +contextual (maxDischargeDepth := 60) [*])

@[simp] theorem writeFit_ends (s : State) (hw : endsAll E s) : endsAll E (writeFit s) := by
  unfold writeFit
  (repeat' split) <;> first | (simp +contextual (maxDischargeDepth := 60) [*]; done) | ((simp +contextual (maxDischargeDepth := 60) [*]; repeat' split) <;> simp +contextual (maxDischargeDepth := 60) [*])

@[simp] theorem hostLockLost_ends (s : State) (hw : endsAll E s) : endsAll E (hostLockLost s) := by
  unfold hostLockLost
  (repeat' split) <;> first | (simp +contextual (maxDischargeDepth := 60) [*]; done) | ((simp +contextual (maxDischargeDepth := 60) [*]; repeat' split) <;> simp +contextual (maxDischargeDepth := 60) [*])

@[simp] theorem stageAfterRestart_ends (s : State) (hw : endsAll E s) : endsAll E (stageAfterRestart s) := by
  unfold stageAfterRestart
  (repeat' split) <;> first | (simp +contextual (maxDischargeDepth := 60) [*]; done) | ((simp +contextual (maxDischargeDepth := 60) [*]; repeat' split) <;> simp +contextual (maxDischargeDepth := 60) [*])

@[simp] theorem refreshReady_ends (s : State) (hw : endsAll E s) : endsAll E (refreshReady s) := by
  unfold refreshReady
  (repeat' split) <;> first | (simp +contextual (maxDischargeDepth := 60) [*]; done) | ((simp +contextual (maxDischargeDepth := 60) [*]; repeat' split) <;> simp +contextual (maxDischargeDepth := 60) [*])

@[simp] theorem resetFunctions_ends (s : State) (hw : endsAll E s) : endsAll E (resetFunctions s) := by
  unfold resetFunctions
  (repeat' split) <;> first | (simp +contextual (maxDischargeDepth := 60) [*]; done) | ((simp +contextual (maxDischargeDepth := 60) [*]; repeat' split) <;> simp +contextual (maxDischargeDepth := 60) [*])

@[simp] theorem clearKeys_ends (s : State) (hw : endsAll E s) : endsAll E (clearKeys s) := by
  unfold clearKeys
  (repeat' split) <;> first | (simp +contextual (maxDischargeDepth := 60) [*]; done) | ((simp +contextual (maxDischargeDepth := 60) [*]; repeat' split) <;> simp +contextual (maxDischargeDepth := 60) [*])

@[simp] theorem linkLost_ends (s : State) (hw : endsAll E s) : endsAll E (linkLost s) := by
  unfold linkLost
  (repeat' split) <;> first | (simp +contextual (maxDischargeDepth := 60) [*]; done) | ((simp +contextual (maxDischargeDepth := 60) [*]; repeat' split) <;> simp +contextual (maxDischargeDepth := 60) [*])

@[simp] theorem endStaging_ends (s : State) (hw : endsAll E s) : endsAll E (endStaging s) := by
  unfold endStaging
  (repeat' split) <;> first | (simp +contextual (maxDischargeDepth := 60) [*]; done) | ((simp +contextual (maxDischargeDepth := 60) [*]; repeat' split) <;> simp +contextual (maxDischargeDepth := 60) [*])

@[simp] theorem mgmtLost_ends (s : State) (hw : endsAll E s) : endsAll E (mgmtLost s) := by
  unfold mgmtLost
  (repeat' split) <;> first | (simp +contextual (maxDischargeDepth := 60) [*]; done) | ((simp +contextual (maxDischargeDepth := 60) [*]; repeat' split) <;> simp +contextual (maxDischargeDepth := 60) [*])

@[simp] theorem stagedAs_ends (s : State) (i : Option FwImage) (hw : endsAll E s) : endsAll E (stagedAs s i) := by
  unfold stagedAs
  (repeat' split) <;> first | (simp +contextual (maxDischargeDepth := 60) [*]; done) | ((simp +contextual (maxDischargeDepth := 60) [*]; repeat' split) <;> simp +contextual (maxDischargeDepth := 60) [*])

@[simp] theorem finishStage_ends (s : State) (hw : endsAll E s) : endsAll E (finishStage s) := by
  unfold finishStage
  (repeat' split) <;> first | (simp +contextual (maxDischargeDepth := 60) [*]; done) | ((simp +contextual (maxDischargeDepth := 60) [*]; repeat' split) <;> simp +contextual (maxDischargeDepth := 60) [*])

@[simp] theorem dictDefaults_ends (s : State) (hw : endsAll E s) : endsAll E (dictDefaults s) := by
  unfold dictDefaults
  (repeat' split) <;> first | (simp +contextual (maxDischargeDepth := 60) [*]; done) | ((simp +contextual (maxDischargeDepth := 60) [*]; repeat' split) <;> simp +contextual (maxDischargeDepth := 60) [*])

@[simp] theorem restartFromFlash_ends (s : State) (hw : endsAll E s) : endsAll E (restartFromFlash s) := by
  unfold restartFromFlash
  (repeat' split) <;> first | (simp +contextual (maxDischargeDepth := 60) [*]; done) | ((simp +contextual (maxDischargeDepth := 60) [*]; repeat' split) <;> simp +contextual (maxDischargeDepth := 60) [*])

@[simp] theorem clearRime_ends (s : State) (hw : endsAll E s) : endsAll E (clearRime s) := by
  unfold clearRime
  (repeat' split) <;> first | (simp +contextual (maxDischargeDepth := 60) [*]; done) | ((simp +contextual (maxDischargeDepth := 60) [*]; repeat' split) <;> simp +contextual (maxDischargeDepth := 60) [*])

@[simp] theorem unbindBay_ends (s : State) (b : Nat) (hw : endsAll E s) : endsAll E (unbindBay s b) := by
  unfold unbindBay
  (repeat' split) <;> first | (simp +contextual (maxDischargeDepth := 60) [*]; done) | ((simp +contextual (maxDischargeDepth := 60) [*]; repeat' split) <;> simp +contextual (maxDischargeDepth := 60) [*])

@[simp] theorem resetStart_ends (s : State) (hw : endsAll E s) : endsAll E (resetStart s) := by
  unfold resetStart
  (repeat' split) <;> first | (simp +contextual (maxDischargeDepth := 60) [*]; done) | ((simp +contextual (maxDischargeDepth := 60) [*]; repeat' split) <;> simp +contextual (maxDischargeDepth := 60) [*])

@[simp] theorem moduleReset_ends (s : State) (hw : endsAll E s) : endsAll E (moduleReset s) := by
  unfold moduleReset
  (repeat' split) <;> first | (simp +contextual (maxDischargeDepth := 60) [*]; done) | ((simp +contextual (maxDischargeDepth := 60) [*]; repeat' split) <;> simp +contextual (maxDischargeDepth := 60) [*])

@[simp] theorem loseDram_ends (s : State) (hw : endsAll E s) : endsAll E (loseDram s) := by
  unfold loseDram
  (repeat' split) <;> first | (simp +contextual (maxDischargeDepth := 60) [*]; done) | ((simp +contextual (maxDischargeDepth := 60) [*]; repeat' split) <;> simp +contextual (maxDischargeDepth := 60) [*])

@[simp] theorem railsOff_ends (s : State) (hw : endsAll E s) : endsAll E (railsOff s) := by
  unfold railsOff
  (repeat' split) <;> first | (simp +contextual (maxDischargeDepth := 60) [*]; done) | ((simp +contextual (maxDischargeDepth := 60) [*]; repeat' split) <;> simp +contextual (maxDischargeDepth := 60) [*])

@[simp] theorem railsOn_ends (s : State) (hw : endsAll E s) : endsAll E (railsOn s) := by
  unfold railsOn
  (repeat' split) <;> first | (simp +contextual (maxDischargeDepth := 60) [*]; done) | ((simp +contextual (maxDischargeDepth := 60) [*]; repeat' split) <;> simp +contextual (maxDischargeDepth := 60) [*])

@[simp] theorem tryPower_ends (s : State) (hw : endsAll E s) : endsAll E (tryPower s) := by
  unfold tryPower
  (repeat' split) <;> first | (simp +contextual (maxDischargeDepth := 60) [*]; done) | ((simp +contextual (maxDischargeDepth := 60) [*]; repeat' split) <;> simp +contextual (maxDischargeDepth := 60) [*])

@[simp] theorem finishPowerDown_ends (s : State) (hw : endsAll E s) : endsAll E (finishPowerDown s) := by
  unfold finishPowerDown
  (repeat' split) <;> first | (simp +contextual (maxDischargeDepth := 60) [*]; done) | ((simp +contextual (maxDischargeDepth := 60) [*]; repeat' split) <;> simp +contextual (maxDischargeDepth := 60) [*])

@[simp] theorem capture_ends (s : State) (code : Nat) (v : BitVec 128) (hw : endsAll E s) : endsAll E (capture s code v) := by
  unfold capture
  (repeat' split) <;> first | (simp +contextual (maxDischargeDepth := 60) [*]; done) | ((simp +contextual (maxDischargeDepth := 60) [*]; repeat' split) <;> simp +contextual (maxDischargeDepth := 60) [*])

/-- A context that a reset ended is gone. -/
theorem resetContext_gone (status : Option Nat) (s : State) (n : Nat) : ∀ c ∈ (resetContext status s n).bay.contexts, c.num ≠ n := by
  intro c hc
  simp only [resetContext, endContext] at hc
  simpa using (List.mem_filter.1 hc).2

/-- Contexts ended one after the other are all gone. -/
theorem resetContexts_gone (status : Option Nat) (l : List Ctx) : ∀ s : State, ∀ d ∈ l,
    ∀ c ∈ (l.foldl (fun st x => resetContext status st x.num) s).bay.contexts, c.num ≠ d.num := by
  induction l with
  | nil => intro s d hd; cases hd
  | cons a r ih =>
    intro s d hd c hc
    rw [List.foldl_cons] at hc
    rcases List.mem_cons.1 hd with rfl | hd
    · have h0 : endsAll { pair := fun _ => true, ctx := fun n _ => n != d.num } (resetContext status s d.num) :=
        ⟨fun _ _ => rfl, fun c hc => by simpa using resetContext_gone status s d.num c hc⟩
      have h1 := endsAll_foldl (fun st (x : Ctx) => resetContext status st x.num) r (fun t a ht => resetContext_ends status t a.num ht) _ h0
      simpa using h1.2 c hc
    · exact ih (resetContext status s a.num) d hd c hc

/-- A reset of a function leaves neither a pair nor a context of its bay (R243). -/
theorem resetFunction_clears (status : Option Nat) (s : State) (fn : Nat) :
    (∀ p ∈ (resetFunction status s fn).queues.pairs, p.bay ≠ fn) ∧ ∀ c ∈ (resetFunction status s fn).bay.contexts, c.bay ≠ fn := by
  constructor
  · intro p hp
    simp only [resetFunction] at hp
    simpa using (List.mem_filter.1 hp).2
  · intro c hc hb
    simp only [resetFunction] at hc
    have h0 : endsAll { pair := fun _ => true, ctx := fun n b => s.bay.contexts.any (fun d => d.num == n && d.bay == b) } s :=
      ⟨fun _ _ => rfl, fun c hc => by
        simp only [List.any_eq_true]
        exact ⟨c, hc, by simp⟩⟩
    have h1 := endsAll_foldl (fun st (x : Ctx) => resetContext status st x.num) (s.bay.contexts.filter (fun c => c.bay == fn))
      (fun t a ht => resetContext_ends status t a.num ht) _ h0
    have h2 := h1.2 c hc
    simp only [List.any_eq_true, Bool.and_eq_true, beq_iff_eq] at h2
    obtain ⟨d, hd, hn, hdb⟩ := h2
    refine resetContexts_gone _ _ s d (List.mem_filter.2 ⟨hd, by simp [hdb, hb]⟩) c hc hn.symm

/-- A reset of every function leaves no pair and no context of a bay (R243). -/
theorem resetFunctions_clears (s : State) :
    (∀ p ∈ (resetFunctions s).queues.pairs, 64 ≤ p.bay) ∧ ∀ c ∈ (resetFunctions s).bay.contexts, 64 ≤ c.bay := by
  have keep : ∀ (l : List Nat) (k : Nat) (t : State),
      (∀ p ∈ t.queues.pairs, p.bay ≠ k) ∧ (∀ c ∈ t.bay.contexts, c.bay ≠ k) →
      (∀ p ∈ (l.foldl (resetFunction none) t).queues.pairs, p.bay ≠ k) ∧ ∀ c ∈ (l.foldl (resetFunction none) t).bay.contexts, c.bay ≠ k := by
    intro l k t ht
    have h0 : endsAll { pair := fun b => b != k, ctx := fun _ b => b != k } t :=
      ⟨fun p hp => by simpa using ht.1 p hp, fun c hc => by simpa using ht.2 c hc⟩
    have h1 := endsAll_foldl (resetFunction none) l (fun t a ht => resetFunction_ends none t a ht) _ h0
    exact ⟨fun p hp => by simpa using h1.1 p hp, fun c hc => by simpa using h1.2 c hc⟩
  have all : ∀ (l : List Nat) (t : State), ∀ k ∈ l,
      (∀ p ∈ (l.foldl (resetFunction none) t).queues.pairs, p.bay ≠ k) ∧ ∀ c ∈ (l.foldl (resetFunction none) t).bay.contexts, c.bay ≠ k := by
    intro l
    induction l with
    | nil => intro t k hk; cases hk
    | cons a r ih =>
      intro t k hk
      rw [List.foldl_cons]
      rcases List.mem_cons.1 hk with rfl | hk
      · exact keep r k _ (resetFunction_clears none t k)
      · exact ih (resetFunction none t a) k hk
  have h := all (List.range 64) s
  have mem : ∀ k, k < 64 → k ∈ List.range 64 := fun k hk => List.mem_range.2 hk
  unfold resetFunctions
  dsimp only
  generalize List.range 64 = l at h mem ⊢
  have pairs : ∀ k, k < 64 → ∀ p ∈ (dropAdminCids (l.foldl (resetFunction none) s)).queues.pairs, p.bay ≠ k := fun k hk p hp => by
    have h0 : endsAll { pair := fun b => b != k, ctx := fun _ _ => true } (l.foldl (resetFunction none) s) :=
      ⟨fun p hp => by simpa using (h k (mem k hk)).1 p hp, fun _ _ => rfl⟩
    simpa using (dropAdminCids_ends _ h0).1 p hp
  exact ⟨fun p hp => Nat.le_of_not_lt fun hk => pairs p.bay hk p hp rfl,
    fun c hc => Nat.le_of_not_lt fun hk => (h c.bay (mem _ hk)).2 c hc rfl⟩

end Sys2Proof.Machine
end

