-- ==== Sys2Proof/Laws/OpsGates.lean ====
section
/-! SUPPORT. Operations that leave the gates of the block (Laws/Gates) alone: completions, logs, events, wakes, pegs, queries,
frames, and the ends of contexts. -/

namespace Sys2Proof.Machine

open Sys2Proof

set_option Elab.async false

variable {G : Gates}

@[simp] theorem emit_gates (s : State) (o : Out) (hw : gatesAre G s) : gatesAre G (emit s o) := by
  unfold emit
  (repeat' split) <;> first | (simp +contextual (maxDischargeDepth := 60) [*]; done) | ((simp +contextual (maxDischargeDepth := 60) [*]; repeat' split) <;> simp +contextual (maxDischargeDepth := 60) [*])

@[simp] theorem bumpFree_gates (s : State) (hw : gatesAre G s) : gatesAre G (bumpFree s) := by
  unfold bumpFree
  (repeat' split) <;> first | (simp +contextual (maxDischargeDepth := 60) [*]; done) | ((simp +contextual (maxDischargeDepth := 60) [*]; repeat' split) <;> simp +contextual (maxDischargeDepth := 60) [*])

@[simp] theorem updPair_gates (s : State) (q : Nat) (f : QPair → QPair) (hw : gatesAre G s) : gatesAre G (updPair s q f) := by
  unfold updPair
  (repeat' split) <;> first | (simp +contextual (maxDischargeDepth := 60) [*]; done) | ((simp +contextual (maxDischargeDepth := 60) [*]; repeat' split) <;> simp +contextual (maxDischargeDepth := 60) [*])

@[simp] theorem updQueue_gates (s : State) (q : Nat) (f : Queue → Queue) (hw : gatesAre G s) : gatesAre G (updQueue s q f) := by
  unfold updQueue
  (repeat' split) <;> first | (simp +contextual (maxDischargeDepth := 60) [*]; done) | ((simp +contextual (maxDischargeDepth := 60) [*]; repeat' split) <;> simp +contextual (maxDischargeDepth := 60) [*])

@[simp] theorem updCmd_gates (s : State) (q cid : Nat) (f : Cmd → Cmd) (hw : gatesAre G s) : gatesAre G (updCmd s q cid f) := by
  unfold updCmd
  (repeat' split) <;> first | (simp +contextual (maxDischargeDepth := 60) [*]; done) | ((simp +contextual (maxDischargeDepth := 60) [*]; repeat' split) <;> simp +contextual (maxDischargeDepth := 60) [*])

@[simp] theorem setBay_gates (s : State) (b : Nat) (v : Bay) (hw : gatesAre G s) : gatesAre G (setBay s b v) := by
  unfold setBay
  (repeat' split) <;> first | (simp +contextual (maxDischargeDepth := 60) [*]; done) | ((simp +contextual (maxDischargeDepth := 60) [*]; repeat' split) <;> simp +contextual (maxDischargeDepth := 60) [*])

@[simp] theorem updBay_gates (s : State) (b : Nat) (f : Bay → Bay) (hw : gatesAre G s) : gatesAre G (updBay s b f) := by
  unfold updBay
  (repeat' split) <;> first | (simp +contextual (maxDischargeDepth := 60) [*]; done) | ((simp +contextual (maxDischargeDepth := 60) [*]; repeat' split) <;> simp +contextual (maxDischargeDepth := 60) [*])

@[simp] theorem updCtx_gates (s : State) (c : Nat) (f : Ctx → Ctx) (hw : gatesAre G s) : gatesAre G (updCtx s c f) := by
  unfold updCtx
  (repeat' split) <;> first | (simp +contextual (maxDischargeDepth := 60) [*]; done) | ((simp +contextual (maxDischargeDepth := 60) [*]; repeat' split) <;> simp +contextual (maxDischargeDepth := 60) [*])

@[simp] theorem updPlan_gates (s : State) (h : Nat) (f : Plan → Plan) (hw : gatesAre G s) : gatesAre G (updPlan s h f) := by
  unfold updPlan
  (repeat' split) <;> first | (simp +contextual (maxDischargeDepth := 60) [*]; done) | ((simp +contextual (maxDischargeDepth := 60) [*]; repeat' split) <;> simp +contextual (maxDischargeDepth := 60) [*])

@[simp] theorem updPeg_gates (s : State) (p : Nat) (f : Peg → Peg) (hw : gatesAre G s) : gatesAre G (updPeg s p f) := by
  unfold updPeg
  (repeat' split) <;> first | (simp +contextual (maxDischargeDepth := 60) [*]; done) | ((simp +contextual (maxDischargeDepth := 60) [*]; repeat' split) <;> simp +contextual (maxDischargeDepth := 60) [*])

@[simp] theorem updQuery_gates (s : State) (slot : Nat) (f : Query → Query) (hw : gatesAre G s) : gatesAre G (updQuery s slot f) := by
  unfold updQuery
  (repeat' split) <;> first | (simp +contextual (maxDischargeDepth := 60) [*]; done) | ((simp +contextual (maxDischargeDepth := 60) [*]; repeat' split) <;> simp +contextual (maxDischargeDepth := 60) [*])

@[simp] theorem updIndex_gates (s : State) (n : Nat) (f : Index → Index) (hw : gatesAre G s) : gatesAre G (updIndex s n f) := by
  unfold updIndex
  (repeat' split) <;> first | (simp +contextual (maxDischargeDepth := 60) [*]; done) | ((simp +contextual (maxDischargeDepth := 60) [*]; repeat' split) <;> simp +contextual (maxDischargeDepth := 60) [*])

@[simp] theorem setFrame_gates (s : State) (e : Frame_) (hw : gatesAre G s) : gatesAre G (setFrame s e) := by
  unfold setFrame
  (repeat' split) <;> first | (simp +contextual (maxDischargeDepth := 60) [*]; done) | ((simp +contextual (maxDischargeDepth := 60) [*]; repeat' split) <;> simp +contextual (maxDischargeDepth := 60) [*])

@[simp] theorem updFrame_gates (s : State) (d : Nat) (f : Frame_ → Frame_) (hw : gatesAre G s) : gatesAre G (updFrame s d f) := by
  unfold updFrame
  (repeat' split) <;> first | (simp +contextual (maxDischargeDepth := 60) [*]; done) | ((simp +contextual (maxDischargeDepth := 60) [*]; repeat' split) <;> simp +contextual (maxDischargeDepth := 60) [*])

@[simp] theorem updLinkCounters_gates (s : State) (fn : Nat) (f : LinkCounters → LinkCounters) (hw : gatesAre G s) : gatesAre G (updLinkCounters s fn f) := by
  unfold updLinkCounters
  (repeat' split) <;> first | (simp +contextual (maxDischargeDepth := 60) [*]; done) | ((simp +contextual (maxDischargeDepth := 60) [*]; repeat' split) <;> simp +contextual (maxDischargeDepth := 60) [*])

@[simp] theorem setDomain_gates (s : State) (d : Domain) (hw : gatesAre G s) : gatesAre G (setDomain s d) := by
  unfold setDomain
  (repeat' split) <;> first | (simp +contextual (maxDischargeDepth := 60) [*]; done) | ((simp +contextual (maxDischargeDepth := 60) [*]; repeat' split) <;> simp +contextual (maxDischargeDepth := 60) [*])

@[simp] theorem raiseVector_gates (s : State) (fn v : Nat) (hw : gatesAre G s) : gatesAre G (raiseVector s fn v) := by
  unfold raiseVector
  (repeat' split) <;> first | (simp +contextual (maxDischargeDepth := 60) [*]; done) | ((simp +contextual (maxDischargeDepth := 60) [*]; repeat' split) <;> simp +contextual (maxDischargeDepth := 60) [*])

@[simp] theorem sendMsix_gates (s : State) (q : Nat) (hw : gatesAre G s) : gatesAre G (sendMsix s q) := by
  unfold sendMsix
  (repeat' split) <;> first | (simp +contextual (maxDischargeDepth := 60) [*]; done) | ((simp +contextual (maxDischargeDepth := 60) [*]; repeat' split) <;> simp +contextual (maxDischargeDepth := 60) [*])

@[simp] theorem afterCommit_gates (s : State) (q : Nat) (hw : gatesAre G s) : gatesAre G (afterCommit s q) := by
  unfold afterCommit
  (repeat' split) <;> first | (simp +contextual (maxDischargeDepth := 60) [*]; done) | ((simp +contextual (maxDischargeDepth := 60) [*]; repeat' split) <;> simp +contextual (maxDischargeDepth := 60) [*])

@[simp] theorem countAfterDelete_gates (s : State) (q : Nat) (hw : gatesAre G s) : gatesAre G (countAfterDelete s q) := by
  unfold countAfterDelete
  (repeat' split) <;> first | (simp +contextual (maxDischargeDepth := 60) [*]; done) | ((simp +contextual (maxDischargeDepth := 60) [*]; repeat' split) <;> simp +contextual (maxDischargeDepth := 60) [*])

@[simp] theorem commitEntry_gates (s : State) (d : Deferred) (hw : gatesAre G s) : gatesAre G (commitEntry s d) := by
  unfold commitEntry
  (repeat' split) <;> first | (simp +contextual (maxDischargeDepth := 60) [*]; done) | ((simp +contextual (maxDischargeDepth := 60) [*]; repeat' split) <;> simp +contextual (maxDischargeDepth := 60) [*])

@[simp] theorem postRecord_gates (s : State) (q : Nat) (c : Cmd) (status result nacc ndiff : Nat) (hw : gatesAre G s) : gatesAre G (postRecord s q c status result nacc ndiff) := by
  unfold postRecord
  (repeat' split) <;> first | (simp +contextual (maxDischargeDepth := 60) [*]; done) | ((simp +contextual (maxDischargeDepth := 60) [*]; repeat' split) <;> simp +contextual (maxDischargeDepth := 60) [*])

@[simp] theorem dropDeferred_gates (s : State) (hw : gatesAre G s) : gatesAre G (dropDeferred s) := by
  unfold dropDeferred
  (repeat' split) <;> first | (simp +contextual (maxDischargeDepth := 60) [*]; done) | ((simp +contextual (maxDischargeDepth := 60) [*]; repeat' split) <;> simp +contextual (maxDischargeDepth := 60) [*])

@[simp] theorem postCompletion_gates (s : State) (q cid status result : Nat) (hw : gatesAre G s) : gatesAre G (postCompletion s q cid status result) := by
  unfold postCompletion
  (repeat' split) <;> first | (simp +contextual (maxDischargeDepth := 60) [*]; done) | ((simp +contextual (maxDischargeDepth := 60) [*]; repeat' split) <;> simp +contextual (maxDischargeDepth := 60) [*])

@[simp] theorem sendFrame_gates (s : State) (dest : Nat) (h : BitVec 256) (v : Bytes) (hw : gatesAre G s) : gatesAre G (sendFrame s dest h v) := by
  unfold sendFrame
  (repeat' split) <;> first | (simp +contextual (maxDischargeDepth := 60) [*]; done) | ((simp +contextual (maxDischargeDepth := 60) [*]; repeat' split) <;> simp +contextual (maxDischargeDepth := 60) [*])

@[simp] theorem emitEvent_gates (s : State) (seq : BitVec 16) (retx : Bool) (code : Nat) (data : Word64) (hw : gatesAre G s) : gatesAre G (emitEvent s seq retx code data) := by
  unfold emitEvent
  (repeat' split) <;> first | (simp +contextual (maxDischargeDepth := 60) [*]; done) | ((simp +contextual (maxDischargeDepth := 60) [*]; repeat' split) <;> simp +contextual (maxDischargeDepth := 60) [*])

@[simp] theorem sendEvent_gates (s : State) (code : Nat) (data : Word64) (hw : gatesAre G s) : gatesAre G (sendEvent s code data) := by
  unfold sendEvent
  (repeat' split) <;> first | (simp +contextual (maxDischargeDepth := 60) [*]; done) | ((simp +contextual (maxDischargeDepth := 60) [*]; repeat' split) <;> simp +contextual (maxDischargeDepth := 60) [*])

@[simp] theorem refreshAlert_gates (s : State) (hw : gatesAre G s) : gatesAre G (refreshAlert s) := by
  unfold refreshAlert
  (repeat' split) <;> first | (simp +contextual (maxDischargeDepth := 60) [*]; done) | ((simp +contextual (maxDischargeDepth := 60) [*]; repeat' split) <;> simp +contextual (maxDischargeDepth := 60) [*])

@[simp] theorem logEntry_gates (s : State) (cls sev unit detail : Nat) (ctx : Option (Nat × Nat)) (hw : gatesAre G s) : gatesAre G (logEntry s cls sev unit detail ctx) := by
  unfold logEntry
  (repeat' split) <;> first | (simp +contextual (maxDischargeDepth := 60) [*]; done) | ((simp +contextual (maxDischargeDepth := 60) [*]; repeat' split) <;> simp +contextual (maxDischargeDepth := 60) [*])

@[simp] theorem logError_gates (s : State) (cls unit detail : Nat) (ctx : Option (Nat × Nat)) (hw : gatesAre G s) : gatesAre G (logError s cls unit detail ctx) := by
  unfold logError
  (repeat' split) <;> first | (simp +contextual (maxDischargeDepth := 60) [*]; done) | ((simp +contextual (maxDischargeDepth := 60) [*]; repeat' split) <;> simp +contextual (maxDischargeDepth := 60) [*])

@[simp] theorem raiseEvent_gates (s : State) (code : Nat) (data : Word64) (hw : gatesAre G s) : gatesAre G (raiseEvent s code data) := by
  unfold raiseEvent
  (repeat' split) <;> first | (simp +contextual (maxDischargeDepth := 60) [*]; done) | ((simp +contextual (maxDischargeDepth := 60) [*]; repeat' split) <;> simp +contextual (maxDischargeDepth := 60) [*])

@[simp] theorem refreshLevel_gates (s : State) (g : Nat) (hw : gatesAre G s) : gatesAre G (refreshLevel s g) := by
  unfold refreshLevel
  (repeat' split) <;> first | (simp +contextual (maxDischargeDepth := 60) [*]; done) | ((simp +contextual (maxDischargeDepth := 60) [*]; repeat' split) <;> simp +contextual (maxDischargeDepth := 60) [*])

@[simp] theorem refreshLevels_gates (s : State) (hw : gatesAre G s) : gatesAre G (refreshLevels s) := by
  unfold refreshLevels
  (repeat' split) <;> first | (simp +contextual (maxDischargeDepth := 60) [*]; done) | ((simp +contextual (maxDischargeDepth := 60) [*]; repeat' split) <;> simp +contextual (maxDischargeDepth := 60) [*])

@[simp] theorem wakeOne_gates (s : State) (n source : Nat) (hw : gatesAre G s) : gatesAre G (wakeOne s n source) := by
  unfold wakeOne
  (repeat' split) <;> first | (simp +contextual (maxDischargeDepth := 60) [*]; done) | ((simp +contextual (maxDischargeDepth := 60) [*]; repeat' split) <;> simp +contextual (maxDischargeDepth := 60) [*])

@[simp] theorem startWake_gates (s : State) (n source : Nat) (hw : gatesAre G s) : gatesAre G (startWake s n source) := by
  unfold startWake
  (repeat' split) <;> first | (simp +contextual (maxDischargeDepth := 60) [*]; done) | ((simp +contextual (maxDischargeDepth := 60) [*]; repeat' split) <;> simp +contextual (maxDischargeDepth := 60) [*])

@[simp] theorem needDomains_gates (s : State) (ds : List Nat) (hw : gatesAre G s) : gatesAre G (needDomains s ds) := by
  unfold needDomains
  (repeat' split) <;> first | (simp +contextual (maxDischargeDepth := 60) [*]; done) | ((simp +contextual (maxDischargeDepth := 60) [*]; repeat' split) <;> simp +contextual (maxDischargeDepth := 60) [*])

@[simp] theorem wakeCapped_gates (s : State) (hw : gatesAre G s) : gatesAre G (wakeCapped s) := by
  unfold wakeCapped
  (repeat' split) <;> first | (simp +contextual (maxDischargeDepth := 60) [*]; done) | ((simp +contextual (maxDischargeDepth := 60) [*]; repeat' split) <;> simp +contextual (maxDischargeDepth := 60) [*])

@[simp] theorem writeHeader_gates (s : State) (q cid pos : Nat) (h : Header) (hw : gatesAre G s) : gatesAre G (writeHeader s q cid pos h) := by
  unfold writeHeader
  (repeat' split) <;> first | (simp +contextual (maxDischargeDepth := 60) [*]; done) | ((simp +contextual (maxDischargeDepth := 60) [*]; repeat' split) <;> simp +contextual (maxDischargeDepth := 60) [*])

@[simp] theorem dropQueries_gates (s : State) (p : Query → Bool) (hw : gatesAre G s) : gatesAre G (dropQueries s p) := by
  unfold dropQueries
  (repeat' split) <;> first | (simp +contextual (maxDischargeDepth := 60) [*]; done) | ((simp +contextual (maxDischargeDepth := 60) [*]; repeat' split) <;> simp +contextual (maxDischargeDepth := 60) [*])

@[simp] theorem endQuery_gates (s : State) (x : Query) (h : Header) (hw : gatesAre G s) : gatesAre G (endQuery s x h) := by
  unfold endQuery
  (repeat' split) <;> first | (simp +contextual (maxDischargeDepth := 60) [*]; done) | ((simp +contextual (maxDischargeDepth := 60) [*]; repeat' split) <;> simp +contextual (maxDischargeDepth := 60) [*])

@[simp] theorem failQuery_gates (s : State) (x : Query) (status : Nat) (hw : gatesAre G s) : gatesAre G (failQuery s x status) := by
  unfold failQuery
  (repeat' split) <;> first | (simp +contextual (maxDischargeDepth := 60) [*]; done) | ((simp +contextual (maxDischargeDepth := 60) [*]; repeat' split) <;> simp +contextual (maxDischargeDepth := 60) [*])

@[simp] theorem progressCtx_gates (s : State) (c : Nat) (hw : gatesAre G s) : gatesAre G (progressCtx s c) := by
  unfold progressCtx
  (repeat' split) <;> first | (simp +contextual (maxDischargeDepth := 60) [*]; done) | ((simp +contextual (maxDischargeDepth := 60) [*]; repeat' split) <;> simp +contextual (maxDischargeDepth := 60) [*])

@[simp] theorem dropBatch_gates (s : State) (q cid : Nat) (hw : gatesAre G s) : gatesAre G (dropBatch s q cid) := by
  unfold dropBatch
  (repeat' split) <;> first | (simp +contextual (maxDischargeDepth := 60) [*]; done) | ((simp +contextual (maxDischargeDepth := 60) [*]; repeat' split) <;> simp +contextual (maxDischargeDepth := 60) [*])

@[simp] theorem abandonCmd_gates (s : State) (q : Nat) (c : Cmd) (result : Nat) (hw : gatesAre G s) : gatesAre G (abandonCmd s q c result) := by
  unfold abandonCmd
  (repeat' split) <;> first | (simp +contextual (maxDischargeDepth := 60) [*]; done) | ((simp +contextual (maxDischargeDepth := 60) [*]; repeat' split) <;> simp +contextual (maxDischargeDepth := 60) [*])

@[simp] theorem endWait_gates (s : State) (w : PegWait) (status : Nat) (hw : gatesAre G s) : gatesAre G (endWait s w status) := by
  unfold endWait
  (repeat' split) <;> first | (simp +contextual (maxDischargeDepth := 60) [*]; done) | ((simp +contextual (maxDischargeDepth := 60) [*]; repeat' split) <;> simp +contextual (maxDischargeDepth := 60) [*])

@[simp] theorem serveWait_gates (s : State) (w : PegWait) (status : Nat) (hw : gatesAre G s) : gatesAre G (serveWait s w status) := by
  unfold serveWait
  (repeat' split) <;> first | (simp +contextual (maxDischargeDepth := 60) [*]; done) | ((simp +contextual (maxDischargeDepth := 60) [*]; repeat' split) <;> simp +contextual (maxDischargeDepth := 60) [*])

@[simp] theorem takePeg_gates (s : State) (p ctx : Nat) (hw : gatesAre G s) : gatesAre G (takePeg s p ctx) := by
  unfold takePeg
  (repeat' split) <;> first | (simp +contextual (maxDischargeDepth := 60) [*]; done) | ((simp +contextual (maxDischargeDepth := 60) [*]; repeat' split) <;> simp +contextual (maxDischargeDepth := 60) [*])

@[simp] theorem wakeWaitingCuts_gates (s : State) (p : Nat) (v : Word64) (hw : gatesAre G s) : gatesAre G (wakeWaitingCuts s p v) := by
  unfold wakeWaitingCuts
  refine gatesAre_foldl _ _ (fun t a ht => ?_) _ (by simp +contextual (maxDischargeDepth := 60) [*])
  (repeat' split) <;> simp +contextual (maxDischargeDepth := 60) [*]

@[simp] theorem settlePeg_gates (s : State) (p : Nat) (hw : gatesAre G s) : gatesAre G (settlePeg s p) := by
  unfold settlePeg
  (repeat' split) <;> first | (simp +contextual (maxDischargeDepth := 60) [*]; done) | ((simp +contextual (maxDischargeDepth := 60) [*]; repeat' split) <;> simp +contextual (maxDischargeDepth := 60) [*])

@[simp] theorem breakPeg_gates (s : State) (p : Nat) (hw : gatesAre G s) : gatesAre G (breakPeg s p) := by
  unfold breakPeg
  (repeat' split) <;> first | (simp +contextual (maxDischargeDepth := 60) [*]; done) | ((simp +contextual (maxDischargeDepth := 60) [*]; repeat' split) <;> simp +contextual (maxDischargeDepth := 60) [*])

@[simp] theorem breakHeld_gates (s : State) (ctx : Nat) (hw : gatesAre G s) : gatesAre G (breakHeld s ctx) := by
  unfold breakHeld
  (repeat' split) <;> first | (simp +contextual (maxDischargeDepth := 60) [*]; done) | ((simp +contextual (maxDischargeDepth := 60) [*]; repeat' split) <;> simp +contextual (maxDischargeDepth := 60) [*])

@[simp] theorem endRunsOnPeg_gates (s : State) (p status : Nat) (hw : gatesAre G s) : gatesAre G (endRunsOnPeg s p status) := by
  unfold endRunsOnPeg
  (repeat' split) <;> first | (simp +contextual (maxDischargeDepth := 60) [*]; done) | ((simp +contextual (maxDischargeDepth := 60) [*]; repeat' split) <;> simp +contextual (maxDischargeDepth := 60) [*])

@[simp] theorem freePeg_gates (s : State) (p : Nat) (hw : gatesAre G s) : gatesAre G (freePeg s p) := by
  unfold freePeg
  (repeat' split) <;> first | (simp +contextual (maxDischargeDepth := 60) [*]; done) | ((simp +contextual (maxDischargeDepth := 60) [*]; repeat' split) <;> simp +contextual (maxDischargeDepth := 60) [*])

@[simp] theorem freePegsOf_gates (s : State) (ctx : Nat) (hw : gatesAre G s) : gatesAre G (freePegsOf s ctx) := by
  unfold freePegsOf
  (repeat' split) <;> first | (simp +contextual (maxDischargeDepth := 60) [*]; done) | ((simp +contextual (maxDischargeDepth := 60) [*]; repeat' split) <;> simp +contextual (maxDischargeDepth := 60) [*])

@[simp] theorem raisePeg_gates (s : State) (p : Nat) (hw : gatesAre G s) : gatesAre G (raisePeg s p) := by
  unfold raisePeg
  (repeat' split) <;> first | (simp +contextual (maxDischargeDepth := 60) [*]; done) | ((simp +contextual (maxDischargeDepth := 60) [*]; repeat' split) <;> simp +contextual (maxDischargeDepth := 60) [*])

@[simp] theorem markDirty_gates (s : State) (d sector : Nat) (hw : gatesAre G s) : gatesAre G (markDirty s d sector) := by
  unfold markDirty
  (repeat' split) <;> first | (simp +contextual (maxDischargeDepth := 60) [*]; done) | ((simp +contextual (maxDischargeDepth := 60) [*]; repeat' split) <;> simp +contextual (maxDischargeDepth := 60) [*])

@[simp] theorem refreshPoison_gates (s : State) (d : Nat) (hw : gatesAre G s) : gatesAre G (refreshPoison s d) := by
  unfold refreshPoison
  (repeat' split) <;> first | (simp +contextual (maxDischargeDepth := 60) [*]; done) | ((simp +contextual (maxDischargeDepth := 60) [*]; repeat' split) <;> simp +contextual (maxDischargeDepth := 60) [*])

@[simp] theorem setMoved_gates (s : State) (p : Nat → Bool) (hw : gatesAre G s) : gatesAre G (setMoved s p) := by
  unfold setMoved
  (repeat' split) <;> first | (simp +contextual (maxDischargeDepth := 60) [*]; done) | ((simp +contextual (maxDischargeDepth := 60) [*]; repeat' split) <;> simp +contextual (maxDischargeDepth := 60) [*])

@[simp] theorem moveWritten_gates (s : State) (d off n : Nat) (hw : gatesAre G s) : gatesAre G (moveWritten s d off n) := by
  unfold moveWritten
  (repeat' split) <;> first | (simp +contextual (maxDischargeDepth := 60) [*]; done) | ((simp +contextual (maxDischargeDepth := 60) [*]; repeat' split) <;> simp +contextual (maxDischargeDepth := 60) [*])

@[simp] theorem frameWrite_gates (s : State) (d off : Nat) (bs : Bytes) (hw : gatesAre G s) : gatesAre G (frameWrite s d off bs) := by
  unfold frameWrite
  (repeat' split) <;> first | (simp +contextual (maxDischargeDepth := 60) [*]; done) | ((simp +contextual (maxDischargeDepth := 60) [*]; repeat' split) <;> simp +contextual (maxDischargeDepth := 60) [*])

@[simp] theorem nowSpecified_gates (s : State) (sector : Nat) (hw : gatesAre G s) : gatesAre G (nowSpecified s sector) := by
  unfold nowSpecified
  (repeat' split) <;> first | (simp +contextual (maxDischargeDepth := 60) [*]; done) | ((simp +contextual (maxDischargeDepth := 60) [*]; repeat' split) <;> simp +contextual (maxDischargeDepth := 60) [*])

@[simp] theorem rewriteBlocks_gates (s : State) (a n : Nat) (hw : gatesAre G s) : gatesAre G (rewriteBlocks s a n) := by
  unfold rewriteBlocks
  (repeat' split) <;> first | (simp +contextual (maxDischargeDepth := 60) [*]; done) | ((simp +contextual (maxDischargeDepth := 60) [*]; repeat' split) <;> simp +contextual (maxDischargeDepth := 60) [*])

@[simp] theorem pageWrite_gates (s : State) (a : Nat) (bs : Bytes) (hw : gatesAre G s) : gatesAre G (pageWrite s a bs) := by
  unfold pageWrite
  (repeat' split) <;> first | (simp +contextual (maxDischargeDepth := 60) [*]; done) | ((simp +contextual (maxDischargeDepth := 60) [*]; repeat' split) <;> simp +contextual (maxDischargeDepth := 60) [*])

@[simp] theorem clearFrame_gates (s : State) (d : Nat) (hw : gatesAre G s) : gatesAre G (clearFrame s d) := by
  unfold clearFrame
  (repeat' split) <;> first | (simp +contextual (maxDischargeDepth := 60) [*]; done) | ((simp +contextual (maxDischargeDepth := 60) [*]; repeat' split) <;> simp +contextual (maxDischargeDepth := 60) [*])

@[simp] theorem sweepPast_gates (s : State) (b : Nat) (v : Frame_) (hw : gatesAre G s) : gatesAre G (sweepPast s b v) := by
  unfold sweepPast
  (repeat' split) <;> first | (simp +contextual (maxDischargeDepth := 60) [*]; done) | ((simp +contextual (maxDischargeDepth := 60) [*]; repeat' split) <;> simp +contextual (maxDischargeDepth := 60) [*])

@[simp] theorem freeFrame_gates (s : State) (d : Nat) (hw : gatesAre G s) : gatesAre G (freeFrame s d) := by
  unfold freeFrame
  (repeat' split) <;> first | (simp +contextual (maxDischargeDepth := 60) [*]; done) | ((simp +contextual (maxDischargeDepth := 60) [*]; repeat' split) <;> simp +contextual (maxDischargeDepth := 60) [*])

@[simp] theorem startWriteback_gates (s : State) (d : Nat) (hw : gatesAre G s) : gatesAre G (startWriteback s d) := by
  unfold startWriteback
  (repeat' split) <;> first | (simp +contextual (maxDischargeDepth := 60) [*]; done) | ((simp +contextual (maxDischargeDepth := 60) [*]; repeat' split) <;> simp +contextual (maxDischargeDepth := 60) [*])

@[simp] theorem touchPage_gates (s : State) (page hint : Nat) (hw : gatesAre G s) : gatesAre G (touchPage s page hint) := by
  unfold touchPage
  (repeat' split) <;> first | (simp +contextual (maxDischargeDepth := 60) [*]; done) | ((simp +contextual (maxDischargeDepth := 60) [*]; repeat' split) <;> simp +contextual (maxDischargeDepth := 60) [*])

@[simp] theorem poisonDev_gates (s : State) (a : Nat) (hw : gatesAre G s) : gatesAre G (poisonDev s a) := by
  unfold poisonDev
  (repeat' split) <;> first | (simp +contextual (maxDischargeDepth := 60) [*]; done) | ((simp +contextual (maxDischargeDepth := 60) [*]; repeat' split) <;> simp +contextual (maxDischargeDepth := 60) [*])

@[simp] theorem setBankHealth_gates (s : State) (v : BankHealth) (hw : gatesAre G s) : gatesAre G (setBankHealth s v) := by
  unfold setBankHealth
  (repeat' split) <;> first | (simp +contextual (maxDischargeDepth := 60) [*]; done) | ((simp +contextual (maxDischargeDepth := 60) [*]; repeat' split) <;> simp +contextual (maxDischargeDepth := 60) [*])

@[simp] theorem noteCorrected_gates (s : State) (bank row : Nat) (hw : gatesAre G s) : gatesAre G (noteCorrected s bank row) := by
  unfold noteCorrected
  (repeat' split) <;> first | (simp +contextual (maxDischargeDepth := 60) [*]; done) | ((simp +contextual (maxDischargeDepth := 60) [*]; repeat' split) <;> simp +contextual (maxDischargeDepth := 60) [*])

@[simp] theorem readBlock_gates (s : State) (a : Nat) (wrong : List (Nat × Byte)) (hw : gatesAre G s) : gatesAre G (readBlock s a wrong).1 := by
  unfold readBlock
  (repeat' split) <;> first | (simp +contextual (maxDischargeDepth := 60) [*]; done) | ((simp +contextual (maxDischargeDepth := 60) [*]; repeat' split) <;> simp +contextual (maxDischargeDepth := 60) [*])

@[simp] theorem freeBlock_gates (s : State) (hw : gatesAre G s) : gatesAre G (freeBlock s).1 := by
  unfold freeBlock
  (repeat' split) <;> first | (simp +contextual (maxDischargeDepth := 60) [*]; done) | ((simp +contextual (maxDischargeDepth := 60) [*]; repeat' split) <;> simp +contextual (maxDischargeDepth := 60) [*])

@[simp] theorem answerRead_gates (s : State) (a : Nat) (wrong : List (Nat × Byte)) (hw : gatesAre G s) : gatesAre G (answerRead s a wrong) := by
  unfold answerRead
  (repeat' split) <;> first | (simp +contextual (maxDischargeDepth := 60) [*]; done) | ((simp +contextual (maxDischargeDepth := 60) [*]; repeat' split) <;> simp +contextual (maxDischargeDepth := 60) [*])

@[simp] theorem hostWrite_gates (s : State) (a : Nat) (bs : Bytes) (hw : gatesAre G s) : gatesAre G (hostWrite s a bs) := by
  unfold hostWrite
  (repeat' split) <;> first | (simp +contextual (maxDischargeDepth := 60) [*]; done) | ((simp +contextual (maxDischargeDepth := 60) [*]; repeat' split) <;> simp +contextual (maxDischargeDepth := 60) [*])

@[simp] theorem serveAccess_gates (s : State) (w : Nat × Option Bytes) (hw : gatesAre G s) : gatesAre G (serveAccess s w) := by
  unfold serveAccess
  (repeat' split) <;> first | (simp +contextual (maxDischargeDepth := 60) [*]; done) | ((simp +contextual (maxDischargeDepth := 60) [*]; repeat' split) <;> simp +contextual (maxDischargeDepth := 60) [*])

@[simp] theorem serveReady_gates (s : State) (hw : gatesAre G s) : gatesAre G (serveReady s) := by
  unfold serveReady
  (repeat' split) <;> first | (simp +contextual (maxDischargeDepth := 60) [*]; done) | ((simp +contextual (maxDischargeDepth := 60) [*]; repeat' split) <;> simp +contextual (maxDischargeDepth := 60) [*])

@[simp] theorem takeFrame_gates (s : State) (b : Nat) (hw : gatesAre G s) : gatesAre G (takeFrame s b).1 := by
  unfold takeFrame
  (repeat' split) <;> first | (simp +contextual (maxDischargeDepth := 60) [*]; done) | ((simp +contextual (maxDischargeDepth := 60) [*]; repeat' split) <;> simp +contextual (maxDischargeDepth := 60) [*])

@[simp] theorem faultPage_gates (s : State) (page hint sector : Nat) (hw : gatesAre G s) : gatesAre G (faultPage s page hint sector) := by
  unfold faultPage
  (repeat' split) <;> first | (simp +contextual (maxDischargeDepth := 60) [*]; done) | ((simp +contextual (maxDischargeDepth := 60) [*]; repeat' split) <;> simp +contextual (maxDischargeDepth := 60) [*])

@[simp] theorem unpinPage_gates (s : State) (page : Nat) (hw : gatesAre G s) : gatesAre G (unpinPage s page) := by
  unfold unpinPage
  (repeat' split) <;> first | (simp +contextual (maxDischargeDepth := 60) [*]; done) | ((simp +contextual (maxDischargeDepth := 60) [*]; repeat' split) <;> simp +contextual (maxDischargeDepth := 60) [*])

@[simp] theorem dropLocal_gates (s : State) (fs : List Nat) (hw : gatesAre G s) : gatesAre G (dropLocal s fs) := by
  unfold dropLocal
  (repeat' split) <;> first | (simp +contextual (maxDischargeDepth := 60) [*]; done) | ((simp +contextual (maxDischargeDepth := 60) [*]; repeat' split) <;> simp +contextual (maxDischargeDepth := 60) [*])

@[simp] theorem dropLeaves_gates (s : State) (hw : gatesAre G s) : gatesAre G (dropLeaves s) := by
  unfold dropLeaves
  (repeat' split) <;> first | (simp +contextual (maxDischargeDepth := 60) [*]; done) | ((simp +contextual (maxDischargeDepth := 60) [*]; repeat' split) <;> simp +contextual (maxDischargeDepth := 60) [*])

@[simp] theorem releaseRegion_gates (s : State) (r : Region) (zeroing : Bool) (hw : gatesAre G s) : gatesAre G (releaseRegion s r zeroing) := by
  unfold releaseRegion
  (repeat' split) <;> first | (simp +contextual (maxDischargeDepth := 60) [*]; done) | ((simp +contextual (maxDischargeDepth := 60) [*]; repeat' split) <;> simp +contextual (maxDischargeDepth := 60) [*])

@[simp] theorem setRimeBank_gates (s : State) (b : RimeBank) (hw : gatesAre G s) : gatesAre G (setRimeBank s b) := by
  unfold setRimeBank
  (repeat' split) <;> first | (simp +contextual (maxDischargeDepth := 60) [*]; done) | ((simp +contextual (maxDischargeDepth := 60) [*]; repeat' split) <;> simp +contextual (maxDischargeDepth := 60) [*])

@[simp] theorem writeResult_gates (s : State) (cell : Nat) (d : BitVec 256) (bs : Bytes) (hw : gatesAre G s) : gatesAre G (writeResult s cell d bs) := by
  unfold writeResult
  (repeat' split) <;> first | (simp +contextual (maxDischargeDepth := 60) [*]; done) | ((simp +contextual (maxDischargeDepth := 60) [*]; repeat' split) <;> simp +contextual (maxDischargeDepth := 60) [*])

@[simp] theorem signalRequest_gates (s : State) (r : RimeReq) (hw : gatesAre G s) : gatesAre G (signalRequest s r 6) := by
  unfold signalRequest
  simp only [beq_self_eq_true, if_true]
  (repeat' split) <;> first | exact hw | simp +contextual (maxDischargeDepth := 60) [*]

@[simp] theorem chargeRequest_gates (s : State) (r : RimeReq) (u : RimeUnit) (code : Nat) (hw : gatesAre G s) : gatesAre G (chargeRequest s r u code) := by
  unfold chargeRequest
  (repeat' split) <;> first | (simp +contextual (maxDischargeDepth := 60) [*]; done) | ((simp +contextual (maxDischargeDepth := 60) [*]; repeat' split) <;> simp +contextual (maxDischargeDepth := 60) [*])

@[simp] theorem finishRequest_gates (s : State) (r : RimeReq) (u : RimeUnit) (hw : gatesAre G s) : gatesAre G (finishRequest s r u 6) := by
  unfold finishRequest
  simp +contextual (maxDischargeDepth := 60) [*]

@[simp] theorem abortRimeOf_gates (s : State) (ctx : Nat) (hw : gatesAre G s) : gatesAre G (abortRimeOf s ctx) := by
  unfold abortRimeOf
  (repeat' split) <;> first | (simp +contextual (maxDischargeDepth := 60) [*]; done) | ((simp +contextual (maxDischargeDepth := 60) [*]; repeat' split) <;> simp +contextual (maxDischargeDepth := 60) [*])

@[simp] theorem giveBack_gates (s : State) (r : Region) (hw : gatesAre G s) : gatesAre G (giveBack s r) := by
  unfold giveBack
  (repeat' split) <;> first | (simp +contextual (maxDischargeDepth := 60) [*]; done) | ((simp +contextual (maxDischargeDepth := 60) [*]; repeat' split) <;> simp +contextual (maxDischargeDepth := 60) [*])

@[simp] theorem dropRegionAt_gates (s : State) (base : Nat) (hw : gatesAre G s) : gatesAre G (dropRegionAt s base) := by
  unfold dropRegionAt
  (repeat' split) <;> first | (simp +contextual (maxDischargeDepth := 60) [*]; done) | ((simp +contextual (maxDischargeDepth := 60) [*]; repeat' split) <;> simp +contextual (maxDischargeDepth := 60) [*])

@[simp] theorem dropScratchSet_gates (s : State) (b : Nat) (hw : gatesAre G s) : gatesAre G (dropScratchSet s b) := by
  unfold dropScratchSet
  (repeat' split) <;> first | (simp +contextual (maxDischargeDepth := 60) [*]; done) | ((simp +contextual (maxDischargeDepth := 60) [*]; repeat' split) <;> simp +contextual (maxDischargeDepth := 60) [*])

@[simp] theorem clearSectors_gates (s : State) (b k : Nat) (hw : gatesAre G s) : gatesAre G (clearSectors s b k) := by
  unfold clearSectors
  (repeat' split) <;> first | (simp +contextual (maxDischargeDepth := 60) [*]; done) | ((simp +contextual (maxDischargeDepth := 60) [*]; repeat' split) <;> simp +contextual (maxDischargeDepth := 60) [*])

@[simp] theorem unpinWeights_gates (s : State) (p : Plan) (hw : gatesAre G s) : gatesAre G (unpinWeights s p) := by
  unfold unpinWeights
  (repeat' split) <;> first | (simp +contextual (maxDischargeDepth := 60) [*]; done) | ((simp +contextual (maxDischargeDepth := 60) [*]; repeat' split) <;> simp +contextual (maxDischargeDepth := 60) [*])

@[simp] theorem reevalPieces_gates (s : State) (hw : gatesAre G s) : gatesAre G (reevalPieces s) := by
  unfold reevalPieces
  (repeat' split) <;> first | (simp +contextual (maxDischargeDepth := 60) [*]; done) | ((simp +contextual (maxDischargeDepth := 60) [*]; repeat' split) <;> simp +contextual (maxDischargeDepth := 60) [*])

@[simp] theorem releasePlan_gates (s : State) (h : Nat) (hw : gatesAre G s) : gatesAre G (releasePlan s h) := by
  unfold releasePlan
  (repeat' split) <;> first | (simp +contextual (maxDischargeDepth := 60) [*]; done) | ((simp +contextual (maxDischargeDepth := 60) [*]; repeat' split) <;> simp +contextual (maxDischargeDepth := 60) [*])

@[simp] theorem endContext_gates (s : State) (ctx : Nat) (hw : gatesAre G s) : gatesAre G (endContext s ctx) := by
  unfold endContext
  (repeat' split) <;> first | (simp +contextual (maxDischargeDepth := 60) [*]; done) | ((simp +contextual (maxDischargeDepth := 60) [*]; repeat' split) <;> simp +contextual (maxDischargeDepth := 60) [*])

@[simp] theorem trimParts_gates (s : State) (index : Nat) (hw : gatesAre G s) : gatesAre G (trimParts s index) := by
  unfold trimParts
  (repeat' split) <;> first | (simp +contextual (maxDischargeDepth := 60) [*]; done) | ((simp +contextual (maxDischargeDepth := 60) [*]; repeat' split) <;> simp +contextual (maxDischargeDepth := 60) [*])

@[simp] theorem endMerge_gates (s : State) (index : Nat) (status : Option Nat) (hw : gatesAre G s) : gatesAre G (endMerge s index status) := by
  unfold endMerge
  (repeat' split) <;> first | (simp +contextual (maxDischargeDepth := 60) [*]; done) | ((simp +contextual (maxDischargeDepth := 60) [*]; repeat' split) <;> simp +contextual (maxDischargeDepth := 60) [*])

@[simp] theorem cutMerges_gates (s : State) (p : MergeState → Bool) (status : Option Nat) (hw : gatesAre G s) : gatesAre G (cutMerges s p status) := by
  unfold cutMerges
  (repeat' split) <;> first | (simp +contextual (maxDischargeDepth := 60) [*]; done) | ((simp +contextual (maxDischargeDepth := 60) [*]; repeat' split) <;> simp +contextual (maxDischargeDepth := 60) [*])

@[simp] theorem dropWaits_gates (s : State) (ctx : Nat) (hw : gatesAre G s) : gatesAre G (dropWaits s ctx) := by
  unfold dropWaits
  (repeat' split) <;> first | (simp +contextual (maxDischargeDepth := 60) [*]; done) | ((simp +contextual (maxDischargeDepth := 60) [*]; repeat' split) <;> simp +contextual (maxDischargeDepth := 60) [*])

@[simp] theorem abandonCmds_gates (s : State) (ctx : Nat) (hw : gatesAre G s) : gatesAre G (abandonCmds s ctx) := by
  unfold abandonCmds
  (repeat' split) <;> first | (simp +contextual (maxDischargeDepth := 60) [*]; done) | ((simp +contextual (maxDischargeDepth := 60) [*]; repeat' split) <;> simp +contextual (maxDischargeDepth := 60) [*])

@[simp] theorem stopPairs_gates (s : State) (ctx : Nat) (hw : gatesAre G s) : gatesAre G (stopPairs s ctx) := by
  unfold stopPairs
  (repeat' split) <;> first | (simp +contextual (maxDischargeDepth := 60) [*]; done) | ((simp +contextual (maxDischargeDepth := 60) [*]; repeat' split) <;> simp +contextual (maxDischargeDepth := 60) [*])

@[simp] theorem tearDown_gates (s : State) (ctx : Nat) (hw : gatesAre G s) : gatesAre G (tearDown s ctx) := by
  unfold tearDown
  (repeat' split) <;> first | (simp +contextual (maxDischargeDepth := 60) [*]; done) | ((simp +contextual (maxDischargeDepth := 60) [*]; repeat' split) <;> simp +contextual (maxDischargeDepth := 60) [*])

@[simp] theorem resetContext_gates (status : Option Nat) (s : State) (ctx : Nat) (hw : gatesAre G s) : gatesAre G (resetContext status s ctx) := by
  unfold resetContext
  (repeat' split) <;> first | (simp +contextual (maxDischargeDepth := 60) [*]; done) | ((simp +contextual (maxDischargeDepth := 60) [*]; repeat' split) <;> simp +contextual (maxDischargeDepth := 60) [*])

@[simp] theorem endReclaimed_gates (s : State) (ctx : Nat) (hw : gatesAre G s) : gatesAre G (endReclaimed s ctx) := by
  unfold endReclaimed
  (repeat' split) <;> first | (simp +contextual (maxDischargeDepth := 60) [*]; done) | ((simp +contextual (maxDischargeDepth := 60) [*]; repeat' split) <;> simp +contextual (maxDischargeDepth := 60) [*])

@[simp] theorem resetFunction_gates (status : Option Nat) (s : State) (fn : Nat) (hw : gatesAre G s) : gatesAre G (resetFunction status s fn) := by
  unfold resetFunction
  (repeat' split) <;> first | (simp +contextual (maxDischargeDepth := 60) [*]; done) | ((simp +contextual (maxDischargeDepth := 60) [*]; repeat' split) <;> simp +contextual (maxDischargeDepth := 60) [*])

@[simp] theorem completeAfter_gates (s : State) (q cid status result : Nat) (channels : List Nat) (hw : gatesAre G s) : gatesAre G (completeAfter s q cid status result channels) := by
  unfold completeAfter
  (repeat' split) <;> first | (simp +contextual (maxDischargeDepth := 60) [*]; done) | ((simp +contextual (maxDischargeDepth := 60) [*]; repeat' split) <;> simp +contextual (maxDischargeDepth := 60) [*])

@[simp] theorem completeAfterWake_gates (s : State) (q cid status result : Nat) (hw : gatesAre G s) : gatesAre G (completeAfterWake s q cid status result) := by
  unfold completeAfterWake
  (repeat' split) <;> first | (simp +contextual (maxDischargeDepth := 60) [*]; done) | ((simp +contextual (maxDischargeDepth := 60) [*]; repeat' split) <;> simp +contextual (maxDischargeDepth := 60) [*])

@[simp] theorem releaseHeld_gates (s : State) (f : Cmd → Cmd) (hw : gatesAre G s) : gatesAre G (releaseHeld s f) := by
  unfold releaseHeld
  (repeat' split) <;> first | (simp +contextual (maxDischargeDepth := 60) [*]; done) | ((simp +contextual (maxDischargeDepth := 60) [*]; repeat' split) <;> simp +contextual (maxDischargeDepth := 60) [*])

@[simp] theorem releaseWakeWaits_gates (s : State) (n : Nat) (hw : gatesAre G s) : gatesAre G (releaseWakeWaits s n) := by
  unfold releaseWakeWaits
  (repeat' split) <;> first | (simp +contextual (maxDischargeDepth := 60) [*]; done) | ((simp +contextual (maxDischargeDepth := 60) [*]; repeat' split) <;> simp +contextual (maxDischargeDepth := 60) [*])

@[simp] theorem retryCopies_gates (s : State) (hw : gatesAre G s) : gatesAre G (retryCopies s) := by
  unfold retryCopies
  (repeat' split) <;> first | (simp +contextual (maxDischargeDepth := 60) [*]; done) | ((simp +contextual (maxDischargeDepth := 60) [*]; repeat' split) <;> simp +contextual (maxDischargeDepth := 60) [*])

@[simp] theorem retryFaults_gates (s : State) (hw : gatesAre G s) : gatesAre G (retryFaults s) := by
  unfold retryFaults
  (repeat' split) <;> first | (simp +contextual (maxDischargeDepth := 60) [*]; done) | ((simp +contextual (maxDischargeDepth := 60) [*]; repeat' split) <;> simp +contextual (maxDischargeDepth := 60) [*])

@[simp] theorem settleHold_gates (s : State) (hw : gatesAre G s) : gatesAre G (settleHold s) := by
  unfold settleHold
  (repeat' split) <;> first | (simp +contextual (maxDischargeDepth := 60) [*]; done) | ((simp +contextual (maxDischargeDepth := 60) [*]; repeat' split) <;> simp +contextual (maxDischargeDepth := 60) [*])

@[simp] theorem logEpisode_gates (s : State) (cause since : Nat) (hw : gatesAre G s) : gatesAre G (logEpisode s cause since) := by
  unfold logEpisode
  (repeat' split) <;> first | (simp +contextual (maxDischargeDepth := 60) [*]; done) | ((simp +contextual (maxDischargeDepth := 60) [*]; repeat' split) <;> simp +contextual (maxDischargeDepth := 60) [*])

@[simp] theorem abandonAll_gates (s : State) (hw : gatesAre G s) : gatesAre G (abandonAll s) := by
  unfold abandonAll
  (repeat' split) <;> first | (simp +contextual (maxDischargeDepth := 60) [*]; done) | ((simp +contextual (maxDischargeDepth := 60) [*]; repeat' split) <;> simp +contextual (maxDischargeDepth := 60) [*])

@[simp] theorem haltWork_gates (s : State) (hw : gatesAre G s) : gatesAre G (haltWork s) := by
  unfold haltWork
  (repeat' split) <;> first | (simp +contextual (maxDischargeDepth := 60) [*]; done) | ((simp +contextual (maxDischargeDepth := 60) [*]; repeat' split) <;> simp +contextual (maxDischargeDepth := 60) [*])

@[simp] theorem capture_gates (s : State) (code : Nat) (v : BitVec 128) (hw : gatesAre G s) : gatesAre G (capture s code v) := by
  unfold capture
  (repeat' split) <;> first | (simp +contextual (maxDischargeDepth := 60) [*]; done) | ((simp +contextual (maxDischargeDepth := 60) [*]; repeat' split) <;> simp +contextual (maxDischargeDepth := 60) [*])

end Sys2Proof.Machine
end

