-- ==== Sys2Proof/Laws/Stores.lean ====
section
/-! SUPPORT. The canonical form of the byte stores, field by field, and through the list operations on states. -/

namespace Sys2Proof.Machine

open Sys2Proof

variable {s : State}

/-- The form of a state read off its fields. -/
@[simp] theorem storesWf_mk (a b c d e f g h i j t k x l m n o p q) :
    storesWf (State.mk a b c d e f g h i j t k x l m n o p q) ↔
      memWf t.dram = true ∧ memWf t.flash = true ∧ memWf t.capture = true ∧ memWf x.cellStore = true ∧ memWf x.arrayStore = true := Iff.rfl

@[simp] theorem storesWf_dram (h : storesWf s) : memWf s.tier.dram = true := h.1
@[simp] theorem storesWf_flash (h : storesWf s) : memWf s.tier.flash = true := h.2.1
@[simp] theorem storesWf_capture (h : storesWf s) : memWf s.tier.capture = true := h.2.2.1
@[simp] theorem storesWf_cell (h : storesWf s) : memWf s.cells.cellStore = true := h.2.2.2.1
@[simp] theorem storesWf_array (h : storesWf s) : memWf s.cells.arrayStore = true := h.2.2.2.2

/-- The form through a case distinction. -/
@[simp] theorem storesWf_ite (c : Prop) [Decidable c] (a b : State) :
    storesWf (if c then a else b) ↔ if c then storesWf a else storesWf b := by split <;> rfl

/-- The form of the first part through a case distinction. -/
@[simp] theorem storesWf_ite_fst {α : Type} (c : Prop) [Decidable c] (a b : State × α) :
    storesWf (if c then a else b).1 ↔ if c then storesWf a.1 else storesWf b.1 := by split <;> rfl

/-- A fold of operations that keep the form keeps it. -/
@[simp] theorem storesWf_foldl {α : Type} (f : State → α → State) (l : List α) (hf : ∀ t a, storesWf t → storesWf (f t a)) :
    ∀ s, storesWf s → storesWf (l.foldl f s) := by
  induction l with
  | nil => intro s h; exact h
  | cons a r ih => intro s h; exact ih _ (hf s a h)

/-- A fold that carries a value beside the state keeps the form too. -/
theorem storesWf_foldl_fst {α β : Type} (f : State × β → α → State × β) (hf : ∀ t a, storesWf t.1 → storesWf (f t a).1) (l : List α) :
    ∀ t, storesWf t.1 → storesWf (l.foldl f t).1 := by
  induction l with
  | nil => intro t h; exact h
  | cons a r ih => intro t h; exact ih _ (hf t a h)

end Sys2Proof.Machine
end

