-- ==== Sys2Proof/Laws/OpsStores.lean ====
section
/-! SUPPORT. Every shared operation keeps the canonical form of the byte stores: one lemma per operation, in the order of the
files that define them. They are simp lemmas, so that the lemma of an operation cites those of the operations it calls. -/

namespace Sys2Proof.Machine

open Sys2Proof

set_option Elab.async false

/-! State -/

@[simp] theorem State.reset_wf   : storesWf (State.reset ) := by
  unfold State.reset
  (repeat' split) <;> first | (simp +contextual (maxDischargeDepth := 60) [*]; done) | ((simp +contextual (maxDischargeDepth := 60) [*]; repeat' split) <;> simp +contextual (maxDischargeDepth := 60) [*])

/-! Ops -/

@[simp] theorem advanceTo_wf (s : State) (t : Nat) (hw : storesWf s) : storesWf (advanceTo s t) := by
  unfold advanceTo
  (repeat' split) <;> first | (simp +contextual (maxDischargeDepth := 60) [*]; done) | ((simp +contextual (maxDischargeDepth := 60) [*]; repeat' split) <;> simp +contextual (maxDischargeDepth := 60) [*])

@[simp] theorem emit_wf (s : State) (o : Out) (hw : storesWf s) : storesWf (emit s o) := by
  unfold emit
  (repeat' split) <;> first | (simp +contextual (maxDischargeDepth := 60) [*]; done) | ((simp +contextual (maxDischargeDepth := 60) [*]; repeat' split) <;> simp +contextual (maxDischargeDepth := 60) [*])

@[simp] theorem bumpFree_wf (s : State) (hw : storesWf s) : storesWf (bumpFree s) := by
  unfold bumpFree
  (repeat' split) <;> first | (simp +contextual (maxDischargeDepth := 60) [*]; done) | ((simp +contextual (maxDischargeDepth := 60) [*]; repeat' split) <;> simp +contextual (maxDischargeDepth := 60) [*])

@[simp] theorem updPair_wf (s : State) (q : Nat) (f : QPair → QPair) (hw : storesWf s) : storesWf (updPair s q f) := by
  unfold updPair
  (repeat' split) <;> first | (simp +contextual (maxDischargeDepth := 60) [*]; done) | ((simp +contextual (maxDischargeDepth := 60) [*]; repeat' split) <;> simp +contextual (maxDischargeDepth := 60) [*])

@[simp] theorem updQueue_wf (s : State) (q : Nat) (f : Queue → Queue) (hw : storesWf s) : storesWf (updQueue s q f) := by
  unfold updQueue
  (repeat' split) <;> first | (simp +contextual (maxDischargeDepth := 60) [*]; done) | ((simp +contextual (maxDischargeDepth := 60) [*]; repeat' split) <;> simp +contextual (maxDischargeDepth := 60) [*])

@[simp] theorem updCmd_wf (s : State) (q cid : Nat) (f : Cmd → Cmd) (hw : storesWf s) : storesWf (updCmd s q cid f) := by
  unfold updCmd
  (repeat' split) <;> first | (simp +contextual (maxDischargeDepth := 60) [*]; done) | ((simp +contextual (maxDischargeDepth := 60) [*]; repeat' split) <;> simp +contextual (maxDischargeDepth := 60) [*])

@[simp] theorem setBay_wf (s : State) (b : Nat) (v : Bay) (hw : storesWf s) : storesWf (setBay s b v) := by
  unfold setBay
  (repeat' split) <;> first | (simp +contextual (maxDischargeDepth := 60) [*]; done) | ((simp +contextual (maxDischargeDepth := 60) [*]; repeat' split) <;> simp +contextual (maxDischargeDepth := 60) [*])

@[simp] theorem updBay_wf (s : State) (b : Nat) (f : Bay → Bay) (hw : storesWf s) : storesWf (updBay s b f) := by
  unfold updBay
  (repeat' split) <;> first | (simp +contextual (maxDischargeDepth := 60) [*]; done) | ((simp +contextual (maxDischargeDepth := 60) [*]; repeat' split) <;> simp +contextual (maxDischargeDepth := 60) [*])

@[simp] theorem updCounters_wf (s : State) (b : Nat) (f : AdmCounters → AdmCounters) (hw : storesWf s) : storesWf (updCounters s b f) := by
  unfold updCounters
  (repeat' split) <;> first | (simp +contextual (maxDischargeDepth := 60) [*]; done) | ((simp +contextual (maxDischargeDepth := 60) [*]; repeat' split) <;> simp +contextual (maxDischargeDepth := 60) [*])

@[simp] theorem updCtx_wf (s : State) (c : Nat) (f : Ctx → Ctx) (hw : storesWf s) : storesWf (updCtx s c f) := by
  unfold updCtx
  (repeat' split) <;> first | (simp +contextual (maxDischargeDepth := 60) [*]; done) | ((simp +contextual (maxDischargeDepth := 60) [*]; repeat' split) <;> simp +contextual (maxDischargeDepth := 60) [*])

@[simp] theorem updPlan_wf (s : State) (h : Nat) (f : Plan → Plan) (hw : storesWf s) : storesWf (updPlan s h f) := by
  unfold updPlan
  (repeat' split) <;> first | (simp +contextual (maxDischargeDepth := 60) [*]; done) | ((simp +contextual (maxDischargeDepth := 60) [*]; repeat' split) <;> simp +contextual (maxDischargeDepth := 60) [*])

@[simp] theorem updPeg_wf (s : State) (p : Nat) (f : Peg → Peg) (hw : storesWf s) : storesWf (updPeg s p f) := by
  unfold updPeg
  (repeat' split) <;> first | (simp +contextual (maxDischargeDepth := 60) [*]; done) | ((simp +contextual (maxDischargeDepth := 60) [*]; repeat' split) <;> simp +contextual (maxDischargeDepth := 60) [*])

@[simp] theorem addPeg_wf (s : State) (p : Peg) (hw : storesWf s) : storesWf (addPeg s p) := by
  unfold addPeg
  (repeat' split) <;> first | (simp +contextual (maxDischargeDepth := 60) [*]; done) | ((simp +contextual (maxDischargeDepth := 60) [*]; repeat' split) <;> simp +contextual (maxDischargeDepth := 60) [*])

@[simp] theorem updQuery_wf (s : State) (slot : Nat) (f : Query → Query) (hw : storesWf s) : storesWf (updQuery s slot f) := by
  unfold updQuery
  (repeat' split) <;> first | (simp +contextual (maxDischargeDepth := 60) [*]; done) | ((simp +contextual (maxDischargeDepth := 60) [*]; repeat' split) <;> simp +contextual (maxDischargeDepth := 60) [*])

@[simp] theorem updIndex_wf (s : State) (n : Nat) (f : Index → Index) (hw : storesWf s) : storesWf (updIndex s n f) := by
  unfold updIndex
  (repeat' split) <;> first | (simp +contextual (maxDischargeDepth := 60) [*]; done) | ((simp +contextual (maxDischargeDepth := 60) [*]; repeat' split) <;> simp +contextual (maxDischargeDepth := 60) [*])

@[simp] theorem setFrame_wf (s : State) (e : Frame_) (hw : storesWf s) : storesWf (setFrame s e) := by
  unfold setFrame
  (repeat' split) <;> first | (simp +contextual (maxDischargeDepth := 60) [*]; done) | ((simp +contextual (maxDischargeDepth := 60) [*]; repeat' split) <;> simp +contextual (maxDischargeDepth := 60) [*])

@[simp] theorem setFrames_wf (s : State) (es : List Frame_) (hw : storesWf s) : storesWf (setFrames s es) := by
  unfold setFrames
  (repeat' split) <;> first | (simp +contextual (maxDischargeDepth := 60) [*]; done) | ((simp +contextual (maxDischargeDepth := 60) [*]; repeat' split) <;> simp +contextual (maxDischargeDepth := 60) [*])

@[simp] theorem updFrame_wf (s : State) (d : Nat) (f : Frame_ → Frame_) (hw : storesWf s) : storesWf (updFrame s d f) := by
  unfold updFrame
  (repeat' split) <;> first | (simp +contextual (maxDischargeDepth := 60) [*]; done) | ((simp +contextual (maxDischargeDepth := 60) [*]; repeat' split) <;> simp +contextual (maxDischargeDepth := 60) [*])

@[simp] theorem updLinkCounters_wf (s : State) (fn : Nat) (f : LinkCounters → LinkCounters) (hw : storesWf s) : storesWf (updLinkCounters s fn f) := by
  unfold updLinkCounters
  (repeat' split) <;> first | (simp +contextual (maxDischargeDepth := 60) [*]; done) | ((simp +contextual (maxDischargeDepth := 60) [*]; repeat' split) <;> simp +contextual (maxDischargeDepth := 60) [*])

@[simp] theorem setDomain_wf (s : State) (d : Domain) (hw : storesWf s) : storesWf (setDomain s d) := by
  unfold setDomain
  (repeat' split) <;> first | (simp +contextual (maxDischargeDepth := 60) [*]; done) | ((simp +contextual (maxDischargeDepth := 60) [*]; repeat' split) <;> simp +contextual (maxDischargeDepth := 60) [*])

@[simp] theorem setDict_wf (s : State) (i j v : Nat) (hw : storesWf s) : storesWf (setDict s i j v) := by
  unfold setDict
  (repeat' split) <;> first | (simp +contextual (maxDischargeDepth := 60) [*]; done) | ((simp +contextual (maxDischargeDepth := 60) [*]; repeat' split) <;> simp +contextual (maxDischargeDepth := 60) [*])

/-! Flags -/

@[simp] theorem raiseVector_wf (s : State) (fn v : Nat) (hw : storesWf s) : storesWf (raiseVector s fn v) := by
  unfold raiseVector
  (repeat' split) <;> first | (simp +contextual (maxDischargeDepth := 60) [*]; done) | ((simp +contextual (maxDischargeDepth := 60) [*]; repeat' split) <;> simp +contextual (maxDischargeDepth := 60) [*])

@[simp] theorem sendMsix_wf (s : State) (q : Nat) (hw : storesWf s) : storesWf (sendMsix s q) := by
  unfold sendMsix
  (repeat' split) <;> first | (simp +contextual (maxDischargeDepth := 60) [*]; done) | ((simp +contextual (maxDischargeDepth := 60) [*]; repeat' split) <;> simp +contextual (maxDischargeDepth := 60) [*])

@[simp] theorem afterCommit_wf (s : State) (q : Nat) (hw : storesWf s) : storesWf (afterCommit s q) := by
  unfold afterCommit
  (repeat' split) <;> first | (simp +contextual (maxDischargeDepth := 60) [*]; done) | ((simp +contextual (maxDischargeDepth := 60) [*]; repeat' split) <;> simp +contextual (maxDischargeDepth := 60) [*])

@[simp] theorem countAfterDelete_wf (s : State) (q : Nat) (hw : storesWf s) : storesWf (countAfterDelete s q) := by
  unfold countAfterDelete
  (repeat' split) <;> first | (simp +contextual (maxDischargeDepth := 60) [*]; done) | ((simp +contextual (maxDischargeDepth := 60) [*]; repeat' split) <;> simp +contextual (maxDischargeDepth := 60) [*])

@[simp] theorem commitEntry_wf (s : State) (d : Deferred) (hw : storesWf s) : storesWf (commitEntry s d) := by
  unfold commitEntry
  (repeat' split) <;> first | (simp +contextual (maxDischargeDepth := 60) [*]; done) | ((simp +contextual (maxDischargeDepth := 60) [*]; repeat' split) <;> simp +contextual (maxDischargeDepth := 60) [*])

@[simp] theorem postRecord_wf (s : State) (q : Nat) (c : Cmd) (status result nacc ndiff : Nat) (hw : storesWf s) : storesWf (postRecord s q c status result nacc ndiff) := by
  unfold postRecord
  (repeat' split) <;> first | (simp +contextual (maxDischargeDepth := 60) [*]; done) | ((simp +contextual (maxDischargeDepth := 60) [*]; repeat' split) <;> simp +contextual (maxDischargeDepth := 60) [*])

@[simp] theorem commitDeferred_wf (s : State) (hw : storesWf s) : storesWf (commitDeferred s) := by
  unfold commitDeferred
  (repeat' split) <;> first | (simp +contextual (maxDischargeDepth := 60) [*]; done) | ((simp +contextual (maxDischargeDepth := 60) [*]; repeat' split) <;> simp +contextual (maxDischargeDepth := 60) [*])

@[simp] theorem dropDeferred_wf (s : State) (hw : storesWf s) : storesWf (dropDeferred s) := by
  unfold dropDeferred
  (repeat' split) <;> first | (simp +contextual (maxDischargeDepth := 60) [*]; done) | ((simp +contextual (maxDischargeDepth := 60) [*]; repeat' split) <;> simp +contextual (maxDischargeDepth := 60) [*])

@[simp] theorem postCompletion_wf (s : State) (q cid status result : Nat) (hw : storesWf s) : storesWf (postCompletion s q cid status result) := by
  unfold postCompletion
  (repeat' split) <;> first | (simp +contextual (maxDischargeDepth := 60) [*]; done) | ((simp +contextual (maxDischargeDepth := 60) [*]; repeat' split) <;> simp +contextual (maxDischargeDepth := 60) [*])

@[simp] theorem startCmd_wf (s : State) (q : Nat) (c : Cmd) (f : Cmd → Cmd) (hw : storesWf s) : storesWf (startCmd s q c f) := by
  unfold startCmd
  (repeat' split) <;> first | (simp +contextual (maxDischargeDepth := 60) [*]; done) | ((simp +contextual (maxDischargeDepth := 60) [*]; repeat' split) <;> simp +contextual (maxDischargeDepth := 60) [*])

@[simp] theorem endCmd_wf (s : State) (q : Nat) (c : Cmd) (status result : Nat) (hw : storesWf s) : storesWf (endCmd s q c status result) := by
  unfold endCmd
  (repeat' split) <;> first | (simp +contextual (maxDischargeDepth := 60) [*]; done) | ((simp +contextual (maxDischargeDepth := 60) [*]; repeat' split) <;> simp +contextual (maxDischargeDepth := 60) [*])

/-! Log -/

@[simp] theorem sendFrame_wf (s : State) (dest : Nat) (h : BitVec 256) (v : Bytes) (hw : storesWf s) : storesWf (sendFrame s dest h v) := by
  unfold sendFrame
  (repeat' split) <;> first | (simp +contextual (maxDischargeDepth := 60) [*]; done) | ((simp +contextual (maxDischargeDepth := 60) [*]; repeat' split) <;> simp +contextual (maxDischargeDepth := 60) [*])

@[simp] theorem emitEvent_wf (s : State) (seq : BitVec 16) (retx : Bool) (code : Nat) (data : Word64) (hw : storesWf s) : storesWf (emitEvent s seq retx code data) := by
  unfold emitEvent
  (repeat' split) <;> first | (simp +contextual (maxDischargeDepth := 60) [*]; done) | ((simp +contextual (maxDischargeDepth := 60) [*]; repeat' split) <;> simp +contextual (maxDischargeDepth := 60) [*])

@[simp] theorem sendEvent_wf (s : State) (code : Nat) (data : Word64) (hw : storesWf s) : storesWf (sendEvent s code data) := by
  unfold sendEvent
  (repeat' split) <;> first | (simp +contextual (maxDischargeDepth := 60) [*]; done) | ((simp +contextual (maxDischargeDepth := 60) [*]; repeat' split) <;> simp +contextual (maxDischargeDepth := 60) [*])

@[simp] theorem refreshAlert_wf (s : State) (hw : storesWf s) : storesWf (refreshAlert s) := by
  unfold refreshAlert
  (repeat' split) <;> first | (simp +contextual (maxDischargeDepth := 60) [*]; done) | ((simp +contextual (maxDischargeDepth := 60) [*]; repeat' split) <;> simp +contextual (maxDischargeDepth := 60) [*])

@[simp] theorem logEntry_wf (s : State) (cls sev unit detail : Nat) (ctx : Option (Nat × Nat)) (hw : storesWf s) : storesWf (logEntry s cls sev unit detail ctx) := by
  unfold logEntry
  (repeat' split) <;> first | (simp +contextual (maxDischargeDepth := 60) [*]; done) | ((simp +contextual (maxDischargeDepth := 60) [*]; repeat' split) <;> simp +contextual (maxDischargeDepth := 60) [*])

@[simp] theorem logError_wf (s : State) (cls unit detail : Nat) (ctx : Option (Nat × Nat)) (hw : storesWf s) : storesWf (logError s cls unit detail ctx) := by
  unfold logError
  (repeat' split) <;> first | (simp +contextual (maxDischargeDepth := 60) [*]; done) | ((simp +contextual (maxDischargeDepth := 60) [*]; repeat' split) <;> simp +contextual (maxDischargeDepth := 60) [*])

@[simp] theorem raiseEvent_wf (s : State) (code : Nat) (data : Word64) (hw : storesWf s) : storesWf (raiseEvent s code data) := by
  unfold raiseEvent
  (repeat' split) <;> first | (simp +contextual (maxDischargeDepth := 60) [*]; done) | ((simp +contextual (maxDischargeDepth := 60) [*]; repeat' split) <;> simp +contextual (maxDischargeDepth := 60) [*])

@[simp] theorem logMoraine_wf (s : State) (kind unit : Nat) (v0 v1 v2 v3 limit : Word32) (hw : storesWf s) : storesWf (logMoraine s kind unit v0 v1 v2 v3 limit) := by
  unfold logMoraine
  (repeat' split) <;> first | (simp +contextual (maxDischargeDepth := 60) [*]; done) | ((simp +contextual (maxDischargeDepth := 60) [*]; repeat' split) <;> simp +contextual (maxDischargeDepth := 60) [*])

@[simp] theorem refreshLevel_wf (s : State) (g : Nat) (hw : storesWf s) : storesWf (refreshLevel s g) := by
  unfold refreshLevel
  (repeat' split) <;> first | (simp +contextual (maxDischargeDepth := 60) [*]; done) | ((simp +contextual (maxDischargeDepth := 60) [*]; repeat' split) <;> simp +contextual (maxDischargeDepth := 60) [*])

@[simp] theorem refreshLevels_wf (s : State) (hw : storesWf s) : storesWf (refreshLevels s) := by
  unfold refreshLevels
  (repeat' split) <;> first | (simp +contextual (maxDischargeDepth := 60) [*]; done) | ((simp +contextual (maxDischargeDepth := 60) [*]; repeat' split) <;> simp +contextual (maxDischargeDepth := 60) [*])

/-! Domains -/

@[simp] theorem wakeOne_wf (s : State) (n source : Nat) (hw : storesWf s) : storesWf (wakeOne s n source) := by
  unfold wakeOne
  (repeat' split) <;> first | (simp +contextual (maxDischargeDepth := 60) [*]; done) | ((simp +contextual (maxDischargeDepth := 60) [*]; repeat' split) <;> simp +contextual (maxDischargeDepth := 60) [*])

@[simp] theorem startWake_wf (s : State) (n source : Nat) (hw : storesWf s) : storesWf (startWake s n source) := by
  unfold startWake
  (repeat' split) <;> first | (simp +contextual (maxDischargeDepth := 60) [*]; done) | ((simp +contextual (maxDischargeDepth := 60) [*]; repeat' split) <;> simp +contextual (maxDischargeDepth := 60) [*])

@[simp] theorem rouseMgmt_wf (s : State) (source : Nat) (hw : storesWf s) : storesWf (rouseMgmt s source) := by
  unfold rouseMgmt
  (repeat' split) <;> first | (simp +contextual (maxDischargeDepth := 60) [*]; done) | ((simp +contextual (maxDischargeDepth := 60) [*]; repeat' split) <;> simp +contextual (maxDischargeDepth := 60) [*])

@[simp] theorem needDomains_wf (s : State) (ds : List Nat) (hw : storesWf s) : storesWf (needDomains s ds) := by
  unfold needDomains
  (repeat' split) <;> first | (simp +contextual (maxDischargeDepth := 60) [*]; done) | ((simp +contextual (maxDischargeDepth := 60) [*]; repeat' split) <;> simp +contextual (maxDischargeDepth := 60) [*])

@[simp] theorem wakeCapped_wf (s : State) (hw : storesWf s) : storesWf (wakeCapped s) := by
  unfold wakeCapped
  (repeat' split) <;> first | (simp +contextual (maxDischargeDepth := 60) [*]; done) | ((simp +contextual (maxDischargeDepth := 60) [*]; repeat' split) <;> simp +contextual (maxDischargeDepth := 60) [*])

/-! Results -/

@[simp] theorem writeHeader_wf (s : State) (q cid pos : Nat) (h : Header) (hw : storesWf s) : storesWf (writeHeader s q cid pos h) := by
  unfold writeHeader
  (repeat' split) <;> first | (simp +contextual (maxDischargeDepth := 60) [*]; done) | ((simp +contextual (maxDischargeDepth := 60) [*]; repeat' split) <;> simp +contextual (maxDischargeDepth := 60) [*])

@[simp] theorem dropQueries_wf (s : State) (p : Query → Bool) (hw : storesWf s) : storesWf (dropQueries s p) := by
  unfold dropQueries
  (repeat' split) <;> first | (simp +contextual (maxDischargeDepth := 60) [*]; done) | ((simp +contextual (maxDischargeDepth := 60) [*]; repeat' split) <;> simp +contextual (maxDischargeDepth := 60) [*])

@[simp] theorem dropQuery_wf (s : State) (slot : Nat) (hw : storesWf s) : storesWf (dropQuery s slot) := by
  unfold dropQuery
  (repeat' split) <;> first | (simp +contextual (maxDischargeDepth := 60) [*]; done) | ((simp +contextual (maxDischargeDepth := 60) [*]; repeat' split) <;> simp +contextual (maxDischargeDepth := 60) [*])

@[simp] theorem endQuery_wf (s : State) (x : Query) (h : Header) (hw : storesWf s) : storesWf (endQuery s x h) := by
  unfold endQuery
  (repeat' split) <;> first | (simp +contextual (maxDischargeDepth := 60) [*]; done) | ((simp +contextual (maxDischargeDepth := 60) [*]; repeat' split) <;> simp +contextual (maxDischargeDepth := 60) [*])

@[simp] theorem failQuery_wf (s : State) (x : Query) (status : Nat) (hw : storesWf s) : storesWf (failQuery s x status) := by
  unfold failQuery
  (repeat' split) <;> first | (simp +contextual (maxDischargeDepth := 60) [*]; done) | ((simp +contextual (maxDischargeDepth := 60) [*]; repeat' split) <;> simp +contextual (maxDischargeDepth := 60) [*])

@[simp] theorem progressCtx_wf (s : State) (c : Nat) (hw : storesWf s) : storesWf (progressCtx s c) := by
  unfold progressCtx
  (repeat' split) <;> first | (simp +contextual (maxDischargeDepth := 60) [*]; done) | ((simp +contextual (maxDischargeDepth := 60) [*]; repeat' split) <;> simp +contextual (maxDischargeDepth := 60) [*])

@[simp] theorem dropBatch_wf (s : State) (q cid : Nat) (hw : storesWf s) : storesWf (dropBatch s q cid) := by
  unfold dropBatch
  (repeat' split) <;> first | (simp +contextual (maxDischargeDepth := 60) [*]; done) | ((simp +contextual (maxDischargeDepth := 60) [*]; repeat' split) <;> simp +contextual (maxDischargeDepth := 60) [*])

@[simp] theorem postBatch_wf (s : State) (q cid : Nat) (hw : storesWf s) : storesWf (postBatch s q cid) := by
  unfold postBatch
  (repeat' split) <;> first | (simp +contextual (maxDischargeDepth := 60) [*]; done) | ((simp +contextual (maxDischargeDepth := 60) [*]; repeat' split) <;> simp +contextual (maxDischargeDepth := 60) [*])

@[simp] theorem abandonCmd_wf (s : State) (q : Nat) (c : Cmd) (result : Nat) (hw : storesWf s) : storesWf (abandonCmd s q c result) := by
  unfold abandonCmd
  (repeat' split) <;> first | (simp +contextual (maxDischargeDepth := 60) [*]; done) | ((simp +contextual (maxDischargeDepth := 60) [*]; repeat' split) <;> simp +contextual (maxDischargeDepth := 60) [*])

/-! Pegs -/

@[simp] theorem settleNotice_wf (s : State) (b : Nat) (hw : storesWf s) : storesWf (settleNotice s b) := by
  unfold settleNotice
  (repeat' split) <;> first | (simp +contextual (maxDischargeDepth := 60) [*]; done) | ((simp +contextual (maxDischargeDepth := 60) [*]; repeat' split) <;> simp +contextual (maxDischargeDepth := 60) [*])

@[simp] theorem endWait_wf (s : State) (w : PegWait) (status : Nat) (hw : storesWf s) : storesWf (endWait s w status) := by
  unfold endWait
  (repeat' split) <;> first | (simp +contextual (maxDischargeDepth := 60) [*]; done) | ((simp +contextual (maxDischargeDepth := 60) [*]; repeat' split) <;> simp +contextual (maxDischargeDepth := 60) [*])

@[simp] theorem serveWait_wf (s : State) (w : PegWait) (status : Nat) (hw : storesWf s) : storesWf (serveWait s w status) := by
  unfold serveWait
  (repeat' split) <;> first | (simp +contextual (maxDischargeDepth := 60) [*]; done) | ((simp +contextual (maxDischargeDepth := 60) [*]; repeat' split) <;> simp +contextual (maxDischargeDepth := 60) [*])

@[simp] theorem pegTurn_wf (s : State) (p port : Nat) (hw : storesWf s) : storesWf (pegTurn s p port) := by
  unfold pegTurn
  (repeat' split) <;> first | (simp +contextual (maxDischargeDepth := 60) [*]; done) | ((simp +contextual (maxDischargeDepth := 60) [*]; repeat' split) <;> simp +contextual (maxDischargeDepth := 60) [*])

@[simp] theorem takePeg_wf (s : State) (p ctx : Nat) (hw : storesWf s) : storesWf (takePeg s p ctx) := by
  unfold takePeg
  (repeat' split) <;> first | (simp +contextual (maxDischargeDepth := 60) [*]; done) | ((simp +contextual (maxDischargeDepth := 60) [*]; repeat' split) <;> simp +contextual (maxDischargeDepth := 60) [*])

@[simp] theorem wakeWaitingCuts_wf (s : State) (p : Nat) (v : Word64) (hw : storesWf s) : storesWf (wakeWaitingCuts s p v) := by
  unfold wakeWaitingCuts
  refine storesWf_foldl _ _ (fun t a ht => ?_) _ (by simp +contextual (maxDischargeDepth := 60) [*])
  (repeat' split) <;> simp +contextual (maxDischargeDepth := 60) [*]

@[simp] theorem settlePeg_wf (s : State) (p : Nat) (hw : storesWf s) : storesWf (settlePeg s p) := by
  unfold settlePeg
  (repeat' split) <;> first | (simp +contextual (maxDischargeDepth := 60) [*]; done) | ((simp +contextual (maxDischargeDepth := 60) [*]; repeat' split) <;> simp +contextual (maxDischargeDepth := 60) [*])

@[simp] theorem breakPeg_wf (s : State) (p : Nat) (hw : storesWf s) : storesWf (breakPeg s p) := by
  unfold breakPeg
  (repeat' split) <;> first | (simp +contextual (maxDischargeDepth := 60) [*]; done) | ((simp +contextual (maxDischargeDepth := 60) [*]; repeat' split) <;> simp +contextual (maxDischargeDepth := 60) [*])

@[simp] theorem breakHeld_wf (s : State) (ctx : Nat) (hw : storesWf s) : storesWf (breakHeld s ctx) := by
  unfold breakHeld
  (repeat' split) <;> first | (simp +contextual (maxDischargeDepth := 60) [*]; done) | ((simp +contextual (maxDischargeDepth := 60) [*]; repeat' split) <;> simp +contextual (maxDischargeDepth := 60) [*])

@[simp] theorem endRunsOnPeg_wf (s : State) (p status : Nat) (hw : storesWf s) : storesWf (endRunsOnPeg s p status) := by
  unfold endRunsOnPeg
  (repeat' split) <;> first | (simp +contextual (maxDischargeDepth := 60) [*]; done) | ((simp +contextual (maxDischargeDepth := 60) [*]; repeat' split) <;> simp +contextual (maxDischargeDepth := 60) [*])

@[simp] theorem freePeg_wf (s : State) (p : Nat) (hw : storesWf s) : storesWf (freePeg s p) := by
  unfold freePeg
  (repeat' split) <;> first | (simp +contextual (maxDischargeDepth := 60) [*]; done) | ((simp +contextual (maxDischargeDepth := 60) [*]; repeat' split) <;> simp +contextual (maxDischargeDepth := 60) [*])

@[simp] theorem freePegsOf_wf (s : State) (ctx : Nat) (hw : storesWf s) : storesWf (freePegsOf s ctx) := by
  unfold freePegsOf
  (repeat' split) <;> first | (simp +contextual (maxDischargeDepth := 60) [*]; done) | ((simp +contextual (maxDischargeDepth := 60) [*]; repeat' split) <;> simp +contextual (maxDischargeDepth := 60) [*])

@[simp] theorem raisePeg_wf (s : State) (p : Nat) (hw : storesWf s) : storesWf (raisePeg s p) := by
  unfold raisePeg
  (repeat' split) <;> first | (simp +contextual (maxDischargeDepth := 60) [*]; done) | ((simp +contextual (maxDischargeDepth := 60) [*]; repeat' split) <;> simp +contextual (maxDischargeDepth := 60) [*])

@[simp] theorem signalPeg_wf (s : State) (port p : Nat) (hw : storesWf s) : storesWf (signalPeg s port p) := by
  unfold signalPeg
  (repeat' split) <;> first | (simp +contextual (maxDischargeDepth := 60) [*]; done) | ((simp +contextual (maxDischargeDepth := 60) [*]; repeat' split) <;> simp +contextual (maxDischargeDepth := 60) [*])

@[simp] theorem pegSetOp_wf (s : State) (ctx p : Nat) (v : Word64) (hw : storesWf s) : storesWf (pegSetOp s ctx p v).1 := by
  unfold pegSetOp
  (repeat' split) <;> first | (simp +contextual (maxDischargeDepth := 60) [*]; done) | ((simp +contextual (maxDischargeDepth := 60) [*]; repeat' split) <;> simp +contextual (maxDischargeDepth := 60) [*])

@[simp] theorem pegAddOp_wf (s : State) (ctx p : Nat) (v : Word64) (hw : storesWf s) : storesWf (pegAddOp s ctx p v).1 := by
  unfold pegAddOp
  (repeat' split) <;> first | (simp +contextual (maxDischargeDepth := 60) [*]; done) | ((simp +contextual (maxDischargeDepth := 60) [*]; repeat' split) <;> simp +contextual (maxDischargeDepth := 60) [*])

@[simp] theorem pegTestOp_wf (s : State) (ctx p : Nat) (kind : WaitKind) (v : Word64) (hw : storesWf s) : storesWf (pegTestOp s ctx p kind v).1 := by
  unfold pegTestOp
  (repeat' split) <;> first | (simp +contextual (maxDischargeDepth := 60) [*]; done) | ((simp +contextual (maxDischargeDepth := 60) [*]; repeat' split) <;> simp +contextual (maxDischargeDepth := 60) [*])

@[simp] theorem pegAcquireOp_wf (s : State) (ctx p : Nat) (hw : storesWf s) : storesWf (pegAcquireOp s ctx p).1 := by
  unfold pegAcquireOp
  (repeat' split) <;> first | (simp +contextual (maxDischargeDepth := 60) [*]; done) | ((simp +contextual (maxDischargeDepth := 60) [*]; repeat' split) <;> simp +contextual (maxDischargeDepth := 60) [*])

@[simp] theorem pegReleaseOp_wf (s : State) (ctx p : Nat) (v : Word64) (hw : storesWf s) : storesWf (pegReleaseOp s ctx p v).1 := by
  unfold pegReleaseOp
  (repeat' split) <;> first | (simp +contextual (maxDischargeDepth := 60) [*]; done) | ((simp +contextual (maxDischargeDepth := 60) [*]; repeat' split) <;> simp +contextual (maxDischargeDepth := 60) [*])

@[simp] theorem pegOp_wf (op : Nat) (s : State) (ctx p : Nat) (v : Word64) (hw : storesWf s) : storesWf (pegOp op s ctx p v).1 := by
  unfold pegOp
  (repeat' split) <;> first | (simp +contextual (maxDischargeDepth := 60) [*]; done) | ((simp +contextual (maxDischargeDepth := 60) [*]; repeat' split) <;> simp +contextual (maxDischargeDepth := 60) [*])

@[simp] theorem beginWait_wf (s : State) (q : Nat) (c : Cmd) (ctx p : Nat) (kind : WaitKind) (v : Word64) (hw : storesWf s) : storesWf (beginWait s q c ctx p kind v) := by
  unfold beginWait
  (repeat' split) <;> first | (simp +contextual (maxDischargeDepth := 60) [*]; done) | ((simp +contextual (maxDischargeDepth := 60) [*]; repeat' split) <;> simp +contextual (maxDischargeDepth := 60) [*])

/-! Tiers -/

@[simp] theorem markDirty_wf (s : State) (d sector : Nat) (hw : storesWf s) : storesWf (markDirty s d sector) := by
  unfold markDirty
  (repeat' split) <;> first | (simp +contextual (maxDischargeDepth := 60) [*]; done) | ((simp +contextual (maxDischargeDepth := 60) [*]; repeat' split) <;> simp +contextual (maxDischargeDepth := 60) [*])

@[simp] theorem refreshPoison_wf (s : State) (d : Nat) (hw : storesWf s) : storesWf (refreshPoison s d) := by
  unfold refreshPoison
  (repeat' split) <;> first | (simp +contextual (maxDischargeDepth := 60) [*]; done) | ((simp +contextual (maxDischargeDepth := 60) [*]; repeat' split) <;> simp +contextual (maxDischargeDepth := 60) [*])

@[simp] theorem setMoved_wf (s : State) (p : Nat → Bool) (hw : storesWf s) : storesWf (setMoved s p) := by
  unfold setMoved
  (repeat' split) <;> first | (simp +contextual (maxDischargeDepth := 60) [*]; done) | ((simp +contextual (maxDischargeDepth := 60) [*]; repeat' split) <;> simp +contextual (maxDischargeDepth := 60) [*])

@[simp] theorem moveWritten_wf (s : State) (d off n : Nat) (hw : storesWf s) : storesWf (moveWritten s d off n) := by
  unfold moveWritten
  (repeat' split) <;> first | (simp +contextual (maxDischargeDepth := 60) [*]; done) | ((simp +contextual (maxDischargeDepth := 60) [*]; repeat' split) <;> simp +contextual (maxDischargeDepth := 60) [*])

@[simp] theorem frameWrite_wf (s : State) (d off : Nat) (bs : Bytes) (hw : storesWf s) : storesWf (frameWrite s d off bs) := by
  unfold frameWrite
  (repeat' split) <;> first | (simp +contextual (maxDischargeDepth := 60) [*]; done) | ((simp +contextual (maxDischargeDepth := 60) [*]; repeat' split) <;> simp +contextual (maxDischargeDepth := 60) [*])

@[simp] theorem backInvalidate_wf (s : State) (line : Nat) (hw : storesWf s) : storesWf (backInvalidate s line) := by
  unfold backInvalidate
  (repeat' split) <;> first | (simp +contextual (maxDischargeDepth := 60) [*]; done) | ((simp +contextual (maxDischargeDepth := 60) [*]; repeat' split) <;> simp +contextual (maxDischargeDepth := 60) [*])

@[simp] theorem backInvalidateRange_wf (s : State) (addr n : Nat) (hw : storesWf s) : storesWf (backInvalidateRange s addr n) := by
  unfold backInvalidateRange
  (repeat' split) <;> first | (simp +contextual (maxDischargeDepth := 60) [*]; done) | ((simp +contextual (maxDischargeDepth := 60) [*]; repeat' split) <;> simp +contextual (maxDischargeDepth := 60) [*])

@[simp] theorem nowSpecified_wf (s : State) (sector : Nat) (hw : storesWf s) : storesWf (nowSpecified s sector) := by
  unfold nowSpecified
  (repeat' split) <;> first | (simp +contextual (maxDischargeDepth := 60) [*]; done) | ((simp +contextual (maxDischargeDepth := 60) [*]; repeat' split) <;> simp +contextual (maxDischargeDepth := 60) [*])

@[simp] theorem rewriteBlocks_wf (s : State) (a n : Nat) (hw : storesWf s) : storesWf (rewriteBlocks s a n) := by
  unfold rewriteBlocks
  (repeat' split) <;> first | (simp +contextual (maxDischargeDepth := 60) [*]; done) | ((simp +contextual (maxDischargeDepth := 60) [*]; repeat' split) <;> simp +contextual (maxDischargeDepth := 60) [*])

@[simp] theorem pageWrite_wf (s : State) (a : Nat) (bs : Bytes) (hw : storesWf s) : storesWf (pageWrite s a bs) := by
  unfold pageWrite
  (repeat' split) <;> first | (simp +contextual (maxDischargeDepth := 60) [*]; done) | ((simp +contextual (maxDischargeDepth := 60) [*]; repeat' split) <;> simp +contextual (maxDischargeDepth := 60) [*])

@[simp] theorem clearFrame_wf (s : State) (d : Nat) (hw : storesWf s) : storesWf (clearFrame s d) := by
  unfold clearFrame
  (repeat' split) <;> first | (simp +contextual (maxDischargeDepth := 60) [*]; done) | ((simp +contextual (maxDischargeDepth := 60) [*]; repeat' split) <;> simp +contextual (maxDischargeDepth := 60) [*])

@[simp] theorem sweepPast_wf (s : State) (b : Nat) (v : Frame_) (hw : storesWf s) : storesWf (sweepPast s b v) := by
  unfold sweepPast
  (repeat' split) <;> first | (simp +contextual (maxDischargeDepth := 60) [*]; done) | ((simp +contextual (maxDischargeDepth := 60) [*]; repeat' split) <;> simp +contextual (maxDischargeDepth := 60) [*])

@[simp] theorem freeFrame_wf (s : State) (d : Nat) (hw : storesWf s) : storesWf (freeFrame s d) := by
  unfold freeFrame
  (repeat' split) <;> first | (simp +contextual (maxDischargeDepth := 60) [*]; done) | ((simp +contextual (maxDischargeDepth := 60) [*]; repeat' split) <;> simp +contextual (maxDischargeDepth := 60) [*])

@[simp] theorem startWriteback_wf (s : State) (d : Nat) (hw : storesWf s) : storesWf (startWriteback s d) := by
  unfold startWriteback
  (repeat' split) <;> first | (simp +contextual (maxDischargeDepth := 60) [*]; done) | ((simp +contextual (maxDischargeDepth := 60) [*]; repeat' split) <;> simp +contextual (maxDischargeDepth := 60) [*])

@[simp] theorem endWriteback_wf (s : State) (d group slot : Nat) (hw : storesWf s) : storesWf (endWriteback s d group slot) := by
  unfold endWriteback
  (repeat' split) <;> first | (simp +contextual (maxDischargeDepth := 60) [*]; done) | ((simp +contextual (maxDischargeDepth := 60) [*]; repeat' split) <;> simp +contextual (maxDischargeDepth := 60) [*])

@[simp] theorem writeHome_wf (s : State) (d group slot : Nat) (hw : storesWf s) : storesWf (writeHome s d group slot) := by
  unfold writeHome
  (repeat' split) <;> first | (simp +contextual (maxDischargeDepth := 60) [*]; done) | ((simp +contextual (maxDischargeDepth := 60) [*]; repeat' split) <;> simp +contextual (maxDischargeDepth := 60) [*])

@[simp] theorem releaseCopies_wf (s : State) (page : Nat) (hw : storesWf s) : storesWf (releaseCopies s page) := by
  unfold releaseCopies
  (repeat' split) <;> first | (simp +contextual (maxDischargeDepth := 60) [*]; done) | ((simp +contextual (maxDischargeDepth := 60) [*]; repeat' split) <;> simp +contextual (maxDischargeDepth := 60) [*])

@[simp] theorem finishWriteback_wf (s : State) (d : Nat) (hw : storesWf s) : storesWf (finishWriteback s d) := by
  unfold finishWriteback
  (repeat' split) <;> first | (simp +contextual (maxDischargeDepth := 60) [*]; done) | ((simp +contextual (maxDischargeDepth := 60) [*]; repeat' split) <;> simp +contextual (maxDischargeDepth := 60) [*])

@[simp] theorem cleanFrame_wf (s : State) (d : Nat) (hw : storesWf s) : storesWf (cleanFrame s d) := by
  unfold cleanFrame
  (repeat' split) <;> first | (simp +contextual (maxDischargeDepth := 60) [*]; done) | ((simp +contextual (maxDischargeDepth := 60) [*]; repeat' split) <;> simp +contextual (maxDischargeDepth := 60) [*])

@[simp] theorem touchPage_wf (s : State) (page hint : Nat) (hw : storesWf s) : storesWf (touchPage s page hint) := by
  unfold touchPage
  (repeat' split) <;> first | (simp +contextual (maxDischargeDepth := 60) [*]; done) | ((simp +contextual (maxDischargeDepth := 60) [*]; repeat' split) <;> simp +contextual (maxDischargeDepth := 60) [*])

@[simp] theorem fillSector_wf (s : State) (d sector : Nat) (hw : storesWf s) : storesWf (fillSector s d sector) := by
  unfold fillSector
  (repeat' split) <;> first | (simp +contextual (maxDischargeDepth := 60) [*]; done) | ((simp +contextual (maxDischargeDepth := 60) [*]; repeat' split) <;> simp +contextual (maxDischargeDepth := 60) [*])

@[simp] theorem poisonSector_wf (s : State) (d sector : Nat) (hw : storesWf s) : storesWf (poisonSector s d sector) := by
  unfold poisonSector
  (repeat' split) <;> first | (simp +contextual (maxDischargeDepth := 60) [*]; done) | ((simp +contextual (maxDischargeDepth := 60) [*]; repeat' split) <;> simp +contextual (maxDischargeDepth := 60) [*])

@[simp] theorem poisonDev_wf (s : State) (a : Nat) (hw : storesWf s) : storesWf (poisonDev s a) := by
  unfold poisonDev
  (repeat' split) <;> first | (simp +contextual (maxDischargeDepth := 60) [*]; done) | ((simp +contextual (maxDischargeDepth := 60) [*]; repeat' split) <;> simp +contextual (maxDischargeDepth := 60) [*])

@[simp] theorem finishFill_wf (s : State) (d : Nat) (hw : storesWf s) : storesWf (finishFill s d) := by
  unfold finishFill
  (repeat' split) <;> first | (simp +contextual (maxDischargeDepth := 60) [*]; done) | ((simp +contextual (maxDischargeDepth := 60) [*]; repeat' split) <;> simp +contextual (maxDischargeDepth := 60) [*])

@[simp] theorem setBankHealth_wf (s : State) (v : BankHealth) (hw : storesWf s) : storesWf (setBankHealth s v) := by
  unfold setBankHealth
  (repeat' split) <;> first | (simp +contextual (maxDischargeDepth := 60) [*]; done) | ((simp +contextual (maxDischargeDepth := 60) [*]; repeat' split) <;> simp +contextual (maxDischargeDepth := 60) [*])

@[simp] theorem noteCorrected_wf (s : State) (bank row : Nat) (hw : storesWf s) : storesWf (noteCorrected s bank row) := by
  unfold noteCorrected
  (repeat' split) <;> first | (simp +contextual (maxDischargeDepth := 60) [*]; done) | ((simp +contextual (maxDischargeDepth := 60) [*]; repeat' split) <;> simp +contextual (maxDischargeDepth := 60) [*])

@[simp] theorem readBlock_wf (s : State) (a : Nat) (wrong : List (Nat × Byte)) (hw : storesWf s) : storesWf (readBlock s a wrong).1 := by
  unfold readBlock
  (repeat' split) <;> first | (simp +contextual (maxDischargeDepth := 60) [*]; done) | ((simp +contextual (maxDischargeDepth := 60) [*]; repeat' split) <;> simp +contextual (maxDischargeDepth := 60) [*])

@[simp] theorem dramRead_wf (s : State) (a n : Nat) (wrong : List (Nat × Nat × Byte)) (hw : storesWf s) :
    storesWf (dramRead s a n wrong).1 := by
  unfold dramRead
  dsimp only
  refine storesWf_foldl _ _ (fun t p ht => touchPage_wf _ _ _ ht) _ ?_
  refine storesWf_foldl_fst _ (fun t k ht => ?_) _ (s, [], false) hw
  exact readBlock_wf _ _ _ ht

@[simp] theorem freeBlock_wf (s : State) (hw : storesWf s) : storesWf (freeBlock s).1 := by
  unfold freeBlock
  (repeat' split) <;> first | (simp +contextual (maxDischargeDepth := 60) [*]; done) | ((simp +contextual (maxDischargeDepth := 60) [*]; repeat' split) <;> simp +contextual (maxDischargeDepth := 60) [*])

@[simp] theorem answerRead_wf (s : State) (a : Nat) (wrong : List (Nat × Byte)) (hw : storesWf s) : storesWf (answerRead s a wrong) := by
  unfold answerRead
  (repeat' split) <;> first | (simp +contextual (maxDischargeDepth := 60) [*]; done) | ((simp +contextual (maxDischargeDepth := 60) [*]; repeat' split) <;> simp +contextual (maxDischargeDepth := 60) [*])

@[simp] theorem hostWrite_wf (s : State) (a : Nat) (bs : Bytes) (hw : storesWf s) : storesWf (hostWrite s a bs) := by
  unfold hostWrite
  (repeat' split) <;> first | (simp +contextual (maxDischargeDepth := 60) [*]; done) | ((simp +contextual (maxDischargeDepth := 60) [*]; repeat' split) <;> simp +contextual (maxDischargeDepth := 60) [*])

@[simp] theorem serveAccess_wf (s : State) (w : Nat × Option Bytes) (hw : storesWf s) : storesWf (serveAccess s w) := by
  unfold serveAccess
  (repeat' split) <;> first | (simp +contextual (maxDischargeDepth := 60) [*]; done) | ((simp +contextual (maxDischargeDepth := 60) [*]; repeat' split) <;> simp +contextual (maxDischargeDepth := 60) [*])

@[simp] theorem serveReady_wf (s : State) (hw : storesWf s) : storesWf (serveReady s) := by
  unfold serveReady
  (repeat' split) <;> first | (simp +contextual (maxDischargeDepth := 60) [*]; done) | ((simp +contextual (maxDischargeDepth := 60) [*]; repeat' split) <;> simp +contextual (maxDischargeDepth := 60) [*])

@[simp] theorem freeCustody_wf (s : State) (page : Nat) (hw : storesWf s) : storesWf (freeCustody s page) := by
  unfold freeCustody
  (repeat' split) <;> first | (simp +contextual (maxDischargeDepth := 60) [*]; done) | ((simp +contextual (maxDischargeDepth := 60) [*]; repeat' split) <;> simp +contextual (maxDischargeDepth := 60) [*])

theorem evictOne_wf (s : State) (b : Nat) (hw : storesWf s) (t : State) (h : evictOne s b = some t) : storesWf t := by
  unfold evictOne at h
  split at h
  · cases h; simp +contextual (maxDischargeDepth := 60) [*]
  · split at h
    · cases h; simp +contextual (maxDischargeDepth := 60) [*]
    · obtain ⟨e, _, rfl⟩ := Option.map_eq_some_iff.mp h; simp +contextual (maxDischargeDepth := 60) [*]

theorem makeRoomFuel_wf (b n k : Nat) : ∀ s : State, storesWf s → storesWf (makeRoomFuel b n k s) := by
  induction k with
  | zero => intro s hw; exact hw
  | succ k ih =>
    intro s hw
    simp only [makeRoomFuel]
    split
    · exact hw
    · split
      · rename_i t h; exact ih t (evictOne_wf _ _ hw _ h)
      · exact hw

@[simp] theorem makeRoom_wf (s : State) (b n : Nat) (hw : storesWf s) : storesWf (makeRoom s b n) := makeRoomFuel_wf _ _ _ s hw

@[simp] theorem takeFrame_wf (s : State) (b : Nat) (hw : storesWf s) : storesWf (takeFrame s b).1 := by
  unfold takeFrame
  (repeat' split) <;> first | (simp +contextual (maxDischargeDepth := 60) [*]; done) | ((simp +contextual (maxDischargeDepth := 60) [*]; repeat' split) <;> simp +contextual (maxDischargeDepth := 60) [*])

@[simp] theorem faultPage_wf (s : State) (page hint sector : Nat) (hw : storesWf s) : storesWf (faultPage s page hint sector) := by
  unfold faultPage
  (repeat' split) <;> first | (simp +contextual (maxDischargeDepth := 60) [*]; done) | ((simp +contextual (maxDischargeDepth := 60) [*]; repeat' split) <;> simp +contextual (maxDischargeDepth := 60) [*])

@[simp] theorem fillPage_wf (s : State) (page hint : Nat) (hw : storesWf s) : storesWf (fillPage s page hint) := by
  unfold fillPage
  (repeat' split) <;> first | (simp +contextual (maxDischargeDepth := 60) [*]; done) | ((simp +contextual (maxDischargeDepth := 60) [*]; repeat' split) <;> simp +contextual (maxDischargeDepth := 60) [*])

@[simp] theorem bringPiece_wf (s : State) (page : Nat) (hw : storesWf s) : storesWf (bringPiece s page) := by
  unfold bringPiece
  (repeat' split) <;> first | (simp +contextual (maxDischargeDepth := 60) [*]; done) | ((simp +contextual (maxDischargeDepth := 60) [*]; repeat' split) <;> simp +contextual (maxDischargeDepth := 60) [*])

theorem bringFuel_wf (k : Nat) : ∀ (s : State) (a b : Nat), storesWf s → storesWf (bringFuel k s a b) := by
  induction k with
  | zero => intro s a b hw; exact hw
  | succ k ih =>
    intro s a b hw
    simp only [bringFuel]
    split
    · simp +contextual (maxDischargeDepth := 60) [*]
    · split
      · rename_i t h
        obtain ⟨r, _, h⟩ := Option.bind_eq_some_iff.mp h
        exact ih _ _ _ (evictOne_wf _ _ (by simp +contextual (maxDischargeDepth := 60) [*]) _ h)
      · simp +contextual (maxDischargeDepth := 60) [*]

@[simp] theorem bringPage_wf (s : State) (page hint : Nat) (hw : storesWf s) : storesWf (bringPage s page hint) :=
  bringPiece_wf _ _ (bringFuel_wf _ s page hint hw)

theorem devWriteFuel_wf (hint k : Nat) : ∀ (s : State) (a : Nat) (bs : Bytes), storesWf s → storesWf (devWriteFuel hint k s a bs) := by
  induction k with
  | zero => intro s a bs hw; exact hw
  | succ k ih =>
    intro s a bs hw
    simp only [devWriteFuel]
    split
    · exact hw
    · exact ih _ _ _ (touchPage_wf _ _ _ (pageWrite_wf _ _ _ (bringPage_wf _ _ _ hw)))

@[simp] theorem devWriteHint_wf (s : State) (hint a : Nat) (bs : Bytes) (hw : storesWf s) : storesWf (devWriteHint s hint a bs) :=
  devWriteFuel_wf _ _ _ a bs (backInvalidateRange_wf _ _ _ hw)

@[simp] theorem devWrite_wf (s : State) (a : Nat) (bs : Bytes) (hw : storesWf s) : storesWf (devWrite s a bs) :=
  devWriteHint_wf s 0 a bs hw

@[simp] theorem pinPage_wf (s : State) (page : Nat) (hw : storesWf s) : storesWf (pinPage s page) := by
  unfold pinPage
  (repeat' split) <;> first | (simp +contextual (maxDischargeDepth := 60) [*]; done) | ((simp +contextual (maxDischargeDepth := 60) [*]; repeat' split) <;> simp +contextual (maxDischargeDepth := 60) [*])

@[simp] theorem unpinPage_wf (s : State) (page : Nat) (hw : storesWf s) : storesWf (unpinPage s page) := by
  unfold unpinPage
  (repeat' split) <;> first | (simp +contextual (maxDischargeDepth := 60) [*]; done) | ((simp +contextual (maxDischargeDepth := 60) [*]; repeat' split) <;> simp +contextual (maxDischargeDepth := 60) [*])

@[simp] theorem makeLocal_wf (s : State) (fs : List Nat) (hw : storesWf s) : storesWf (makeLocal s fs) := by
  unfold makeLocal
  (repeat' split) <;> first | (simp +contextual (maxDischargeDepth := 60) [*]; done) | ((simp +contextual (maxDischargeDepth := 60) [*]; repeat' split) <;> simp +contextual (maxDischargeDepth := 60) [*])

@[simp] theorem dropLocal_wf (s : State) (fs : List Nat) (hw : storesWf s) : storesWf (dropLocal s fs) := by
  unfold dropLocal
  (repeat' split) <;> first | (simp +contextual (maxDischargeDepth := 60) [*]; done) | ((simp +contextual (maxDischargeDepth := 60) [*]; repeat' split) <;> simp +contextual (maxDischargeDepth := 60) [*])

@[simp] theorem fillDramRegion_wf (s : State) (r : Region) (hw : storesWf s) : storesWf (fillDramRegion s r) := by
  unfold fillDramRegion
  refine storesWf_foldl _ _ (fun t a ht => ?_) _ (by simp +contextual (maxDischargeDepth := 60) [*])
  (repeat' split) <;> simp +contextual (maxDischargeDepth := 60) [*]

@[simp] theorem fillLocalRegion_wf (s : State) (r : Region) (hw : storesWf s) : storesWf (fillLocalRegion s r) := by
  unfold fillLocalRegion
  (repeat' split) <;> first | (simp +contextual (maxDischargeDepth := 60) [*]; done) | ((simp +contextual (maxDischargeDepth := 60) [*]; repeat' split) <;> simp +contextual (maxDischargeDepth := 60) [*])

@[simp] theorem takeLeafFrame_wf (s : State) (hw : storesWf s) : storesWf (takeLeafFrame s).1 := by
  unfold takeLeafFrame
  split
  · exact hw
  · split
    · rename_i t h
      obtain ⟨b, _, h⟩ := List.exists_of_findSome?_eq_some h
      obtain ⟨v, _, h⟩ := Option.bind_eq_some_iff.mp h
      exact evictOne_wf _ _ hw _ h
    · exact hw

@[simp] theorem putLeaf_wf (s : State) (l : Leaf) (hw : storesWf s) : storesWf (putLeaf s l) := by
  unfold putLeaf
  (repeat' split) <;> first | (simp +contextual (maxDischargeDepth := 60) [*]; done) | ((simp +contextual (maxDischargeDepth := 60) [*]; repeat' split) <;> simp +contextual (maxDischargeDepth := 60) [*])

@[simp] theorem addLeaf_wf (s : State) (seg : Nat) (hw : storesWf s) : storesWf (addLeaf s seg) := by
  unfold addLeaf
  (repeat' split) <;> first | (simp +contextual (maxDischargeDepth := 60) [*]; done) | ((simp +contextual (maxDischargeDepth := 60) [*]; repeat' split) <;> simp +contextual (maxDischargeDepth := 60) [*])

@[simp] theorem dropLeaves_wf (s : State) (hw : storesWf s) : storesWf (dropLeaves s) := by
  unfold dropLeaves
  (repeat' split) <;> first | (simp +contextual (maxDischargeDepth := 60) [*]; done) | ((simp +contextual (maxDischargeDepth := 60) [*]; repeat' split) <;> simp +contextual (maxDischargeDepth := 60) [*])

@[simp] theorem createRegion_wf (s : State) (r : Region) (hw : storesWf s) : storesWf (createRegion s r) := by
  unfold createRegion
  (repeat' split) <;> first | (simp +contextual (maxDischargeDepth := 60) [*]; done) | ((simp +contextual (maxDischargeDepth := 60) [*]; repeat' split) <;> simp +contextual (maxDischargeDepth := 60) [*])

@[simp] theorem fillLeaving_wf (s : State) (e : Frame_) (sector : Nat) (hw : storesWf s) : storesWf (fillLeaving s e sector) := by
  unfold fillLeaving
  (repeat' split) <;> first | (simp +contextual (maxDischargeDepth := 60) [*]; done) | ((simp +contextual (maxDischargeDepth := 60) [*]; repeat' split) <;> simp +contextual (maxDischargeDepth := 60) [*])

@[simp] theorem releaseRegion_wf (s : State) (r : Region) (zeroing : Bool) (hw : storesWf s) : storesWf (releaseRegion s r zeroing) := by
  unfold releaseRegion
  (repeat' split) <;> first | (simp +contextual (maxDischargeDepth := 60) [*]; done) | ((simp +contextual (maxDischargeDepth := 60) [*]; repeat' split) <;> simp +contextual (maxDischargeDepth := 60) [*])

/-! RimeUnit -/

@[simp] theorem setRimeBank_wf (s : State) (b : RimeBank) (hw : storesWf s) : storesWf (setRimeBank s b) := by
  unfold setRimeBank
  (repeat' split) <;> first | (simp +contextual (maxDischargeDepth := 60) [*]; done) | ((simp +contextual (maxDischargeDepth := 60) [*]; repeat' split) <;> simp +contextual (maxDischargeDepth := 60) [*])

@[simp] theorem storeRegister_wf (s : State) (bank : Nat) (u : RimeUnit) (w : BitVec 128) (cycles : Nat) (hw : storesWf s) : storesWf (storeRegister s bank u w cycles) := by
  unfold storeRegister
  (repeat' split) <;> first | (simp +contextual (maxDischargeDepth := 60) [*]; done) | ((simp +contextual (maxDischargeDepth := 60) [*]; repeat' split) <;> simp +contextual (maxDischargeDepth := 60) [*])

@[simp] theorem countCorrected_wf (s : State) (bank : Nat) (rows : List Nat) (hw : storesWf s) : storesWf (countCorrected s bank rows) := by
  unfold countCorrected
  (repeat' split) <;> first | (simp +contextual (maxDischargeDepth := 60) [*]; done) | ((simp +contextual (maxDischargeDepth := 60) [*]; repeat' split) <;> simp +contextual (maxDischargeDepth := 60) [*])

@[simp] theorem runWord_wf (s : State) (bank op : Nat) (w : BitVec 128) (m : Media) (corrected : List Nat) (hw : storesWf s) : storesWf (runWord s bank op w m corrected) := by
  unfold runWord
  (repeat' split) <;> first | (simp +contextual (maxDischargeDepth := 60) [*]; done) | ((simp +contextual (maxDischargeDepth := 60) [*]; repeat' split) <;> simp +contextual (maxDischargeDepth := 60) [*])

@[simp] theorem saveUnit_wf (s : State) (bank : Nat) (hw : storesWf s) : storesWf (saveUnit s bank) := by
  unfold saveUnit
  (repeat' split) <;> first | (simp +contextual (maxDischargeDepth := 60) [*]; done) | ((simp +contextual (maxDischargeDepth := 60) [*]; repeat' split) <;> simp +contextual (maxDischargeDepth := 60) [*])

@[simp] theorem restoreUnit_wf (s : State) (bank : Nat) (m : Media) (corrected : List Nat) (hw : storesWf s) : storesWf (restoreUnit s bank m corrected) := by
  unfold restoreUnit
  (repeat' split) <;> first | (simp +contextual (maxDischargeDepth := 60) [*]; done) | ((simp +contextual (maxDischargeDepth := 60) [*]; repeat' split) <;> simp +contextual (maxDischargeDepth := 60) [*])

/-! Rime -/

@[simp] theorem writeResult_wf (s : State) (cell : Nat) (d : BitVec 256) (bs : Bytes) (hw : storesWf s) : storesWf (writeResult s cell d bs) := by
  unfold writeResult
  (repeat' split) <;> first | (simp +contextual (maxDischargeDepth := 60) [*]; done) | ((simp +contextual (maxDischargeDepth := 60) [*]; repeat' split) <;> simp +contextual (maxDischargeDepth := 60) [*])

@[simp] theorem signalRequest_wf (s : State) (r : RimeReq) (code : Nat) (hw : storesWf s) : storesWf (signalRequest s r code) := by
  unfold signalRequest
  (repeat' split) <;> first | (simp +contextual (maxDischargeDepth := 60) [*]; done) | ((simp +contextual (maxDischargeDepth := 60) [*]; repeat' split) <;> simp +contextual (maxDischargeDepth := 60) [*])

@[simp] theorem chargeRequest_wf (s : State) (r : RimeReq) (u : RimeUnit) (code : Nat) (hw : storesWf s) : storesWf (chargeRequest s r u code) := by
  unfold chargeRequest
  (repeat' split) <;> first | (simp +contextual (maxDischargeDepth := 60) [*]; done) | ((simp +contextual (maxDischargeDepth := 60) [*]; repeat' split) <;> simp +contextual (maxDischargeDepth := 60) [*])

@[simp] theorem finishRequest_wf (s : State) (r : RimeReq) (u : RimeUnit) (code : Nat) (hw : storesWf s) : storesWf (finishRequest s r u code) := by
  unfold finishRequest
  (repeat' split) <;> first | (simp +contextual (maxDischargeDepth := 60) [*]; done) | ((simp +contextual (maxDischargeDepth := 60) [*]; repeat' split) <;> simp +contextual (maxDischargeDepth := 60) [*])

@[simp] theorem usePromoted_wf (s : State) (ctx kind n : Nat) (hw : storesWf s) : storesWf (usePromoted s ctx kind n) := by
  unfold usePromoted
  (repeat' split) <;> first | (simp +contextual (maxDischargeDepth := 60) [*]; done) | ((simp +contextual (maxDischargeDepth := 60) [*]; repeat' split) <;> simp +contextual (maxDischargeDepth := 60) [*])

@[simp] theorem redirectHome_wf (s : State) (page bank to_ : Nat) (hw : storesWf s) : storesWf (redirectHome s page bank to_) := by
  unfold redirectHome
  (repeat' split) <;> first | (simp +contextual (maxDischargeDepth := 60) [*]; done) | ((simp +contextual (maxDischargeDepth := 60) [*]; repeat' split) <;> simp +contextual (maxDischargeDepth := 60) [*])

@[simp] theorem moveFrame_wf (s : State) (src dst : Nat) (left : FrameState) (hw : storesWf s) : storesWf (moveFrame s src dst left) := by
  unfold moveFrame
  (repeat' split) <;> first | (simp +contextual (maxDischargeDepth := 60) [*]; done) | ((simp +contextual (maxDischargeDepth := 60) [*]; repeat' split) <;> simp +contextual (maxDischargeDepth := 60) [*])

@[simp] theorem vacate_wf (s : State) (d : Nat) (left : FrameState) (hw : storesWf s) : storesWf (vacate s d left) := by
  unfold vacate
  (repeat' split) <;> first | (simp +contextual (maxDischargeDepth := 60) [*]; done) | ((simp +contextual (maxDischargeDepth := 60) [*]; repeat' split) <;> simp +contextual (maxDischargeDepth := 60) [*])

@[simp] theorem holdFrame_wf (s : State) (d : Nat) (hw : storesWf s) : storesWf (holdFrame s d) := by
  unfold holdFrame
  (repeat' split) <;> first | (simp +contextual (maxDischargeDepth := 60) [*]; done) | ((simp +contextual (maxDischargeDepth := 60) [*]; repeat' split) <;> simp +contextual (maxDischargeDepth := 60) [*])

@[simp] theorem vacateLate_wf (s : State) (hw : storesWf s) : storesWf (vacateLate s) := by
  unfold vacateLate
  (repeat' split) <;> first | (simp +contextual (maxDischargeDepth := 60) [*]; done) | ((simp +contextual (maxDischargeDepth := 60) [*]; repeat' split) <;> simp +contextual (maxDischargeDepth := 60) [*])

@[simp] theorem unparkBank_wf (s : State) (bank : Nat) (p : RimeReq) (m : Media) (corrected : List Nat) (hw : storesWf s) : storesWf (unparkBank s bank p m corrected) := by
  unfold unparkBank
  (repeat' split) <;> first | (simp +contextual (maxDischargeDepth := 60) [*]; done) | ((simp +contextual (maxDischargeDepth := 60) [*]; repeat' split) <;> simp +contextual (maxDischargeDepth := 60) [*])

@[simp] theorem startRequest_wf (s : State) (b : RimeBank) (r : RimeReq) (hw : storesWf s) : storesWf (startRequest s b r) := by
  unfold startRequest
  (repeat' split) <;> first | (simp +contextual (maxDischargeDepth := 60) [*]; done) | ((simp +contextual (maxDischargeDepth := 60) [*]; repeat' split) <;> simp +contextual (maxDischargeDepth := 60) [*])

@[simp] theorem chooseRequest_wf (s : State) (bank : Nat) (hw : storesWf s) : storesWf (chooseRequest s bank) := by
  unfold chooseRequest
  (repeat' split) <;> first | (simp +contextual (maxDischargeDepth := 60) [*]; done) | ((simp +contextual (maxDischargeDepth := 60) [*]; repeat' split) <;> simp +contextual (maxDischargeDepth := 60) [*])

@[simp] theorem preemptBank_wf (s : State) (bank : Nat) (hw : storesWf s) : storesWf (preemptBank s bank) := by
  unfold preemptBank
  (repeat' split) <;> first | (simp +contextual (maxDischargeDepth := 60) [*]; done) | ((simp +contextual (maxDischargeDepth := 60) [*]; repeat' split) <;> simp +contextual (maxDischargeDepth := 60) [*])

@[simp] theorem abortRimeOf_wf (s : State) (ctx : Nat) (hw : storesWf s) : storesWf (abortRimeOf s ctx) := by
  unfold abortRimeOf
  (repeat' split) <;> first | (simp +contextual (maxDischargeDepth := 60) [*]; done) | ((simp +contextual (maxDischargeDepth := 60) [*]; repeat' split) <;> simp +contextual (maxDischargeDepth := 60) [*])

@[simp] theorem poisonJournal_wf (s : State) (p : Nat → Bool) (hw : storesWf s) : storesWf (poisonJournal s p) := by
  unfold poisonJournal
  (repeat' split) <;> first | (simp +contextual (maxDischargeDepth := 60) [*]; done) | ((simp +contextual (maxDischargeDepth := 60) [*]; repeat' split) <;> simp +contextual (maxDischargeDepth := 60) [*])

@[simp] theorem settleJournal_wf (s : State) (hw : storesWf s) : storesWf (settleJournal s) := by
  unfold settleJournal
  (repeat' split) <;> first | (simp +contextual (maxDischargeDepth := 60) [*]; done) | ((simp +contextual (maxDischargeDepth := 60) [*]; repeat' split) <;> simp +contextual (maxDischargeDepth := 60) [*])

/-! Teardown -/

@[simp] theorem makeScratchSet_wf (s : State) (b : Nat) (hw : storesWf s) : storesWf (makeScratchSet s b) := by
  unfold makeScratchSet
  (repeat' split) <;> first | (simp +contextual (maxDischargeDepth := 60) [*]; done) | ((simp +contextual (maxDischargeDepth := 60) [*]; repeat' split) <;> simp +contextual (maxDischargeDepth := 60) [*])

@[simp] theorem giveBack_wf (s : State) (r : Region) (hw : storesWf s) : storesWf (giveBack s r) := by
  unfold giveBack
  (repeat' split) <;> first | (simp +contextual (maxDischargeDepth := 60) [*]; done) | ((simp +contextual (maxDischargeDepth := 60) [*]; repeat' split) <;> simp +contextual (maxDischargeDepth := 60) [*])

@[simp] theorem dropRegionAt_wf (s : State) (base : Nat) (hw : storesWf s) : storesWf (dropRegionAt s base) := by
  unfold dropRegionAt
  (repeat' split) <;> first | (simp +contextual (maxDischargeDepth := 60) [*]; done) | ((simp +contextual (maxDischargeDepth := 60) [*]; repeat' split) <;> simp +contextual (maxDischargeDepth := 60) [*])

@[simp] theorem dropScratchSet_wf (s : State) (b : Nat) (hw : storesWf s) : storesWf (dropScratchSet s b) := by
  unfold dropScratchSet
  (repeat' split) <;> first | (simp +contextual (maxDischargeDepth := 60) [*]; done) | ((simp +contextual (maxDischargeDepth := 60) [*]; repeat' split) <;> simp +contextual (maxDischargeDepth := 60) [*])

@[simp] theorem clearSectors_wf (s : State) (b k : Nat) (hw : storesWf s) : storesWf (clearSectors s b k) := by
  unfold clearSectors
  (repeat' split) <;> first | (simp +contextual (maxDischargeDepth := 60) [*]; done) | ((simp +contextual (maxDischargeDepth := 60) [*]; repeat' split) <;> simp +contextual (maxDischargeDepth := 60) [*])

@[simp] theorem unpinWeights_wf (s : State) (p : Plan) (hw : storesWf s) : storesWf (unpinWeights s p) := by
  unfold unpinWeights
  (repeat' split) <;> first | (simp +contextual (maxDischargeDepth := 60) [*]; done) | ((simp +contextual (maxDischargeDepth := 60) [*]; repeat' split) <;> simp +contextual (maxDischargeDepth := 60) [*])

@[simp] theorem reevalPieces_wf (s : State) (hw : storesWf s) : storesWf (reevalPieces s) := by
  unfold reevalPieces
  (repeat' split) <;> first | (simp +contextual (maxDischargeDepth := 60) [*]; done) | ((simp +contextual (maxDischargeDepth := 60) [*]; repeat' split) <;> simp +contextual (maxDischargeDepth := 60) [*])

@[simp] theorem releasePlan_wf (s : State) (h : Nat) (hw : storesWf s) : storesWf (releasePlan s h) := by
  unfold releasePlan
  (repeat' split) <;> first | (simp +contextual (maxDischargeDepth := 60) [*]; done) | ((simp +contextual (maxDischargeDepth := 60) [*]; repeat' split) <;> simp +contextual (maxDischargeDepth := 60) [*])

@[simp] theorem endContext_wf (s : State) (ctx : Nat) (hw : storesWf s) : storesWf (endContext s ctx) := by
  unfold endContext
  (repeat' split) <;> first | (simp +contextual (maxDischargeDepth := 60) [*]; done) | ((simp +contextual (maxDischargeDepth := 60) [*]; repeat' split) <;> simp +contextual (maxDischargeDepth := 60) [*])

@[simp] theorem trimParts_wf (s : State) (index : Nat) (hw : storesWf s) : storesWf (trimParts s index) := by
  unfold trimParts
  (repeat' split) <;> first | (simp +contextual (maxDischargeDepth := 60) [*]; done) | ((simp +contextual (maxDischargeDepth := 60) [*]; repeat' split) <;> simp +contextual (maxDischargeDepth := 60) [*])

@[simp] theorem endMerge_wf (s : State) (index : Nat) (status : Option Nat) (hw : storesWf s) : storesWf (endMerge s index status) := by
  unfold endMerge
  (repeat' split) <;> first | (simp +contextual (maxDischargeDepth := 60) [*]; done) | ((simp +contextual (maxDischargeDepth := 60) [*]; repeat' split) <;> simp +contextual (maxDischargeDepth := 60) [*])

@[simp] theorem cutMerges_wf (s : State) (p : MergeState → Bool) (status : Option Nat) (hw : storesWf s) : storesWf (cutMerges s p status) := by
  unfold cutMerges
  (repeat' split) <;> first | (simp +contextual (maxDischargeDepth := 60) [*]; done) | ((simp +contextual (maxDischargeDepth := 60) [*]; repeat' split) <;> simp +contextual (maxDischargeDepth := 60) [*])

@[simp] theorem dropWaits_wf (s : State) (ctx : Nat) (hw : storesWf s) : storesWf (dropWaits s ctx) := by
  unfold dropWaits
  (repeat' split) <;> first | (simp +contextual (maxDischargeDepth := 60) [*]; done) | ((simp +contextual (maxDischargeDepth := 60) [*]; repeat' split) <;> simp +contextual (maxDischargeDepth := 60) [*])

@[simp] theorem abandonCmds_wf (s : State) (ctx : Nat) (hw : storesWf s) : storesWf (abandonCmds s ctx) := by
  unfold abandonCmds
  (repeat' split) <;> first | (simp +contextual (maxDischargeDepth := 60) [*]; done) | ((simp +contextual (maxDischargeDepth := 60) [*]; repeat' split) <;> simp +contextual (maxDischargeDepth := 60) [*])

@[simp] theorem stopPairs_wf (s : State) (ctx : Nat) (hw : storesWf s) : storesWf (stopPairs s ctx) := by
  unfold stopPairs
  (repeat' split) <;> first | (simp +contextual (maxDischargeDepth := 60) [*]; done) | ((simp +contextual (maxDischargeDepth := 60) [*]; repeat' split) <;> simp +contextual (maxDischargeDepth := 60) [*])

@[simp] theorem tearDown_wf (s : State) (ctx : Nat) (hw : storesWf s) : storesWf (tearDown s ctx) := by
  unfold tearDown
  (repeat' split) <;> first | (simp +contextual (maxDischargeDepth := 60) [*]; done) | ((simp +contextual (maxDischargeDepth := 60) [*]; repeat' split) <;> simp +contextual (maxDischargeDepth := 60) [*])

@[simp] theorem resetContext_wf (status : Option Nat) (s : State) (ctx : Nat) (hw : storesWf s) : storesWf (resetContext status s ctx) := by
  unfold resetContext
  (repeat' split) <;> first | (simp +contextual (maxDischargeDepth := 60) [*]; done) | ((simp +contextual (maxDischargeDepth := 60) [*]; repeat' split) <;> simp +contextual (maxDischargeDepth := 60) [*])

@[simp] theorem endReclaimed_wf (s : State) (ctx : Nat) (hw : storesWf s) : storesWf (endReclaimed s ctx) := by
  unfold endReclaimed
  (repeat' split) <;> first | (simp +contextual (maxDischargeDepth := 60) [*]; done) | ((simp +contextual (maxDischargeDepth := 60) [*]; repeat' split) <;> simp +contextual (maxDischargeDepth := 60) [*])

@[simp] theorem resetFunction_wf (status : Option Nat) (s : State) (fn : Nat) (hw : storesWf s) : storesWf (resetFunction status s fn) := by
  unfold resetFunction
  (repeat' split) <;> first | (simp +contextual (maxDischargeDepth := 60) [*]; done) | ((simp +contextual (maxDischargeDepth := 60) [*]; repeat' split) <;> simp +contextual (maxDischargeDepth := 60) [*])

@[simp] theorem endIfLast_wf (s : State) (ctx : Nat) (hw : storesWf s) : storesWf (endIfLast s ctx) := by
  unfold endIfLast
  (repeat' split) <;> first | (simp +contextual (maxDischargeDepth := 60) [*]; done) | ((simp +contextual (maxDischargeDepth := 60) [*]; repeat' split) <;> simp +contextual (maxDischargeDepth := 60) [*])

@[simp] theorem finishDelete_wf (s : State) (qp : Nat) (hw : storesWf s) : storesWf (finishDelete s qp) := by
  unfold finishDelete
  (repeat' split) <;> first | (simp +contextual (maxDischargeDepth := 60) [*]; done) | ((simp +contextual (maxDischargeDepth := 60) [*]; repeat' split) <;> simp +contextual (maxDischargeDepth := 60) [*])

@[simp] theorem completeAfter_wf (s : State) (q cid status result : Nat) (channels : List Nat) (hw : storesWf s) : storesWf (completeAfter s q cid status result channels) := by
  unfold completeAfter
  (repeat' split) <;> first | (simp +contextual (maxDischargeDepth := 60) [*]; done) | ((simp +contextual (maxDischargeDepth := 60) [*]; repeat' split) <;> simp +contextual (maxDischargeDepth := 60) [*])

@[simp] theorem completeAfterWake_wf (s : State) (q cid status result : Nat) (hw : storesWf s) : storesWf (completeAfterWake s q cid status result) := by
  unfold completeAfterWake
  (repeat' split) <;> first | (simp +contextual (maxDischargeDepth := 60) [*]; done) | ((simp +contextual (maxDischargeDepth := 60) [*]; repeat' split) <;> simp +contextual (maxDischargeDepth := 60) [*])

@[simp] theorem releaseHeld_wf (s : State) (f : Cmd → Cmd) (hw : storesWf s) : storesWf (releaseHeld s f) := by
  unfold releaseHeld
  (repeat' split) <;> first | (simp +contextual (maxDischargeDepth := 60) [*]; done) | ((simp +contextual (maxDischargeDepth := 60) [*]; repeat' split) <;> simp +contextual (maxDischargeDepth := 60) [*])

@[simp] theorem releaseWakeWaits_wf (s : State) (n : Nat) (hw : storesWf s) : storesWf (releaseWakeWaits s n) := by
  unfold releaseWakeWaits
  (repeat' split) <;> first | (simp +contextual (maxDischargeDepth := 60) [*]; done) | ((simp +contextual (maxDischargeDepth := 60) [*]; repeat' split) <;> simp +contextual (maxDischargeDepth := 60) [*])

@[simp] theorem releasePieceWaits_wf (s : State) (hw : storesWf s) : storesWf (releasePieceWaits s) := by
  unfold releasePieceWaits
  (repeat' split) <;> first | (simp +contextual (maxDischargeDepth := 60) [*]; done) | ((simp +contextual (maxDischargeDepth := 60) [*]; repeat' split) <;> simp +contextual (maxDischargeDepth := 60) [*])

/-! Commands -/

@[simp] theorem withAdmin_wf (s : State) (cid opcode : Nat) (k : State → Cmd → State) (hk : ∀ t a0, storesWf t → storesWf (k t a0)) (hw : storesWf s) : storesWf (withAdmin s cid opcode k) := by
  unfold withAdmin
  (repeat' split) <;> first | (simp +contextual (maxDischargeDepth := 60) [*]; done) | ((simp +contextual (maxDischargeDepth := 60) [*]; repeat' split) <;> simp +contextual (maxDischargeDepth := 60) [*])

@[simp] theorem withIo_wf (s : State) (q cid opcode : Nat) (k : State → Cmd → State) (hk : ∀ t a0, storesWf t → storesWf (k t a0)) (hw : storesWf s) : storesWf (withIo s q cid opcode k) := by
  unfold withIo
  (repeat' split) <;> first | (simp +contextual (maxDischargeDepth := 60) [*]; done) | ((simp +contextual (maxDischargeDepth := 60) [*]; repeat' split) <;> simp +contextual (maxDischargeDepth := 60) [*])

@[simp] theorem dropAdminCids_wf (s : State) (hw : storesWf s) : storesWf (dropAdminCids s) := by
  unfold dropAdminCids
  (repeat' split) <;> first | (simp +contextual (maxDischargeDepth := 60) [*]; done) | ((simp +contextual (maxDischargeDepth := 60) [*]; repeat' split) <;> simp +contextual (maxDischargeDepth := 60) [*])

@[simp] theorem hostRead_wf (s : State) (addr n : Nat) (hw : storesWf s) : storesWf (hostRead s addr n) := by
  unfold hostRead
  (repeat' split) <;> first | (simp +contextual (maxDischargeDepth := 60) [*]; done) | ((simp +contextual (maxDischargeDepth := 60) [*]; repeat' split) <;> simp +contextual (maxDischargeDepth := 60) [*])

/-! Filters -/

@[simp] theorem touchBitmaps_wf (s : State) (a n : Nat) (hw : storesWf s) : storesWf (touchBitmaps s a n) := by
  unfold touchBitmaps
  (repeat' split) <;> first | (simp +contextual (maxDischargeDepth := 60) [*]; done) | ((simp +contextual (maxDischargeDepth := 60) [*]; repeat' split) <;> simp +contextual (maxDischargeDepth := 60) [*])

/-! Admission -/

@[simp] theorem acceptQuery_wf (s : State) (p : Plan) (x : Query) (offset : Nat) (hw : storesWf s) : storesWf (acceptQuery s p x offset) := by
  unfold acceptQuery
  (repeat' split) <;> first | (simp +contextual (maxDischargeDepth := 60) [*]; done) | ((simp +contextual (maxDischargeDepth := 60) [*]; repeat' split) <;> simp +contextual (maxDischargeDepth := 60) [*])

@[simp] theorem readEntry_wf (s : State) (c : Cmd) (opcode stride : Nat) (p : Plan) (x : IndexParams) (i : Nat) (h : BitVec 512) (hw : storesWf s) : storesWf (readEntry s c opcode stride p x i h) := by
  unfold readEntry
  (repeat' split) <;> first | (simp +contextual (maxDischargeDepth := 60) [*]; done) | ((simp +contextual (maxDischargeDepth := 60) [*]; repeat' split) <;> simp +contextual (maxDischargeDepth := 60) [*])

@[simp] theorem decidePosition_wf (pr : QPair) (p : Plan) (c : Cmd) (opcode stride : Nat) (s : State) (pos : Nat) (e : Option Bytes) (hw : storesWf s) : storesWf (decidePosition pr p c opcode stride s pos e) := by
  unfold decidePosition
  (repeat' split) <;> first | (simp +contextual (maxDischargeDepth := 60) [*]; done) | ((simp +contextual (maxDischargeDepth := 60) [*]; repeat' split) <;> simp +contextual (maxDischargeDepth := 60) [*])

@[simp] theorem batchRow_wf (opcode : Nat) (kind : PlanKind) (q cid : Nat) (desc : BitVec 1024) (es : List Bytes) (s : State)
    (hw : storesWf s) : storesWf (batchRow opcode kind q cid desc es s) := by
  unfold batchRow
  refine withIo_wf _ _ _ _ _ (fun t c ht => ?_) hw
  dsimp only
  (repeat' split) <;> try (first | exact ht | simp +contextual (maxDischargeDepth := 60) [*])

/-! Bays -/

@[simp] theorem dropPark_wf (s : State) (b : Nat) (hw : storesWf s) : storesWf (dropPark s b) := by
  unfold dropPark
  (repeat' split) <;> first | (simp +contextual (maxDischargeDepth := 60) [*]; done) | ((simp +contextual (maxDischargeDepth := 60) [*]; repeat' split) <;> simp +contextual (maxDischargeDepth := 60) [*])

@[simp] theorem makePark_wf (s : State) (b pages : Nat) (hw : storesWf s) : storesWf (makePark s b pages) := by
  unfold makePark
  (repeat' split) <;> first | (simp +contextual (maxDischargeDepth := 60) [*]; done) | ((simp +contextual (maxDischargeDepth := 60) [*]; repeat' split) <;> simp +contextual (maxDischargeDepth := 60) [*])

@[simp] theorem bindRegion_wf (b : Nat) (s : State) (r : BitVec 128) (hw : storesWf s) : storesWf (bindRegion b s r) := by
  unfold bindRegion
  (repeat' split) <;> first | (simp +contextual (maxDischargeDepth := 60) [*]; done) | ((simp +contextual (maxDischargeDepth := 60) [*]; repeat' split) <;> simp +contextual (maxDischargeDepth := 60) [*])

@[simp] theorem unwriteChannel_wf (s : State) (c : Nat) (hw : storesWf s) : storesWf (unwriteChannel s c) := by
  unfold unwriteChannel
  (repeat' split) <;> first | (simp +contextual (maxDischargeDepth := 60) [*]; done) | ((simp +contextual (maxDischargeDepth := 60) [*]; repeat' split) <;> simp +contextual (maxDischargeDepth := 60) [*])

@[simp] theorem mapPieces_wf (s : State) (b c base n : Nat) (hw : storesWf s) : storesWf (mapPieces s b c base n) := by
  unfold mapPieces
  (repeat' split) <;> first | (simp +contextual (maxDischargeDepth := 60) [*]; done) | ((simp +contextual (maxDischargeDepth := 60) [*]; repeat' split) <;> simp +contextual (maxDischargeDepth := 60) [*])

theorem addLeaves_wf (s : State) (l : List Nat) (hw : storesWf s) : storesWf (l.foldl addLeaf s) :=
  storesWf_foldl _ _ (fun _ _ ht => addLeaf_wf _ _ ht) _ hw

theorem bindPieces_wf (x : State) (b c base : Nat) (r : Region) (h : storesWf x) :
    storesWf (updBay (unwriteChannel (mapPieces
      { x with
        bay := { x.bay with regions := x.bay.regions ++ [r] },
        tier := { x.tier with departures := x.tier.departures.map (fun d => if d.channel == c then { d with kind := .lease b } else d) } }
      b c base 30720) c) b (fun v => { v with
        excl := insertAsc c v.excl, exclAddrs := putKey v.exclAddrs c (pageBytes * base) })) :=
  updBay_wf _ _ _ (unwriteChannel_wf _ _ (mapPieces_wf _ _ _ _ _ ⟨h.1, h.2.1, h.2.2.1, h.2.2.2⟩))

@[simp] theorem bindExclusive_wf (s : State) (b c : Nat) (hw : storesWf s) : storesWf (bindExclusive s b c) :=
  bindPieces_wf _ b c _ _ (addLeaves_wf s _ hw)

@[simp] theorem settleBinds_wf (s : State) (hw : storesWf s) : storesWf (settleBinds s) := by
  unfold settleBinds
  (repeat' split) <;> first | (simp +contextual (maxDischargeDepth := 60) [*]; done) | ((simp +contextual (maxDischargeDepth := 60) [*]; repeat' split) <;> simp +contextual (maxDischargeDepth := 60) [*])

@[simp] theorem acceptBind_wf (s : State) (c : Cmd) (b : Nat) (h : BitVec 1024) (regs : List (BitVec 128)) (hw : storesWf s) :
    storesWf (acceptBind s c b h regs) := by
  unfold acceptBind
  extract_lets ext s0 s1 freeA freeF slots pegs s2 s3 local_ s4 park s5 wait returns standby evac s6
  have h1 : storesWf s1 := by simp only [s1]; split <;> (simp only [s0]; simp +contextual (maxDischargeDepth := 60) [*])
  have h2 : storesWf s2 := updBay_wf _ _ _ h1
  have h3 : storesWf s3 := by simp only [s3]; (repeat' split) <;> simp +contextual (maxDischargeDepth := 60) [*]
  have h4 : storesWf s4 := by
    refine storesWf_foldl _ _ (fun t a ht => ?_) _ h3
    simp +contextual (maxDischargeDepth := 60) [*]
  have h5 : storesWf s5 := by simp only [s5]; (repeat' split) <;> simp +contextual (maxDischargeDepth := 60) [*]
  have h6 : storesWf s6 := storesWf_foldl _ _ (fun t a ht => bindExclusive_wf t b a ht) _ h5
  exact settleBinds_wf _ (by rw [storesWf_mk]; exact h6)

@[simp] theorem clearArray_wf (s : State) (a : Nat) (hw : storesWf s) : storesWf (clearArray s a) := by
  unfold clearArray
  (repeat' split) <;> first | (simp +contextual (maxDischargeDepth := 60) [*]; done) | ((simp +contextual (maxDischargeDepth := 60) [*]; repeat' split) <;> simp +contextual (maxDischargeDepth := 60) [*])

@[simp] theorem awaitLess_wf (s : State) (p : PendingBind) (f : PendingBind → PendingBind) (hw : storesWf s) : storesWf (awaitLess s p f) := by
  unfold awaitLess
  (repeat' split) <;> first | (simp +contextual (maxDischargeDepth := 60) [*]; done) | ((simp +contextual (maxDischargeDepth := 60) [*]; repeat' split) <;> simp +contextual (maxDischargeDepth := 60) [*])

@[simp] theorem handOver_wf (s : State) (r : Resource) (hw : storesWf s) : storesWf (handOver s r) := by
  unfold handOver
  (repeat' split) <;> first | (simp +contextual (maxDischargeDepth := 60) [*]; done) | ((simp +contextual (maxDischargeDepth := 60) [*]; repeat' split) <;> simp +contextual (maxDischargeDepth := 60) [*])

@[simp] theorem dropExclusive_wf (s : State) (b c : Nat) (hw : storesWf s) : storesWf (dropExclusive s b c) := by
  unfold dropExclusive
  (repeat' split) <;> first | (simp +contextual (maxDischargeDepth := 60) [*]; done) | ((simp +contextual (maxDischargeDepth := 60) [*]; repeat' split) <;> simp +contextual (maxDischargeDepth := 60) [*])

@[simp] theorem startReturn_wf (s : State) (hw : storesWf s) : storesWf (startReturn s) := by
  unfold startReturn
  (repeat' split) <;> first | (simp +contextual (maxDischargeDepth := 60) [*]; done) | ((simp +contextual (maxDischargeDepth := 60) [*]; repeat' split) <;> simp +contextual (maxDischargeDepth := 60) [*])

@[simp] theorem releaseLease_wf (s : State) (c : Nat) (hw : storesWf s) : storesWf (releaseLease s c) := by
  unfold releaseLease
  (repeat' split) <;> first | (simp +contextual (maxDischargeDepth := 60) [*]; done) | ((simp +contextual (maxDischargeDepth := 60) [*]; repeat' split) <;> simp +contextual (maxDischargeDepth := 60) [*])

@[simp] theorem storeToPages_wf (s : State) (src : List Host.Cell) (key page n : Nat) (hw : storesWf s) : storesWf (storeToPages s src key page n) := by
  unfold storeToPages
  refine storesWf_foldl _ _ (fun t a ht => ?_) _ (by simp +contextual (maxDischargeDepth := 60) [*])
  (repeat' split) <;> simp +contextual (maxDischargeDepth := 60) [*]

@[simp] theorem forcedSave_wf (s : State) (b : Nat) (hw : storesWf s) : storesWf (forcedSave s b) := by
  unfold forcedSave
  (repeat' split) <;> first | (simp +contextual (maxDischargeDepth := 60) [*]; done) | ((simp +contextual (maxDischargeDepth := 60) [*]; repeat' split) <;> simp +contextual (maxDischargeDepth := 60) [*])

@[simp] theorem finishExpiry_wf (s : State) (b : Nat) (hw : storesWf s) : storesWf (finishExpiry s b) := by
  unfold finishExpiry
  (repeat' split) <;> first | (simp +contextual (maxDischargeDepth := 60) [*]; done) | ((simp +contextual (maxDischargeDepth := 60) [*]; repeat' split) <;> simp +contextual (maxDischargeDepth := 60) [*])

@[simp] theorem settleExpiry_wf (s : State) (b : Nat) (hw : storesWf s) : storesWf (settleExpiry s b) := by
  unfold settleExpiry
  (repeat' split) <;> first | (simp +contextual (maxDischargeDepth := 60) [*]; done) | ((simp +contextual (maxDischargeDepth := 60) [*]; repeat' split) <;> simp +contextual (maxDischargeDepth := 60) [*])

@[simp] theorem giveUpRegions_wf (s : State) (b : Nat) (hw : storesWf s) : storesWf (giveUpRegions s b) := by
  unfold giveUpRegions
  (repeat' split) <;> first | (simp +contextual (maxDischargeDepth := 60) [*]; done) | ((simp +contextual (maxDischargeDepth := 60) [*]; repeat' split) <;> simp +contextual (maxDischargeDepth := 60) [*])

@[simp] theorem faultContext_wf (s : State) (ctx cause : Nat) (hw : storesWf s) : storesWf (faultContext s ctx cause) := by
  unfold faultContext
  (repeat' split) <;> first | (simp +contextual (maxDischargeDepth := 60) [*]; done) | ((simp +contextual (maxDischargeDepth := 60) [*]; repeat' split) <;> simp +contextual (maxDischargeDepth := 60) [*])

/-! Index -/

@[simp] theorem addIndex_wf (s : State) (x : Index) (hw : storesWf s) : storesWf (addIndex s x) := by
  unfold addIndex
  (repeat' split) <;> first | (simp +contextual (maxDischargeDepth := 60) [*]; done) | ((simp +contextual (maxDischargeDepth := 60) [*]; repeat' split) <;> simp +contextual (maxDischargeDepth := 60) [*])

@[simp] theorem writeSlot_wf (x : Index) (k : IndexPart) (s : State) (e : Nat × Bytes) (hw : storesWf s) : storesWf (writeSlot x k s e) := by
  unfold writeSlot
  (repeat' split) <;> first | (simp +contextual (maxDischargeDepth := 60) [*]; done) | ((simp +contextual (maxDischargeDepth := 60) [*]; repeat' split) <;> simp +contextual (maxDischargeDepth := 60) [*])

@[simp] theorem writeDriftSlots_wf (s : State) (x : Index) (es : List DriftEntry) (hw : storesWf s) : storesWf (writeDriftSlots s x es) := by
  unfold writeDriftSlots
  (repeat' split) <;> first | (simp +contextual (maxDischargeDepth := 60) [*]; done) | ((simp +contextual (maxDischargeDepth := 60) [*]; repeat' split) <;> simp +contextual (maxDischargeDepth := 60) [*])

@[simp] theorem firnMerge_wf (sweep : Bool) (cid : Nat) (s : State) (hw : storesWf s) : storesWf (firnMerge sweep cid s) := by
  unfold firnMerge
  refine withAdmin_wf _ _ _ _ (fun t c ht => ?_) hw
  dsimp only
  (repeat' split) <;> first | exact ht | exact endMerge_wf _ _ _ (updIndex_wf _ _ _ (startCmd_wf _ _ _ _ ht)) | exact updIndex_wf _ _ _ (startCmd_wf _ _ _ _ ht) | exact endCmd_wf _ _ _ _ _ ht

@[simp] theorem writeStore_wf (s : State) (x : Index) (es : List (Nat × Bytes)) (hw : storesWf s) : storesWf (writeStore s x es) := by
  unfold writeStore
  (repeat' split) <;> first | (simp +contextual (maxDischargeDepth := 60) [*]; done) | ((simp +contextual (maxDischargeDepth := 60) [*]; repeat' split) <;> simp +contextual (maxDischargeDepth := 60) [*])

@[simp] theorem kerfByModule_wf (s : State) (index : Nat) (ns : List Nat) (hw : storesWf s) : storesWf (kerfByModule s index ns) := by
  unfold kerfByModule
  (repeat' split) <;> first | (simp +contextual (maxDischargeDepth := 60) [*]; done) | ((simp +contextual (maxDischargeDepth := 60) [*]; repeat' split) <;> simp +contextual (maxDischargeDepth := 60) [*])

@[simp] theorem loseUnit_wf (s : State) (channel die unit : Nat) (hw : storesWf s) : storesWf (loseUnit s channel die unit) := by
  have h1 := logError_wf s errFlashLost (dieUnit channel die) (lostDetail s channel die unit) none hw
  unfold loseUnit
  dsimp only
  split
  · exact h1
  · refine storesWf_foldl _ _ (fun t a ht => ?_) _ h1
    split
    · exact ht
    · (repeat' split) <;> simp +contextual (maxDischargeDepth := 60) [*]

/-! Plan -/

@[simp] theorem takeScratch_wf (s : State) (b ctx pages : Nat) (hw : storesWf s) : storesWf (takeScratch s b ctx pages).1 := by
  unfold takeScratch
  (repeat' split) <;> first | (simp +contextual (maxDischargeDepth := 60) [*]; done) | ((simp +contextual (maxDischargeDepth := 60) [*]; repeat' split) <;> simp +contextual (maxDischargeDepth := 60) [*])

theorem bindPegs_wf (b ctx : Nat) (l : List PegBinding) : ∀ r : State × List PegBinding, storesWf r.1 → storesWf (bindPegs b ctx l r).1 := by
  induction l with
  | nil => intro r h; exact h
  | cons d rest ih =>
    intro r h
    simp only [bindPegs]
    (repeat' split) <;> exact ih _ (by simp +contextual (maxDischargeDepth := 60) [*])

@[simp] theorem acceptPlan_wf (s : State) (ctx : Nat) (m : Image) (hw : storesWf s) : storesWf (acceptPlan s ctx m).1 := by
  unfold acceptPlan
  dsimp only
  refine updBay_wf _ _ _ ?_
  rw [storesWf_mk]
  refine bindPegs_wf _ _ _ _ (storesWf_foldl _ _ (fun t a ht => by simp +contextual (maxDischargeDepth := 60) [*]) _ (takeScratch_wf _ _ _ _ ?_))
  (repeat' split) <;> simp +contextual (maxDischargeDepth := 60) [*]

@[simp] theorem poisonFilled_wf (s : State) (a : Nat) (hw : storesWf s) : storesWf (poisonFilled s a) := by
  unfold poisonFilled
  (repeat' split) <;> first | (simp +contextual (maxDischargeDepth := 60) [*]; done) | ((simp +contextual (maxDischargeDepth := 60) [*]; repeat' split) <;> simp +contextual (maxDischargeDepth := 60) [*])

/-! Search -/

@[simp] theorem touchReads_wf (s : State) (i : Index) (rs : List PartRead) (hw : storesWf s) : storesWf (touchReads s i rs) := by
  unfold touchReads
  (repeat' split) <;> first | (simp +contextual (maxDischargeDepth := 60) [*]; done) | ((simp +contextual (maxDischargeDepth := 60) [*]; repeat' split) <;> simp +contextual (maxDischargeDepth := 60) [*])

@[simp] theorem takeTicket_wf (s : State) (hw : storesWf s) : storesWf (takeTicket s) := by
  unfold takeTicket
  (repeat' split) <;> first | (simp +contextual (maxDischargeDepth := 60) [*]; done) | ((simp +contextual (maxDischargeDepth := 60) [*]; repeat' split) <;> simp +contextual (maxDischargeDepth := 60) [*])

@[simp] theorem sendReads_wf (s : State) (i : Index) (v : Version) (x : Query) (hw : storesWf s) : storesWf (sendReads s i v x) := by
  unfold sendReads
  (repeat' split) <;> first | (simp +contextual (maxDischargeDepth := 60) [*]; done) | ((simp +contextual (maxDischargeDepth := 60) [*]; repeat' split) <;> simp +contextual (maxDischargeDepth := 60) [*])

@[simp] theorem nextHop_wf (s : State) (i : Index) (v : Version) (p : SearchParams) (x : Query) (hw : storesWf s) : storesWf (nextHop s i v p x) := by
  unfold nextHop
  (repeat' split) <;> first | (simp +contextual (maxDischargeDepth := 60) [*]; done) | ((simp +contextual (maxDischargeDepth := 60) [*]; repeat' split) <;> simp +contextual (maxDischargeDepth := 60) [*])

@[simp] theorem startTraversal_wf (s : State) (x : Query) (hw : storesWf s) : storesWf (startTraversal s x) := by
  unfold startTraversal
  (repeat' split) <;> first | (simp +contextual (maxDischargeDepth := 60) [*]; done) | ((simp +contextual (maxDischargeDepth := 60) [*]; repeat' split) <;> simp +contextual (maxDischargeDepth := 60) [*])

@[simp] theorem requestSlots_wf (s : State) (i : Index) (v : Version) (x : Query) (hw : storesWf s) : storesWf (requestSlots s i v x) := by
  unfold requestSlots
  (repeat' split) <;> first | (simp +contextual (maxDischargeDepth := 60) [*]; done) | ((simp +contextual (maxDischargeDepth := 60) [*]; repeat' split) <;> simp +contextual (maxDischargeDepth := 60) [*])

@[simp] theorem formPool_wf (s : State) (x : Query) (hw : storesWf s) : storesWf (formPool s x) := by
  unfold formPool
  (repeat' split) <;> first | (simp +contextual (maxDischargeDepth := 60) [*]; done) | ((simp +contextual (maxDischargeDepth := 60) [*]; repeat' split) <;> simp +contextual (maxDischargeDepth := 60) [*])

@[simp] theorem settleSearch_wf (s : State) (slot : Nat) (hw : storesWf s) : storesWf (settleSearch s slot) := by
  unfold settleSearch
  (repeat' split) <;> first | (simp +contextual (maxDischargeDepth := 60) [*]; done) | ((simp +contextual (maxDischargeDepth := 60) [*]; repeat' split) <;> simp +contextual (maxDischargeDepth := 60) [*])

@[simp] theorem formRerank_wf (s : State) (x : Query) (hw : storesWf s) : storesWf (formRerank s x) := by
  unfold formRerank
  (repeat' split) <;> first | (simp +contextual (maxDischargeDepth := 60) [*]; done) | ((simp +contextual (maxDischargeDepth := 60) [*]; repeat' split) <;> simp +contextual (maxDischargeDepth := 60) [*])

@[simp] theorem countTruncated_wf (s : State) (b c : Nat) (hw : storesWf s) : storesWf (countTruncated s b c) := by
  unfold countTruncated
  (repeat' split) <;> first | (simp +contextual (maxDischargeDepth := 60) [*]; done) | ((simp +contextual (maxDischargeDepth := 60) [*]; repeat' split) <;> simp +contextual (maxDischargeDepth := 60) [*])

@[simp] theorem writeResults_wf (s : State) (x : Query) (p : Plan) (truncated byScore : Bool) (hw : storesWf s) : storesWf (writeResults s x p truncated byScore) := by
  unfold writeResults
  (repeat' split) <;> first | (simp +contextual (maxDischargeDepth := 60) [*]; done) | ((simp +contextual (maxDischargeDepth := 60) [*]; repeat' split) <;> simp +contextual (maxDischargeDepth := 60) [*])

@[simp] theorem afterEncoder_wf (s : State) (x : Query) (p : Plan) (hw : storesWf s) : storesWf (afterEncoder s x p) := by
  unfold afterEncoder
  (repeat' split) <;> first | (simp +contextual (maxDischargeDepth := 60) [*]; done) | ((simp +contextual (maxDischargeDepth := 60) [*]; repeat' split) <;> simp +contextual (maxDischargeDepth := 60) [*])

@[simp] theorem chargeFlash_wf (s : State) (x : Query) (hw : storesWf s) : storesWf (chargeFlash s x) := by
  unfold chargeFlash
  (repeat' split) <;> first | (simp +contextual (maxDischargeDepth := 60) [*]; done) | ((simp +contextual (maxDischargeDepth := 60) [*]; repeat' split) <;> simp +contextual (maxDischargeDepth := 60) [*])

@[simp] theorem startRebuild_wf (s : State) (x : Query) (u : Nat) (hw : storesWf s) : storesWf (startRebuild s x u).1 := by
  unfold startRebuild
  (repeat' split) <;> first | (simp +contextual (maxDischargeDepth := 60) [*]; done) | ((simp +contextual (maxDischargeDepth := 60) [*]; repeat' split) <;> simp +contextual (maxDischargeDepth := 60) [*])

@[simp] theorem chargeDram_wf (s : State) (x : Query) (r : DramReq) (hw : storesWf s) : storesWf (chargeDram s x r) := by
  unfold chargeDram
  (repeat' split) <;> first | (simp +contextual (maxDischargeDepth := 60) [*]; done) | ((simp +contextual (maxDischargeDepth := 60) [*]; repeat' split) <;> simp +contextual (maxDischargeDepth := 60) [*])

@[simp] theorem endHop_wf (s : State) (x : Query) (hw : storesWf s) : storesWf (endHop s x) := by
  unfold endHop
  (repeat' split) <;> first | (simp +contextual (maxDischargeDepth := 60) [*]; done) | ((simp +contextual (maxDischargeDepth := 60) [*]; repeat' split) <;> simp +contextual (maxDischargeDepth := 60) [*])

@[simp] theorem readRecord_wf (s : State) (i : Index) (n : Nat) (m : DramRead) (hw : storesWf s) : storesWf (readRecord s i n m).1 := by
  unfold readRecord
  (repeat' split) <;> first | (simp +contextual (maxDischargeDepth := 60) [*]; done) | ((simp +contextual (maxDischargeDepth := 60) [*]; repeat' split) <;> simp +contextual (maxDischargeDepth := 60) [*])

@[simp] theorem readSlot_wf (s : State) (i : Index) (a : Nat) (m : DramRead) (hw : storesWf s) : storesWf (readSlot s i a m).1 := by
  unfold readSlot
  (repeat' split) <;> first | (simp +contextual (maxDischargeDepth := 60) [*]; done) | ((simp +contextual (maxDischargeDepth := 60) [*]; repeat' split) <;> simp +contextual (maxDischargeDepth := 60) [*])

@[simp] theorem abandonCuts_wf (s : State) (x : Query) (p : Plan) (hw : storesWf s) : storesWf (abandonCuts s x p) := by
  unfold abandonCuts
  (repeat' split) <;> first | (simp +contextual (maxDischargeDepth := 60) [*]; done) | ((simp +contextual (maxDischargeDepth := 60) [*]; repeat' split) <;> simp +contextual (maxDischargeDepth := 60) [*])

@[simp] theorem truncateQuery_wf (s : State) (x : Query) (p : Plan) (hw : storesWf s) : storesWf (truncateQuery s x p) := by
  unfold truncateQuery
  (repeat' split) <;> first | (simp +contextual (maxDischargeDepth := 60) [*]; done) | ((simp +contextual (maxDischargeDepth := 60) [*]; repeat' split) <;> simp +contextual (maxDischargeDepth := 60) [*])

/-! Cells -/

@[simp] theorem placeWrite_wf (s : State) (pl : Place) (bs : Bytes) (hw : storesWf s) : storesWf (placeWrite s pl bs) := by
  unfold placeWrite
  (repeat' split) <;> first | (simp +contextual (maxDischargeDepth := 60) [*]; done) | ((simp +contextual (maxDischargeDepth := 60) [*]; repeat' split) <;> simp +contextual (maxDischargeDepth := 60) [*])

@[simp] theorem afterLast_wf (s : State) (sector : Nat) (hw : storesWf s) : storesWf (afterLast s sector) := by
  unfold afterLast
  (repeat' split) <;> first | (simp +contextual (maxDischargeDepth := 60) [*]; done) | ((simp +contextual (maxDischargeDepth := 60) [*]; repeat' split) <;> simp +contextual (maxDischargeDepth := 60) [*])

@[simp] theorem touchPlace_wf (s : State) (pl : Place) (n : Nat) (hw : storesWf s) : storesWf (touchPlace s pl n) := by
  unfold touchPlace
  (repeat' split) <;> first | (simp +contextual (maxDischargeDepth := 60) [*]; done) | ((simp +contextual (maxDischargeDepth := 60) [*]; repeat' split) <;> simp +contextual (maxDischargeDepth := 60) [*])

@[simp] theorem failCut_wf (s : State) (x : Query) (hw : storesWf s) : storesWf (failCut s x) := by
  unfold failCut
  (repeat' split) <;> first | (simp +contextual (maxDischargeDepth := 60) [*]; done) | ((simp +contextual (maxDischargeDepth := 60) [*]; repeat' split) <;> simp +contextual (maxDischargeDepth := 60) [*])

@[simp] theorem cutWrite_wf (s : State) (x : Query) (as_ : List Nat) (ws : List (Place × Bytes)) (count : PlanCounters → PlanCounters) (hw : storesWf s) : storesWf (cutWrite s x as_ ws count) := by
  unfold cutWrite
  (repeat' split) <;> first | (simp +contextual (maxDischargeDepth := 60) [*]; done) | ((simp +contextual (maxDischargeDepth := 60) [*]; repeat' split) <;> simp +contextual (maxDischargeDepth := 60) [*])

@[simp] theorem writeLanes_wf (s : State) (cell reg : Nat) (ls : List (BitVec 80)) (hw : storesWf s) : storesWf (writeLanes s cell reg ls) := by
  unfold writeLanes
  (repeat' split) <;> first | (simp +contextual (maxDischargeDepth := 60) [*]; done) | ((simp +contextual (maxDischargeDepth := 60) [*]; repeat' split) <;> simp +contextual (maxDischargeDepth := 60) [*])

@[simp] theorem setThread_wf (s : State) (t : Thread) (hw : storesWf s) : storesWf (setThread s t) := by
  unfold setThread
  (repeat' split) <;> first | (simp +contextual (maxDischargeDepth := 60) [*]; done) | ((simp +contextual (maxDischargeDepth := 60) [*]; repeat' split) <;> simp +contextual (maxDischargeDepth := 60) [*])

@[simp] theorem issueScalar_wf (s : State) (thr reg : Nat) (v : Word64) (wait : Option ThreadWait) (hw : storesWf s) : storesWf (issueScalar s thr reg v wait) := by
  unfold issueScalar
  (repeat' split) <;> first | (simp +contextual (maxDischargeDepth := 60) [*]; done) | ((simp +contextual (maxDischargeDepth := 60) [*]; repeat' split) <;> simp +contextual (maxDischargeDepth := 60) [*])

@[simp] theorem wakeThread_wf (s : State) (thr : Nat) (hw : storesWf s) : storesWf (wakeThread s thr) := by
  unfold wakeThread
  (repeat' split) <;> first | (simp +contextual (maxDischargeDepth := 60) [*]; done) | ((simp +contextual (maxDischargeDepth := 60) [*]; repeat' split) <;> simp +contextual (maxDischargeDepth := 60) [*])

/-! Cuts -/

@[simp] theorem holdSlice_wf (s : State) (x : Query) (d : Cut) (hw : storesWf s) : storesWf (holdSlice s x d) := by
  unfold holdSlice
  (repeat' split) <;> first | (simp +contextual (maxDischargeDepth := 60) [*]; done) | ((simp +contextual (maxDischargeDepth := 60) [*]; repeat' split) <;> simp +contextual (maxDischargeDepth := 60) [*])

@[simp] theorem streamPage_wf (hint : Nat) (s : State) (page : Nat) (hw : storesWf s) : storesWf (streamPage hint s page) := by
  unfold streamPage
  (repeat' split) <;> first | (simp +contextual (maxDischargeDepth := 60) [*]; done) | ((simp +contextual (maxDischargeDepth := 60) [*]; repeat' split) <;> simp +contextual (maxDischargeDepth := 60) [*])

@[simp] theorem updWeight_wf (s : State) (h n : Nat) (f : WeightObj → WeightObj) (hw : storesWf s) : storesWf (updWeight s h n f) := by
  unfold updWeight
  (repeat' split) <;> first | (simp +contextual (maxDischargeDepth := 60) [*]; done) | ((simp +contextual (maxDischargeDepth := 60) [*]; repeat' split) <;> simp +contextual (maxDischargeDepth := 60) [*])

@[simp] theorem startStream_wf (s : State) (p : Plan) (n : Nat) (as_ : List Nat) (hw : storesWf s) : storesWf (startStream s p n as_) := by
  unfold startStream
  (repeat' split) <;> first | (simp +contextual (maxDischargeDepth := 60) [*]; done) | ((simp +contextual (maxDischargeDepth := 60) [*]; repeat' split) <;> simp +contextual (maxDischargeDepth := 60) [*])

@[simp] theorem finishStream_wf (s : State) (o : WeightObj) (hw : storesWf s) : storesWf (finishStream s o) := by
  unfold finishStream
  (repeat' split) <;> first | (simp +contextual (maxDischargeDepth := 60) [*]; done) | ((simp +contextual (maxDischargeDepth := 60) [*]; repeat' split) <;> simp +contextual (maxDischargeDepth := 60) [*])

@[simp] theorem markObject_wf (s : State) (o : WeightObj) (hw : storesWf s) : storesWf (markObject s o) := by
  unfold markObject
  (repeat' split) <;> first | (simp +contextual (maxDischargeDepth := 60) [*]; done) | ((simp +contextual (maxDischargeDepth := 60) [*]; repeat' split) <;> simp +contextual (maxDischargeDepth := 60) [*])

@[simp] theorem endWaiting_wf (status : Nat) (s : State) (x : Query) (hw : storesWf s) : storesWf (endWaiting status s x) := by
  unfold endWaiting
  (repeat' split) <;> first | (simp +contextual (maxDischargeDepth := 60) [*]; done) | ((simp +contextual (maxDischargeDepth := 60) [*]; repeat' split) <;> simp +contextual (maxDischargeDepth := 60) [*])

@[simp] theorem loseObject_wf (s : State) (o : WeightObj) (sectors : List Nat) (hw : storesWf s) : storesWf (loseObject s o sectors) := by
  unfold loseObject
  (repeat' split) <;> first | (simp +contextual (maxDischargeDepth := 60) [*]; done) | ((simp +contextual (maxDischargeDepth := 60) [*]; repeat' split) <;> simp +contextual (maxDischargeDepth := 60) [*])

@[simp] theorem poisonObject_wf (s : State) (o : WeightObj) (hw : storesWf s) : storesWf (poisonObject s o) := by
  unfold poisonObject
  (repeat' split) <;> first | (simp +contextual (maxDischargeDepth := 60) [*]; done) | ((simp +contextual (maxDischargeDepth := 60) [*]; repeat' split) <;> simp +contextual (maxDischargeDepth := 60) [*])

@[simp] theorem updPlanCounters_wf (s : State) (h : Nat) (f : PlanCounters → PlanCounters) (hw : storesWf s) : storesWf (updPlanCounters s h f) := by
  unfold updPlanCounters
  (repeat' split) <;> first | (simp +contextual (maxDischargeDepth := 60) [*]; done) | ((simp +contextual (maxDischargeDepth := 60) [*]; repeat' split) <;> simp +contextual (maxDischargeDepth := 60) [*])

@[simp] theorem encodeOp_wf (s : State) (x : Query) (as_ : List Nat) (mode : EncMode) (fmt kind g : Nat) (xs : List Word32) (dst scaleDst : Place) (hw : storesWf s) : storesWf (encodeOp s x as_ mode fmt kind g xs dst scaleDst) := by
  unfold encodeOp
  (repeat' split) <;> first | (simp +contextual (maxDischargeDepth := 60) [*]; done) | ((simp +contextual (maxDischargeDepth := 60) [*]; repeat' split) <;> simp +contextual (maxDischargeDepth := 60) [*])

@[simp] theorem convertOp_wf (s : State) (x : Query) (as_ : List Nat) (fmt : Nat) (dst : Place) (v : Num) (hw : storesWf s) : storesWf (convertOp s x as_ fmt dst v) := by
  unfold convertOp
  (repeat' split) <;> first | (simp +contextual (maxDischargeDepth := 60) [*]; done) | ((simp +contextual (maxDischargeDepth := 60) [*]; repeat' split) <;> simp +contextual (maxDischargeDepth := 60) [*])

@[simp] theorem optimizeOp_wf (s : State) (x : Query) (as_ : List Nat) (o : Optimizer) (step : Nat) (skip : Bool) (params : List Word32) (es : List (Word32 × Word32 × Word32 × Word32)) (mdst vdst wdst : Place) (hw : storesWf s) : storesWf (optimizeOp s x as_ o step skip params es mdst vdst wdst) := by
  unfold optimizeOp
  (repeat' split) <;> first | (simp +contextual (maxDischargeDepth := 60) [*]; done) | ((simp +contextual (maxDischargeDepth := 60) [*]; repeat' split) <;> simp +contextual (maxDischargeDepth := 60) [*])

@[simp] theorem loadOp_wf (s : State) (x : Query) (p : Plan) (as_ : List Nat) (obj r g : Nat) (dst scaleDst : Place) (hw : storesWf s) : storesWf (loadOp s x p as_ obj r g dst scaleDst) := by
  unfold loadOp
  (repeat' split) <;> first | (simp +contextual (maxDischargeDepth := 60) [*]; done) | ((simp +contextual (maxDischargeDepth := 60) [*]; repeat' split) <;> simp +contextual (maxDischargeDepth := 60) [*])

@[simp] theorem sramErrorOp_wf (s : State) (x : Query) (p : Plan) (as_ : List Nat) (pl : Place) (double : Bool) (hw : storesWf s) : storesWf (sramErrorOp s x p as_ pl double) := by
  unfold sramErrorOp
  (repeat' split) <;> first | (simp +contextual (maxDischargeDepth := 60) [*]; done) | ((simp +contextual (maxDischargeDepth := 60) [*]; repeat' split) <;> simp +contextual (maxDischargeDepth := 60) [*])

@[simp] theorem runOp_wf (s : State) (x : Query) (p : Plan) (as_ : List Nat) (op : CutOp) (hw : storesWf s) : storesWf (runOp s x p as_ op) := by
  unfold runOp
  (repeat' split) <;> first | (simp +contextual (maxDischargeDepth := 60) [*]; done) | ((simp +contextual (maxDischargeDepth := 60) [*]; repeat' split) <;> simp +contextual (maxDischargeDepth := 60) [*])

@[simp] theorem cutOp_wf (slot : Nat) (as_ : List Nat) (s : State) (op : CutOp) (hw : storesWf s) : storesWf (cutOp slot as_ s op) := by
  unfold cutOp
  (repeat' split) <;> first | (simp +contextual (maxDischargeDepth := 60) [*]; done) | ((simp +contextual (maxDischargeDepth := 60) [*]; repeat' split) <;> simp +contextual (maxDischargeDepth := 60) [*])

@[simp] theorem finishCuts_wf (s : State) (x : Query) (p : Plan) (hw : storesWf s) : storesWf (finishCuts s x p) := by
  unfold finishCuts
  (repeat' split) <;> first | (simp +contextual (maxDischargeDepth := 60) [*]; done) | ((simp +contextual (maxDischargeDepth := 60) [*]; repeat' split) <;> simp +contextual (maxDischargeDepth := 60) [*])

@[simp] theorem noteStall_wf (s : State) (x : Query) (p : Plan) (hw : storesWf s) : storesWf (noteStall s x p) := by
  unfold noteStall
  (repeat' split) <;> first | (simp +contextual (maxDischargeDepth := 60) [*]; done) | ((simp +contextual (maxDischargeDepth := 60) [*]; repeat' split) <;> simp +contextual (maxDischargeDepth := 60) [*])

@[simp] theorem endCut_wf (s : State) (x : Query) (p : Plan) (d : Cut) (cut : Nat) (work : List CutOp) (hw : storesWf s) :
    storesWf (endCut s x p d cut work) := by
  unfold endCut
  extract_lets s1 s2 s3 s4 s5
  have h1 : storesWf s1 := storesWf_foldl _ _ (fun t a ht => cutOp_wf _ _ _ _ ht) _ hw
  split
  · exact h1
  · have h4 : storesWf s4 := progressCtx_wf _ _ (updQuery_wf _ _ _ (updPlanCounters_wf _ _ _ h1))
    have h5 : storesWf s5 := by
      simp only [s5]
      split
      · exact signalPeg_wf _ _ _ h4
      · exact h4
    split
    · extract_lets
      have h6 : ∀ y q, storesWf (if touchesLost s5 y then endWaiting stWeightsLost s5 y else noteStall s5 y q) := by
        intro y q
        split
        · exact endWaiting_wf _ _ _ h5
        · exact noteStall_wf _ _ _ h5
      (repeat' split) <;> first | exact h5 | exact failQuery_wf _ _ _ h5 | exact h6 _ _ | exact afterEncoder_wf _ _ _ (h6 _ _) |
        exact finishCuts_wf _ _ _ (h6 _ _)
    · exact h5

/-! TierRows -/

@[simp] theorem retryCopies_wf (s : State) (hw : storesWf s) : storesWf (retryCopies s) := by
  unfold retryCopies
  (repeat' split) <;> first | (simp +contextual (maxDischargeDepth := 60) [*]; done) | ((simp +contextual (maxDischargeDepth := 60) [*]; repeat' split) <;> simp +contextual (maxDischargeDepth := 60) [*])

@[simp] theorem retryFaults_wf (s : State) (hw : storesWf s) : storesWf (retryFaults s) := by
  unfold retryFaults
  (repeat' split) <;> first | (simp +contextual (maxDischargeDepth := 60) [*]; done) | ((simp +contextual (maxDischargeDepth := 60) [*]; repeat' split) <;> simp +contextual (maxDischargeDepth := 60) [*])

@[simp] theorem withPlaced_wf (s : State) (ev : Reserved) (w : Nat) (hw : storesWf s) : storesWf (withPlaced s ev w) := by
  unfold withPlaced
  (repeat' split) <;> first | (simp +contextual (maxDischargeDepth := 60) [*]; done) | ((simp +contextual (maxDischargeDepth := 60) [*]; repeat' split) <;> simp +contextual (maxDischargeDepth := 60) [*])

@[simp] theorem undefer_wf (s : State) (ev : Reserved) (hw : storesWf s) : storesWf (undefer s ev) := by
  unfold undefer
  (repeat' split) <;> first | (simp +contextual (maxDischargeDepth := 60) [*]; done) | ((simp +contextual (maxDischargeDepth := 60) [*]; repeat' split) <;> simp +contextual (maxDischargeDepth := 60) [*])

@[simp] theorem setDie_wf (s : State) (v : Die) (hw : storesWf s) : storesWf (setDie s v) := by
  unfold setDie
  (repeat' split) <;> first | (simp +contextual (maxDischargeDepth := 60) [*]; done) | ((simp +contextual (maxDischargeDepth := 60) [*]; repeat' split) <;> simp +contextual (maxDischargeDepth := 60) [*])

@[simp] theorem beginPiece_wf (s : State) (ev : Reserved) (w : Nat) (hw : storesWf s) : storesWf (beginPiece s ev w) := by
  unfold beginPiece
  (repeat' split) <;> first | (simp +contextual (maxDischargeDepth := 60) [*]; done) | ((simp +contextual (maxDischargeDepth := 60) [*]; repeat' split) <;> simp +contextual (maxDischargeDepth := 60) [*])

@[simp] theorem markTaken_wf (s : State) (e : Placed) (hw : storesWf s) : storesWf (markTaken s e) := by
  unfold markTaken
  (repeat' split) <;> first | (simp +contextual (maxDischargeDepth := 60) [*]; done) | ((simp +contextual (maxDischargeDepth := 60) [*]; repeat' split) <;> simp +contextual (maxDischargeDepth := 60) [*])

@[simp] theorem wantDeparture_wf (s : State) (c : Nat) (k : DepKind) (hw : storesWf s) : storesWf (wantDeparture s c k) := by
  unfold wantDeparture
  (repeat' split) <;> first | (simp +contextual (maxDischargeDepth := 60) [*]; done) | ((simp +contextual (maxDischargeDepth := 60) [*]; repeat' split) <;> simp +contextual (maxDischargeDepth := 60) [*])

@[simp] theorem blockRetirement_wf (s : State) (channel : Nat) (hw : storesWf s) : storesWf (blockRetirement s channel) := by
  unfold blockRetirement
  (repeat' split) <;> first | (simp +contextual (maxDischargeDepth := 60) [*]; done) | ((simp +contextual (maxDischargeDepth := 60) [*]; repeat' split) <;> simp +contextual (maxDischargeDepth := 60) [*])

@[simp] theorem poisonBlocks_wf (ks : List Nat) (s : State) (hw : storesWf s) : storesWf (poisonBlocks ks s) := by
  unfold poisonBlocks
  (repeat' split) <;> first | (simp +contextual (maxDischargeDepth := 60) [*]; done) | ((simp +contextual (maxDischargeDepth := 60) [*]; repeat' split) <;> simp +contextual (maxDischargeDepth := 60) [*])

@[simp] theorem giveFrameBack_wf (s : State) (d : Nat) (hw : storesWf s) : storesWf (giveFrameBack s d) := by
  unfold giveFrameBack
  (repeat' split) <;> first | (simp +contextual (maxDischargeDepth := 60) [*]; done) | ((simp +contextual (maxDischargeDepth := 60) [*]; repeat' split) <;> simp +contextual (maxDischargeDepth := 60) [*])

@[simp] theorem giveRowBack_wf (s : State) (ds : List Nat) (hw : storesWf s) : storesWf (giveRowBack s ds) := by
  unfold giveRowBack
  (repeat' split) <;> first | (simp +contextual (maxDischargeDepth := 60) [*]; done) | ((simp +contextual (maxDischargeDepth := 60) [*]; repeat' split) <;> simp +contextual (maxDischargeDepth := 60) [*])

@[simp] theorem freeRetired_wf (s : State) (c : Nat) (hw : storesWf s) : storesWf (freeRetired s c) := by
  unfold freeRetired
  (repeat' split) <;> first | (simp +contextual (maxDischargeDepth := 60) [*]; done) | ((simp +contextual (maxDischargeDepth := 60) [*]; repeat' split) <;> simp +contextual (maxDischargeDepth := 60) [*])

@[simp] theorem spareLocals_wf (s : State) (c : Nat) (hw : storesWf s) : storesWf (spareLocals s c) := by
  unfold spareLocals
  (repeat' split) <;> first | (simp +contextual (maxDischargeDepth := 60) [*]; done) | ((simp +contextual (maxDischargeDepth := 60) [*]; repeat' split) <;> simp +contextual (maxDischargeDepth := 60) [*])

@[simp] theorem unspareLocals_wf (s : State) (c : Nat) (hw : storesWf s) : storesWf (unspareLocals s c) := by
  unfold unspareLocals
  (repeat' split) <;> first | (simp +contextual (maxDischargeDepth := 60) [*]; done) | ((simp +contextual (maxDischargeDepth := 60) [*]; repeat' split) <;> simp +contextual (maxDischargeDepth := 60) [*])

@[simp] theorem freeSpares_wf (s : State) (n : Nat) (hw : storesWf s) : storesWf (freeSpares s n) := by
  unfold freeSpares
  (repeat' split) <;> first | (simp +contextual (maxDischargeDepth := 60) [*]; done) | ((simp +contextual (maxDischargeDepth := 60) [*]; repeat' split) <;> simp +contextual (maxDischargeDepth := 60) [*])

@[simp] theorem announceCopy_wf (s : State) (cs : List (Nat × Nat)) (stripes : Nat) (hw : storesWf s) : storesWf (announceCopy s cs stripes).1 := by
  unfold announceCopy
  (repeat' split) <;> first | (simp +contextual (maxDischargeDepth := 60) [*]; done) | ((simp +contextual (maxDischargeDepth := 60) [*]; repeat' split) <;> simp +contextual (maxDischargeDepth := 60) [*])

@[simp] theorem rebuildSector_wf (s : State) (k : Nat) (hw : storesWf s) : storesWf (rebuildSector s k) := by
  unfold rebuildSector
  (repeat' split) <;> first | (simp +contextual (maxDischargeDepth := 60) [*]; done) | ((simp +contextual (maxDischargeDepth := 60) [*]; repeat' split) <;> simp +contextual (maxDischargeDepth := 60) [*])

/-! Time -/

@[simp] theorem idleTick_wf (s : State) (hw : storesWf s) : storesWf (idleTick s) := by
  unfold idleTick
  (repeat' split) <;> first | (simp +contextual (maxDischargeDepth := 60) [*]; done) | ((simp +contextual (maxDischargeDepth := 60) [*]; repeat' split) <;> simp +contextual (maxDischargeDepth := 60) [*])

/-! Stage -/

@[simp] theorem updStage_wf (s : State) (f : StageState → StageState) (hw : storesWf s) : storesWf (updStage s f) := by
  unfold updStage
  (repeat' split) <;> first | (simp +contextual (maxDischargeDepth := 60) [*]; done) | ((simp +contextual (maxDischargeDepth := 60) [*]; repeat' split) <;> simp +contextual (maxDischargeDepth := 60) [*])

@[simp] theorem keepObject_wf (s : State) (i j : Nat) (hw : storesWf s) : storesWf (keepObject s i j) := by
  unfold keepObject
  (repeat' split) <;> first | (simp +contextual (maxDischargeDepth := 60) [*]; done) | ((simp +contextual (maxDischargeDepth := 60) [*]; repeat' split) <;> simp +contextual (maxDischargeDepth := 60) [*])

@[simp] theorem applyObject_wf (s : State) (i j v : Nat) (hw : storesWf s) : storesWf (applyObject s i j v) := by
  unfold applyObject
  (repeat' split) <;> first | (simp +contextual (maxDischargeDepth := 60) [*]; done) | ((simp +contextual (maxDischargeDepth := 60) [*]; repeat' split) <;> simp +contextual (maxDischargeDepth := 60) [*])

@[simp] theorem touchLock_wf (s : State) (by_ : Master) (hw : storesWf s) : storesWf (touchLock s by_) := by
  unfold touchLock
  (repeat' split) <;> first | (simp +contextual (maxDischargeDepth := 60) [*]; done) | ((simp +contextual (maxDischargeDepth := 60) [*]; repeat' split) <;> simp +contextual (maxDischargeDepth := 60) [*])

@[simp] theorem takeLock_wf (s : State) (by_ : Master) (hw : storesWf s) : storesWf (takeLock s by_).1 := by
  unfold takeLock
  (repeat' split) <;> first | (simp +contextual (maxDischargeDepth := 60) [*]; done) | ((simp +contextual (maxDischargeDepth := 60) [*]; repeat' split) <;> simp +contextual (maxDischargeDepth := 60) [*])

@[simp] theorem releaseLock_wf (s : State) (by_ : Master) (hw : storesWf s) : storesWf (releaseLock s by_).1 := by
  unfold releaseLock
  (repeat' split) <;> first | (simp +contextual (maxDischargeDepth := 60) [*]; done) | ((simp +contextual (maxDischargeDepth := 60) [*]; repeat' split) <;> simp +contextual (maxDischargeDepth := 60) [*])

@[simp] theorem stageObject_wf (s : State) (by_ : Master) (i j : Nat) (value : Bytes) (hw : storesWf s) : storesWf (stageObject s by_ i j value).1 := by
  unfold stageObject
  (repeat' split) <;> first | (simp +contextual (maxDischargeDepth := 60) [*]; done) | ((simp +contextual (maxDischargeDepth := 60) [*]; repeat' split) <;> simp +contextual (maxDischargeDepth := 60) [*])

@[simp] theorem discardFrame_wf (s : State) (by_ : Master) (v : Nat) (hw : storesWf s) : storesWf (discardFrame s by_ v).1 := by
  unfold discardFrame
  (repeat' split) <;> first | (simp +contextual (maxDischargeDepth := 60) [*]; done) | ((simp +contextual (maxDischargeDepth := 60) [*]; repeat' split) <;> simp +contextual (maxDischargeDepth := 60) [*])

@[simp] theorem startFit_wf (s : State) (by_ : Master) (v : Nat) (hw : storesWf s) : storesWf (startFit s by_ v).1 := by
  unfold startFit
  (repeat' split) <;> first | (simp +contextual (maxDischargeDepth := 60) [*]; done) | ((simp +contextual (maxDischargeDepth := 60) [*]; repeat' split) <;> simp +contextual (maxDischargeDepth := 60) [*])

@[simp] theorem writeFit_wf (s : State) (hw : storesWf s) : storesWf (writeFit s) := by
  unfold writeFit
  (repeat' split) <;> first | (simp +contextual (maxDischargeDepth := 60) [*]; done) | ((simp +contextual (maxDischargeDepth := 60) [*]; repeat' split) <;> simp +contextual (maxDischargeDepth := 60) [*])

@[simp] theorem requestRaise_wf (s : State) (by_ : Master) (m : RaiseMode) (v : Nat) (hw : storesWf s) : storesWf (requestRaise s by_ m v).1 := by
  unfold requestRaise
  (repeat' split) <;> first | (simp +contextual (maxDischargeDepth := 60) [*]; done) | ((simp +contextual (maxDischargeDepth := 60) [*]; repeat' split) <;> simp +contextual (maxDischargeDepth := 60) [*])

@[simp] theorem cancelRaise_wf (s : State) (by_ : Master) (hw : storesWf s) : storesWf (cancelRaise s by_).1 := by
  unfold cancelRaise
  (repeat' split) <;> first | (simp +contextual (maxDischargeDepth := 60) [*]; done) | ((simp +contextual (maxDischargeDepth := 60) [*]; repeat' split) <;> simp +contextual (maxDischargeDepth := 60) [*])

@[simp] theorem writeRaiseCmd_wf (s : State) (by_ : Master) (v : Nat) (hw : storesWf s) : storesWf (writeRaiseCmd s by_ v).1 := by
  unfold writeRaiseCmd
  (repeat' split) <;> first | (simp +contextual (maxDischargeDepth := 60) [*]; done) | ((simp +contextual (maxDischargeDepth := 60) [*]; repeat' split) <;> simp +contextual (maxDischargeDepth := 60) [*])

@[simp] theorem applyBay0_wf (s : State) (h : BitVec 1024) (hw : storesWf s) : storesWf (applyBay0 s h) := by
  unfold applyBay0
  (repeat' split) <;> first | (simp +contextual (maxDischargeDepth := 60) [*]; done) | ((simp +contextual (maxDischargeDepth := 60) [*]; repeat' split) <;> simp +contextual (maxDischargeDepth := 60) [*])

@[simp] theorem settleHold_wf (s : State) (hw : storesWf s) : storesWf (settleHold s) := by
  unfold settleHold
  (repeat' split) <;> first | (simp +contextual (maxDischargeDepth := 60) [*]; done) | ((simp +contextual (maxDischargeDepth := 60) [*]; repeat' split) <;> simp +contextual (maxDischargeDepth := 60) [*])

@[simp] theorem logEpisode_wf (s : State) (cause since : Nat) (hw : storesWf s) : storesWf (logEpisode s cause since) := by
  unfold logEpisode
  (repeat' split) <;> first | (simp +contextual (maxDischargeDepth := 60) [*]; done) | ((simp +contextual (maxDischargeDepth := 60) [*]; repeat' split) <;> simp +contextual (maxDischargeDepth := 60) [*])

@[simp] theorem liftCap_wf (s : State) (hw : storesWf s) : storesWf (liftCap s) := by
  unfold liftCap
  (repeat' split) <;> first | (simp +contextual (maxDischargeDepth := 60) [*]; done) | ((simp +contextual (maxDischargeDepth := 60) [*]; repeat' split) <;> simp +contextual (maxDischargeDepth := 60) [*])

@[simp] theorem judgePower_wf (s : State) (hw : storesWf s) : storesWf (judgePower s) := by
  unfold judgePower
  (repeat' split) <;> first | (simp +contextual (maxDischargeDepth := 60) [*]; done) | ((simp +contextual (maxDischargeDepth := 60) [*]; repeat' split) <;> simp +contextual (maxDischargeDepth := 60) [*])

@[simp] theorem raiseObject_wf (s : State) (e : Nat × Nat × Nat × Nat) (hw : storesWf s) : storesWf (raiseObject s e) := by
  unfold raiseObject
  (repeat' split) <;> first | (simp +contextual (maxDischargeDepth := 60) [*]; done) | ((simp +contextual (maxDischargeDepth := 60) [*]; repeat' split) <;> simp +contextual (maxDischargeDepth := 60) [*])

@[simp] theorem raiseNow_wf (s : State) (hw : storesWf s) : storesWf (raiseNow s) := by
  unfold raiseNow
  (repeat' split) <;> first | (simp +contextual (maxDischargeDepth := 60) [*]; done) | ((simp +contextual (maxDischargeDepth := 60) [*]; repeat' split) <;> simp +contextual (maxDischargeDepth := 60) [*])

@[simp] theorem hostLockLost_wf (s : State) (hw : storesWf s) : storesWf (hostLockLost s) := by
  unfold hostLockLost
  (repeat' split) <;> first | (simp +contextual (maxDischargeDepth := 60) [*]; done) | ((simp +contextual (maxDischargeDepth := 60) [*]; repeat' split) <;> simp +contextual (maxDischargeDepth := 60) [*])

@[simp] theorem stageAfterRestart_wf (s : State) (hw : storesWf s) : storesWf (stageAfterRestart s) := by
  unfold stageAfterRestart
  (repeat' split) <;> first | (simp +contextual (maxDischargeDepth := 60) [*]; done) | ((simp +contextual (maxDischargeDepth := 60) [*]; repeat' split) <;> simp +contextual (maxDischargeDepth := 60) [*])

@[simp] theorem writeStart_wf (s : State) (by_ : Master) (hw : storesWf s) : storesWf (writeStart s by_) := by
  unfold writeStart
  (repeat' split) <;> first | (simp +contextual (maxDischargeDepth := 60) [*]; done) | ((simp +contextual (maxDischargeDepth := 60) [*]; repeat' split) <;> simp +contextual (maxDischargeDepth := 60) [*])

@[simp] theorem restoreValue_wf (s : State) (i j v : Nat) (hw : storesWf s) : storesWf (restoreValue s i j v) := by
  unfold restoreValue
  (repeat' split) <;> first | (simp +contextual (maxDischargeDepth := 60) [*]; done) | ((simp +contextual (maxDischargeDepth := 60) [*]; repeat' split) <;> simp +contextual (maxDischargeDepth := 60) [*])

@[simp] theorem noteWrite_wf (by_ : Master) (i j : Nat) (r : State × Nat) (hw : storesWf r.1) : storesWf (noteWrite by_ i j r).1 := by
  unfold noteWrite
  dsimp only
  (repeat' split) <;> simp +contextual (maxDischargeDepth := 60) [*]

@[simp] theorem rowWrite_wf (s : State) (by_ : Master) (i j : Nat) (act : State → State × Nat)
    (hact : ∀ t, storesWf t → storesWf (act t).1) (hw : storesWf s) : storesWf (rowWrite s by_ i j act) := by
  have h1 : storesWf (writeStart s by_) := by simp +contextual (maxDischargeDepth := 60) [*]
  have h2 := noteWrite_wf by_ i j _ (hact _ h1)
  unfold rowWrite
  dsimp only
  (repeat' split) <;> first | exact hw | exact emit_wf _ _ h2 | exact emit_wf _ _ h1

/-! Media -/

@[simp] theorem moveBlock_wf (s : State) (c l b t : Nat) (hw : storesWf s) : storesWf (moveBlock s c l b t) := by
  unfold moveBlock
  (repeat' split) <;> first | (simp +contextual (maxDischargeDepth := 60) [*]; done) | ((simp +contextual (maxDischargeDepth := 60) [*]; repeat' split) <;> simp +contextual (maxDischargeDepth := 60) [*])

@[simp] theorem moveStripe_wf (s : State) (g l u : Nat) (hw : storesWf s) : storesWf (moveStripe s g l u) := by
  unfold moveStripe
  (repeat' split) <;> first | (simp +contextual (maxDischargeDepth := 60) [*]; done) | ((simp +contextual (maxDischargeDepth := 60) [*]; repeat' split) <;> simp +contextual (maxDischargeDepth := 60) [*])

@[simp] theorem moveHome_wf (s : State) (h : PageHome) (hw : storesWf s) : storesWf (moveHome s h) := by
  unfold moveHome
  (repeat' split) <;> first | (simp +contextual (maxDischargeDepth := 60) [*]; done) | ((simp +contextual (maxDischargeDepth := 60) [*]; repeat' split) <;> simp +contextual (maxDischargeDepth := 60) [*])

@[simp] theorem removeBlock_wf (s : State) (c l b : Nat) (hw : storesWf s) : storesWf (removeBlock s c l b) := by
  unfold removeBlock
  (repeat' split) <;> first | (simp +contextual (maxDischargeDepth := 60) [*]; done) | ((simp +contextual (maxDischargeDepth := 60) [*]; repeat' split) <;> simp +contextual (maxDischargeDepth := 60) [*])

@[simp] theorem placeBlock_wf (c d : Nat) (s : State) (e : Nat × Nat) (hw : storesWf s) : storesWf (placeBlock c d s e) := by
  unfold placeBlock
  (repeat' split) <;> first | (simp +contextual (maxDischargeDepth := 60) [*]; done) | ((simp +contextual (maxDischargeDepth := 60) [*]; repeat' split) <;> simp +contextual (maxDischargeDepth := 60) [*])

@[simp] theorem retireDie_wf (s : State) (c d : Nat) (hw : storesWf s) : storesWf (retireDie s c d) := by
  unfold retireDie
  (repeat' split) <;> first | (simp +contextual (maxDischargeDepth := 60) [*]; done) | ((simp +contextual (maxDischargeDepth := 60) [*]; repeat' split) <;> simp +contextual (maxDischargeDepth := 60) [*])

theorem retireSpent_wf (c k : Nat) : ∀ s : State, storesWf s → storesWf (retireSpent c k s) := by
  induction k with
  | zero => intro s hw; exact hw
  | succ k ih =>
    intro s hw
    simp only [retireSpent]
    split
    · exact ih _ (retireDie_wf _ _ _ hw)
    · exact hw

@[simp] theorem retireBlock_wf (s : State) (c d block : Nat) (hw : storesWf s) : storesWf (retireBlock s c d block) := by
  unfold retireBlock
  dsimp only
  split
  · exact hw
  · refine retireSpent_wf _ _ _ ?_
    split
    · exact placeBlock_wf _ _ _ _ (setDie_wf _ _ hw)
    · exact setDie_wf _ _ hw

@[simp] theorem refreshBlock_wf (s : State) (c d block : Nat) (hw : storesWf s) : storesWf (refreshBlock s c d block) := by
  unfold refreshBlock
  (repeat' split) <;> first | (simp +contextual (maxDischargeDepth := 60) [*]; done) | ((simp +contextual (maxDischargeDepth := 60) [*]; repeat' split) <;> simp +contextual (maxDischargeDepth := 60) [*])

@[simp] theorem poisonRow_wf (s : State) (bank row : Nat) (hw : storesWf s) : storesWf (poisonRow s bank row).1 := by
  unfold poisonRow
  (repeat' split) <;> first | (simp +contextual (maxDischargeDepth := 60) [*]; done) | ((simp +contextual (maxDischargeDepth := 60) [*]; repeat' split) <;> simp +contextual (maxDischargeDepth := 60) [*])

@[simp] theorem retireFrames_wf (s : State) (c : Nat) (frames : List Nat) (hw : storesWf s) : storesWf (retireFrames s c frames) := by
  unfold retireFrames
  (repeat' split) <;> first | (simp +contextual (maxDischargeDepth := 60) [*]; done) | ((simp +contextual (maxDischargeDepth := 60) [*]; repeat' split) <;> simp +contextual (maxDischargeDepth := 60) [*])

@[simp] theorem repairRow_wf (bank : Nat) (s : State) (r : Nat × List Nat) (hw : storesWf s) : storesWf (repairRow bank s r) := by
  unfold repairRow
  (repeat' split) <;> first | (simp +contextual (maxDischargeDepth := 60) [*]; done) | ((simp +contextual (maxDischargeDepth := 60) [*]; repeat' split) <;> simp +contextual (maxDischargeDepth := 60) [*])

@[simp] theorem repairChannel_wf (s : State) (c : Nat) (hw : storesWf s) : storesWf (repairChannel s c) := by
  unfold repairChannel
  (repeat' split) <;> first | (simp +contextual (maxDischargeDepth := 60) [*]; done) | ((simp +contextual (maxDischargeDepth := 60) [*]; repeat' split) <;> simp +contextual (maxDischargeDepth := 60) [*])

/-! Ageing -/

@[simp] theorem exhaustArray_wf (s : State) (n : Nat) (hw : storesWf s) : storesWf (exhaustArray s n) := by
  unfold exhaustArray
  (repeat' split) <;> first | (simp +contextual (maxDischargeDepth := 60) [*]; done) | ((simp +contextual (maxDischargeDepth := 60) [*]; repeat' split) <;> simp +contextual (maxDischargeDepth := 60) [*])

@[simp] theorem setReference_wf (s : State) (r : Nat × Nat × Nat × Int) (hw : storesWf s) : storesWf (setReference s r) := by
  unfold setReference
  (repeat' split) <;> first | (simp +contextual (maxDischargeDepth := 60) [*]; done) | ((simp +contextual (maxDischargeDepth := 60) [*]; repeat' split) <;> simp +contextual (maxDischargeDepth := 60) [*])

/-! Link -/

@[simp] theorem refreshReady_wf (s : State) (hw : storesWf s) : storesWf (refreshReady s) := by
  unfold refreshReady
  (repeat' split) <;> first | (simp +contextual (maxDischargeDepth := 60) [*]; done) | ((simp +contextual (maxDischargeDepth := 60) [*]; repeat' split) <;> simp +contextual (maxDischargeDepth := 60) [*])

@[simp] theorem resetFunctions_wf (s : State) (hw : storesWf s) : storesWf (resetFunctions s) := by
  unfold resetFunctions
  (repeat' split) <;> first | (simp +contextual (maxDischargeDepth := 60) [*]; done) | ((simp +contextual (maxDischargeDepth := 60) [*]; repeat' split) <;> simp +contextual (maxDischargeDepth := 60) [*])

@[simp] theorem clearKeys_wf (s : State) (hw : storesWf s) : storesWf (clearKeys s) := by
  unfold clearKeys
  (repeat' split) <;> first | (simp +contextual (maxDischargeDepth := 60) [*]; done) | ((simp +contextual (maxDischargeDepth := 60) [*]; repeat' split) <;> simp +contextual (maxDischargeDepth := 60) [*])

@[simp] theorem linkLost_wf (s : State) (hw : storesWf s) : storesWf (linkLost s) := by
  unfold linkLost
  (repeat' split) <;> first | (simp +contextual (maxDischargeDepth := 60) [*]; done) | ((simp +contextual (maxDischargeDepth := 60) [*]; repeat' split) <;> simp +contextual (maxDischargeDepth := 60) [*])

@[simp] theorem trackLine_wf (s : State) (line : Nat) (hw : storesWf s) : storesWf (trackLine s line) := by
  unfold trackLine
  (repeat' split) <;> first | (simp +contextual (maxDischargeDepth := 60) [*]; done) | ((simp +contextual (maxDischargeDepth := 60) [*]; repeat' split) <;> simp +contextual (maxDischargeDepth := 60) [*])

@[simp] theorem doeAnswer_wf (s : State) (code : Nat) (fields : List Nat) (hw : storesWf s) : storesWf (doeAnswer s code fields) := by
  unfold doeAnswer
  (repeat' split) <;> first | (simp +contextual (maxDischargeDepth := 60) [*]; done) | ((simp +contextual (maxDischargeDepth := 60) [*]; repeat' split) <;> simp +contextual (maxDischargeDepth := 60) [*])

/-! Fatal -/

@[simp] theorem abandonAll_wf (s : State) (hw : storesWf s) : storesWf (abandonAll s) := by
  unfold abandonAll
  (repeat' split) <;> first | (simp +contextual (maxDischargeDepth := 60) [*]; done) | ((simp +contextual (maxDischargeDepth := 60) [*]; repeat' split) <;> simp +contextual (maxDischargeDepth := 60) [*])

@[simp] theorem haltWork_wf (s : State) (hw : storesWf s) : storesWf (haltWork s) := by
  unfold haltWork
  (repeat' split) <;> first | (simp +contextual (maxDischargeDepth := 60) [*]; done) | ((simp +contextual (maxDischargeDepth := 60) [*]; repeat' split) <;> simp +contextual (maxDischargeDepth := 60) [*])

@[simp] theorem hotOff_wf (s : State) (hw : storesWf s) : storesWf (hotOff s) := by
  unfold hotOff
  (repeat' split) <;> first | (simp +contextual (maxDischargeDepth := 60) [*]; done) | ((simp +contextual (maxDischargeDepth := 60) [*]; repeat' split) <;> simp +contextual (maxDischargeDepth := 60) [*])

@[simp] theorem fatalEffect_wf (s : State) (cause unit : Nat) (inCxl : Bool) (hw : storesWf s) : storesWf (fatalEffect s cause unit inCxl) := by
  unfold fatalEffect
  (repeat' split) <;> first | (simp +contextual (maxDischargeDepth := 60) [*]; done) | ((simp +contextual (maxDischargeDepth := 60) [*]; repeat' split) <;> simp +contextual (maxDischargeDepth := 60) [*])

@[simp] theorem endStaging_wf (s : State) (hw : storesWf s) : storesWf (endStaging s) := by
  unfold endStaging
  (repeat' split) <;> first | (simp +contextual (maxDischargeDepth := 60) [*]; done) | ((simp +contextual (maxDischargeDepth := 60) [*]; repeat' split) <;> simp +contextual (maxDischargeDepth := 60) [*])

@[simp] theorem mgmtLost_wf (s : State) (hw : storesWf s) : storesWf (mgmtLost s) := by
  unfold mgmtLost
  (repeat' split) <;> first | (simp +contextual (maxDischargeDepth := 60) [*]; done) | ((simp +contextual (maxDischargeDepth := 60) [*]; repeat' split) <;> simp +contextual (maxDischargeDepth := 60) [*])

@[simp] theorem startTest_wf (s : State) (c : Cmd) (extended : Bool) (hw : storesWf s) : storesWf (startTest s c extended) := by
  unfold startTest
  (repeat' split) <;> first | (simp +contextual (maxDischargeDepth := 60) [*]; done) | ((simp +contextual (maxDischargeDepth := 60) [*]; repeat' split) <;> simp +contextual (maxDischargeDepth := 60) [*])

/-! Boot -/

@[simp] theorem stagedAs_wf (s : State) (i : Option FwImage) (hw : storesWf s) : storesWf (stagedAs s i) := by
  unfold stagedAs
  (repeat' split) <;> first | (simp +contextual (maxDischargeDepth := 60) [*]; done) | ((simp +contextual (maxDischargeDepth := 60) [*]; repeat' split) <;> simp +contextual (maxDischargeDepth := 60) [*])

@[simp] theorem finishStage_wf (s : State) (hw : storesWf s) : storesWf (finishStage s) := by
  unfold finishStage
  (repeat' split) <;> first | (simp +contextual (maxDischargeDepth := 60) [*]; done) | ((simp +contextual (maxDischargeDepth := 60) [*]; repeat' split) <;> simp +contextual (maxDischargeDepth := 60) [*])

@[simp] theorem logIgnored_wf (s : State) (r : CfgRecord) (hw : storesWf s) : storesWf (logIgnored s r) := by
  unfold logIgnored
  (repeat' split) <;> first | (simp +contextual (maxDischargeDepth := 60) [*]; done) | ((simp +contextual (maxDischargeDepth := 60) [*]; repeat' split) <;> simp +contextual (maxDischargeDepth := 60) [*])

@[simp] theorem serveMgmt_wf (s : State) (hw : storesWf s) : storesWf (serveMgmt s) := by
  unfold serveMgmt
  (repeat' split) <;> first | (simp +contextual (maxDischargeDepth := 60) [*]; done) | ((simp +contextual (maxDischargeDepth := 60) [*]; repeat' split) <;> simp +contextual (maxDischargeDepth := 60) [*])

@[simp] theorem bootFlash_wf (s : State) (hw : storesWf s) : storesWf (bootFlash s) := by
  unfold bootFlash
  (repeat' split) <;> first | (simp +contextual (maxDischargeDepth := 60) [*]; done) | ((simp +contextual (maxDischargeDepth := 60) [*]; repeat' split) <;> simp +contextual (maxDischargeDepth := 60) [*])

/-! Power -/

@[simp] theorem beginEntry_wf (s : State) (n depth : Nat) (hw : storesWf s) : storesWf (beginEntry s n depth) := by
  unfold beginEntry
  (repeat' split) <;> first | (simp +contextual (maxDischargeDepth := 60) [*]; done) | ((simp +contextual (maxDischargeDepth := 60) [*]; repeat' split) <;> simp +contextual (maxDischargeDepth := 60) [*])

@[simp] theorem enterDue_wf (s : State) (n : Nat) (hw : storesWf s) : storesWf (enterDue s n) := by
  unfold enterDue
  (repeat' split) <;> first | (simp +contextual (maxDischargeDepth := 60) [*]; done) | ((simp +contextual (maxDischargeDepth := 60) [*]; repeat' split) <;> simp +contextual (maxDischargeDepth := 60) [*])

@[simp] theorem timerExpires_wf (s : State) (n us depth : Nat) (hw : storesWf s) : storesWf (timerExpires s n us depth) := by
  unfold timerExpires
  (repeat' split) <;> first | (simp +contextual (maxDischargeDepth := 60) [*]; done) | ((simp +contextual (maxDischargeDepth := 60) [*]; repeat' split) <;> simp +contextual (maxDischargeDepth := 60) [*])

@[simp] theorem tickDomain_wf (s : State) (n : Nat) (hw : storesWf s) : storesWf (tickDomain s n) := by
  unfold tickDomain
  (repeat' split) <;> first | (simp +contextual (maxDischargeDepth := 60) [*]; done) | ((simp +contextual (maxDischargeDepth := 60) [*]; repeat' split) <;> simp +contextual (maxDischargeDepth := 60) [*])

@[simp] theorem tickDomains_wf (s : State) (hw : storesWf s) : storesWf (tickDomains s) := by
  unfold tickDomains
  (repeat' split) <;> first | (simp +contextual (maxDischargeDepth := 60) [*]; done) | ((simp +contextual (maxDischargeDepth := 60) [*]; repeat' split) <;> simp +contextual (maxDischargeDepth := 60) [*])

@[simp] theorem loseOff_wf (s : State) (n : Nat) (hw : storesWf s) : storesWf (loseOff s n) := by
  unfold loseOff
  (repeat' split) <;> first | (simp +contextual (maxDischargeDepth := 60) [*]; done) | ((simp +contextual (maxDischargeDepth := 60) [*]; repeat' split) <;> simp +contextual (maxDischargeDepth := 60) [*])

@[simp] theorem startController_wf (s : State) (p : Nat) (hw : storesWf s) : storesWf (startController s p) := by
  unfold startController
  (repeat' split) <;> first | (simp +contextual (maxDischargeDepth := 60) [*]; done) | ((simp +contextual (maxDischargeDepth := 60) [*]; repeat' split) <;> simp +contextual (maxDischargeDepth := 60) [*])

@[simp] theorem takeWake_wf (s : State) (n : Nat) (hw : storesWf s) : storesWf (takeWake s n) := by
  unfold takeWake
  (repeat' split) <;> first | (simp +contextual (maxDischargeDepth := 60) [*]; done) | ((simp +contextual (maxDischargeDepth := 60) [*]; repeat' split) <;> simp +contextual (maxDischargeDepth := 60) [*])

/-! Reset -/

@[simp] theorem dictDefaults_wf (s : State) (hw : storesWf s) : storesWf (dictDefaults s) := by
  unfold dictDefaults
  (repeat' split) <;> first | (simp +contextual (maxDischargeDepth := 60) [*]; done) | ((simp +contextual (maxDischargeDepth := 60) [*]; repeat' split) <;> simp +contextual (maxDischargeDepth := 60) [*])

@[simp] theorem restartFromFlash_wf (s : State) (hw : storesWf s) : storesWf (restartFromFlash s) := by
  unfold restartFromFlash
  (repeat' split) <;> first | (simp +contextual (maxDischargeDepth := 60) [*]; done) | ((simp +contextual (maxDischargeDepth := 60) [*]; repeat' split) <;> simp +contextual (maxDischargeDepth := 60) [*])

@[simp] theorem clearRime_wf (s : State) (hw : storesWf s) : storesWf (clearRime s) := by
  unfold clearRime
  (repeat' split) <;> first | (simp +contextual (maxDischargeDepth := 60) [*]; done) | ((simp +contextual (maxDischargeDepth := 60) [*]; repeat' split) <;> simp +contextual (maxDischargeDepth := 60) [*])

@[simp] theorem unbindBay_wf (s : State) (b : Nat) (hw : storesWf s) : storesWf (unbindBay s b) := by
  unfold unbindBay
  (repeat' split) <;> first | (simp +contextual (maxDischargeDepth := 60) [*]; done) | ((simp +contextual (maxDischargeDepth := 60) [*]; repeat' split) <;> simp +contextual (maxDischargeDepth := 60) [*])

@[simp] theorem resetStart_wf (s : State) (hw : storesWf s) : storesWf (resetStart s) := by
  unfold resetStart
  (repeat' split) <;> first | (simp +contextual (maxDischargeDepth := 60) [*]; done) | ((simp +contextual (maxDischargeDepth := 60) [*]; repeat' split) <;> simp +contextual (maxDischargeDepth := 60) [*])

@[simp] theorem moduleReset_wf (s : State) (hw : storesWf s) : storesWf (moduleReset s) := by
  unfold moduleReset
  (repeat' split) <;> first | (simp +contextual (maxDischargeDepth := 60) [*]; done) | ((simp +contextual (maxDischargeDepth := 60) [*]; repeat' split) <;> simp +contextual (maxDischargeDepth := 60) [*])

@[simp] theorem rebuildMarked_wf (s : State) (c d : Nat) (hw : storesWf s) : storesWf (rebuildMarked s c d) := by
  unfold rebuildMarked
  dsimp only
  refine retireSpent_wf _ _ _ ?_
  split
  · exact hw
  · exact storesWf_foldl _ _ (fun t a ht => placeBlock_wf _ _ _ _ ht) _ hw

@[simp] theorem startRepairs_wf (s : State) (hw : storesWf s) : storesWf (startRepairs s) := by
  unfold startRepairs
  (repeat' split) <;> first | (simp +contextual (maxDischargeDepth := 60) [*]; done) | ((simp +contextual (maxDischargeDepth := 60) [*]; repeat' split) <;> simp +contextual (maxDischargeDepth := 60) [*])

@[simp] theorem loseDram_wf (s : State) (hw : storesWf s) : storesWf (loseDram s) := by
  unfold loseDram
  (repeat' split) <;> first | (simp +contextual (maxDischargeDepth := 60) [*]; done) | ((simp +contextual (maxDischargeDepth := 60) [*]; repeat' split) <;> simp +contextual (maxDischargeDepth := 60) [*])

@[simp] theorem railsOff_wf (s : State) (hw : storesWf s) : storesWf (railsOff s) := by
  unfold railsOff
  (repeat' split) <;> first | (simp +contextual (maxDischargeDepth := 60) [*]; done) | ((simp +contextual (maxDischargeDepth := 60) [*]; repeat' split) <;> simp +contextual (maxDischargeDepth := 60) [*])

@[simp] theorem railsOn_wf (s : State) (hw : storesWf s) : storesWf (railsOn s) := by
  unfold railsOn
  (repeat' split) <;> first | (simp +contextual (maxDischargeDepth := 60) [*]; done) | ((simp +contextual (maxDischargeDepth := 60) [*]; repeat' split) <;> simp +contextual (maxDischargeDepth := 60) [*])

@[simp] theorem tryPower_wf (s : State) (hw : storesWf s) : storesWf (tryPower s) := by
  unfold tryPower
  (repeat' split) <;> first | (simp +contextual (maxDischargeDepth := 60) [*]; done) | ((simp +contextual (maxDischargeDepth := 60) [*]; repeat' split) <;> simp +contextual (maxDischargeDepth := 60) [*])

@[simp] theorem finishPowerDown_wf (s : State) (hw : storesWf s) : storesWf (finishPowerDown s) := by
  unfold finishPowerDown
  (repeat' split) <;> first | (simp +contextual (maxDischargeDepth := 60) [*]; done) | ((simp +contextual (maxDischargeDepth := 60) [*]; repeat' split) <;> simp +contextual (maxDischargeDepth := 60) [*])

@[simp] theorem idle_wf (s : State) (hw : storesWf s) : storesWf (idle s) := by
  unfold idle
  (repeat' split) <;> first | (simp +contextual (maxDischargeDepth := 60) [*]; done) | ((simp +contextual (maxDischargeDepth := 60) [*]; repeat' split) <;> simp +contextual (maxDischargeDepth := 60) [*])

/-! Security -/

@[simp] theorem requestEvidence_wf (s : State) (by_ : Master) (value : Bytes) (spdm : Bool) (hw : storesWf s) : storesWf (requestEvidence s by_ value spdm).1 := by
  unfold requestEvidence
  (repeat' split) <;> first | (simp +contextual (maxDischargeDepth := 60) [*]; done) | ((simp +contextual (maxDischargeDepth := 60) [*]; repeat' split) <;> simp +contextual (maxDischargeDepth := 60) [*])

@[simp] theorem spdmServe_wf (s : State) (k : State → State) (hk : ∀ t, storesWf t → storesWf (k t)) (hw : storesWf s) : storesWf (spdmServe s k) := by
  unfold spdmServe
  (repeat' split) <;> first | (simp +contextual (maxDischargeDepth := 60) [*]; done) | ((simp +contextual (maxDischargeDepth := 60) [*]; repeat' split) <;> simp +contextual (maxDischargeDepth := 60) [*])

@[simp] theorem setIdeDir_wf (s : State) (d : StreamDir) (v : IdeDir) (hw : storesWf s) : storesWf (setIdeDir s d v) := by
  unfold setIdeDir
  (repeat' split) <;> first | (simp +contextual (maxDischargeDepth := 60) [*]; done) | ((simp +contextual (maxDischargeDepth := 60) [*]; repeat' split) <;> simp +contextual (maxDischargeDepth := 60) [*])

@[simp] theorem withinSession_wf (s : State) (session set : Nat) (k : State → State) (hk : ∀ t, storesWf t → storesWf (k t)) (hw : storesWf s) : storesWf (withinSession s session set k) := by
  unfold withinSession
  (repeat' split) <;> first | (simp +contextual (maxDischargeDepth := 60) [*]; done) | ((simp +contextual (maxDischargeDepth := 60) [*]; repeat' split) <;> simp +contextual (maxDischargeDepth := 60) [*])

/-! Firmware -/

@[simp] theorem writeCopies_wf (s : State) (f : FwImage) (m0 m1 : Media) (hw : storesWf s) : storesWf (writeCopies s f m0 m1).1 := by
  unfold writeCopies
  (repeat' split) <;> first | (simp +contextual (maxDischargeDepth := 60) [*]; done) | ((simp +contextual (maxDischargeDepth := 60) [*]; repeat' split) <;> simp +contextual (maxDischargeDepth := 60) [*])

@[simp] theorem bootStaged_wf (s : State) (f : FwImage) (m0 m1 : Media) (hw : storesWf s) : storesWf (bootStaged s f m0 m1).1 := by
  unfold bootStaged
  (repeat' split) <;> first | (simp +contextual (maxDischargeDepth := 60) [*]; done) | ((simp +contextual (maxDischargeDepth := 60) [*]; repeat' split) <;> simp +contextual (maxDischargeDepth := 60) [*])

@[simp] theorem installRecord_wf (s : State) (bs : Bytes) (hw : storesWf s) : storesWf (installRecord s bs).1 := by
  unfold installRecord
  (repeat' split) <;> first | (simp +contextual (maxDischargeDepth := 60) [*]; done) | ((simp +contextual (maxDischargeDepth := 60) [*]; repeat' split) <;> simp +contextual (maxDischargeDepth := 60) [*])

@[simp] theorem mbAnswer_wf (s : State) (opcode ret : Nat) (data : Bytes) (hw : storesWf s) : storesWf (mbAnswer s opcode ret data) := by
  unfold mbAnswer
  (repeat' split) <;> first | (simp +contextual (maxDischargeDepth := 60) [*]; done) | ((simp +contextual (maxDischargeDepth := 60) [*]; repeat' split) <;> simp +contextual (maxDischargeDepth := 60) [*])

@[simp] theorem mbEnd_wf (s : State) (opcode status : Nat) (hw : storesWf s) : storesWf (mbEnd s opcode status) := by
  unfold mbEnd
  (repeat' split) <;> first | (simp +contextual (maxDischargeDepth := 60) [*]; done) | ((simp +contextual (maxDischargeDepth := 60) [*]; repeat' split) <;> simp +contextual (maxDischargeDepth := 60) [*])

@[simp] theorem mbServe_wf (s : State) (opcode : Nat) (k : State → State) (hk : ∀ t, storesWf t → storesWf (k t)) (hw : storesWf s) : storesWf (mbServe s opcode k) := by
  unfold mbServe
  (repeat' split) <;> first | (simp +contextual (maxDischargeDepth := 60) [*]; done) | ((simp +contextual (maxDischargeDepth := 60) [*]; repeat' split) <;> simp +contextual (maxDischargeDepth := 60) [*])

@[simp] theorem endTransfer_wf (s : State) (bs : Bytes) (hw : storesWf s) : storesWf (endTransfer s bs) := by
  unfold endTransfer
  (repeat' split) <;> first | (simp +contextual (maxDischargeDepth := 60) [*]; done) | ((simp +contextual (maxDischargeDepth := 60) [*]; repeat' split) <;> simp +contextual (maxDischargeDepth := 60) [*])

@[simp] theorem fwRxSetLen_wf (s : State) (v : Nat) (hw : storesWf s) : storesWf (fwRxSetLen s v).1 := by
  unfold fwRxSetLen
  (repeat' split) <;> first | (simp +contextual (maxDischargeDepth := 60) [*]; done) | ((simp +contextual (maxDischargeDepth := 60) [*]; repeat' split) <;> simp +contextual (maxDischargeDepth := 60) [*])

@[simp] theorem fwRxPut_wf (s : State) (data : Bytes) (hw : storesWf s) : storesWf (fwRxPut s data).1 := by
  unfold fwRxPut
  (repeat' split) <;> first | (simp +contextual (maxDischargeDepth := 60) [*]; done) | ((simp +contextual (maxDischargeDepth := 60) [*]; repeat' split) <;> simp +contextual (maxDischargeDepth := 60) [*])

@[simp] theorem fwRxCommand_wf (s : State) (v : Nat) (m0 m1 : Media) (hw : storesWf s) : storesWf (fwRxCommand s v m0 m1).1 := by
  unfold fwRxCommand
  (repeat' split) <;> first | (simp +contextual (maxDischargeDepth := 60) [*]; done) | ((simp +contextual (maxDischargeDepth := 60) [*]; repeat' split) <;> simp +contextual (maxDischargeDepth := 60) [*])

@[simp] theorem cfgRxSetLen_wf (s : State) (v : Nat) (hw : storesWf s) : storesWf (cfgRxSetLen s v).1 := by
  unfold cfgRxSetLen
  (repeat' split) <;> first | (simp +contextual (maxDischargeDepth := 60) [*]; done) | ((simp +contextual (maxDischargeDepth := 60) [*]; repeat' split) <;> simp +contextual (maxDischargeDepth := 60) [*])

@[simp] theorem cfgRxPut_wf (s : State) (data : Bytes) (hw : storesWf s) : storesWf (cfgRxPut s data).1 := by
  unfold cfgRxPut
  (repeat' split) <;> first | (simp +contextual (maxDischargeDepth := 60) [*]; done) | ((simp +contextual (maxDischargeDepth := 60) [*]; repeat' split) <;> simp +contextual (maxDischargeDepth := 60) [*])

@[simp] theorem cfgRxCommand_wf (s : State) (v : Nat) (hw : storesWf s) : storesWf (cfgRxCommand s v).1 := by
  unfold cfgRxCommand
  (repeat' split) <;> first | (simp +contextual (maxDischargeDepth := 60) [*]; done) | ((simp +contextual (maxDischargeDepth := 60) [*]; repeat' split) <;> simp +contextual (maxDischargeDepth := 60) [*])

/-! Dict -/

@[simp] theorem writeLog_wf (s : State) (by_ : Master) (j v : Nat) (hw : storesWf s) : storesWf (writeLog s by_ j v) := by
  unfold writeLog
  (repeat' split) <;> first | (simp +contextual (maxDischargeDepth := 60) [*]; done) | ((simp +contextual (maxDischargeDepth := 60) [*]; repeat' split) <;> simp +contextual (maxDischargeDepth := 60) [*])

@[simp] theorem clearDump_wf (s : State) (v : Nat) (hw : storesWf s) : storesWf (clearDump s v) := by
  unfold clearDump
  (repeat' split) <;> first | (simp +contextual (maxDischargeDepth := 60) [*]; done) | ((simp +contextual (maxDischargeDepth := 60) [*]; repeat' split) <;> simp +contextual (maxDischargeDepth := 60) [*])

@[simp] theorem writeSecLock_wf (s : State) (v : Nat) (hw : storesWf s) : storesWf (writeSecLock s v) := by
  unfold writeSecLock
  (repeat' split) <;> first | (simp +contextual (maxDischargeDepth := 60) [*]; done) | ((simp +contextual (maxDischargeDepth := 60) [*]; repeat' split) <;> simp +contextual (maxDischargeDepth := 60) [*])

@[simp] theorem applyWrite_wf (s : State) (by_ : Master) (i j : Nat) (value : Bytes) (hw : storesWf s) : storesWf (applyWrite s by_ i j value).1 := by
  have h1 := requestEvidence_wf s by_ value false hw
  unfold applyWrite applyWrite.touchLockFor
  dsimp only
  simp only [storesWf_ite_fst]
  simp +contextual (maxDischargeDepth := 60) [*]

@[simp] theorem writeObject_wf (s : State) (by_ : Master) (i j : Nat) (value : Bytes) (hw : storesWf s) : storesWf (writeObject s by_ i j value).1 := by
  unfold writeObject
  (repeat' split) <;> first | (simp +contextual (maxDischargeDepth := 60) [*]; done) | ((simp +contextual (maxDischargeDepth := 60) [*]; repeat' split) <;> simp +contextual (maxDischargeDepth := 60) [*])

@[simp] theorem rxWrite_wf (s : State) (i : Nat) (act : State → State × Nat)
    (hact : ∀ t, storesWf t → storesWf (act t).1) (hw : storesWf s) : storesWf (rxWrite s i act) := by
  have h1 : storesWf (writeStart s .sideband) := by simp +contextual (maxDischargeDepth := 60) [*]
  unfold rxWrite
  dsimp only
  (repeat' split) <;> first | exact hw | exact emit_wf _ _ h1 | exact emit_wf _ _ (hact _ h1)

/-! Sideband -/

@[simp] theorem countAuth_wf (s : State) (hw : storesWf s) : storesWf (countAuth s) := by
  unfold countAuth
  (repeat' split) <;> first | (simp +contextual (maxDischargeDepth := 60) [*]; done) | ((simp +contextual (maxDischargeDepth := 60) [*]; repeat' split) <;> simp +contextual (maxDischargeDepth := 60) [*])

@[simp] theorem countSeq_wf (s : State) (hw : storesWf s) : storesWf (countSeq s) := by
  unfold countSeq
  (repeat' split) <;> first | (simp +contextual (maxDischargeDepth := 60) [*]; done) | ((simp +contextual (maxDischargeDepth := 60) [*]; repeat' split) <;> simp +contextual (maxDischargeDepth := 60) [*])

@[simp] theorem putPeer_wf (s : State) (p : Peer) (hw : storesWf s) : storesWf (putPeer s p) := by
  unfold putPeer
  (repeat' split) <;> first | (simp +contextual (maxDischargeDepth := 60) [*]; done) | ((simp +contextual (maxDischargeDepth := 60) [*]; repeat' split) <;> simp +contextual (maxDischargeDepth := 60) [*])

@[simp] theorem hearPeer_wf (s : State) (a : Nat) (hw : storesWf s) : storesWf (hearPeer s a) := by
  unfold hearPeer
  (repeat' split) <;> first | (simp +contextual (maxDischargeDepth := 60) [*]; done) | ((simp +contextual (maxDischargeDepth := 60) [*]; repeat' split) <;> simp +contextual (maxDischargeDepth := 60) [*])

@[simp] theorem respond_wf (s : State) (f : Frame) (status : Nat) (change : Word32) (value : Bytes) (hw : storesWf s) : storesWf (respond s f status change value) := by
  unfold respond
  (repeat' split) <;> first | (simp +contextual (maxDischargeDepth := 60) [*]; done) | ((simp +contextual (maxDischargeDepth := 60) [*]; repeat' split) <;> simp +contextual (maxDischargeDepth := 60) [*])

@[simp] theorem respondKept_wf (s : State) (f : Frame) (status : Nat) (change : Word32) (value : Bytes) (hw : storesWf s) : storesWf (respondKept s f status change value) := by
  unfold respondKept
  (repeat' split) <;> first | (simp +contextual (maxDischargeDepth := 60) [*]; done) | ((simp +contextual (maxDischargeDepth := 60) [*]; repeat' split) <;> simp +contextual (maxDischargeDepth := 60) [*])

@[simp] theorem respondAgain_wf (s : State) (f : Frame) (h : BitVec 256) (value : Bytes) (hw : storesWf s) : storesWf (respondAgain s f h value) := by
  unfold respondAgain
  (repeat' split) <;> first | (simp +contextual (maxDischargeDepth := 60) [*]; done) | ((simp +contextual (maxDischargeDepth := 60) [*]; repeat' split) <;> simp +contextual (maxDischargeDepth := 60) [*])

@[simp] theorem runRequest_wf (s : State) (f : Frame) (hw : storesWf s) : storesWf (runRequest s f).1 := by
  unfold runRequest
  dsimp only
  (repeat' split) <;> first | exact hw | exact noteWrite_wf _ _ _ _ (writeObject_wf _ _ _ _ _ (writeStart_wf _ _ hw))

@[simp] theorem wakeMgmt_wf (s : State) (hw : storesWf s) : storesWf (wakeMgmt s) := by
  unfold wakeMgmt
  (repeat' split) <;> first | (simp +contextual (maxDischargeDepth := 60) [*]; done) | ((simp +contextual (maxDischargeDepth := 60) [*]; repeat' split) <;> simp +contextual (maxDischargeDepth := 60) [*])

@[simp] theorem handFrame_wf (s : State) (hw : storesWf s) : storesWf (handFrame s) := by
  unfold handFrame
  (repeat' split) <;> first | (simp +contextual (maxDischargeDepth := 60) [*]; done) | ((simp +contextual (maxDischargeDepth := 60) [*]; repeat' split) <;> simp +contextual (maxDischargeDepth := 60) [*])

@[simp] theorem runOpen_wf (s : State) (f : Frame) (hw : storesWf s) : storesWf (runOpen s f) := by
  unfold runOpen
  (repeat' split) <;> first | (simp +contextual (maxDischargeDepth := 60) [*]; done) | ((simp +contextual (maxDischargeDepth := 60) [*]; repeat' split) <;> simp +contextual (maxDischargeDepth := 60) [*])

@[simp] theorem runKept_wf (s : State) (f : Frame) (hw : storesWf s) : storesWf (runKept s f) := by
  unfold runKept
  (repeat' split) <;> first | (simp +contextual (maxDischargeDepth := 60) [*]; done) | ((simp +contextual (maxDischargeDepth := 60) [*]; repeat' split) <;> simp +contextual (maxDischargeDepth := 60) [*])

@[simp] theorem receiveOpen_wf (s : State) (f : Frame) (hw : storesWf s) : storesWf (receiveOpen s f) := by
  unfold receiveOpen
  (repeat' split) <;> first | (simp +contextual (maxDischargeDepth := 60) [*]; done) | ((simp +contextual (maxDischargeDepth := 60) [*]; repeat' split) <;> simp +contextual (maxDischargeDepth := 60) [*])

@[simp] theorem receiveSequenced_wf (s : State) (f : Frame) (hw : storesWf s) : storesWf (receiveSequenced s f) := by
  unfold receiveSequenced
  (repeat' split) <;> first | (simp +contextual (maxDischargeDepth := 60) [*]; done) | ((simp +contextual (maxDischargeDepth := 60) [*]; repeat' split) <;> simp +contextual (maxDischargeDepth := 60) [*])

@[simp] theorem takeAck_wf (s : State) (f : Frame) (hw : storesWf s) : storesWf (takeAck s f) := by
  unfold takeAck
  (repeat' split) <;> first | (simp +contextual (maxDischargeDepth := 60) [*]; done) | ((simp +contextual (maxDischargeDepth := 60) [*]; repeat' split) <;> simp +contextual (maxDischargeDepth := 60) [*])

@[simp] theorem checkFrame_wf (s : State) (f : Frame) (hw : storesWf s) : storesWf (checkFrame s f) := by
  unfold checkFrame
  (repeat' split) <;> first | (simp +contextual (maxDischargeDepth := 60) [*]; done) | ((simp +contextual (maxDischargeDepth := 60) [*]; repeat' split) <;> simp +contextual (maxDischargeDepth := 60) [*])

@[simp] theorem receive_wf (s : State) (f : Frame) (hw : storesWf s) : storesWf (receive s f) := by
  unfold receive
  (repeat' split) <;> first | (simp +contextual (maxDischargeDepth := 60) [*]; done) | ((simp +contextual (maxDischargeDepth := 60) [*]; repeat' split) <;> simp +contextual (maxDischargeDepth := 60) [*])

/-! Copy -/

@[simp] theorem copyRead_wf (s : State) (hint addr n : Nat) (hw : storesWf s) : storesWf (copyRead s hint addr n).1 := by
  unfold copyRead
  dsimp only
  refine storesWf_foldl _ _ (fun t a ht => ?_) _ (storesWf_foldl _ _ (fun t a ht => ?_) _ hw)
  · split <;> simp +contextual (maxDischargeDepth := 60) [*]
  · split <;> simp +contextual (maxDischargeDepth := 60) [*]

/-! PegRows -/

@[simp] theorem pegHost_wf (op q cid : Nat) (s : State) (hw : storesWf s) : storesWf (pegHost op q cid s) := by
  unfold pegHost
  refine withIo_wf _ _ _ _ _ (fun t c ht => ?_) hw
  have h := pegOp_wf op t (ctxOfQueue t q) (field c.sqe 64 17) (BitVec.ofNat 64 (field c.sqe 128 64)) ht
  dsimp only
  (repeat' split) <;> simp +contextual (maxDischargeDepth := 60) [*]

@[simp] theorem threadAnswer_wf (s : State) (ctx thr p : Nat) (ok broken : Bool) (hw : storesWf s) : storesWf (threadAnswer s ctx thr p ok broken) := by
  unfold threadAnswer
  (repeat' split) <;> first | (simp +contextual (maxDischargeDepth := 60) [*]; done) | ((simp +contextual (maxDischargeDepth := 60) [*]; repeat' split) <;> simp +contextual (maxDischargeDepth := 60) [*])

@[simp] theorem pegThread_wf (op ctx thr p : Nat) (v : Word64) (s : State) (hw : storesWf s) : storesWf (pegThread op ctx thr p v s) := by
  have h := pegOp_wf op (pegTurn s p (thr / 16384)) ctx p v (by simp +contextual (maxDischargeDepth := 60) [*])
  unfold pegThread
  dsimp only
  (repeat' split) <;> simp +contextual (maxDischargeDepth := 60) [*]

@[simp] theorem pegBy_wf (op : Nat) (i : PegIssuer) (s : State) (hw : storesWf s) : storesWf (pegBy op i s) := by
  unfold pegBy
  split <;> simp +contextual (maxDischargeDepth := 60) [*]

/-! QueueCmds -/

@[simp] theorem doorbellWake_wf (s : State) (hw : storesWf s) : storesWf (doorbellWake s) := by
  unfold doorbellWake
  (repeat' split) <;> first | (simp +contextual (maxDischargeDepth := 60) [*]; done) | ((simp +contextual (maxDischargeDepth := 60) [*]; repeat' split) <;> simp +contextual (maxDischargeDepth := 60) [*])

@[simp] theorem doorbell_wf (s : State) (fn q : Nat) (v depth : Nat) (act : State → State) (hact : ∀ t, storesWf t → storesWf (act t)) (hw : storesWf s) : storesWf (doorbell s fn q v depth act) := by
  unfold doorbell
  (repeat' split) <;> first | (simp +contextual (maxDischargeDepth := 60) [*]; done) | ((simp +contextual (maxDischargeDepth := 60) [*]; repeat' split) <;> simp +contextual (maxDischargeDepth := 60) [*])

@[simp] theorem adminDoorbell_wf (s : State) (v depth : Nat) (act : Queue → Queue) (hw : storesWf s) : storesWf (adminDoorbell s v depth act) := by
  unfold adminDoorbell
  (repeat' split) <;> first | (simp +contextual (maxDischargeDepth := 60) [*]; done) | ((simp +contextual (maxDischargeDepth := 60) [*]; repeat' split) <;> simp +contextual (maxDischargeDepth := 60) [*])

@[simp] theorem failEntry_wf (s : State) (q : Nat) (u : Queue) (hw : storesWf s) : storesWf (failEntry s q u) := by
  unfold failEntry
  (repeat' split) <;> first | (simp +contextual (maxDischargeDepth := 60) [*]; done) | ((simp +contextual (maxDischargeDepth := 60) [*]; repeat' split) <;> simp +contextual (maxDischargeDepth := 60) [*])

@[simp] theorem addPair_wf (s : State) (p : QPair) (hw : storesWf s) : storesWf (addPair s p) := by
  unfold addPair
  (repeat' split) <;> first | (simp +contextual (maxDischargeDepth := 60) [*]; done) | ((simp +contextual (maxDischargeDepth := 60) [*]; repeat' split) <;> simp +contextual (maxDischargeDepth := 60) [*])

/-! RimeRows -/

@[simp] theorem endRequest_wf (s : State) (r : RimeReq) (u : RimeUnit) (code : Nat) (hw : storesWf s) : storesWf (endRequest s r u code) := by
  unfold endRequest
  (repeat' split) <;> first | (simp +contextual (maxDischargeDepth := 60) [*]; done) | ((simp +contextual (maxDischargeDepth := 60) [*]; repeat' split) <;> simp +contextual (maxDischargeDepth := 60) [*])

/-! Select -/

@[simp] theorem storeWrite_wf (s : State) (cell : Nat) (l : Loc) (bs : Bytes) (hw : storesWf s) : storesWf (storeWrite s cell l bs) := by
  unfold storeWrite
  (repeat' split) <;> first | (simp +contextual (maxDischargeDepth := 60) [*]; done) | ((simp +contextual (maxDischargeDepth := 60) [*]; repeat' split) <;> simp +contextual (maxDischargeDepth := 60) [*])

@[simp] theorem readRows_wf (s : State) (cell : Nat) (srcs : List (Loc × Nat)) (nans : Nat) (hw : storesWf s) : storesWf (readRows s cell srcs nans) := by
  unfold readRows
  (repeat' split) <;> first | (simp +contextual (maxDischargeDepth := 60) [*]; done) | ((simp +contextual (maxDischargeDepth := 60) [*]; repeat' split) <;> simp +contextual (maxDischargeDepth := 60) [*])

@[simp] theorem selectRow_wf (s : State) (cell : Nat) (ok : Bool) (srcs dsts : List (Loc × Nat)) (nans : Nat) (f : State → State) (hf : ∀ t, storesWf t → storesWf (f t)) (hw : storesWf s) : storesWf (selectRow s cell ok srcs dsts nans f) := by
  unfold selectRow
  (repeat' split) <;> first | (simp +contextual (maxDischargeDepth := 60) [*]; done) | ((simp +contextual (maxDischargeDepth := 60) [*]; repeat' split) <;> simp +contextual (maxDischargeDepth := 60) [*])

@[simp] theorem setSelection_wf (s : State) (cell n : Nat) (f : Bool) (hw : storesWf s) : storesWf (setSelection s cell n f) := by
  unfold setSelection
  (repeat' split) <;> first | (simp +contextual (maxDischargeDepth := 60) [*]; done) | ((simp +contextual (maxDischargeDepth := 60) [*]; repeat' split) <;> simp +contextual (maxDischargeDepth := 60) [*])

@[simp] theorem putWords_wf (s : State) (cell : Nat) (dst : Loc) (input out : List SortWord) (res : Option (Nat × Bool)) (hw : storesWf s) : storesWf (putWords s cell dst input out res) := by
  unfold putWords
  (repeat' split) <;> first | (simp +contextual (maxDischargeDepth := 60) [*]; done) | ((simp +contextual (maxDischargeDepth := 60) [*]; repeat' split) <;> simp +contextual (maxDischargeDepth := 60) [*])

/-! Tap -/

@[simp] theorem loadIr_wf (s : State) (code level : Nat) (cond : Bool) (hw : storesWf s) : storesWf (loadIr s code level cond) := by
  unfold loadIr
  (repeat' split) <;> first | (simp +contextual (maxDischargeDepth := 60) [*]; done) | ((simp +contextual (maxDischargeDepth := 60) [*]; repeat' split) <;> simp +contextual (maxDischargeDepth := 60) [*])

@[simp] theorem onTap_wf (s : State) (k : State → State) (hk : ∀ t, storesWf t → storesWf (k t)) (hw : storesWf s) : storesWf (onTap s k) := by
  unfold onTap
  (repeat' split) <;> first | (simp +contextual (maxDischargeDepth := 60) [*]; done) | ((simp +contextual (maxDischargeDepth := 60) [*]; repeat' split) <;> simp +contextual (maxDischargeDepth := 60) [*])

@[simp] theorem capture_wf (s : State) (code : Nat) (v : BitVec 128) (hw : storesWf s) : storesWf (capture s code v) := by
  unfold capture
  (repeat' split) <;> first | (simp +contextual (maxDischargeDepth := 60) [*]; done) | ((simp +contextual (maxDischargeDepth := 60) [*]; repeat' split) <;> simp +contextual (maxDischargeDepth := 60) [*])

@[simp] theorem updateDr_wf (s : State) (d : BitVec 128) (hw : storesWf s) : storesWf (updateDr s d) := by
  unfold updateDr
  (repeat' split) <;> first | (simp +contextual (maxDischargeDepth := 60) [*]; done) | ((simp +contextual (maxDischargeDepth := 60) [*]; repeat' split) <;> simp +contextual (maxDischargeDepth := 60) [*])

@[simp] theorem startOp_wf (s : State) (op : Nat) (d : BitVec 128) (hw : storesWf s) : storesWf (startOp s op d) := by
  unfold startOp
  (repeat' split) <;> first | (simp +contextual (maxDischargeDepth := 60) [*]; done) | ((simp +contextual (maxDischargeDepth := 60) [*]; repeat' split) <;> simp +contextual (maxDischargeDepth := 60) [*])

@[simp] theorem opPprQuery_wf (s : State) (b : Nat) (hw : storesWf s) : storesWf (opPprQuery s b).1 := by
  unfold opPprQuery
  (repeat' split) <;> first | (simp +contextual (maxDischargeDepth := 60) [*]; done) | ((simp +contextual (maxDischargeDepth := 60) [*]; repeat' split) <;> simp +contextual (maxDischargeDepth := 60) [*])

@[simp] theorem opPprRepair_wf (s : State) (b row : Nat) (ok : Bool) (hw : storesWf s) : storesWf (opPprRepair s b row ok).1 := by
  unfold opPprRepair
  (repeat' split) <;> first | (simp +contextual (maxDischargeDepth := 60) [*]; done) | ((simp +contextual (maxDischargeDepth := 60) [*]; repeat' split) <;> simp +contextual (maxDischargeDepth := 60) [*])

@[simp] theorem opBbtQuery_wf (s : State) (c d : Nat) (hw : storesWf s) : storesWf (opBbtQuery s c d).1 := by
  unfold opBbtQuery
  (repeat' split) <;> first | (simp +contextual (maxDischargeDepth := 60) [*]; done) | ((simp +contextual (maxDischargeDepth := 60) [*]; repeat' split) <;> simp +contextual (maxDischargeDepth := 60) [*])

@[simp] theorem opBbtRead_wf (s : State) (c d block : Nat) (hw : storesWf s) : storesWf (opBbtRead s c d block).1 := by
  unfold opBbtRead
  (repeat' split) <;> first | (simp +contextual (maxDischargeDepth := 60) [*]; done) | ((simp +contextual (maxDischargeDepth := 60) [*]; repeat' split) <;> simp +contextual (maxDischargeDepth := 60) [*])

@[simp] theorem opBbtMark_wf (s : State) (c d block : Nat) (hw : storesWf s) : storesWf (opBbtMark s c d block).1 := by
  unfold opBbtMark
  (repeat' split) <;> first | (simp +contextual (maxDischargeDepth := 60) [*]; done) | ((simp +contextual (maxDischargeDepth := 60) [*]; repeat' split) <;> simp +contextual (maxDischargeDepth := 60) [*])

@[simp] theorem opLoopStart_wf (s : State) (a0 : Nat) (hw : storesWf s) : storesWf (opLoopStart s a0).1 := by
  unfold opLoopStart
  (repeat' split) <;> first | (simp +contextual (maxDischargeDepth := 60) [*]; done) | ((simp +contextual (maxDischargeDepth := 60) [*]; repeat' split) <;> simp +contextual (maxDischargeDepth := 60) [*])

@[simp] theorem opLoopStop_wf (s : State) (hw : storesWf s) : storesWf (opLoopStop s).1 := by
  unfold opLoopStop
  (repeat' split) <;> first | (simp +contextual (maxDischargeDepth := 60) [*]; done) | ((simp +contextual (maxDischargeDepth := 60) [*]; repeat' split) <;> simp +contextual (maxDischargeDepth := 60) [*])

@[simp] theorem bringupOp_wf (s : State) (d : BitVec 128) (ok : Bool) (hw : storesWf s) : storesWf (bringupOp s d ok).1 := by
  unfold bringupOp
  dsimp only
  (repeat' split) <;> try (first | exact hw | simp +contextual (maxDischargeDepth := 60) [*])

/-! Step -/

@[simp] theorem State.withFetchWord_wf (s : State) (nbits w : Nat) (hw : storesWf s) : storesWf (State.withFetchWord s nbits w) := by
  unfold State.withFetchWord
  (repeat' split) <;> first | (simp +contextual (maxDischargeDepth := 60) [*]; done) | ((simp +contextual (maxDischargeDepth := 60) [*]; repeat' split) <;> simp +contextual (maxDischargeDepth := 60) [*])

end Sys2Proof.Machine
end

