-- ==== Sys2Proof/Laws/PerInstr.lean ====
section
/-! SUPPORT. The family Commands: what holds of every command as syntax. -/

namespace Sys2Proof.Laws.Commands

open Sys2Proof

set_option Elab.async false

/-- The command identifier that a command of a queue names (R261). -/
def cid : Instr → Option Nat
  | .search _ cid _ _ => some cid
  | .encodeSearch _ cid _ _ => some cid
  | .encode _ cid _ _ => some cid
  | .rerank _ cid _ _ => some cid
  | .batchCompletionPost _ cid => some cid
  | .insert _ cid _ => some cid
  | .delete _ cid _ => some cid
  | .journalWriteDone _ cid => some cid
  | .planRun _ cid _ => some cid
  | .copy _ cid _ _ => some cid
  | .pegWaitTimeout _ cid => some cid
  | .nsCreate cid => some cid
  | .nsDelete cid => some cid
  | .qpCreate cid => some cid
  | .qpDelete cid => some cid
  | .planLoad cid _ => some cid
  | .planUnload cid => some cid
  | .bayBind cid _ _ => some cid
  | .bayReclaim cid => some cid
  | .selfTestShort cid => some cid
  | .selfTestExtended cid => some cid
  | .selfTestStop cid => some cid
  | .fwStage cid _ => some cid
  | .fwActivate cid _ _ => some cid
  | .logGet cid => some cid
  | .dictRead cid => some cid
  | .dictWrite cid _ => some cid
  | .firnMergeDrift cid => some cid
  | .firnMergeSweep cid => some cid
  | .hostReadFault _ cid _ => some cid
  | _ => none

/-- No word spells the command, since the table gives no row bits, and the command identifier of a well-formed command has 16
bits. -/
def Statement (i : Instr) : Prop :=
  (∀ nbits w, decodeTableWord nbits w ≠ some i) ∧ ∀ c, i.wf = true → cid i = some c → c < 2 ^ 16

/-- A command without a command identifier. -/
theorem of_none (i : Instr) (h : cid i = none) : Statement i :=
  ⟨fun _ _ e => (nomatch e), fun _ _ e => absurd (h.symm.trans e) nofun⟩

/-- A command whose well-formedness bounds its command identifier. -/
theorem of_some (i : Instr) (n : Nat) (h : cid i = some n) (hn : i.wf = true → wfCid n = true) : Statement i :=
  ⟨fun _ _ e => (nomatch e), fun c hw e => by
    have : n = c := Option.some.inj (h.symm.trans e)
    have hc := hn hw
    subst this
    simpa [wfCid] using hc⟩

theorem search (q : Nat) (cid : Nat) (desc : BitVec 1024) (es : List Bytes) : Statement (.search q cid desc es) :=
  of_some _ cid rfl (by simp +contextual [Instr.wf])
theorem encodeSearch (q : Nat) (cid : Nat) (desc : BitVec 1024) (es : List Bytes) : Statement (.encodeSearch q cid desc es) :=
  of_some _ cid rfl (by simp +contextual [Instr.wf])
theorem encode (q : Nat) (cid : Nat) (desc : BitVec 1024) (es : List Bytes) : Statement (.encode q cid desc es) :=
  of_some _ cid rfl (by simp +contextual [Instr.wf])
theorem rerank (q : Nat) (cid : Nat) (desc : BitVec 1024) (es : List Bytes) : Statement (.rerank q cid desc es) :=
  of_some _ cid rfl (by simp +contextual [Instr.wf])
theorem queryWorkStart (slot : Nat) : Statement (.queryWorkStart slot) := of_none _ rfl
theorem scribeReadComplete (slot : Nat) (pair : Nat) (m : UnitRead) : Statement (.scribeReadComplete slot pair m) := of_none _ rfl
theorem hopComplete (slot : Nat) : Statement (.hopComplete slot) := of_none _ rfl
theorem dramRecordReadDone (slot : Nat) (localId : Nat) (m : DramRead) : Statement (.dramRecordReadDone slot localId m) := of_none _ rfl
theorem driftBlockScanned (slot : Nat) (block : Nat) (cell : Nat) : Statement (.driftBlockScanned slot block cell) := of_none _ rfl
theorem braceRebuildDone (slot : Nat) (pair : Nat) (ok : Bool) : Statement (.braceRebuildDone slot pair ok) := of_none _ rfl
theorem rerankSlotArrival (slot : Nat) (localId : Nat) (m : DramRead) : Statement (.rerankSlotArrival slot localId m) := of_none _ rfl
theorem rerankDone (slot : Nat) : Statement (.rerankDone slot) := of_none _ rfl
theorem guardTime (slot : Nat) : Statement (.guardTime slot) := of_none _ rfl
theorem batchCompletionPost (q : Nat) (cid : Nat) : Statement (.batchCompletionPost q cid) :=
  of_some _ cid rfl (by simp +contextual [Instr.wf])
theorem insert (q : Nat) (cid : Nat) (block : Bytes) : Statement (.insert q cid block) :=
  of_some _ cid rfl (by simp +contextual [Instr.wf])
theorem delete (q : Nat) (cid : Nat) (ids : List Word64) : Statement (.delete q cid ids) :=
  of_some _ cid rfl (by simp +contextual [Instr.wf])
theorem journalWriteDone (q : Nat) (cid : Nat) : Statement (.journalWriteDone q cid) :=
  of_some _ cid rfl (by simp +contextual [Instr.wf])
theorem planRun (q : Nat) (cid : Nat) (desc : BitVec 1024) : Statement (.planRun q cid desc) :=
  of_some _ cid rfl (by simp +contextual [Instr.wf])
theorem copy (q : Nat) (cid : Nat) (data : Bytes) (m : Media) : Statement (.copy q cid data m) :=
  of_some _ cid rfl (by simp +contextual [Instr.wf])
theorem pegSet (i : PegIssuer) : Statement (.pegSet i) := of_none _ rfl
theorem pegAdd (i : PegIssuer) : Statement (.pegAdd i) := of_none _ rfl
theorem pegWaitGe (i : PegIssuer) : Statement (.pegWaitGe i) := of_none _ rfl
theorem pegWaitEq (i : PegIssuer) : Statement (.pegWaitEq i) := of_none _ rfl
theorem pegAcquire (i : PegIssuer) : Statement (.pegAcquire i) := of_none _ rfl
theorem pegRelease (i : PegIssuer) : Statement (.pegRelease i) := of_none _ rfl
theorem pegWaitTimeout (q : Nat) (cid : Nat) : Statement (.pegWaitTimeout q cid) :=
  of_some _ cid rfl (by simp +contextual [Instr.wf])
theorem pegSignalRepeat (peg : Nat) : Statement (.pegSignalRepeat peg) := of_none _ rfl
theorem nsCreate (cid : Nat) : Statement (.nsCreate cid) :=
  of_some _ cid rfl (by simp +contextual [Instr.wf])
theorem nsDelete (cid : Nat) : Statement (.nsDelete cid) :=
  of_some _ cid rfl (by simp +contextual [Instr.wf])
theorem nsDeleteRelease (index : Nat) : Statement (.nsDeleteRelease index) := of_none _ rfl
theorem qpCreate (cid : Nat) : Statement (.qpCreate cid) :=
  of_some _ cid rfl (by simp +contextual [Instr.wf])
theorem qpDelete (cid : Nat) : Statement (.qpDelete cid) :=
  of_some _ cid rfl (by simp +contextual [Instr.wf])
theorem qpDeleteComplete (qp : Nat) : Statement (.qpDeleteComplete qp) := of_none _ rfl
theorem planLoad (cid : Nat) (image : ImageRead) : Statement (.planLoad cid image) :=
  of_some _ cid rfl (by simp +contextual [Instr.wf])
theorem planUnload (cid : Nat) : Statement (.planUnload cid) :=
  of_some _ cid rfl (by simp +contextual [Instr.wf])
theorem planUnloadRelease (handle : Nat) : Statement (.planUnloadRelease handle) := of_none _ rfl
theorem bayBind (cid : Nat) (hdr : BitVec 1024) (regs : List (BitVec 128)) : Statement (.bayBind cid hdr regs) :=
  of_some _ cid rfl (by simp +contextual [Instr.wf])
theorem bayReclaim (cid : Nat) : Statement (.bayReclaim cid) :=
  of_some _ cid rfl (by simp +contextual [Instr.wf])
theorem reclaimGraceExpiry (bay : Nat) : Statement (.reclaimGraceExpiry bay) := of_none _ rfl
theorem resourceDrained (bay : Nat) (r : Resource) : Statement (.resourceDrained bay r) := of_none _ rfl
theorem reclaimComplete (bay : Nat) : Statement (.reclaimComplete bay) := of_none _ rfl
theorem frameZeroed (frame : Nat) : Statement (.frameZeroed frame) := of_none _ rfl
theorem selfTestShort (cid : Nat) : Statement (.selfTestShort cid) :=
  of_some _ cid rfl (by simp +contextual [Instr.wf])
theorem selfTestExtended (cid : Nat) : Statement (.selfTestExtended cid) :=
  of_some _ cid rfl (by simp +contextual [Instr.wf])
theorem selfTestStop (cid : Nat) : Statement (.selfTestStop cid) :=
  of_some _ cid rfl (by simp +contextual [Instr.wf])
theorem selfTestDone (failures : List (BitVec 512)) (items : Nat) (yieldNs : Nat) : Statement (.selfTestDone failures items yieldNs) := of_none _ rfl
theorem fwStage (cid : Nat) (image : Bytes) : Statement (.fwStage cid image) :=
  of_some _ cid rfl (by simp +contextual [Instr.wf])
theorem fwActivate (cid : Nat) (m0 : Media) (m1 : Media) : Statement (.fwActivate cid m0 m1) :=
  of_some _ cid rfl (by simp +contextual [Instr.wf])
theorem logGet (cid : Nat) : Statement (.logGet cid) :=
  of_some _ cid rfl (by simp +contextual [Instr.wf])
theorem dictRead (cid : Nat) : Statement (.dictRead cid) :=
  of_some _ cid rfl (by simp +contextual [Instr.wf])
theorem dictWrite (cid : Nat) (value : Bytes) : Statement (.dictWrite cid value) :=
  of_some _ cid rfl (by simp +contextual [Instr.wf])
theorem stagedObjectWrite (by_ : Master) (index : Nat) (sub : Nat) (value : Bytes) : Statement (.stagedObjectWrite by_ index sub value) := of_none _ rfl
theorem firnMergeDrift (cid : Nat) : Statement (.firnMergeDrift cid) :=
  of_some _ cid rfl (by simp +contextual [Instr.wf])
theorem firnMergeSweep (cid : Nat) : Statement (.firnMergeSweep cid) :=
  of_some _ cid rfl (by simp +contextual [Instr.wf])
theorem firnRoundStart (index : Nat) : Statement (.firnRoundStart index) := of_none _ rfl
theorem indexVersionRaise (index : Nat) : Statement (.indexVersionRaise index) := of_none _ rfl
theorem firnRoundCutoff (index : Nat) (cause : CutoffCause) : Statement (.firnRoundCutoff index cause) := of_none _ rfl
theorem versionRelease (index : Nat) (version : Nat) : Statement (.versionRelease index version) := of_none _ rfl
theorem indexReplayDone (index : Nat) : Statement (.indexReplayDone index) := of_none _ rfl
theorem cutStart (slot : Nat) (cut : Nat) : Statement (.cutStart slot cut) := of_none _ rfl
theorem cutEnd (slot : Nat) (cut : Nat) (work : List CutOp) : Statement (.cutEnd slot cut work) := of_none _ rfl
theorem weightArrival (handle : Nat) (obj : Nat) (m : Media) : Statement (.weightArrival handle obj m) := of_none _ rfl
theorem sort (cell : Nat) (w : Word64) (src : Loc) (dst : Loc) (n : Nat) : Statement (.sort cell w src dst n) := of_none _ rfl
theorem select (cell : Nat) (w : Word64) (src : Loc) (dst : Loc) (n : Nat) : Statement (.select cell w src dst n) := of_none _ rfl
theorem thresh (cell : Nat) (w : Word64) (src : Loc) (dst : Loc) (n : Nat) (t : Word32) : Statement (.thresh cell w src dst n t) := of_none _ rfl
theorem merge (cell : Nat) (w : Word64) (srcs : List (Loc × Nat)) (dst : Loc) : Statement (.merge cell w srcs dst) := of_none _ rfl
theorem argmax (cell : Nat) (w : Word64) (src : Loc) (n : Nat) : Statement (.argmax cell w src n) := of_none _ rfl
theorem baySliceExpiry (bay : Nat) : Statement (.baySliceExpiry bay) := of_none _ rfl
theorem bePromotion (bay : Nat) (ctx : Nat) : Statement (.bePromotion bay ctx) := of_none _ rfl
theorem promotionQuantumEnd (bay : Nat) : Statement (.promotionQuantumEnd bay) := of_none _ rfl
theorem contextFault (ctx : Nat) (cause : Nat) : Statement (.contextFault ctx cause) := of_none _ rfl
theorem rimeRequestSubmit (slot : Option Nat) (ctx cell : Nat) (desc : BitVec 256) : Statement (.rimeRequestSubmit slot ctx cell desc) := of_none _ rfl
theorem rimeSegmentStart (bank : Nat) : Statement (.rimeSegmentStart bank) := of_none _ rfl
theorem rimeSegmentEnd (bank : Nat) : Statement (.rimeSegmentEnd bank) := of_none _ rfl
theorem rimeRequestDone (bank : Nat) : Statement (.rimeRequestDone bank) := of_none _ rfl
theorem bankRefresh (bank : Nat) : Statement (.bankRefresh bank) := of_none _ rfl
theorem bankAccessDuringRime (bank : Nat) : Statement (.bankAccessDuringRime bank) := of_none _ rfl
theorem nop (bank : Nat) (w : BitVec 128) : Statement (.nop bank w) := of_none _ rfl
theorem clr (bank : Nat) (w : BitVec 128) : Statement (.clr bank w) := of_none _ rfl
theorem loadq (bank : Nat) (w : BitVec 128) (m : Media) (corrected : List Nat) : Statement (.loadq bank w m corrected) := of_none _ rfl
theorem loadr (bank : Nat) (w : BitVec 128) (m : Media) (corrected : List Nat) : Statement (.loadr bank w m corrected) := of_none _ rfl
theorem storer (bank : Nat) (w : BitVec 128) : Statement (.storer bank w) := of_none _ rfl
theorem dot (bank : Nat) (w : BitVec 128) (m : Media) (corrected : List Nat) : Statement (.dot bank w m corrected) := of_none _ rfl
theorem maxsim (bank : Nat) (w : BitVec 128) (m : Media) (corrected : List Nat) : Statement (.maxsim bank w m corrected) := of_none _ rfl
theorem wsum (bank : Nat) (w : BitVec 128) (m : Media) (corrected : List Nat) : Statement (.wsum bank w m corrected) := of_none _ rfl
theorem vmax (bank : Nat) (w : BitVec 128) : Statement (.vmax bank w) := of_none _ rfl
theorem rmax (bank : Nat) (w : BitVec 128) : Statement (.rmax bank w) := of_none _ rfl
theorem save (bank : Nat) : Statement (.save bank) := of_none _ rfl
theorem restore (bank : Nat) (m : AreaRead) : Statement (.restore bank m) := of_none _ rfl
theorem cmdq (bank : Nat) (w0 : BitVec 128) (w1 : BitVec 128) : Statement (.cmdq bank w0 w1) := of_none _ rfl
theorem rimeCtrlClear (bank : Nat) : Statement (.rimeCtrlClear bank) := of_none _ rfl
theorem rimeCtrlAbort (bank : Nat) : Statement (.rimeCtrlAbort bank) := of_none _ rfl
theorem rimeCtrlSuspend (bank : Nat) : Statement (.rimeCtrlSuspend bank) := of_none _ rfl
theorem rimeCtrlResume (bank : Nat) : Statement (.rimeCtrlResume bank) := of_none _ rfl
theorem rcfgWrite (channel : Nat) (value : Byte) : Statement (.rcfgWrite channel value) := of_none _ rfl
theorem reservedEventPlace (ev : Reserved) (window : Nat) : Statement (.reservedEventPlace ev window) := of_none _ rfl
theorem reservedEventForced (ev : Reserved) : Statement (.reservedEventForced ev) := of_none _ rfl
theorem retrainingPause (channel : Nat) : Statement (.retrainingPause channel) := of_none _ rfl
theorem flashPePieceEnd (channel : Nat) (die : Nat) : Statement (.flashPePieceEnd channel die) := of_none _ rfl
theorem flashPeFail (channel : Nat) (die : Nat) (block : Nat) : Statement (.flashPeFail channel die block) := of_none _ rfl
theorem pageFault (bay : Nat) (addr : Nat) (write : Bool) (lc : Bool) : Statement (.pageFault bay addr write lc) := of_none _ rfl
theorem fillSectorArrival (page : Nat) (sector : Nat) (m : Media) (rebuilt : Bool) : Statement (.fillSectorArrival page sector m rebuilt) := of_none _ rfl
theorem cleanerWriteback (bay : Nat) : Statement (.cleanerWriteback bay) := of_none _ rfl
theorem writebackDone (page : Nat) (group : Nat) (home : Nat) : Statement (.writebackDone page group home) := of_none _ rfl
theorem evacuationStart (channel : Nat) (kind : DepKind) : Statement (.evacuationStart channel kind) := of_none _ rfl
theorem pieceRelocated (src : Nat) (dst : Nat) : Statement (.pieceRelocated src dst) := of_none _ rfl
theorem evacuationCopyWindow (window : CopyWindow) : Statement (.evacuationCopyWindow window) := of_none _ rfl
theorem evacuationCopyEnd : Statement .evacuationCopyEnd := of_none _ rfl
theorem returnCopyEnd : Statement .returnCopyEnd := of_none _ rfl
theorem replenishment (entry : Nat) : Statement (.replenishment entry) := of_none _ rfl
theorem weightRebuildDone (addr : Nat) (ok : Bool) : Statement (.weightRebuildDone addr ok) := of_none _ rfl
theorem indexStructureRestored (index : Nat) (st : IndexStruct) : Statement (.indexStructureRestored index st) := of_none _ rfl
theorem mediaUnitRebuild (channel : Nat) (die : Nat) (unit : Nat) (ok : Bool) : Statement (.mediaUnitRebuild channel die unit ok) := of_none _ rfl
theorem dramScrubPass (set : Nat) (corrected : List (Nat × Nat)) : Statement (.dramScrubPass set corrected) := of_none _ rfl
theorem flashPatrol (channel : Nat) (die : Nat) (block : Nat) (retries : Nat) (bitsHigh : Bool) : Statement (.flashPatrol channel die block retries bitsHigh) := of_none _ rfl
theorem dramRowFailing (bank : Nat) (row : Nat) (uncorrectable : Bool) : Statement (.dramRowFailing bank row uncorrectable) := of_none _ rfl
theorem monitorSample (kind : Nat) (unit : Nat) (v0 : Word32) (v1 : Word32) (v2 : Word32) (v3 : Word32) (limit : Word32) : Statement (.monitorSample kind unit v0 v1 v2 v3 limit) := of_none _ rfl
theorem marginPlanBuild (trigger : Nat) (m : MarginItems) : Statement (.marginPlanBuild trigger m) := of_none _ rfl
theorem marginPlanRaise : Statement .marginPlanRaise := of_none _ rfl
theorem fatalError (cause : Nat) (unit : Nat) (inCxl : Bool) : Statement (.fatalError cause unit inCxl) := of_none _ rfl
theorem dumpWritten : Statement .dumpWritten := of_none _ rfl
theorem dumpCopied : Statement .dumpCopied := of_none _ rfl
theorem mgmtCodeCheck (digest : Nat) : Statement (.mgmtCodeCheck digest) := of_none _ rfl
theorem mgmtRestart : Statement .mgmtRestart := of_none _ rfl
theorem sqTailDoorbell (fn : Nat) (q : Nat) (v : Word32) : Statement (.sqTailDoorbell fn q v) := of_none _ rfl
theorem cqHeadDoorbell (fn : Nat) (q : Nat) (v : Word32) : Statement (.cqHeadDoorbell fn q v) := of_none _ rfl
theorem adminSqTail (v : Word32) : Statement (.adminSqTail v) := of_none _ rfl
theorem adminCqHead (v : Word32) : Statement (.adminCqHead v) := of_none _ rfl
theorem adminEnable (sqBase : Word64) (cqBase : Word64) (cfg : Word64) : Statement (.adminEnable sqBase cqBase cfg) := of_none _ rfl
theorem adminDisable : Statement .adminDisable := of_none _ rfl
theorem submissionConsume (q : Nat) (sqe : BitVec 512) : Statement (.submissionConsume q sqe) := of_none _ rfl
theorem msixCoalesceTimer (q : Nat) : Statement (.msixCoalesceTimer q) := of_none _ rfl
theorem hostReadFault (q : Nat) (cid : Nat) (t : ReadTarget) : Statement (.hostReadFault q cid t) :=
  of_some _ cid rfl (by simp +contextual [Instr.wf])
theorem cxlMemRead (r : HostRead) : Statement (.cxlMemRead r) := of_none _ rfl
theorem cxlMemWrite (hpa : Nat) (data : Bytes) : Statement (.cxlMemWrite hpa data) := of_none _ rfl
theorem bisnpinv (line : Nat) : Statement (.bisnpinv line) := of_none _ rfl
theorem cxlCacheSnoop (line : Nat) : Statement (.cxlCacheSnoop line) := of_none _ rfl
theorem hdmDecoderCommit (n : Nat) (base : Nat) (size : Nat) (skip : Nat) : Statement (.hdmDecoderCommit n base size skip) := of_none _ rfl
theorem linkTrained (cxlMode : Bool) (width : Nat) (rate : Nat) (flit256 : Bool) : Statement (.linkTrained cxlMode width rate flit256) := of_none _ rfl
theorem linkDown : Statement .linkDown := of_none _ rfl
theorem vfFlr (fn : Nat) : Statement (.vfFlr fn) := of_none _ rfl
theorem pfFlr : Statement .pfFlr := of_none _ rfl
theorem hotReset : Statement .hotReset := of_none _ rfl
theorem vfEnableClear : Statement .vfEnableClear := of_none _ rfl
theorem ideIntegrityFail (stream : Nat) : Statement (.ideIntegrityFail stream) := of_none _ rfl
theorem keyProg (session : Nat) (dir : StreamDir) (set : Nat) (key : BitVec 256) : Statement (.keyProg session dir set key) := of_none _ rfl
theorem kSetGo (session : Nat) (dir : StreamDir) (set : Nat) : Statement (.kSetGo session dir set) := of_none _ rfl
theorem kSetStop (session : Nat) (dir : StreamDir) (set : Nat) : Statement (.kSetStop session dir set) := of_none _ rfl
theorem cdatTableAccess (tableType : Nat) (entry : Nat) : Statement (.cdatTableAccess tableType entry) := of_none _ rfl
theorem getMeasurements (slot : Nat) (nonce : BitVec 256) : Statement (.getMeasurements slot nonce) := of_none _ rfl
theorem spdmEvidenceRequest (value : Bytes) : Statement (.spdmEvidenceRequest value) := of_none _ rfl
theorem spdmKeyExchange : Statement .spdmKeyExchange := of_none _ rfl
theorem ptmRequest : Statement .ptmRequest := of_none _ rfl
theorem ptmExchange (hostTime : Nat) : Statement (.ptmExchange hostTime) := of_none _ rfl
theorem ptmTimeout : Statement .ptmTimeout := of_none _ rfl
theorem dtbForwardStep : Statement .dtbForwardStep := of_none _ rfl
theorem dtbStepAbandon : Statement .dtbStepAbandon := of_none _ rfl
theorem getFwInfo : Statement .getFwInfo := of_none _ rfl
theorem transferFw (action : Nat) (offset : Nat) (data : Bytes) : Statement (.transferFw action offset data) := of_none _ rfl
theorem activateFw (online : Bool) (m0 : Media) (m1 : Media) : Statement (.activateFw online m0 m1) := of_none _ rfl
theorem getSupportedLogs : Statement .getSupportedLogs := of_none _ rfl
theorem getLog (page : Nat) (offset : Nat) (len : Nat) : Statement (.getLog page offset len) := of_none _ rfl
theorem installConfigRecord (offset : Nat) (last : Bool) (data : Bytes) : Statement (.installConfigRecord offset last data) := of_none _ rfl
theorem xsdpRead (f : Frame) : Statement (.xsdpRead f) := of_none _ rfl
theorem xsdpWrite (f : Frame) : Statement (.xsdpWrite f) := of_none _ rfl
theorem eventAck (f : Frame) : Statement (.eventAck f) := of_none _ rfl
theorem eventRetransmit (seq : Nat) : Statement (.eventRetransmit seq) := of_none _ rfl
theorem stageLockTake (by_ : Master) : Statement (.stageLockTake by_) := of_none _ rfl
theorem stageLockRelease (by_ : Master) : Statement (.stageLockRelease by_) := of_none _ rfl
theorem lockLapse : Statement .lockLapse := of_none _ rfl
theorem stageDiscard (by_ : Master) : Statement (.stageDiscard by_) := of_none _ rfl
theorem dryFit (by_ : Master) : Statement (.dryFit by_) := of_none _ rfl
theorem dryFitComplete : Statement .dryFitComplete := of_none _ rfl
theorem raiseImmediate (by_ : Master) : Statement (.raiseImmediate by_) := of_none _ rfl
theorem raiseAtTime (by_ : Master) (t : Word64) : Statement (.raiseAtTime by_ t) := of_none _ rfl
theorem raiseAtIdle (by_ : Master) (limit : Word64) : Statement (.raiseAtIdle by_ limit) := of_none _ rfl
theorem raiseCancel (by_ : Master) : Statement (.raiseCancel by_) := of_none _ rfl
theorem raiseRefit : Statement .raiseRefit := of_none _ rfl
theorem dictRaise : Statement .dictRaise := of_none _ rfl
theorem raiseExpiry : Statement .raiseExpiry := of_none _ rfl
theorem secLock (by_ : Master) : Statement (.secLock by_) := of_none _ rfl
theorem errAck (by_ : Master) (entry : Word32) : Statement (.errAck by_ entry) := of_none _ rfl
theorem dumpClear (by_ : Master) : Statement (.dumpClear by_) := of_none _ rfl
theorem evidenceReq (by_ : Master) (value : Bytes) : Statement (.evidenceReq by_ value) := of_none _ rfl
theorem evidenceSign : Statement .evidenceSign := of_none _ rfl
theorem fwRxLen (v : Word32) : Statement (.fwRxLen v) := of_none _ rfl
theorem fwRxData (data : Bytes) : Statement (.fwRxData data) := of_none _ rfl
theorem fwRxVerify : Statement .fwRxVerify := of_none _ rfl
theorem fwRxActivateBoot (m0 : Media) (m1 : Media) : Statement (.fwRxActivateBoot m0 m1) := of_none _ rfl
theorem fwRxAbort : Statement .fwRxAbort := of_none _ rfl
theorem cfgRxLen (v : Word32) : Statement (.cfgRxLen v) := of_none _ rfl
theorem cfgRxData (data : Bytes) : Statement (.cfgRxData data) := of_none _ rfl
theorem cfgRxInstall : Statement .cfgRxInstall := of_none _ rfl
theorem cfgRxAbort : Statement .cfgRxAbort := of_none _ rfl
theorem domainTimerRet (n : Nat) : Statement (.domainTimerRet n) := of_none _ rfl
theorem domainTimerOff (n : Nat) : Statement (.domainTimerOff n) := of_none _ rfl
theorem domainEntryDone (n : Nat) : Statement (.domainEntryDone n) := of_none _ rfl
theorem domainWake (n : Nat) (source : Nat) : Statement (.domainWake n source) := of_none _ rfl
theorem domainWakeDone (n : Nat) : Statement (.domainWakeDone n) := of_none _ rfl
theorem dtbComparator (i : Nat) : Statement (.dtbComparator i) := of_none _ rfl
theorem comparatorTrip (c : Comparator) (value : Nat) : Statement (.comparatorTrip c value) := of_none _ rfl
theorem comparatorRelease (c : InputReading) : Statement (.comparatorRelease c) := of_none _ rfl
theorem powerCapThrottle (watts : Nat) : Statement (.powerCapThrottle watts) := of_none _ rfl
theorem powerCapThrottleLift (watts : Nat) : Statement (.powerCapThrottleLift watts) := of_none _ rfl
theorem throttleNAssert : Statement .throttleNAssert := of_none _ rfl
theorem throttleNRelease : Statement .throttleNRelease := of_none _ rfl
theorem auxPowerUp (straps : Nat) : Statement (.auxPowerUp straps) := of_none _ rfl
theorem auxLoss : Statement .auxLoss := of_none _ rfl
theorem pwrEnRise : Statement .pwrEnRise := of_none _ rfl
theorem mgmtReady : Statement .mgmtReady := of_none _ rfl
theorem pwrEnFall : Statement .pwrEnFall := of_none _ rfl
theorem mainPowerLoss : Statement .mainPowerLoss := of_none _ rfl
theorem perstNAssert : Statement .perstNAssert := of_none _ rfl
theorem perstNRelease : Statement .perstNRelease := of_none _ rfl
theorem extest : Statement .extest := of_none _ rfl
theorem idcode : Statement .idcode := of_none _ rfl
theorem samplePreload (pins : Nat) : Statement (.samplePreload pins) := of_none _ rfl
theorem highz : Statement .highz := of_none _ rfl
theorem clamp : Statement .clamp := of_none _ rfl
theorem dbgStatus : Statement .dbgStatus := of_none _ rfl
theorem bringup (dr : Option (BitVec 128)) : Statement (.bringup dr) := of_none _ rfl
theorem mgmtDebug (halt : Bool) (addr : Nat) : Statement (.mgmtDebug halt addr) := of_none _ rfl
theorem bypass : Statement .bypass := of_none _ rfl
theorem pprQuery (dr : BitVec 128) : Statement (.pprQuery dr) := of_none _ rfl
theorem pprRepair (dr : BitVec 128) : Statement (.pprRepair dr) := of_none _ rfl
theorem bbtQuery (dr : BitVec 128) : Statement (.bbtQuery dr) := of_none _ rfl
theorem bbtRead (dr : BitVec 128) : Statement (.bbtRead dr) := of_none _ rfl
theorem bbtMark (dr : BitVec 128) : Statement (.bbtMark dr) := of_none _ rfl
theorem loopStart (dr : BitVec 128) : Statement (.loopStart dr) := of_none _ rfl
theorem loopStop (dr : BitVec 128) : Statement (.loopStop dr) := of_none _ rfl
theorem bringupOpComplete (ok : Bool) : Statement (.bringupOpComplete ok) := of_none _ rfl
theorem plcaStatusChange (active : Bool) : Statement (.plcaStatusChange active) := of_none _ rfl
theorem mainInputReturn (millivolts : Nat) : Statement (.mainInputReturn millivolts) := of_none _ rfl
theorem neighborDiscovery (target : Nat) : Statement (.neighborDiscovery target) := of_none _ rfl
theorem icmpv6Echo (peer : Nat) (payload : Bytes) : Statement (.icmpv6Echo peer payload) := of_none _ rfl
theorem xsdpMalformedDatagram (f : Frame) : Statement (.xsdpMalformedDatagram f) := of_none _ rfl
theorem fullRetrainingDone (channel : Nat) : Statement (.fullRetrainingDone channel) := of_none _ rfl
theorem mgmtPllLock : Statement .mgmtPllLock := of_none _ rfl
theorem getCertificate (slot : Nat) (offset : Nat) (len : Nat) : Statement (.getCertificate slot offset len) := of_none _ rfl
theorem challenge (slot : Nat) (nonce : BitVec 256) : Statement (.challenge slot nonce) := of_none _ rfl
theorem negotiateAlgorithms (hash : Bool) (aead : Bool) (dhe : Bool) (sig : Bool) : Statement (.negotiateAlgorithms hash aead dhe sig) := of_none _ rfl
theorem doeDiscovery (index : Nat) : Statement (.doeDiscovery index) := of_none _ rfl
theorem vfEnableSet : Statement .vfEnableSet := of_none _ rfl
theorem ptmEnableWrite (on : Bool) : Statement (.ptmEnableWrite on) := of_none _ rfl
theorem cxlCacheEnable (on : Bool) : Statement (.cxlCacheEnable on) := of_none _ rfl
theorem cxlMemEnable (on : Bool) : Statement (.cxlMemEnable on) := of_none _ rfl
theorem linkLoopbackEntry (rate : Nat) : Statement (.linkLoopbackEntry rate) := of_none _ rfl

end Sys2Proof.Laws.Commands
end

