-- ==== Sys2Proof/Tests/Slice0.lean ====
section
/-! SUPPORT. Tests: ill-formed commands that the checks refuse, small steps with results taken from the manual, and a witness
for the hypotheses of every clause of every statement. -/

namespace Sys2Proof.Tests

open Sys2Proof Sys2Proof.Machine

set_option Elab.async false

/-! States for the witnesses. -/

/-- The image that runs. -/
def image : FwImage := { version := 0x30000, svn := 0, floor := 0, digest := 0, code := 1 }

/-- Main rails on, MGMT ready, the link up in CXL mode, the admin queue enabled with 16 entries. -/
def live : State :=
  { State.reset with
    time := { dtb := 1000000000, bootCount := 1 }
    pins := { perstN := true, pwrEn := true, mainOn := true, modReady := true }
    link := { up := true, cxlMode := true, width := 8, rate := 64, flit256 := true, memOn := true, cacheOn := true,
              vfEnable := true, ready := true }
    queues := { adminCfg := 0x80000000000F000F, admin := { sqDepth := 16, cqDepth := 16 } }
    power := { domains := [0, 1, 2, 3].map (fun n => { num := n, state := .on }), mgmtPll := true }
    sec := { booted := some image, mgmtReady := true, bootState := 2 } }

/-- A consumed command. -/
def cmd (cid sqe : Nat) : Cmd := { cid := cid, sqe := BitVec.ofNat 512 sqe, arrival := 1000000000, sqHead := 1 }

/-- A command that runs. -/
def ran (cid sqe : Nat) : Cmd := { cmd cid sqe with phase := .running }

/-- A state with a command on the admin queue. -/
def adm (c : Cmd) (s : State := live) : State :=
  { s with queues := { s.queues with admin := { s.queues.admin with cmds := [c] } } }

/-- A BE pair of bay 0 and context 7. -/
def pair (cmds : List Cmd) : QPair :=
  { id := 3, ctx := 7, bay := 0, lc := false, dqp := 0, bsize := 16, q := { sqDepth := 16, cqDepth := 16, cmds := cmds } }

/-- A state with that pair and its context. -/
def io (cmds : List Cmd) (s : State := live) : State :=
  { s with queues := { s.queues with pairs := [pair cmds] },
           bay := { s.bay with contexts := [{ num := 7, bay := 0, progress := 0 }] } }

/-- A state with a staging area. -/
def staged (g : StageState) (s : State := live) : State := { s with dict := { s.dict with stage := g } }

/-- A query of that pair. -/
def query : Query :=
  { slot := 5, q := 3, cid := 9, pos := 0, bay := 0, ctx := 7, plan := 1, opcode := 1, lc := false, arrival := 1000000000,
    deadline := 1000500000, guard := 1000450000, startAt := 1000010000, index := none }

/-- A state in which its batch runs. -/
def querying (x : Query) (s : State := live) : State :=
  { io [ran 9 1] s with adm := { s.adm with queries := [x] } }

/-- A change that leaves the bays' LC content leaves POWER_FLOOR_LC. -/
theorem liftsFloor_of_same {s t : State} (h : powerFloorLc t = powerFloorLc s) : liftsFloor s t = false := by
  simp [liftsFloor, h]

/-- A live module with a sideband key. -/
def keyed (p : List Peer := []) : State :=
  { live with
    dict := { live.dict with entries := [{ index := 0x7001, sub := 0, value := some 5 }] }
    sb := { live.sb with peers := p } }

/-- A sideband request of a type for object 0x2000/1, with the tag of that key. -/
def request (ty seq : Nat) : Frame :=
  let h := BitVec.ofNat 256 (1 + ty * 2 ^ 8 + seq * 2 ^ 16 + 2 ^ 72 + 0x2000 * 2 ^ 80 + 2 ^ 224)
  { peer := 77, len := 48, header := h, value := [], tag := Config.kmacXsdp 5 h [] }

/-- A live module whose window maps 256 MiB at 2^28, with one region of 16 pages. -/
def windowed (fs : List Frame_) : State :=
  { live with
    link := { live.link with hdm := [(0, { base := 2 ^ 28, size := 2 ^ 28, committed := true })] }
    bay := { live.bay with regions := [{ base := 4096, pages := 16, kind := 1, hint := 0, groups := 0, bay := 0 }] }
    tier := { live.tier with frames := fs } }

/-- A live module in which the TAP may act on bring-up operations. -/
def bringup (t : TapState) : State :=
  { live with pins := { live.pins with perstN := false }, sec := { live.sec with debugLevel := 2 }, tap := t }

/-- A private peg of context 7. -/
def peg (n : Nat) (holder : Option Nat := none) : Peg :=
  { num := n, value := 4, bay := 0, ctx := some 7, kind := .private_, holder := holder }

/-- A state with that peg and a command on the pair. -/
def pegged (c : Cmd) (p : Peg) : State :=
  let s := io [c]
  { s with bay := { s.bay with pegs := s.bay.pegs ++ [p] } }

/-- Parameters of a small index without rerank data. -/
def params : IndexParams :=
  { nCap := 4096, w := 256, degree := 32, dramTier := true, hubs := 0, groups := 1, atype := 0, rfmt := 0, rdim := 0, rgs := 0,
    rsck := 0, flashDirect := false, driftLimit := 4096 }

/-- A node of that index. -/
def node : Node := { id := 8, version := 0, code := 3 }

/-- Its version. -/
def version : Version := { num := 0, driftBase := 0, nodes := [node] }

/-- An index with one node and one deleted ID. -/
def index : Index := { num := 2, params := params, versions := [version], presence := [8, 9], kerf := [9], tail := 1 }

/-- A cut of one array. -/
def cut : Cut :=
  { worstNs := 100000, waitPeg := 0xFFFF, signalPeg := 0xFFFF, waitValue := 0, stage := 0, firstLa := 0, nLa := 1,
    weightStart := 0xFFFF }

/-- A plan of context 7 on array 150. -/
def plan (k : PlanKind) : Plan :=
  { handle := 1, ctx := 7, kind := k, index := some 2, lcOk := false, flashClass := false, sr := false, arrays := [150],
    scratch := none, rimeSector := none, params := { k := 1, beam := 1, beamMax := 1, maxReads := 8, maxHops := 4 },
    profile := none, cuts := [cut], pegs := [], weights := [] }

/-- A state with an index, a plan and a command on the pair. -/
def planned (c : List Cmd) (p : Plan) (i : Index := index) : State :=
  let s := io c
  { s with indexes := [i], bay := { s.bay with plans := [p] } }

/-- A state in which a query runs on that index under that plan. -/
def searching (x : Query) (p : Plan := plan .search) (i : Index := index) : State :=
  { planned [ran 9 1] p i with adm := { live.adm with queries := [x] } }

/-- A query on the index. -/
def search : Query := { query with index := some 2, stage := .traverse }

/-- A batch descriptor with one query, at position 0. -/
def desc : BitVec 1024 := (1#1024 <<< 512) ||| 0x300000010#1024

/-- A query entry of zeros. -/
def entry : QueryEntry := { head := 0, filt := 0, code := 0, rerank := [], tokens := [], cands := [] }

/-- The image of a run plan with one cut. -/
def runImage : Bytes :=
  let head := natLe 60 (3 * 2 ^ 16 + 4 * 2 ^ 32 + 2 ^ 35 + 100000 * 2 ^ 64 + 2 ^ 144 + 2 ^ 192 + 64 * 2 ^ 416 + 128 * 2 ^ 448)
  let body := natLe 64 (100000 * 2 ^ 160 + 0xFFFF * 2 ^ 144 + 0xFFFF * 2 ^ 128 + 2 ^ 64 + 0xFFFF * 2 ^ 48)
  head ++ natLe 4 (crc32c (head ++ [0, 0, 0, 0] ++ body)) ++ body

/-- The image of a run plan with one cut and one pinned weight object at page 4,096. -/
def pinImage : Bytes :=
  let head := natLe 60 (3 * 2 ^ 16 + 4 * 2 ^ 32 + 2 ^ 35 + 100000 * 2 ^ 64 + 2 ^ 144 + 2 ^ 160 + 2 ^ 192 + 128 * 2 ^ 352 + 64 * 2 ^ 416 + 192 * 2 ^ 448)
  let body := natLe 64 (100000 * 2 ^ 160 + 0xFFFF * 2 ^ 144 + 0xFFFF * 2 ^ 128 + 2 ^ 64 + 0xFFFF * 2 ^ 48) ++
    natLe 64 (2 ^ 30 + 4096 * 2 ^ 47 + 6 * 2 ^ 134 + 2 ^ 144)
  head ++ natLe 4 (crc32c (head ++ [0, 0, 0, 0] ++ body)) ++ body

/-- A live module with a bay in a state of its own. -/
def bayed (b : Nat) (v : Bay) : State := setBay live b v

/-- A live module with banks at rime work and the aperture of channel 0 enabled. -/
def rimed (bs : List RimeBank) : State := { live with rime := { live.rime with banks := bs, rcfg := [(0, 0x80)] } }

/-- A command word by its operation, with ADDR at row 4. -/
def word (op : Nat) : BitVec 128 := BitVec.ofNat 128 (op * 2 ^ 122 + 128)

/-- A rime request with no lanes. -/
def rimeReq (lc : Bool) (cmds : List (BitVec 128)) : RimeReq :=
  { bank := 8, slot := some 5, ctx := 7, cell := 0, desc := 0, cmds := cmds, lc := lc, deadline := 0, arrival := 0 }

/-- Eight banks of channel 0 compute, and a ninth has a request. -/
def full : State :=
  rimed ((List.range 8).map (fun i => { bank := i, segment := some 5 }) ++
    [{ bank := 8, current := some (rimeReq true []), refreshed := 1000000000 }])

/-- A live module with one region of some kind and hint at page 4,096 and some tier state. -/
def tiered (kind hint : Nat) (t : TierState) (s : State := live) : State :=
  { s with
    bay := { s.bay with regions := [{ base := 4096, pages := 16, kind := kind, hint := hint, groups := 1, bay := 0 }] }
    tier := t }

/-- A live module with a health state. -/
def healthy (h : HealthState) : State := { live with health := h }

/-- The hypotheses of StepKeepsStoresWf can be met. -/
theorem witness_StepKeepsStoresWf :
    (∃ (s : State) (t : State), storesWf s ∧ Machine.step s = .next t) :=
  ⟨State.reset, _, by unfold storesWf; decide +kernel, rfl⟩

/-- The hypotheses of StepKeepsTierMapOrder can be met. -/
theorem witness_StepKeepsTierMapOrder :
    (∃ (s : State) (t : State), tierMapWf s ∧ Machine.step s = .next t) :=
  ⟨State.reset, _, by unfold tierMapWf; decide +kernel, rfl⟩

/-- The hypotheses of TimeRows can be met. -/
theorem witness_TimeRows :
    (∃ (s : State), s.time.ptmEnabled = true ∧ s.link.up = true) ∧
    (∃ (s : State) (h : Nat), s.time.ptmEnabled = true ∧ s.link.up = true) ∧
    (∃ (s : State) (r : Nat), s.time.ptmEnabled = true ∧ s.time.ptmRequestAt = some r) ∧
    (∃ (s : State) (n : Nat) (r : Nat), s.time.stepDue = some (n, r) ∧ s.adm.queries = [] ∧ s.time.dtb ≤ r + 1000000000) ∧
    (∃ (s : State), s.adm.queries ≠ []) ∧
    (∃ (s : State) (n : Nat) (r : Nat), s.time.stepDue = some (n, r) ∧ (s.adm.queries ≠ [] ∨ r + 1000000000 < s.time.dtb)) ∧
    (∃ (s : State) (n : Nat) (r : Nat), s.time.stepDue = some (n, r) ∧ s.adm.queries = [] ∧ s.time.dtb ≤ r + 1000000000) ∧
    (∃ (s : State) (on : Bool), s.link.up = true) :=
  ⟨⟨{ live with time := { live.time with ptmEnabled := true } }, by decide +kernel⟩,
   ⟨{ live with time := { live.time with ptmEnabled := true } }, 5000, by decide +kernel⟩,
   ⟨{ live with time := { live.time with ptmEnabled := true, ptmRequestAt := some 7 } }, 7, by decide +kernel⟩,
   ⟨{ live with time := { live.time with stepDue := some (2000000, 0) } }, 2000000, 0, by decide +kernel⟩,
   ⟨(querying query), by decide +kernel⟩,
   ⟨{ live with time := { live.time with stepDue := some (2000000, 0) }, adm := { live.adm with queries := [query] } }, 2000000, 0, by decide +kernel, (by exact Or.inl (by decide +kernel))⟩,
   ⟨{ live with time := { live.time with stepDue := some (2000000, 0) } }, 2000000, 0, by decide +kernel⟩,
   ⟨live, false, by decide +kernel⟩⟩

/-- The hypotheses of DtbNeverDecreases can be met. -/
theorem witness_DtbNeverDecreases :
    (∃ (s : State) (t : State), Machine.step s = .next t) ∧
    (∃ (s : State) (straps : Nat), s.pins.auxGood = false) :=
  ⟨⟨State.reset, _, rfl⟩,
   ⟨{ State.reset with pins := { auxGood := false } }, 5, by decide +kernel⟩⟩

/-- The hypotheses of EmptyQueueTicks can be met. -/
theorem witness_EmptyQueueTicks :
    (∃ (s : State), (s.pending = [] ∧ s.pins.poweringDown = false) ∧ (∀ cid bs, s.sec.staging ≠ .verifying cid bs)) ∧
    (∃ (s : State) (cid : Nat) (bs : Bytes), s.pending = [] ∧ s.pins.poweringDown = false ∧ s.sec.staging = .verifying cid bs) :=
  ⟨⟨live, by decide +kernel, (by intro c b h; exact Staging.noConfusion h)⟩,
   ⟨{ live with sec := { live.sec with staging := .verifying 9 [1] } }, 9, ([1]), by decide +kernel⟩⟩

/-- The hypotheses of DoorbellRows can be met. -/
theorem witness_DoorbellRows :
    (∃ (s : State) (fn : Nat) (q : Nat) (v : Word32) (p : QPair), linkServes s ∧ pairOpen s fn q p ∧ q ≠ adminQ ∧ v.toNat % 65536 < p.q.sqDepth) ∧
    (∃ (s : State) (fn : Nat) (q : Nat) (v : Word32) (p : QPair), linkServes s ∧ pairOpen s fn q p ∧ q ≠ adminQ ∧ v.toNat % 65536 < p.q.cqDepth) :=
  ⟨⟨(io []), 0, 3, 15, (pair []), by unfold linkServes pairOpen; decide +kernel⟩,
   ⟨(io []), 0, 3, 15, (pair []), by unfold linkServes pairOpen; decide +kernel⟩⟩

/-- The hypotheses of DroppedDoorbells can be met. -/
theorem witness_DroppedDoorbells :
    (∃ (s : State) (fn : Nat) (q : Nat) (v : Word32), linkServes s ∧ (∀ p, pairOf s q = some p → p.bay = fn ∧ (p.stopped = true ∨ p.deleting ≠ none ∨ p.q.sqDepth ≤ v.toNat % 65536))) :=
  ⟨(io []), 0, 3, 16, by unfold linkServes; decide +kernel, (by intro p h; have e : p = pair [] := (Option.some.inj (h.symm.trans (by decide +kernel : pairOf (io []) 3 = some (pair [])))); subst e; decide +kernel)⟩

/-- The hypotheses of AdminQueueRows can be met. -/
theorem witness_AdminQueueRows :
    (∃ (s : State) (v : Word32), linkServes s ∧ flag s.queues.adminCfg 63 = true ∧ v.toNat % 65536 < s.queues.admin.sqDepth) ∧
    (∃ (s : State) (v : Word32), linkServes s ∧ flag s.queues.adminCfg 63 = true ∧ v.toNat % 65536 < s.queues.admin.cqDepth) ∧
    (∃ (s : State) (a : Word64) (b : Word64) (cfg : Word64), s.link.up = true ∧ flag s.queues.adminCfg 63 = false) ∧
    (∃ (s : State) (a : Word64) (b : Word64) (cfg : Word64), flag s.queues.adminCfg 63 = true) ∧
    (∃ (s : State), s.link.up = true) :=
  ⟨⟨live, 15, by unfold linkServes; decide +kernel⟩,
   ⟨live, 15, by unfold linkServes; decide +kernel⟩,
   ⟨{ live with queues := {} }, 4096, 8192, 0x00010001, by decide +kernel⟩,
   ⟨live, 0, 0, 0, by decide +kernel⟩,
   ⟨live, by decide +kernel⟩⟩

/-- The hypotheses of ConsumptionNeedsCompletionSlot can be met. -/
theorem witness_ConsumptionNeedsCompletionSlot :
    (∃ (s : State) (q : Nat) (sqe : BitVec 512) (u : Queue), linkServes s ∧ queueOf s q = some u ∧ queueFetches s q = true ∧ u.sqHead ≠ u.sqTail ∧ (q = adminQ → u.cmds.length < 64) ∧ cqSlotFree u = true ∧ earlyRefusal s q (consumedCmd u sqe s.time.dtb) = none) ∧
    (∃ (s : State) (q : Nat) (sqe : BitVec 512) (u : Queue), queueOf s q = some u ∧ cqSlotFree u = false) :=
  ⟨⟨{ live with queues := { live.queues with admin := { sqDepth := 16, cqDepth := 16, sqTail := 1 } } }, adminQ, 0x81, { sqDepth := 16, cqDepth := 16, sqTail := 1 }, by unfold linkServes; decide +kernel⟩,
   ⟨{ live with queues := { live.queues with admin := { sqDepth := 2, cqDepth := 2, cqTail := 1, sqTail := 1 } } }, adminQ, 0x81, { sqDepth := 2, cqDepth := 2, cqTail := 1, sqTail := 1 }, by decide +kernel⟩⟩

/-- The hypotheses of CompletionPostsOneEntry can be met. -/
theorem witness_CompletionPostsOneEntry :
    (∃ (s : State) (q : Nat) (c : Cmd) (status : Nat) (result : Nat) (nacc : Nat) (ndiff : Nat) (u : Queue), queueOf s q = some u ∧ queueWrites s q = true ∧ s.link.degraded = false) ∧
    (∃ (s : State) (q : Nat) (c : Cmd) (status : Nat) (result : Nat) (nacc : Nat) (ndiff : Nat) (u : Queue), queueOf s q = some u ∧ s.link.degraded = true) :=
  ⟨⟨(io [cmd 9 6]), 3, (cmd 9 6), 0, 5, 0, 0, ((pair [cmd 9 6]).q), by decide +kernel⟩,
   ⟨{ io [cmd 9 6] with link := { live.link with degraded := true } }, 3, (cmd 9 6), 0, 5, 0, 0, ((pair [cmd 9 6]).q), by decide +kernel⟩⟩

/-- The hypotheses of QueueEventRows can be met. -/
theorem witness_QueueEventRows :
    (∃ (s : State) (q : Nat) (u : Queue), queueOf s q = some u ∧ u.intEn = true ∧ 0 < u.uncovered) ∧
    (∃ (s : State) (q : Nat) (cid : Nat) (p : QPair), q ≠ adminQ ∧ pairOf s q = some p ∧ entryDue s q p.q = true ∧ cqSlotFree p.q = true ∧ (∀ d ∈ p.q.cmds, d.seq ≠ p.q.consumed)) ∧
    (∃ (s : State) (q : Nat) (cid : Nat) (u : Queue) (c : Cmd), queueOf s q = some u ∧ nextUndecided u = some c ∧ c.cid = cid ∧ queueWrites s q = true ∧ s.link.degraded = false) :=
  ⟨⟨{ live with queues := { live.queues with admin := { sqDepth := 16, cqDepth := 16, intEn := true, uncovered := 1 } } }, adminQ, { sqDepth := 16, cqDepth := 16, intEn := true, uncovered := 1 }, by decide +kernel⟩,
   ⟨{ io [] with queues := { live.queues with pairs := [{ pair [] with q := { (pair []).q with sqTail := 1 } }] } }, 3, 0, { pair [] with q := { (pair []).q with sqTail := 1 } }, by decide +kernel⟩,
   ⟨(io [cmd 9 6]), 3, 9, ((pair [cmd 9 6]).q), (cmd 9 6), by decide +kernel⟩⟩

/-- The hypotheses of BatchCompletion can be met. -/
theorem witness_BatchCompletion :
    (∃ (s : State) (q : Nat) (cid : Nat) (p : QPair) (c : Cmd), (q ≠ adminQ ∧ pairOf s q = some p ∧ runningCmd s q cid = some c ∧ 1 ≤ sqeOpcode c.sqe ∧ sqeOpcode c.sqe ≤ 4 ∧ batchOver s q cid = true ∧ s.link.degraded = false) ∧ (∀ x, ctxAt s p.ctx = some x → x.reclaimed = false)) :=
  ⟨(io [ran 9 1]), 3, 9, (pair [ran 9 1]), (ran 9 1), by decide +kernel, (by intro x h; have e : x = { num := 7, bay := 0, progress := 0 } := (Option.some.inj (h.symm.trans (by decide +kernel : ctxAt (io [ran 9 1]) (pair [ran 9 1]).ctx = some { num := 7, bay := 0, progress := 0 }))); subst e; rfl)⟩

/-- The hypotheses of QueuePairRows can be met. -/
theorem witness_QueuePairRows :
    (∃ (s : State) (cid : Nat) (c : Cmd), (adminTakes s cid 0x82 c ∧ ((newPair c.sqe).lc && refitHolds s 0x2000 1) = false ∧ ((newPair c.sqe).bay == 0 && refitHolds s 0x3000 0) = false ∧ bayReclaiming s (newPair c.sqe).bay = false ∧ qpFieldsOk c.sqe = true ∧ pairOf s (newPair c.sqe).id = none ∧ fnEnabled s (newPair c.sqe).bay = true ∧ (s.queues.pairs.filter (fun x => x.bay == (newPair c.sqe).bay)).length < (bayAt s (newPair c.sqe).bay).qpairs) ∧ (∀ x, ctxAt s (newPair c.sqe).ctx = some x → x.bay = (newPair c.sqe).bay ∧ x.ending = false) ∧ liftsFloor s (addPair s (newPair c.sqe)) = false) ∧
    (∃ (s : State) (cid : Nat) (c : Cmd) (p : QPair), adminTakes s cid 0x83 c ∧ pairOf s (field c.sqe 64 12) = some p ∧ p.deleting = none) ∧
    (∃ (s : State) (qp : Nat) (cid : Nat) (p : QPair), pairOf s qp = some p ∧ p.q.cmds = [] ∧ p.deleting = some cid ∧ (∀ d ∈ s.queues.deferred, d.q ≠ qp) ∧ s.queues.pairs.any (fun x => x.id != qp && x.ctx == p.ctx) = true) :=
  ⟨⟨(adm (cmd 9 (0x82 + 9 * 2 ^ 64 + 8 * 2 ^ 80 + 16 * 2 ^ 112 + 15 * 2 ^ 128 + 15 * 2 ^ 144))), 9, (cmd 9 (0x82 + 9 * 2 ^ 64 + 8 * 2 ^ 80 + 16 * 2 ^ 112 + 15 * 2 ^ 128 + 15 * 2 ^ 144)), by unfold adminTakes; decide +kernel, (by intro x h; simp [ctxAt, adm, live, State.reset] at h), (by exact liftsFloor_of_same (congrArg Config.powerFloorLc (by decide +kernel)))⟩,
   ⟨(adm (cmd 9 (0x83 + 3 * 2 ^ 64)) (io [])), 9, (cmd 9 (0x83 + 3 * 2 ^ 64)), (pair []), by unfold adminTakes; decide +kernel⟩,
   ⟨{ io [] with queues := { live.queues with pairs := [{ pair [] with deleting := some 9 }, { pair [] with id := 4 }] } }, 3, 9, { pair [] with deleting := some 9 }, by decide +kernel⟩⟩

/-- The hypotheses of LinkRows can be met. -/
theorem witness_LinkRows :
    (∃ (s : State) (cxl : Bool) (width : Nat) (rate : Nat) (flit : Bool), s.pins.mainOn = true ∧ s.pins.perstN = true) ∧
    (∃ (s : State), s.link.up = true) ∧
    (∃ (s : State) (rate : Nat), s.pins.mainOn = true ∧ s.pins.perstN = true ∧ (rate = 64 ∨ rate = 32 ∨ rate = 16)) ∧
    (∃ (s : State) (stream : Nat), s.link.up = true ∧ stream < 2) :=
  ⟨⟨live, true, 8, 64, true, by decide +kernel⟩,
   ⟨live, by decide +kernel⟩,
   ⟨live, 16, by decide +kernel⟩,
   ⟨live, 1, by decide +kernel⟩⟩

/-- The hypotheses of FunctionResetRows can be met. -/
theorem witness_FunctionResetRows :
    (∃ (s : State) (fn : Nat), 1 ≤ fn ∧ fn < 64 ∧ s.link.vfEnable = true ∧ s.link.up = true) ∧
    (∃ (s : State), s.link.up = true) ∧
    (∃ (s : State), s.link.up = true) ∧
    (∃ (s : State), s.link.up = true ∧ s.link.vfEnable = true) ∧
    (∃ (s : State), s.link.up = true) :=
  ⟨⟨live, 63, by decide +kernel⟩,
   ⟨live, by decide +kernel⟩,
   ⟨live, by decide +kernel⟩,
   ⟨live, by decide +kernel⟩,
   ⟨live, by decide +kernel⟩⟩

/-- The hypotheses of WindowControlRows can be met. -/
theorem witness_WindowControlRows :
    (∃ (s : State) (on : Bool), s.link.up = true ∧ (on = true → s.link.degraded = false)) ∧
    (∃ (s : State) (on : Bool), s.link.up = true ∧ (on = true → s.link.degraded = false ∧ s.link.flit256 = true)) ∧
    (∃ (s : State) (n : Nat) (base : Nat) (size : Nat) (skip : Nat) (d : HdmDecoder), lookupKey s.link.hdm n = some d ∧ n < 4 ∧ s.link.up = true ∧ s.link.flit256 = true ∧ d.committed = false ∧ base % 2 ^ 28 = 0 ∧ size % 2 ^ 28 = 0 ∧ skip % 2 ^ 28 = 0 ∧ 0 < size ∧ skip + size ≤ s.sec.order.dpaSpan) ∧
    (∃ (s : State) (n : Nat) (base : Nat) (size : Nat) (skip : Nat) (d : HdmDecoder), lookupKey s.link.hdm n = some d ∧ d.committed = true ∧ size ≠ 0) ∧
    (∃ (s : State) (n : Nat) (base : Nat) (skip : Nat) (d : HdmDecoder), lookupKey s.link.hdm n = some d ∧ d.committed = true ∧ s.link.up = true) ∧
    (∃ (s : State) (line : Nat), line / 64 * 64 ∈ s.link.snoopFilter) :=
  ⟨⟨live, true, by decide +kernel⟩,
   ⟨live, true, by decide +kernel⟩,
   ⟨live, 3, (2 ^ 28), (2 ^ 28), 0, {}, by decide +kernel⟩,
   ⟨{ live with link := { live.link with hdm := [(0, { committed := true })] } }, 0, 0, (2 ^ 28), 0, { committed := true }, by decide +kernel⟩,
   ⟨{ live with link := { live.link with hdm := [(0, { base := 2 ^ 28, size := 2 ^ 28, committed := true })] } }, 0, 0, 0, { base := 2 ^ 28, size := 2 ^ 28, committed := true }, by decide +kernel⟩,
   ⟨{ live with link := { live.link with snoopFilter := [128] } }, 130, by decide +kernel⟩⟩

/-- The hypotheses of StagingRows can be met. -/
theorem witness_StagingRows :
    (∃ (s : State) (m : Master), masterReaches s m = true ∧ dictServes s = true ∧ s.dict.stage.lock = none) ∧
    (∃ (s : State) (m : Master), masterReaches s m = true ∧ dictServes s = true ∧ s.dict.stage.lock = some m ∧ raiseActive s = false) ∧
    (∃ (s : State) (m : Master) (i : Nat) (j : Nat) (v : Bytes) (o : Obj), masterReaches s m = true ∧ dictServes s = true ∧ s.dict.stage.lock = some m ∧ raiseActive s = false ∧ objAt i j = some o ∧ o.right = .rws ∧ (m = .host → v.length = o.size) ∧ (putStaged s.dict.stage.frame (i, j, v.length, leNat v)).length ≤ 64 ∧ frameBytes (putStaged s.dict.stage.frame (i, j, v.length, leNat v)) ≤ 8192) ∧
    (∃ (s : State) (m : Master), masterReaches s m = true ∧ dictServes s = true ∧ s.dict.stage.lock = some m ∧ raiseActive s = false) ∧
    (∃ (s : State) (m : Master), masterReaches s m = true ∧ dictServes s = true ∧ s.dict.stage.lock = some m ∧ raiseActive s = false ∧ s.dict.stage.fit ≠ .running) ∧
    (∃ (s : State), s.dict.stage.fit = .running) ∧
    (∃ (s : State) (m : Master), s.dict.stage.lock = some m ∧ raiseActive s = false) :=
  ⟨⟨live, .host, by decide +kernel⟩,
   ⟨(staged { lock := some .sideband }), .sideband, by decide +kernel⟩,
   ⟨(staged { lock := some .host }), .host, 0x2000, 1, ([0, 4]), (⟨2, .rws, true⟩), by decide +kernel⟩,
   ⟨(staged { lock := some .sideband }), .sideband, by decide +kernel⟩,
   ⟨(staged { lock := some .sideband }), .sideband, by decide +kernel⟩,
   ⟨(staged { lock := some .host, fit := .running }), by decide +kernel⟩,
   ⟨(staged { lock := some .sideband }), .sideband, by decide +kernel⟩⟩

/-- The hypotheses of StagingNeedsLock can be met. -/
theorem witness_StagingNeedsLock :
    (∃ (s : State) (m : Master), masterReaches s m = true ∧ dictServes s = true ∧ s.dict.stage.lock ≠ some m) :=
  ⟨(staged { lock := some .sideband }), .host, by decide +kernel⟩

/-- The hypotheses of RaiseRows can be met. -/
theorem witness_RaiseRows :
    (∃ (s : State) (m : Master), masterReaches s m = true ∧ dictServes s = true ∧ s.dict.stage.lock = some m ∧ raiseActive s = false ∧ s.dict.stage.fit = .passed) ∧
    (∃ (s : State) (m : Master) (r : Word64), masterReaches s m = true ∧ dictServes s = true ∧ s.dict.stage.lock = some m ∧ raiseActive s = false ∧ s.dict.stage.fit = .passed ∧ (writeStart s m).time.dtb + 2000000 ≤ r.toNat ∧ r.toNat ≤ (writeStart s m).time.dtb + 86400000000000) ∧
    (∃ (s : State) (m : Master) (l : Word64), masterReaches s m = true ∧ dictServes s = true ∧ s.dict.stage.lock = some m ∧ raiseActive s = false ∧ s.dict.stage.fit = .passed ∧ 1000000 ≤ l.toNat ∧ l.toNat ≤ 60000000000) ∧
    (∃ (s : State) (m : Master), masterReaches s m = true ∧ dictServes s = true ∧ s.dict.stage.lock = some m ∧ s.dict.stage.raise = .pending) ∧
    (∃ (s : State), s.dict.stage.raise = .pending ∧ s.health.fatal = .none) ∧
    (∃ (s : State), s.dict.stage.raise = .refit ∧ s.dict.stage.refitOk = true ∧ s.health.fatal = .none ∧ s.dict.stage.mode = some .immediate) ∧
    (∃ (s : State) (l : Nat), s.dict.stage.raise = .refit ∧ s.health.fatal = .none ∧ s.dict.stage.mode = some (.atIdle l)) :=
  ⟨⟨(staged { lock := some .host, fit := .passed }), .host, by decide +kernel⟩,
   ⟨(staged { lock := some .host, fit := .passed }), .host, 1002000000, by decide +kernel⟩,
   ⟨(staged { lock := some .host, fit := .passed }), .host, 60000000000, by decide +kernel⟩,
   ⟨(staged { lock := some .host, raise := .pending }), .host, by decide +kernel⟩,
   ⟨(staged { lock := some .host, raise := .pending }), by decide +kernel⟩,
   ⟨(staged { lock := some .host, raise := .refit, refitOk := true, mode := some .immediate }), by decide +kernel⟩,
   ⟨(staged { lock := some .host, raise := .refit, mode := some (.atIdle 1000000) }), 1000000, by decide +kernel⟩⟩

/-- The hypotheses of DictCommandRows can be met. -/
theorem witness_DictCommandRows :
    (∃ (s : State) (cid : Nat) (c : Cmd), adminTakes s cid 0x8C c ∧ (readObject s .host (cmdObject c) (cmdSub c)).1 = stOk ∧ (readObject s .host (cmdObject c) (cmdSub c)).2.length ≤ cmdBufLen c) ∧
    (∃ (s : State) (cid : Nat) (v : Bytes) (c : Cmd), adminTakes s cid 0x8D c ∧ cmdBufLen c ≤ v.length) ∧
    (∃ (s : State) (cid : Nat) (c : Cmd), takeCmd s adminQ cid 0x8C = some c ∧ adminServes s c = true ∧ sqeValid c.sqe = true ∧ s.pins.mainOn = true ∧ (domainAt s 0).state = .retention) ∧
    (∃ (s : State) (cid : Nat) (v : Bytes) (c : Cmd) (row : Instr), row ∈ [Instr.dictRead cid, .dictWrite cid v] ∧ takeCmd s adminQ cid (if row = .dictRead cid then 0x8C else 0x8D) = some c ∧ s.pins.mainOn = true ∧ (domainAt s 0).state = .off) :=
  ⟨⟨(adm (cmd 9 (0x8C + 0x2000 * 2 ^ 64 + 1 * 2 ^ 80 + 2 * 2 ^ 88))), 9, (cmd 9 (0x8C + 0x2000 * 2 ^ 64 + 1 * 2 ^ 80 + 2 * 2 ^ 88)), by unfold adminTakes; decide +kernel⟩,
   ⟨(adm (cmd 9 (0x8D + 0x2000 * 2 ^ 64 + 1 * 2 ^ 80 + 2 * 2 ^ 88))), 9, ([0, 4]), (cmd 9 (0x8D + 0x2000 * 2 ^ 64 + 1 * 2 ^ 80 + 2 * 2 ^ 88)), by unfold adminTakes; decide +kernel⟩,
   ⟨(adm (cmd 9 (0x8C + 0x2000 * 2 ^ 64 + 1 * 2 ^ 80 + 2 * 2 ^ 88)) { live with power := { live.power with domains := live.power.domains.map (fun d => if d.num == 0 then { d with state := .retention } else d) } }), 9, (cmd 9 (0x8C + 0x2000 * 2 ^ 64 + 1 * 2 ^ 80 + 2 * 2 ^ 88)), by decide +kernel⟩,
   ⟨(adm (cmd 9 (0x8C + 0x2000 * 2 ^ 64 + 1 * 2 ^ 80 + 2 * 2 ^ 88)) { live with power := { live.power with domains := live.power.domains.map (fun d => if d.num == 0 then { d with state := .off } else d) } }), 9, ([0, 4]), (cmd 9 (0x8C + 0x2000 * 2 ^ 64 + 1 * 2 ^ 80 + 2 * 2 ^ 88)), (.dictRead 9), by decide +kernel⟩⟩

/-- The hypotheses of ObjectRows can be met. -/
theorem witness_ObjectRows :
    (∃ (s : State) (m : Master), masterReaches s m = true ∧ dictServes s = true ∧ s.dict.secLock = false) ∧
    (∃ (s : State) (m : Master) (e : Word32), masterReaches s m = true ∧ dictServes s = true) ∧
    (∃ (s : State) (m : Master), masterReaches s m = true ∧ dictServes s = true) ∧
    (∃ (s : State) (m : Master) (v : Bytes), masterReaches s m = true ∧ dictServes s = true ∧ s.dict.secLock = false ∧ v.length = 40 ∧ leAt v 32 1 = 0xFF ∧ leAt v 33 7 = 0 ∧ s.sec.evidence.length < 4) :=
  ⟨⟨live, .host, by decide +kernel⟩,
   ⟨live, .host, 4, by decide +kernel⟩,
   ⟨live, .sideband, by decide +kernel⟩,
   ⟨live, .host, (List.replicate 32 1 ++ [0xFF, 0, 0, 0, 0, 0, 0, 0]), by decide +kernel⟩⟩

/-- The hypotheses of SecLockRefusesWrites can be met. -/
theorem witness_SecLockRefusesWrites :
    (∃ (s : State) (m : Master), masterReaches s m = true ∧ dictServes s = true ∧ s.dict.secLock = true) :=
  ⟨{ live with dict := { live.dict with secLock := true } }, .host, by decide +kernel⟩

/-- The hypotheses of ReceiveRows can be met. -/
theorem witness_ReceiveRows :
    (∃ (s : State) (v : Word32), fwRxServes s = true ∧ s.pins.auxGood = true ∧ s.dict.secLock = false) ∧
    (∃ (s : State) (bs : Bytes) (data : Bytes) (n : Nat), fwRxServes s = true ∧ s.pins.auxGood = true ∧ s.dict.secLock = false ∧ s.sec.staging = .fwRx n bs) ∧
    (∃ (s : State) (bs : Bytes) (n : Nat), fwRxServes s = true ∧ s.pins.auxGood = true ∧ s.dict.secLock = false ∧ s.sec.staging = .fwRx n bs) ∧
    (∃ (s : State) (f : FwImage), fwRxServes s = true ∧ s.pins.auxGood = true ∧ s.dict.secLock = false ∧ s.sec.staging = .image f) ∧
    (∃ (s : State), fwRxServes s = true ∧ s.pins.auxGood = true ∧ s.dict.secLock = false) ∧
    (∃ (s : State) (v : Word32), (dictServes s || loaderServes s) = true ∧ s.pins.auxGood = true ∧ s.dict.secLock = false) ∧
    (∃ (s : State) (bs : Bytes) (data : Bytes) (n : Nat), (dictServes s || loaderServes s) = true ∧ s.pins.auxGood = true ∧ s.dict.secLock = false ∧ s.sec.staging = .cfgRx n bs) ∧
    (∃ (s : State) (bs : Bytes) (n : Nat), (dictServes s || loaderServes s) = true ∧ s.pins.auxGood = true ∧ s.dict.secLock = false ∧ s.sec.staging = .cfgRx n bs ∧ n ≤ bs.length) ∧
    (∃ (s : State), (dictServes s || loaderServes s) = true ∧ s.pins.auxGood = true ∧ s.dict.secLock = false) :=
  ⟨⟨{ live with sec := { bootState := 2 } }, 1024, by decide +kernel⟩,
   ⟨{ live with sec := { bootState := 2, staging := .fwRx 4 [1] } }, ([1]), ([2, 3, 4, 5]), 4, by decide +kernel⟩,
   ⟨{ live with sec := { bootState := 2, staging := .fwRx 4 [1] } }, ([1]), 4, by decide +kernel⟩,
   ⟨{ live with sec := { bootState := 2, staging := .image image } }, image, by decide +kernel⟩,
   ⟨{ live with sec := { bootState := 2 } }, by decide +kernel⟩,
   ⟨live, 1024, by decide +kernel⟩,
   ⟨{ live with sec := { live.sec with staging := .cfgRx 1 [1] } }, ([1]), ([2]), 1, by decide +kernel⟩,
   ⟨{ live with sec := { live.sec with staging := .cfgRx 1 [1] } }, ([1]), 1, by decide +kernel⟩,
   ⟨live, by decide +kernel⟩⟩

/-- The hypotheses of FirmwareCommandRows can be met. -/
theorem witness_FirmwareCommandRows :
    (∃ (s : State) (cid : Nat) (image : Bytes) (c : Cmd), adminTakes s cid 0x89 c ∧ transferring s = false ∧ field c.sqe 64 32 % 64 = 0 ∧ field c.sqe 64 32 ≤ image.length) ∧
    (∃ (s : State) (cid : Nat) (image : Bytes) (c : Cmd), adminTakes s cid 0x89 c ∧ transferring s = true ∧ field c.sqe 64 32 % 64 = 0) ∧
    (∃ (s : State) (cid : Nat) (image : Bytes) (c : Cmd), adminTakes s cid 0x89 c ∧ transferring s = false ∧ field c.sqe 64 32 % 64 = 0 ∧ image.length < field c.sqe 64 32) ∧
    (∃ (s : State) (cid : Nat) (c : Cmd) (f : FwImage), adminTakes s cid 0x8A c ∧ s.sec.staging = .image f ∧ s.sec.activated ≠ some f) ∧
    (∃ (s : State) (cid : Nat) (c : Cmd) (f : FwImage) (m : Media), adminTakes s cid 0x8A c ∧ s.sec.staging = .image f ∧ s.sec.activated ≠ some f) :=
  ⟨⟨(adm (cmd 9 (0x89 + 64 * 2 ^ 64))), 9, ((List.replicate 64 1)), (cmd 9 (0x89 + 64 * 2 ^ 64)), by unfold adminTakes; decide +kernel⟩,
   ⟨{ adm (cmd 9 (0x89 + 64 * 2 ^ 64)) with sec := { live.sec with staging := .verifying 5 [] } }, 9, ([]), (cmd 9 (0x89 + 64 * 2 ^ 64)), by unfold adminTakes; decide +kernel⟩,
   ⟨(adm (cmd 9 (0x89 + 64 * 2 ^ 64))), 9, ([]), (cmd 9 (0x89 + 64 * 2 ^ 64)), by unfold adminTakes; decide +kernel⟩,
   ⟨(adm (cmd 9 0x8A) { live with sec := { live.sec with staging := .image image } }), 9, (cmd 9 0x8A), image, by unfold adminTakes; decide +kernel⟩,
   ⟨(adm (cmd 9 0x8A) { live with sec := { live.sec with staging := .image image } }), 9, (cmd 9 0x8A), image, .uncorrectable, by unfold adminTakes; decide +kernel⟩⟩

/-- The hypotheses of RollbackRefused can be met. -/
theorem witness_RollbackRefused :
    (∃ (s : State) (t : State) (f : FwImage), Machine.step s = .next t ∧ t.sec.staging = .image f) ∧
    (∃ (s : State) (bs : Bytes), imageValid s (BitVec.ofNat 4 (keysRevoked s)) bs = false) :=
  ⟨⟨{ live with sec := { live.sec with staging := .image image } }, _, image, (by rfl), (by rfl)⟩,
   ⟨live, ([]), by decide +kernel⟩⟩

/-- The hypotheses of MailboxRows can be met. -/
theorem witness_MailboxRows :
    (∃ (s : State), s.link.up = true ∧ ((mgmtServes s && !isFatal s) || loaderServes s) = true) ∧
    (∃ (s : State), s.link.up = true ∧ ((mgmtServes s && !isFatal s) || loaderServes s) = true) ∧
    (∃ (s : State) (page : Nat) (offset : Nat) (len : Nat), s.link.up = true ∧ ((mgmtServes s && !isFatal s) || loaderServes s) = true ∧ page ∈ mbLogs s) ∧
    (∃ (s : State) (offset : Nat) (data : Bytes), s.link.up = true ∧ ((mgmtServes s && !isFatal s) || loaderServes s) = true ∧ (loaderServes s = true → loaderTakesImage s = true) ∧ transferring s = false ∧ 128 * offset + data.length ≤ stagingBytes) ∧
    (∃ (s : State) (offset : Nat) (data : Bytes) (bs : Bytes), s.link.up = true ∧ ((mgmtServes s && !isFatal s) || loaderServes s) = true ∧ (loaderServes s = true → loaderTakesImage s = true) ∧ s.sec.staging = .mailbox bs ∧ 128 * offset + data.length ≤ stagingBytes) ∧
    (∃ (s : State) (f : FwImage), s.link.up = true ∧ ((mgmtServes s && !isFatal s) || loaderServes s) = true ∧ loaderServes s = false ∧ s.sec.staging = .image f ∧ s.sec.activated ≠ some f) ∧
    (∃ (s : State) (m0 : Media) (m1 : Media), s.link.up = true ∧ ((mgmtServes s && !isFatal s) || loaderServes s) = true) ∧
    (∃ (s : State) (offset : Nat) (data : Bytes) (bs : Bytes), s.link.up = true ∧ ((mgmtServes s && !isFatal s) || loaderServes s) = true ∧ s.sec.staging = .cfgMailbox bs ∧ data.length ≤ 32768 ∧ 128 * offset + data.length ≤ stagingBytes) :=
  ⟨⟨live, by decide +kernel⟩,
   ⟨live, by decide +kernel⟩,
   ⟨live, 1, 0, 64, by decide +kernel⟩,
   ⟨live, 0, ([1]), by decide +kernel⟩,
   ⟨{ live with sec := { live.sec with staging := .mailbox [1] } }, 1, ([2]), ([1]), by decide +kernel⟩,
   ⟨{ live with sec := { live.sec with staging := .image image } }, image, by decide +kernel⟩,
   ⟨live, .ok, .uncorrectable, by decide +kernel⟩,
   ⟨{ live with sec := { live.sec with staging := .cfgMailbox [1] } }, 1, ([2]), ([1]), by decide +kernel⟩⟩

/-- The hypotheses of MgmtReadyRow can be met. -/
theorem witness_MgmtReadyRow :
    (∃ (s : State) (f : FwImage), s.pins.mainOn = true ∧ s.sec.mgmtReady = false ∧ isFatal s = false ∧ ((domainAt s 0).state = .on ∨ (domainAt s 0).state = .waking) ∧ s.sec.booted = some f) ∧
    (∃ (s : State) (code : Nat), s.pins.mainOn = true ∧ s.sec.mgmtReady = false ∧ isFatal s = false ∧ ((domainAt s 0).state = .on ∨ (domainAt s 0).state = .waking) ∧ s.sec.booted = none ∧ recoveryOf s = some code) ∧
    (∃ (s : State) (rev : BitVec 4) (f : FwImage) (g : FwImage), chooseImage s rev = some f ∧ (s.sec.copy0 = some g ∨ s.sec.copy1 = some g) ∧ slotOk rev g.keySlot = true) :=
  ⟨⟨{ live with sec := { live.sec with mgmtReady := false } }, image, by decide +kernel⟩,
   ⟨{ live with sec := { arb := none } }, 3, by decide +kernel⟩,
   ⟨live, 0, { version := 0x30000, svn := 0, floor := 0, digest := 0 }, { version := 0x30000, svn := 0, floor := 0, digest := 0 }, by decide +kernel⟩⟩

/-- The hypotheses of SpdmRows can be met. -/
theorem witness_SpdmRows :
    (∃ (s : State), s.link.up = true) ∧
    (∃ (s : State) (offset : Nat) (len : Nat) (r : CfgRecord), s.link.up = true ∧ s.sec.inForce.find? (fun x => x.type == 2) = some r) ∧
    (∃ (s : State) (nonce : BitVec 256), s.link.up = true ∧ s.link.negotiated = true) ∧
    (∃ (s : State) (nonce : BitVec 256), s.link.up = true ∧ s.link.negotiated = true) ∧
    (∃ (s : State) (v : Bytes), s.link.up = true ∧ leAt v 32 1 = 0xFF ∧ leAt v 33 7 = 0 ∧ s.sec.evidence.length < 4) ∧
    (∃ (s : State), s.link.up = true ∧ s.link.negotiated = true ∧ s.link.sessions.length < 2) ∧
    (∃ (s : State), s.link.up = true ∧ s.link.negotiated = true ∧ s.link.sessions.length = 2) :=
  ⟨⟨live, by decide +kernel⟩,
   ⟨{ live with sec := { live.sec with inForce := [{ type := 2, seq := 1, serial := 0, slot := 0, payload := [1, 2], signature := [], header := 0 }] } }, 0, 2, { type := 2, seq := 1, serial := 0, slot := 0, payload := [1, 2], signature := [], header := 0 }, by decide +kernel⟩,
   ⟨{ live with link := { live.link with negotiated := true } }, 1, by decide +kernel⟩,
   ⟨{ live with link := { live.link with negotiated := true } }, 1, by decide +kernel⟩,
   ⟨live, (List.replicate 32 1 ++ [0xFF, 0, 0, 0, 0, 0, 0, 0]), by decide +kernel⟩,
   ⟨{ live with link := { live.link with negotiated := true, sessions := [1] } }, by decide +kernel⟩,
   ⟨{ live with link := { live.link with negotiated := true, sessions := [1, 2] } }, by decide +kernel⟩⟩

/-- The hypotheses of EvidenceSignRow can be met. -/
theorem witness_EvidenceSignRow :
    (∃ (s : State) (r : EvidenceReq) (rest : List EvidenceReq), s.sec.evidence = r :: rest ∧ s.pins.mainOn = true) :=
  ⟨{ live with sec := { live.sec with evidence := [{ by_ := .host, nonce := 1, bay := none }] } }, { by_ := .host, nonce := 1, bay := none }, ([]), by decide +kernel⟩

/-- The hypotheses of IdeKeyRows can be met. -/
theorem witness_IdeKeyRows :
    (∃ (s : State) (session : Nat) (set : Nat) (dir : StreamDir) (key : BitVec 256), s.link.up = true ∧ session ∈ s.link.sessions ∧ set < 2 ∧ (s.link.ide.any (fun e => e.1 == dir)) = true ∧ (ideDir s dir).active ≠ some set) ∧
    (∃ (s : State) (session : Nat) (set : Nat) (dir : StreamDir), s.link.up = true ∧ session ∈ s.link.sessions ∧ set < 2 ∧ (s.link.ide.any (fun e => e.1 == dir)) = true ∧ (ideKey (ideDir s dir) set).isSome = true) ∧
    (∃ (s : State) (session : Nat) (set : Nat) (dir : StreamDir), s.link.up = true ∧ session ∈ s.link.sessions ∧ set < 2 ∧ (s.link.ide.any (fun e => e.1 == dir)) = true ∧ (ideDir s dir).active ≠ some set) ∧
    (∃ (s : State) (session : Nat) (set : Nat) (dir : StreamDir) (key : BitVec 256), s.link.up = true ∧ session ∈ s.link.sessions ∧ set < 2 ∧ (s.link.ide.any (fun e => e.1 == dir)) = true ∧ (ideDir s dir).active = some set) :=
  ⟨⟨{ live with link := { live.link with sessions := [1] } }, 1, 1, .cacheTx, 5, by decide +kernel⟩,
   ⟨{ live with link := { live.link with sessions := [1], ide := [(.ioRx, { key1 := some 5 })] } }, 1, 1, .ioRx, by decide +kernel⟩,
   ⟨{ live with link := { live.link with sessions := [1] } }, 1, 0, .cacheRx, by decide +kernel⟩,
   ⟨{ live with link := { live.link with sessions := [1], ide := [(.ioTx, { key0 := some 5, active := some 0 })] } }, 1, 0, .ioTx, 6, by decide +kernel⟩⟩

/-- The hypotheses of SidebandRequestRows can be met. -/
theorem witness_SidebandRequestRows :
    (∃ (s : State) (f : Frame), frameLost s = false ∧ lengthBad f = false ∧ typeBad f = false ∧ xdType f.header = 1 ∧ sbKey s = 0 ∧ xdRsvdOk f.header = true ∧ openRequest f = true) ∧
    (∃ (s : State) (f : Frame), frameLost s = false ∧ lengthBad f = false ∧ typeBad f = false ∧ xdType f.header = 1 ∧ sbKey s = 0 ∧ openRequest f = false) ∧
    (∃ (s : State) (f : Frame) (p : Peer) (l : BitVec 16), (xdType f.header = 3 ∧ peerAt s f.peer = some p ∧ p.cache.find? (fun c => c.1 == xdSeq f.header) = none ∧ p.last = some l ∧ 1 ≤ (xdSeq f.header - l).toNat ∧ (xdSeq f.header - l).toNat ≤ 32767 ∧ requestServed s f = true) ∧ authentic s f) ∧
    (∃ (s : State) (f : Frame) (p : Peer) (l : BitVec 16), (xdType f.header = 3 ∧ peerAt s f.peer = some p ∧ p.cache.find? (fun c => c.1 == xdSeq f.header) = none ∧ p.last = some l ∧ ((xdSeq f.header - l).toNat = 0 ∨ 32767 < (xdSeq f.header - l).toNat)) ∧ authentic s f) ∧
    (∃ (s : State) (f : Frame) (p : Peer) (h : BitVec 256) (v : Bytes), (xdType f.header = 3 ∧ peerAt s f.peer = some p ∧ p.cache.find? (fun c => c.1 == xdSeq f.header) = some (xdSeq f.header, h, v)) ∧ authentic s f) :=
  ⟨⟨live, { request 1 0 with header := BitVec.ofNat 256 (1 + 2 ^ 8 + 2 ^ 72 + 0x1000 * 2 ^ 80) }, by decide +kernel⟩,
   ⟨live, (request 1 0), by decide +kernel⟩,
   ⟨(keyed [{ addr := 77, last := some 0 }]), (request 3 1), { addr := 77, last := some 0 }, 0, by decide +kernel, (by exact ⟨by decide +kernel, by decide +kernel, by decide +kernel, by decide +kernel, rfl, by decide +kernel, by decide +kernel⟩)⟩,
   ⟨(keyed [{ addr := 77, last := some 0 }]), (request 3 32768), { addr := 77, last := some 0 }, 0, by decide +kernel, (by exact ⟨by decide +kernel, by decide +kernel, by decide +kernel, by decide +kernel, rfl, by decide +kernel, by decide +kernel⟩)⟩,
   ⟨(keyed [{ addr := 77, last := some 1, cache := [(1, 7, [])] }]), (request 3 1), { addr := 77, last := some 1, cache := [(1, 7, [])] }, 7, ([]), by decide +kernel, (by exact ⟨by decide +kernel, by decide +kernel, by decide +kernel, by decide +kernel, rfl, by decide +kernel, by decide +kernel⟩)⟩⟩

/-- The hypotheses of WrongTagIsDropped can be met. -/
theorem witness_WrongTagIsDropped :
    (∃ (s : State) (f : Frame), (frameLost s = false ∧ lengthBad f = false ∧ sbKey s ≠ 0) ∧ f.tag ≠ Config.kmacXsdp (sbKey s) f.header (xdValue f)) :=
  ⟨keyed, { request 3 1 with tag := (request 3 1).tag + 1 }, by decide +kernel, (by show (request 3 1).tag + 1 ≠ (request 3 1).tag; intro h; bv_omega)⟩

/-- The hypotheses of SidebandEventRows can be met. -/
theorem witness_SidebandEventRows :
    (∃ (s : State) (f : Frame), frameLost s = false ∧ lengthBad f = false ∧ typeBad f = false ∧ sbKey s = 0 ∧ xdType f.header = 6) ∧
    (∃ (s : State) (f : Frame), frameLost s = false ∧ lengthBad f = true) ∧
    (∃ (s : State) (f : Frame), frameLost s = false ∧ lengthBad f = false ∧ typeBad f = true ∧ sbKey s = 0) ∧
    (∃ (s : State) (e : PendingEvent), s.sb.events.find? (fun x => x.seq.toNat == e.seq.toNat) = some e ∧ mgmtAwake s = true ∧ e.attempts < 5) ∧
    (∃ (s : State) (e : PendingEvent), s.sb.events.find? (fun x => x.seq.toNat == e.seq.toNat) = some e ∧ mgmtAwake s = true ∧ 5 ≤ e.attempts) ∧
    (∃ (s : State) (b : Bool), s.pins.auxGood = true) ∧
    (∃ (s : State) (n : Nat), s.pins.auxGood = true ∧ n = leNat linkLocal) ∧
    (∃ (s : State) (a : Nat) (bs : Bytes), s.pins.auxGood = true) :=
  ⟨⟨live, (request 6 0), by decide +kernel⟩,
   ⟨live, { request 1 0 with len := 47 }, by decide +kernel⟩,
   ⟨live, (request 2 0), by decide +kernel⟩,
   ⟨{ live with sb := { live.sb with events := [{ seq := 0, code := 1, data := 0, attempts := 4, sentAt := 0 }] } }, { seq := 0, code := 1, data := 0, attempts := 4, sentAt := 0 }, by decide +kernel⟩,
   ⟨{ live with sb := { live.sb with events := [{ seq := 0, code := 1, data := 0, attempts := 5, sentAt := 0 }] } }, { seq := 0, code := 1, data := 0, attempts := 5, sentAt := 0 }, by decide +kernel⟩,
   ⟨live, true, by decide +kernel⟩,
   ⟨live, (leNat linkLocal), by decide +kernel, (by rfl)⟩,
   ⟨live, 5, ([1]), by decide +kernel⟩⟩

/-- The hypotheses of FatalRows can be met. -/
theorem witness_FatalRows :
    (∃ (s : State) (cause : Nat) (unit : Nat) (cxl : Bool), 1 ≤ cause ∧ cause ≤ 6 ∧ isFatal s = false ∧ s.pins.mainOn = true) ∧
    (∃ (s : State) (cause : Nat) (unit : Nat) (cxl : Bool), isFatal s = true) ∧
    (∃ (s : State), s.pins.perstN = true ∧ s.pins.mainOn = true ∧ s.health.fatal = .halted ∧ s.health.dumpState = 1) ∧
    (∃ (s : State), s.health.fatal = .halted ∧ s.health.dumpState ≠ 1) ∧
    (∃ (s : State), s.health.fatal = .halted ∧ s.health.dumpState = 1 ∧ s.pins.resetDue = false) ∧
    (∃ (s : State), s.health.fatal = .halted ∧ s.health.dumpState = 1 ∧ s.pins.resetDue = true) ∧
    (∃ (s : State) (f : FwImage) (d : Nat), s.sec.booted = some f ∧ f.code ≠ d ∧ (domainAt s 0).state = .on ∧ isFatal s = false ∧ s.pins.mainOn = true) ∧
    (∃ (s : State) (f : FwImage), isFatal s = false ∧ (domainAt s 0).state = .on ∧ s.sec.booted = some f ∧ s.sec.mgmtReady = true) :=
  ⟨⟨live, 6, 0, false, by decide +kernel⟩,
   ⟨{ live with health := { live.health with fatal := .service } }, 1, 0, true, by decide +kernel⟩,
   ⟨{ live with health := { live.health with fatal := .halted, dumpState := 1 } }, by decide +kernel⟩,
   ⟨{ live with health := { live.health with fatal := .halted } }, by decide +kernel⟩,
   ⟨{ live with health := { live.health with fatal := .halted, dumpState := 1 } }, by decide +kernel⟩,
   ⟨{ { live with health := { live.health with fatal := .halted, dumpState := 1 } } with pins := { live.pins with resetDue := true } }, by decide +kernel⟩,
   ⟨live, image, 2, by decide +kernel⟩,
   ⟨live, image, by decide +kernel⟩⟩

/-- The hypotheses of SelfTestRows can be met. -/
theorem witness_SelfTestRows :
    (∃ (s : State) (cid : Nat) (c : Cmd), adminTakes s cid 0x88 c ∧ cmdTest c = 1 ∧ s.health.selfTest = none) ∧
    (∃ (s : State) (cid : Nat) (c : Cmd), adminTakes s cid 0x88 c ∧ cmdTest c = 2 ∧ s.health.selfTest = none) ∧
    (∃ (s : State) (cid : Nat) (c : Cmd) (x : SelfTest), adminTakes s cid 0x88 c ∧ cmdTest c = 3 ∧ s.health.selfTest = some x ∧ x.stopCid = none) ∧
    (∃ (s : State) (fs : List (BitVec 512)) (items : Nat) (y : Nat) (x : SelfTest), s.health.selfTest = some x) ∧
    (∃ (s : State) (fs : List (BitVec 512)) (items : Nat) (y : Nat) (x : SelfTest) (c : Cmd), s.health.selfTest = some x ∧ runningCmd s adminQ x.cid = some c ∧ queueWrites s adminQ = true ∧ s.link.degraded = false) ∧
    (∃ (s : State) (fs : List (BitVec 512)) (items : Nat) (y : Nat) (k : Nat) (x : SelfTest) (d : Cmd), s.health.selfTest = some x ∧ x.stopCid = some k ∧ runningCmd s adminQ x.cid = none ∧ runningCmd s adminQ k = some d ∧ queueWrites s adminQ = true ∧ s.link.degraded = false) ∧
    (∃ (s : State) (fs : List (BitVec 512)) (items : Nat) (y : Nat) (k : Nat) (x : SelfTest) (c : Cmd) (d : Cmd), s.health.selfTest = some x ∧ x.stopCid = some k ∧ runningCmd s adminQ x.cid = some c ∧ runningCmd s adminQ k = some d ∧ k ≠ x.cid ∧ c.seq ≠ d.seq ∧ queueWrites s adminQ = true ∧ s.link.degraded = false ∧ s.queues.admin.cqTail + 1 < s.queues.admin.cqDepth) ∧
    (∃ (s : State) (cid : Nat) (c : Cmd), adminTakes s cid 0x88 c ∧ cmdTest c = 1 ∧ s.health.selfTest ≠ none) ∧
    (∃ (s : State) (cid : Nat) (c : Cmd), adminTakes s cid 0x88 c ∧ cmdTest c = 2 ∧ s.health.selfTest ≠ none) ∧
    (∃ (s : State) (cid : Nat) (c : Cmd) (x : SelfTest), adminTakes s cid 0x88 c ∧ cmdTest c = 3 ∧ s.health.selfTest = some x ∧ x.stopCid ≠ none) :=
  ⟨⟨(adm (cmd 9 (0x88 + 1 * 2 ^ 64))), 9, (cmd 9 (0x88 + 1 * 2 ^ 64)), by unfold adminTakes; decide +kernel⟩,
   ⟨(adm (cmd 9 (0x88 + 2 * 2 ^ 64))), 9, (cmd 9 (0x88 + 2 * 2 ^ 64)), by unfold adminTakes; decide +kernel⟩,
   ⟨(adm (cmd 9 (0x88 + 3 * 2 ^ 64)) { live with health := { live.health with selfTest := some { cid := 4, extended := true, start := 0 } } }), 9, (cmd 9 (0x88 + 3 * 2 ^ 64)), { cid := 4, extended := true, start := 0 }, by unfold adminTakes; decide +kernel⟩,
   ⟨{ live with health := { live.health with selfTest := some { cid := 4, extended := true, start := 0 } } }, ([]), 0, 0, { cid := 4, extended := true, start := 0 }, by decide +kernel⟩,
   ⟨{ { live with health := { live.health with selfTest := some { cid := 4, extended := true, start := 0 } } } with queues := { live.queues with admin := { live.queues.admin with cmds := [ran 4 0x88] } } }, ([]), 0, 0, { cid := 4, extended := true, start := 0 }, (ran 4 0x88), by decide +kernel⟩,
   ⟨{ { live with health := { live.health with selfTest := some { cid := 4, extended := true, start := 0, stopCid := some 6 } } } with queues := { live.queues with admin := { live.queues.admin with cmds := [ran 6 0x88] } } }, ([]), 0, 0, 6, { cid := 4, extended := true, start := 0, stopCid := some 6 }, (ran 6 0x88), by decide +kernel⟩,
   ⟨{ { live with health := { live.health with selfTest := some { cid := 4, extended := true, start := 0, stopCid := some 6 } } } with queues := { live.queues with admin := { live.queues.admin with cmds := [ran 4 0x88, { ran 6 0x88 with seq := 1 }] } } }, ([]), 0, 0, 6, { cid := 4, extended := true, start := 0, stopCid := some 6 }, (ran 4 0x88), { ran 6 0x88 with seq := 1 }, by decide +kernel⟩,
   ⟨(adm (cmd 9 (0x88 + 1 * 2 ^ 64)) { live with health := { live.health with selfTest := some { cid := 4, extended := true, start := 0 } } }), 9, (cmd 9 (0x88 + 1 * 2 ^ 64)), by unfold adminTakes; decide +kernel⟩,
   ⟨(adm (cmd 9 (0x88 + 2 * 2 ^ 64)) { live with health := { live.health with selfTest := some { cid := 4, extended := true, start := 0 } } }), 9, (cmd 9 (0x88 + 2 * 2 ^ 64)), by unfold adminTakes; decide +kernel⟩,
   ⟨(adm (cmd 9 (0x88 + 3 * 2 ^ 64)) { live with health := { live.health with selfTest := some { cid := 4, extended := true, start := 0, stopCid := some 6 } } }), 9, (cmd 9 (0x88 + 3 * 2 ^ 64)), { cid := 4, extended := true, start := 0, stopCid := some 6 }, by unfold adminTakes; decide +kernel⟩⟩

/-- The hypotheses of DomainRows can be met. -/
theorem witness_DomainRows :
    (∃ (s : State) (n : Nat), n < 196 ∧ supplied s n = true ∧ domainIdle s n = true ∧ (domainAt s n).latches = [] ∧ levelHeld s n = false ∧ (domainAt s n).state = .on ∧ (domainAt s n).due = 0 ∧ timerRet s n ≠ 0 ∧ 1 ≤ depthCap s n ∧ (∀ d ∈ dependents s n, (domainAt s d).state = .retention ∨ (domainAt s d).state = .off)) ∧
    (∃ (s : State) (n : Nat), n < 196 ∧ supplied s n = true ∧ domainIdle s n = true ∧ (domainAt s n).latches = [] ∧ levelHeld s n = false ∧ ((domainAt s n).state = .on ∨ (domainAt s n).state = .retention) ∧ timerOff s n ≠ 0 ∧ 2 ≤ depthCap s n ∧ offAllowed s n = true ∧ (domainAt s n).due ≤ 2 ∧ (∀ d ∈ dependents s n, (domainAt s d).state = .off)) ∧
    (∃ (s : State) (n : Nat), (n < 196 ∧ supplied s n = true ∧ domainIdle s n = true ∧ (domainAt s n).state = .on ∧ timerRet s n ≠ 0) ∧ ((domainAt s n).latches ≠ [] ∨ levelHeld s n = true)) ∧
    (∃ (s : State) (n : Nat), (domainAt s n).state = .entering 1 ∧ (domainAt s n).latches = [] ∧ (domainAt s n).edge = none) ∧
    (∃ (s : State) (a : Nat), a < 160 ∧ (domainAt s (arrayDomain a)).state = .entering 2 ∧ (domainAt s (arrayDomain a)).latches = [] ∧ (domainAt s (arrayDomain a)).edge = none) ∧
    (∃ (s : State) (n : Nat) (source : Nat), supplied s n = true ∧ n < 196 ∧ sourceWakes s source n = true ∧ ((domainAt s n).state = .off ∨ (domainAt s n).state = .retention)) ∧
    (∃ (s : State) (n : Nat), (domainAt s n).state = .waking ∧ (∀ m ∈ dependsOn n, (domainAt s m).state = .on) ∧ (n = 3 → (domainAt s n).fromOff = true → ∀ p, p < 16 → (domainAt s (lpcDomain p)).state = .on) ∧ supplied s n = true ∧ s.sec.pufOk = true) ∧
    (∃ (s : State) (i : Nat) (n : Nat) (d : Nat), lookupKey s.time.comparators i = some (n, d)) ∧
    (∃ (s : State), s.pins.mainOn = true ∧ (domainAt s 0).state = .on) ∧
    (∃ (s : State) (n : Nat), (domainAt s n).state = .on ∧ (domainAt s n).num = n ∧ supplied s n = true ∧ domainIdle s n = true ∧ (domainAt s n).idleSince = none ∧ (domainAt s n).due = 0) ∧
    (∃ (s : State) (n : Nat), (domainAt s n).state = .on ∧ (domainAt s n).num = n ∧ supplied s n = true ∧ domainIdle s n = false) :=
  ⟨⟨{ live with power := { live.power with domains := live.power.domains ++ [{ num := 4, state := .on }] } }, 4, by decide +kernel⟩,
   ⟨{ live with power := { live.power with domains := live.power.domains ++ [{ num := 4, state := .on }] } }, 4, by decide +kernel⟩,
   ⟨{ live with power := { live.power with domains := live.power.domains ++ [{ num := 4, state := .on, latches := [3] }] } }, 4, by decide +kernel, (by exact Or.inl (by decide +kernel))⟩,
   ⟨{ live with power := { live.power with domains := live.power.domains ++ [{ num := 4, state := .entering 1 }] } }, 4, by decide +kernel⟩,
   ⟨{ live with power := { live.power with domains := live.power.domains ++ [{ num := 163, state := .entering 2 }] } }, 159, by decide +kernel⟩,
   ⟨{ live with power := { live.power with domains := live.power.domains ++ [{ num := 195 }] } }, 195, 9, by decide +kernel⟩,
   ⟨{ live with power := { live.power with domains := live.power.domains ++ [{ num := 4, state := .waking }] } }, 4, by decide +kernel⟩,
   ⟨{ live with time := { live.time with comparators := [(15, 0, 500)] } }, 15, 0, 500, by decide +kernel⟩,
   ⟨live, by decide +kernel⟩,
   ⟨{ live with power := { live.power with domains := live.power.domains ++ [{ num := 4, state := .on }] } }, 4, by decide +kernel⟩,
   ⟨(io [cmd 9 6]), 2, by decide +kernel⟩⟩

/-- The hypotheses of ThrottleRows can be met. -/
theorem witness_ThrottleRows :
    (∃ (s : State) (c : Comparator) (v : Nat), s.pins.auxGood = true ∧ c ∉ s.power.tripped ∧ compPast s c v = true) ∧
    (∃ (s : State) (c : Comparator) (v : Nat), (c ∉ s.power.tripped ∨ compBack s c v = false)) ∧
    (∃ (s : State) (c : Comparator) (v : Nat), compPast s c v = false) ∧
    (∃ (s : State) (c : Comparator) (v : Nat), c ∈ s.power.tripped ∧ compBack s c v = true) ∧
    (∃ (s : State) (w : Nat), s.pins.mainOn = true ∧ s.adm.capThrottle = false ∧ powerCap s < w) ∧
    (∃ (s : State) (w : Nat), s.pins.mainOn = true ∧ s.adm.capThrottle = true ∧ 100 * w < 98 * powerCap s) ∧
    (∃ (s : State), s.pins.auxGood = true ∧ s.pins.throttleN = true) ∧
    (∃ (s : State), s.pins.auxGood = true ∧ s.pins.throttleN = false) :=
  ⟨⟨live, .vinDroop, 900, by decide +kernel⟩,
   ⟨live, .vinDroop, 900, (by exact Or.inl (by decide +kernel))⟩,
   ⟨live, .vinDroop, 50000, by decide +kernel⟩,
   ⟨{ live with power := { live.power with tripped := [.vinDroop] } }, .vinDroop, 50000, by decide +kernel⟩,
   ⟨live, 1151, by decide +kernel⟩,
   ⟨{ live with adm := { live.adm with capThrottle := true } }, 1126, by decide +kernel⟩,
   ⟨live, by decide +kernel⟩,
   ⟨{ live with pins := { live.pins with throttleN := false } }, by decide +kernel⟩⟩

/-- The hypotheses of SupplyRows can be met. -/
theorem witness_SupplyRows :
    (∃ (s : State) (straps : Nat), s.pins.auxGood = false) ∧
    (∃ (s : State), s.pins.auxGood = true) ∧
    (∃ (s : State), (s.pins.auxGood = true ∧ s.pins.inputInRange = true ∧ s.pins.mainOn = false) ∧ (∀ cid bs, s.sec.staging ≠ .verifying cid bs)) ∧
    (∃ (s : State), s.pins.mainOn = true ∧ (s.pins.poweringDown = true → s.adm.stopped = true)) ∧
    (∃ (s : State), s.pins.mainOn = true) ∧
    (∃ (s : State) (mv : Nat), (40000 ≤ mv ∧ mv ≤ 60000 ∧ s.pins.pwrEn = true ∧ s.pins.auxGood = true ∧ s.pins.mainOn = false) ∧ (∀ cid bs, s.sec.staging ≠ .verifying cid bs)) ∧
    (∃ (s : State), s.pins.perstN = true ∧ s.pins.mainOn = true ∧ s.health.fatal = .none) ∧
    (∃ (s : State), s.pins.perstN = false ∧ s.pins.mainOn = false) :=
  ⟨⟨{ State.reset with pins := { auxGood := false } }, 16, by decide +kernel⟩,
   ⟨live, by decide +kernel⟩,
   ⟨State.reset, by decide +kernel, (by intro c b h; exact Staging.noConfusion h)⟩,
   ⟨live, by decide +kernel⟩,
   ⟨live, by decide +kernel⟩,
   ⟨{ State.reset with pins := { pwrEn := true } }, 60000, by decide +kernel, (by intro c b h; exact Staging.noConfusion h)⟩,
   ⟨live, by decide +kernel⟩,
   ⟨State.reset, by decide +kernel⟩⟩

/-- The hypotheses of WindowDataRows can be met. -/
theorem witness_WindowDataRows :
    (∃ (s : State) (h : HostRead) (x : Nat), windowAddr s h.hpa = some x ∧ windowRegion s (x / 64 * 64 / pageBytes) = none) ∧
    (∃ (s : State) (hpa : Nat) (x : Nat) (r : Region), windowAddr s hpa = some x ∧ windowRegion s (x / 64 * 64 / pageBytes) = some r ∧ (frameOfPage s (x / 64 * 64 / pageBytes)).isSome = true ∧ sectorResident s (x / 64 * 64) = true ∧ s.link.snoopFilter.length < 262144) ∧
    (∃ (s : State) (h : HostRead) (x : Nat) (r : Region) (e : Frame_), windowAddr s h.hpa = some x ∧ windowRegion s (x / 64 * 64 / pageBytes) = some r ∧ frameOfPage s (x / 64 * 64 / pageBytes) = some e ∧ sectorResident s (x / 64 * 64) = true ∧ (codewordErrors (devPoison s (x / 64 * 64)) (devRead s (x / 64 * 64) 64) h.wrong).length = 1) ∧
    (∃ (s : State) (h : HostRead) (x : Nat) (r : Region) (e : Frame_), windowAddr s h.hpa = some x ∧ windowRegion s (x / 64 * 64 / pageBytes) = some r ∧ frameOfPage s (x / 64 * 64 / pageBytes) = some e ∧ sectorResident s (x / 64 * 64) = true ∧ ((codewordErrors (devPoison s (x / 64 * 64)) (devRead s (x / 64 * 64) 64) h.wrong).length = 2 ∨ (codewordErrors (devPoison s (x / 64 * 64)) (devRead s (x / 64 * 64) 64) h.wrong).length = 3)) ∧
    (∃ (s : State) (h : HostRead) (x : Nat) (r : Region), windowAddr s h.hpa = some x ∧ windowRegion s (x / 64 * 64 / pageBytes) = some r ∧ frameOfPage s (x / 64 * 64 / pageBytes) = none ∧ beHeld s = true ∧ hostHint s (x / 64 * 64 / pageBytes) false ≠ 1) ∧
    (∃ (s : State) (hpa : Nat) (x : Nat) (data : Bytes), windowAddr s hpa = some x ∧ windowRegion s (x / 64 * 64 / pageBytes) = none) ∧
    (∃ (s : State) (hpa : Nat) (x : Nat) (data : Bytes) (r : Region) (e : Frame_), storesWf s ∧ windowAddr s hpa = some x ∧ windowRegion s (x / 64 * 64 / pageBytes) = some r ∧ frameOfPage s (x / 64 * 64 / pageBytes) = some e ∧ sectorResident s (x / 64 * 64) = true) ∧
    (∃ (s : State) (entry : Nat) (bs : Bytes), s.link.up = true ∧ (cdatTable s)[entry]? = some bs) ∧
    (∃ (s : State) (tableType : Nat) (entry : Nat), s.link.up = true ∧ tableType ≠ 0) ∧
    (∃ (s : State) (i : Nat), s.link.up = true ∧ i < 4) :=
  ⟨⟨(windowed []), { hpa := 2 ^ 28 + 16 * pageBytes }, (2 ^ 30 + 16 * pageBytes), by decide +kernel⟩,
   ⟨(windowed [{ num := 4096, state := .dram, page := 4096 }]), (2 ^ 28 + 64), (2 ^ 30 + 64), { base := 4096, pages := 16, kind := 1, hint := 0, groups := 0, bay := 0 }, by decide +kernel⟩,
   ⟨(windowed [{ num := 4096, state := .dram, page := 4096 }]), { hpa := 2 ^ 28 + 64, wrong := [(63, 0xA5)] }, (2 ^ 30 + 64), { base := 4096, pages := 16, kind := 1, hint := 0, groups := 0, bay := 0 }, { num := 4096, state := .dram, page := 4096 }, by decide +kernel⟩,
   ⟨(windowed [{ num := 4096, state := .dram, page := 4096 }]), { hpa := 2 ^ 28 + 64, wrong := [(63, 0xA5), (0, 1)] }, (2 ^ 30 + 64), { base := 4096, pages := 16, kind := 1, hint := 0, groups := 0, bay := 0 }, { num := 4096, state := .dram, page := 4096 }, by decide +kernel⟩,
   ⟨{ windowed [] with adm := { live.adm with capThrottle := true } }, { hpa := 2 ^ 28 + 64 }, (2 ^ 30 + 64), { base := 4096, pages := 16, kind := 1, hint := 0, groups := 0, bay := 0 }, by decide +kernel⟩,
   ⟨(windowed []), (2 ^ 28 + 16 * pageBytes), (2 ^ 30 + 16 * pageBytes), ([1]), by decide +kernel⟩,
   ⟨(windowed [{ num := 4096, state := .dram, page := 4096 }]), (2 ^ 28 + 192), (2 ^ 30 + 192), (List.replicate 64 7), { base := 4096, pages := 16, kind := 1, hint := 0, groups := 0, bay := 0 }, { num := 4096, state := .dram, page := 4096 }, by unfold storesWf; decide +kernel⟩,
   ⟨live, 0, ((cdatTable live)[0]), by decide +kernel⟩,
   ⟨live, 1, 0, by decide +kernel⟩,
   ⟨live, 3, by decide +kernel⟩⟩

/-- The hypotheses of TapRows can be met. -/
theorem witness_TapRows :
    (∃ (s : State), s.pins.auxGood = true ∧ inBringup s = true) ∧
    (∃ (s : State), s.pins.auxGood = true) ∧
    (∃ (s : State) (pins : Nat), s.pins.auxGood = true ∧ s.pins.mainOn = true) ∧
    (∃ (s : State), s.pins.auxGood = true ∧ s.pins.perstN = false) ∧
    (∃ (s : State), s.pins.auxGood = true ∧ s.pins.perstN = false) ∧
    (∃ (s : State), s.pins.auxGood = true) ∧
    (∃ (s : State), s.pins.auxGood = true) ∧
    (∃ (s : State) (halt : Bool) (addr : Nat), s.pins.auxGood = true ∧ inBringup s = true ∧ 2 ≤ s.sec.debugLevel) ∧
    (∃ (s : State), s.pins.auxGood = true ∧ inBringup s = true ∧ 1 ≤ s.sec.debugLevel) ∧
    (∃ (s : State) (d : Option (BitVec 128)), s.pins.auxGood = true ∧ (inBringup s = false ∨ s.sec.debugLevel = 0)) ∧
    (∃ (s : State) (d : BitVec 128) (row : Instr) (op : Nat), (row, op) ∈ [(.pprQuery d, 0x01), (.pprRepair d, 0x02), (.bbtQuery d, 0x10), (.bbtRead d, 0x11), (.bbtMark d, 0x12), (.loopStart d, 0x20), (.loopStop d, 0x21)] ∧ s.pins.auxGood = true ∧ s.tap.acting = 0x30 ∧ inBringup s = true ∧ s.tap.op = none ∧ mgmtAwake s = true ∧ brOp d = op) ∧
    (∃ (s : State) (ok : Bool) (d : BitVec 128), s.tap.op = some d ∧ s.pins.perstN = false) ∧
    (∃ (s : State) (d : BitVec 128) (channel : Nat) (bank : Nat) (row : Nat), channel < 128 ∧ bank < 32 ∧ row < 122880 ∧ d = brWord 0x02 0 (channel + bank * 2 ^ 8) row 0 ∧ s.tap.op = some d ∧ s.pins.perstN = false ∧ (bankHealth s (32 * channel + bank)).used < 4) :=
  ⟨⟨(bringup {}), by decide +kernel⟩,
   ⟨State.reset, by decide +kernel⟩,
   ⟨live, 5, by decide +kernel⟩,
   ⟨State.reset, by decide +kernel⟩,
   ⟨State.reset, by decide +kernel⟩,
   ⟨State.reset, by decide +kernel⟩,
   ⟨live, by decide +kernel⟩,
   ⟨(bringup {}), true, 4, by decide +kernel⟩,
   ⟨(bringup {}), by decide +kernel⟩,
   ⟨live, none, by decide +kernel⟩,
   ⟨(bringup { acting := 0x30 }), 0x21, (.loopStop 0x21), 0x21, by decide +kernel⟩,
   ⟨(bringup { op := some 0x10 }), true, 0x10, by decide +kernel⟩,
   ⟨(bringup { op := some (brWord 0x02 0 (127 + 31 * 2 ^ 8) 122879 0) }), (brWord 0x02 0 (127 + 31 * 2 ^ 8) 122879 0), 127, 31, 122879, by decide +kernel⟩⟩

/-- The hypotheses of PegRows can be met. -/
theorem witness_PegRows :
    (∃ (s : State) (q : Nat) (cid : Nat) (p : Nat) (c : Cmd) (v : Word64) (x : Peg), ioTakes s q cid 0x09 c ∧ field c.sqe 84 4 = 0 ∧ p = field c.sqe 64 17 ∧ v = BitVec.ofNat 64 (field c.sqe 128 64) ∧ pegAt s p = some x ∧ mayUsePeg s (ctxOfQueue s q) x = true ∧ x.kind ≠ .notice) ∧
    (∃ (s : State) (q : Nat) (cid : Nat) (p : Nat) (c : Cmd) (v : Word64) (x : Peg), ioTakes s q cid 0x09 c ∧ field c.sqe 84 4 = 1 ∧ p = field c.sqe 64 17 ∧ v = BitVec.ofNat 64 (field c.sqe 128 64) ∧ pegAt s p = some x ∧ mayUsePeg s (ctxOfQueue s q) x = true ∧ x.kind ≠ .notice) ∧
    (∃ (s : State) (q : Nat) (cid : Nat) (p : Nat) (op : Nat) (c : Cmd) (v : Word64) (x : Peg) (row : Instr), ioTakes s q cid 0x09 c ∧ field c.sqe 84 4 = op ∧ p = field c.sqe 64 17 ∧ v = BitVec.ofNat 64 (field c.sqe 128 64) ∧ pegAt s p = some x ∧ mayUsePeg s (ctxOfQueue s q) x = true ∧ (row = .pegWaitGe (.host q cid) ∧ op = 2 ∧ v.toNat ≤ x.value.toNat ∨ row = .pegWaitEq (.host q cid) ∧ op = 3 ∧ x.value = v)) ∧
    (∃ (s : State) (q : Nat) (cid : Nat) (p : Nat) (op : Nat) (c : Cmd) (v : Word64) (x : Peg) (row : Instr), ioTakes s q cid 0x09 c ∧ field c.sqe 84 4 = op ∧ p = field c.sqe 64 17 ∧ v = BitVec.ofNat 64 (field c.sqe 128 64) ∧ pegAt s p = some x ∧ mayUsePeg s (ctxOfQueue s q) x = true ∧ (row = .pegWaitGe (.host q cid) ∧ op = 2 ∧ x.value.toNat < v.toNat ∨ row = .pegWaitEq (.host q cid) ∧ op = 3 ∧ x.value ≠ v) ∧ field c.sqe 192 32 = 0) ∧
    (∃ (s : State) (q : Nat) (cid : Nat) (p : Nat) (op : Nat) (c : Cmd) (v : Word64) (x : Peg) (row : Instr), ioTakes s q cid 0x09 c ∧ field c.sqe 84 4 = op ∧ p = field c.sqe 64 17 ∧ v = BitVec.ofNat 64 (field c.sqe 128 64) ∧ pegAt s p = some x ∧ mayUsePeg s (ctxOfQueue s q) x = true ∧ (row = .pegWaitGe (.host q cid) ∧ op = 2 ∧ x.value.toNat < v.toNat ∨ row = .pegWaitEq (.host q cid) ∧ op = 3 ∧ x.value ≠ v) ∧ field c.sqe 192 32 ≠ 0 ∧ s.bay.waits.length < 65536) ∧
    (∃ (s : State) (q : Nat) (cid : Nat) (p : Nat) (c : Cmd) (x : Peg), ioTakes s q cid 0x09 c ∧ field c.sqe 84 4 = 4 ∧ p = field c.sqe 64 17 ∧ pegAt s p = some x ∧ mayUsePeg s (ctxOfQueue s q) x = true ∧ x.kind ≠ .notice ∧ x.holder = none) ∧
    (∃ (s : State) (q : Nat) (cid : Nat) (p : Nat) (c : Cmd) (x : Peg), ioTakes s q cid 0x09 c ∧ field c.sqe 84 4 = 5 ∧ p = field c.sqe 64 17 ∧ field c.sqe 128 64 = 0 ∧ pegAt s p = some x ∧ mayUsePeg s (ctxOfQueue s q) x = true ∧ x.kind ≠ .notice ∧ x.holder = some (ctxOfQueue s q)) ∧
    (∃ (s : State) (ctx : Nat) (thr : Nat) (p : Nat) (op : Nat) (v : Word64) (c : Ctx) (x : Peg) (row : Instr) (met : Bool), ctxAt s ctx = some c ∧ pegAt s p = some x ∧ mayUsePeg s ctx x = true ∧ (row = .pegWaitGe (.thread ctx thr p v) ∧ op = 2 ∧ met = decide (v.toNat ≤ x.value.toNat) ∨ row = .pegWaitEq (.thread ctx thr p v) ∧ op = 3 ∧ met = (x.value == v))) ∧
    (∃ (s : State) (ctx : Nat) (thr : Nat) (p : Nat) (v : Word64) (c : Ctx) (row : Instr), (ctxAt s ctx = some c ∧ row ∈ [.pegWaitGe (.thread ctx thr p v), .pegWaitEq (.thread ctx thr p v)]) ∧ (∀ x, pegAt s p = some x → mayUsePeg s ctx x = false)) ∧
    (∃ (s : State) (q : Nat) (cid : Nat) (lim : Nat) (w : PegWait), s.bay.waits.find? (fun y => y.q == q && y.cid == cid && !y.lost) = some w ∧ w.limit = some lim) ∧
    (∃ (s : State) (ctx : Nat) (thr : Nat) (p : Nat) (v : Word64) (w : Word64) (c : Ctx) (x : Peg) (row : Instr), ctxAt s ctx = some c ∧ pegAt s p = some x ∧ mayUsePeg s ctx x = true ∧ x.kind ≠ .notice ∧ (row, w) ∈ [(.pegSet (.thread ctx thr p v), v), (.pegAdd (.thread ctx thr p v), x.value + v)]) ∧
    (∃ (s : State) (ctx : Nat) (thr : Nat) (p : Nat) (v : Word64) (c : Ctx) (x : Peg), ctxAt s ctx = some c ∧ pegAt s p = some x ∧ mayUsePeg s ctx x = true ∧ x.kind ≠ .notice ∧ x.holder ≠ some ctx) ∧
    (∃ (s : State) (ctx : Nat) (thr : Nat) (p : Nat) (c : Ctx) (x : Peg), ctxAt s ctx = some c ∧ pegAt s p = some x ∧ mayUsePeg s ctx x = true ∧ x.kind ≠ .notice ∧ x.holder = some ctx) :=
  ⟨⟨(pegged (cmd 9 (0x09 + 300 * 2 ^ 64 + 0 * 2 ^ 84 + 3 * 2 ^ 128)) (peg 300)), 3, 9, 300, (cmd 9 (0x09 + 300 * 2 ^ 64 + 0 * 2 ^ 84 + 3 * 2 ^ 128)), 3, (peg 300), by unfold ioTakes; decide +kernel⟩,
   ⟨(pegged (cmd 9 (0x09 + 300 * 2 ^ 64 + 1 * 2 ^ 84 + 3 * 2 ^ 128)) (peg 300)), 3, 9, 300, (cmd 9 (0x09 + 300 * 2 ^ 64 + 1 * 2 ^ 84 + 3 * 2 ^ 128)), 3, (peg 300), by unfold ioTakes; decide +kernel⟩,
   ⟨(pegged (cmd 9 (0x09 + 300 * 2 ^ 64 + 2 * 2 ^ 84 + 4 * 2 ^ 128)) (peg 300)), 3, 9, 300, 2, (cmd 9 (0x09 + 300 * 2 ^ 64 + 2 * 2 ^ 84 + 4 * 2 ^ 128)), 4, (peg 300), (.pegWaitGe (.host 3 9)), by unfold ioTakes; decide +kernel⟩,
   ⟨(pegged (cmd 9 (0x09 + 300 * 2 ^ 64 + 3 * 2 ^ 84 + 5 * 2 ^ 128)) (peg 300)), 3, 9, 300, 3, (cmd 9 (0x09 + 300 * 2 ^ 64 + 3 * 2 ^ 84 + 5 * 2 ^ 128)), 5, (peg 300), (.pegWaitEq (.host 3 9)), by unfold ioTakes; decide +kernel⟩,
   ⟨(pegged (cmd 9 (0x09 + 300 * 2 ^ 64 + 2 * 2 ^ 84 + 5 * 2 ^ 128 + 7 * 2 ^ 192)) (peg 300)), 3, 9, 300, 2, (cmd 9 (0x09 + 300 * 2 ^ 64 + 2 * 2 ^ 84 + 5 * 2 ^ 128 + 7 * 2 ^ 192)), 5, (peg 300), (.pegWaitGe (.host 3 9)), by unfold ioTakes; decide +kernel⟩,
   ⟨(pegged (cmd 9 (0x09 + 300 * 2 ^ 64 + 4 * 2 ^ 84 + 0 * 2 ^ 128)) (peg 300)), 3, 9, 300, (cmd 9 (0x09 + 300 * 2 ^ 64 + 4 * 2 ^ 84 + 0 * 2 ^ 128)), (peg 300), by unfold ioTakes; decide +kernel⟩,
   ⟨(pegged (cmd 9 (0x09 + 300 * 2 ^ 64 + 5 * 2 ^ 84 + 0 * 2 ^ 128)) (peg 300 (some 7))), 3, 9, 300, (cmd 9 (0x09 + 300 * 2 ^ 64 + 5 * 2 ^ 84 + 0 * 2 ^ 128)), (peg 300 (some 7)), by unfold ioTakes; decide +kernel⟩,
   ⟨(pegged (ran 9 1) (peg 300)), 7, (150 * 16384), 300, 3, 4, { num := 7, bay := 0, progress := 0 }, (peg 300), (.pegWaitEq (.thread 7 (150 * 16384) 300 4)), true, by decide +kernel⟩,
   ⟨(pegged (ran 9 1) (peg 300)), 7, 0, 301, 4, { num := 7, bay := 0, progress := 0 }, (.pegWaitGe (.thread 7 0 301 4)), by decide +kernel, (by intro x h; have e : pegAt (pegged (ran 9 1) (peg 300)) 301 = none := (by decide +kernel); rw [e] at h; cases h)⟩,
   ⟨{ io [ran 9 9] with bay := { (io []).bay with waits := [{ q := 3, cid := 9, ctx := 7, peg := 300, kind := .ge, operand := 9, tick := 0, port := 0, limit := some 5000 }] } }, 3, 9, 5000, { q := 3, cid := 9, ctx := 7, peg := 300, kind := .ge, operand := 9, tick := 0, port := 0, limit := some 5000 }, by decide +kernel⟩,
   ⟨(pegged (ran 9 1) (peg 300)), 7, (150 * 16384), 300, 4, 4, { num := 7, bay := 0, progress := 0 }, (peg 300), (.pegSet (.thread 7 (150 * 16384) 300 4)), by decide +kernel⟩,
   ⟨(pegged (ran 9 1) (peg 300)), 7, (150 * 16384), 300, 4, { num := 7, bay := 0, progress := 0 }, (peg 300), by decide +kernel⟩,
   ⟨(pegged (ran 9 1) (peg 300 (some 7))), 7, (150 * 16384), 300, { num := 7, bay := 0, progress := 0 }, (peg 300 (some 7)), by decide +kernel⟩⟩

/-- The hypotheses of BatchRows can be met. -/
theorem witness_BatchRows :
    (∃ (s : State) (q : Nat) (cid : Nat) (op : Nat) (kind : PlanKind) (desc : BitVec 1024) (es : List Bytes) (row : Instr) (c : Cmd) (pr : QPair) (p : Plan), (row, op, kind) ∈ batchRows q cid desc es ∧ ioTakes s q cid op c ∧ pairOf s q = some pr ∧ lowerPairFirst s q c = false ∧ descOk desc pr.bsize = true ∧ planAt s (cmdPlan c.sqe) = some p ∧ p.ctx = pr.ctx ∧ p.unloading = none ∧ p.kind = kind ∧ (pr.lc = true → p.lcOk = true)) ∧
    (∃ (s : State) (q : Nat) (cid : Nat) (op : Nat) (pos : Nat) (st : Nat) (kind : PlanKind) (desc : BitVec 1024) (es : List Bytes) (row : Instr) (c : Cmd) (pr : QPair) (p : Plan), ((row, op, kind) ∈ batchRows q cid desc es ∧ ioTakes s q cid op c ∧ pairOf s q = some pr ∧ lowerPairFirst s q c = false ∧ descOk desc pr.bsize = true ∧ planAt s (cmdPlan c.sqe) = some p ∧ p.ctx = pr.ctx ∧ p.unloading = none ∧ p.kind = kind ∧ (pr.lc = true → p.lcOk = true) ∧ descPositions desc pr.bsize = [pos]) ∧ (∀ b, decideQuery (startCmd s q c) pr p c.arrival b = .refused st)) ∧
    (∃ (s : State) (q : Nat) (cid : Nat) (op : Nat) (pos : Nat) (slot : Nat) (start : Nat) (off : Nat) (holds : List (Nat × Nat × Nat)) (kind : PlanKind) (desc : BitVec 1024) (b : Bytes) (e : QueryEntry) (row : Instr) (c : Cmd) (pr : QPair) (p : Plan) (n : Nat) (i : Index), ((row, op, kind) ∈ batchRows q cid desc [b] ∧ ioTakes s q cid op c ∧ pairOf s q = some pr ∧ lowerPairFirst s q c = false ∧ descOk desc pr.bsize = true ∧ planAt s (cmdPlan c.sqe) = some p ∧ p.ctx = pr.ctx ∧ p.unloading = none ∧ p.kind = kind ∧ (pr.lc = true → p.lcOk = true) ∧ descPositions desc pr.bsize = [pos] ∧ p.index = some n ∧ indexAt s n = some i ∧ 64 * descStride desc ≤ b.length ∧ e = cutEntry op p i.params b) ∧ (∀ b, decideQuery (startCmd s q c) pr p c.arrival b = .accepted slot start off holds) ∧ (∀ u : State, entryOk u op (descStride desc) p i e = true)) ∧
    (∃ (s : State) (q : Nat) (cid : Nat) (op : Nat) (kind : PlanKind) (desc : BitVec 1024) (es : List Bytes) (row : Instr) (c : Cmd) (pr : QPair), (ioTakes s q cid op c ∧ pairOf s q = some pr ∧ lowerPairFirst s q c = true) ∧ ((row, op, kind) ∈ batchRows q cid desc es ∨ (row, op) = (.planRun q cid desc, 0x07))) ∧
    (∃ (s : State) (q : Nat) (cid : Nat) (st : Nat) (desc : BitVec 1024) (c : Cmd) (pr : QPair) (p : Plan), ioTakes s q cid 0x07 c ∧ pairOf s q = some pr ∧ lowerPairFirst s q c = false ∧ runArgsOk desc = true ∧ planAt s (cmdPlan c.sqe) = some p ∧ p.ctx = pr.ctx ∧ p.unloading = none ∧ (p.kind = .run ∨ p.kind = .train) ∧ (pr.lc = true → p.lcOk = true) ∧ runArgsUsable s p ((List.range 16).map (runArg desc)) = true ∧ decideQuery (startCmd s q c) pr p c.arrival false = .refused st) ∧
    (∃ (s : State) (q : Nat) (cid : Nat) (slot : Nat) (start : Nat) (off : Nat) (holds : List (Nat × Nat × Nat)) (desc : BitVec 1024) (c : Cmd) (pr : QPair) (p : Plan), ioTakes s q cid 0x07 c ∧ pairOf s q = some pr ∧ lowerPairFirst s q c = false ∧ runArgsOk desc = true ∧ planAt s (cmdPlan c.sqe) = some p ∧ p.ctx = pr.ctx ∧ p.unloading = none ∧ (p.kind = .run ∨ p.kind = .train) ∧ (pr.lc = true → p.lcOk = true) ∧ runArgsUsable s p ((List.range 16).map (runArg desc)) = true ∧ decideQuery (startCmd s q c) pr p c.arrival false = .accepted slot start off holds) :=
  ⟨⟨(planned [cmd 9 (1 + 2 ^ 64)] (plan .search)), 3, 9, 1, .search, desc, ([List.replicate (64 * descStride desc) 0]), (.search 3 9 desc [List.replicate (64 * descStride desc) 0]), (cmd 9 (1 + 2 ^ 64)), (pair [cmd 9 (1 + 2 ^ 64)]), (plan .search), by unfold ioTakes; decide +kernel⟩,
   ⟨(planned [cmd 9 (1 + 2 ^ 64)] (plan .search) { index with replaying := true }), 3, 9, 1, 0, stNsBusy, .search, desc, ([List.replicate (64 * descStride desc) 0]), (.search 3 9 desc [List.replicate (64 * descStride desc) 0]), (cmd 9 (1 + 2 ^ 64)), (pair [cmd 9 (1 + 2 ^ 64)]), (plan .search), by unfold ioTakes; decide +kernel, (by intro b; cases b <;> decide +kernel)⟩,
   ⟨(planned [cmd 9 (1 + 2 ^ 64)] (plan .search)), 3, 9, 1, 0, 0, 1001500000, 0, ([]), .search, desc, (List.replicate (64 * descStride desc) 0), (cutEntry 1 (plan .search) index.params (List.replicate (64 * descStride desc) 0)), (.search 3 9 desc [List.replicate (64 * descStride desc) 0]), (cmd 9 (1 + 2 ^ 64)), (pair [cmd 9 (1 + 2 ^ 64)]), (plan .search), 2, index, by unfold ioTakes; decide +kernel, (by intro b; cases b <;> decide +kernel), (by intro u; have h1 : headOk (cutEntry 1 (plan .search) index.params (List.replicate (64 * descStride desc) 0)).head 1 = true := (by decide +kernel); have h2 : decide (payloadEnd 1 (plan .search) index.params (cutEntry 1 (plan .search) index.params (List.replicate (64 * descStride desc) 0)).head ≤ 64 * descStride desc) = true := (by decide +kernel); have h3 : headFilt (cutEntry 1 (plan .search) index.params (List.replicate (64 * descStride desc) 0)).head = false := (by decide +kernel); unfold entryOk; rw [h1, h2, h3]; rfl)⟩,
   ⟨{ planned [cmd 9 (1 + 2 ^ 64)] (plan .search) with queues := { live.queues with pairs := [{ pair [cmd 9 (1 + 2 ^ 64)] with id := 2 }, pair [cmd 9 (1 + 2 ^ 64)]] } }, 3, 9, 1, .search, desc, ([List.replicate (64 * descStride desc) 0]), (.search 3 9 desc [List.replicate (64 * descStride desc) 0]), (cmd 9 (1 + 2 ^ 64)), (pair [cmd 9 (1 + 2 ^ 64)]), by unfold ioTakes; decide +kernel, (by exact Or.inl (by decide +kernel))⟩,
   ⟨(planned [cmd 9 (7 + 2 ^ 64)] (plan .run) { index with replaying := true }), 3, 9, stNsBusy, 0, (cmd 9 (7 + 2 ^ 64)), (pair [cmd 9 (7 + 2 ^ 64)]), (plan .run), by unfold ioTakes; decide +kernel⟩,
   ⟨(planned [cmd 9 (7 + 2 ^ 64)] (plan .train)), 3, 9, 0, 1001500000, 0, ([]), 0, (cmd 9 (7 + 2 ^ 64)), (pair [cmd 9 (7 + 2 ^ 64)]), (plan .train), by unfold ioTakes; decide +kernel⟩⟩

/-- The hypotheses of PlanRows can be met. -/
theorem witness_PlanRows :
    (∃ (s : State) (cid : Nat) (image : ImageRead) (c : Cmd) (m : Image), (adminTakes s cid 0x84 c ∧ m = imageOf (image.data.take (field c.sqe 64 32)) ∧ field c.sqe 64 32 % 64 = 0 ∧ field c.sqe 64 32 ≤ image.data.length ∧ (imLcOk m && refitHolds s 0x2000 1) = false ∧ (bayOfCtx s (field c.sqe 96 12) == 0 && refitHolds s 0x3000 0) = false ∧ badFills s m image.bad = []) ∧ planStatus s (field c.sqe 96 12) m = stOk ∧ (framesTaken s (bayOfCtx s (field c.sqe 96 12)) m = 0 ∨ roomFor s (bayOfCtx s (field c.sqe 96 12)) (framesTaken s (bayOfCtx s (field c.sqe 96 12)) m) = true)) ∧
    (∃ (s : State) (cid : Nat) (image : ImageRead) (c : Cmd) (m : Image), (adminTakes s cid 0x84 c ∧ m = imageOf (image.data.take (field c.sqe 64 32)) ∧ field c.sqe 64 32 % 64 = 0 ∧ field c.sqe 64 32 ≤ image.data.length ∧ (imLcOk m && refitHolds s 0x2000 1) = false ∧ (bayOfCtx s (field c.sqe 96 12) == 0 && refitHolds s 0x3000 0) = false ∧ badFills s m image.bad ≠ []) ∧ planStatus s (field c.sqe 96 12) m = stOk ∧ (framesTaken s (bayOfCtx s (field c.sqe 96 12)) m = 0 ∨ roomFor s (bayOfCtx s (field c.sqe 96 12)) (framesTaken s (bayOfCtx s (field c.sqe 96 12)) m) = true)) ∧
    (∃ (s : State) (cid : Nat) (c : Cmd) (p : Plan), adminTakes s cid 0x85 c ∧ planAt s (field c.sqe 64 16) = some p ∧ p.unloading = none) ∧
    (∃ (s : State) (h : Nat) (cid : Nat) (p : Plan), planAt s h = some p ∧ p.unloading = some cid ∧ (∀ x ∈ s.adm.queries, x.plan ≠ h) ∧ planRequests s h = false) ∧
    (∃ (s : State) (h : Nat), planRequests s h = true) ∧
    (∃ (s : State) (slot : Nat) (cut : Nat) (x : Query) (p : Plan) (r : Nat × Nat) (d : Cut), queryAt s slot = some x ∧ planAt s x.plan = some p ∧ p.cuts[cut]? = some d ∧ touchesLost s x = false ∧ cutRank s x d = some r ∧ cutReady s x cut = true ∧ outranked s x (cutArrays p cut) r = false ∧ d.weightStart = 0xFFFF) ∧
    (∃ (s : State) (slot : Nat) (cut : Nat) (x : Query) (p : Plan) (d : Cut), queryAt s slot = some x ∧ planAt s x.plan = some p ∧ p.cuts[cut]? = some d ∧ touchesLost s x = true ∧ x.running = []) ∧
    (∃ (s : State) (slot : Nat) (cut : Nat) (work : List CutOp) (x : Query) (p : Plan) (d : Cut), (queryAt s slot = some x ∧ planAt s x.plan = some p ∧ p.cuts[cut]? = some d ∧ x.running.any (fun r => r.cut == cut) = true ∧ graceOver s x.bay = false ∧ rimeMoving s x.slot = false ∧ heldObjects s p work = [] ∧ work.any (readsLost s p) = false) ∧ (∃ y, queryAt (work.foldl (cutOp slot (cutArrays p cut)) s) slot = some y ∧ y.stage ≠ .done)) ∧
    (∃ (s : State) (slot : Nat) (cut : Nat) (work : List CutOp) (x : Query) (p : Plan) (d : Cut), queryAt s slot = some x ∧ planAt s x.plan = some p ∧ p.cuts[cut]? = some d ∧ rimeMoving s x.slot = true) ∧
    (∃ (s : State) (slot : Nat) (cut : Nat) (work : List CutOp) (x : Query) (p : Plan) (d : Cut), queryAt s slot = some x ∧ planAt s x.plan = some p ∧ p.cuts[cut]? = some d ∧ x.running.any (fun r => r.cut == cut) = true ∧ rimeMoving s x.slot = false ∧ heldObjects s p work ≠ []) ∧
    (∃ (s : State) (slot : Nat) (as_ : List Nat) (op : CutOp) (k : Nat), storesWf s) ∧
    (∃ (s : State) (slot : Nat) (as_ : List Nat) (x : Query) (p : Plan) (dst : Place) (op : CutOp) (bs : Bytes) (count : PlanCounters → PlanCounters), (storesWf s ∧ queryAt s slot = some x ∧ x.stage ≠ .done ∧ planAt s x.plan = some p ∧ placeFault s x as_ bs.length dst = none) ∧ ((∃ sa sb acc ab, op = .intDot sa sb acc ab dst ∧ bs = natLe 4 (patternOf 32 (intAccumulate sa sb acc ab).1) ∧ count = (fun c => { c with accSat := satAdd 64 c.accSat (intAccumulate sa sb acc ab).2 })) ∨ (∃ xs, op = .toB1 xs dst ∧ bs = natLe (ceilDiv xs.length 8) (b1Code xs) ∧ count = (fun c => { c with nan := satAdd 64 c.nan (xs.filter isNan32).length })) ∨ ∃ w rest, op = .gradSum (w :: rest) dst ∧ bs = natLe 4 (rest.foldl add32 w).toNat ∧ count = id)) ∧
    (∃ (s : State) (slot : Nat) (a : Nat) (cell : Nat) (reg : Nat) (lanes : List (BitVec 80)) (x : Query) (p : Plan), queryAt s slot = some x ∧ x.stage ≠ .done ∧ planAt s x.plan = some p ∧ a = cell / 64 ∧ reg < 32 ∧ lanes.length ≤ 64) ∧
    (∃ (s : State) (slot : Nat) (a : Nat) (thr : Nat) (reg : Nat) (v : Word64) (wait : Option ThreadWait) (x : Query) (p : Plan), queryAt s slot = some x ∧ x.stage ≠ .done ∧ planAt s x.plan = some p ∧ a = thr / 16384 ∧ reg < 32 ∧ issueTurn s thr = true) ∧
    (∃ (s : State) (h : Nat) (obj : Nat) (g : Nat) (p : Plan) (o : WeightObj) (y : Peg), planAt s h = some p ∧ p.weights[obj]? = some o ∧ o.streams ≠ [] ∧ objectHeld s o = false ∧ objectLost s o = false ∧ objectPoison s o = false ∧ (p.pegs[o.arrival]?).bind (fun b => b.peg) = some g ∧ pegAt s g = some y) :=
  ⟨⟨(adm (cmd 9 (0x84 + 128 * 2 ^ 64 + 7 * 2 ^ 96)) (io [])), 9, { data := runImage }, (cmd 9 (0x84 + 128 * 2 ^ 64 + 7 * 2 ^ 96)), (imageOf (runImage.take (field (cmd 9 (0x84 + 128 * 2 ^ 64 + 7 * 2 ^ 96)).sqe 64 32))), by unfold adminTakes; decide +kernel, (by (have hf : liftsFloor (adm (cmd 9 (0x84 + 128 * 2 ^ 64 + 7 * 2 ^ 96)) (io [])) (acceptPlan (adm (cmd 9 (0x84 + 128 * 2 ^ 64 + 7 * 2 ^ 96)) (io [])) (field (cmd 9 (0x84 + 128 * 2 ^ 64 + 7 * 2 ^ 96)).sqe 96 12) (imageOf (runImage.take (field (cmd 9 (0x84 + 128 * 2 ^ 64 + 7 * 2 ^ 96)).sqe 64 32)))).1 = false := liftsFloor_of_same (congrArg Config.powerFloorLc (by decide +kernel)); unfold planStatus; rw [hf]; decide +kernel)), (by exact Or.inl (by decide +kernel))⟩,
   ⟨(adm (cmd 9 (0x84 + 192 * 2 ^ 64 + 7 * 2 ^ 96)) (tiered 2 0 { homes := [{ page := 4096, group := 0, slot := 0 }] } (io []))), 9, { data := pinImage, bad := [2 ^ 30] }, (cmd 9 (0x84 + 192 * 2 ^ 64 + 7 * 2 ^ 96)), (imageOf (pinImage.take (field (cmd 9 (0x84 + 192 * 2 ^ 64 + 7 * 2 ^ 96)).sqe 64 32))), by unfold adminTakes; decide +kernel, (by (have hf : liftsFloor (adm (cmd 9 (0x84 + 192 * 2 ^ 64 + 7 * 2 ^ 96)) (tiered 2 0 { homes := [{ page := 4096, group := 0, slot := 0 }] } (io []))) (acceptPlan (adm (cmd 9 (0x84 + 192 * 2 ^ 64 + 7 * 2 ^ 96)) (tiered 2 0 { homes := [{ page := 4096, group := 0, slot := 0 }] } (io []))) (field (cmd 9 (0x84 + 192 * 2 ^ 64 + 7 * 2 ^ 96)).sqe 96 12) (imageOf (pinImage.take (field (cmd 9 (0x84 + 192 * 2 ^ 64 + 7 * 2 ^ 96)).sqe 64 32)))).1 = false := liftsFloor_of_same (congrArg Config.powerFloorLc (by decide +kernel)); unfold planStatus; rw [hf]; decide +kernel)), (by exact Or.inr (by decide +kernel))⟩,
   ⟨(adm (cmd 9 (0x85 + 2 ^ 64)) (planned [] (plan .run))), 9, (cmd 9 (0x85 + 2 ^ 64)), (plan .run), by unfold adminTakes; decide +kernel⟩,
   ⟨(planned [] { plan .run with unloading := some 9 }), 1, 9, { plan .run with unloading := some 9 }, by decide +kernel⟩,
   ⟨{ planned [] { plan .run with unloading := some 9 } with rime := { live.rime with banks := [{ bank := 8, queue := [{ rimeReq false [] with plan := some 1 }] }] } }, 1, by decide +kernel⟩,
   ⟨{ searching { search with lc := true, stage := .cuts, opcode := 7 } (plan .run) with power := { live.power with domains := live.power.domains ++ [{ num := 154, state := .on }] } }, 5, 0, { search with lc := true, stage := .cuts, opcode := 7 }, (plan .run), ((0, 1000500000)), cut, by decide +kernel⟩,
   ⟨{ searching { search with lc := true, stage := .cuts, opcode := 7 } { plan .run with weights := [{ addr := 2 ^ 30, bytes := 4096, scaleAddr := 0, fmt := 0, sck := 0, gs := 0, hint := 0, pin := false, shared := false, arrival := 0, lead := 0, streams := [[150]] }], cuts := [{ cut with weightStart := 0 }] } with power := { live.power with domains := live.power.domains ++ [{ num := 154, state := .on }] }, tier := { live.tier with weights := [{ addr := 2 ^ 30, bytes := 4096, sectors := [2 ^ 30], lost := true }] } }, 5, 0, { search with lc := true, stage := .cuts, opcode := 7 }, { plan .run with weights := [{ addr := 2 ^ 30, bytes := 4096, scaleAddr := 0, fmt := 0, sck := 0, gs := 0, hint := 0, pin := false, shared := false, arrival := 0, lead := 0, streams := [[150]] }], cuts := [{ cut with weightStart := 0 }] }, { cut with weightStart := 0 }, by decide +kernel⟩,
   ⟨(searching { search with stage := .cuts, opcode := 7, running := [{ cut := 0, start := 0 }] } (plan .run)), 5, 0, ([.toB1 [0] (.cell 9600 0), .vector 9600 0 [1, 2]]), { search with stage := .cuts, opcode := 7, running := [{ cut := 0, start := 0 }] }, (plan .run), cut, by decide +kernel, (by exact ⟨{ search with stage := .cuts, opcode := 7, running := [{ cut := 0, start := 0 }] }, by decide +kernel, by decide +kernel⟩)⟩,
   ⟨{ searching { search with stage := .cuts, opcode := 7, running := [{ cut := 0, start := 0 }] } (plan .run) with tier := { live.tier with frames := [{ num := 4096, state := .local_, page := 4096 }], written := [64 * 4096], localSets := [1], evacuation := some { channel := 0, returning := false } }, rime := { live.rime with banks := [{ bank := 0, queue := [{ rimeReq false [] with slot := some 5, home := 4096, job := (3, 9, 0, 1000000000) }] }] } }, 5, 0, ([]), { search with stage := .cuts, opcode := 7, running := [{ cut := 0, start := 0 }] }, (plan .run), cut, by decide +kernel⟩,
   ⟨{ searching { search with stage := .cuts, opcode := 7, running := [{ cut := 0, start := 0 }] } { plan .run with weights := [{ addr := 2 ^ 30, bytes := 4096, scaleAddr := 0, fmt := 0, sck := 0, gs := 0, hint := 0, pin := false, shared := false, arrival := 0, lead := 0, streams := [[150]] }], cuts := [{ cut with weightStart := 0 }] } with power := { live.power with domains := live.power.domains ++ [{ num := 154, state := .on }] }, tier := { live.tier with weights := [{ addr := 2 ^ 30, bytes := 4096, sectors := [2 ^ 30] }] } }, 5, 0, ([.loadGroup 0 0 0 (.cell 9600 0) (.cell 9600 64)]), { search with stage := .cuts, opcode := 7, running := [{ cut := 0, start := 0 }] }, { plan .run with weights := [{ addr := 2 ^ 30, bytes := 4096, scaleAddr := 0, fmt := 0, sck := 0, gs := 0, hint := 0, pin := false, shared := false, arrival := 0, lead := 0, streams := [[150]] }], cuts := [{ cut with weightStart := 0 }] }, { cut with weightStart := 0 }, by decide +kernel⟩,
   ⟨live, 1, ([0]), (.toB1 [0] (.cell 0 0)), 1048576, by unfold storesWf; decide +kernel⟩,
   ⟨(searching { search with stage := .cuts, opcode := 7, running := [{ cut := 0, start := 0 }] } (plan .run)), 5, ([150]), { search with stage := .cuts, opcode := 7, running := [{ cut := 0, start := 0 }] }, (plan .run), (.cell 9600 32764), (.gradSum [1, 2] (.cell 9600 32764)), (natLe 4 3), id, by unfold storesWf; decide +kernel, (by exact Or.inr (Or.inr ⟨1, [2], by decide +kernel, by decide +kernel, rfl⟩))⟩,
   ⟨(searching { search with stage := .cuts, opcode := 7, running := [{ cut := 0, start := 0 }] } (plan .run)), 5, 150, 9600, 31, ([1, 2]), { search with stage := .cuts, opcode := 7, running := [{ cut := 0, start := 0 }] }, (plan .run), by decide +kernel⟩,
   ⟨(searching { search with stage := .cuts, opcode := 7, running := [{ cut := 0, start := 0 }] } (plan .run)), 5, 150, (150 * 16384), 31, 5, (some .store), { search with stage := .cuts, opcode := 7, running := [{ cut := 0, start := 0 }] }, (plan .run), by decide +kernel⟩,
   ⟨{ planned [] { plan .run with weights := [{ addr := 2 ^ 30, bytes := 4096, scaleAddr := 0, fmt := 0, sck := 0, gs := 0, hint := 0, pin := false, shared := false, arrival := 0, lead := 0, streams := [[150]] }], pegs := [{ kind := 2, ref := 0, init := 0, peg := some 300 }] } with bay := { (planned [] { plan .run with weights := [{ addr := 2 ^ 30, bytes := 4096, scaleAddr := 0, fmt := 0, sck := 0, gs := 0, hint := 0, pin := false, shared := false, arrival := 0, lead := 0, streams := [[150]] }], pegs := [{ kind := 2, ref := 0, init := 0, peg := some 300 }] }).bay with pegs := [peg 300] } }, 1, 0, 300, { plan .run with weights := [{ addr := 2 ^ 30, bytes := 4096, scaleAddr := 0, fmt := 0, sck := 0, gs := 0, hint := 0, pin := false, shared := false, arrival := 0, lead := 0, streams := [[150]] }], pegs := [{ kind := 2, ref := 0, init := 0, peg := some 300 }] }, { addr := 2 ^ 30, bytes := 4096, scaleAddr := 0, fmt := 0, sck := 0, gs := 0, hint := 0, pin := false, shared := false, arrival := 0, lead := 0, streams := [[150]] }, (peg 300), by decide +kernel⟩⟩

/-- The hypotheses of QueryRows can be met. -/
theorem witness_QueryRows :
    (∃ (s : State) (slot : Nat) (x : Query), queryAt s slot = some x ∧ x.stage = .waiting ∧ (x.lc = true ∨ beHeld s = false) ∧ x.opcode ≠ 0x01 ∧ x.opcode ≠ 0x02 ∧ x.opcode ≠ 0x04) ∧
    (∃ (s : State) (slot : Nat) (x : Query), queryAt s slot = some x ∧ x.stage = .waiting ∧ (x.lc = true ∨ beHeld s = false) ∧ x.opcode = 0x01) ∧
    (∃ (s : State) (slot : Nat) (x : Query), queryAt s slot = some x ∧ x.stage = .waiting ∧ beHeld s = true ∧ x.lc = false) ∧
    (∃ (s : State) (slot : Nat) (pair : Nat) (diff : List (Nat × Byte)) (x : Query) (ids : List Nat) (i : Index) (v : Version), queryAt s slot = some x ∧ lookupKey x.reading pair = some ids ∧ pinned s x = some (i, v) ∧ scribeTurn s x (lookupKey v.nodeMap pair) = true ∧ i.lost.contains pair = false ∧ unitLost s (lookupKey v.nodeMap pair) = false) ∧
    (∃ (s : State) (slot : Nat) (pair : Nat) (diff : List (Nat × Byte)) (x : Query) (ids : List Nat) (i : Index) (v : Version), queryAt s slot = some x ∧ lookupKey x.reading pair = some ids ∧ pinned s x = some (i, v) ∧ scribeTurn s x (lookupKey v.nodeMap pair) = true ∧ i.lost.contains pair = false ∧ unitLost s (lookupKey v.nodeMap pair) = false ∧ ids ≠ []) ∧
    (∃ (s : State) (slot : Nat) (pair : Nat) (m : UnitRead) (x : Query) (ids : List Nat) (i : Index) (v : Version), (queryAt s slot = some x ∧ lookupKey x.reading pair = some ids ∧ pinned s x = some (i, v) ∧ scribeTurn s x (lookupKey v.nodeMap pair) = true) ∧ (i.lost.contains pair = true ∨ unitLost s (lookupKey v.nodeMap pair) = true)) ∧
    (∃ (s : State) (slot : Nat) (pair : Nat) (m : UnitRead) (x : Query) (i : Index) (v : Version), queryAt s slot = some x ∧ pinned s x = some (i, v) ∧ scribeTurn s x (lookupKey v.nodeMap pair) = false) ∧
    (∃ (s : State) (slot : Nat) (pair : Nat) (x : Query) (ids : List Nat) (i : Index) (v : Version) (p : Plan), queryAt s slot = some x ∧ lookupKey x.rebuilding pair = some ids ∧ pinned s x = some (i, v) ∧ planAt s x.plan = some p ∧ x.stage ≠ .pool ∧ pastGuard s x = false ∧ placeBroken s (lookupKey v.nodeMap pair) = false ∧ stripeTurn s (stripeReqs s x pair (lookupKey v.nodeMap pair)) = true) ∧
    (∃ (s : State) (slot : Nat) (unit : Nat) (x : Query) (i : Index) (v : Version) (p : Plan), queryAt s slot = some x ∧ x.rebuildUnits.contains unit = true ∧ pinned s x = some (i, v) ∧ planAt s x.plan = some p ∧ x.stage = .pool ∧ pastGuard s x = false ∧ placeBroken s (lookupKey v.rerankMap unit) = false ∧ stripeTurn s (stripeReqs s x unit (lookupKey v.rerankMap unit)) = true) ∧
    (∃ (s : State) (slot : Nat) (unit : Nat) (ok : Bool) (x : Query) (i : Index) (v : Version), queryAt s slot = some x ∧ pinned s x = some (i, v) ∧ stripeTurn s (stripeReqs s x unit (lookupKey (if x.stage = .pool then v.rerankMap else v.nodeMap) unit)) = false) ∧
    (∃ (s : State) (slot : Nat) (pair : Nat) (ok : Bool) (x : Query) (ids : List Nat) (i : Index) (v : Version) (p : Plan), (queryAt s slot = some x ∧ lookupKey x.rebuilding pair = some ids ∧ pinned s x = some (i, v) ∧ planAt s x.plan = some p ∧ x.stage ≠ .pool ∧ stripeTurn s (stripeReqs s x pair (lookupKey v.nodeMap pair)) = true) ∧ (ok = false ∨ placeBroken s (lookupKey v.nodeMap pair) = true)) ∧
    (∃ (s : State) (slot : Nat) (x : Query) (i : Index) (v : Version) (p : Plan), queryAt s slot = some x ∧ hopOver x = true ∧ readsHeld s x = false ∧ noPoison s ∧ pinned s x = some (i, v) ∧ planAt s x.plan = some p) ∧
    (∃ (s : State) (slot : Nat) (n : Nat) (x : Query) (i : Index) (v : Version) (p : Plan) (nd : Node), queryAt s slot = some x ∧ noPoison s ∧ pinned s x = some (i, v) ∧ planAt s x.plan = some p ∧ x.recs.contains n = true ∧ nodeAt v n = some nd ∧ nd.valid = true ∧ dramTurn s (recordReq s i x n) = true) ∧
    (∃ (s : State) (slot : Nat) (n : Nat) (x : Query) (i : Index) (v : Version) (p : Plan), queryAt s slot = some x ∧ pinned s x = some (i, v) ∧ planAt s x.plan = some p ∧ x.recs.contains n = true ∧ dramTurn s (recordReq s i x n) = true) ∧
    (∃ (s : State) (slot : Nat) (n : Nat) (m : DramRead) (x : Query) (i : Index) (v : Version), queryAt s slot = some x ∧ pinned s x = some (i, v) ∧ dramTurn s (recordReq s i x n) = false) ∧
    (∃ (s : State) (slot : Nat) (block : Nat) (cell : Nat) (m : Nat) (x : Query) (i : Index) (p : Plan), queryAt s slot = some x ∧ x.index = some m ∧ indexAt s m = some i ∧ planAt s x.plan = some p ∧ x.stage = .traverse ∧ x.blocks.contains block = true ∧ noPoison s ∧ x.traversalEnded = false ∧ dramTurn s (blockReq s i x) = true) ∧
    (∃ (s : State) (slot : Nat) (n : Nat) (a : Nat) (x : Query) (w : SortWord) (i : Index) (v : Version) (p : Plan), queryAt s slot = some x ∧ x.slots.find? (fun y => y.localId == n) = some w ∧ pinned s x = some (i, v) ∧ planAt s x.plan = some p ∧ x.stage = .pool ∧ flashUnit i w = none ∧ slotAddr i x w = some a ∧ dramTurn s (slotReq s i x a) = true ∧ noPoison s) ∧
    (∃ (s : State) (slot : Nat) (n : Nat) (a : Nat) (x : Query) (w : SortWord) (i : Index) (v : Version) (p : Plan), queryAt s slot = some x ∧ x.slots.find? (fun y => y.localId == n) = some w ∧ pinned s x = some (i, v) ∧ planAt s x.plan = some p ∧ x.stage = .pool ∧ flashUnit i w = none ∧ slotAddr i x w = some a ∧ dramTurn s (slotReq s i x a) = true) ∧
    (∃ (s : State) (slot : Nat) (n : Nat) (u : Nat) (m : DramRead) (x : Query) (w : SortWord) (i : Index) (v : Version) (p : Plan), queryAt s slot = some x ∧ x.slots.find? (fun y => y.localId == n) = some w ∧ pinned s x = some (i, v) ∧ planAt s x.plan = some p ∧ x.stage = .pool ∧ flashUnit i w = some u ∧ x.rebuildUnits.contains u = false ∧ scribeTurn s x (lookupKey v.rerankMap u) = true ∧ unitLost s (lookupKey v.rerankMap u) = false) ∧
    (∃ (s : State) (slot : Nat) (x : Query) (p : Plan), queryAt s slot = some x ∧ planAt s x.plan = some p ∧ x.stage = .pool ∧ x.slots = []) ∧
    (∃ (s : State) (slot : Nat) (x : Query) (p : Plan), queryAt s slot = some x ∧ x.lc = true ∧ x.stage ≠ .done ∧ planAt s x.plan = some p ∧ x.rebuilding = [] ∧ x.rebuildUnits = [] ∧ hopOver x = false ∧ (x.stage = .pool → x.slots ≠ []) ∧ x.failed = none ∧ noPoison s) ∧
    (∃ (s : State) (slot : Nat) (x : Query) (p : Plan), (queryAt s slot = some x ∧ x.lc = true ∧ x.stage ≠ .done ∧ planAt s x.plan = some p) ∧ (x.rebuilding ≠ [] ∨ x.rebuildUnits ≠ [])) ∧
    (∃ (s : State) (slot : Nat) (x : Query) (p : Plan), queryAt s slot = some x ∧ x.lc = true ∧ x.stage = .pool ∧ x.slots = [] ∧ planAt s x.plan = some p ∧ x.rebuilding = [] ∧ x.rebuildUnits = []) :=
  ⟨⟨(searching { search with stage := .waiting, opcode := 7 } (plan .run)), 5, { search with stage := .waiting, opcode := 7 }, by decide +kernel⟩,
   ⟨(searching { search with stage := .waiting }), 5, { search with stage := .waiting }, by decide +kernel⟩,
   ⟨{ searching { search with stage := .waiting } with pins := { live.pins with throttleN := false } }, 5, { search with stage := .waiting }, by decide +kernel⟩,
   ⟨(searching { search with reading := [(4, [8])] } (plan .search) { index with versions := [{ version with nodeMap := [(4, ⟨1, 0, 5⟩)], rerankMap := [(0, ⟨1, 0, 9⟩)] }], params := { params with dramTier := false } }), 5, 4, ([]), { search with reading := [(4, [8])] }, ([8]), { index with versions := [{ version with nodeMap := [(4, ⟨1, 0, 5⟩)], rerankMap := [(0, ⟨1, 0, 9⟩)] }], params := { params with dramTier := false } }, { version with nodeMap := [(4, ⟨1, 0, 5⟩)], rerankMap := [(0, ⟨1, 0, 9⟩)] }, by decide +kernel⟩,
   ⟨(searching { search with reading := [(4, [8])] } (plan .search) { index with versions := [{ version with nodeMap := [(4, ⟨1, 0, 5⟩)], rerankMap := [(0, ⟨1, 0, 9⟩)] }], params := { params with dramTier := false } }), 5, 4, ([]), { search with reading := [(4, [8])] }, ([8]), { index with versions := [{ version with nodeMap := [(4, ⟨1, 0, 5⟩)], rerankMap := [(0, ⟨1, 0, 9⟩)] }], params := { params with dramTier := false } }, { version with nodeMap := [(4, ⟨1, 0, 5⟩)], rerankMap := [(0, ⟨1, 0, 9⟩)] }, by decide +kernel⟩,
   ⟨{ searching { search with reading := [(4, [8])] } (plan .search) { index with versions := [{ version with nodeMap := [(4, ⟨1, 0, 5⟩)], rerankMap := [(0, ⟨1, 0, 9⟩)] }], params := { params with dramTier := false } } with health := { live.health with lostUnits := [(1, 0, 5)] } }, 5, 4, (⟨.ok, []⟩), { search with reading := [(4, [8])] }, ([8]), { index with versions := [{ version with nodeMap := [(4, ⟨1, 0, 5⟩)], rerankMap := [(0, ⟨1, 0, 9⟩)] }], params := { params with dramTier := false } }, { version with nodeMap := [(4, ⟨1, 0, 5⟩)], rerankMap := [(0, ⟨1, 0, 9⟩)] }, by decide +kernel, (by exact Or.inr (by decide +kernel))⟩,
   ⟨{ searching { search with reading := [(4, [8])] } (plan .search) { index with versions := [{ version with nodeMap := [(4, ⟨1, 0, 5⟩)], rerankMap := [(0, ⟨1, 0, 9⟩)] }], params := { params with dramTier := false } } with health := { live.health with dies := [{ channel := 1, die := 0, spares := 3, piece := some (0, 5) }] } }, 5, 4, (⟨.ok, []⟩), { search with reading := [(4, [8])] }, { index with versions := [{ version with nodeMap := [(4, ⟨1, 0, 5⟩)], rerankMap := [(0, ⟨1, 0, 9⟩)] }], params := { params with dramTier := false } }, { version with nodeMap := [(4, ⟨1, 0, 5⟩)], rerankMap := [(0, ⟨1, 0, 9⟩)] }, by decide +kernel⟩,
   ⟨(searching { search with rebuilding := [(4, [8])] } (plan .search) { index with versions := [{ version with nodeMap := [(4, ⟨1, 0, 5⟩)], rerankMap := [(0, ⟨1, 0, 9⟩)] }], params := { params with dramTier := false } }), 5, 4, { search with rebuilding := [(4, [8])] }, ([8]), { index with versions := [{ version with nodeMap := [(4, ⟨1, 0, 5⟩)], rerankMap := [(0, ⟨1, 0, 9⟩)] }], params := { params with dramTier := false } }, { version with nodeMap := [(4, ⟨1, 0, 5⟩)], rerankMap := [(0, ⟨1, 0, 9⟩)] }, (plan .search), by decide +kernel⟩,
   ⟨(searching { search with stage := .pool, rebuildUnits := [0], slots := [{ key := 1, id := 2048 }] } (plan .search) { { index with versions := [{ version with nodeMap := [(4, ⟨1, 0, 5⟩)], rerankMap := [(0, ⟨1, 0, 9⟩)] }], params := { params with dramTier := false } } with params := { params with dramTier := false, flashDirect := true, rfmt := 2, rdim := 16, rgs := 16 } }), 5, 0, { search with stage := .pool, rebuildUnits := [0], slots := [{ key := 1, id := 2048 }] }, { { index with versions := [{ version with nodeMap := [(4, ⟨1, 0, 5⟩)], rerankMap := [(0, ⟨1, 0, 9⟩)] }], params := { params with dramTier := false } } with params := { params with dramTier := false, flashDirect := true, rfmt := 2, rdim := 16, rgs := 16 } }, { version with nodeMap := [(4, ⟨1, 0, 5⟩)], rerankMap := [(0, ⟨1, 0, 9⟩)] }, (plan .search), by decide +kernel⟩,
   ⟨{ searching { search with rebuilding := [(4, [8])], rebuildTickets := [(4, 7)] } (plan .search) { index with versions := [{ version with nodeMap := [(4, ⟨1, 0, 5⟩), (5, ⟨2, 0, 5⟩)], rerankMap := [(0, ⟨1, 0, 9⟩)] }], params := { params with dramTier := false } } with adm := { live.adm with queries := [{ search with rebuilding := [(4, [8])], rebuildTickets := [(4, 7)] }, { search with slot := 6, lc := true, reading := [(5, [10])] }] } }, 5, 4, true, { search with rebuilding := [(4, [8])], rebuildTickets := [(4, 7)] }, { index with versions := [{ version with nodeMap := [(4, ⟨1, 0, 5⟩), (5, ⟨2, 0, 5⟩)], rerankMap := [(0, ⟨1, 0, 9⟩)] }], params := { params with dramTier := false } }, { version with nodeMap := [(4, ⟨1, 0, 5⟩), (5, ⟨2, 0, 5⟩)], rerankMap := [(0, ⟨1, 0, 9⟩)] }, by decide +kernel⟩,
   ⟨(searching { search with rebuilding := [(4, [8])], rebuildTickets := [(4, 7)] } (plan .search) { index with versions := [{ version with nodeMap := [(4, ⟨1, 0, 5⟩)], rerankMap := [(0, ⟨1, 0, 9⟩)] }], params := { params with dramTier := false } }), 5, 4, false, { search with rebuilding := [(4, [8])], rebuildTickets := [(4, 7)] }, ([8]), { index with versions := [{ version with nodeMap := [(4, ⟨1, 0, 5⟩)], rerankMap := [(0, ⟨1, 0, 9⟩)] }], params := { params with dramTier := false } }, { version with nodeMap := [(4, ⟨1, 0, 5⟩)], rerankMap := [(0, ⟨1, 0, 9⟩)] }, (plan .search), by decide +kernel, (by exact Or.inl rfl)⟩,
   ⟨(searching search (plan .search) { index with versions := [{ version with nodeMap := [(4, ⟨1, 0, 5⟩)], rerankMap := [(0, ⟨1, 0, 9⟩)] }], params := { params with dramTier := false } }), 5, search, { index with versions := [{ version with nodeMap := [(4, ⟨1, 0, 5⟩)], rerankMap := [(0, ⟨1, 0, 9⟩)] }], params := { params with dramTier := false } }, { version with nodeMap := [(4, ⟨1, 0, 5⟩)], rerankMap := [(0, ⟨1, 0, 9⟩)] }, (plan .search), by unfold noPoison; decide +kernel⟩,
   ⟨(searching { search with recs := [8] }), 5, 8, { search with recs := [8] }, index, version, (plan .search), node, by unfold noPoison; decide +kernel⟩,
   ⟨(searching { search with recs := [8] }), 5, 8, { search with recs := [8] }, index, version, (plan .search), by decide +kernel⟩,
   ⟨{ searching { search with recs := [8] } (plan .search) { index with parts := [{ part := .compact, base := 4096, pages := 1 }, { part := .attributes, base := 4097, pages := 1 }] } with adm := { live.adm with queries := [{ search with recs := [8] }, { search with recs := [8], slot := 6, lc := true }] }, tier := { live.tier with frames := [{ num := 4096, state := .dram, page := 4096 }] } }, 5, 8, { media := .ok }, { search with recs := [8] }, { index with parts := [{ part := .compact, base := 4096, pages := 1 }, { part := .attributes, base := 4097, pages := 1 }] }, version, by decide +kernel⟩,
   ⟨(searching { search with blocks := [0] }), 5, 0, 9600, 2, { search with blocks := [0] }, index, (plan .search), by unfold noPoison; decide +kernel⟩,
   ⟨(searching { search with stage := .pool, slots := [{ key := 1, id := 2048 }] } (plan .search) { index with params := { params with rfmt := 2, rdim := 16, rgs := 16 }, parts := [{ part := .driftBuffer, base := 4096, pages := 1 }, { part := .store, base := 4097, pages := 1 }] }), 5, 8, (((slotAddr ({ index with params := { params with rfmt := 2, rdim := 16, rgs := 16 }, parts := [{ part := .driftBuffer, base := 4096, pages := 1 }, { part := .store, base := 4097, pages := 1 }] }) ({ search with stage := .pool, slots := [{ key := 1, id := 2048 }] }) ({ key := 1, id := 2048 })).getD 0)), { search with stage := .pool, slots := [{ key := 1, id := 2048 }] }, { key := 1, id := 2048 }, { index with params := { params with rfmt := 2, rdim := 16, rgs := 16 }, parts := [{ part := .driftBuffer, base := 4096, pages := 1 }, { part := .store, base := 4097, pages := 1 }] }, version, (plan .search), by unfold noPoison; decide +kernel⟩,
   ⟨(searching { search with stage := .pool, slots := [{ key := 1, id := 2048 }] } (plan .search) { index with params := { params with rfmt := 2, rdim := 16, rgs := 16 }, parts := [{ part := .driftBuffer, base := 4096, pages := 1 }, { part := .store, base := 4097, pages := 1 }] }), 5, 8, (((slotAddr ({ index with params := { params with rfmt := 2, rdim := 16, rgs := 16 }, parts := [{ part := .driftBuffer, base := 4096, pages := 1 }, { part := .store, base := 4097, pages := 1 }] }) ({ search with stage := .pool, slots := [{ key := 1, id := 2048 }] }) ({ key := 1, id := 2048 })).getD 0)), { search with stage := .pool, slots := [{ key := 1, id := 2048 }] }, { key := 1, id := 2048 }, { index with params := { params with rfmt := 2, rdim := 16, rgs := 16 }, parts := [{ part := .driftBuffer, base := 4096, pages := 1 }, { part := .store, base := 4097, pages := 1 }] }, version, (plan .search), by decide +kernel⟩,
   ⟨(searching { search with stage := .pool, slots := [{ key := 1, id := 8 * 256 }] } (plan .search) { { index with versions := [{ version with nodeMap := [(4, ⟨1, 0, 5⟩)], rerankMap := [(0, ⟨1, 0, 9⟩)] }], params := { params with dramTier := false } } with params := { params with dramTier := false, flashDirect := true, rfmt := 2, rdim := 16, rgs := 16 } }), 5, 8, 0, { media := .ok }, { search with stage := .pool, slots := [{ key := 1, id := 8 * 256 }] }, { key := 1, id := 8 * 256 }, { { index with versions := [{ version with nodeMap := [(4, ⟨1, 0, 5⟩)], rerankMap := [(0, ⟨1, 0, 9⟩)] }], params := { params with dramTier := false } } with params := { params with dramTier := false, flashDirect := true, rfmt := 2, rdim := 16, rgs := 16 } }, { version with nodeMap := [(4, ⟨1, 0, 5⟩)], rerankMap := [(0, ⟨1, 0, 9⟩)] }, (plan .search), by decide +kernel⟩,
   ⟨(searching { search with stage := .pool }), 5, { search with stage := .pool }, (plan .search), by decide +kernel⟩,
   ⟨(searching { search with lc := true, reading := [(4, [8])] } (plan .search) { index with versions := [{ version with nodeMap := [(4, ⟨1, 0, 5⟩)], rerankMap := [(0, ⟨1, 0, 9⟩)] }], params := { params with dramTier := false } }), 5, { search with lc := true, reading := [(4, [8])] }, (plan .search), by unfold noPoison; decide +kernel⟩,
   ⟨(searching { search with lc := true, rebuilding := [(4, [8])] } (plan .search) { index with versions := [{ version with nodeMap := [(4, ⟨1, 0, 5⟩)], rerankMap := [(0, ⟨1, 0, 9⟩)] }], params := { params with dramTier := false } }), 5, { search with lc := true, rebuilding := [(4, [8])] }, (plan .search), by decide +kernel, (by exact Or.inl (by decide +kernel))⟩,
   ⟨(searching { search with lc := true, stage := .pool }), 5, { search with lc := true, stage := .pool }, (plan .search), by decide +kernel⟩⟩

/-- The hypotheses of IndexRows can be met. -/
theorem witness_IndexRows :
    (∃ (s : State) (cid : Nat) (c : Cmd), adminTakes s cid 0x80 c ∧ nsStatus s (field c.sqe 64 12) c.sqe (nsParams c.sqe) = stOk) ∧
    (∃ (s : State) (cid : Nat) (c : Cmd) (x : Index), adminTakes s cid 0x81 c ∧ indexAt s (field c.sqe 64 12) = some x ∧ indexBusy x = false ∧ merging x = false ∧ (∀ p ∈ s.bay.plans, p.index ≠ some (field c.sqe 64 12))) ∧
    (∃ (s : State) (n : Nat) (cid : Nat) (x : Index), indexAt s n = some x ∧ x.deleting = some cid ∧ queriesOn s n = []) ∧
    (∃ (s : State) (q : Nat) (cid : Nat) (n : Nat) (k : Nat) (block : Bytes) (es : List InsertEntry) (c : Cmd) (x : Index), ioTakes s q cid 0x05 c ∧ n = cmdIndex c.sqe ∧ k = cmdCount c.sqe ∧ indexAt s n = some x ∧ indexBusy x = false ∧ insertStride x.params * k ≤ block.length ∧ es = (List.range k).map (cutInsert x.params block) ∧ firstBadEntry x es [] 0 = none ∧ driftL x + k ≤ driftRoom s x ∧ maskAtLevel s x.params.groups 1 = false) ∧
    (∃ (s : State) (q : Nat) (cid : Nat) (k : Nat) (block : Bytes) (es : List InsertEntry) (c : Cmd) (x : Index) (st : Nat) (i : Nat), ioTakes s q cid 0x05 c ∧ indexAt s (cmdIndex c.sqe) = some x ∧ indexBusy x = false ∧ k = cmdCount c.sqe ∧ insertStride x.params * k ≤ block.length ∧ es = (List.range k).map (cutInsert x.params block) ∧ firstBadEntry x es [] 0 = some (st, i)) ∧
    (∃ (s : State) (q : Nat) (cid : Nat) (n : Nat) (ids : List Word64) (c : Cmd) (x : Index), (ioTakes s q cid 0x06 c ∧ n = cmdIndex c.sqe ∧ cmdCount c.sqe ≤ ids.length ∧ indexAt s n = some x ∧ indexBusy x = false) ∧ (∀ v ∈ ids.take (cmdCount c.sqe), vidIndex v = n ∧ vidRsvd v = 0)) ∧
    (∃ (s : State) (q : Nat) (cid : Nat) (c : Cmd) (u : Queue), queueOf s q = some u ∧ runningCmd s q cid = some c ∧ startedUpdate c = true ∧ q ≠ adminQ ∧ journalHeld s q cid = false ∧ s.link.degraded = false) :=
  ⟨⟨(adm (cmd 9 (0x80 + 2 * 2 ^ 64 + 1024 * 2 ^ 80 + 4095 * 2 ^ 224))), 9, (cmd 9 (0x80 + 2 * 2 ^ 64 + 1024 * 2 ^ 80 + 4095 * 2 ^ 224)), by unfold adminTakes; decide +kernel⟩,
   ⟨{ adm (cmd 9 (0x81 + 2 * 2 ^ 64)) with indexes := [index] }, 9, (cmd 9 (0x81 + 2 * 2 ^ 64)), index, by unfold adminTakes; decide +kernel⟩,
   ⟨{ live with indexes := [{ index with deleting := some 9 }] }, 2, 9, { index with deleting := some 9 }, by decide +kernel⟩,
   ⟨(planned [cmd 9 (5 + 2 * 2 ^ 64)] { plan .run with index := none }), 3, 9, 2, 1, (natLe 32 (10 + 2 * 2 ^ 52) ++ List.replicate 96 5), ((List.range 1).map (cutInsert index.params (natLe 32 (10 + 2 * 2 ^ 52) ++ List.replicate 96 5))), (cmd 9 (5 + 2 * 2 ^ 64)), index, by unfold ioTakes; decide +kernel⟩,
   ⟨(planned [cmd 9 (5 + 2 * 2 ^ 64)] { plan .run with index := none }), 3, 9, 1, (natLe 32 (8 + 2 * 2 ^ 52) ++ List.replicate 96 5), ((List.range 1).map (cutInsert index.params (natLe 32 (8 + 2 * 2 ^ 52) ++ List.replicate 96 5))), (cmd 9 (5 + 2 * 2 ^ 64)), index, stIdInUse, 0, by unfold ioTakes; decide +kernel⟩,
   ⟨(planned [cmd 9 (6 + 2 * 2 ^ 64 + 2 ^ 80)] (plan .search)), 3, 9, 2, ([BitVec.ofNat 64 (8 + 2 * 2 ^ 52), BitVec.ofNat 64 (4096 + 2 * 2 ^ 52)]), (cmd 9 (6 + 2 * 2 ^ 64 + 2 ^ 80)), index, by unfold ioTakes; decide +kernel, (by intro v h; exact of_decide_eq_true (List.all_eq_true.mp (by decide +kernel : (([BitVec.ofNat 64 (8 + 2 * 2 ^ 52), BitVec.ofNat 64 (4096 + 2 * 2 ^ 52)] : List Word64).take (cmdCount (cmd 9 (6 + 2 * 2 ^ 64 + 2 ^ 80)).sqe)).all (fun v => decide (vidIndex v = 2 ∧ vidRsvd v = 0)) = true) v h))⟩,
   ⟨(planned [ran 9 6] (plan .search)), 3, 9, (ran 9 6), ((pair [ran 9 6]).q), by decide +kernel⟩⟩

/-- The hypotheses of DeleteSetsKerfBits can be met. -/
theorem witness_DeleteSetsKerfBits :
    (∃ (s : State) (q : Nat) (cid : Nat) (ids : List Word64) (c : Cmd) (x : Index) (u : Queue), (ioTakes s q cid 0x06 c ∧ queueOf s q = some u ∧ cmdCount c.sqe ≤ ids.length ∧ indexAt s (cmdIndex c.sqe) = some x ∧ indexBusy x = false) ∧ (∀ v ∈ ids.take (cmdCount c.sqe), vidIndex v = cmdIndex c.sqe ∧ vidRsvd v = 0)) ∧
    (∃ (s : State) (q : Nat) (cid : Nat) (c : Cmd) (u : Queue), queueOf s q = some u ∧ runningCmd s q cid = some c ∧ sqeOpcode c.sqe = 0x06 ∧ q ≠ adminQ ∧ journalHeld s q cid = false ∧ s.link.degraded = false) :=
  ⟨⟨(planned [cmd 9 (6 + 2 * 2 ^ 64 + 2 ^ 80)] (plan .search)), 3, 9, ([BitVec.ofNat 64 (8 + 2 * 2 ^ 52), BitVec.ofNat 64 (4096 + 2 * 2 ^ 52)]), (cmd 9 (6 + 2 * 2 ^ 64 + 2 ^ 80)), index, ((pair [cmd 9 (6 + 2 * 2 ^ 64 + 2 ^ 80)]).q), by unfold ioTakes; decide +kernel, (by intro v h; exact of_decide_eq_true (List.all_eq_true.mp (by decide +kernel : (([BitVec.ofNat 64 (8 + 2 * 2 ^ 52), BitVec.ofNat 64 (4096 + 2 * 2 ^ 52)] : List Word64).take (cmdCount (cmd 9 (6 + 2 * 2 ^ 64 + 2 ^ 80)).sqe)).all (fun v => decide (vidIndex v = cmdIndex (cmd 9 (6 + 2 * 2 ^ 64 + 2 ^ 80)).sqe ∧ vidRsvd v = 0)) = true) v h))⟩,
   ⟨(planned [ran 9 6] (plan .search)), 3, 9, (ran 9 6), ((pair [ran 9 6]).q), by decide +kernel⟩⟩

/-- The hypotheses of FirnRows can be met. -/
theorem witness_FirnRows :
    (∃ (s : State) (cid : Nat) (n : Nat) (ctx : Nat) (sweep : Bool) (row : Instr) (c : Cmd) (x : Index) (k : Ctx), (row, sweep) ∈ [(.firnMergeDrift cid, false), (.firnMergeSweep cid, true)] ∧ adminTakes s cid 0x8E c ∧ flag c.sqe 92 = sweep ∧ n = field c.sqe 64 12 ∧ ctx = field c.sqe 80 12 ∧ 4096 ≤ mergeRound c.sqe ∧ mergeRound c.sqe ≤ 2 ^ 20 ∧ mergeRound c.sqe % 4096 = 0 ∧ indexAt s n = some x ∧ ctxAt s ctx = some k ∧ indexBusy x = false ∧ merging x = false ∧ x.version ≠ 0xFFFFFFFF ∧ (sweep = false → maskAtLevel s x.params.groups 2 = false) ∧ (driftMerged x = true → sweep = true)) ∧
    (∃ (s : State) (n : Nat) (x : Index) (m : MergeState) (v : Version), indexAt s n = some x ∧ x.merge = some m ∧ versionAt x x.version = some v ∧ m.building = none ∧ mergeOver x m = false ∧ beHeld s = false ∧ moreParts s x (roundVersion s x m v) = []) ∧
    (∃ (s : State) (n : Nat) (x : Index) (m : MergeState), indexAt s n = some x ∧ x.merge = some m ∧ beHeld s = true) ∧
    (∃ (s : State) (n : Nat) (x : Index) (m : MergeState) (b : Version), indexAt s n = some x ∧ x.merge = some m ∧ m.building = some b) ∧
    (∃ (s : State) (n : Nat) (cause : CutoffCause) (x : Index), indexAt s n = some x ∧ merging x = true) ∧
    (∃ (s : State) (n : Nat) (k : Nat) (x : Index) (v : Version), indexAt s n = some x ∧ versionAt x k = some v ∧ k ≠ x.version ∧ (∀ y ∈ queriesOn s n, y.version ≠ k)) ∧
    (∃ (s : State) (n : Nat) (x : Index), indexAt s n = some x) :=
  ⟨⟨(adm (cmd 9 (0x8E + 2 * 2 ^ 64 + 7 * 2 ^ 80)) (planned [] (plan .search))), 9, 2, 7, false, (.firnMergeDrift 9), (cmd 9 (0x8E + 2 * 2 ^ 64 + 7 * 2 ^ 80)), index, { num := 7, bay := 0, progress := 0 }, by unfold adminTakes; decide +kernel⟩,
   ⟨(planned [] (plan .search) { index with merge := some { cid := 9, ctx := 7, sweep := false, round := 65536, maxRounds := 0 }, parts := [{ part := .nodeRoots, base := 436211711, pages := 1 }, { part := .rerankRoots, base := 436211710, pages := 1 }] }), 2, { index with merge := some { cid := 9, ctx := 7, sweep := false, round := 65536, maxRounds := 0 }, parts := [{ part := .nodeRoots, base := 436211711, pages := 1 }, { part := .rerankRoots, base := 436211710, pages := 1 }] }, { cid := 9, ctx := 7, sweep := false, round := 65536, maxRounds := 0 }, version, by decide +kernel⟩,
   ⟨{ planned [] (plan .search) { index with merge := some { cid := 9, ctx := 7, sweep := false, round := 65536, maxRounds := 0 } } with pins := { throttleN := false } }, 2, { index with merge := some { cid := 9, ctx := 7, sweep := false, round := 65536, maxRounds := 0 } }, { cid := 9, ctx := 7, sweep := false, round := 65536, maxRounds := 0 }, by decide +kernel⟩,
   ⟨(planned [] (plan .search) { index with merge := some { cid := 9, ctx := 7, sweep := false, round := 65536, maxRounds := 0, building := some { num := 1, driftBase := 1 } } }), 2, { index with merge := some { cid := 9, ctx := 7, sweep := false, round := 65536, maxRounds := 0, building := some { num := 1, driftBase := 1 } } }, { cid := 9, ctx := 7, sweep := false, round := 65536, maxRounds := 0, building := some { num := 1, driftBase := 1 } }, { num := 1, driftBase := 1 }, by decide +kernel⟩,
   ⟨(planned [] (plan .search) { index with merge := some { cid := 9, ctx := 7, sweep := false, round := 65536, maxRounds := 0, building := some { num := 1, driftBase := 1 } } }), 2, .powerLoss, { index with merge := some { cid := 9, ctx := 7, sweep := false, round := 65536, maxRounds := 0, building := some { num := 1, driftBase := 1 } } }, by decide +kernel⟩,
   ⟨(planned [] (plan .search) { index with version := 1, versions := [version, { num := 1, driftBase := 1 }] }), 2, 0, { index with version := 1, versions := [version, { num := 1, driftBase := 1 }] }, version, by decide +kernel⟩,
   ⟨(planned [] (plan .search)), 2, index, by decide +kernel⟩⟩

/-- The hypotheses of BayRows can be met. -/
theorem witness_BayRows :
    (∃ (s : State) (cid : Nat) (b : Nat) (hdr : BitVec 1024) (regs : List (BitVec 128)) (c : Cmd), (adminTakes s cid 0x86 c ∧ b = field c.sqe 64 6 ∧ refitHolds s 0x2000 1 = false ∧ refitHolds s 0x3000 0 = false ∧ bindStatus s b hdr regs = stOk ∧ bindRoom s b hdr regs = true) ∧ liftsFloor s (acceptBind s c b hdr regs) = false) ∧
    (∃ (s : State) (cid : Nat) (b : Nat) (c : Cmd), adminTakes s cid 0x87 c ∧ b = field c.sqe 64 6 ∧ b ≠ 0 ∧ field c.sqe 80 16 ≤ 60000 ∧ bayBound s b = true ∧ bayReclaiming s b = false) ∧
    (∃ (s : State) (b : Nat) (e : Nat) (cid : Nat), (bayAt s b).mode = .reclaiming ∧ (bayAt s b).expiry = some (e, cid) ∧ (bayAt s b).expired = false ∧ bayCutRuns s b = false) ∧
    (∃ (s : State) (b : Nat) (e : Nat) (cid : Nat), (bayAt s b).mode = .reclaiming ∧ (bayAt s b).expiry = some (e, cid) ∧ (bayAt s b).expired = false ∧ bayCutRuns s b = true) ∧
    (∃ (s : State) (b : Nat) (a : Nat), (bayAt s b).mode = .reclaiming ∧ resourceBusy s b (.array a) = false ∧ (bayAt s b).arrays.contains a = true ∧ awaitedArray s a = false) ∧
    (∃ (s : State) (b : Nat), (bayAt s b).mode = .reclaiming ∧ resourceBusy s b .slotBlocks = false) ∧
    (∃ (s : State) (b : Nat) (e : Nat) (cid : Nat), (bayAt s b).mode = .reclaiming ∧ (bayAt s b).expiry = some (e, cid) ∧ (bayAt s b).arrays = [] ∧ (bayAt s b).flash = [] ∧ (bayAt s b).excl = [] ∧ (bayAt s b).slotBlocks = [] ∧ (bayAt s b).pegBlocks = [] ∧ (bayAt s b).credits = 0 ∧ functionEnded s b) ∧
    (∃ (s : State) (d : Nat), (frameAt s d).zeroing = true) ∧
    (∃ (s : State) (b : Nat), bayBound s b = true ∧ (bayAt s b).slice = none) ∧
    (∃ (s : State) (b : Nat) (c0 : Nat) (lim : Nat), bayBound s b = true ∧ (bayAt s b).slice = some (c0, lim)) ∧
    (∃ (s : State) (b : Nat) (ctx : Nat) (c : Ctx), ctxAt s ctx = some c ∧ c.bay = b ∧ beHeld s = false ∧ (bayAt s b).promoted = none ∧ beWork s ctx = true ∧ (∀ d ∈ s.bay.contexts, d.bay = b → d.num ≠ ctx → beWork s d.num = false)) ∧
    (∃ (s : State) (b : Nat) (ctx : Nat) (lim : Nat), (bayAt s b).promoted = some (ctx, lim)) ∧
    (∃ (s : State) (ctx : Nat) (cause : Nat) (c : Ctx), ctxAt s ctx = some c) :=
  ⟨⟨(adm (cmd 9 (0x86 + 63 * 2 ^ 64))), 9, 63, ((1#1024 <<< 864) ||| (1#1024 <<< 574) ||| (1#1024 <<< 582)), ([]), (cmd 9 (0x86 + 63 * 2 ^ 64)), by unfold adminTakes; decide +kernel, (by exact liftsFloor_of_same (congrArg Config.powerFloorLc (by decide +kernel)))⟩,
   ⟨(adm (cmd 9 (0x87 + 1 * 2 ^ 64 + 60000 * 2 ^ 80)) (bayed 1 { mode := .bound })), 9, 1, (cmd 9 (0x87 + 1 * 2 ^ 64 + 60000 * 2 ^ 80)), by unfold adminTakes; decide +kernel⟩,
   ⟨(bayed 1 { mode := .reclaiming, expiry := some (5, 9) }), 1, 5, 9, by decide +kernel⟩,
   ⟨{ bayed 1 { mode := .reclaiming, expiry := some (5, 9) } with adm := { live.adm with queries := [{ query with bay := 1, lc := false, running := [{ cut := 0, start := 0 }] }] } }, 1, 5, 9, by decide +kernel⟩,
   ⟨(bayed 1 { mode := .reclaiming, arrays := [159] }), 1, 159, by decide +kernel⟩,
   ⟨(bayed 1 { mode := .reclaiming, slotBlocks := [9] }), 1, by decide +kernel⟩,
   ⟨(bayed 1 { mode := .reclaiming, expiry := some (5, 9) }), 1, 5, 9, by unfold functionEnded; decide +kernel⟩,
   ⟨(tiered 1 0 { frames := [{ num := 5000, state := .free, zeroing := true }] }), 5000, by decide +kernel⟩,
   ⟨live, 0, by decide +kernel⟩,
   ⟨(bayed 1 { mode := .bound, slice := some (7, 5) }), 1, 7, 5, by decide +kernel⟩,
   ⟨(querying query), 0, 7, { num := 7, bay := 0, progress := 0 }, by decide +kernel⟩,
   ⟨(bayed 1 { mode := .bound, promoted := some (7, 5) }), 1, 7, 5, by decide +kernel⟩,
   ⟨(io []), 7, 1, { num := 7, bay := 0, progress := 0 }, by decide +kernel⟩⟩

/-- The hypotheses of SelectionRows can be met. -/
theorem witness_SelectionRows :
    (∃ (s : State) (cell : Nat) (n : Nat) (w : Word64) (src : Loc) (dst : Loc), storesWf s ∧ selOk w 0x40 = true ∧ selCount w = 0 ∧ n ≤ 2048 ∧ selReach s cell [(src, 10 * n)] [(dst, 10 * n)] ∧ (readWords s cell w src n).contains padWord = false) ∧
    (∃ (s : State) (cell : Nat) (n : Nat) (k : Nat) (w : Word64) (src : Loc) (dst : Loc), storesWf s ∧ selOk w 0x41 = true ∧ k = min (selCount w) n ∧ selReach s cell [(src, 10 * n)] [(dst, 10 * k)] ∧ (readWords s cell w src n).contains padWord = false) ∧
    (∃ (s : State) (cell : Nat) (n : Nat) (w : Word64) (src : Loc) (dst : Loc) (x : Word32) (hits : List SortWord), storesWf s ∧ selOk w 0x42 = true ∧ selReach s cell [(src, 10 * n)] [(dst, 10 * min (selCount w) n)] ∧ (readWords s cell w src n).contains padWord = false ∧ hits = (readWords s cell w src n).filter (fun y => y.key.toNat ≤ x.toNat)) ∧
    (∃ (s : State) (cell : Nat) (w : Word64) (srcs : List (Loc × Nat)) (dst : Loc) (ws : List SortWord) (out : List SortWord), storesWf s ∧ selOk w 0x43 = true ∧ srcs.length = selLists w ∧ selReach s cell (srcs.map (fun e => (e.1, 10 * e.2))) [(dst, 10 * min (selCount w) (sumOf (srcs.map (fun e => e.2))))] ∧ ws = srcs.flatMap (fun e => readWords s cell w e.1 e.2) ∧ ws.contains padWord = false ∧ out = (if selDedup w then dedupBy (fun y => y.id.toNat) [] (sortWords ws) else sortWords ws).take (selCount w)) ∧
    (∃ (s : State) (cell : Nat) (n : Nat) (w : Word64) (src : Loc) (vs : List Nat), selOk w 0x44 = true ∧ selType w ≠ 0 ∧ selCount w = 0 ∧ selReach s cell [(src, scoreBytes (selType w) * n)] [] ∧ vs = (piecesOf (scoreBytes (selType w)) (storeRead s cell src (scoreBytes (selType w) * n))).map leNat) ∧
    (∃ (s : State) (cell : Nat) (n : Nat) (w : Word64) (src : Loc) (dst : Loc), storesWf s ∧ selOk w 0x40 = true ∧ selCount w = 0 ∧ n ≤ 2048 ∧ selReach s cell [(src, 10 * n)] [(dst, 10 * n)] ∧ (readWords s cell w src n).contains padWord = true) ∧
    (∃ (s : State) (cell : Nat) (op : Nat) (n : Nat) (w : Word64) (src : Loc) (dst : Loc) (x : Word32) (srcs : List (Loc × Nat)) (row : Instr), (row, op) ∈ [(.sort cell w src dst n, 0x40), (.select cell w src dst n, 0x41), (.thresh cell w src dst n x, 0x42), (.merge cell w srcs dst, 0x43), (.argmax cell w src n, 0x44)] ∧ selOk w op = false) ∧
    (∃ (s : State) (cell : Nat) (n : Nat) (w : Word64) (src : Loc) (dst : Loc) (y : Query), selOk w 0x41 = true ∧ cellOwner s cell = some y ∧ storeFits s cell src (10 * n) = true ∧ storeFits s cell dst (10 * min (selCount w) n) = true ∧ placeBad s (placeOfLoc cell src) (10 * n) = true) :=
  ⟨⟨live, 10239, 2, (BitVec.ofNat 64 (64 * 2 ^ 56 + 0 * 2 ^ 55 + 0 * 2 ^ 50 + 0 * 2 ^ 44 + 0)), (⟨.cellStore, 32748⟩), (⟨.arrayStore, 1048556⟩), by unfold storesWf selReach; decide +kernel⟩,
   ⟨live, 64, 3, 2, (BitVec.ofNat 64 (65 * 2 ^ 56 + 0 * 2 ^ 55 + 0 * 2 ^ 50 + 0 * 2 ^ 44 + 2)), (⟨.cellStore, 0⟩), (⟨.cellStore, 32748⟩), by unfold storesWf selReach; decide +kernel⟩,
   ⟨live, 64, 3, (BitVec.ofNat 64 (66 * 2 ^ 56 + 0 * 2 ^ 55 + 0 * 2 ^ 50 + 0 * 2 ^ 44 + 2)), (⟨.cellStore, 0⟩), (⟨.cellStore, 32748⟩), 0, ((readWords live 64 (BitVec.ofNat 64 (66 * 2 ^ 56 + 0 * 2 ^ 55 + 0 * 2 ^ 50 + 0 * 2 ^ 44 + 2)) ⟨.cellStore, 0⟩ 3).filter (fun y => y.key.toNat ≤ 0)), by unfold storesWf selReach; decide +kernel⟩,
   ⟨live, 64, (BitVec.ofNat 64 (67 * 2 ^ 56 + 1 * 2 ^ 55 + 0 * 2 ^ 50 + 1 * 2 ^ 44 + 2)), ([(⟨.cellStore, 0⟩, 2), (⟨.arrayStore, 0⟩, 1)]), (⟨.cellStore, 32748⟩), (readWords live 64 (BitVec.ofNat 64 (67 * 2 ^ 56 + 1 * 2 ^ 55 + 0 * 2 ^ 50 + 1 * 2 ^ 44 + 2)) ⟨.cellStore, 0⟩ 2 ++ readWords live 64 (BitVec.ofNat 64 (67 * 2 ^ 56 + 1 * 2 ^ 55 + 0 * 2 ^ 50 + 1 * 2 ^ 44 + 2)) ⟨.arrayStore, 0⟩ 1), ([⟨0, 0⟩]), by unfold storesWf selReach; decide +kernel⟩,
   ⟨live, 64, 2, (BitVec.ofNat 64 (68 * 2 ^ 56 + 0 * 2 ^ 55 + 4 * 2 ^ 50 + 0 * 2 ^ 44 + 0)), (⟨.cellStore, 32764⟩), ([0, 0]), by unfold selReach; decide +kernel⟩,
   ⟨{ live with cells := { cellStore := (List.range 10).map (fun i => (32768 * 64 + i, 0xFF)) } }, 64, 2, (BitVec.ofNat 64 (64 * 2 ^ 56 + 0 * 2 ^ 55 + 0 * 2 ^ 50 + 0 * 2 ^ 44 + 0)), (⟨.cellStore, 0⟩), (⟨.cellStore, 32748⟩), by unfold storesWf selReach; decide +kernel⟩,
   ⟨live, 64, 0x41, 3, (BitVec.ofNat 64 (66 * 2 ^ 56 + 0 * 2 ^ 55 + 0 * 2 ^ 50 + 0 * 2 ^ 44 + 2)), (⟨.cellStore, 0⟩), (⟨.cellStore, 32748⟩), 0, ([]), (.select 64 (BitVec.ofNat 64 (66 * 2 ^ 56 + 0 * 2 ^ 55 + 0 * 2 ^ 50 + 0 * 2 ^ 44 + 2)) ⟨.cellStore, 0⟩ ⟨.cellStore, 32748⟩ 3), by decide +kernel⟩,
   ⟨{ searching { search with stage := .cuts, opcode := 7, running := [{ cut := 0, start := 0 }] } (plan .run) with bay := { (searching { search with stage := .cuts, opcode := 7, running := [{ cut := 0, start := 0 }] } (plan .run)).bay with regions := [{ base := 4096, pages := 16, kind := 1, hint := 0, groups := 1, bay := 0 }] }, tier := { live.tier with frames := [{ num := 4096, state := .dram, page := 4096 }], poison := [262144 * 4096] } }, 9600, 3, (BitVec.ofNat 64 (65 * 2 ^ 56 + 0 * 2 ^ 55 + 0 * 2 ^ 50 + 0 * 2 ^ 44 + 2)), (⟨.dram, 2 ^ 30⟩), (⟨.cellStore, 0⟩), { search with stage := .cuts, opcode := 7, running := [{ cut := 0, start := 0 }] }, by decide +kernel⟩⟩

/-- The hypotheses of RimeWordRows can be met. -/
theorem witness_RimeWordRows :
    (∃ (s : State) (bank : Nat) (op : Nat) (cyc : Nat) (n : List Nat) (w : BitVec 128) (m : Media) (row : Instr) (open_ : Option Nat), (row, op, m, n) ∈ [(.nop bank w, 0x00, .ok, []), (.clr bank w, 0x01, .ok, []), (.loadq bank w m n, 0x02, m, n), (.loadr bank w m n, 0x03, m, n), (.dot bank w m n, 0x10, m, n), (.maxsim bank w m n, 0x11, m, n), (.wsum bank w m n, 0x12, m, n), (.vmax bank w, 0x13, .ok, []), (.rmax bank w, 0x14, .ok, [])] ∧ rimeEnabled s bank = true ∧ (rimeBank s bank).segment.isSome = true ∧ (rimeBank s bank).unit.susp = false ∧ nextWord (rimeBank s bank) = some w ∧ rwOp w = op ∧ rwLegal w = true ∧ (rwExtent w = 0 ∨ rwByte w + rwExtent w ≤ 245760 * 1024) ∧ operandFault s bank w m = 0 ∧ (cyc, open_) = (rwCycles w (rowOpenings (rimeBank s bank).unit.openRow (spanRows (rwByte w) (rwSpans w))).1, (rowOpenings (rimeBank s bank).unit.openRow (spanRows (rwByte w) (rwSpans w))).2)) ∧
    (∃ (s : State) (bank : Nat) (w : BitVec 128), storesWf s ∧ rimeEnabled s bank = true ∧ (rimeBank s bank).segment.isSome = true ∧ (rimeBank s bank).unit.susp = false ∧ nextWord (rimeBank s bank) = some w ∧ rwOp w = 0x04 ∧ rwLegal w = true ∧ rwByte w + rwExtent w ≤ 245760 * 1024) ∧
    (∃ (s : State) (bank : Nat) (op : Nat) (n : List Nat) (w : BitVec 128) (m : Media) (row : Instr), (row, op) ∈ [(.nop bank w, 0x00), (.clr bank w, 0x01), (.loadq bank w m n, 0x02), (.loadr bank w m n, 0x03), (.storer bank w, 0x04), (.dot bank w m n, 0x10), (.maxsim bank w m n, 0x11), (.wsum bank w m n, 0x12), (.vmax bank w, 0x13), (.rmax bank w, 0x14)] ∧ rimeEnabled s bank = true ∧ (rimeBank s bank).segment.isSome = true ∧ (rimeBank s bank).unit.susp = false ∧ nextWord (rimeBank s bank) = some w ∧ rwOp w = op ∧ rwLegal w = false) ∧
    (∃ (s : State) (bank : Nat) (w : BitVec 128), rwOp w = 0x01) :=
  ⟨⟨(rimed [{ bank := 0, segment := some 2000000000, unit := { cmdq := [word 1] } }]), 0, 1, ((rwCycles (word 1) 0)), ([]), (word 1), .ok, (.clr 0 (word 1)), none, by decide +kernel⟩,
   ⟨(rimed [{ bank := 0, segment := some 2000000000, unit := { cmdq := [word 4] } }]), 0, (word 4), by unfold storesWf; decide +kernel⟩,
   ⟨(rimed [{ bank := 0, segment := some 2000000000, unit := { cmdq := [word 16 ||| (1#128 <<< 121)] } }]), 0, 16, ([]), (word 16 ||| (1#128 <<< 121)), .ok, (.dot 0 (word 16 ||| (1#128 <<< 121)) .ok []), by decide +kernel⟩,
   ⟨live, 4095, (word 1), by decide +kernel⟩⟩

/-- The hypotheses of RimeConcurrencyLimit can be met. -/
theorem witness_RimeConcurrencyLimit :
    (∃ (s : State) (t : State), rimeSlotsWf s ∧ Machine.step s = .next t) ∧
    (∃ (s : State) (u : State) (bank : Nat) (len : Nat), u = chooseRequest s bank ∧ (rimeBank u bank).segment = none ∧ (rimeBank u bank).current ≠ none ∧ rimeEnabled u bank = true ∧ len = min (segmentLimit u.health.refreshMult) (segmentDue u bank - u.time.dtb) ∧ 400 ≤ len ∧ (1024 ≤ (computingBanks u).length ∨ 8 ≤ ((computingBanks u).filter (fun b => b.bank / 32 == bank / 32)).length)) :=
  ⟨⟨State.reset, _, (by exact ⟨by decide +kernel, by decide +kernel, fun _ => Nat.zero_le 8⟩), rfl⟩,
   ⟨full, full, 8, 3200, by decide +kernel⟩⟩

/-- The hypotheses of RimeRequestRows can be met. -/
theorem witness_RimeRequestRows :
    (∃ (s : State) (slot : Option Nat) (ctx : Nat) (cell : Nat) (deadline : Nat) (bank : Nat) (desc : BitVec 256) (lc : Bool), requestClass s slot ctx = some (lc, deadline) ∧ rdOk desc = true ∧ (requestList s cell desc).any (fun w => rwOp w == 0x3E || rwOp w == 0x3F) = false ∧ homeBank s slot ctx (rdHome desc) = some bank) ∧
    (∃ (s : State) (slot : Option Nat) (ctx : Nat) (cell : Nat) (code : Nat) (desc : BitVec 256) (c : Bool × Nat), requestClass s slot ctx = some c ∧ ((rdOk desc = false ∨ ∃ w ∈ requestList s cell desc, rwOp w = 0x3E ∨ rwOp w = 0x3F) ∧ code = 5 ∨ rdOk desc = true ∧ (requestList s cell desc).any (fun w => rwOp w == 0x3E || rwOp w == 0x3F) = false ∧ homeBank s slot ctx (rdHome desc) = none ∧ code = 4)) ∧
    (∃ (s : State) (u : State) (bank : Nat) (len : Nat), u = chooseRequest s bank ∧ (rimeBank u bank).segment = none ∧ (rimeBank u bank).current ≠ none ∧ rimeEnabled u bank = true ∧ len = min (segmentLimit u.health.refreshMult) (segmentDue u bank - u.time.dtb) ∧ 400 ≤ len ∧ slotFree u bank = true) ∧
    (∃ (s : State) (bank : Nat) (lim : Nat), (rimeBank s bank).segment = some lim ∧ (rimeBank s bank).queue.any (fun r => (arbitrated (advanceTo s lim) r).lc) = false) ∧
    (∃ (s : State) (bank : Nat) (lim : Nat) (r : RimeReq), (rimeBank s bank).segment = some lim ∧ (rimeBank s bank).current = some r ∧ (arbitrated (advanceTo s lim) r).lc = false ∧ r.cmds ≠ [] ∧ (rimeBank s bank).parked = none ∧ (rimeBank s bank).queue.any (fun x => (arbitrated (advanceTo s lim) x).lc) = true) ∧
    (∃ (s : State) (bank : Nat) (r : RimeReq), (rimeBank s bank).current = some r ∧ rimeBusy (rimeBank s bank) = false) ∧
    (∃ (s : State) (bank : Nat), (rimeBank s bank).segment = none) ∧
    (∃ (s : State) (bank : Nat) (lim : Nat), (rimeBank s bank).segment = some lim) ∧
    (∃ (s : State) (bank : Nat), storesWf s ∧ rimeEnabled s bank = true ∧ (rimeBank s bank).segment = none ∧ (rimeBank s bank).current = none) ∧
    (∃ (s : State) (bank : Nat) (cs : List Nat), rimeEnabled s bank = true ∧ (rimeBank s bank).segment = none ∧ (rimeBank s bank).parked = none ∧ saveAreaPoisoned s bank = false) ∧
    (∃ (s : State) (bank : Nat) (w0 : BitVec 128) (w1 : BitVec 128), rimeEnabled s bank = true ∧ (rimeBank s bank).unit.cmdq.length ≤ 62) ∧
    (∃ (s : State) (bank : Nat) (row : Instr) (u : RimeUnit), (row, u) ∈ [(.rimeCtrlClear bank, { (rimeBank s bank).unit with lanes := [], qb := [], err := 0 }), (.rimeCtrlSuspend bank, { (rimeBank s bank).unit with susp := true }), (.rimeCtrlResume bank, { (rimeBank s bank).unit with susp := false })] ∧ rimeEnabled s bank = true) ∧
    (∃ (s : State) (bank : Nat), rimeEnabled s bank = true) :=
  ⟨⟨(tiered 3 0 { frames := [{ num := 4096, state := .local_, page := 4096 }], localSets := [1] } (querying query)), (some 5), 7, 0, 1000500000, 0, (BitVec.ofNat 256 (2 ^ 64 * 2 ^ 30)), false, by decide +kernel⟩,
   ⟨(querying query), none, 7, 0, 5, (BitVec.ofNat 256 (2 ^ 255)), ((false, 2 ^ 64)), by decide +kernel, (by exact Or.inl ⟨Or.inl (by decide +kernel), rfl⟩)⟩,
   ⟨(rimed [{ bank := 31, current := some (rimeReq true [word 1]), refreshed := 1000000000 }]), (rimed [{ bank := 31, current := some (rimeReq true [word 1]), refreshed := 1000000000 }]), 31, 3200, by decide +kernel⟩,
   ⟨(rimed [{ bank := 31, segment := some 5 }]), 31, 5, by decide +kernel⟩,
   ⟨(rimed [{ bank := 31, segment := some 5, current := some (rimeReq false [word 1]), queue := [rimeReq true []] }]), 31, 5, (rimeReq false [word 1]), by decide +kernel⟩,
   ⟨(rimed [{ bank := 31, current := some (rimeReq true []) }]), 31, (rimeReq true []), by decide +kernel⟩,
   ⟨live, 4095, by decide +kernel⟩,
   ⟨(rimed [{ bank := 31, segment := some 5 }]), 31, 5, by decide +kernel⟩,
   ⟨(rimed []), 31, by unfold storesWf; decide +kernel⟩,
   ⟨(rimed []), 31, ([]), by decide +kernel⟩,
   ⟨(rimed []), 0, (word 0), (word 1), by decide +kernel⟩,
   ⟨(rimed []), 31, (.rimeCtrlSuspend 31), { susp := true }, by decide +kernel⟩,
   ⟨(rimed [{ bank := 31, current := some (rimeReq true [word 1]), refreshed := 1000000000 }]), 31, by decide +kernel⟩⟩

/-- The hypotheses of TierRows can be met. -/
theorem witness_TierRows :
    (∃ (s : State) (bay : Nat) (addr : Nat) (d : Nat) (write : Bool) (lc : Bool) (r : Region), regionOfPage s (addr / pageBytes) = some r ∧ r.bay = bay ∧ r.custody = false ∧ r.kind = 2 ∧ (write = true ∨ r.hint ≠ 1) ∧ (lc = true ∨ beHeld s = false) ∧ frameOfPage s (addr / pageBytes) = none ∧ (takeFrame s bay).2 = some d) ∧
    (∃ (s : State) (bay : Nat) (addr : Nat) (lc : Bool) (r : Region), regionOfPage s (addr / pageBytes) = some r ∧ r.hint = 1) ∧
    (∃ (s : State) (page : Nat) (sector : Nat) (e : Frame_), (storesWf s ∧ tierMapWf s ∧ frameOfPage s page = some e ∧ e.state = .fill ∧ flag e.arrived sector = false ∧ sector < 64 ∧ (e.arrived = 0 → sector = e.first) ∧ (∀ w ∈ s.tier.fillWaits, waitReady s w = false ∧ w.1 / 4096 * 4096 ≠ pageBytes * page + 4096 * sector)) ∧ (∀ r, regionOfPage s page = some r → r.custody = false)) ∧
    (∃ (s : State) (bay : Nat), (dirtyFrames s bay).length ≤ tierDirtyHigh s * (migrating s bay).length / 100 ∧ (bay ≠ 0 ∨ custodyFrames s = [])) ∧
    (∃ (s : State) (bay : Nat), beHeld s = false) ∧
    (∃ (s : State) (page : Nat) (group : Nat) (home : Nat) (e : Frame_), (storesWf s ∧ tierMapWf s ∧ frameOfPage s page = some e ∧ e.state = .writeback ∧ homeGroup s page = group ∧ s.tier.fillWaits = []) ∧ (∀ p, copyWaits s p = false) ∧ (∀ r, regionOfPage s page = some r → r.custody = false)) ∧
    (∃ (s : State) (addr : Nat) (w : WeightHealth), weightHealth s addr = some w ∧ w.lost = false) ∧
    (∃ (s : State) (q : Nat) (cid : Nat) (data : Bytes) (c : Cmd), ioTakes s q cid 0x08 c ∧ copyFieldsOk s (ctxOfQueue s q) c = true ∧ copySrcDev c = true ∧ copyDstDev c = false ∧ beHeld s = false ∧ cleanBytes s (sqePtr0 c.sqe) (copyLen c) = copyLen c ∧ (∀ p ∈ pagesOf (sqePtr0 c.sqe) (copyLen c), effectiveHint s (copyHint c) p = 1)) ∧
    (∃ (s : State) (q : Nat) (cid : Nat) (data : Bytes) (m : Media) (c : Cmd), ioTakes s q cid 0x08 c ∧ copyFieldsOk s (ctxOfQueue s q) c = true ∧ copySrcDev c = false ∧ copyDstDev c = true ∧ flashPages s (sqePtr1 c.sqe) (copyLen c) = [] ∧ copyLen c ≤ data.length ∧ beHeld s = false) :=
  ⟨⟨(tiered 2 0 {}), 0, (2 ^ 30), 4096, true, true, { base := 4096, pages := 16, kind := 2, hint := 0, groups := 1, bay := 0 }, by decide +kernel⟩,
   ⟨(tiered 2 1 {}), 0, (2 ^ 30), true, { base := 4096, pages := 16, kind := 2, hint := 1, groups := 1, bay := 0 }, by decide +kernel⟩,
   ⟨(tiered 2 0 { frames := [{ num := 4096, state := .fill, page := 4111, first := 63 }] }), 4111, 63, { num := 4096, state := .fill, page := 4111, first := 63 }, by unfold storesWf tierMapWf; decide +kernel, (by intro r h; have e : r = { base := 4096, pages := 16, kind := 2, hint := 0, groups := 1, bay := 0 } := (Option.some.inj (h.symm.trans (by decide +kernel))); subst e; rfl)⟩,
   ⟨live, 0, by decide +kernel, (by exact Or.inr (by decide +kernel))⟩,
   ⟨(tiered 2 0 { frames := [{ num := 4096, state := .resident, page := 4111, dirty := 1 }] }), 0, by decide +kernel⟩,
   ⟨(tiered 2 0 { frames := [{ num := 4096, state := .writeback, page := 4096, captured := 1 }] }), 4096, 0, 64, { num := 4096, state := .writeback, page := 4096, captured := 1 }, by unfold storesWf tierMapWf; decide +kernel, (by intro p; rfl), (by intro r h; have e : r = { base := 4096, pages := 16, kind := 2, hint := 0, groups := 1, bay := 0 } := (Option.some.inj (h.symm.trans (by decide +kernel))); subst e; rfl)⟩,
   ⟨(tiered 2 0 { weights := [{ addr := 2 ^ 30, bytes := 4096, sectors := [2 ^ 30] }] }), (2 ^ 30), { addr := 2 ^ 30, bytes := 4096, sectors := [2 ^ 30] }, by decide +kernel⟩,
   ⟨(tiered 1 0 {} (io [cmd 9 (8 + 64 * 2 ^ 64 + 2 ^ 112 + 2 ^ 114 + 2 ^ 30 * 2 ^ 320)])), 3, 9, ([]), (cmd 9 (8 + 64 * 2 ^ 64 + 2 ^ 112 + 2 ^ 114 + 2 ^ 30 * 2 ^ 320)), by unfold ioTakes; decide +kernel⟩,
   ⟨(tiered 1 0 {} (io [cmd 9 (8 + 64 * 2 ^ 64 + 2 ^ 113 + 2 ^ 30 * 2 ^ 384)])), 3, 9, (List.replicate 64 1), .ok, (cmd 9 (8 + 64 * 2 ^ 64 + 2 ^ 113 + 2 ^ 30 * 2 ^ 384)), by unfold ioTakes; decide +kernel⟩⟩

/-- The hypotheses of DepartureRows can be met. -/
theorem witness_DepartureRows :
    (∃ (s : State) (ev : Reserved) (w : Nat), w % 100000 = 0 ∧ announceable s ≤ w ∧ eventPending s ev = false ∧ subjectExists s ev = true ∧ (∀ d ∈ s.adm.deferred, d.1 = ev → w = tryWindow s d.2.2 ∧ w < d.2.1 + deferral ev) ∧ baysExceeded s ev w = []) ∧
    (∃ (s : State) (ev : Reserved) (w : Nat), w % 100000 = 0 ∧ announceable s ≤ w ∧ eventPending s ev = false ∧ subjectExists s ev = true ∧ baysExceeded s ev w ≠ [] ∧ (∀ d ∈ s.adm.deferred, d.1 ≠ ev)) ∧
    (∃ (s : State) (ev : Reserved) (d : Reserved × Nat × Nat), s.adm.deferred.find? (fun x => x.1 == ev) = some d ∧ d.2.1 + deferral ev ≤ tryWindow s d.2.2) ∧
    (∃ (s : State) (ev : Reserved), (∀ d, s.adm.deferred.find? (fun x => x.1 == ev) = some d → tryWindow s d.2.2 < d.2.1 + deferral ev)) ∧
    (∃ (s : State) (channel : Nat) (e : Placed), nextPlaced s (fun ev => match ev with | .retrain c _ => c == channel | .piece _ _ => false) = some e ∧ (∀ b ∈ s.rime.banks, b.bank / 32 = channel → b.segment = none)) ∧
    (∃ (s : State) (channel : Nat) (die : Nat) (e : Placed), nextPlaced s (fun ev => ev == .piece channel die) = some e) ∧
    (∃ (s : State) (channel : Nat) (kind : DepKind), (channel < 128 ∧ departureFree s channel kind = true) ∧ (kind = .temporary ∨ ∃ b, kind = .lease b ∧ s.tier.wanted.contains (channel, kind) = true)) ∧
    (∃ (s : State) (channel : Nat), channel < 128 ∧ departureFree s channel .temporary = false) ∧
    (∃ (s : State) (src : Nat) (dst : Nat) (v : Evacuation), storesWf s ∧ tierMapWf s ∧ s.tier.evacuation = some v ∧ v.returning = false ∧ copiedPiece s = some src ∧ s.tier.departures.any (fun d => d.channel == v.channel) = true ∧ freeLocalFrame s dst = true) ∧
    (∃ (s : State) (w : Nat) (n : Nat) (bad : List Nat) (v : Evacuation), s.tier.evacuation = some v ∧ w % 100000 = 0 ∧ windowOf s.time.dtb + 200000 ≤ w ∧ (∀ a ∈ v.announced, a.1 ≠ w) ∧ (v.returning = true ∨ localPieces s v.channel = []) ∧ n = min v.clear.length (copyStripes s w) ∧ n ≠ 0) ∧
    (∃ (s : State) (v : Evacuation) (d : Departure), s.tier.evacuation = some v ∧ v.returning = false ∧ v.clear = [] ∧ localPieces s v.channel = [] ∧ s.tier.vacateDue = [] ∧ s.tier.departures.find? (fun x => x.channel == v.channel) = some d ∧ d.kind = .temporary) ∧
    (∃ (s : State) (v : Evacuation) (d : Departure), s.tier.evacuation = some v ∧ s.tier.departures.getLast? = some d ∧ v.returning = true ∧ v.clear = []) ∧
    (∃ (s : State) (entry : Nat) (d : Departure), 1 ≤ entry ∧ s.tier.departures[entry - 1]? = some d ∧ d.out = true ∧ d.replenished = false ∧ d.kind ≠ .temporary) ∧
    (∃ (s : State) (channel : Nat) (d : Departure), s.tier.departures.getLast? = some d ∧ d.channel = channel ∧ d.kind = .temporary ∧ d.out = true ∧ s.tier.evacuation = none) :=
  ⟨⟨live, (.retrain 127 true), 1000200000, by decide +kernel⟩,
   ⟨(querying { query with lc := true, holds := [(2, 1000200000, 10 ^ 12)] }), (.retrain 127 true), 1000200000, by decide +kernel⟩,
   ⟨{ live with adm := { live.adm with deferred := [(.retrain 127 true, 5, 10 ^ 12)] } }, (.retrain 127 true), ((.retrain 127 true, 5, 10 ^ 12)), by decide +kernel⟩,
   ⟨live, (.retrain 127 true), (by intro d h; have e : live.adm.deferred.find? (fun x => x.1 == (.retrain 127 true : Reserved)) = none := (by decide +kernel); rw [e] at h; cases h)⟩,
   ⟨{ live with adm := { live.adm with placed := [{ window := 1000200000, ev := some (.retrain 127 true), bytes := 0 }] } }, 127, { window := 1000200000, ev := some (.retrain 127 true), bytes := 0 }, by decide +kernel⟩,
   ⟨{ live with adm := { live.adm with placed := [{ window := 1000200000, ev := some (.piece 127 7), bytes := 0 }] } }, 127, 7, { window := 1000200000, ev := some (.piece 127 7), bytes := 0 }, by decide +kernel⟩,
   ⟨live, 127, .temporary, by decide +kernel, (by exact Or.inl rfl)⟩,
   ⟨{ live with tier := { live.tier with departures := [{ channel := 3, kind := .temporary }] } }, 127, by decide +kernel⟩,
   ⟨(tiered 3 0 { frames := [{ num := 4096, state := .local_, page := 4096 }], written := [64 * 4096], localSets := [1], departures := [{ channel := 0, kind := .temporary }], evacuation := some { channel := 0, returning := false } }), 4096, (4096 + 32), { channel := 0, returning := false }, by unfold storesWf tierMapWf; decide +kernel⟩,
   ⟨(tiered 1 0 { evacuation := some { channel := 0, returning := true, clear := [3, 7] } }), 1000200000, 2, ([256 * 7]), { channel := 0, returning := true, clear := [3, 7] }, by decide +kernel⟩,
   ⟨(tiered 1 0 { evacuation := some { channel := 0, returning := false }, departures := [{ channel := 0, kind := .temporary }] }), { channel := 0, returning := false }, { channel := 0, kind := .temporary }, by decide +kernel⟩,
   ⟨(tiered 1 0 { evacuation := some { channel := 0, returning := true }, departures := [{ channel := 0, kind := .temporary, out := true }] }), { channel := 0, returning := true }, { channel := 0, kind := .temporary, out := true }, by decide +kernel⟩,
   ⟨(tiered 1 0 { departures := [{ channel := 3, kind := .retired, out := true }] }), 1, { channel := 3, kind := .retired, out := true }, by decide +kernel⟩,
   ⟨(tiered 1 0 { departures := [{ channel := 0, kind := .temporary, out := true }] }), 0, { channel := 0, kind := .temporary, out := true }, by decide +kernel⟩⟩

/-- The hypotheses of HealthRows can be met. -/
theorem witness_HealthRows :
    (∃ (s : State) (channel : Nat) (die : Nat) (block : Nat) (h : Nat × Nat), channel < 128 ∧ die < s.sec.order.dies ∧ (dieAt s channel die).retired = false ∧ (dieAt s channel die).bad.contains block = false ∧ (dieAt s channel die).pool.contains block = false ∧ blockAt s channel die block = some h ∧ 2 ≤ (dieAt s channel die).spares ∧ (∀ v ∈ s.health.dies, v.channel = channel → v.retired = true ∨ v.spares ≠ 0)) ∧
    (∃ (s : State) (channel : Nat) (die : Nat) (block : Nat) (retries : Nat) (high : Bool) (h : Nat × Nat), (channel < 128 ∧ die < s.sec.order.dies ∧ (dieAt s channel die).retired = false ∧ beHeld s = false ∧ retries ≤ 3 ∧ blockAt s channel die block = some h ∧ (dieAt s channel die).spares ≠ 0 ∧ lookupKey (dieAt s channel die).refreshed block = none) ∧ (2 ≤ retries ∨ high = true)) ∧
    (∃ (s : State) (channel : Nat) (die : Nat) (block : Nat) (retries : Nat) (high : Bool), beHeld s = false ∧ (retries ≤ 1 ∧ high = false ∨ 3 < retries)) ∧
    (∃ (s : State) (channel : Nat) (die : Nat) (unit : Nat), channel < 128 ∧ die < s.sec.order.dies ∧ s.health.lostUnits.contains (channel, die, unit) = false) ∧
    (∃ (s : State) (l : UnitLoc), (∀ c, c < 8 → (readUnitBytes s { l with channel := 8 * (l.channel / 8) + c }).length = 4096)) ∧
    (∃ (s : State) (n : Nat) (st : IndexStruct) (x : Index), indexAt s n = some x ∧ s.tier.poison.any (inStruct s x st) = true) ∧
    (∃ (s : State) (set : Nat) (cs : List (Nat × Nat)), beHeld s = false ∧ set < 960) ∧
    (∃ (s : State) (bank : Nat) (row : Nat), bank < 4096 ∧ row < 131072 ∧ (bankHealth s bank).failing.any (fun r => r.1 == row) = false ∧ rowWeak s bank row = true ∧ (bankHealth s bank).used + (bankHealth s bank).failing.length < 4) ∧
    (∃ (s : State) (kind : Nat) (unit : Nat) (v0 : Word32) (v1 : Word32) (v2 : Word32) (v3 : Word32) (limit : Word32), monitorKinds.contains kind = true ∧ monitored s kind unit = true ∧ recordDue s kind unit [v0, v1, v2, v3] = true) ∧
    (∃ (s : State) (kind : Nat) (unit : Nat) (v0 : Word32) (v1 : Word32) (v2 : Word32) (v3 : Word32) (limit : Word32), recordDue s kind unit [v0, v1, v2, v3] = false) ∧
    (∃ (s : State) (trigger : Nat) (m : MarginItems), s.health.plan = none ∧ mgmtAwake s = true ∧ isFatal s = false ∧ 2 ≤ trigger ∧ trigger ≤ 7) ∧
    (∃ (s : State) (p : MarginPlan), s.health.plan = some p) ∧
    (∃ (s : State) (cid : Nat) (c : Cmd) (bs : Bytes), adminTakes s cid 0x8B c ∧ field c.sqe 112 32 % 64 = 0 ∧ field c.sqe 144 32 % 64 = 0 ∧ field c.sqe 144 32 ≠ 0 ∧ logPage s .host (field c.sqe 64 8) (field c.sqe 80 32) = (stOk, bs)) :=
  ⟨⟨(healthy { dies := [{ channel := 127, die := 7, spares := 2, moved := [(4, 7, 9)] }] }), 127, 7, 9, ((7, 4)), by decide +kernel⟩,
   ⟨(healthy { dies := [{ channel := 127, die := 7, spares := 2, moved := [(4, 7, 9)] }] }), 127, 7, 9, 2, false, ((7, 4)), by decide +kernel, (by exact Or.inl (by decide +kernel))⟩,
   ⟨live, 127, 7, 9, 4, false, by decide +kernel, (by exact Or.inr (by decide +kernel))⟩,
   ⟨live, 127, 7, 4, by decide +kernel⟩,
   ⟨live, (⟨9, 0, 5⟩), by decide +kernel⟩,
   ⟨{ tiered 1 0 { frames := [{ num := 4096, state := .dram, page := 4096 }], poison := [262144 * 4096 + 64] } with indexes := [{ index with parts := [{ part := .nodeRoots, base := 4096, pages := 1 }] }] }, 2, .nodeMap, { index with parts := [{ part := .nodeRoots, base := 4096, pages := 1 }] }, by decide +kernel⟩,
   ⟨live, 959, ([]), by decide +kernel⟩,
   ⟨(healthy { banks := [{ bank := 4095, rowHits := [(131071, 1000000000), (131071, 1000000000), (131071, 1000000000)] }] }), 4095, 131071, by decide +kernel⟩,
   ⟨live, 0x0022, 0, 0, 0, 0, 0, 0, by decide +kernel⟩,
   ⟨(healthy { moraine := [{ dtb := 1000000000, boot := 1, seq := 0, kind := 1, unit := 0, v0 := 0, v1 := 0, v2 := 0, v3 := 0, limit := 0, plan := 0 }] }), 1, 0, 0, 0, 0, 0, 0, by decide +kernel⟩,
   ⟨live, 7, { offsets := [], clocks := [], hottest := 60, refs := [] }, by decide +kernel⟩,
   ⟨(healthy { plan := some { number := 1, trigger := 2, offsets := [], clocks := [], refresh := 1, refs := [], retrain := [] } }), { number := 1, trigger := 2, offsets := [], clocks := [], refresh := 1, refs := [], retrain := [] }, by decide +kernel⟩,
   ⟨(adm (cmd 9 (0x8B + 1 * 2 ^ 64 + 64 * 2 ^ 144))), 9, (cmd 9 (0x8B + 1 * 2 ^ 64 + 64 * 2 ^ 144)), ((logPage (adm (cmd 9 (0x8B + 1 * 2 ^ 64 + 64 * 2 ^ 144))) .host 1 0).2), by unfold adminTakes; decide +kernel⟩⟩


/-! Ill-formed commands: one for each check. -/

/-- A command whose operand is out of its range. -/
theorem test_wf_queue : (Instr.search 4096 0 0 []).wf = false := by decide +kernel
theorem test_wf_cid : (Instr.nsCreate 65536).wf = false := by decide +kernel
theorem test_wf_entries : (Instr.encode 0 0 0 [List.replicate 65537 0]).wf = false := by decide +kernel
theorem test_wf_wrong : (Instr.dramRecordReadDone 0 0 { media := .ok, wrong := [(0, 68, 1)] }).wf = false := by decide +kernel
theorem test_wf_unit : (Instr.scribeReadComplete 0 0 { media := .ok, diff := [(4096, 1)] }).wf = false := by decide +kernel
theorem test_wf_sectors : (Instr.planLoad 0 { data := [], bad := [64] }).wf = false := by decide +kernel
theorem test_wf_group_len : (Instr.cutEnd 0 0 [.encodeGroup .fit 0 0 31 [] (.dram 0) (.dram 0)]).wf = false := by decide +kernel
theorem test_wf_slot : (Instr.queryWorkStart 32768).wf = false := by decide +kernel
theorem test_wf_local : (Instr.dramRecordReadDone 0 1099511627776 { media := .ok }).wf = false := by decide +kernel
theorem test_wf_cell : (Instr.driftBlockScanned 0 0 10240).wf = false := by decide +kernel
theorem test_wf_issuer_host : (Instr.pegSet (.host 4096 0)).wf = false := by decide +kernel
theorem test_wf_issuer_thread : (Instr.pegAdd (.thread 0 2621440 0 0)).wf = false := by decide +kernel
theorem test_wf_peg : (Instr.pegSignalRepeat 131072).wf = false := by decide +kernel
theorem test_wf_index : (Instr.nsDeleteRelease 4096).wf = false := by decide +kernel
theorem test_wf_qp : (Instr.qpDeleteComplete 0xFFFF).wf = false := by decide +kernel
theorem test_wf_handle : (Instr.planUnloadRelease 0).wf = false := by decide +kernel
theorem test_wf_bay : (Instr.reclaimComplete 64).wf = false := by decide +kernel
theorem test_wf_resource : (Instr.resourceDrained 0 (.array 160)).wf = false := by decide +kernel
theorem test_wf_desc : (Instr.frameZeroed 4194304).wf = false := by decide +kernel
theorem test_wf_object : (Instr.stagedObjectWrite .host 0 256 []).wf = false := by decide +kernel
theorem test_wf_cause : (Instr.firnRoundCutoff 0 (.mediaUe 0 8 0)).wf = false := by decide +kernel
theorem test_wf_cut : (Instr.cutStart 0 1048576).wf = false := by decide +kernel
theorem test_wf_loc : (Instr.argmax 0 0 { space := .cellStore, addr := 32768 } 0).wf = false := by decide +kernel
theorem test_wf_ctx : (Instr.contextFault 4096 0).wf = false := by decide +kernel
theorem test_wf_bank : (Instr.rimeSegmentStart 4096).wf = false := by decide +kernel
theorem test_wf_channel : (Instr.rcfgWrite 128 0).wf = false := by decide +kernel
theorem test_wf_reserved : (Instr.reservedEventForced (.piece 0 8)).wf = false := by decide +kernel
theorem test_wf_window : (Instr.evacuationCopyWindow { start := 1 }).wf = false := by decide +kernel
theorem test_wf_die : (Instr.flashPePieceEnd 0 8).wf = false := by decide +kernel
theorem test_wf_page : (Instr.fillSectorArrival (2 ^ 29) 0 .ok false).wf = false := by decide +kernel
theorem test_wf_sector : (Instr.fillSectorArrival 0 64 .ok false).wf = false := by decide +kernel
theorem test_wf_group : (Instr.writebackDone 0 16 0).wf = false := by decide +kernel
theorem test_wf_departure : (Instr.evacuationStart 0 (.lease 64)).wf = false := by decide +kernel
theorem test_wf_entry : (Instr.replenishment 25).wf = false := by decide +kernel
theorem test_wf_scrub : (Instr.dramScrubPass 1024 []).wf = false := by decide +kernel
theorem test_wf_trigger : (Instr.marginPlanBuild 8 { offsets := [], clocks := [], hottest := 40, refs := [] }).wf = false := by decide +kernel
theorem test_wf_items : (Instr.marginPlanBuild 1 { offsets := [], clocks := [], hottest := 256, refs := [] }).wf = false := by decide +kernel
theorem test_wf_fatal : (Instr.fatalError 7 0 false).wf = false := by decide +kernel
theorem test_wf_fn : (Instr.vfFlr 64).wf = false := by decide +kernel
theorem test_wf_decoder : (Instr.hdmDecoderCommit 4 0 0 0).wf = false := by decide +kernel
theorem test_wf_set : (Instr.kSetGo 0 .cacheTx 2).wf = false := by decide +kernel
theorem test_wf_cert : (Instr.getMeasurements 8 0).wf = false := by decide +kernel
theorem test_wf_retransmit : (Instr.eventRetransmit 65536).wf = false := by decide +kernel
theorem test_wf_domain : (Instr.domainTimerRet 196).wf = false := by decide +kernel
theorem test_wf_source : (Instr.domainWake 0 10).wf = false := by decide +kernel
theorem test_wf_comparator : (Instr.dtbComparator 16).wf = false := by decide +kernel
theorem test_wf_straps : (Instr.auxPowerUp 16).wf = false := by decide +kernel
theorem test_wf_doe : (Instr.doeDiscovery 256).wf = false := by decide +kernel

/-! Worked examples of the manual. -/

/-- Section Scope, example of bit and byte order: index 3, local ID 0x1A2B. -/
theorem test_vector_id : vectorId 3 0x1A2B = 0x0030000000001A2B ∧
    natLe 8 (vectorId 3 0x1A2B) = [0x2B, 0x1A, 0x00, 0x00, 0x00, 0x00, 0x30, 0x00] := by decide +kernel

/-- Section Index Layout, example of the reference workload: the default hub counts of 10 × 10^9 and 40 × 10^9 vectors. -/
theorem test_default_hubs : defaultHubs 10000000000 = 2441216 ∧ defaultHubs 40000000000 = 4194304 := by decide +kernel

/-- R90, example: the keys of 12.5, -0.0 and 3.0. -/
theorem test_keys : keyOfFp32 false 0x41480000 = 0xC1480000 ∧ keyOfFp32 true 0x41480000 = 0x3EB7FFFF ∧
    keyOfFp32 false 0x80000000 = 0x80000000 ∧ keyOfFp32 true 0x80000000 = 0x7FFFFFFF ∧
    keyOfFp32 false 0x40400000 = 0xC0400000 := by decide +kernel

/-- R90, example: the sort word of the same candidate. -/
theorem test_sort_word : (searchWord 0x3EB7FFFF 0x1A2B 0).num = 0x3EB7FFFF0000001A2B00 := by decide +kernel

/-- The pool of the example of section Selection and Merge: g1, g2, g4, d2, g3, g5, d3. -/
def pool : List SortWord :=
  unionSearch [[searchWord 301 0x91C40 0, searchWord 305 0x20010 0, searchWord 310 0x77777 0, searchWord 310 0x05A01 0,
    searchWord 312 0x30003 0], [searchWord 305 0x20010 1, searchWord 310 0x10000 1, searchWord 318 0x44444 1]]

/-- R100 and R102, example: the order of the union, the duplicate removed, and TIE_COUNT 3. -/
theorem test_union : pool.map (fun w => w.localId) = [0x91C40, 0x20010, 0x05A01, 0x10000, 0x77777, 0x30003, 0x44444] ∧
    (pool.take 4).map (fun w => w.source) = [0, 0, 0, 1] ∧ tieCount pool (pool.take 4) [] = 3 := by decide +kernel

/-- The profile of the decision in numbers. -/
def profile : Profile :=
  { span := 19, tTail := 7000, wT := 180, wD := 25, wR := 50, driftCu := 1049, driftB := 0, streamB := 160, driftFirst := 0,
    driftLast := 3,
    entries := [⟨0, 20, 36000, 0⟩] ++ List.replicate 3 ⟨16, 6, 1024, 0⟩ ++ List.replicate 13 ⟨16, 6, 1024, 0⟩ ++
      [⟨100, 3, 16384, 0⟩, ⟨0, 2, 2048, 0⟩] }

/-- Bay 5 of the decision, its flash holds, and the pieces of window 72,017. -/
def deciding : State :=
  { live with
    bay := { live.bay with bays := [(5, { mode := .bound, arrays := List.range 40, flash := List.range 64, dramShare := 64 })] }
    adm := { live.adm with
      queries := [{ query with bay := 5, holds := [(0, 7201600000, 5060), (0, 7201700000, 4950), (0, 7201800000, 4880), (0, 7201900000, 4700)] }]
      placed := (List.range 8).map (fun c => { window := 7201700000, ev := some (.piece c 0), bytes := 0 }) } }

/-- A decision in numbers (R121, R130): admissible slots, T_out, and start offset 1 of the query. -/
theorem test_decision : admissible deciding 5 0 7201600000 = 5107 ∧ admissible deciding 5 0 7201700000 = 5016 ∧ tOut 192 = 1006 ∧
    tryOffsets deciding 5 profile 262144 true 7202021994 7200000000 20 0 = some 1 := by decide +kernel

/-- A group encoded and decoded (R139, R153, R154): 2.6, -1.1, 0.05, -0.2 and 0.3 in BELL4. -/
theorem test_bell4 : encodeStage none 0x3 2 32 ([2600000, -1100000, 50000, -200000, 300000].map level32) =
    ⟨[0xF, 0x4, 0x8, 0x7, 0x9], 0x8300, 0, 0, false⟩ := by decide +kernel

/-- The same group: operands in BF16, and the scale code under UE8M0. -/
theorem test_bell4_operands : operandBf16 0x3 2 0x8300 0xF = 0x4030 ∧ operandBf16 0x3 2 0x8300 0x4 = 0xBF82 ∧
    fitScale 0 0x3 (numOf32 (level32 2600000)) = 0x81 ∧
    encodeElem 0x3 ((scaleValue 0 0x81).getD numZero) (level32 2600000) = (0xD, false) := by decide +kernel

/-- A rescale entry of the MULSHIFT example with a bias. -/
def mulEntry (bias : Nat) : BitVec 128 := BitVec.ofNat 128 (0x60000000 + 6 * 2 ^ 64 + bias * 2 ^ 96)

/-- R178, example: the three channels of the example. -/
theorem test_mulshift : mulShiftOf (mulEntry 0xFFFFFF38) 0x5 (-3000) = (-37, 0) ∧ mulShiftOf (mulEntry 50) 0x5 11950 = (127, 1) ∧
    mulShiftOf (mulEntry 0) 0x5 2731 = (32, 0) := by decide +kernel

/-- R177, example: channel 0 under TABLE gives -38. -/
theorem test_table : convertTo 0x5 (numOf32 (tableOf (BitVec.ofNat 64 (0x3C400000 + 0xC0160000 * 2 ^ 32)) (BitVec.ofInt 32 (-3000)) true)) =
    (0xDA, false, false) := by decide +kernel

/-- R180, example: a group that saturates twice at the held scale is rescued at scale word 0x6340, with 1.2 as 7 and 0.9 as 5. -/
theorem test_rescue : (encodeStage (some 0x58) 0x1 2 32 (List.replicate 30 (level32 300000) ++ [level32 900000, level32 1200000])).scaleWord = 0x6340 ∧
    (encodeStage (some 0x58) 0x1 2 32 (List.replicate 30 (level32 300000) ++ [level32 900000, level32 1200000])).codes.drop 30 = [5, 7] := by
  decide +kernel

/-- R180, example: a group whose elements round to zero is rescued at scale word 0x3940. -/
theorem test_rescue_zeros : (encodeStage (some 0x58) 0x1 2 32 (List.replicate 28 (level32 30000) ++ [0, 0, 0, 0])).scaleWord = 0x3940 := by
  decide +kernel

/-- R193 and R194, example: the DOT word, its translation and its cycles. -/
theorem test_dot_word : rwLegal 0x40C80000300000080001000000000600 = true ∧ rwCycles 0x40C80000300000080001000000000600 1 = 66 ∧
    translateWord (41 * 262144) none 0x40C80000300000080001000000000600 = (0x40C80000300000080001000000029600, 0) := by decide +kernel

/-- R246, example: a 4 GiB region mapped at 0x0000_2000_0000_0000. -/
theorem test_window_address :
    windowAddr { live with link := { live.link with hdm := [(0, { base := 0x200000000000, size := 0x100000000, skip := 0x3FC0000000, committed := true })] } }
      0x200012345680 = some 0x4012345680 := by decide +kernel

/-- A submission from doorbell to completion: opcode, CID and plan of the entry, and a valid layout. -/
theorem test_entry : sqeOpcode (BitVec.ofNat 512 (0x0000004200000001 + 0x103 * 2 ^ 64)) = 1 ∧
    sqeCid (BitVec.ofNat 512 (0x0000004200000001 + 0x103 * 2 ^ 64)) = 0x42 ∧
    cmdPlan (BitVec.ofNat 512 (0x0000004200000001 + 0x103 * 2 ^ 64)) = 0x103 := by decide +kernel

/-- R294, example: scores of arrays in bay 5. -/
theorem test_scores : [70, 80, 60, 90, 50, 100, 40, 110, 71, 81, 1, 151].map (arrayScore ((List.range 64).map flashPos)) =
    [320, 320, 328, 328, 344, 344, 368, 368, 384, 384, 608, 608] := by decide +kernel

/-- Section Bays, Pegs and Scheduling, example: arbitration orders in a tick that leaves 100. -/
theorem test_port_order : [12, 140, 160].map (fun p => portOrder p 100) = [90, 40, 60] := by decide +kernel

/-- A raise worked through: the header of the first staged write. -/
def writeHead : BitVec 256 := BitVec.ofNat 256 (leNat ([0x01, 0x03, 0x07, 0x01, 0, 0, 0, 0, 0x00, 0x01, 0x00, 0x20, 0x00, 0x00, 0x02, 0x00] ++
  List.replicate 12 0 ++ [0x2C, 0x00, 0x00, 0x00]))

theorem test_datagram : xdVer writeHead = 1 ∧ xdType writeHead = 3 ∧ xdSeq writeHead = 0x0107 ∧ xdSub writeHead = 1 ∧
    xdIndex writeHead = 0x2000 ∧ xdLen writeHead = 2 ∧ xdBoot writeHead = 0x2C ∧ xdRsvdOk writeHead = true := by decide +kernel

/-- Section Module Hardware, example of a repair: what Capture-DR returns for PPR_QUERY. -/
theorem test_ppr_query : brWord 0x01 0 0x70C 3 1 = 0x00000001000000030000070C00000001 := by decide +kernel

end Sys2Proof.Tests
end

/-! SUPPORT. The clock and the rime records (R22, R26) as one value, and what leaves it alone: any update of another
part of the state, and a case distinction or a fold of steps that leave it alone. -/

namespace Sys2Proof.Machine

open Sys2Proof

/-- The boot counter, the DTB and the rime records of a state (R22, R26). -/
def clockBanks (s : State) : Word32 × Nat × List RimeBank := (s.time.bootCount, s.time.dtb, s.rime.banks)

variable {s : State}

@[simp] theorem clockBanks_mk (a b c d e f g h i j t k x l m n o p q) :
    clockBanks (State.mk a b c d e f g h i j t k x l m n o p q) = (d.bootCount, d.dtb, k.banks) := rfl

@[simp] theorem clock_banks_eq_clockBanks : (s.time.bootCount, s.time.dtb, s.rime.banks) = clockBanks s := rfl

/-! Another part of the state replaced. -/

theorem clockBanks_adm (s : State) (a : AdmState) : clockBanks { s with adm := a } = clockBanks s := rfl
theorem clockBanks_health (s : State) (h : HealthState) : clockBanks { s with health := h } = clockBanks s := rfl
theorem clockBanks_link (s : State) (l : LinkState) : clockBanks { s with link := l } = clockBanks s := rfl
theorem clockBanks_tap (s : State) (t : TapState) : clockBanks { s with tap := t } = clockBanks s := rfl
theorem clockBanks_scratch (s : State) (m : List (Nat × Nat)) :
    clockBanks { s with rime := { s.rime with scratch := m } } = clockBanks s := rfl

/-! Case distinctions and folds. -/

@[simp] theorem clockBanks_ite (c : Prop) [Decidable c] (a b : State) :
    clockBanks (if c then a else b) = if c then clockBanks a else clockBanks b := apply_ite ..

@[simp] theorem clockBanks_ite_fst {α : Type} (c : Prop) [Decidable c] (a b : State × α) :
    clockBanks (if c then a else b).1 = if c then clockBanks a.1 else clockBanks b.1 := by split <;> rfl

@[simp] theorem clockBanks_foldl {α : Type} (f : State → α → State) (l : List α)
    (hf : ∀ t a, clockBanks (f t a) = clockBanks t) (s : State) :
    clockBanks (l.foldl f s) = clockBanks s := by
  induction l generalizing s with
  | nil => rfl
  | cons a r ih => exact (ih _).trans (hf s a)

theorem clockBanks_foldl_fst {α β : Type} (f : State × β → α → State × β) (hf : ∀ t a, clockBanks (f t a).1 = clockBanks t.1)
    (l : List α) :
    ∀ t, clockBanks (l.foldl f t).1 = clockBanks t.1 := by
  induction l with
  | nil => intro t; rfl
  | cons a r ih => intro t; exact (ih _).trans (hf t a)

end Sys2Proof.Machine

/-! SUPPORT. Most operations leave the clock and the rime records alone: one lemma each, in the order of the model's
files, so that `simp` carries the value back through a chain of operations. `(rfl)` in parentheses keeps a lemma an
ordinary rewrite rule: `simp` then uses it under the quantifiers of the fold lemmas as well. -/

namespace Sys2Proof.Machine

open Sys2Proof

/-! Operations of Ops. -/

@[simp] theorem emit_clockBanks (s : State) (o : Out) : clockBanks (emit s o) = clockBanks s := (rfl)

@[simp] theorem bumpFree_clockBanks (s : State) : clockBanks (bumpFree s) = clockBanks s := (rfl)

@[simp] theorem updPair_clockBanks (s : State) (q : Nat) (f : QPair → QPair) :
    clockBanks (updPair s q f) = clockBanks s :=
  (rfl)

@[simp] theorem updQueue_clockBanks (s : State) (q : Nat) (f : Queue → Queue) :
    clockBanks (updQueue s q f) = clockBanks s := by
  simp [updQueue]

@[simp] theorem updCmd_clockBanks (s : State) (q cid : Nat) (f : Cmd → Cmd) :
    clockBanks (updCmd s q cid f) = clockBanks s := by
  simp [updCmd]

@[simp] theorem setBay_clockBanks (s : State) (b : Nat) (v : Bay) : clockBanks (setBay s b v) = clockBanks s := (rfl)

@[simp] theorem updBay_clockBanks (s : State) (b : Nat) (f : Bay → Bay) : clockBanks (updBay s b f) = clockBanks s :=
  (rfl)

@[simp] theorem updCounters_clockBanks (s : State) (b : Nat) (f : AdmCounters → AdmCounters) :
    clockBanks (updCounters s b f) = clockBanks s :=
  (rfl)

@[simp] theorem updCtx_clockBanks (s : State) (c : Nat) (f : Ctx → Ctx) : clockBanks (updCtx s c f) = clockBanks s :=
  (rfl)

@[simp] theorem updPlan_clockBanks (s : State) (h : Nat) (f : Plan → Plan) :
    clockBanks (updPlan s h f) = clockBanks s :=
  (rfl)

@[simp] theorem updPeg_clockBanks (s : State) (p : Nat) (f : Peg → Peg) : clockBanks (updPeg s p f) = clockBanks s :=
  (rfl)

@[simp] theorem addPeg_clockBanks (s : State) (p : Peg) : clockBanks (addPeg s p) = clockBanks s := (rfl)

@[simp] theorem updQuery_clockBanks (s : State) (slot : Nat) (f : Query → Query) :
    clockBanks (updQuery s slot f) = clockBanks s :=
  (rfl)

@[simp] theorem updIndex_clockBanks (s : State) (n : Nat) (f : Index → Index) :
    clockBanks (updIndex s n f) = clockBanks s :=
  (rfl)

@[simp] theorem setFrame_clockBanks (s : State) (e : Frame_) : clockBanks (setFrame s e) = clockBanks s := by
  simp [setFrame]

@[simp] theorem setFrames_clockBanks (s : State) (es : List Frame_) : clockBanks (setFrames s es) = clockBanks s :=
  (rfl)

@[simp] theorem updFrame_clockBanks (s : State) (d : Nat) (f : Frame_ → Frame_) :
    clockBanks (updFrame s d f) = clockBanks s := by
  simp [updFrame]

@[simp] theorem updLinkCounters_clockBanks (s : State) (fn : Nat) (f : LinkCounters → LinkCounters) :
    clockBanks (updLinkCounters s fn f) = clockBanks s :=
  (rfl)

@[simp] theorem setDomain_clockBanks (s : State) (d : Domain) : clockBanks (setDomain s d) = clockBanks s := (rfl)

@[simp] theorem setDict_clockBanks (s : State) (i j v : Nat) : clockBanks (setDict s i j v) = clockBanks s := (rfl)

/-! Operations of Flags. -/

@[simp] theorem raiseVector_clockBanks (s : State) (fn v : Nat) : clockBanks (raiseVector s fn v) = clockBanks s := by
  simp [raiseVector]

@[simp] theorem sendMsix_clockBanks (s : State) (q : Nat) : clockBanks (sendMsix s q) = clockBanks s := by
  rw [sendMsix_frame]; rfl

@[simp] theorem afterCommit_clockBanks (s : State) (q : Nat) : clockBanks (afterCommit s q) = clockBanks s := by
  rw [afterCommit_frame]; rfl

@[simp] theorem countAfterDelete_clockBanks (s : State) (q : Nat) :
    clockBanks (countAfterDelete s q) = clockBanks s :=
  (rfl)

@[simp] theorem commitEntry_clockBanks (s : State) (d : Deferred) : clockBanks (commitEntry s d) = clockBanks s := by
  rw [commitEntry_frame]; rfl

@[simp] theorem postRecord_clockBanks (s : State) (q : Nat) (c : Cmd) (status result nacc ndiff : Nat) :
    clockBanks (postRecord s q c status result nacc ndiff) = clockBanks s := by
  rw [postRecord_frame]; rfl

@[simp] theorem commitDeferred_clockBanks (s : State) : clockBanks (commitDeferred s) = clockBanks s := by
  simp [commitDeferred]

@[simp] theorem dropDeferred_clockBanks (s : State) : clockBanks (dropDeferred s) = clockBanks s := (rfl)

@[simp] theorem postCompletion_clockBanks (s : State) (q cid status result : Nat) :
    clockBanks (postCompletion s q cid status result) = clockBanks s := by
  unfold postCompletion
  split <;> simp

@[simp] theorem startCmd_clockBanks (s : State) (q : Nat) (c : Cmd) (f : Cmd → Cmd) :
    clockBanks (startCmd s q c f) = clockBanks s := by
  simp [startCmd]

@[simp] theorem endCmd_clockBanks (s : State) (q : Nat) (c : Cmd) (status result : Nat) :
    clockBanks (endCmd s q c status result) = clockBanks s := by
  simp [endCmd]

/-! Operations of Log. -/

@[simp] theorem emitEvent_clockBanks (s : State) (seq : BitVec 16) (retx : Bool) (code : Nat) (data : Word64) :
    clockBanks (emitEvent s seq retx code data) = clockBanks s :=
  (rfl)

@[simp] theorem refreshAlert_clockBanks (s : State) : clockBanks (refreshAlert s) = clockBanks s := (rfl)

@[simp] theorem logEntry_clockBanks (s : State) (cls sev unit detail : Nat) (ctx : Option (Nat × Nat)) :
    clockBanks (logEntry s cls sev unit detail ctx) = clockBanks s := by
  rw [logEntry_frame]; rfl

@[simp] theorem logError_clockBanks (s : State) (cls unit detail : Nat) (ctx : Option (Nat × Nat)) :
    clockBanks (logError s cls unit detail ctx) = clockBanks s :=
  logEntry_clockBanks s cls _ unit detail ctx

@[simp] theorem raiseEvent_clockBanks (s : State) (code : Nat) (data : Word64) :
    clockBanks (raiseEvent s code data) = clockBanks s :=
  (rfl)

@[simp] theorem logMoraine_clockBanks (s : State) (kind unit : Nat) (v0 v1 v2 v3 limit : Word32) :
    clockBanks (logMoraine s kind unit v0 v1 v2 v3 limit) = clockBanks s := by
  rw [logMoraine_frame, clockBanks_mk, clock_banks_eq_clockBanks]

@[simp] theorem refreshLevel_clockBanks (s : State) (g : Nat) : clockBanks (refreshLevel s g) = clockBanks s := by
  simp [refreshLevel]

@[simp] theorem refreshLevels_clockBanks (s : State) : clockBanks (refreshLevels s) = clockBanks s := by
  simp [refreshLevels]

/-! Operations of Domains. -/

@[simp] theorem wakeOne_clockBanks (s : State) (n source : Nat) : clockBanks (wakeOne s n source) = clockBanks s := by
  rw [wakeOne_frame]; rfl

@[simp] theorem startWake_clockBanks (s : State) (n source : Nat) :
    clockBanks (startWake s n source) = clockBanks s := by
  simp [startWake]

@[simp] theorem rouseMgmt_clockBanks (s : State) (source : Nat) : clockBanks (rouseMgmt s source) = clockBanks s := by
  simp [rouseMgmt]

@[simp] theorem needDomains_clockBanks (s : State) (ds : List Nat) :
    clockBanks (needDomains s ds) = clockBanks s := by
  simp [needDomains]

@[simp] theorem wakeCapped_clockBanks (s : State) : clockBanks (wakeCapped s) = clockBanks s := by simp [wakeCapped]

/-! Operations of Results. -/

@[simp] theorem writeHeader_clockBanks (s : State) (q cid pos : Nat) (h : Header) :
    clockBanks (writeHeader s q cid pos h) = clockBanks s := by
  simp [writeHeader]

@[simp] theorem dropQuery_clockBanks (s : State) (slot : Nat) : clockBanks (dropQuery s slot) = clockBanks s := (rfl)

@[simp] theorem endQuery_clockBanks (s : State) (x : Query) (h : Header) :
    clockBanks (endQuery s x h) = clockBanks s := by
  simp [endQuery]

@[simp] theorem failQuery_clockBanks (s : State) (x : Query) (status : Nat) :
    clockBanks (failQuery s x status) = clockBanks s := by
  simp [failQuery]

@[simp] theorem progressCtx_clockBanks (s : State) (c : Nat) : clockBanks (progressCtx s c) = clockBanks s := (rfl)

@[simp] theorem dropBatch_clockBanks (s : State) (q cid : Nat) : clockBanks (dropBatch s q cid) = clockBanks s :=
  (rfl)

@[simp] theorem postBatch_clockBanks (s : State) (q cid : Nat) : clockBanks (postBatch s q cid) = clockBanks s := by
  rw [postBatch_frame]; rfl

@[simp] theorem abandonCmd_clockBanks (s : State) (q : Nat) (c : Cmd) (result : Nat) :
    clockBanks (abandonCmd s q c result) = clockBanks s := by
  unfold abandonCmd
  dsimp only
  (repeat' split) <;> simp

/-! Operations of Pegs. -/

@[simp] theorem settleNotice_clockBanks (s : State) (b : Nat) : clockBanks (settleNotice s b) = clockBanks s := by
  unfold settleNotice
  split <;> simp

@[simp] theorem endWait_clockBanks (s : State) (w : PegWait) (status : Nat) :
    clockBanks (endWait s w status) = clockBanks s := by
  simp [endWait]

@[simp] theorem serveWait_clockBanks (s : State) (w : PegWait) (status : Nat) :
    clockBanks (serveWait s w status) = clockBanks s := by
  simp [serveWait]

@[simp] theorem takePeg_clockBanks (s : State) (p ctx : Nat) : clockBanks (takePeg s p ctx) = clockBanks s := (rfl)

@[simp] theorem wakeWaitingCuts_clockBanks (s : State) (p : Nat) (v : Word64) :
    clockBanks (wakeWaitingCuts s p v) = clockBanks s := by
  refine clockBanks_foldl _ _ (fun t x => ?_) s
  split <;> simp

@[simp] theorem settlePeg_clockBanks (s : State) (p : Nat) : clockBanks (settlePeg s p) = clockBanks s := by
  unfold settlePeg
  dsimp only
  (repeat' split) <;> simp

@[simp] theorem breakPeg_clockBanks (s : State) (p : Nat) : clockBanks (breakPeg s p) = clockBanks s := by
  simp [breakPeg]

@[simp] theorem breakHeld_clockBanks (s : State) (ctx : Nat) : clockBanks (breakHeld s ctx) = clockBanks s := by
  simp [breakHeld]

@[simp] theorem endRunsOnPeg_clockBanks (s : State) (p status : Nat) :
    clockBanks (endRunsOnPeg s p status) = clockBanks s := by
  simp [endRunsOnPeg]

@[simp] theorem freePeg_clockBanks (s : State) (p : Nat) : clockBanks (freePeg s p) = clockBanks s := by
  simp [freePeg]

@[simp] theorem freePegsOf_clockBanks (s : State) (ctx : Nat) : clockBanks (freePegsOf s ctx) = clockBanks s := by
  simp [freePegsOf]

@[simp] theorem raisePeg_clockBanks (s : State) (p : Nat) : clockBanks (raisePeg s p) = clockBanks s := by
  simp [raisePeg]

@[simp] theorem pegSetOp_clockBanks (s : State) (ctx p : Nat) (v : Word64) :
    clockBanks (pegSetOp s ctx p v).1 = clockBanks s := by
  unfold pegSetOp
  split <;> simp

@[simp] theorem pegAddOp_clockBanks (s : State) (ctx p : Nat) (v : Word64) :
    clockBanks (pegAddOp s ctx p v).1 = clockBanks s := by
  unfold pegAddOp
  split <;> simp

@[simp] theorem pegTestOp_clockBanks (s : State) (ctx p : Nat) (kind : WaitKind) (v : Word64) :
    clockBanks (pegTestOp s ctx p kind v).1 = clockBanks s := by
  unfold pegTestOp
  split <;> simp

@[simp] theorem pegAcquireOp_clockBanks (s : State) (ctx p : Nat) :
    clockBanks (pegAcquireOp s ctx p).1 = clockBanks s := by
  unfold pegAcquireOp
  split <;> simp

@[simp] theorem pegReleaseOp_clockBanks (s : State) (ctx p : Nat) (v : Word64) :
    clockBanks (pegReleaseOp s ctx p v).1 = clockBanks s := by
  unfold pegReleaseOp
  split <;> simp

@[simp] theorem pegOp_clockBanks (op : Nat) (s : State) (ctx p : Nat) (v : Word64) :
    clockBanks (pegOp op s ctx p v).1 = clockBanks s := by
  unfold pegOp
  split <;> simp

@[simp] theorem beginWait_clockBanks (s : State) (q : Nat) (c : Cmd) (ctx p : Nat) (kind : WaitKind) (v : Word64) :
    clockBanks (beginWait s q c ctx p kind v) = clockBanks s := by
  simp [beginWait]

/-! Operations of Tiers. -/

@[simp] theorem markDirty_clockBanks (s : State) (d sector : Nat) :
    clockBanks (markDirty s d sector) = clockBanks s := by
  simp [markDirty]

@[simp] theorem refreshPoison_clockBanks (s : State) (d : Nat) : clockBanks (refreshPoison s d) = clockBanks s := by
  simp [refreshPoison]

@[simp] theorem setMoved_clockBanks (s : State) (p : Nat → Bool) : clockBanks (setMoved s p) = clockBanks s := by
  unfold setMoved
  split <;> simp

@[simp] theorem moveWritten_clockBanks (s : State) (d off n : Nat) :
    clockBanks (moveWritten s d off n) = clockBanks s := by
  simp [moveWritten]

@[simp] theorem frameWrite_clockBanks (s : State) (d off : Nat) (bs : Bytes) :
    clockBanks (frameWrite s d off bs) = clockBanks s := by
  simp [frameWrite]

@[simp] theorem backInvalidate_clockBanks (s : State) (line : Nat) :
    clockBanks (backInvalidate s line) = clockBanks s := by
  simp [backInvalidate]

@[simp] theorem backInvalidateRange_clockBanks (s : State) (addr n : Nat) :
    clockBanks (backInvalidateRange s addr n) = clockBanks s := by
  simp [backInvalidateRange]

@[simp] theorem nowSpecified_clockBanks (s : State) (sector : Nat) :
    clockBanks (nowSpecified s sector) = clockBanks s :=
  (rfl)

@[simp] theorem rewriteBlocks_clockBanks (s : State) (a n : Nat) : clockBanks (rewriteBlocks s a n) = clockBanks s :=
  (rfl)

@[simp] theorem pageWrite_clockBanks (s : State) (a : Nat) (bs : Bytes) :
    clockBanks (pageWrite s a bs) = clockBanks s := by
  unfold pageWrite
  split <;> simp

@[simp] theorem clearFrame_clockBanks (s : State) (d : Nat) : clockBanks (clearFrame s d) = clockBanks s := (rfl)

@[simp] theorem sweepPast_clockBanks (s : State) (b : Nat) (v : Frame_) :
    clockBanks (sweepPast s b v) = clockBanks s := by
  simp [sweepPast]

@[simp] theorem freeFrame_clockBanks (s : State) (d : Nat) : clockBanks (freeFrame s d) = clockBanks s := by
  unfold freeFrame
  dsimp only
  split <;> simp

@[simp] theorem startWriteback_clockBanks (s : State) (d : Nat) : clockBanks (startWriteback s d) = clockBanks s := by
  simp [startWriteback]

@[simp] theorem endWriteback_clockBanks (s : State) (d group slot : Nat) :
    clockBanks (endWriteback s d group slot) = clockBanks s := by
  simp [endWriteback]

@[simp] theorem writeHome_clockBanks (s : State) (d group slot : Nat) :
    clockBanks (writeHome s d group slot) = clockBanks s := by
  simp [writeHome]

@[simp] theorem releaseCopies_clockBanks (s : State) (page : Nat) :
    clockBanks (releaseCopies s page) = clockBanks s := by
  simp [releaseCopies]

@[simp] theorem finishWriteback_clockBanks (s : State) (d : Nat) :
    clockBanks (finishWriteback s d) = clockBanks s := by
  simp [finishWriteback]

@[simp] theorem cleanFrame_clockBanks (s : State) (d : Nat) : clockBanks (cleanFrame s d) = clockBanks s := by
  simp [cleanFrame]

@[simp] theorem touchPage_clockBanks (s : State) (page hint : Nat) :
    clockBanks (touchPage s page hint) = clockBanks s := by
  rw [touchPage_frame]; rfl

@[simp] theorem fillSector_clockBanks (s : State) (d sector : Nat) :
    clockBanks (fillSector s d sector) = clockBanks s := by
  simp [fillSector]

@[simp] theorem poisonSector_clockBanks (s : State) (d sector : Nat) :
    clockBanks (poisonSector s d sector) = clockBanks s := by
  simp [poisonSector]

@[simp] theorem poisonDev_clockBanks (s : State) (a : Nat) : clockBanks (poisonDev s a) = clockBanks s := by
  unfold poisonDev
  split <;> simp

@[simp] theorem finishFill_clockBanks (s : State) (d : Nat) : clockBanks (finishFill s d) = clockBanks s := by
  simp [finishFill]

@[simp] theorem setBankHealth_clockBanks (s : State) (v : BankHealth) :
    clockBanks (setBankHealth s v) = clockBanks s :=
  (rfl)

@[simp] theorem noteCorrected_clockBanks (s : State) (bank row : Nat) :
    clockBanks (noteCorrected s bank row) = clockBanks s :=
  (rfl)

@[simp] theorem readBlock_clockBanks (s : State) (a : Nat) (wrong : List (Nat × Byte)) :
    clockBanks (readBlock s a wrong).1 = clockBanks s := by
  unfold readBlock
  split <;> simp

@[simp] theorem dramRead_clockBanks (s : State) (a n : Nat) (wrong : List (Nat × Nat × Byte)) :
    clockBanks (dramRead s a n wrong).1 = clockBanks s := by
  unfold dramRead
  dsimp only
  rw [clockBanks_foldl _ _ (fun t p => touchPage_clockBanks t p 0)]
  refine clockBanks_foldl_fst _ (fun t k => ?_) _ _
  exact readBlock_clockBanks t.1 _ _

@[simp] theorem freeBlock_clockBanks (s : State) : clockBanks (freeBlock s).1 = clockBanks s := (rfl)

@[simp] theorem answerRead_clockBanks (s : State) (a : Nat) (wrong : List (Nat × Byte)) :
    clockBanks (answerRead s a wrong) = clockBanks s := by
  simp [answerRead]

@[simp] theorem hostWrite_clockBanks (s : State) (a : Nat) (bs : Bytes) :
    clockBanks (hostWrite s a bs) = clockBanks s := by
  simp [hostWrite]

@[simp] theorem serveAccess_clockBanks (s : State) (w : Nat × Option Bytes) :
    clockBanks (serveAccess s w) = clockBanks s := by
  unfold serveAccess
  split <;> simp

@[simp] theorem serveReady_clockBanks (s : State) : clockBanks (serveReady s) = clockBanks s := by simp [serveReady]

@[simp] theorem freeCustody_clockBanks (s : State) (page : Nat) : clockBanks (freeCustody s page) = clockBanks s := by
  unfold freeCustody
  split <;> simp

theorem evictOne_clockBanks {s t : State} {b : Nat} (h : evictOne s b = some t) : clockBanks t = clockBanks s := by
  unfold evictOne at h
  split at h
  · cases h; simp
  · split at h
    · cases h; simp
    · obtain ⟨e, _, rfl⟩ := Option.map_eq_some_iff.mp h
      simp

theorem makeRoomFuel_clockBanks (b n k : Nat) (s : State) : clockBanks (makeRoomFuel b n k s) = clockBanks s := by
  induction k generalizing s with
  | zero => rfl
  | succ k ih =>
    unfold makeRoomFuel
    split
    · rfl
    · split
      next t h => exact (ih t).trans (evictOne_clockBanks h)
      · rfl

@[simp] theorem makeRoom_clockBanks (s : State) (b n : Nat) : clockBanks (makeRoom s b n) = clockBanks s :=
  makeRoomFuel_clockBanks ..

@[simp] theorem takeFrame_clockBanks (s : State) (b : Nat) : clockBanks (takeFrame s b).1 = clockBanks s := by
  unfold takeFrame
  dsimp only
  (repeat' split) <;> simp

@[simp] theorem faultPage_clockBanks (s : State) (page hint sector : Nat) :
    clockBanks (faultPage s page hint sector) = clockBanks s := by
  unfold faultPage
  dsimp only
  (repeat' split) <;> simp

@[simp] theorem fillPage_clockBanks (s : State) (page hint : Nat) :
    clockBanks (fillPage s page hint) = clockBanks s := by
  unfold fillPage
  dsimp only
  split <;> simp

@[simp] theorem bringPiece_clockBanks (s : State) (page : Nat) : clockBanks (bringPiece s page) = clockBanks s := by
  unfold bringPiece
  (repeat' split) <;> simp

theorem bringFuel_clockBanks (k : Nat) (s : State) (page hint : Nat) :
    clockBanks (bringFuel k s page hint) = clockBanks s := by
  induction k generalizing s with
  | zero => rfl
  | succ k ih =>
    unfold bringFuel
    dsimp only
    split
    · simp
    · split
      next t h =>
        obtain ⟨r, _, h⟩ := Option.bind_eq_some_iff.mp h
        rw [ih, evictOne_clockBanks h, fillPage_clockBanks]
      · simp

@[simp] theorem bringPage_clockBanks (s : State) (page hint : Nat) :
    clockBanks (bringPage s page hint) = clockBanks s := by
  simp [bringPage, bringFuel_clockBanks]

theorem devWriteFuel_clockBanks (hint k : Nat) (s : State) (a : Nat) (bs : Bytes) :
    clockBanks (devWriteFuel hint k s a bs) = clockBanks s := by
  induction k generalizing s a bs with
  | zero => rfl
  | succ k ih => unfold devWriteFuel; split <;> simp [ih]

@[simp] theorem devWriteHint_clockBanks (s : State) (hint a : Nat) (bs : Bytes) :
    clockBanks (devWriteHint s hint a bs) = clockBanks s := by
  simp [devWriteHint, devWriteFuel_clockBanks]

@[simp] theorem devWrite_clockBanks (s : State) (a : Nat) (bs : Bytes) :
    clockBanks (devWrite s a bs) = clockBanks s := by
  simp [devWrite]

@[simp] theorem pinPage_clockBanks (s : State) (page : Nat) : clockBanks (pinPage s page) = clockBanks s := by
  unfold pinPage
  dsimp only
  split <;> simp

@[simp] theorem unpinPage_clockBanks (s : State) (page : Nat) : clockBanks (unpinPage s page) = clockBanks s := by
  unfold unpinPage
  split <;> simp

@[simp] theorem makeLocal_clockBanks (s : State) (fs : List Nat) : clockBanks (makeLocal s fs) = clockBanks s := (rfl)

@[simp] theorem dropLocal_clockBanks (s : State) (fs : List Nat) : clockBanks (dropLocal s fs) = clockBanks s := by
  simp [dropLocal]

@[simp] theorem fillDramRegion_clockBanks (s : State) (r : Region) :
    clockBanks (fillDramRegion s r) = clockBanks s := by
  simp [fillDramRegion]

@[simp] theorem fillLocalRegion_clockBanks (s : State) (r : Region) :
    clockBanks (fillLocalRegion s r) = clockBanks s := by
  simp [fillLocalRegion]

@[simp] theorem takeLeafFrame_clockBanks (s : State) : clockBanks (takeLeafFrame s).1 = clockBanks s := by
  unfold takeLeafFrame
  split
  · rfl
  · split
    next t h =>
      obtain ⟨b, _, h⟩ := List.exists_of_findSome?_eq_some h
      obtain ⟨_, _, h⟩ := Option.bind_eq_some_iff.mp h
      exact evictOne_clockBanks h
    · rfl

@[simp] theorem putLeaf_clockBanks (s : State) (l : Leaf) : clockBanks (putLeaf s l) = clockBanks s := (rfl)

@[simp] theorem addLeaf_clockBanks (s : State) (seg : Nat) : clockBanks (addLeaf s seg) = clockBanks s := by
  unfold addLeaf
  dsimp only
  (repeat' split) <;> simp

@[simp] theorem dropLeaves_clockBanks (s : State) : clockBanks (dropLeaves s) = clockBanks s := by simp [dropLeaves]

@[simp] theorem createRegion_clockBanks (s : State) (r : Region) : clockBanks (createRegion s r) = clockBanks s := by
  unfold createRegion
  split <;> simp

@[simp] theorem fillLeaving_clockBanks (s : State) (e : Frame_) (sector : Nat) :
    clockBanks (fillLeaving s e sector) = clockBanks s := by
  simp [fillLeaving]

@[simp] theorem releaseRegion_clockBanks (s : State) (r : Region) (zeroing : Bool) :
    clockBanks (releaseRegion s r zeroing) = clockBanks s := by
  simp [releaseRegion]

/-! Operations of RimeUnit. -/

@[simp] theorem storeRegister_clockBanks (s : State) (bank : Nat) (u : RimeUnit) (w : BitVec 128) (cycles : Nat) :
    clockBanks (storeRegister s bank u w cycles) = clockBanks s := by
  simp [storeRegister]

@[simp] theorem countCorrected_clockBanks (s : State) (bank : Nat) (rows : List Nat) :
    clockBanks (countCorrected s bank rows) = clockBanks s := by
  simp [countCorrected]

/-! Operations of Rime. -/

@[simp] theorem writeResult_clockBanks (s : State) (cell : Nat) (d : BitVec 256) (bs : Bytes) :
    clockBanks (writeResult s cell d bs) = clockBanks s := by
  simp [writeResult]

@[simp] theorem chargeRequest_clockBanks (s : State) (r : RimeReq) (u : RimeUnit) (code : Nat) :
    clockBanks (chargeRequest s r u code) = clockBanks s := by
  unfold chargeRequest
  (repeat' split) <;> simp

@[simp] theorem usePromoted_clockBanks (s : State) (ctx kind n : Nat) :
    clockBanks (usePromoted s ctx kind n) = clockBanks s := by
  unfold usePromoted
  split <;> simp

@[simp] theorem poisonJournal_clockBanks (s : State) (p : Nat → Bool) :
    clockBanks (poisonJournal s p) = clockBanks s := by
  simp [poisonJournal]

@[simp] theorem settleJournal_clockBanks (s : State) : clockBanks (settleJournal s) = clockBanks s := (rfl)

/-! Operations of Teardown. -/

@[simp] theorem makeScratchSet_clockBanks (s : State) (b : Nat) : clockBanks (makeScratchSet s b) = clockBanks s :=
  (clockBanks_scratch _ _).trans (createRegion_clockBanks s _)

@[simp] theorem giveBack_clockBanks (s : State) (r : Region) : clockBanks (giveBack s r) = clockBanks s := by
  simp [giveBack]

@[simp] theorem dropRegionAt_clockBanks (s : State) (base : Nat) :
    clockBanks (dropRegionAt s base) = clockBanks s := by
  unfold dropRegionAt
  split <;> simp

@[simp] theorem dropScratchSet_clockBanks (s : State) (b : Nat) : clockBanks (dropScratchSet s b) = clockBanks s := by
  unfold dropScratchSet
  (repeat' split) <;> simp

@[simp] theorem clearSectors_clockBanks (s : State) (b k : Nat) : clockBanks (clearSectors s b k) = clockBanks s := by
  unfold clearSectors
  split <;> simp

@[simp] theorem unpinWeights_clockBanks (s : State) (p : Plan) : clockBanks (unpinWeights s p) = clockBanks s := by
  simp [unpinWeights]

@[simp] theorem reevalPieces_clockBanks (s : State) : clockBanks (reevalPieces s) = clockBanks s := (rfl)

@[simp] theorem releasePlan_clockBanks (s : State) (h : Nat) : clockBanks (releasePlan s h) = clockBanks s := by
  unfold releasePlan
  (repeat' split) <;> simp

@[simp] theorem endContext_clockBanks (s : State) (ctx : Nat) : clockBanks (endContext s ctx) = clockBanks s := by
  simp [endContext]

@[simp] theorem trimParts_clockBanks (s : State) (index : Nat) : clockBanks (trimParts s index) = clockBanks s := by
  unfold trimParts
  split <;> simp

@[simp] theorem endMerge_clockBanks (s : State) (index : Nat) (status : Option Nat) :
    clockBanks (endMerge s index status) = clockBanks s := by
  unfold endMerge
  dsimp only
  (repeat' split) <;> simp

@[simp] theorem cutMerges_clockBanks (s : State) (p : MergeState → Bool) (status : Option Nat) :
    clockBanks (cutMerges s p status) = clockBanks s := by
  simp [cutMerges]

@[simp] theorem dropWaits_clockBanks (s : State) (ctx : Nat) : clockBanks (dropWaits s ctx) = clockBanks s := (rfl)

@[simp] theorem abandonCmds_clockBanks (s : State) (ctx : Nat) : clockBanks (abandonCmds s ctx) = clockBanks s := by
  simp [abandonCmds]

@[simp] theorem stopPairs_clockBanks (s : State) (ctx : Nat) : clockBanks (stopPairs s ctx) = clockBanks s := (rfl)

@[simp] theorem endIfLast_clockBanks (s : State) (ctx : Nat) : clockBanks (endIfLast s ctx) = clockBanks s := by
  simp [endIfLast]

@[simp] theorem finishDelete_clockBanks (s : State) (qp : Nat) : clockBanks (finishDelete s qp) = clockBanks s := by
  unfold finishDelete
  (repeat' split) <;> simp

@[simp] theorem completeAfter_clockBanks (s : State) (q cid status result : Nat) (channels : List Nat) :
    clockBanks (completeAfter s q cid status result channels) = clockBanks s := by
  simp [completeAfter]

@[simp] theorem completeAfterWake_clockBanks (s : State) (q cid status result : Nat) :
    clockBanks (completeAfterWake s q cid status result) = clockBanks s := by
  simp [completeAfterWake]

@[simp] theorem releaseHeld_clockBanks (s : State) (f : Cmd → Cmd) : clockBanks (releaseHeld s f) = clockBanks s := by
  simp [releaseHeld]

@[simp] theorem releaseWakeWaits_clockBanks (s : State) (n : Nat) :
    clockBanks (releaseWakeWaits s n) = clockBanks s := by
  simp [releaseWakeWaits]

@[simp] theorem releasePieceWaits_clockBanks (s : State) : clockBanks (releasePieceWaits s) = clockBanks s := by
  simp [releasePieceWaits]

/-! Operations of Commands. -/

@[simp] theorem dropAdminCids_clockBanks (s : State) : clockBanks (dropAdminCids s) = clockBanks s := (rfl)

@[simp] theorem hostRead_clockBanks (s : State) (addr n : Nat) : clockBanks (hostRead s addr n) = clockBanks s := by
  simp [hostRead]

/-! Operations of Filters. -/

/-! Operations of Admission. -/

@[simp] theorem acceptQuery_clockBanks (s : State) (p : Plan) (x : Query) (offset : Nat) :
    clockBanks (acceptQuery s p x offset) = clockBanks s := by
  simp [acceptQuery]

@[simp] theorem readEntry_clockBanks (s : State) (c : Cmd) (opcode stride : Nat) (p : Plan) (x : IndexParams) (i : Nat) (h : BitVec 512) :
    clockBanks (readEntry s c opcode stride p x i h) = clockBanks s := by
  simp [readEntry]

@[simp] theorem decidePosition_clockBanks (pr : QPair) (p : Plan) (c : Cmd) (opcode stride : Nat) (s : State) (pos : Nat) (e : Option Bytes) :
    clockBanks (decidePosition pr p c opcode stride s pos e) = clockBanks s := by
  unfold decidePosition
  dsimp only
  (repeat' split) <;> simp

/-! Operations of Bays. -/

@[simp] theorem dropPark_clockBanks (s : State) (b : Nat) : clockBanks (dropPark s b) = clockBanks s := by
  simp [dropPark]

@[simp] theorem makePark_clockBanks (s : State) (b pages : Nat) : clockBanks (makePark s b pages) = clockBanks s := by
  simp [makePark]

@[simp] theorem bindRegion_clockBanks (b : Nat) (s : State) (r : BitVec 128) :
    clockBanks (bindRegion b s r) = clockBanks s := by
  simp [bindRegion]

@[simp] theorem unwriteChannel_clockBanks (s : State) (c : Nat) : clockBanks (unwriteChannel s c) = clockBanks s :=
  (rfl)

@[simp] theorem mapPieces_clockBanks (s : State) (b c base n : Nat) :
    clockBanks (mapPieces s b c base n) = clockBanks s := by
  simp [mapPieces]

theorem bindPieces_clockBanks (s : State) (b c base : Nat) (r : Region) :
    clockBanks (updBay (unwriteChannel (mapPieces
      { s with
        bay := { s.bay with regions := s.bay.regions ++ [r] },
        tier := { s.tier with departures := s.tier.departures.map (fun d => if d.channel == c then { d with kind := .lease b } else d) } }
      b c base 30720) c) b (fun v => { v with
        excl := insertAsc c v.excl, exclAddrs := putKey v.exclAddrs c (pageBytes * base) })) = clockBanks s := by
  rw [updBay_clockBanks, unwriteChannel_clockBanks, mapPieces_clockBanks]; rfl

@[simp] theorem bindExclusive_clockBanks (s : State) (b c : Nat) : clockBanks (bindExclusive s b c) = clockBanks s :=
  (bindPieces_clockBanks _ b c _ _).trans (clockBanks_foldl _ _ addLeaf_clockBanks s)

@[simp] theorem settleBinds_clockBanks (s : State) : clockBanks (settleBinds s) = clockBanks s := by
  simp [settleBinds]

@[simp] theorem acceptBind_clockBanks (s : State) (c : Cmd) (b : Nat) (h : BitVec 1024) (regs : List (BitVec 128)) :
    clockBanks (acceptBind s c b h regs) = clockBanks s := by
  unfold acceptBind
  dsimp only
  (repeat' split) <;> simp

@[simp] theorem clearArray_clockBanks (s : State) (a : Nat) : clockBanks (clearArray s a) = clockBanks s := (rfl)

@[simp] theorem awaitLess_clockBanks (s : State) (p : PendingBind) (f : PendingBind → PendingBind) :
    clockBanks (awaitLess s p f) = clockBanks s := by
  simp [awaitLess]

@[simp] theorem handOver_clockBanks (s : State) (r : Resource) : clockBanks (handOver s r) = clockBanks s := by
  unfold handOver
  (repeat' split) <;> simp

@[simp] theorem dropExclusive_clockBanks (s : State) (b c : Nat) :
    clockBanks (dropExclusive s b c) = clockBanks s := by
  simp [dropExclusive]

@[simp] theorem startReturn_clockBanks (s : State) : clockBanks (startReturn s) = clockBanks s := by
  unfold startReturn
  split <;> simp

@[simp] theorem releaseLease_clockBanks (s : State) (c : Nat) : clockBanks (releaseLease s c) = clockBanks s := by
  simp [releaseLease]

@[simp] theorem storeToPages_clockBanks (s : State) (src : List Host.Cell) (key page n : Nat) :
    clockBanks (storeToPages s src key page n) = clockBanks s := by
  refine clockBanks_foldl _ _ (fun t i => ?_) s
  split <;> rfl

@[simp] theorem forcedSave_clockBanks (s : State) (b : Nat) : clockBanks (forcedSave s b) = clockBanks s := by
  simp [forcedSave]

@[simp] theorem giveUpRegions_clockBanks (s : State) (b : Nat) : clockBanks (giveUpRegions s b) = clockBanks s := by
  simp [giveUpRegions]

/-! Operations of Index. -/

@[simp] theorem addIndex_clockBanks (s : State) (x : Index) : clockBanks (addIndex s x) = clockBanks s := (rfl)

@[simp] theorem writeSlot_clockBanks (x : Index) (k : IndexPart) (s : State) (e : Nat × Bytes) :
    clockBanks (writeSlot x k s e) = clockBanks s := by
  simp [writeSlot]

@[simp] theorem writeDriftSlots_clockBanks (s : State) (x : Index) (es : List DriftEntry) :
    clockBanks (writeDriftSlots s x es) = clockBanks s := by
  simp [writeDriftSlots]

@[simp] theorem writeStore_clockBanks (s : State) (x : Index) (es : List (Nat × Bytes)) :
    clockBanks (writeStore s x es) = clockBanks s := by
  simp [writeStore]

@[simp] theorem kerfByModule_clockBanks (s : State) (index : Nat) (ns : List Nat) :
    clockBanks (kerfByModule s index ns) = clockBanks s :=
  (rfl)

@[simp] theorem loseUnit_clockBanks (s : State) (channel die unit : Nat) :
    clockBanks (loseUnit s channel die unit) = clockBanks s := by
  unfold loseUnit
  dsimp only
  split
  · simp
  · refine (clockBanks_foldl _ _ (fun t x => ?_) _).trans (logError_clockBanks ..)
    (repeat' split) <;> simp

/-! Operations of Plan. -/

@[simp] theorem takeScratch_clockBanks (s : State) (b ctx pages : Nat) :
    clockBanks (takeScratch s b ctx pages).1 = clockBanks s := by
  simp [takeScratch]

@[simp] theorem bindPegs_clockBanks (b ctx : Nat) (l : List PegBinding) (r : State × List PegBinding) :
    clockBanks (bindPegs b ctx l r).1 = clockBanks r.1 := by
  induction l generalizing r with
  | nil => rfl
  | cons d rest ih =>
    unfold bindPegs
    split
    · exact ih _
    · split <;> exact ih _

@[simp] theorem acceptPlan_clockBanks (s : State) (ctx : Nat) (m : Image) :
    clockBanks (acceptPlan s ctx m).1 = clockBanks s := by
  simp [acceptPlan]

@[simp] theorem poisonFilled_clockBanks (s : State) (a : Nat) : clockBanks (poisonFilled s a) = clockBanks s := by
  unfold poisonFilled
  dsimp only
  split <;> simp

/-! Operations of Search. -/

@[simp] theorem touchReads_clockBanks (s : State) (i : Index) (rs : List PartRead) :
    clockBanks (touchReads s i rs) = clockBanks s := by
  simp [touchReads]

@[simp] theorem takeTicket_clockBanks (s : State) : clockBanks (takeTicket s) = clockBanks s := (rfl)

@[simp] theorem sendReads_clockBanks (s : State) (i : Index) (v : Version) (x : Query) :
    clockBanks (sendReads s i v x) = clockBanks s := by
  simp [sendReads]

@[simp] theorem nextHop_clockBanks (s : State) (i : Index) (v : Version) (p : SearchParams) (x : Query) :
    clockBanks (nextHop s i v p x) = clockBanks s := by
  simp [nextHop]

@[simp] theorem startTraversal_clockBanks (s : State) (x : Query) :
    clockBanks (startTraversal s x) = clockBanks s := by
  unfold startTraversal
  split <;> simp

@[simp] theorem requestSlots_clockBanks (s : State) (i : Index) (v : Version) (x : Query) :
    clockBanks (requestSlots s i v x) = clockBanks s := by
  simp [requestSlots]

@[simp] theorem formPool_clockBanks (s : State) (x : Query) : clockBanks (formPool s x) = clockBanks s := by
  unfold formPool
  split <;> simp

@[simp] theorem settleSearch_clockBanks (s : State) (slot : Nat) :
    clockBanks (settleSearch s slot) = clockBanks s := by
  unfold settleSearch
  split <;> simp

@[simp] theorem formRerank_clockBanks (s : State) (x : Query) : clockBanks (formRerank s x) = clockBanks s := by
  unfold formRerank
  split <;> simp

@[simp] theorem countTruncated_clockBanks (s : State) (b c : Nat) :
    clockBanks (countTruncated s b c) = clockBanks s :=
  (rfl)

@[simp] theorem writeResults_clockBanks (s : State) (x : Query) (p : Plan) (truncated byScore : Bool) :
    clockBanks (writeResults s x p truncated byScore) = clockBanks s := by
  unfold writeResults
  split <;> simp

@[simp] theorem afterEncoder_clockBanks (s : State) (x : Query) (p : Plan) :
    clockBanks (afterEncoder s x p) = clockBanks s := by
  unfold afterEncoder
  (repeat' split) <;> simp

@[simp] theorem chargeFlash_clockBanks (s : State) (x : Query) : clockBanks (chargeFlash s x) = clockBanks s := by
  simp [chargeFlash]

@[simp] theorem startRebuild_clockBanks (s : State) (x : Query) (u : Nat) :
    clockBanks (startRebuild s x u).1 = clockBanks s :=
  (rfl)

@[simp] theorem chargeDram_clockBanks (s : State) (x : Query) (r : DramReq) :
    clockBanks (chargeDram s x r) = clockBanks s := by
  simp [chargeDram]

@[simp] theorem endHop_clockBanks (s : State) (x : Query) : clockBanks (endHop s x) = clockBanks s := by
  unfold endHop
  split <;> simp

@[simp] theorem readRecord_clockBanks (s : State) (i : Index) (n : Nat) (m : DramRead) :
    clockBanks (readRecord s i n m).1 = clockBanks s := by
  simp [readRecord]

@[simp] theorem readSlot_clockBanks (s : State) (i : Index) (a : Nat) (m : DramRead) :
    clockBanks (readSlot s i a m).1 = clockBanks s := by
  simp [readSlot]

@[simp] theorem abandonCuts_clockBanks (s : State) (x : Query) (p : Plan) :
    clockBanks (abandonCuts s x p) = clockBanks s :=
  (rfl)

@[simp] theorem truncateQuery_clockBanks (s : State) (x : Query) (p : Plan) :
    clockBanks (truncateQuery s x p) = clockBanks s := by
  unfold truncateQuery
  (repeat' split) <;> simp

/-! Operations of Cells. -/

@[simp] theorem placeWrite_clockBanks (s : State) (pl : Place) (bs : Bytes) :
    clockBanks (placeWrite s pl bs) = clockBanks s := by
  unfold placeWrite
  split <;> simp

@[simp] theorem afterLast_clockBanks (s : State) (sector : Nat) : clockBanks (afterLast s sector) = clockBanks s := by
  unfold afterLast
  split <;> simp

@[simp] theorem touchPlace_clockBanks (s : State) (pl : Place) (n : Nat) :
    clockBanks (touchPlace s pl n) = clockBanks s := by
  unfold touchPlace
  split <;> simp

@[simp] theorem failCut_clockBanks (s : State) (x : Query) : clockBanks (failCut s x) = clockBanks s := (rfl)

@[simp] theorem writeLanes_clockBanks (s : State) (cell reg : Nat) (ls : List (BitVec 80)) :
    clockBanks (writeLanes s cell reg ls) = clockBanks s :=
  (rfl)

@[simp] theorem setThread_clockBanks (s : State) (t : Thread) : clockBanks (setThread s t) = clockBanks s := (rfl)

@[simp] theorem issueScalar_clockBanks (s : State) (thr reg : Nat) (v : Word64) (wait : Option ThreadWait) :
    clockBanks (issueScalar s thr reg v wait) = clockBanks s := by
  simp [issueScalar]

@[simp] theorem wakeThread_clockBanks (s : State) (thr : Nat) : clockBanks (wakeThread s thr) = clockBanks s := by
  unfold wakeThread
  split <;> simp

/-! Operations of Cuts. -/

@[simp] theorem holdSlice_clockBanks (s : State) (x : Query) (d : Cut) :
    clockBanks (holdSlice s x d) = clockBanks s := by
  unfold holdSlice
  (repeat' split) <;> simp

@[simp] theorem streamPage_clockBanks (hint : Nat) (s : State) (page : Nat) :
    clockBanks (streamPage hint s page) = clockBanks s := by
  simp [streamPage]

@[simp] theorem updWeight_clockBanks (s : State) (h n : Nat) (f : WeightObj → WeightObj) :
    clockBanks (updWeight s h n f) = clockBanks s :=
  (rfl)

@[simp] theorem startStream_clockBanks (s : State) (p : Plan) (n : Nat) (as_ : List Nat) :
    clockBanks (startStream s p n as_) = clockBanks s := by
  unfold startStream
  split <;> simp

@[simp] theorem finishStream_clockBanks (s : State) (o : WeightObj) :
    clockBanks (finishStream s o) = clockBanks s := by
  simp [finishStream]

@[simp] theorem markObject_clockBanks (s : State) (o : WeightObj) : clockBanks (markObject s o) = clockBanks s := by
  simp [markObject]

@[simp] theorem endWaiting_clockBanks (status : Nat) (s : State) (x : Query) :
    clockBanks (endWaiting status s x) = clockBanks s := by
  simp [endWaiting]

@[simp] theorem loseObject_clockBanks (s : State) (o : WeightObj) (sectors : List Nat) :
    clockBanks (loseObject s o sectors) = clockBanks s := by
  simp [loseObject]

@[simp] theorem poisonObject_clockBanks (s : State) (o : WeightObj) :
    clockBanks (poisonObject s o) = clockBanks s := by
  unfold poisonObject
  dsimp only
  (repeat' split) <;> simp

@[simp] theorem updPlanCounters_clockBanks (s : State) (h : Nat) (f : PlanCounters → PlanCounters) :
    clockBanks (updPlanCounters s h f) = clockBanks s :=
  (rfl)

@[simp] theorem sramErrorOp_clockBanks (s : State) (x : Query) (p : Plan) (as_ : List Nat) (pl : Place) (double : Bool) :
    clockBanks (sramErrorOp s x p as_ pl double) = clockBanks s := by
  unfold sramErrorOp
  (repeat' split) <;> simp

@[simp] theorem finishCuts_clockBanks (s : State) (x : Query) (p : Plan) :
    clockBanks (finishCuts s x p) = clockBanks s := by
  unfold finishCuts
  (repeat' split) <;> simp

@[simp] theorem noteStall_clockBanks (s : State) (x : Query) (p : Plan) :
    clockBanks (noteStall s x p) = clockBanks s := by
  simp [noteStall]

/-! Operations of TierRows. -/

@[simp] theorem retryCopies_clockBanks (s : State) : clockBanks (retryCopies s) = clockBanks s := by
  simp [retryCopies]

@[simp] theorem retryFaults_clockBanks (s : State) : clockBanks (retryFaults s) = clockBanks s := by
  simp [retryFaults]

@[simp] theorem withPlaced_clockBanks (s : State) (ev : Reserved) (w : Nat) :
    clockBanks (withPlaced s ev w) = clockBanks s :=
  (rfl)

@[simp] theorem undefer_clockBanks (s : State) (ev : Reserved) : clockBanks (undefer s ev) = clockBanks s := (rfl)

@[simp] theorem setDie_clockBanks (s : State) (v : Die) : clockBanks (setDie s v) = clockBanks s := (rfl)

@[simp] theorem beginPiece_clockBanks (s : State) (ev : Reserved) (w : Nat) :
    clockBanks (beginPiece s ev w) = clockBanks s := by
  unfold beginPiece
  split <;> simp

@[simp] theorem markTaken_clockBanks (s : State) (e : Placed) : clockBanks (markTaken s e) = clockBanks s := (rfl)

@[simp] theorem wantDeparture_clockBanks (s : State) (c : Nat) (k : DepKind) :
    clockBanks (wantDeparture s c k) = clockBanks s := by
  simp [wantDeparture]

@[simp] theorem blockRetirement_clockBanks (s : State) (channel : Nat) :
    clockBanks (blockRetirement s channel) = clockBanks s :=
  (rfl)

@[simp] theorem poisonBlocks_clockBanks (ks : List Nat) (s : State) :
    clockBanks (poisonBlocks ks s) = clockBanks s := by
  simp [poisonBlocks]

@[simp] theorem giveFrameBack_clockBanks (s : State) (d : Nat) : clockBanks (giveFrameBack s d) = clockBanks s := by
  simp [giveFrameBack]

@[simp] theorem giveRowBack_clockBanks (s : State) (ds : List Nat) :
    clockBanks (giveRowBack s ds) = clockBanks s := by
  simp [giveRowBack]

@[simp] theorem freeRetired_clockBanks (s : State) (c : Nat) : clockBanks (freeRetired s c) = clockBanks s := by
  simp [freeRetired]

@[simp] theorem spareLocals_clockBanks (s : State) (c : Nat) : clockBanks (spareLocals s c) = clockBanks s := by
  simp [spareLocals]

@[simp] theorem unspareLocals_clockBanks (s : State) (c : Nat) : clockBanks (unspareLocals s c) = clockBanks s := by
  simp [unspareLocals]

@[simp] theorem freeSpares_clockBanks (s : State) (n : Nat) : clockBanks (freeSpares s n) = clockBanks s := by
  simp [freeSpares]

@[simp] theorem announceCopy_clockBanks (s : State) (cs : List (Nat × Nat)) (stripes : Nat) :
    clockBanks (announceCopy s cs stripes).1 = clockBanks s := by
  simp [announceCopy]

@[simp] theorem rebuildSector_clockBanks (s : State) (k : Nat) : clockBanks (rebuildSector s k) = clockBanks s := by
  unfold rebuildSector
  split <;> simp

/-! Operations of Stage. -/

@[simp] theorem updStage_clockBanks (s : State) (f : StageState → StageState) :
    clockBanks (updStage s f) = clockBanks s :=
  (rfl)

@[simp] theorem keepObject_clockBanks (s : State) (i j : Nat) : clockBanks (keepObject s i j) = clockBanks s := by
  unfold keepObject
  split <;> simp

@[simp] theorem applyObject_clockBanks (s : State) (i j v : Nat) :
    clockBanks (applyObject s i j v) = clockBanks s := by
  simp [applyObject]

@[simp] theorem touchLock_clockBanks (s : State) (by_ : Master) : clockBanks (touchLock s by_) = clockBanks s := by
  simp [touchLock]

@[simp] theorem takeLock_clockBanks (s : State) (by_ : Master) : clockBanks (takeLock s by_).1 = clockBanks s := by
  unfold takeLock
  split <;> simp

@[simp] theorem releaseLock_clockBanks (s : State) (by_ : Master) :
    clockBanks (releaseLock s by_).1 = clockBanks s := by
  simp [releaseLock]

@[simp] theorem stageObject_clockBanks (s : State) (by_ : Master) (i j : Nat) (value : Bytes) :
    clockBanks (stageObject s by_ i j value).1 = clockBanks s := by
  simp [stageObject]

@[simp] theorem discardFrame_clockBanks (s : State) (by_ : Master) (v : Nat) :
    clockBanks (discardFrame s by_ v).1 = clockBanks s := by
  simp [discardFrame]

@[simp] theorem startFit_clockBanks (s : State) (by_ : Master) (v : Nat) :
    clockBanks (startFit s by_ v).1 = clockBanks s := by
  simp [startFit]

@[simp] theorem writeFit_clockBanks (s : State) : clockBanks (writeFit s) = clockBanks s := by
  unfold writeFit
  dsimp only
  split <;> simp

@[simp] theorem requestRaise_clockBanks (s : State) (by_ : Master) (m : RaiseMode) (v : Nat) :
    clockBanks (requestRaise s by_ m v).1 = clockBanks s := by
  unfold requestRaise
  (repeat' split) <;> simp

@[simp] theorem cancelRaise_clockBanks (s : State) (by_ : Master) :
    clockBanks (cancelRaise s by_).1 = clockBanks s := by
  unfold cancelRaise
  (repeat' split) <;> simp

@[simp] theorem writeRaiseCmd_clockBanks (s : State) (by_ : Master) (v : Nat) :
    clockBanks (writeRaiseCmd s by_ v).1 = clockBanks s := by
  unfold writeRaiseCmd
  (repeat' split) <;> simp

@[simp] theorem applyBay0_clockBanks (s : State) (h : BitVec 1024) : clockBanks (applyBay0 s h) = clockBanks s := by
  unfold applyBay0
  dsimp only
  (repeat' split) <;> simp

@[simp] theorem settleHold_clockBanks (s : State) : clockBanks (settleHold s) = clockBanks s := by
  unfold settleHold
  split <;> simp

@[simp] theorem logEpisode_clockBanks (s : State) (cause since : Nat) :
    clockBanks (logEpisode s cause since) = clockBanks s := by
  simp [logEpisode]

@[simp] theorem liftCap_clockBanks (s : State) : clockBanks (liftCap s) = clockBanks s := by
  unfold liftCap
  rw [settleHold_clockBanks]
  refine (clockBanks_adm _ _).trans ?_
  rw [logEpisode_clockBanks]
  split <;> simp

@[simp] theorem judgePower_clockBanks (s : State) : clockBanks (judgePower s) = clockBanks s := by simp [judgePower]

@[simp] theorem raiseObject_clockBanks (s : State) (e : Nat × Nat × Nat × Nat) :
    clockBanks (raiseObject s e) = clockBanks s := by
  unfold raiseObject
  dsimp only
  split
  · exact (clockBanks_health _ _).trans (applyObject_clockBanks ..)
  · (repeat' split) <;> simp

@[simp] theorem raiseNow_clockBanks (s : State) : clockBanks (raiseNow s) = clockBanks s := by simp [raiseNow]

@[simp] theorem hostLockLost_clockBanks (s : State) : clockBanks (hostLockLost s) = clockBanks s := by
  simp [hostLockLost]

@[simp] theorem stageAfterRestart_clockBanks (s : State) : clockBanks (stageAfterRestart s) = clockBanks s := by
  simp [stageAfterRestart]

@[simp] theorem writeStart_clockBanks (s : State) (by_ : Master) : clockBanks (writeStart s by_) = clockBanks s := by
  simp [writeStart]

@[simp] theorem restoreValue_clockBanks (s : State) (i j v : Nat) :
    clockBanks (restoreValue s i j v) = clockBanks s := by
  unfold restoreValue
  split <;> simp

@[simp] theorem noteWrite_clockBanks (by_ : Master) (i j : Nat) (r : State × Nat) :
    clockBanks (noteWrite by_ i j r).1 = clockBanks r.1 := by
  unfold noteWrite
  (repeat' split) <;> simp

/-! Operations of Media. -/

@[simp] theorem moveBlock_clockBanks (s : State) (c l b t : Nat) : clockBanks (moveBlock s c l b t) = clockBanks s :=
  (rfl)

@[simp] theorem moveStripe_clockBanks (s : State) (g l u : Nat) : clockBanks (moveStripe s g l u) = clockBanks s :=
  (rfl)

@[simp] theorem moveHome_clockBanks (s : State) (h : PageHome) : clockBanks (moveHome s h) = clockBanks s := (rfl)

@[simp] theorem removeBlock_clockBanks (s : State) (c l b : Nat) :
    clockBanks (removeBlock s c l b) = clockBanks s := by
  simp [removeBlock]

@[simp] theorem placeBlock_clockBanks (c d : Nat) (s : State) (e : Nat × Nat) :
    clockBanks (placeBlock c d s e) = clockBanks s := by
  unfold placeBlock
  split <;> simp

@[simp] theorem retireDie_clockBanks (s : State) (c d : Nat) : clockBanks (retireDie s c d) = clockBanks s := by
  simp [retireDie]

@[simp] theorem retireSpent_clockBanks (c k : Nat) (s : State) : clockBanks (retireSpent c k s) = clockBanks s := by
  induction k generalizing s with
  | zero => rfl
  | succ k ih => unfold retireSpent; split <;> simp [ih]

@[simp] theorem retireBlock_clockBanks (s : State) (c d block : Nat) :
    clockBanks (retireBlock s c d block) = clockBanks s := by
  unfold retireBlock
  dsimp only
  (repeat' split) <;> simp

@[simp] theorem refreshBlock_clockBanks (s : State) (c d block : Nat) :
    clockBanks (refreshBlock s c d block) = clockBanks s := by
  unfold refreshBlock
  split <;> simp

@[simp] theorem poisonRow_clockBanks (s : State) (bank row : Nat) :
    clockBanks (poisonRow s bank row).1 = clockBanks s := by
  unfold poisonRow
  (repeat' split) <;> simp

@[simp] theorem retireFrames_clockBanks (s : State) (c : Nat) (frames : List Nat) :
    clockBanks (retireFrames s c frames) = clockBanks s := by
  simp [retireFrames]

@[simp] theorem repairRow_clockBanks (bank : Nat) (s : State) (r : Nat × List Nat) :
    clockBanks (repairRow bank s r) = clockBanks s := by
  simp [repairRow]

@[simp] theorem repairChannel_clockBanks (s : State) (c : Nat) : clockBanks (repairChannel s c) = clockBanks s := by
  simp [repairChannel]

/-! Operations of Ageing. -/

@[simp] theorem exhaustArray_clockBanks (s : State) (n : Nat) : clockBanks (exhaustArray s n) = clockBanks s := by
  simp [exhaustArray]

@[simp] theorem setReference_clockBanks (s : State) (r : Nat × Nat × Nat × Int) :
    clockBanks (setReference s r) = clockBanks s :=
  (rfl)

/-! Operations of Link. -/

@[simp] theorem refreshReady_clockBanks (s : State) : clockBanks (refreshReady s) = clockBanks s := (rfl)

@[simp] theorem clearKeys_clockBanks (s : State) : clockBanks (clearKeys s) = clockBanks s := (rfl)

@[simp] theorem trackLine_clockBanks (s : State) (line : Nat) : clockBanks (trackLine s line) = clockBanks s := by
  unfold trackLine
  dsimp only
  (repeat' split) <;> simp

@[simp] theorem doeAnswer_clockBanks (s : State) (code : Nat) (fields : List Nat) :
    clockBanks (doeAnswer s code fields) = clockBanks s := by
  simp [doeAnswer]

/-! Operations of Fatal. -/

@[simp] theorem abandonAll_clockBanks (s : State) : clockBanks (abandonAll s) = clockBanks s := by simp [abandonAll]

@[simp] theorem hotOff_clockBanks (s : State) : clockBanks (hotOff s) = clockBanks s := by simp [hotOff]

@[simp] theorem endStaging_clockBanks (s : State) : clockBanks (endStaging s) = clockBanks s := by
  unfold endStaging
  split <;> simp

@[simp] theorem mgmtLost_clockBanks (s : State) : clockBanks (mgmtLost s) = clockBanks s := by simp [mgmtLost]

@[simp] theorem startTest_clockBanks (s : State) (c : Cmd) (extended : Bool) :
    clockBanks (startTest s c extended) = clockBanks s := by
  simp [startTest]

/-! Operations of Boot. -/

@[simp] theorem stagedAs_clockBanks (s : State) (i : Option FwImage) : clockBanks (stagedAs s i) = clockBanks s :=
  (rfl)

@[simp] theorem finishStage_clockBanks (s : State) : clockBanks (finishStage s) = clockBanks s := by
  unfold finishStage
  split <;> simp

@[simp] theorem logIgnored_clockBanks (s : State) (r : CfgRecord) : clockBanks (logIgnored s r) = clockBanks s :=
  (rfl)

@[simp] theorem serveMgmt_clockBanks (s : State) : clockBanks (serveMgmt s) = clockBanks s := by simp [serveMgmt]

@[simp] theorem bootFlash_clockBanks (s : State) : clockBanks (bootFlash s) = clockBanks s := by
  unfold bootFlash
  dsimp only
  (repeat' split) <;> simp

/-! Operations of Power. -/

@[simp] theorem beginEntry_clockBanks (s : State) (n depth : Nat) :
    clockBanks (beginEntry s n depth) = clockBanks s := by
  simp [beginEntry]

@[simp] theorem enterDue_clockBanks (s : State) (n : Nat) : clockBanks (enterDue s n) = clockBanks s := by
  simp [enterDue]

@[simp] theorem tickDomain_clockBanks (s : State) (n : Nat) : clockBanks (tickDomain s n) = clockBanks s := by
  simp [tickDomain]

@[simp] theorem tickDomains_clockBanks (s : State) : clockBanks (tickDomains s) = clockBanks s := by
  simp [tickDomains]

@[simp] theorem loseOff_clockBanks (s : State) (n : Nat) : clockBanks (loseOff s n) = clockBanks s := by
  unfold loseOff
  split <;> simp

@[simp] theorem startController_clockBanks (s : State) (p : Nat) :
    clockBanks (startController s p) = clockBanks s := by
  simp [startController]

/-! Operations of Reset. -/

@[simp] theorem dictDefaults_clockBanks (s : State) : clockBanks (dictDefaults s) = clockBanks s := (rfl)

@[simp] theorem restartFromFlash_clockBanks (s : State) : clockBanks (restartFromFlash s) = clockBanks s := by
  simp [restartFromFlash]

@[simp] theorem unbindBay_clockBanks (s : State) (b : Nat) : clockBanks (unbindBay s b) = clockBanks s := by
  simp [unbindBay]

@[simp] theorem resetStart_clockBanks (s : State) : clockBanks (resetStart s) = clockBanks s := by simp [resetStart]

@[simp] theorem rebuildMarked_clockBanks (s : State) (c d : Nat) :
    clockBanks (rebuildMarked s c d) = clockBanks s := by
  simp [rebuildMarked]

@[simp] theorem startRepairs_clockBanks (s : State) : clockBanks (startRepairs s) = clockBanks s := by
  simp [startRepairs]

@[simp] theorem railsOn_clockBanks (s : State) : clockBanks (railsOn s) = clockBanks s := by simp [railsOn]

@[simp] theorem tryPower_clockBanks (s : State) : clockBanks (tryPower s) = clockBanks s := by simp [tryPower]

/-! Operations of Security. -/

@[simp] theorem requestEvidence_clockBanks (s : State) (by_ : Master) (value : Bytes) (spdm : Bool) :
    clockBanks (requestEvidence s by_ value spdm).1 = clockBanks s := by
  simp [requestEvidence]

@[simp] theorem setIdeDir_clockBanks (s : State) (d : StreamDir) (v : IdeDir) :
    clockBanks (setIdeDir s d v) = clockBanks s :=
  (rfl)

/-! Operations of Firmware. -/

@[simp] theorem writeCopies_clockBanks (s : State) (f : FwImage) (m0 m1 : Media) :
    clockBanks (writeCopies s f m0 m1).1 = clockBanks s := by
  simp [writeCopies]

@[simp] theorem bootStaged_clockBanks (s : State) (f : FwImage) (m0 m1 : Media) :
    clockBanks (bootStaged s f m0 m1).1 = clockBanks s := by
  simp [bootStaged]

@[simp] theorem installRecord_clockBanks (s : State) (bs : Bytes) :
    clockBanks (installRecord s bs).1 = clockBanks s := by
  simp [installRecord]

@[simp] theorem mbAnswer_clockBanks (s : State) (opcode ret : Nat) (data : Bytes) :
    clockBanks (mbAnswer s opcode ret data) = clockBanks s :=
  (rfl)

@[simp] theorem mbEnd_clockBanks (s : State) (opcode status : Nat) :
    clockBanks (mbEnd s opcode status) = clockBanks s := by
  simp [mbEnd]

@[simp] theorem endTransfer_clockBanks (s : State) (bs : Bytes) : clockBanks (endTransfer s bs) = clockBanks s := by
  simp [endTransfer]

@[simp] theorem fwRxSetLen_clockBanks (s : State) (v : Nat) : clockBanks (fwRxSetLen s v).1 = clockBanks s := by
  simp [fwRxSetLen]

@[simp] theorem fwRxPut_clockBanks (s : State) (data : Bytes) : clockBanks (fwRxPut s data).1 = clockBanks s := by
  unfold fwRxPut
  (repeat' split) <;> simp

@[simp] theorem fwRxCommand_clockBanks (s : State) (v : Nat) (m0 m1 : Media) :
    clockBanks (fwRxCommand s v m0 m1).1 = clockBanks s := by
  unfold fwRxCommand
  dsimp only
  (repeat' split) <;> simp

@[simp] theorem cfgRxSetLen_clockBanks (s : State) (v : Nat) : clockBanks (cfgRxSetLen s v).1 = clockBanks s := by
  simp [cfgRxSetLen]

@[simp] theorem cfgRxPut_clockBanks (s : State) (data : Bytes) : clockBanks (cfgRxPut s data).1 = clockBanks s := by
  unfold cfgRxPut
  split <;> simp

@[simp] theorem cfgRxCommand_clockBanks (s : State) (v : Nat) : clockBanks (cfgRxCommand s v).1 = clockBanks s := by
  unfold cfgRxCommand
  dsimp only
  (repeat' split) <;> simp

/-! Operations of Dict. -/

@[simp] theorem writeLog_clockBanks (s : State) (by_ : Master) (j v : Nat) :
    clockBanks (writeLog s by_ j v) = clockBanks s := by
  simp [writeLog]

@[simp] theorem clearDump_clockBanks (s : State) (v : Nat) : clockBanks (clearDump s v) = clockBanks s := by
  simp [clearDump]

@[simp] theorem writeSecLock_clockBanks (s : State) (v : Nat) : clockBanks (writeSecLock s v) = clockBanks s := by
  simp [writeSecLock]

@[simp] theorem touchLockFor_clockBanks (by_ : Master) (i : Nat) (s : State) :
    clockBanks (applyWrite.touchLockFor by_ i s) = clockBanks s := by
  unfold applyWrite.touchLockFor
  split <;> simp

@[simp] theorem applyWrite_clockBanks (s : State) (by_ : Master) (i j : Nat) (value : Bytes) :
    clockBanks (applyWrite s by_ i j value).1 = clockBanks s := by
  simp [applyWrite]

@[simp] theorem writeObject_clockBanks (s : State) (by_ : Master) (i j : Nat) (value : Bytes) :
    clockBanks (writeObject s by_ i j value).1 = clockBanks s := by
  unfold writeObject
  split <;> simp

/-! Operations of Sideband. -/

@[simp] theorem countAuth_clockBanks (s : State) : clockBanks (countAuth s) = clockBanks s := (rfl)

@[simp] theorem countSeq_clockBanks (s : State) : clockBanks (countSeq s) = clockBanks s := (rfl)

@[simp] theorem putPeer_clockBanks (s : State) (p : Peer) : clockBanks (putPeer s p) = clockBanks s := (rfl)

@[simp] theorem hearPeer_clockBanks (s : State) (a : Nat) : clockBanks (hearPeer s a) = clockBanks s := (rfl)

@[simp] theorem respond_clockBanks (s : State) (f : Frame) (status : Nat) (change : Word32) (value : Bytes) :
    clockBanks (respond s f status change value) = clockBanks s :=
  (rfl)

@[simp] theorem respondKept_clockBanks (s : State) (f : Frame) (status : Nat) (change : Word32) (value : Bytes) :
    clockBanks (respondKept s f status change value) = clockBanks s :=
  (rfl)

@[simp] theorem respondAgain_clockBanks (s : State) (f : Frame) (h : BitVec 256) (value : Bytes) :
    clockBanks (respondAgain s f h value) = clockBanks s :=
  (rfl)

@[simp] theorem runRequest_clockBanks (s : State) (f : Frame) : clockBanks (runRequest s f).1 = clockBanks s := by
  simp [runRequest]

@[simp] theorem wakeMgmt_clockBanks (s : State) : clockBanks (wakeMgmt s) = clockBanks s := by simp [wakeMgmt]

@[simp] theorem handFrame_clockBanks (s : State) : clockBanks (handFrame s) = clockBanks s := by simp [handFrame]

@[simp] theorem runOpen_clockBanks (s : State) (f : Frame) : clockBanks (runOpen s f) = clockBanks s := by
  simp [runOpen]

@[simp] theorem runKept_clockBanks (s : State) (f : Frame) : clockBanks (runKept s f) = clockBanks s := by
  simp [runKept]

@[simp] theorem receiveOpen_clockBanks (s : State) (f : Frame) : clockBanks (receiveOpen s f) = clockBanks s := by
  simp [receiveOpen]

@[simp] theorem receiveSequenced_clockBanks (s : State) (f : Frame) :
    clockBanks (receiveSequenced s f) = clockBanks s := by
  unfold receiveSequenced
  dsimp only
  (repeat' split) <;> simp

@[simp] theorem takeAck_clockBanks (s : State) (f : Frame) : clockBanks (takeAck s f) = clockBanks s := (rfl)

@[simp] theorem checkFrame_clockBanks (s : State) (f : Frame) : clockBanks (checkFrame s f) = clockBanks s := by
  simp [checkFrame]

@[simp] theorem receive_clockBanks (s : State) (f : Frame) : clockBanks (receive s f) = clockBanks s := by
  simp [receive]

/-! Operations of Copy. -/

@[simp] theorem copyRead_clockBanks (s : State) (hint addr n : Nat) :
    clockBanks (copyRead s hint addr n).1 = clockBanks s := by
  simp [copyRead]

/-! Operations of PegRows. -/

@[simp] theorem threadAnswer_clockBanks (s : State) (ctx thr p : Nat) (ok broken : Bool) :
    clockBanks (threadAnswer s ctx thr p ok broken) = clockBanks s := by
  simp [threadAnswer]

/-! Operations of QueueCmds. -/

@[simp] theorem doorbellWake_clockBanks (s : State) : clockBanks (doorbellWake s) = clockBanks s := by
  simp [doorbellWake]

@[simp] theorem adminDoorbell_clockBanks (s : State) (v depth : Nat) (act : Queue → Queue) :
    clockBanks (adminDoorbell s v depth act) = clockBanks s := by
  simp [adminDoorbell]

@[simp] theorem failEntry_clockBanks (s : State) (q : Nat) (u : Queue) :
    clockBanks (failEntry s q u) = clockBanks s := by
  simp [failEntry]

@[simp] theorem addPair_clockBanks (s : State) (p : QPair) : clockBanks (addPair s p) = clockBanks s := by
  simp [addPair]

/-! Operations of Select. -/

@[simp] theorem storeWrite_clockBanks (s : State) (cell : Nat) (l : Loc) (bs : Bytes) :
    clockBanks (storeWrite s cell l bs) = clockBanks s := by
  simp [storeWrite]

@[simp] theorem readRows_clockBanks (s : State) (cell : Nat) (srcs : List (Loc × Nat)) (nans : Nat) :
    clockBanks (readRows s cell srcs nans) = clockBanks s := by
  unfold readRows
  split <;> simp

@[simp] theorem setSelection_clockBanks (s : State) (cell n : Nat) (f : Bool) :
    clockBanks (setSelection s cell n f) = clockBanks s :=
  (rfl)

@[simp] theorem putWords_clockBanks (s : State) (cell : Nat) (dst : Loc) (input out : List SortWord) (res : Option (Nat × Bool)) :
    clockBanks (putWords s cell dst input out res) = clockBanks s := by
  unfold putWords
  split <;> simp

/-! Operations of Tap. -/

@[simp] theorem loadIr_clockBanks (s : State) (code level : Nat) (cond : Bool) :
    clockBanks (loadIr s code level cond) = clockBanks s :=
  (rfl)

@[simp] theorem capture_clockBanks (s : State) (code : Nat) (v : BitVec 128) :
    clockBanks (capture s code v) = clockBanks s :=
  (rfl)

@[simp] theorem updateDr_clockBanks (s : State) (d : BitVec 128) : clockBanks (updateDr s d) = clockBanks s := by
  simp [updateDr]

@[simp] theorem startOp_clockBanks (s : State) (op : Nat) (d : BitVec 128) :
    clockBanks (startOp s op d) = clockBanks s := by
  unfold startOp onTap
  (repeat' split) <;> simp

@[simp] theorem opPprQuery_clockBanks (s : State) (b : Nat) : clockBanks (opPprQuery s b).1 = clockBanks s := (rfl)

@[simp] theorem opPprRepair_clockBanks (s : State) (b row : Nat) (ok : Bool) :
    clockBanks (opPprRepair s b row ok).1 = clockBanks s := by
  simp [opPprRepair]

@[simp] theorem opBbtQuery_clockBanks (s : State) (c d : Nat) : clockBanks (opBbtQuery s c d).1 = clockBanks s :=
  (rfl)

@[simp] theorem opBbtRead_clockBanks (s : State) (c d block : Nat) :
    clockBanks (opBbtRead s c d block).1 = clockBanks s := by
  simp [opBbtRead]

@[simp] theorem opBbtMark_clockBanks (s : State) (c d block : Nat) :
    clockBanks (opBbtMark s c d block).1 = clockBanks s := by
  simp [opBbtMark]

@[simp] theorem opLoopStart_clockBanks (s : State) (a0 : Nat) : clockBanks (opLoopStart s a0).1 = clockBanks s := by
  simp [opLoopStart]

@[simp] theorem opLoopStop_clockBanks (s : State) : clockBanks (opLoopStop s).1 = clockBanks s := by
  unfold opLoopStop
  split <;> simp

@[simp] theorem bringupOp_clockBanks (s : State) (d : BitVec 128) (ok : Bool) :
    clockBanks (bringupOp s d ok).1 = clockBanks s := by
  unfold bringupOp
  (repeat' split) <;> simp

/-! Operations of Step. -/

end Sys2Proof.Machine

/-! SUPPORT. What ordinary operations keep of the clock and the rime records: an anchor is fixed before a run of
operations, and the state that each leaves is compared with it. -/

namespace Sys2Proof.Machine

open Sys2Proof

/-! Putting a record in its place permutes the list. -/

theorem insertBy_perm {α : Type} (before : α → α → Bool) (x : α)
    (l : List α) : (insertBy before x l).Perm (x :: l) := by
  induction l with
  | nil => exact .refl _
  | cons y r ih =>
    unfold insertBy
    split
    · exact (ih.cons y).trans (.swap x y r)
    · exact .refl _

/-- The records of the banks with one put in place (the list of setRimeBank). -/
theorem setRimeBank_banks_perm (s : State) (b : RimeBank) :
    (setRimeBank s b).rime.banks.Perm (b :: s.rime.banks.filter (fun x => x.bank != b.bank)) := insertBy_perm ..

/-! What ordinary steps keep. -/

/-- A point that later states are compared with: its boot count and DTB, the banks that compute, and whether each bank has one
record. -/
structure Anchor where
  bootCount : Word32
  dtb : Nat
  computing : Set Nat
  distinct : Prop

/-- The anchor that a state is. -/
def anchorOf (s : State) : Anchor :=
  { bootCount := s.time.bootCount, dtb := s.time.dtb, computing := {n | n ∈ (computingBanks s).map (fun b => b.bank)},
    distinct := (s.rime.banks.map (fun b => b.bank)).Nodup }

/-- The boot count stands and the DTB has not decreased (R26); no other bank computes, and banks keep distinct records (R22). -/
structure Anchor.Admits (A : Anchor) (v : Word32 × Nat × List RimeBank) : Prop where
  bootCount : v.1 = A.bootCount
  dtb : A.dtb ≤ v.2.1
  computing : ∀ b ∈ v.2.2, b.segment.isSome = true → b.bank ∈ A.computing
  distinct : A.distinct → (v.2.2.map (fun b => b.bank)).Nodup

theorem anchorOf_admits (s : State) : (anchorOf s).Admits (clockBanks s) where
  bootCount := rfl
  dtb := le_refl _
  computing := fun _ hb hs => List.mem_map_of_mem (List.mem_filter.2 ⟨hb, hs⟩)
  distinct := id

variable {A : Anchor} {s : State}

@[simp] theorem admits_ite (c : Prop) [Decidable c] (v w : Word32 × Nat × List RimeBank) :
    A.Admits (if c then v else w) ↔ if c then A.Admits v else A.Admits w := by split <;> rfl

/-- A fold over a list keeps what each of its operations keeps. -/
theorem admits_foldl {α : Type} (f : State → α → State) (l : List α)
    (hf : ∀ t, ∀ a ∈ l, A.Admits (clockBanks t) → A.Admits (clockBanks (f t a))) (h : A.Admits (clockBanks s)) :
    A.Admits (clockBanks (l.foldl f s)) := by
  induction l generalizing s with
  | nil => exact h
  | cons a r ih =>
    exact ih (fun t x hx => hf t x (List.mem_cons_of_mem a hx)) (hf s a List.mem_cons_self h)

@[simp] theorem admits_foldl_of_forall {α : Type} (f : State → α → State) (l : List α)
    (hf : ∀ t a, A.Admits (clockBanks t) → A.Admits (clockBanks (f t a))) (h : A.Admits (clockBanks s)) :
    A.Admits (clockBanks (l.foldl f s)) := admits_foldl f l (fun t a _ => hf t a) h

/-! Time. -/

/-- A state whose clock alone moved, and not backward. -/
theorem Anchor.Admits.later {t : State} (h : A.Admits (clockBanks s)) (hb : t.time.bootCount = s.time.bootCount)
    (hd : s.time.dtb ≤ t.time.dtb) (hr : t.rime.banks = s.rime.banks) : A.Admits (clockBanks t) where
  bootCount := hb.trans h.bootCount
  dtb := h.dtb.trans hd
  computing := by simpa only [clockBanks, hr] using h.computing
  distinct := by simpa only [clockBanks, hr] using h.distinct

@[simp] theorem advanceTo_admits (n : Nat) (h : A.Admits (clockBanks s)) : A.Admits (clockBanks (advanceTo s n)) :=
  h.later rfl (le_max_left ..) rfl

/-- The advanced clock beside the records, which the advance leaves alone (advanceTo_rime), read as one state again. -/
@[simp] theorem advanceTo_clock_banks (s : State) (n : Nat) :
    ((advanceTo s n).time.bootCount, (advanceTo s n).time.dtb, s.rime.banks) = clockBanks (advanceTo s n) := rfl

/-- A tick takes the DTB by its step and the slew of that step, whose sum is never negative (R24, R25). -/
theorem idleTick_dtb_le (s : State) : s.time.dtb ≤ (idleTick s).time.dtb := by
  unfold idleTick
  dsimp only
  (repeat' split) <;> exact Nat.le_add_right _ _

theorem idleTick_bootCount (s : State) : (idleTick s).time.bootCount = s.time.bootCount := by
  unfold idleTick
  dsimp only
  (repeat' split) <;> rfl

theorem idleTick_banks (s : State) : (idleTick s).rime.banks = s.rime.banks := by
  unfold idleTick
  dsimp only
  (repeat' split) <;> rfl

@[simp] theorem idleTick_admits (h : A.Admits (clockBanks s)) : A.Admits (clockBanks (idleTick s)) :=
  h.later (idleTick_bootCount s) (idleTick_dtb_le s) (idleTick_banks s)

/-! Rime records. -/

/-- The record found for a bank is one of the list, or an idle one. -/
theorem Anchor.Admits.rimeBank (h :
    A.Admits (clockBanks s)) (bank : Nat) (hs : (rimeBank s bank).segment.isSome = true) :
    (rimeBank s bank).bank ∈ A.computing := by
  unfold Machine.rimeBank at hs ⊢
  cases hf : s.rime.banks.find? (fun b => b.bank == bank) with
  | none => simp [hf] at hs
  | some b =>
    rw [hf] at hs
    exact h.computing b (List.mem_of_find?_eq_some hf) hs

/-- A record put in place keeps the records distinct, and computes only where the anchor lets it. -/
theorem setRimeBank_admits (h :
    A.Admits (clockBanks s)) {b : RimeBank} (hb : b.segment.isSome = true → b.bank ∈ A.computing) :
    A.Admits (clockBanks (setRimeBank s b)) where
  bootCount := h.bootCount
  dtb := h.dtb
  computing := by
    intro x hx hs
    rcases List.mem_cons.1 ((setRimeBank_banks_perm s b).mem_iff.1 hx) with rfl | hx
    · exact hb hs
    · exact h.computing x (List.mem_filter.1 hx).1 hs
  distinct := by
    intro hd
    refine (((setRimeBank_banks_perm s b).map (fun x => x.bank)).nodup_iff).2 (List.nodup_cons.2 ⟨?_, ?_⟩)
    · simp
    · exact (h.distinct hd).sublist (List.filter_sublist.map _)

/-- A bank's record with other work on it, but the same segment, put in place. -/
theorem setRimeBank_same_segment_admits (h : A.Admits (clockBanks s)) {t : State} (ht :
    A.Admits (clockBanks t)) {bank : Nat}
    {b : RimeBank} (hs : b.segment = (rimeBank t bank).segment) (hn : b.bank = (rimeBank t bank).bank) :
    A.Admits (clockBanks (setRimeBank s b)) :=
  setRimeBank_admits h (by rw [hs, hn]; exact ht.rimeBank bank)

@[simp] theorem clearRime_admits (h : A.Admits (clockBanks s)) : A.Admits (clockBanks (clearRime s)) :=
  ⟨h.bootCount, h.dtb, fun _ hb => absurd hb List.not_mem_nil, fun _ => List.nodup_nil⟩

end Sys2Proof.Machine

/-! SUPPORT. The operations on rime units, requests, contexts and functions that move the clock or write rime records
keep what an anchor admits. -/

namespace Sys2Proof.Machine

open Sys2Proof

variable {A : Anchor} {s : State}

/-! Pegs (R28, R309). -/

@[simp] theorem pegTurn_admits (p port : Nat) (h : A.Admits (clockBanks s)) :
    A.Admits (clockBanks (pegTurn s p port)) := by
  unfold pegTurn
  dsimp only
  split <;> simp [h]

@[simp] theorem signalPeg_admits (port p : Nat) (h : A.Admits (clockBanks s)) :
    A.Admits (clockBanks (signalPeg s port p)) := by
  simp [signalPeg, h]

/-! Command words of a rime unit (R194, R198). -/

@[simp] theorem saveUnit_admits (bank : Nat) (h : A.Admits (clockBanks s)) :
    A.Admits (clockBanks (saveUnit s bank)) := by
  unfold saveUnit
  extract_lets b bs k poison s1 s2
  have h2 : A.Admits (clockBanks s2) := h.later rfl le_rfl rfl
  exact setRimeBank_same_segment_admits h2 h (bank := bank) rfl rfl

@[simp] theorem restoreUnit_admits (bank : Nat) (m : Media) (corrected : List Nat) (h : A.Admits (clockBanks s)) :
    A.Admits (clockBanks (restoreUnit s bank m corrected)) := by
  unfold restoreUnit
  extract_lets s1 b u
  have h1 : A.Admits (clockBanks s1) := by simpa [s1] using h
  (repeat' split) <;> exact setRimeBank_same_segment_admits h1 h1 (bank := bank) rfl rfl

@[simp] theorem runWord_admits (bank op : Nat) (w : BitVec 128) (m : Media) (corrected : List Nat) (h :
    A.Admits (clockBanks s)) :
    A.Admits (clockBanks (runWord s bank op w m corrected)) := by
  unfold runWord
  have kept {t : State} (ht : A.Admits (clockBanks t)) {v : RimeBank} (hs : v.segment = (rimeBank s bank).segment)
      (hn : v.bank = (rimeBank s bank).bank) : A.Admits (clockBanks (setRimeBank t v)) :=
    setRimeBank_same_segment_admits ht h (bank := bank) hs hn
  dsimp only
  split
  · exact h
  · split
    · exact kept h rfl rfl
    · split
      · exact kept h rfl rfl
      · split
        · exact kept (by simpa using h) rfl rfl
        · exact kept (by split <;> simpa using h) rfl rfl

/-! Requests (R196 to R206, R212, R213). -/

@[simp] theorem signalRequest_admits (r : RimeReq) (code : Nat) (h : A.Admits (clockBanks s)) :
    A.Admits (clockBanks (signalRequest s r code)) := by
  unfold signalRequest
  (repeat' split) <;> simp [h]

@[simp] theorem finishRequest_admits (r : RimeReq) (u : RimeUnit) (code : Nat) (h : A.Admits (clockBanks s)) :
    A.Admits (clockBanks (finishRequest s r u code)) := by
  simp [finishRequest, h]

@[simp] theorem redirectHome_admits (page bank to_ : Nat) (h : A.Admits (clockBanks s)) :
    A.Admits (clockBanks (redirectHome s page bank to_)) := by
  unfold redirectHome
  extract_lets mine b s1 moved
  have h1 : A.Admits (clockBanks s1) := by
    simp only [s1]
    split
    · exact setRimeBank_same_segment_admits h h (bank := bank) rfl rfl
    · exact h
  split
  · exact h1
  · exact setRimeBank_same_segment_admits h1 h1 (bank := to_) rfl rfl

@[simp] theorem moveFrame_admits (src dst : Nat) (left : FrameState) (h : A.Admits (clockBanks s)) :
    A.Admits (clockBanks (moveFrame s src dst left)) := by
  unfold moveFrame
  dsimp only
  split <;> simp [h]

@[simp] theorem vacate_admits (d : Nat) (left : FrameState) (h : A.Admits (clockBanks s)) :
    A.Admits (clockBanks (vacate s d left)) := by
  unfold vacate
  dsimp only
  (repeat' split) <;> simp [h]

@[simp] theorem holdFrame_admits (d : Nat) (h : A.Admits (clockBanks s)) : A.Admits (clockBanks (holdFrame s d)) := by
  unfold holdFrame
  dsimp only
  (repeat' split) <;> simp [h]

@[simp] theorem vacateLate_admits (h : A.Admits (clockBanks s)) : A.Admits (clockBanks (vacateLate s)) := by
  refine admits_foldl_of_forall _ _ (fun t d ht => holdFrame_admits d ht) ?_
  simpa using h

@[simp] theorem unparkBank_admits (bank : Nat) (p : RimeReq) (m : Media) (corrected : List Nat) (h :
    A.Admits (clockBanks s)) :
    A.Admits (clockBanks (unparkBank s bank p m corrected)) :=
  restoreUnit_admits bank m corrected (setRimeBank_same_segment_admits h h (bank := bank) rfl rfl)

theorem startRequest_admits {t : State} (ht : A.Admits (clockBanks t)) (bank : Nat) (r : RimeReq) (h :
    A.Admits (clockBanks s)) :
    A.Admits (clockBanks (startRequest s (rimeBank t bank) r)) :=
  setRimeBank_same_segment_admits h ht (bank := bank) rfl rfl

@[simp] theorem chooseRequest_admits (bank : Nat) (h : A.Admits (clockBanks s)) :
    A.Admits (clockBanks (chooseRequest s bank)) := by
  unfold chooseRequest
  dsimp only
  (repeat' split) <;> simp [h, startRequest_admits h]

@[simp] theorem preemptBank_admits (bank : Nat) (h : A.Admits (clockBanks s)) :
    A.Admits (clockBanks (preemptBank s bank)) := by
  unfold preemptBank
  dsimp only
  split
  · split
    · exact setRimeBank_same_segment_admits (saveUnit_admits bank h) (saveUnit_admits bank h) (bank := bank) rfl rfl
    · exact h
  · exact h

/-- Requests that are dropped can only end the segment of their bank. -/
theorem dropRequests_segment {b : RimeBank} {ctx : Nat} (hs : (dropRequests b ctx).segment.isSome = true) : b.segment.isSome = true := by
  unfold dropRequests at hs
  dsimp only at hs
  split at hs
  · cases hs
  · exact hs

@[simp] theorem abortRimeOf_admits (ctx : Nat) (h : A.Admits (clockBanks s)) :
    A.Admits (clockBanks (abortRimeOf s ctx)) := by
  refine admits_foldl _ _ (fun t b hb ht => ?_) h
  refine admits_foldl_of_forall _ _ (fun u e hu => finishRequest_admits e.1 e.2 6 hu) ?_
  exact setRimeBank_admits ht (fun hs => h.computing b hb (dropRequests_segment hs))

/-! Ends of contexts and functions (R243, R302 to R305). -/

@[simp] theorem tearDown_admits (ctx : Nat) (h : A.Admits (clockBanks s)) :
    A.Admits (clockBanks (tearDown s ctx)) := by
  simp [tearDown, h]

@[simp] theorem resetContext_admits (status : Option Nat) (ctx : Nat) (h : A.Admits (clockBanks s)) :
    A.Admits (clockBanks (resetContext status s ctx)) := by
  simp [resetContext, h]

@[simp] theorem endReclaimed_admits (ctx : Nat) (h : A.Admits (clockBanks s)) :
    A.Admits (clockBanks (endReclaimed s ctx)) := by
  unfold endReclaimed
  (repeat' split) <;> simp [h]

@[simp] theorem resetFunction_admits (status : Option Nat) (fn : Nat) (h : A.Admits (clockBanks s)) :
    A.Admits (clockBanks (resetFunction status s fn)) := by
  simp +contextual [resetFunction, h]

@[simp] theorem finishExpiry_admits (b : Nat) (h : A.Admits (clockBanks s)) :
    A.Admits (clockBanks (finishExpiry s b)) := by
  refine admits_foldl_of_forall _ _ (fun t c ht => endReclaimed_admits c.num ht) ?_
  dsimp only
  split <;> simpa using h

@[simp] theorem settleExpiry_admits (b : Nat) (h : A.Admits (clockBanks s)) :
    A.Admits (clockBanks (settleExpiry s b)) := by
  unfold settleExpiry
  split <;> simp [h]

@[simp] theorem faultContext_admits (ctx cause : Nat) (h : A.Admits (clockBanks s)) :
    A.Admits (clockBanks (faultContext s ctx cause)) := by
  unfold faultContext
  split <;> simp [h]

@[simp] theorem endRequest_admits (r : RimeReq) (u : RimeUnit) (code : Nat) (h : A.Admits (clockBanks s)) :
    A.Admits (clockBanks (endRequest s r u code)) := by
  have h1 : A.Admits (clockBanks (settleExpiry (vacateLate (finishRequest s r u code)) (bayOfCtx s r.ctx))) :=
    settleExpiry_admits _ (vacateLate_admits (finishRequest_admits r u code h))
  unfold endRequest
  dsimp only
  split
  · exact faultContext_admits _ _ h1
  · exact h1

end Sys2Proof.Machine

/-! SUPPORT. The operations that take another one as an argument, and those that cut, reset or power down, keep what
an anchor admits. -/

namespace Sys2Proof.Machine

open Sys2Proof

variable {A : Anchor} {s : State}

/-! Rows that serve a command, a write or a message only under a condition keep what their own part keeps. -/

@[simp] theorem withAdmin_admits {cid opcode : Nat} {k : State → Cmd → State}
    (hk : ∀ t c, A.Admits (clockBanks t) → A.Admits (clockBanks (k t c))) (h : A.Admits (clockBanks s)) :
    A.Admits (clockBanks (withAdmin s cid opcode k)) := by
  unfold withAdmin
  dsimp only
  (repeat' split) <;> simp [h, hk]

@[simp] theorem withIo_admits {q cid opcode : Nat} {k : State → Cmd → State}
    (hk : ∀ t c, A.Admits (clockBanks t) → A.Admits (clockBanks (k t c))) (h : A.Admits (clockBanks s)) :
    A.Admits (clockBanks (withIo s q cid opcode k)) := by
  unfold withIo
  (repeat' split) <;> simp [h, hk]

@[simp] theorem rowWrite_admits {by_ : Master} {i j : Nat} {act : State → State × Nat}
    (hact : ∀ t, A.Admits (clockBanks t) → A.Admits (clockBanks (act t).1)) (h : A.Admits (clockBanks s)) :
    A.Admits (clockBanks (rowWrite s by_ i j act)) := by
  unfold rowWrite
  dsimp only
  (repeat' split) <;> simp [h, hact]

@[simp] theorem rxWrite_admits {i : Nat} {act : State → State × Nat}
    (hact : ∀ t, A.Admits (clockBanks t) → A.Admits (clockBanks (act t).1)) (h : A.Admits (clockBanks s)) :
    A.Admits (clockBanks (rxWrite s i act)) := by
  unfold rxWrite
  dsimp only
  (repeat' split) <;> simp [h, hact]

@[simp] theorem spdmServe_admits {k : State → State} (hk : ∀ t, A.Admits (clockBanks t) → A.Admits (clockBanks (k t)))
    (h : A.Admits (clockBanks s)) : A.Admits (clockBanks (spdmServe s k)) := by
  unfold spdmServe
  split <;> simp [h, hk]

@[simp] theorem withinSession_admits {session set : Nat} {k : State → State}
    (hk : ∀ t, A.Admits (clockBanks t) → A.Admits (clockBanks (k t))) (h : A.Admits (clockBanks s)) :
    A.Admits (clockBanks (withinSession s session set k)) := by
  refine spdmServe_admits (fun t ht => ?_) h
  split <;> simp [ht, hk]

@[simp] theorem mbServe_admits {opcode : Nat} {k : State → State}
    (hk : ∀ t, A.Admits (clockBanks t) → A.Admits (clockBanks (k t))) (h : A.Admits (clockBanks s)) :
    A.Admits (clockBanks (mbServe s opcode k)) := by
  unfold mbServe
  (repeat' split) <;> simp [h, hk]

@[simp] theorem doorbell_admits {fn q v depth : Nat} {act : State → State}
    (hact : ∀ t, A.Admits (clockBanks t) → A.Admits (clockBanks (act t))) (h : A.Admits (clockBanks s)) :
    A.Admits (clockBanks (doorbell s fn q v depth act)) := by
  unfold doorbell
  (repeat' split) <;> simp [h, hact]

@[simp] theorem onTap_admits {k : State → State} (hk : ∀ t, A.Admits (clockBanks t) → A.Admits (clockBanks (k t)))
    (h : A.Admits (clockBanks s)) : A.Admits (clockBanks (onTap s k)) := by
  unfold onTap
  split <;> simp [h, hk]

@[simp] theorem batchRow_admits (opcode : Nat) (kind : PlanKind) (q cid : Nat) (desc : BitVec 1024) (es : List Bytes)
    (h : A.Admits (clockBanks s)) : A.Admits (clockBanks (batchRow opcode kind q cid desc es s)) := by
  refine withIo_admits (fun t c ht => ?_) h
  dsimp only
  (repeat' split) <;> simp [ht]

@[simp] theorem firnMerge_admits (sweep : Bool) (cid : Nat) (h : A.Admits (clockBanks s)) :
    A.Admits (clockBanks (firnMerge sweep cid s)) := by
  refine withAdmin_admits (fun t c ht => ?_) h
  dsimp only
  (repeat' split) <;> simp [ht]

/-! Cuts (R173 to R187, R304). -/

@[simp] theorem cutWrite_admits (x : Query) (as_ : List Nat) (ws : List (Place × Bytes)) (count : PlanCounters → PlanCounters)
    (h : A.Admits (clockBanks s)) : A.Admits (clockBanks (cutWrite s x as_ ws count)) := by
  unfold cutWrite
  split <;> simp [h]

@[simp] theorem encodeOp_admits (x : Query) (as_ : List Nat) (mode : EncMode) (fmt kind g : Nat) (xs : List Word32)
    (dst scaleDst : Place) (h : A.Admits (clockBanks s)) :
    A.Admits (clockBanks (encodeOp s x as_ mode fmt kind g xs dst scaleDst)) := by
  unfold encodeOp
  split <;> simp [h]

@[simp] theorem convertOp_admits (x : Query) (as_ : List Nat) (fmt : Nat) (dst : Place) (v : Num) (h :
    A.Admits (clockBanks s)) :
    A.Admits (clockBanks (convertOp s x as_ fmt dst v)) := by
  simp [convertOp, h]

@[simp] theorem optimizeOp_admits (x : Query) (as_ : List Nat) (o : Optimizer) (step : Nat) (skip : Bool) (params : List Word32)
    (es : List (Word32 × Word32 × Word32 × Word32)) (mdst vdst wdst : Place) (h : A.Admits (clockBanks s)) :
    A.Admits (clockBanks (optimizeOp s x as_ o step skip params es mdst vdst wdst)) := by
  unfold optimizeOp
  (repeat' split) <;> simp [h]

@[simp] theorem loadOp_admits (x : Query) (p : Plan) (as_ : List Nat) (obj r g : Nat) (dst scaleDst : Place)
    (h : A.Admits (clockBanks s)) : A.Admits (clockBanks (loadOp s x p as_ obj r g dst scaleDst)) := by
  unfold loadOp
  dsimp only
  (repeat' split) <;> simp [h]

@[simp] theorem runOp_admits (x : Query) (p : Plan) (as_ : List Nat) (op : CutOp) (h : A.Admits (clockBanks s)) :
    A.Admits (clockBanks (runOp s x p as_ op)) := by
  unfold runOp
  dsimp only
  (repeat' split) <;> simp [h]

@[simp] theorem cutOp_admits (slot : Nat) (as_ : List Nat) (op : CutOp) (h : A.Admits (clockBanks s)) :
    A.Admits (clockBanks (cutOp slot as_ s op)) := by
  unfold cutOp
  (repeat' split) <;> simp [h]

@[simp] theorem endCut_admits (x : Query) (p : Plan) (d : Cut) (cut : Nat) (work : List CutOp) (h :
    A.Admits (clockBanks s)) :
    A.Admits (clockBanks (endCut s x p d cut work)) := by
  unfold endCut
  extract_lets s1 s2 s3 s4 s5
  have h1 : A.Admits (clockBanks s1) := admits_foldl_of_forall _ _ (fun t op ht => cutOp_admits _ _ op ht) h
  split
  · exact h1
  · have h5 : A.Admits (clockBanks s5) := by
      simp only [s5, s4, s3, s2]
      split <;> simp [h1]
    clear_value s5
    dsimp only
    (repeat' split) <;> simp [h5]

@[simp] theorem selectRow_admits (cell : Nat) (ok : Bool) (srcs dsts : List (Loc × Nat)) (nans : Nat) (f : State → State)
    (hf : ∀ t, A.Admits (clockBanks t) → A.Admits (clockBanks (f t))) (h : A.Admits (clockBanks s)) :
    A.Admits (clockBanks (selectRow s cell ok srcs dsts nans f)) := by
  unfold selectRow
  (repeat' split) <;> simp [h, hf]

/-! Peg operations (R309 to R311). -/

@[simp] theorem pegHost_admits (op q cid : Nat) (h : A.Admits (clockBanks s)) :
    A.Admits (clockBanks (pegHost op q cid s)) := by
  refine withIo_admits (fun t c ht => ?_) h
  dsimp only
  (repeat' split) <;> simp [ht]

@[simp] theorem pegThread_admits (op ctx thr p : Nat) (v : Word64) (h : A.Admits (clockBanks s)) :
    A.Admits (clockBanks (pegThread op ctx thr p v s)) := by
  unfold pegThread
  dsimp only
  (repeat' split) <;> simp [h]

@[simp] theorem pegBy_admits (op : Nat) (i : PegIssuer) (h : A.Admits (clockBanks s)) :
    A.Admits (clockBanks (pegBy op i s)) := by
  unfold pegBy
  split <;> simp [h]

/-! Resets, fatal errors and power (R243, R376 to R379, R408 to R413). -/

@[simp] theorem resetFunctions_admits (h : A.Admits (clockBanks s)) : A.Admits (clockBanks (resetFunctions s)) := by
  simp +contextual [resetFunctions, runFree, h]

@[simp] theorem linkLost_admits (h : A.Admits (clockBanks s)) : A.Admits (clockBanks (linkLost s)) := by
  simp [linkLost, h]

@[simp] theorem haltWork_admits (h : A.Admits (clockBanks s)) : A.Admits (clockBanks (haltWork s)) := by
  simp +contextual [haltWork, h]

@[simp] theorem fatalEffect_admits (cause unit : Nat) (inCxl : Bool) (h : A.Admits (clockBanks s)) :
    A.Admits (clockBanks (fatalEffect s cause unit inCxl)) := by
  unfold fatalEffect
  dsimp only
  (repeat' split) <;> simp [h]

@[simp] theorem timerExpires_admits (n us depth : Nat) (h : A.Admits (clockBanks s)) :
    A.Admits (clockBanks (timerExpires s n us depth)) := by
  unfold timerExpires
  dsimp only
  (repeat' split) <;> simp [h]

@[simp] theorem takeWake_admits (n : Nat) (h : A.Admits (clockBanks s)) : A.Admits (clockBanks (takeWake s n)) := by
  unfold takeWake
  dsimp only
  (repeat' split) <;> simp [h]

@[simp] theorem moduleReset_admits (h : A.Admits (clockBanks s)) : A.Admits (clockBanks (moduleReset s)) := by
  simp [moduleReset, h]

@[simp] theorem loseDram_admits (h : A.Admits (clockBanks s)) : A.Admits (clockBanks (loseDram s)) := by
  unfold loseDram
  dsimp only
  refine vacateLate_admits ?_
  simp [h]

@[simp] theorem railsOff_admits (h : A.Admits (clockBanks s)) : A.Admits (clockBanks (railsOff s)) := by
  simp [railsOff, loseDram_admits (clearRime_admits (linkLost_admits h))]

@[simp] theorem finishPowerDown_admits (h : A.Admits (clockBanks s)) : A.Admits (clockBanks (finishPowerDown s)) := by
  simp [finishPowerDown, h]

@[simp] theorem idle_admits (h : A.Admits (clockBanks s)) : A.Admits (clockBanks (idle s)) := by
  have h1 : A.Admits (clockBanks (finishStage (tickDomains (idleTick s)))) := by simp [h]
  unfold idle
  dsimp only
  split
  · exact finishPowerDown_admits h1
  · exact h1

end Sys2Proof.Machine

/-! SUPPORT. Every row of the command table but RIME_SEGMENT_START and AUX_POWER_UP leads to a state that an anchor of
the state before admits: the row's own case distinctions, then the lemmas of its operations. -/

namespace Sys2Proof.Machine

open Sys2Proof

/-- An outcome whose next state the anchor admits. -/
def Anchor.Leads (A : Anchor) : Host.Outcome State Fault Refusal → Prop
  | .next t => A.Admits (clockBanks t)
  | .fault _ => True
  | .refused _ => True

variable {A : Anchor} {s : State}

@[simp] theorem leads_next (t : State) : A.Leads (.next t) ↔ A.Admits (clockBanks t) := Iff.rfl

theorem execSearch_leads {q cid : Nat} {desc : BitVec 1024} {es : List Bytes} (h : A.Admits (clockBanks s)) :
    A.Leads (execSearch q cid desc es s) := by
  simp [execSearch, h]

theorem execEncodeSearch_leads {q cid : Nat} {desc : BitVec 1024} {es : List Bytes} (h : A.Admits (clockBanks s)) :
    A.Leads (execEncodeSearch q cid desc es s) := by
  simp [execEncodeSearch, h]

theorem execEncode_leads {q cid : Nat} {desc : BitVec 1024} {es : List Bytes} (h : A.Admits (clockBanks s)) :
    A.Leads (execEncode q cid desc es s) := by
  simp [execEncode, h]

theorem execRerank_leads {q cid : Nat} {desc : BitVec 1024} {es : List Bytes} (h : A.Admits (clockBanks s)) :
    A.Leads (execRerank q cid desc es s) := by
  simp [execRerank, h]

theorem execPlanRun_leads {q cid : Nat} {desc : BitVec 1024} (h : A.Admits (clockBanks s)) :
    A.Leads (execPlanRun q cid desc s) := by
  refine withIo_admits (fun t c ht => ?_) h
  dsimp only
  (repeat' split) <;> simp [ht]

theorem execBayBind_leads {cid : Nat} {hdr : BitVec 1024} {regs : List (BitVec 128)} (h : A.Admits (clockBanks s)) :
    A.Leads (execBayBind cid hdr regs s) := by
  simp [execBayBind, h]

theorem execResourceDrained_leads {bay : Nat} {r : Resource} (h : A.Admits (clockBanks s)) :
    A.Leads (execResourceDrained bay r s) := by
  unfold execResourceDrained
  (repeat' split) <;> simp [h]

theorem execBayReclaim_leads {cid : Nat} (h : A.Admits (clockBanks s)) : A.Leads (execBayReclaim cid s) := by
  refine withAdmin_admits (fun t c ht => ?_) h
  dsimp only
  (repeat' split) <;> simp [ht]

theorem execReclaimGraceExpiry_leads {bay : Nat} (h : A.Admits (clockBanks s)) :
    A.Leads (execReclaimGraceExpiry bay s) := by
  unfold execReclaimGraceExpiry
  dsimp only
  split <;> simp [h]

theorem execReclaimComplete_leads {bay : Nat} (h : A.Admits (clockBanks s)) :
    A.Leads (execReclaimComplete bay s) := by
  unfold execReclaimComplete
  dsimp only
  split <;> simp [h]

theorem execFrameZeroed_leads {frame : Nat} (h : A.Admits (clockBanks s)) : A.Leads (execFrameZeroed frame s) := by
  simp [execFrameZeroed, h]

theorem execContextFault_leads {ctx cause : Nat} (h : A.Admits (clockBanks s)) :
    A.Leads (execContextFault ctx cause s) := by
  simp [execContextFault, h]

theorem execBePromotion_leads {bay ctx : Nat} (h : A.Admits (clockBanks s)) :
    A.Leads (execBePromotion bay ctx s) := by
  unfold execBePromotion
  split <;> simp [h]

theorem execPromotionQuantumEnd_leads {bay : Nat} (h : A.Admits (clockBanks s)) :
    A.Leads (execPromotionQuantumEnd bay s) := by
  unfold execPromotionQuantumEnd
  split <;> simp [h]

theorem execNsCreate_leads {cid : Nat} (h : A.Admits (clockBanks s)) : A.Leads (execNsCreate cid s) := by
  simp [execNsCreate, h]

theorem execNsDelete_leads {cid : Nat} (h : A.Admits (clockBanks s)) : A.Leads (execNsDelete cid s) := by
  refine withAdmin_admits (fun t c ht => ?_) h
  dsimp only
  split <;> simp [ht]

theorem execNsDeleteRelease_leads {index : Nat} (h : A.Admits (clockBanks s)) :
    A.Leads (execNsDeleteRelease index s) := by
  unfold execNsDeleteRelease
  (repeat' split) <;> simp [h]

theorem execInsert_leads {q cid : Nat} {block : Bytes} (h : A.Admits (clockBanks s)) :
    A.Leads (execInsert q cid block s) := by
  refine withIo_admits (fun t c ht => ?_) h
  dsimp only
  (repeat' split) <;> simp [ht]

theorem execDelete_leads {q cid : Nat} {ids : List Word64} (h : A.Admits (clockBanks s)) :
    A.Leads (execDelete q cid ids s) := by
  refine withIo_admits (fun t c ht => ?_) h
  dsimp only
  (repeat' split) <;> simp [ht]

theorem execJournalWriteDone_leads {q cid : Nat} (h : A.Admits (clockBanks s)) :
    A.Leads (execJournalWriteDone q cid s) := by
  unfold execJournalWriteDone
  (repeat' split) <;> simp [h]

theorem execFirnMergeDrift_leads {cid : Nat} (h : A.Admits (clockBanks s)) : A.Leads (execFirnMergeDrift cid s) := by
  simp [execFirnMergeDrift, h]

theorem execFirnMergeSweep_leads {cid : Nat} (h : A.Admits (clockBanks s)) : A.Leads (execFirnMergeSweep cid s) := by
  simp [execFirnMergeSweep, h]

theorem execFirnRoundStart_leads {index : Nat} (h : A.Admits (clockBanks s)) :
    A.Leads (execFirnRoundStart index s) := by
  unfold execFirnRoundStart
  (repeat' split) <;> simp [h]

theorem execIndexVersionRaise_leads {index : Nat} (h : A.Admits (clockBanks s)) :
    A.Leads (execIndexVersionRaise index s) := by
  unfold execIndexVersionRaise
  (repeat' split) <;> simp [h]

theorem execFirnRoundCutoff_leads {index : Nat} {cause : CutoffCause} (h : A.Admits (clockBanks s)) :
    A.Leads (execFirnRoundCutoff index cause s) := by
  unfold execFirnRoundCutoff
  (repeat' split) <;> simp [h]

theorem execVersionRelease_leads {index version : Nat} (h : A.Admits (clockBanks s)) :
    A.Leads (execVersionRelease index version s) := by
  unfold execVersionRelease
  (repeat' split) <;> simp [h]

theorem execIndexReplayDone_leads {index : Nat} (h : A.Admits (clockBanks s)) :
    A.Leads (execIndexReplayDone index s) := by
  unfold execIndexReplayDone
  split <;> simp [h]

theorem execPlanLoad_leads {cid : Nat} {image : ImageRead} (h : A.Admits (clockBanks s)) :
    A.Leads (execPlanLoad cid image s) := by
  simp [execPlanLoad, h]

theorem execPlanUnload_leads {cid : Nat} (h : A.Admits (clockBanks s)) : A.Leads (execPlanUnload cid s) := by
  refine withAdmin_admits (fun t c ht => ?_) h
  dsimp only
  split <;> simp [ht]

theorem execPlanUnloadRelease_leads {handle : Nat} (h : A.Admits (clockBanks s)) :
    A.Leads (execPlanUnloadRelease handle s) := by
  unfold execPlanUnloadRelease
  (repeat' split) <;> simp [h]

theorem execLogGet_leads {cid : Nat} (h : A.Admits (clockBanks s)) : A.Leads (execLogGet cid s) := by
  simp [execLogGet, h]

theorem execQueryWorkStart_leads {slot : Nat} (h : A.Admits (clockBanks s)) :
    A.Leads (execQueryWorkStart slot s) := by
  unfold execQueryWorkStart
  dsimp only
  (repeat' split) <;> simp [h]

theorem execScribeReadComplete_leads {slot pair : Nat} {m : UnitRead} (h : A.Admits (clockBanks s)) :
    A.Leads (execScribeReadComplete slot pair m s) := by
  unfold execScribeReadComplete
  (repeat' split) <;> simp [h]

theorem execHopComplete_leads {slot : Nat} (h : A.Admits (clockBanks s)) : A.Leads (execHopComplete slot s) := by
  unfold execHopComplete
  (repeat' split) <;> simp [h]

theorem execDramRecordReadDone_leads {slot localId : Nat} {m : DramRead} (h : A.Admits (clockBanks s)) :
    A.Leads (execDramRecordReadDone slot localId m s) := by
  unfold execDramRecordReadDone
  (repeat' split) <;> simp [h]

theorem execDriftBlockScanned_leads {slot block cell : Nat} (h : A.Admits (clockBanks s)) :
    A.Leads (execDriftBlockScanned slot block cell s) := by
  unfold execDriftBlockScanned
  (repeat' split) <;> simp [h]

theorem execRerankSlotArrival_leads {slot localId : Nat} {m : DramRead} (h : A.Admits (clockBanks s)) :
    A.Leads (execRerankSlotArrival slot localId m s) := by
  unfold execRerankSlotArrival
  (repeat' split) <;> simp [h]

theorem execBraceRebuildDone_leads {slot pair : Nat} {ok : Bool} (h : A.Admits (clockBanks s)) :
    A.Leads (execBraceRebuildDone slot pair ok s) := by
  unfold execBraceRebuildDone
  (repeat' split) <;> simp [h]

theorem execRerankDone_leads {slot : Nat} (h : A.Admits (clockBanks s)) : A.Leads (execRerankDone slot s) := by
  unfold execRerankDone
  (repeat' split) <;> simp [h]

theorem execGuardTime_leads {slot : Nat} (h : A.Admits (clockBanks s)) : A.Leads (execGuardTime slot s) := by
  unfold execGuardTime
  dsimp only
  (repeat' split) <;> simp [h]

theorem execBaySliceExpiry_leads {bay : Nat} (h : A.Admits (clockBanks s)) : A.Leads (execBaySliceExpiry bay s) := by
  unfold execBaySliceExpiry
  dsimp only
  (repeat' split) <;> simp [h]

theorem execCutStart_leads {slot cut : Nat} (h : A.Admits (clockBanks s)) : A.Leads (execCutStart slot cut s) := by
  unfold execCutStart
  dsimp only
  (repeat' split) <;> simp [h]

theorem execCutEnd_leads {slot cut : Nat} {work : List CutOp} (h : A.Admits (clockBanks s)) :
    A.Leads (execCutEnd slot cut work s) := by
  unfold execCutEnd
  (repeat' split) <;> simp [h]

theorem execWeightArrival_leads {handle obj : Nat} {m : Media} (h : A.Admits (clockBanks s)) :
    A.Leads (execWeightArrival handle obj m s) := by
  unfold execWeightArrival
  (repeat' split) <;> simp [h]

theorem execPageFault_leads {bay addr : Nat} {write lc : Bool} (h : A.Admits (clockBanks s)) :
    A.Leads (execPageFault bay addr write lc s) := by
  unfold execPageFault
  dsimp only
  split <;> simp [h]

theorem execFillSectorArrival_leads {page sector : Nat} {m : Media} {rebuilt : Bool} (h : A.Admits (clockBanks s)) :
    A.Leads (execFillSectorArrival page sector m rebuilt s) := by
  unfold execFillSectorArrival
  split <;> simp [h]

theorem execCleanerWriteback_leads {bay : Nat} (h : A.Admits (clockBanks s)) :
    A.Leads (execCleanerWriteback bay s) := by
  simp [execCleanerWriteback, h]

theorem execWritebackDone_leads {page group home : Nat} (h : A.Admits (clockBanks s)) :
    A.Leads (execWritebackDone page group home s) := by
  unfold execWritebackDone
  split <;> simp [h]

theorem execReservedEventPlace_leads {ev : Reserved} {window : Nat} (h : A.Admits (clockBanks s)) :
    A.Leads (execReservedEventPlace ev window s) := by
  simp [execReservedEventPlace, h]

theorem execReservedEventForced_leads {ev : Reserved} (h : A.Admits (clockBanks s)) :
    A.Leads (execReservedEventForced ev s) := by
  unfold execReservedEventForced
  split <;> simp [h]

theorem execRetrainingPause_leads {channel : Nat} (h : A.Admits (clockBanks s)) :
    A.Leads (execRetrainingPause channel s) := by
  unfold execRetrainingPause
  split <;> simp [h]

theorem execFlashPePieceEnd_leads {channel die : Nat} (h : A.Admits (clockBanks s)) :
    A.Leads (execFlashPePieceEnd channel die s) := by
  unfold execFlashPePieceEnd
  split <;> simp [h]

theorem execEvacuationStart_leads {channel : Nat} {kind : DepKind} (h : A.Admits (clockBanks s)) :
    A.Leads (execEvacuationStart channel kind s) := by
  simp [execEvacuationStart, h]

theorem execPieceRelocated_leads {src dst : Nat} (h : A.Admits (clockBanks s)) :
    A.Leads (execPieceRelocated src dst s) := by
  unfold execPieceRelocated
  split <;> simp [h]

theorem execEvacuationCopyWindow_leads {window : CopyWindow} (h : A.Admits (clockBanks s)) :
    A.Leads (execEvacuationCopyWindow window s) := by
  unfold execEvacuationCopyWindow
  split <;> simp [h]

theorem execEvacuationCopyEnd_leads (h : A.Admits (clockBanks s)) : A.Leads (execEvacuationCopyEnd s) := by
  unfold execEvacuationCopyEnd
  dsimp only
  (repeat' split) <;> simp [h]

theorem execReturnCopyEnd_leads (h : A.Admits (clockBanks s)) : A.Leads (execReturnCopyEnd s) := by
  unfold execReturnCopyEnd
  split <;> simp [h]

theorem execReplenishment_leads {entry : Nat} (h : A.Admits (clockBanks s)) :
    A.Leads (execReplenishment entry s) := by
  have vacates {t : State} (l : List Nat) (ht : A.Admits (clockBanks t)) :
      A.Admits (clockBanks (l.foldl (fun st x => vacate st x .spare) t)) :=
    admits_foldl_of_forall _ _ (fun u x hu => vacate_admits x .spare hu) ht
  unfold execReplenishment
  dsimp only
  split
  · exact h
  · split
    · exact h
    · simp [vacates, h]

theorem execWeightRebuildDone_leads {addr : Nat} {ok : Bool} (h : A.Admits (clockBanks s)) :
    A.Leads (execWeightRebuildDone addr ok s) := by
  unfold execWeightRebuildDone
  (repeat' split) <;> simp [h]

theorem execPtmRequest_leads (h : A.Admits (clockBanks s)) : A.Leads (execPtmRequest s) := by simp [execPtmRequest, h]

theorem disciplineTo_clock (t : TimeState) (off : Int) :
    (disciplineTo t off).bootCount = t.bootCount ∧ (disciplineTo t off).dtb = t.dtb := by
  unfold disciplineTo
  (repeat' split) <;> exact ⟨rfl, rfl⟩

theorem execPtmExchange_leads {hostTime : Nat} (h : A.Admits (clockBanks s)) :
    A.Leads (execPtmExchange hostTime s) := by
  have hd := disciplineTo_clock s.time ((hostTime : Int) - s.time.dtb)
  unfold execPtmExchange
  dsimp only
  split
  · exact h.later hd.1 hd.2.ge rfl
  · exact h

theorem execPtmTimeout_leads (h : A.Admits (clockBanks s)) : A.Leads (execPtmTimeout s) := by
  unfold execPtmTimeout
  split
  · exact h.later rfl (le_max_left ..) rfl
  · exact h

theorem execDtbForwardStep_leads (h : A.Admits (clockBanks s)) : A.Leads (execDtbForwardStep s) := by
  unfold execDtbForwardStep
  split
  · split
    · exact h.later rfl (Nat.le_add_right ..) rfl
    · exact h
  · exact h

theorem execDtbStepAbandon_leads (h : A.Admits (clockBanks s)) : A.Leads (execDtbStepAbandon s) := by
  unfold execDtbStepAbandon
  split
  · split
    · exact h.later rfl (Nat.le_add_right ..) rfl
    · exact h.later rfl (le_max_left ..) rfl
  · exact h

theorem execPtmEnableWrite_leads {on : Bool} (h : A.Admits (clockBanks s)) : A.Leads (execPtmEnableWrite on s) := by
  unfold execPtmEnableWrite
  (repeat' split) <;> exact h

theorem execDryFitComplete_leads (h : A.Admits (clockBanks s)) : A.Leads (execDryFitComplete s) := by
  simp [execDryFitComplete, h]

theorem execRaiseRefit_leads (h : A.Admits (clockBanks s)) : A.Leads (execRaiseRefit s) := by
  unfold execRaiseRefit
  (repeat' split) <;> simp [h]

theorem execDictRaise_leads (h : A.Admits (clockBanks s)) : A.Leads (execDictRaise s) := by
  unfold execDictRaise
  dsimp only
  (repeat' split) <;> simp [h]

theorem execRaiseExpiry_leads (h : A.Admits (clockBanks s)) : A.Leads (execRaiseExpiry s) := by
  unfold execRaiseExpiry
  split <;> simp [h]

theorem execLockLapse_leads (h : A.Admits (clockBanks s)) : A.Leads (execLockLapse s) := by simp [execLockLapse, h]

theorem execStageLockTake_leads {by_ : Master} (h : A.Admits (clockBanks s)) : A.Leads (execStageLockTake by_ s) := by
  simp [execStageLockTake, h]

theorem execStageLockRelease_leads {by_ : Master} (h : A.Admits (clockBanks s)) :
    A.Leads (execStageLockRelease by_ s) := by
  simp [execStageLockRelease, h]

theorem execStageDiscard_leads {by_ : Master} (h : A.Admits (clockBanks s)) : A.Leads (execStageDiscard by_ s) := by
  simp [execStageDiscard, h]

theorem execDryFit_leads {by_ : Master} (h : A.Admits (clockBanks s)) : A.Leads (execDryFit by_ s) := by
  simp [execDryFit, h]

theorem execRaiseImmediate_leads {by_ : Master} (h : A.Admits (clockBanks s)) :
    A.Leads (execRaiseImmediate by_ s) := by
  simp [execRaiseImmediate, h]

theorem execRaiseAtTime_leads {by_ : Master} {t : Word64} (h : A.Admits (clockBanks s)) :
    A.Leads (execRaiseAtTime by_ t s) := by
  simp [execRaiseAtTime, h]

theorem execRaiseAtIdle_leads {by_ : Master} {limit : Word64} (h : A.Admits (clockBanks s)) :
    A.Leads (execRaiseAtIdle by_ limit s) := by
  simp [execRaiseAtIdle, h]

theorem execRaiseCancel_leads {by_ : Master} (h : A.Admits (clockBanks s)) : A.Leads (execRaiseCancel by_ s) := by
  simp [execRaiseCancel, h]

theorem execFlashPeFail_leads {channel die block : Nat} (h : A.Admits (clockBanks s)) :
    A.Leads (execFlashPeFail channel die block s) := by
  simp [execFlashPeFail, h]

theorem execFlashPatrol_leads {channel die block retries : Nat} {bitsHigh : Bool} (h : A.Admits (clockBanks s)) :
    A.Leads (execFlashPatrol channel die block retries bitsHigh s) := by
  simp [execFlashPatrol, h]

theorem execMediaUnitRebuild_leads {channel die unit : Nat} {ok : Bool} (h : A.Admits (clockBanks s)) :
    A.Leads (execMediaUnitRebuild channel die unit ok s) := by
  unfold execMediaUnitRebuild
  (repeat' split) <;> simp [h]

theorem execIndexStructureRestored_leads {index : Nat} {st : IndexStruct} (h : A.Admits (clockBanks s)) :
    A.Leads (execIndexStructureRestored index st s) := by
  unfold execIndexStructureRestored
  split <;> simp [h]

theorem execDramScrubPass_leads {set : Nat} {corrected : List (Nat × Nat)} (h : A.Admits (clockBanks s)) :
    A.Leads (execDramScrubPass set corrected s) := by
  simp [execDramScrubPass, h]

theorem execDramRowFailing_leads {bank row : Nat} {uncorrectable : Bool} (h : A.Admits (clockBanks s)) :
    A.Leads (execDramRowFailing bank row uncorrectable s) := by
  have holds {t : State} (l : List Nat) (ht : A.Admits (clockBanks t)) : A.Admits (clockBanks (l.foldl holdFrame t)) :=
    admits_foldl_of_forall _ _ (fun u d hu => holdFrame_admits d hu) ht
  unfold execDramRowFailing
  dsimp only
  (repeat' split) <;> simp [holds, h]

theorem execFullRetrainingDone_leads {channel : Nat} (h : A.Admits (clockBanks s)) :
    A.Leads (execFullRetrainingDone channel s) := by
  unfold execFullRetrainingDone
  split <;> simp [h]

theorem execMonitorSample_leads {kind unit : Nat} {v0 v1 v2 v3 limit : Word32} (h : A.Admits (clockBanks s)) :
    A.Leads (execMonitorSample kind unit v0 v1 v2 v3 limit s) := by
  simp [execMonitorSample, h]

theorem execMarginPlanBuild_leads {trigger : Nat} {m : MarginItems} (h : A.Admits (clockBanks s)) :
    A.Leads (execMarginPlanBuild trigger m s) := by
  unfold execMarginPlanBuild
  dsimp only
  split
  · exact h
  · rw [leads_next, clockBanks_health, logError_clockBanks, logMoraine_clockBanks, bumpFree_clockBanks,
      clockBanks_foldl _ _ exhaustArray_clockBanks]
    split
    · rw [clockBanks_health]
      simp [h]
    · simp [h]

theorem execMarginPlanRaise_leads (h : A.Admits (clockBanks s)) : A.Leads (execMarginPlanRaise s) := by
  unfold execMarginPlanRaise
  split <;> simp [h]

theorem execLinkDown_leads (h : A.Admits (clockBanks s)) : A.Leads (execLinkDown s) := by simp [execLinkDown, h]

theorem execVfFlr_leads {fn : Nat} (h : A.Admits (clockBanks s)) : A.Leads (execVfFlr fn s) := by simp [execVfFlr, h]

theorem execPfFlr_leads (h : A.Admits (clockBanks s)) : A.Leads (execPfFlr s) := by simp [execPfFlr, h]

theorem execHotReset_leads (h : A.Admits (clockBanks s)) : A.Leads (execHotReset s) := by simp [execHotReset, h]

theorem execVfEnableClear_leads (h : A.Admits (clockBanks s)) : A.Leads (execVfEnableClear s) := by
  simp [execVfEnableClear, h]

theorem execVfEnableSet_leads (h : A.Admits (clockBanks s)) : A.Leads (execVfEnableSet s) := by
  simp [execVfEnableSet, h]

theorem execLinkTrained_leads {cxlMode : Bool} {width rate : Nat} {flit256 : Bool} (h : A.Admits (clockBanks s)) :
    A.Leads (execLinkTrained cxlMode width rate flit256 s) := by
  simp [execLinkTrained, h]

theorem execLinkLoopbackEntry_leads {rate : Nat} (h : A.Admits (clockBanks s)) :
    A.Leads (execLinkLoopbackEntry rate s) := by
  simp [execLinkLoopbackEntry, h]

theorem execCxlCacheEnable_leads {on : Bool} (h : A.Admits (clockBanks s)) : A.Leads (execCxlCacheEnable on s) := by
  simp [execCxlCacheEnable, h]

theorem execCxlCacheSnoop_leads {line : Nat} (h : A.Admits (clockBanks s)) : A.Leads (execCxlCacheSnoop line s) := h

theorem execCxlMemEnable_leads {on : Bool} (h : A.Admits (clockBanks s)) : A.Leads (execCxlMemEnable on s) := by
  simp [execCxlMemEnable, h]

theorem execHdmDecoderCommit_leads {n base size skip : Nat} (h : A.Admits (clockBanks s)) :
    A.Leads (execHdmDecoderCommit n base size skip s) := by
  unfold execHdmDecoderCommit
  split <;> simp [h]

theorem execCxlMemRead_leads {r : HostRead} (h : A.Admits (clockBanks s)) : A.Leads (execCxlMemRead r s) := by
  unfold execCxlMemRead
  dsimp only
  (repeat' split) <;> simp [h]

theorem execCxlMemWrite_leads {hpa : Nat} {data : Bytes} (h : A.Admits (clockBanks s)) :
    A.Leads (execCxlMemWrite hpa data s) := by
  unfold execCxlMemWrite
  dsimp only
  (repeat' split) <;> simp [h]

theorem execBisnpinv_leads {line : Nat} (h : A.Admits (clockBanks s)) : A.Leads (execBisnpinv line s) := by
  simp [execBisnpinv, h]

theorem execCdatTableAccess_leads {tableType entry : Nat} (h : A.Admits (clockBanks s)) :
    A.Leads (execCdatTableAccess tableType entry s) := by
  unfold execCdatTableAccess
  split <;> simp [h]

theorem execDoeDiscovery_leads {index : Nat} (h : A.Admits (clockBanks s)) : A.Leads (execDoeDiscovery index s) := by
  simp [execDoeDiscovery, h]

theorem execIdeIntegrityFail_leads {stream : Nat} (h : A.Admits (clockBanks s)) :
    A.Leads (execIdeIntegrityFail stream s) := by
  simp [execIdeIntegrityFail, h]

theorem execFatalError_leads {cause unit : Nat} {inCxl : Bool} (h : A.Admits (clockBanks s)) :
    A.Leads (execFatalError cause unit inCxl s) := by
  simp [execFatalError, h]

theorem execDumpWritten_leads (h : A.Admits (clockBanks s)) : A.Leads (execDumpWritten s) := by
  simp [execDumpWritten, h]

theorem execMgmtCodeCheck_leads {digest : Nat} (h : A.Admits (clockBanks s)) :
    A.Leads (execMgmtCodeCheck digest s) := by
  unfold execMgmtCodeCheck
  split <;> simp [h]

theorem execMgmtRestart_leads (h : A.Admits (clockBanks s)) : A.Leads (execMgmtRestart s) := by
  simp [execMgmtRestart, h]

theorem execSelfTestShort_leads {cid : Nat} (h : A.Admits (clockBanks s)) : A.Leads (execSelfTestShort cid s) := by
  simp [execSelfTestShort, h]

theorem execSelfTestExtended_leads {cid : Nat} (h : A.Admits (clockBanks s)) :
    A.Leads (execSelfTestExtended cid s) := by
  simp [execSelfTestExtended, h]

theorem execSelfTestStop_leads {cid : Nat} (h : A.Admits (clockBanks s)) : A.Leads (execSelfTestStop cid s) := by
  refine withAdmin_admits (fun t c ht => ?_) h
  dsimp only
  (repeat' split) <;> simp [ht]

theorem execSelfTestDone_leads {failures : List (BitVec 512)} {items yieldNs : Nat} (h : A.Admits (clockBanks s)) :
    A.Leads (execSelfTestDone failures items yieldNs s) := by
  unfold execSelfTestDone
  (repeat' split) <;> simp [h]

theorem execMgmtReady_leads (h : A.Admits (clockBanks s)) : A.Leads (execMgmtReady s) := by simp [execMgmtReady, h]

theorem execDomainTimerRet_leads {n : Nat} (h : A.Admits (clockBanks s)) : A.Leads (execDomainTimerRet n s) := by
  simp [execDomainTimerRet, h]

theorem execDomainTimerOff_leads {n : Nat} (h : A.Admits (clockBanks s)) : A.Leads (execDomainTimerOff n s) := by
  simp [execDomainTimerOff, h]

theorem execDomainEntryDone_leads {n : Nat} (h : A.Admits (clockBanks s)) : A.Leads (execDomainEntryDone n s) := by
  unfold execDomainEntryDone
  dsimp only
  (repeat' split) <;> simp [h]

theorem execDomainWake_leads {n source : Nat} (h : A.Admits (clockBanks s)) :
    A.Leads (execDomainWake n source s) := by
  simp [execDomainWake, h]

theorem execDomainWakeDone_leads {n : Nat} (h : A.Admits (clockBanks s)) : A.Leads (execDomainWakeDone n s) := by
  simp [execDomainWakeDone, h]

theorem execDtbComparator_leads {i : Nat} (h : A.Admits (clockBanks s)) : A.Leads (execDtbComparator i s) := by
  unfold execDtbComparator
  dsimp only
  (repeat' split) <;> simp [h]

theorem execComparatorTrip_leads {c : Comparator} {value : Nat} (h : A.Admits (clockBanks s)) :
    A.Leads (execComparatorTrip c value s) := by
  simp [execComparatorTrip, h]

theorem execComparatorRelease_leads {r : InputReading} (h : A.Admits (clockBanks s)) :
    A.Leads (execComparatorRelease r s) := by
  simp [execComparatorRelease, h]

theorem execPowerCapThrottle_leads {watts : Nat} (h : A.Admits (clockBanks s)) :
    A.Leads (execPowerCapThrottle watts s) := by
  simp [execPowerCapThrottle, h]

theorem execPowerCapThrottleLift_leads {watts : Nat} (h : A.Admits (clockBanks s)) :
    A.Leads (execPowerCapThrottleLift watts s) := by
  simp [execPowerCapThrottleLift, h]

theorem execThrottleNAssert_leads (h : A.Admits (clockBanks s)) : A.Leads (execThrottleNAssert s) := by
  simp [execThrottleNAssert, h]

theorem execThrottleNRelease_leads (h : A.Admits (clockBanks s)) : A.Leads (execThrottleNRelease s) := by
  simp [execThrottleNRelease, h]

theorem execMgmtPllLock_leads (h : A.Admits (clockBanks s)) : A.Leads (execMgmtPllLock s) := by
  simp [execMgmtPllLock, h]

theorem execPerstNAssert_leads (h : A.Admits (clockBanks s)) : A.Leads (execPerstNAssert s) := by
  unfold execPerstNAssert
  dsimp only
  (repeat' split)
  · exact h
  · exact h
  · exact h
  · exact moduleReset_admits h

theorem execDumpCopied_leads (h : A.Admits (clockBanks s)) : A.Leads (execDumpCopied s) := by
  unfold execDumpCopied
  dsimp only
  (repeat' split)
  · exact moduleReset_admits h
  · exact h
  · exact h

theorem execPerstNRelease_leads (h : A.Admits (clockBanks s)) : A.Leads (execPerstNRelease s) := by
  simp [execPerstNRelease, h]

theorem execPwrEnRise_leads (h : A.Admits (clockBanks s)) : A.Leads (execPwrEnRise s) := by simp [execPwrEnRise, h]

/-- The rails go off once no LC query is left (R410). -/
theorem powerDown_admits (h : A.Admits (clockBanks s)) :
    A.Admits (clockBanks (if lcLeft s then s else finishPowerDown s)) := by
  split
  · exact h
  · exact finishPowerDown_admits h

theorem execPwrEnFall_leads (h : A.Admits (clockBanks s)) : A.Leads (execPwrEnFall s) := by
  have ends {t : State} (l : List Nat) (ht : A.Admits (clockBanks t)) :
      A.Admits (clockBanks (refreshReady (l.foldl tearDown t))) := by
    rw [refreshReady_clockBanks]
    exact admits_foldl_of_forall _ _ (fun u c hu => tearDown_admits c hu) ht
  unfold execPwrEnFall
  dsimp only
  split
  · exact h
  · exact powerDown_admits (ends _ (by split <;> exact h))

theorem execMainPowerLoss_leads (h : A.Admits (clockBanks s)) : A.Leads (execMainPowerLoss s) := by
  unfold execMainPowerLoss
  dsimp only
  split
  · exact railsOff_admits h
  · exact h

theorem execMainInputReturn_leads {millivolts : Nat} (h : A.Admits (clockBanks s)) :
    A.Leads (execMainInputReturn millivolts s) := by
  simp [execMainInputReturn, h]

theorem execAuxLoss_leads (h : A.Admits (clockBanks s)) : A.Leads (execAuxLoss s) := by simp [execAuxLoss, h]

theorem execEvidenceSign_leads (h : A.Admits (clockBanks s)) : A.Leads (execEvidenceSign s) := by
  unfold execEvidenceSign
  split <;> simp [h]

theorem execNegotiateAlgorithms_leads {hash aead dhe sig : Bool} (h : A.Admits (clockBanks s)) :
    A.Leads (execNegotiateAlgorithms hash aead dhe sig s) := by
  simp [execNegotiateAlgorithms, h]

theorem execGetCertificate_leads {slot offset len : Nat} (h : A.Admits (clockBanks s)) :
    A.Leads (execGetCertificate slot offset len s) := by
  refine spdmServe_admits (fun t ht => ?_) h
  split <;> simp [ht]

theorem execChallenge_leads {slot : Nat} {nonce : BitVec 256} (h : A.Admits (clockBanks s)) :
    A.Leads (execChallenge slot nonce s) := by
  simp [execChallenge, h]

theorem execGetMeasurements_leads {slot : Nat} {nonce : BitVec 256} (h : A.Admits (clockBanks s)) :
    A.Leads (execGetMeasurements slot nonce s) := by
  simp [execGetMeasurements, h]

theorem execSpdmEvidenceRequest_leads {value : Bytes} (h : A.Admits (clockBanks s)) :
    A.Leads (execSpdmEvidenceRequest value s) := by
  simp [execSpdmEvidenceRequest, h]

theorem execSpdmKeyExchange_leads (h : A.Admits (clockBanks s)) : A.Leads (execSpdmKeyExchange s) := by
  simp [execSpdmKeyExchange, h]

theorem execKeyProg_leads {session : Nat} {dir : StreamDir} {set : Nat} {key : BitVec 256} (h : A.Admits (clockBanks s)) :
    A.Leads (execKeyProg session dir set key s) := by
  simp [execKeyProg, h]

theorem execKSetGo_leads {session : Nat} {dir : StreamDir} {set : Nat} (h : A.Admits (clockBanks s)) :
    A.Leads (execKSetGo session dir set s) := by
  simp [execKSetGo, h]

theorem execKSetStop_leads {session : Nat} {dir : StreamDir} {set : Nat} (h : A.Admits (clockBanks s)) :
    A.Leads (execKSetStop session dir set s) := by
  simp [execKSetStop, h]

theorem execFwStage_leads {cid : Nat} {image : Bytes} (h : A.Admits (clockBanks s)) :
    A.Leads (execFwStage cid image s) := by
  simp [execFwStage, h]

theorem execFwActivate_leads {cid : Nat} {m0 m1 : Media} (h : A.Admits (clockBanks s)) :
    A.Leads (execFwActivate cid m0 m1 s) := by
  refine withAdmin_admits (fun t c ht => ?_) h
  split <;> simp [ht]

theorem execGetFwInfo_leads (h : A.Admits (clockBanks s)) : A.Leads (execGetFwInfo s) := by simp [execGetFwInfo, h]

theorem execTransferFw_leads {action offset : Nat} {data : Bytes} (h : A.Admits (clockBanks s)) :
    A.Leads (execTransferFw action offset data s) := by
  refine mbServe_admits (fun t ht => ?_) h
  dsimp only
  (repeat' split) <;> simp [ht]

theorem execActivateFw_leads {online : Bool} {m0 m1 : Media} (h : A.Admits (clockBanks s)) :
    A.Leads (execActivateFw online m0 m1 s) := by
  refine mbServe_admits (fun t ht => ?_) h
  dsimp only
  (repeat' split) <;> simp [ht]

theorem execGetSupportedLogs_leads (h : A.Admits (clockBanks s)) : A.Leads (execGetSupportedLogs s) := by
  simp [execGetSupportedLogs, h]

theorem execGetLog_leads {page offset len : Nat} (h : A.Admits (clockBanks s)) :
    A.Leads (execGetLog page offset len s) := by
  simp [execGetLog, h]

theorem execInstallConfigRecord_leads {offset : Nat} {last : Bool} {data : Bytes} (h : A.Admits (clockBanks s)) :
    A.Leads (execInstallConfigRecord offset last data s) := by
  refine mbServe_admits (fun t ht => ?_) h
  split <;> simp [ht]

theorem execDictRead_leads {cid : Nat} (h : A.Admits (clockBanks s)) : A.Leads (execDictRead cid s) := by
  simp [execDictRead, h]

theorem execDictWrite_leads {cid : Nat} {value : Bytes} (h : A.Admits (clockBanks s)) :
    A.Leads (execDictWrite cid value s) := by
  simp [execDictWrite, h]

theorem execStagedObjectWrite_leads {by_ : Master} {index sub : Nat} {value : Bytes} (h : A.Admits (clockBanks s)) :
    A.Leads (execStagedObjectWrite by_ index sub value s) := by
  simp [execStagedObjectWrite, h]

theorem execSecLock_leads {by_ : Master} (h : A.Admits (clockBanks s)) : A.Leads (execSecLock by_ s) := by
  simp [execSecLock, h]

theorem execErrAck_leads {by_ : Master} {entry : Word32} (h : A.Admits (clockBanks s)) :
    A.Leads (execErrAck by_ entry s) := by
  simp [execErrAck, h]

theorem execDumpClear_leads {by_ : Master} (h : A.Admits (clockBanks s)) : A.Leads (execDumpClear by_ s) := by
  simp [execDumpClear, h]

theorem execEvidenceReq_leads {by_ : Master} {value : Bytes} (h : A.Admits (clockBanks s)) :
    A.Leads (execEvidenceReq by_ value s) := by
  simp [execEvidenceReq, h]

theorem execFwRxLen_leads {v : Word32} (h : A.Admits (clockBanks s)) : A.Leads (execFwRxLen v s) := by
  simp [execFwRxLen, h]

theorem execFwRxData_leads {data : Bytes} (h : A.Admits (clockBanks s)) : A.Leads (execFwRxData data s) := by
  simp [execFwRxData, h]

theorem execFwRxVerify_leads (h : A.Admits (clockBanks s)) : A.Leads (execFwRxVerify s) := by simp [execFwRxVerify, h]

theorem execFwRxActivateBoot_leads {m0 m1 : Media} (h : A.Admits (clockBanks s)) :
    A.Leads (execFwRxActivateBoot m0 m1 s) := by
  simp [execFwRxActivateBoot, h]

theorem execFwRxAbort_leads (h : A.Admits (clockBanks s)) : A.Leads (execFwRxAbort s) := by simp [execFwRxAbort, h]

theorem execCfgRxLen_leads {v : Word32} (h : A.Admits (clockBanks s)) : A.Leads (execCfgRxLen v s) := by
  simp [execCfgRxLen, h]

theorem execCfgRxData_leads {data : Bytes} (h : A.Admits (clockBanks s)) : A.Leads (execCfgRxData data s) := by
  simp [execCfgRxData, h]

theorem execCfgRxInstall_leads (h : A.Admits (clockBanks s)) : A.Leads (execCfgRxInstall s) := by
  simp [execCfgRxInstall, h]

theorem execCfgRxAbort_leads (h : A.Admits (clockBanks s)) : A.Leads (execCfgRxAbort s) := by simp [execCfgRxAbort, h]

theorem execXsdpRead_leads {f : Frame} (h : A.Admits (clockBanks s)) : A.Leads (execXsdpRead f s) := by
  simp [execXsdpRead, h]

theorem execXsdpWrite_leads {f : Frame} (h : A.Admits (clockBanks s)) : A.Leads (execXsdpWrite f s) := by
  simp [execXsdpWrite, h]

theorem execEventAck_leads {f : Frame} (h : A.Admits (clockBanks s)) : A.Leads (execEventAck f s) := by
  simp [execEventAck, h]

theorem execXsdpMalformedDatagram_leads {f : Frame} (h : A.Admits (clockBanks s)) :
    A.Leads (execXsdpMalformedDatagram f s) := by
  simp [execXsdpMalformedDatagram, h]

theorem execEventRetransmit_leads {seq : Nat} (h : A.Admits (clockBanks s)) :
    A.Leads (execEventRetransmit seq s) := by
  unfold execEventRetransmit
  split <;> simp [h]

theorem execPlcaStatusChange_leads {active : Bool} (h : A.Admits (clockBanks s)) :
    A.Leads (execPlcaStatusChange active s) := by
  simp [execPlcaStatusChange, h]

theorem execNeighborDiscovery_leads {target : Nat} (h : A.Admits (clockBanks s)) :
    A.Leads (execNeighborDiscovery target s) := by
  simp [execNeighborDiscovery, h]

theorem execIcmpv6Echo_leads {peer : Nat} {payload : Bytes} (h : A.Admits (clockBanks s)) :
    A.Leads (execIcmpv6Echo peer payload s) := by
  simp [execIcmpv6Echo, h]

theorem execCopy_leads {q cid : Nat} {data : Bytes} {m : Media} (h : A.Admits (clockBanks s)) :
    A.Leads (execCopy q cid data m s) := by
  simp [execCopy, h]

theorem execPegSet_leads {i : PegIssuer} (h : A.Admits (clockBanks s)) : A.Leads (execPegSet i s) := by
  simp [execPegSet, h]

theorem execPegAdd_leads {i : PegIssuer} (h : A.Admits (clockBanks s)) : A.Leads (execPegAdd i s) := by
  simp [execPegAdd, h]

theorem execPegWaitGe_leads {i : PegIssuer} (h : A.Admits (clockBanks s)) : A.Leads (execPegWaitGe i s) := by
  simp [execPegWaitGe, h]

theorem execPegWaitEq_leads {i : PegIssuer} (h : A.Admits (clockBanks s)) : A.Leads (execPegWaitEq i s) := by
  simp [execPegWaitEq, h]

theorem execPegAcquire_leads {i : PegIssuer} (h : A.Admits (clockBanks s)) : A.Leads (execPegAcquire i s) := by
  simp [execPegAcquire, h]

theorem execPegRelease_leads {i : PegIssuer} (h : A.Admits (clockBanks s)) : A.Leads (execPegRelease i s) := by
  simp [execPegRelease, h]

theorem execPegWaitTimeout_leads {q cid : Nat} (h : A.Admits (clockBanks s)) :
    A.Leads (execPegWaitTimeout q cid s) := by
  unfold execPegWaitTimeout
  (repeat' split) <;> simp [h]

theorem execPegSignalRepeat_leads {peg : Nat} (h : A.Admits (clockBanks s)) :
    A.Leads (execPegSignalRepeat peg s) := by
  simp [execPegSignalRepeat, h]

theorem execSqTailDoorbell_leads {fn q : Nat} {v : Word32} (h : A.Admits (clockBanks s)) :
    A.Leads (execSqTailDoorbell fn q v s) := by
  simp [execSqTailDoorbell, h]

theorem execCqHeadDoorbell_leads {fn q : Nat} {v : Word32} (h : A.Admits (clockBanks s)) :
    A.Leads (execCqHeadDoorbell fn q v s) := by
  simp [execCqHeadDoorbell, h]

theorem execAdminSqTail_leads {v : Word32} (h : A.Admits (clockBanks s)) : A.Leads (execAdminSqTail v s) := by
  simp [execAdminSqTail, h]

theorem execAdminCqHead_leads {v : Word32} (h : A.Admits (clockBanks s)) : A.Leads (execAdminCqHead v s) := by
  simp [execAdminCqHead, h]

theorem execAdminEnable_leads {sqBase cqBase cfg : Word64} (h : A.Admits (clockBanks s)) :
    A.Leads (execAdminEnable sqBase cqBase cfg s) := by
  simp [execAdminEnable, h]

theorem execAdminDisable_leads (h : A.Admits (clockBanks s)) : A.Leads (execAdminDisable s) := by
  simp [execAdminDisable, h]

theorem execSubmissionConsume_leads {q : Nat} {sqe : BitVec 512} (h : A.Admits (clockBanks s)) :
    A.Leads (execSubmissionConsume q sqe s) := by
  unfold execSubmissionConsume
  dsimp only
  (repeat' split) <;> simp [h]

theorem execMsixCoalesceTimer_leads {q : Nat} (h : A.Admits (clockBanks s)) :
    A.Leads (execMsixCoalesceTimer q s) := by
  unfold execMsixCoalesceTimer
  split <;> simp [h]

theorem execHostReadFault_leads {q cid : Nat} {t : ReadTarget} (h : A.Admits (clockBanks s)) :
    A.Leads (execHostReadFault q cid t s) := by
  unfold execHostReadFault
  (repeat' split) <;> simp [h]

theorem execBatchCompletionPost_leads {q cid : Nat} (h : A.Admits (clockBanks s)) :
    A.Leads (execBatchCompletionPost q cid s) := by
  unfold execBatchCompletionPost
  split <;> simp [h]

theorem execQpCreate_leads {cid : Nat} (h : A.Admits (clockBanks s)) : A.Leads (execQpCreate cid s) := by
  simp [execQpCreate, h]

theorem execQpDelete_leads {cid : Nat} (h : A.Admits (clockBanks s)) : A.Leads (execQpDelete cid s) := by
  refine withAdmin_admits (fun t c ht => ?_) h
  dsimp only
  split <;> simp [ht]

theorem execQpDeleteComplete_leads {qp : Nat} (h : A.Admits (clockBanks s)) :
    A.Leads (execQpDeleteComplete qp s) := by
  simp [execQpDeleteComplete, h]

theorem execRimeRequestSubmit_leads {slot : Option Nat} {ctx cell : Nat} {desc : BitVec 256} (h :
    A.Admits (clockBanks s)) :
    A.Leads (execRimeRequestSubmit slot ctx cell desc s) := by
  unfold execRimeRequestSubmit
  split
  · exact h
  · dsimp only
    split
    · exact endRequest_admits _ _ _ h
    · split
      · exact endRequest_admits _ _ _ h
      · exact setRimeBank_same_segment_admits h h (bank := _) rfl rfl

theorem execRimeSegmentEnd_leads {bank : Nat} (h : A.Admits (clockBanks s)) :
    A.Leads (execRimeSegmentEnd bank s) := by
  unfold execRimeSegmentEnd
  dsimp only
  split
  · exact h
  · exact preemptBank_admits bank (setRimeBank_admits (advanceTo_admits _ h) (fun hs => nomatch hs))

theorem execRimeRequestDone_leads {bank : Nat} (h : A.Admits (clockBanks s)) :
    A.Leads (execRimeRequestDone bank s) := by
  unfold execRimeRequestDone
  dsimp only
  (repeat' split)
  · exact h
  · exact h
  · exact endRequest_admits _ _ _ (setRimeBank_admits h (fun hs => nomatch hs))

theorem execBankRefresh_leads {bank : Nat} (h : A.Admits (clockBanks s)) : A.Leads (execBankRefresh bank s) := by
  unfold execBankRefresh
  dsimp only
  split
  · exact h
  · exact setRimeBank_same_segment_admits h h (bank := bank) rfl rfl

theorem execBankAccessDuringRime_leads {bank : Nat} (h : A.Admits (clockBanks s)) :
    A.Leads (execBankAccessDuringRime bank s) := by
  unfold execBankAccessDuringRime
  dsimp only
  split
  · exact h
  · exact setRimeBank_same_segment_admits (s := bumpFree s) h h (bank := bank) rfl rfl

theorem execNop_leads {bank : Nat} {w : BitVec 128} (h : A.Admits (clockBanks s)) : A.Leads (execNop bank w s) := by
  simp [execNop, h]

theorem execClr_leads {bank : Nat} {w : BitVec 128} (h : A.Admits (clockBanks s)) : A.Leads (execClr bank w s) := by
  simp [execClr, h]

theorem execLoadq_leads {bank : Nat} {w : BitVec 128} {m : Media} {corrected : List Nat} (h : A.Admits (clockBanks s)) :
    A.Leads (execLoadq bank w m corrected s) := by
  simp [execLoadq, h]

theorem execLoadr_leads {bank : Nat} {w : BitVec 128} {m : Media} {corrected : List Nat} (h : A.Admits (clockBanks s)) :
    A.Leads (execLoadr bank w m corrected s) := by
  simp [execLoadr, h]

theorem execStorer_leads {bank : Nat} {w : BitVec 128} (h : A.Admits (clockBanks s)) :
    A.Leads (execStorer bank w s) := by
  simp [execStorer, h]

theorem execDot_leads {bank : Nat} {w : BitVec 128} {m : Media} {corrected : List Nat} (h : A.Admits (clockBanks s)) :
    A.Leads (execDot bank w m corrected s) := by
  simp [execDot, h]

theorem execMaxsim_leads {bank : Nat} {w : BitVec 128} {m : Media} {corrected : List Nat} (h : A.Admits (clockBanks s)) :
    A.Leads (execMaxsim bank w m corrected s) := by
  simp [execMaxsim, h]

theorem execWsum_leads {bank : Nat} {w : BitVec 128} {m : Media} {corrected : List Nat} (h : A.Admits (clockBanks s)) :
    A.Leads (execWsum bank w m corrected s) := by
  simp [execWsum, h]

theorem execVmax_leads {bank : Nat} {w : BitVec 128} (h : A.Admits (clockBanks s)) : A.Leads (execVmax bank w s) := by
  simp [execVmax, h]

theorem execRmax_leads {bank : Nat} {w : BitVec 128} (h : A.Admits (clockBanks s)) : A.Leads (execRmax bank w s) := by
  simp [execRmax, h]

theorem execSave_leads {bank : Nat} (h : A.Admits (clockBanks s)) : A.Leads (execSave bank s) := by simp [execSave, h]

theorem execRestore_leads {bank : Nat} {m : AreaRead} (h : A.Admits (clockBanks s)) :
    A.Leads (execRestore bank m s) := by
  unfold execRestore
  dsimp only
  (repeat' split) <;> simp [h]

/-- A row of the aperture acts on the unit of an enabled bank, and leaves its segment. -/
theorem aperture_admits {bank : Nat} {b : RimeBank} (h :
    A.Admits (clockBanks s)) (hs : b.segment = (rimeBank s bank).segment)
    (hn : b.bank = (rimeBank s bank).bank) :
    A.Admits (clockBanks (if !rimeEnabled s bank then s else setRimeBank s b)) := by
  split
  · exact h
  · exact setRimeBank_same_segment_admits h h hs hn

theorem execCmdq_leads {bank : Nat} {w0 w1 : BitVec 128} (h : A.Admits (clockBanks s)) :
    A.Leads (execCmdq bank w0 w1 s) :=
  aperture_admits h rfl rfl

theorem execRimeCtrlClear_leads {bank : Nat} (h : A.Admits (clockBanks s)) : A.Leads (execRimeCtrlClear bank s) :=
  aperture_admits h rfl rfl

theorem execRimeCtrlAbort_leads {bank : Nat} (h : A.Admits (clockBanks s)) : A.Leads (execRimeCtrlAbort bank s) :=
  aperture_admits h rfl rfl

theorem execRimeCtrlSuspend_leads {bank : Nat} (h : A.Admits (clockBanks s)) : A.Leads (execRimeCtrlSuspend bank s) :=
  aperture_admits h rfl rfl

theorem execRimeCtrlResume_leads {bank : Nat} (h : A.Admits (clockBanks s)) : A.Leads (execRimeCtrlResume bank s) :=
  aperture_admits h rfl rfl

theorem execRcfgWrite_leads {channel : Nat} {value : Byte} (h : A.Admits (clockBanks s)) :
    A.Leads (execRcfgWrite channel value s) :=
  h

theorem execSort_leads {cell : Nat} {w : Word64} {src dst : Loc} {n : Nat} (h : A.Admits (clockBanks s)) :
    A.Leads (execSort cell w src dst n s) := by
  simp [execSort, h]

theorem execSelect_leads {cell : Nat} {w : Word64} {src dst : Loc} {n : Nat} (h : A.Admits (clockBanks s)) :
    A.Leads (execSelect cell w src dst n s) := by
  simp [execSelect, h]

theorem execThresh_leads {cell : Nat} {w : Word64} {src dst : Loc} {n : Nat} {t : Word32} (h : A.Admits (clockBanks s)) :
    A.Leads (execThresh cell w src dst n t s) := by
  simp [execThresh, h]

theorem execMerge_leads {cell : Nat} {w : Word64} {srcs : List (Loc × Nat)} {dst : Loc} (h : A.Admits (clockBanks s)) :
    A.Leads (execMerge cell w srcs dst s) := by
  simp [execMerge, h]

theorem execArgmax_leads {cell : Nat} {w : Word64} {src : Loc} {n : Nat} (h : A.Admits (clockBanks s)) :
    A.Leads (execArgmax cell w src n s) :=
  selectRow_admits _ _ _ _ _ _ (fun _ ht => ht) h

theorem execExtest_leads (h : A.Admits (clockBanks s)) : A.Leads (execExtest s) := by simp [execExtest, h]

theorem execIdcode_leads (h : A.Admits (clockBanks s)) : A.Leads (execIdcode s) := by simp [execIdcode, h]

theorem execSamplePreload_leads {pins : Nat} (h : A.Admits (clockBanks s)) : A.Leads (execSamplePreload pins s) := by
  simp [execSamplePreload, h]

theorem execHighz_leads (h : A.Admits (clockBanks s)) : A.Leads (execHighz s) := by simp [execHighz, h]

theorem execClamp_leads (h : A.Admits (clockBanks s)) : A.Leads (execClamp s) := by simp [execClamp, h]

theorem execDbgStatus_leads (h : A.Admits (clockBanks s)) : A.Leads (execDbgStatus s) := by simp [execDbgStatus, h]

theorem execMgmtDebug_leads {halt : Bool} {addr : Nat} (h : A.Admits (clockBanks s)) :
    A.Leads (execMgmtDebug halt addr s) := by
  simp [execMgmtDebug, h]

theorem execBypass_leads (h : A.Admits (clockBanks s)) : A.Leads (execBypass s) := by simp [execBypass, h]

theorem execBringup_leads {dr : Option (BitVec 128)} (h : A.Admits (clockBanks s)) : A.Leads (execBringup dr s) := by
  refine onTap_admits (fun t ht => ?_) h
  split <;> simp [ht]

theorem execPprQuery_leads {dr : BitVec 128} (h : A.Admits (clockBanks s)) : A.Leads (execPprQuery dr s) := by
  simp [execPprQuery, h]

theorem execPprRepair_leads {dr : BitVec 128} (h : A.Admits (clockBanks s)) : A.Leads (execPprRepair dr s) := by
  simp [execPprRepair, h]

theorem execBbtQuery_leads {dr : BitVec 128} (h : A.Admits (clockBanks s)) : A.Leads (execBbtQuery dr s) := by
  simp [execBbtQuery, h]

theorem execBbtRead_leads {dr : BitVec 128} (h : A.Admits (clockBanks s)) : A.Leads (execBbtRead dr s) := by
  simp [execBbtRead, h]

theorem execBbtMark_leads {dr : BitVec 128} (h : A.Admits (clockBanks s)) : A.Leads (execBbtMark dr s) := by
  simp [execBbtMark, h]

theorem execLoopStart_leads {dr : BitVec 128} (h : A.Admits (clockBanks s)) : A.Leads (execLoopStart dr s) := by
  simp [execLoopStart, h]

theorem execLoopStop_leads {dr : BitVec 128} (h : A.Admits (clockBanks s)) : A.Leads (execLoopStop dr s) := by
  simp [execLoopStop, h]

theorem execBringupOpComplete_leads {ok : Bool} (h : A.Admits (clockBanks s)) :
    A.Leads (execBringupOpComplete ok s) := by
  unfold execBringupOpComplete
  split
  · exact h
  · dsimp only
    split
    · rw [leads_next, clockBanks_link, startRepairs_clockBanks, clockBanks_tap, bringupOp_clockBanks, clockBanks_tap]
      exact h
    · rw [leads_next, clockBanks_tap, bringupOp_clockBanks, clockBanks_tap]
      exact h

end Sys2Proof.Machine

/-! SUPPORT. RIME_SEGMENT_START and AUX_POWER_UP, every command and every step: the DTB (R26) and the computing slots
(R22). -/

namespace Sys2Proof.Machine

open Sys2Proof

variable {A : Anchor} {s : State}

/-! RIME_SEGMENT_START (R22, R202). -/

@[simp] theorem rimeBank_bank (s : State) (bank : Nat) : (rimeBank s bank).bank = bank := by
  unfold rimeBank
  cases hf : s.rime.banks.find? (fun b => b.bank == bank) with
  | none => rfl
  | some b => simpa using List.find?_some hf

/-- Either no record but those of the choice changes, or a computing slot is free and the bank takes it. -/
theorem execRimeSegmentStart_cases (s : State) (bank : Nat) :
    (∃ t, execRimeSegmentStart bank s = .next t ∧ clockBanks t = clockBanks s) ∨
    ∃ u b, execRimeSegmentStart bank s = .next (setRimeBank u b) ∧ clockBanks u = clockBanks (chooseRequest s bank) ∧
      slotFree (chooseRequest s bank) bank = true ∧ b.bank = bank := by
  unfold execRimeSegmentStart
  dsimp only
  split
  · exact .inl ⟨_, rfl, rfl⟩
  · split
    · exact .inl ⟨_, rfl, rfl⟩
    · split
      · exact .inl ⟨_, rfl, rfl⟩
      · split
        · exact .inl ⟨_, rfl, rfl⟩
        next hf => exact .inr ⟨_, _, rfl, by split <;> simp, by simpa using hf, rimeBank_bank _ bank⟩

theorem execRimeSegmentStart_leads {bank : Nat} (h : A.Admits (clockBanks s)) (hb : bank ∈ A.computing) :
    A.Leads (execRimeSegmentStart bank s) := by
  obtain ⟨t, e, ht⟩ | ⟨u, b, e, hu, -, rfl⟩ := execRimeSegmentStart_cases s bank
  · rw [e, leads_next, ht]
    exact h
  · rw [e, leads_next]
    exact setRimeBank_admits (hu ▸ chooseRequest_admits _ h) (fun _ => hb)

/-! Every command, and every step. -/

/-- What every command but AUX_POWER_UP keeps, where the anchor lets a bank compute that the command lets start. -/
theorem exec_leads (i : Instr) (hp : ∀ straps, i ≠ .auxPowerUp straps)
    (hs : ∀ bank, i = .rimeSegmentStart bank → bank ∈ A.computing) (h : A.Admits (clockBanks s)) : A.Leads (exec i s) := by
  cases i with
  | search => exact execSearch_leads h
  | encodeSearch => exact execEncodeSearch_leads h
  | encode => exact execEncode_leads h
  | rerank => exact execRerank_leads h
  | queryWorkStart => exact execQueryWorkStart_leads h
  | scribeReadComplete => exact execScribeReadComplete_leads h
  | hopComplete => exact execHopComplete_leads h
  | dramRecordReadDone => exact execDramRecordReadDone_leads h
  | driftBlockScanned => exact execDriftBlockScanned_leads h
  | braceRebuildDone => exact execBraceRebuildDone_leads h
  | rerankSlotArrival => exact execRerankSlotArrival_leads h
  | rerankDone => exact execRerankDone_leads h
  | guardTime => exact execGuardTime_leads h
  | batchCompletionPost => exact execBatchCompletionPost_leads h
  | insert => exact execInsert_leads h
  | delete => exact execDelete_leads h
  | journalWriteDone => exact execJournalWriteDone_leads h
  | planRun => exact execPlanRun_leads h
  | copy => exact execCopy_leads h
  | pegSet => exact execPegSet_leads h
  | pegAdd => exact execPegAdd_leads h
  | pegWaitGe => exact execPegWaitGe_leads h
  | pegWaitEq => exact execPegWaitEq_leads h
  | pegAcquire => exact execPegAcquire_leads h
  | pegRelease => exact execPegRelease_leads h
  | pegWaitTimeout => exact execPegWaitTimeout_leads h
  | pegSignalRepeat => exact execPegSignalRepeat_leads h
  | nsCreate => exact execNsCreate_leads h
  | nsDelete => exact execNsDelete_leads h
  | nsDeleteRelease => exact execNsDeleteRelease_leads h
  | qpCreate => exact execQpCreate_leads h
  | qpDelete => exact execQpDelete_leads h
  | qpDeleteComplete => exact execQpDeleteComplete_leads h
  | planLoad => exact execPlanLoad_leads h
  | planUnload => exact execPlanUnload_leads h
  | planUnloadRelease => exact execPlanUnloadRelease_leads h
  | bayBind => exact execBayBind_leads h
  | bayReclaim => exact execBayReclaim_leads h
  | reclaimGraceExpiry => exact execReclaimGraceExpiry_leads h
  | resourceDrained => exact execResourceDrained_leads h
  | reclaimComplete => exact execReclaimComplete_leads h
  | frameZeroed => exact execFrameZeroed_leads h
  | selfTestShort => exact execSelfTestShort_leads h
  | selfTestExtended => exact execSelfTestExtended_leads h
  | selfTestStop => exact execSelfTestStop_leads h
  | selfTestDone => exact execSelfTestDone_leads h
  | fwStage => exact execFwStage_leads h
  | fwActivate => exact execFwActivate_leads h
  | logGet => exact execLogGet_leads h
  | dictRead => exact execDictRead_leads h
  | dictWrite => exact execDictWrite_leads h
  | stagedObjectWrite => exact execStagedObjectWrite_leads h
  | firnMergeDrift => exact execFirnMergeDrift_leads h
  | firnMergeSweep => exact execFirnMergeSweep_leads h
  | firnRoundStart => exact execFirnRoundStart_leads h
  | indexVersionRaise => exact execIndexVersionRaise_leads h
  | firnRoundCutoff => exact execFirnRoundCutoff_leads h
  | versionRelease => exact execVersionRelease_leads h
  | indexReplayDone => exact execIndexReplayDone_leads h
  | cutStart => exact execCutStart_leads h
  | cutEnd => exact execCutEnd_leads h
  | weightArrival => exact execWeightArrival_leads h
  | sort => exact execSort_leads h
  | select => exact execSelect_leads h
  | thresh => exact execThresh_leads h
  | merge => exact execMerge_leads h
  | argmax => exact execArgmax_leads h
  | baySliceExpiry => exact execBaySliceExpiry_leads h
  | bePromotion => exact execBePromotion_leads h
  | promotionQuantumEnd => exact execPromotionQuantumEnd_leads h
  | contextFault => exact execContextFault_leads h
  | rimeRequestSubmit => exact execRimeRequestSubmit_leads h
  | rimeSegmentStart => exact execRimeSegmentStart_leads h (hs _ rfl)
  | rimeSegmentEnd => exact execRimeSegmentEnd_leads h
  | rimeRequestDone => exact execRimeRequestDone_leads h
  | bankRefresh => exact execBankRefresh_leads h
  | bankAccessDuringRime => exact execBankAccessDuringRime_leads h
  | nop => exact execNop_leads h
  | clr => exact execClr_leads h
  | loadq => exact execLoadq_leads h
  | loadr => exact execLoadr_leads h
  | storer => exact execStorer_leads h
  | dot => exact execDot_leads h
  | maxsim => exact execMaxsim_leads h
  | wsum => exact execWsum_leads h
  | vmax => exact execVmax_leads h
  | rmax => exact execRmax_leads h
  | save => exact execSave_leads h
  | restore => exact execRestore_leads h
  | cmdq => exact execCmdq_leads h
  | rimeCtrlClear => exact execRimeCtrlClear_leads h
  | rimeCtrlAbort => exact execRimeCtrlAbort_leads h
  | rimeCtrlSuspend => exact execRimeCtrlSuspend_leads h
  | rimeCtrlResume => exact execRimeCtrlResume_leads h
  | rcfgWrite => exact execRcfgWrite_leads h
  | reservedEventPlace => exact execReservedEventPlace_leads h
  | reservedEventForced => exact execReservedEventForced_leads h
  | retrainingPause => exact execRetrainingPause_leads h
  | flashPePieceEnd => exact execFlashPePieceEnd_leads h
  | flashPeFail => exact execFlashPeFail_leads h
  | pageFault => exact execPageFault_leads h
  | fillSectorArrival => exact execFillSectorArrival_leads h
  | cleanerWriteback => exact execCleanerWriteback_leads h
  | writebackDone => exact execWritebackDone_leads h
  | evacuationStart => exact execEvacuationStart_leads h
  | pieceRelocated => exact execPieceRelocated_leads h
  | evacuationCopyWindow => exact execEvacuationCopyWindow_leads h
  | evacuationCopyEnd => exact execEvacuationCopyEnd_leads h
  | returnCopyEnd => exact execReturnCopyEnd_leads h
  | replenishment => exact execReplenishment_leads h
  | weightRebuildDone => exact execWeightRebuildDone_leads h
  | indexStructureRestored => exact execIndexStructureRestored_leads h
  | mediaUnitRebuild => exact execMediaUnitRebuild_leads h
  | dramScrubPass => exact execDramScrubPass_leads h
  | flashPatrol => exact execFlashPatrol_leads h
  | dramRowFailing => exact execDramRowFailing_leads h
  | monitorSample => exact execMonitorSample_leads h
  | marginPlanBuild => exact execMarginPlanBuild_leads h
  | marginPlanRaise => exact execMarginPlanRaise_leads h
  | fatalError => exact execFatalError_leads h
  | dumpWritten => exact execDumpWritten_leads h
  | dumpCopied => exact execDumpCopied_leads h
  | mgmtCodeCheck => exact execMgmtCodeCheck_leads h
  | mgmtRestart => exact execMgmtRestart_leads h
  | sqTailDoorbell => exact execSqTailDoorbell_leads h
  | cqHeadDoorbell => exact execCqHeadDoorbell_leads h
  | adminSqTail => exact execAdminSqTail_leads h
  | adminCqHead => exact execAdminCqHead_leads h
  | adminEnable => exact execAdminEnable_leads h
  | adminDisable => exact execAdminDisable_leads h
  | submissionConsume => exact execSubmissionConsume_leads h
  | msixCoalesceTimer => exact execMsixCoalesceTimer_leads h
  | hostReadFault => exact execHostReadFault_leads h
  | cxlMemRead => exact execCxlMemRead_leads h
  | cxlMemWrite => exact execCxlMemWrite_leads h
  | bisnpinv => exact execBisnpinv_leads h
  | cxlCacheSnoop => exact execCxlCacheSnoop_leads h
  | hdmDecoderCommit => exact execHdmDecoderCommit_leads h
  | linkTrained => exact execLinkTrained_leads h
  | linkDown => exact execLinkDown_leads h
  | vfFlr => exact execVfFlr_leads h
  | pfFlr => exact execPfFlr_leads h
  | hotReset => exact execHotReset_leads h
  | vfEnableClear => exact execVfEnableClear_leads h
  | ideIntegrityFail => exact execIdeIntegrityFail_leads h
  | keyProg => exact execKeyProg_leads h
  | kSetGo => exact execKSetGo_leads h
  | kSetStop => exact execKSetStop_leads h
  | cdatTableAccess => exact execCdatTableAccess_leads h
  | getMeasurements => exact execGetMeasurements_leads h
  | spdmEvidenceRequest => exact execSpdmEvidenceRequest_leads h
  | spdmKeyExchange => exact execSpdmKeyExchange_leads h
  | ptmRequest => exact execPtmRequest_leads h
  | ptmExchange => exact execPtmExchange_leads h
  | ptmTimeout => exact execPtmTimeout_leads h
  | dtbForwardStep => exact execDtbForwardStep_leads h
  | dtbStepAbandon => exact execDtbStepAbandon_leads h
  | getFwInfo => exact execGetFwInfo_leads h
  | transferFw => exact execTransferFw_leads h
  | activateFw => exact execActivateFw_leads h
  | getSupportedLogs => exact execGetSupportedLogs_leads h
  | getLog => exact execGetLog_leads h
  | installConfigRecord => exact execInstallConfigRecord_leads h
  | xsdpRead => exact execXsdpRead_leads h
  | xsdpWrite => exact execXsdpWrite_leads h
  | eventAck => exact execEventAck_leads h
  | eventRetransmit => exact execEventRetransmit_leads h
  | stageLockTake => exact execStageLockTake_leads h
  | stageLockRelease => exact execStageLockRelease_leads h
  | lockLapse => exact execLockLapse_leads h
  | stageDiscard => exact execStageDiscard_leads h
  | dryFit => exact execDryFit_leads h
  | dryFitComplete => exact execDryFitComplete_leads h
  | raiseImmediate => exact execRaiseImmediate_leads h
  | raiseAtTime => exact execRaiseAtTime_leads h
  | raiseAtIdle => exact execRaiseAtIdle_leads h
  | raiseCancel => exact execRaiseCancel_leads h
  | raiseRefit => exact execRaiseRefit_leads h
  | dictRaise => exact execDictRaise_leads h
  | raiseExpiry => exact execRaiseExpiry_leads h
  | secLock => exact execSecLock_leads h
  | errAck => exact execErrAck_leads h
  | dumpClear => exact execDumpClear_leads h
  | evidenceReq => exact execEvidenceReq_leads h
  | evidenceSign => exact execEvidenceSign_leads h
  | fwRxLen => exact execFwRxLen_leads h
  | fwRxData => exact execFwRxData_leads h
  | fwRxVerify => exact execFwRxVerify_leads h
  | fwRxActivateBoot => exact execFwRxActivateBoot_leads h
  | fwRxAbort => exact execFwRxAbort_leads h
  | cfgRxLen => exact execCfgRxLen_leads h
  | cfgRxData => exact execCfgRxData_leads h
  | cfgRxInstall => exact execCfgRxInstall_leads h
  | cfgRxAbort => exact execCfgRxAbort_leads h
  | domainTimerRet => exact execDomainTimerRet_leads h
  | domainTimerOff => exact execDomainTimerOff_leads h
  | domainEntryDone => exact execDomainEntryDone_leads h
  | domainWake => exact execDomainWake_leads h
  | domainWakeDone => exact execDomainWakeDone_leads h
  | dtbComparator => exact execDtbComparator_leads h
  | comparatorTrip => exact execComparatorTrip_leads h
  | comparatorRelease => exact execComparatorRelease_leads h
  | powerCapThrottle => exact execPowerCapThrottle_leads h
  | powerCapThrottleLift => exact execPowerCapThrottleLift_leads h
  | throttleNAssert => exact execThrottleNAssert_leads h
  | throttleNRelease => exact execThrottleNRelease_leads h
  | auxPowerUp => exact absurd rfl (hp _)
  | auxLoss => exact execAuxLoss_leads h
  | pwrEnRise => exact execPwrEnRise_leads h
  | mgmtReady => exact execMgmtReady_leads h
  | pwrEnFall => exact execPwrEnFall_leads h
  | mainPowerLoss => exact execMainPowerLoss_leads h
  | perstNAssert => exact execPerstNAssert_leads h
  | perstNRelease => exact execPerstNRelease_leads h
  | extest => exact execExtest_leads h
  | idcode => exact execIdcode_leads h
  | samplePreload => exact execSamplePreload_leads h
  | highz => exact execHighz_leads h
  | clamp => exact execClamp_leads h
  | dbgStatus => exact execDbgStatus_leads h
  | bringup => exact execBringup_leads h
  | mgmtDebug => exact execMgmtDebug_leads h
  | bypass => exact execBypass_leads h
  | pprQuery => exact execPprQuery_leads h
  | pprRepair => exact execPprRepair_leads h
  | bbtQuery => exact execBbtQuery_leads h
  | bbtRead => exact execBbtRead_leads h
  | bbtMark => exact execBbtMark_leads h
  | loopStart => exact execLoopStart_leads h
  | loopStop => exact execLoopStop_leads h
  | bringupOpComplete => exact execBringupOpComplete_leads h
  | plcaStatusChange => exact execPlcaStatusChange_leads h
  | mainInputReturn => exact execMainInputReturn_leads h
  | neighborDiscovery => exact execNeighborDiscovery_leads h
  | icmpv6Echo => exact execIcmpv6Echo_leads h
  | xsdpMalformedDatagram => exact execXsdpMalformedDatagram_leads h
  | fullRetrainingDone => exact execFullRetrainingDone_leads h
  | mgmtPllLock => exact execMgmtPllLock_leads h
  | getCertificate => exact execGetCertificate_leads h
  | challenge => exact execChallenge_leads h
  | negotiateAlgorithms => exact execNegotiateAlgorithms_leads h
  | doeDiscovery => exact execDoeDiscovery_leads h
  | vfEnableSet => exact execVfEnableSet_leads h
  | ptmEnableWrite => exact execPtmEnableWrite_leads h
  | cxlCacheEnable => exact execCxlCacheEnable_leads h
  | cxlMemEnable => exact execCxlMemEnable_leads h
  | linkLoopbackEntry => exact execLinkLoopbackEntry_leads h

/-- AUX_POWER_UP restarts the DTB and counts a boot, while no AUX was there (R26); the rime records stand. -/
theorem execAuxPowerUp_next (straps : Nat) (s : State) :
    ∃ t, execAuxPowerUp straps s = .next t ∧
      clockBanks t = if s.pins.auxGood then clockBanks s else (s.time.bootCount + 1, 0, s.rime.banks) := by
  refine ⟨_, rfl, ?_⟩
  split <;> simp

/-! The DTB (R26). -/

/-- An anchor at the clock of a state that leaves the rime records free. -/
def clockOf (s : State) : Anchor :=
  { bootCount := s.time.bootCount, dtb := s.time.dtb, computing := Set.univ, distinct := False }

theorem clockOf_admits (s : State) : (clockOf s).Admits (clockBanks s) :=
  ⟨rfl, le_rfl, fun _ _ _ => trivial, False.elim⟩

/-- A command leaves the boot count and does not turn the DTB back, or starts both anew. -/
theorem exec_clock (i : Instr) {s t : State} (e : exec i s = .next t) :
    (t.time.bootCount = s.time.bootCount ∧ s.time.dtb ≤ t.time.dtb) ∨
    (t.time.bootCount = s.time.bootCount + 1 ∧ t.time.dtb = 0) := by
  by_cases hp : ∃ straps, i = .auxPowerUp straps
  · obtain ⟨straps, rfl⟩ := hp
    obtain ⟨u, hu, hc⟩ := execAuxPowerUp_next straps s
    obtain rfl : u = t := by simpa using hu.symm.trans e
    simp only [clockBanks] at hc
    split at hc
    · simp only [Prod.mk.injEq] at hc
      exact .inl ⟨hc.1, hc.2.1.ge⟩
    · simp only [Prod.mk.injEq] at hc
      exact .inr ⟨hc.1, hc.2.1⟩
  · have hl : (clockOf s).Leads (exec i s) :=
      exec_leads i (fun straps hi => hp ⟨straps, hi⟩) (fun _ _ => trivial) (clockOf_admits s)
    rw [e] at hl
    exact .inl ⟨hl.bootCount, hl.dtb⟩

/-! The computing slots (R22). -/

/-- Distinct banks among those of other records are no more than these, on the module and in each channel. -/
theorem computing_filter_length_le {l m : List RimeBank} (p : Nat → Bool) (hl : (l.map (fun b => b.bank)).Nodup)
    (hs : ∀ b ∈ l, b.bank ∈ m.map (fun b => b.bank)) :
    (l.filter (fun b => p b.bank)).length ≤ (m.filter (fun b => p b.bank)).length := by
  have hsub : (l.filter (fun b => p b.bank)).map (fun b => b.bank) ⊆ (m.filter (fun b => p b.bank)).map (fun b => b.bank) := by
    intro n hn
    obtain ⟨b, hb, rfl⟩ := List.mem_map.1 hn
    obtain ⟨hb, hp⟩ := List.mem_filter.1 hb
    obtain ⟨c, hc, e⟩ := List.mem_map.1 (hs b hb)
    exact List.mem_map.2 ⟨c, List.mem_filter.2 ⟨hc, by simpa [e] using hp⟩, e⟩
  simpa using ((hl.sublist (List.filter_sublist.map _)).subperm hsub).length_le

/-- States that the anchor of a state within the limits admits are within them. -/
theorem rimeSlotsWf_of_admits {s t : State} (hw : rimeSlotsWf s) (h : (anchorOf s).Admits (clockBanks t)) : rimeSlotsWf t := by
  obtain ⟨hd, hm, hc⟩ := hw
  have hn : (t.rime.banks.map (fun b => b.bank)).Nodup := h.distinct hd
  have hn' : ((computingBanks t).map (fun b => b.bank)).Nodup := hn.sublist (List.filter_sublist.map _)
  have hs : ∀ b ∈ computingBanks t, b.bank ∈ (computingBanks s).map (fun b => b.bank) := fun b hb =>
    h.computing b (List.mem_filter.1 hb).1 (List.mem_filter.1 hb).2
  refine ⟨hn, ?_, fun c => ?_⟩
  · simpa using (computing_filter_length_le (fun _ => true) hn' hs).trans (by simpa using hm)
  · exact (computing_filter_length_le (fun n => n / 32 == c) hn' hs).trans (hc c)

/-- The limits speak of the rime records alone, and so does a free slot. -/
theorem rimeSlotsWf_congr {s t : State} (e : clockBanks t = clockBanks s) : rimeSlotsWf t ↔ rimeSlotsWf s := by
  have hr : t.rime.banks = s.rime.banks := congrArg (fun v => v.2.2) e
  simp [rimeSlotsWf, computingBanks, hr]

theorem slotFree_congr {s t : State} (e :
    clockBanks t = clockBanks s) (bank : Nat) : slotFree t bank = slotFree s bank := by
  have hr : t.rime.banks = s.rime.banks := congrArg (fun v => v.2.2) e
  simp [slotFree, hr]

/-- A slot is free where the module and the channel have one (R22). -/
theorem slotFree_iff (s : State) (bank : Nat) :
    slotFree s bank = true ↔
      (computingBanks s).length < 1024 ∧ ((computingBanks s).filter (fun b => b.bank / 32 == bank / 32)).length < 8 := by
  simp [slotFree, computingBanks]

/-- With a record put in place, at most its bank computes besides those that did. -/
theorem computingBanks_setRimeBank_filter_length_le (s : State) (b : RimeBank) (p : RimeBank → Bool) :
    ((computingBanks (setRimeBank s b)).filter p).length ≤
      ((computingBanks s).filter p).length + if p b = true then 1 else 0 := by
  have hp : ((computingBanks (setRimeBank s b)).filter p).length =
      (((b :: s.rime.banks.filter (fun x => x.bank != b.bank)).filter (fun x => x.segment.isSome)).filter p).length :=
    (((setRimeBank_banks_perm s b).filter _).filter p).length_eq
  have hr : (((s.rime.banks.filter (fun x => x.bank != b.bank)).filter (fun x => x.segment.isSome)).filter p).length ≤
      ((computingBanks s).filter p).length := ((List.filter_sublist.filter _).filter p).length_le
  rw [hp, List.filter_cons]
  split
  · rw [List.filter_cons]
    split
    · simpa using hr
    · simpa using hr
  · exact hr.trans (Nat.le_add_right ..)

/-- A bank that takes a free slot leaves the module within the limits. -/
theorem rimeSlotsWf_setRimeBank {s : State} {b : RimeBank} (hw : rimeSlotsWf s) (hf : slotFree s b.bank = true) :
    rimeSlotsWf (setRimeBank s b) := by
  obtain ⟨hm, hc⟩ := (slotFree_iff s b.bank).1 hf
  obtain ⟨hd, -, hw⟩ := hw
  refine ⟨?_, ?_, fun c => ?_⟩
  · refine (((setRimeBank_banks_perm s b).map (fun x => x.bank)).nodup_iff).2 (List.nodup_cons.2 ⟨by simp, ?_⟩)
    exact hd.sublist (List.filter_sublist.map _)
  · have := computingBanks_setRimeBank_filter_length_le s b (fun _ => true)
    simp at this
    omega
  · have hl := computingBanks_setRimeBank_filter_length_le s b (fun x => x.bank / 32 == c)
    by_cases e : b.bank / 32 = c
    · subst e
      simp only [beq_self_eq_true, if_true] at hl
      omega
    · simp only [beq_iff_eq, e, if_false] at hl
      exact hl.trans (hw c)

/-- A segment starts only in a free slot. -/
theorem execRimeSegmentStart_rimeSlotsWf {s t : State} {bank : Nat} (hw : rimeSlotsWf s)
    (e : execRimeSegmentStart bank s = .next t) : rimeSlotsWf t := by
  obtain ⟨u, hu, hc⟩ | ⟨u, b, hu, hc, hf, rfl⟩ := execRimeSegmentStart_cases s bank
  · obtain rfl : u = t := by simpa using hu.symm.trans e
    exact (rimeSlotsWf_congr hc).2 hw
  · obtain rfl : setRimeBank u b = t := by simpa using hu.symm.trans e
    have hwu : rimeSlotsWf u :=
      (rimeSlotsWf_congr hc).2 (rimeSlotsWf_of_admits hw (chooseRequest_admits _ (anchorOf_admits s)))
    exact rimeSlotsWf_setRimeBank hwu ((slotFree_congr hc _).trans hf)

theorem exec_rimeSlotsWf (i : Instr) {s t : State} (hw : rimeSlotsWf s) (e : exec i s = .next t) : rimeSlotsWf t := by
  by_cases hp : ∃ straps, i = .auxPowerUp straps
  · obtain ⟨straps, rfl⟩ := hp
    obtain ⟨u, hu, hc⟩ := execAuxPowerUp_next straps s
    obtain rfl : u = t := by simpa using hu.symm.trans e
    have hr : u.rime.banks = s.rime.banks := by
      have := congrArg (fun v => v.2.2) hc
      split at this <;> exact this
    simpa [rimeSlotsWf, computingBanks, hr] using hw
  · by_cases hs : ∃ bank, i = .rimeSegmentStart bank
    · obtain ⟨bank, rfl⟩ := hs
      exact execRimeSegmentStart_rimeSlotsWf hw e
    · have hl : (anchorOf s).Leads (exec i s) :=
        exec_leads i (fun straps hi => hp ⟨straps, hi⟩) (fun bank hi => absurd ⟨bank, hi⟩ hs) (anchorOf_admits s)
      rw [e] at hl
      exact rimeSlotsWf_of_admits hw hl

/-- Without a free slot the start waits: its delay is counted (R202). -/
theorem execRimeSegmentStart_waits {s : State} {bank : Nat} (hseg : (rimeBank (chooseRequest s bank) bank).segment = none)
    (hcur : (rimeBank (chooseRequest s bank) bank).current ≠ none) (hen : rimeEnabled (chooseRequest s bank) bank = true)
    (hlen : 400 ≤ min (segmentLimit (chooseRequest s bank).health.refreshMult)
      (segmentDue (chooseRequest s bank) bank - (chooseRequest s bank).time.dtb))
    (hf : slotFree (chooseRequest s bank) bank = false) :
    execRimeSegmentStart bank s = .next { s with rime := { s.rime with slotWaits := s.rime.slotWaits + 1 } } := by
  obtain ⟨r, hr⟩ := Option.ne_none_iff_exists'.1 hcur
  unfold execRimeSegmentStart
  simp [hseg, hen, hr, hf, now, not_lt.2 hlen]

/-- A step is a tick, or the front command acts on the state with the queue's rest. -/
theorem step_cases {s t : State} (e : step s = .next t) :
    idle s = t ∨ ∃ c rest, exec c { s with pending := rest } = .next t := by
  unfold step at e
  split at e
  · exact .inl (by simpa using e)
  · exact .inr ⟨_, _, e⟩

/-! The statements. -/

/-- Settles O7: every command but AUX_POWER_UP keeps the boot count and the order of the DTB, and AUX_POWER_UP counts a boot. -/
theorem dtbNeverDecreases : Obligations.DtbNeverDecreases := by
  refine ⟨fun s t e => ?_, fun s straps hx => ?_⟩
  · obtain rfl | ⟨c, rest, e⟩ := step_cases e
    · have h := idle_admits (clockOf_admits s)
      exact .inl ⟨h.bootCount, h.dtb⟩
    · have h := exec_clock c e
      exact h
  · obtain ⟨t, e, hc⟩ := execAuxPowerUp_next straps s
    rw [if_neg (by simp [hx])] at hc
    simp only [clockBanks, Prod.mk.injEq] at hc
    obtain ⟨hb, hd, -⟩ := hc
    exact ⟨t, e, hd, hb, congrArg BitVec.toNat hb⟩

/-- Settles O56: a segment starts only in a free slot, and no other command lets a bank compute that did not. -/
theorem rimeConcurrencyLimit : Obligations.RimeConcurrencyLimit := by
  refine ⟨fun s t hw e => ?_, ⟨List.nodup_nil, by decide, fun _ => by simp [computingBanks, State.reset]⟩, ?_⟩
  · obtain rfl | ⟨c, rest, e⟩ := step_cases e
    · exact rimeSlotsWf_of_admits hw (idle_admits (anchorOf_admits s))
    · have hw' : rimeSlotsWf { s with pending := rest } := hw
      exact exec_rimeSlotsWf c hw' e
  · rintro s u bank len rfl hseg hcur hen rfl hlen hfull
    refine execRimeSegmentStart_waits hseg hcur hen hlen ?_
    rw [← Bool.not_eq_true, slotFree_iff]
    omega

end Sys2Proof.Machine

/-! SUPPORT. What the ascending maps of an index hold after local IDs were put into them, and which bits a DELETE changes (R37). -/

namespace Sys2Proof.Machine

open Sys2Proof

theorem mem_insertAsc {k n : Nat} {l : List Nat} : k ∈ insertAsc n l ↔ k = n ∨ k ∈ l := by
  induction l with
  | nil => simp [insertAsc]
  | cons x r ih =>
    simp only [insertAsc]
    split
    · simp
    · split
      next h => simp [beq_iff_eq.1 h]
      · simp only [List.mem_cons, ih, or_left_comm]

theorem mem_insertAllAsc {k : Nat} {ns l : List Nat} : k ∈ insertAllAsc ns l ↔ k ∈ ns ∨ k ∈ l := by
  unfold insertAllAsc
  induction ns generalizing l with
  | nil => simp
  | cons n r ih => simp only [List.foldl_cons, ih, mem_insertAsc, List.mem_cons, or_assoc, or_left_comm]

theorem mem_addIds {k : Nat} {ns l : List Nat} : k ∈ addIds ns l ↔ k ∈ ns ∨ k ∈ l := mem_insertAllAsc

theorem nodup_eraseDups (l : List Nat) : l.eraseDups.Nodup := by
  induction h : l.length using Nat.strong_induction_on generalizing l with
  | _ n ih =>
    cases l with
    | nil => simp
    | cons a r =>
      have hlen : (r.filter (fun b => !b == a)).length < n := by
        have := List.length_filter_le (fun b => !b == a) r
        simp only [List.length_cons] at h
        omega
      rw [List.eraseDups_cons, List.nodup_cons]
      exact ⟨by simp [List.mem_eraseDups], ih _ hlen _ rfl⟩

/-- The bits that change are those of the listed local IDs that the index can hold, that are present, and whose bit is clear. -/
theorem mem_kerfChanges {x : Index} {ids : List Word64} {k : Nat} :
    k ∈ kerfChanges x ids ↔ (k ∈ ids.map vidLocal ∧ localOk x.params k = true ∧ k ∈ x.presence) ∧ k ∉ x.kerf := by
  simp [kerfChanges, List.mem_eraseDups, and_assoc]

theorem nodup_kerfChanges (x : Index) (ids : List Word64) : (kerfChanges x ids).Nodup := (nodup_eraseDups _).filter _

/-- With the changed bits set, a bit is set that was set before or that a listed present local ID names. -/
theorem mem_addIds_kerfChanges {x : Index} {ids : List Word64} {k : Nat} :
    k ∈ addIds (kerfChanges x ids) x.kerf ↔
      k ∈ x.kerf ∨ k ∈ ids.map vidLocal ∧ localOk x.params k = true ∧ k ∈ x.presence := by
  rw [mem_addIds, mem_kerfChanges]
  tauto

/-- The changed bits are exactly those that are set after and were not before. -/
theorem mem_kerfChanges_iff_set {x : Index} {ids : List Word64} {k : Nat} :
    k ∈ kerfChanges x ids ↔ k ∈ addIds (kerfChanges x ids) x.kerf ∧ k ∉ x.kerf := by
  rw [mem_addIds]
  have : k ∈ kerfChanges x ids → k ∉ x.kerf := fun h => (mem_kerfChanges.1 h).2
  tauto

end Sys2Proof.Machine

/-! SUPPORT. What leaves the module when a completion is posted: its entry first, and whatever its interrupt adds after it (R258, R260,
R262). -/

namespace Sys2Proof.Machine

open Sys2Proof

@[simp] theorem queueOf_updIndex (s : State) (n : Nat) (f : Index → Index) (q : Nat) : queueOf (updIndex s n f) q = queueOf s q := rfl

@[simp] theorem runningCmd_updIndex (s : State) (n : Nat) (f : Index → Index) (q cid : Nat) :
    runningCmd (updIndex s n f) q cid = runningCmd s q cid := rfl

@[simp] theorem indexAt_startCmd (s : State) (q : Nat) (c : Cmd) (f : Cmd → Cmd) (n : Nat) :
    indexAt (startCmd s q c f) n = indexAt s n := by simp [indexAt]

theorem out_prefix_raiseVector (s : State) (fn v : Nat) : s.out <+: (raiseVector s fn v).out := by
  unfold raiseVector
  split
  · exact List.prefix_refl _
  · exact List.prefix_append _ _

theorem out_prefix_sendMsix (s : State) (q : Nat) : s.out <+: (sendMsix s q).out := by
  unfold sendMsix
  split
  · simpa using out_prefix_raiseVector (updQueue s q _) _ _
  · exact List.prefix_refl _

theorem out_prefix_afterCommit (s : State) (q : Nat) : s.out <+: (afterCommit s q).out := by
  unfold afterCommit
  split
  · split
    · exact List.prefix_refl _
    · dsimp only
      split
      · simpa using out_prefix_sendMsix (updQueue s q _) q
      · simp
  · exact List.prefix_refl _

/-- The completion entry that a posted record of an I/O queue gives (R262). -/
def postedEntry (s : State) (u : Queue) (q : Nat) (c : Cmd) (status result nacc ndiff : Nat) : Out :=
  .completion q u.cqTail (completionEntry result s.time.dtb c.cid c.sqHead q status nacc ndiff u.phase)

theorem out_prefix_commitEntry {s : State} {d : Deferred} {u : Queue} (hu : queueOf s d.q = some u) (hq : d.q ≠ adminQ) :
    s.out ++ [postedEntry s u d.q d.cmd d.status d.result d.nacc d.ndiff] <+: (commitEntry s d).out := by
  have hw : queueWrites s d.q = true := by simp [queueWrites, hq]
  simp only [commitEntry, hu, hw, if_true]
  refine List.IsPrefix.trans ?_ (out_prefix_afterCommit _ _)
  simp [countAfterDelete, emit, postedEntry, now]

/-- With the link up to serve queues, the entry of a record of an I/O queue follows what left the module before. -/
theorem out_prefix_postRecord {s : State} {q : Nat} {u : Queue} (c : Cmd) (status result nacc ndiff : Nat)
    (hu : queueOf s q = some u) (hq : q ≠ adminQ) (hl : s.link.degraded = false) :
    s.out ++ [postedEntry s u q c status result nacc ndiff] <+: (postRecord s q c status result nacc ndiff).out := by
  simp only [postRecord, hu, hl, Bool.false_eq_true, if_false]
  have h := out_prefix_commitEntry (s := updQueue s q (fun u => { u with cmds := removeFirst (fun x => x.seq == c.seq) u.cmds }))
    (d := { q := q, cmd := c, status := status, result := result, nacc := nacc, ndiff := ndiff })
    (by rw [queueOf_updQueue_same, hu]; rfl) hq
  simpa [postedEntry] using h

theorem phase_of_runningCmd {s : State} {q cid : Nat} {c : Cmd} (h : runningCmd s q cid = some c) : c.phase = .running := by
  unfold runningCmd at h
  split at h
  · have hfound : c.cid = cid ∧ c.phase = .running := by simpa using List.find?_some h
    exact hfound.2
  · contradiction

end Sys2Proof.Machine

/-! Rows: DELETE and the end of its journal write (R37, R55, R276). -/

namespace Sys2Proof.Machine

open Sys2Proof

/-- An I/O row whose command is found, with no Rsvd bit set, does its work. -/
theorem withIo_of_ioTakes {s : State} {q cid opcode : Nat} {c : Cmd} (h : ioTakes s q cid opcode c) (k : State → Cmd → State) :
    withIo s q cid opcode k = k s c := by
  obtain ⟨htake, hvalid⟩ := h
  simp [withIo, htake, hvalid]

/-- An index with the kerf bits of some local IDs set and a journal record of them (R37, R55). -/
def kerfed (s : State) (q : Nat) (c : Cmd) (ks : List Nat) (y : Index) : Index :=
  { y with
    kerf := addIds ks y.kerf
    journal := y.journal ++ [{ entries := [], kerfs := ks, q := q, cid := c.cid, ready := now s }] }

theorem kerfed_num (s : State) (q : Nat) (c : Cmd) (ks : List Nat) (y : Index) : (kerfed s q c ks y).num = y.num := rfl

/-- DELETE taken up: the command runs with the number of changed bits, and the index has the bits set. -/
def deleteStarted (s : State) (q : Nat) (c : Cmd) (n : Nat) (ks : List Nat) : State :=
  updIndex (startCmd s q c (fun d => { d with result := ks.length })) n (kerfed s q c ks)

theorem execDelete_of_ioTakes {s : State} {q cid : Nat} {ids : List Word64} {c : Cmd} {x : Index} (h : ioTakes s q cid 0x06 c)
    (hlen : cmdCount c.sqe ≤ ids.length) (hx : indexAt s (cmdIndex c.sqe) = some x) (hb : indexBusy x = false)
    (hids : ∀ v ∈ ids.take (cmdCount c.sqe), vidIndex v = cmdIndex c.sqe ∧ vidRsvd v = 0) :
    execDelete q cid ids s = .next (deleteStarted s q c (cmdIndex c.sqe) (kerfChanges x (ids.take (cmdCount c.sqe)))) := by
  have hst : indexStatus s (cmdIndex c.sqe) = stOk := by simp [indexStatus, hx, hb]
  have hfull : ¬ (ids.take (cmdCount c.sqe)).length < cmdCount c.sqe := by simp [hlen]
  have hall : (ids.take (cmdCount c.sqe)).findIdx? (fun v => vidIndex v != cmdIndex c.sqe || vidRsvd v != 0) = none :=
    List.findIdx?_eq_none_iff.2 fun v hv => by simp [hids v hv]
  unfold execDelete
  rw [withIo_of_ioTakes h]
  simp only [hst, hfull, hx, hall, bne_self_eq_false, Bool.false_eq_true, if_false]
  rfl

theorem deleteStarted_frame (s : State) (q : Nat) (c : Cmd) (n : Nat) (ks : List Nat) :
    deleteStarted s q c n ks =
      { s with queues := (deleteStarted s q c n ks).queues, indexes := (deleteStarted s q c n ks).indexes } := by
  unfold deleteStarted updIndex
  rw [startCmd_frame]

theorem indexAt_deleteStarted_same {s : State} {q : Nat} {c : Cmd} {n : Nat} {ks : List Nat} {x : Index} (hx : indexAt s n = some x) :
    indexAt (deleteStarted s q c n ks) n = some (kerfed s q c ks x) := by
  rw [deleteStarted, indexAt_updIndex_same _ _ _ (kerfed_num s q c ks), indexAt_startCmd, hx, Option.map_some]

theorem indexAt_deleteStarted_other {s : State} {q : Nat} {c : Cmd} {n m : Nat} {ks : List Nat} (hm : m ≠ n) :
    indexAt (deleteStarted s q c n ks) m = indexAt s m := by
  rw [deleteStarted, indexAt_updIndex_other _ _ _ _ (kerfed_num s q c ks) hm, indexAt_startCmd]

theorem queueOf_deleteStarted {s : State} {q : Nat} {c : Cmd} {n : Nat} {ks : List Nat} {u : Queue} (hu : queueOf s q = some u) :
    queueOf (deleteStarted s q c n ks) q = some { u with
      cmds := updateFirst (fun d => d.seq == c.seq) (fun d => { d with phase := .running, result := ks.length }) u.cmds } := by
  unfold deleteStarted startCmd
  rw [queueOf_updIndex, queueOf_updQueue_same, hu]
  rfl

/-- The end of a journal write that was not held posts the completion of its command with ST_OK and the command's result. -/
theorem execJournalWriteDone_of_running {s : State} {q cid : Nat} {c : Cmd} (hc : runningCmd s q cid = some c)
    (hu : startedUpdate c = true) (hj : journalHeld s q cid = false) :
    execJournalWriteDone q cid s = .next (progressCtx
      (postRecord (updIndex s (cmdIndex c.sqe) (markDurable q cid)) q c stOk c.result 0 0) (ctxOfQueue s q)) := by
  simp [execJournalWriteDone, postCompletion, hc, hu, hj]

/-- Settles O51: the changed bits are those of the listed present local IDs, each once, and the command carries their number to its
completion. -/
theorem deleteSetsKerfBits : Obligations.DeleteSetsKerfBits := by
  refine ⟨fun s q cid ids c x u htake hu hlen hx hb hids => ?_, fun s q cid c u hu hc hop hq hj hl => ?_⟩
  · exact ⟨_, _, kerfChanges x (ids.take (cmdCount c.sqe)), execDelete_of_ioTakes htake hlen hx hb hids, deleteStarted_frame ..,
      indexAt_deleteStarted_same hx, rfl, fun m hm => indexAt_deleteStarted_other hm, fun k => mem_addIds_kerfChanges,
      nodup_kerfChanges _ _, fun k => mem_kerfChanges_iff_set, queueOf_deleteStarted hu⟩
  · have hrun : startedUpdate c = true := by simp [startedUpdate, phase_of_runningCmd hc, hop]
    obtain ⟨r, hr⟩ := out_prefix_postRecord (s := updIndex s (cmdIndex c.sqe) (markDurable q cid)) c stOk c.result 0 0 hu hq hl
    exact ⟨_, r, execJournalWriteDone_of_running hc hrun hj, by simpa [postedEntry, progressCtx] using hr.symm⟩

end Sys2Proof.Machine

/-! SUPPORT. The tier map (R219), the staging area and the anti-rollback record (R395, R398) as one value; what holds of it
before a run and is kept by it, and the list operations that it goes through. -/

namespace Sys2Proof.Machine

open Sys2Proof

/-- The tier map, the staging area and the anti-rollback record of a state (R219, R396, R398). -/
def tierSec (s : State) : List Frame_ × Staging × Option ArbRecord := (s.tier.frames, s.sec.staging, s.sec.arb)

/-- What a run of operations may build on: whether the byte stores are canonical and the tier map is ordered before it, the
image that was staged then, and the floor that stood. -/
structure StageFloor where
  stored : Prop
  ordered : Prop
  image : Option FwImage
  svn : Nat

/-- The tier map keeps its order (R219); a staged image stood there before or reaches the floor, which has not fallen (R395, R398). -/
structure StageFloor.Holds (F : StageFloor) (v : List Frame_ × Staging × Option ArbRecord) : Prop where
  frames : F.ordered → (v.1.map (fun e => e.num)).Pairwise (· < ·)
  staged : ∀ f, v.2.1 = .image f → F.image = some f ∨ F.svn ≤ f.svn
  floor : F.svn ≤ (v.2.2.map (fun a => a.svnFloor)).getD 0

variable {F : StageFloor} {s : State}

@[simp] theorem tierSec_mk (a b c d e f g h i j t k x l m n o p q) :
    tierSec (State.mk a b c d e f g h i j t k x l m n o p q) = (t.frames, p.staging, p.arb) := rfl

@[simp] theorem frames_staging_arb_eq_tierSec : (s.tier.frames, s.sec.staging, s.sec.arb) = tierSec s := (rfl)

/-! Case distinctions and folds. -/

@[simp] theorem tierSec_ite (c : Prop) [Decidable c] (a b : State) :
    tierSec (if c then a else b) = if c then tierSec a else tierSec b := apply_ite ..

@[simp] theorem tierSec_ite_fst {α : Type} (c : Prop) [Decidable c] (a b : State × α) :
    tierSec (if c then a else b).1 = if c then tierSec a.1 else tierSec b.1 := by split <;> rfl

@[simp] theorem tierSec_foldl {α : Type} (f : State → α → State) (l : List α) (hf : ∀ t a, tierSec (f t a) = tierSec t)
    (s : State) : tierSec (l.foldl f s) = tierSec s := by
  induction l generalizing s with
  | nil => rfl
  | cons a r ih => exact (ih _).trans (hf s a)

theorem tierSec_foldl_fst {α β : Type} (f : State × β → α → State × β) (hf : ∀ t a, tierSec (f t a).1 = tierSec t.1)
    (l : List α) : ∀ t, tierSec (l.foldl f t).1 = tierSec t.1 := by
  induction l with
  | nil => intro t; rfl
  | cons a r ih => intro t; exact (ih _).trans (hf t a)

@[simp] theorem holds_ite (c : Prop) [Decidable c] (v w : List Frame_ × Staging × Option ArbRecord) :
    F.Holds (if c then v else w) ↔ if c then F.Holds v else F.Holds w := by split <;> rfl

/-- A fold of operations that keep what holds keeps it. -/
@[simp] theorem holds_foldl {α : Type} (f : State → α → State) (l : List α)
    (hf : ∀ t a, F.Holds (tierSec t) → F.Holds (tierSec (f t a))) (h : F.Holds (tierSec s)) : F.Holds (tierSec (l.foldl f s)) := by
  induction l generalizing s with
  | nil => exact h
  | cons a r ih => exact ih (hf s a h)

/-- The same of a fold that carries a value beside the state. -/
theorem holds_foldl_fst {α β : Type} (f : State × β → α → State × β)
    (hf : ∀ t a, F.Holds (tierSec t.1) → F.Holds (tierSec (f t a).1)) (l : List α) :
    ∀ t, F.Holds (tierSec t.1) → F.Holds (tierSec (l.foldl f t).1) := by
  induction l with
  | nil => intro t h; exact h
  | cons a r ih => intro t h; exact ih _ (hf t a h)

/-- A state with the same tier map, staging area and record. -/
theorem StageFloor.Holds.carry {t : State} (h : F.Holds (tierSec s)) (ht : t.tier.frames = s.tier.frames)
    (hs : t.sec.staging = s.sec.staging) (ha : t.sec.arb = s.sec.arb) : F.Holds (tierSec t) := by
  rw [tierSec, ht, hs, ha]
  exact h

/-! The tier map replaced: what is taken out, entries that keep their number, one entry, ascending entries (R219). -/

variable {l : List Frame_} {v : Staging × Option ArbRecord}

theorem StageFloor.Holds.reframe (h : F.Holds (l, v)) {m : List Frame_}
    (hm : F.ordered → (m.map (fun e => e.num)).Pairwise (· < ·)) :
    F.Holds (m, v) := ⟨hm, h.staged, h.floor⟩

@[simp] theorem holds_filter (p : Frame_ → Bool) (h : F.Holds (l, v)) : F.Holds (l.filter p, v) :=
  h.reframe (fun ho => (h.frames ho).sublist (List.filter_sublist.map _))

theorem holds_map (f : Frame_ → Frame_) (hf : ∀ e, (f e).num = e.num) (h : F.Holds (l, v)) : F.Holds (l.map f, v) :=
  h.reframe (fun ho => by simpa [Function.comp_def, hf] using h.frames ho)

/-- Ascending entries below an entry, and that entry before ascending ones. -/
theorem mem_putFrame {e x : Frame_} (hx : x ∈ putFrame l e) : x = e ∨ x ∈ l := by
  induction l with
  | nil => exact .inl (by simpa [putFrame] using hx)
  | cons a r ih =>
    simp only [putFrame] at hx
    split at hx
    · simpa using hx
    · split at hx
      · rcases List.mem_cons.1 hx with rfl | hx
        · exact .inl rfl
        · exact .inr (List.mem_cons_of_mem _ hx)
      · rcases List.mem_cons.1 hx with rfl | hx
        · exact .inr List.mem_cons_self
        · exact (ih hx).imp_right (List.mem_cons_of_mem _)

theorem putFrame_pairwise (e : Frame_) (h : l.Pairwise (fun a b => a.num < b.num)) :
    (putFrame l e).Pairwise (fun a b => a.num < b.num) := by
  induction l with
  | nil => simp [putFrame]
  | cons a r ih =>
    obtain ⟨ha, hr⟩ := List.pairwise_cons.1 h
    simp only [putFrame]
    split
    next hlt => exact List.pairwise_cons.2 ⟨by rintro b (_ | ⟨_, hb⟩); exacts [hlt, hlt.trans (ha b hb)], h⟩
    next hge =>
      split
      next heq =>
        have he : e.num = a.num := by simpa using heq
        exact List.pairwise_cons.2 ⟨fun b hb => he ▸ ha b hb, hr⟩
      next hne =>
        have he : e.num ≠ a.num := by simpa using hne
        refine List.pairwise_cons.2 ⟨fun b hb => ?_, ih hr⟩
        obtain rfl | hb := mem_putFrame hb
        · omega
        · exact ha b hb

@[simp] theorem holds_putFrame (e : Frame_) (h : F.Holds (l, v)) : F.Holds (putFrame l e, v) :=
  h.reframe (fun ho => List.pairwise_map.2 (putFrame_pairwise e (List.pairwise_map.1 (h.frames ho))))

theorem mem_mergeFrames {es : List Frame_} {x : Frame_} (hx : x ∈ mergeFrames l es) : x ∈ l ∨ x ∈ es := by
  induction l generalizing es with
  | nil => exact .inr hx
  | cons a r ih =>
    have rest : x ∈ mergeFrames r (es.filter (fun e => a.num < e.num)) → x ∈ a :: r ∨ x ∈ es := fun h =>
      (ih h).imp (List.mem_cons_of_mem _) (fun h => (List.mem_filter.1 h).1)
    simp only [mergeFrames] at hx
    split at hx
    next e he =>
      rcases List.mem_append.1 hx with hx | hx
      · exact .inr (List.mem_filter.1 hx).1
      · rcases List.mem_cons.1 hx with rfl | hx
        · exact .inr (List.mem_of_find?_eq_some he)
        · exact rest hx
    next =>
      rcases List.mem_append.1 hx with hx | hx
      · exact .inr (List.mem_filter.1 hx).1
      · rcases List.mem_cons.1 hx with rfl | hx
        · exact .inl List.mem_cons_self
        · exact rest hx

/-- Ascending entries merged into ascending entries are ascending. -/
theorem mergeFrames_pairwise {es : List Frame_} (h : l.Pairwise (fun a b => a.num < b.num))
    (hes : es.Pairwise (fun a b => a.num < b.num)) : (mergeFrames l es).Pairwise (fun a b => a.num < b.num) := by
  induction l generalizing es with
  | nil => exact hes
  | cons a r ih =>
    obtain ⟨ha, hr⟩ := List.pairwise_cons.1 h
    have high : ∀ b ∈ mergeFrames r (es.filter (fun e => a.num < e.num)), a.num < b.num := fun b hb => by
      rcases mem_mergeFrames hb with hb | hb
      · exact ha b hb
      · simpa using (List.mem_filter.1 hb).2
    have split (x : Frame_) (hx : x.num = a.num) :
        (es.filter (fun e => e.num < a.num) ++ x :: mergeFrames r (es.filter (fun e => a.num < e.num))).Pairwise
          (fun a b => a.num < b.num) := by
      refine List.pairwise_append.2 ⟨hes.filter _, List.pairwise_cons.2 ⟨fun b hb => hx ▸ high b hb, ih hr (hes.filter _)⟩, ?_⟩
      intro b hb c hc
      have hb : b.num < a.num := by simpa using (List.mem_filter.1 hb).2
      rcases List.mem_cons.1 hc with rfl | hc
      · exact hx ▸ hb
      · exact hb.trans (high c hc)
    simp only [mergeFrames]
    split
    next e he => exact split e (by simpa using List.find?_some he)
    next => exact split a rfl

/-- Ascending entries put in place keep the order. -/
theorem holds_mergeFrames {es : List Frame_} (h : F.Holds (l, v)) (hes : F.ordered → (es.map (fun e => e.num)).Pairwise (· < ·)) :
    F.Holds (mergeFrames l es, v) :=
  h.reframe (fun ho =>
    List.pairwise_map.2 (mergeFrames_pairwise (List.pairwise_map.1 (h.frames ho)) (List.pairwise_map.1 (hes ho))))

/-! The staging area replaced. -/

/-- A state with the same tier map and record whose staging area holds no image. -/
theorem StageFloor.Holds.unstage {t : State} (h : F.Holds (tierSec s)) (ht : t.tier.frames = s.tier.frames)
    (hs : ∀ f, t.sec.staging ≠ .image f) (ha : t.sec.arb = s.sec.arb) : F.Holds (tierSec t) := by
  rw [tierSec, ht, ha]
  exact ⟨h.frames, fun f e => absurd e (hs f), h.floor⟩

/-- A state that keeps what a run builds on: the canonical form of the stores, and what holds of tier map and staging area. -/
def StageFloor.Stands (F : StageFloor) (s : State) : Prop := (F.stored → storesWf s) ∧ F.Holds (tierSec s)

/-- An outcome whose next state keeps it. -/
def StageFloor.Leads (F : StageFloor) : Host.Outcome State Fault Refusal → Prop
  | .next t => F.Stands t
  | .fault _ => True
  | .refused _ => True

@[simp] theorem stageFloor_leads_next (t : State) : F.Leads (.next t) ↔ F.Stands t := Iff.rfl

@[simp] theorem stands_of_stored (hF : F.stored) : F.Stands s ↔ storesWf s ∧ F.Holds (tierSec s) := by simp [StageFloor.Stands, hF]

@[simp] theorem stands_of_not_stored (hF : ¬F.stored) : F.Stands s ↔ F.Holds (tierSec s) := by simp [StageFloor.Stands, hF]

/-- The two cases in which a row's proof goes through its operations: with the stores' canonical form, or without it. -/
theorem StageFloor.Stands.cases (h : F.Stands s) :
    ((F.stored ∧ storesWf s) ∧ F.Holds (tierSec s)) ∨ (¬F.stored ∧ F.Holds (tierSec s)) := by
  obtain ⟨hw, h⟩ := h
  by_cases hF : F.stored
  · exact .inl ⟨⟨hF, hw hF⟩, h⟩
  · exact .inr ⟨hF, h⟩

end Sys2Proof.Machine

/-! SUPPORT. What each shared operation does to the tier map, the staging area and the anti-rollback record: most leave the
value as it stands, the others keep what holds of it, one lemma each in the order of the model's definitions. -/

namespace Sys2Proof.Machine

open Sys2Proof

variable {F : StageFloor} {s : State}

@[simp] theorem advanceTo_tierSec (s : State) (t : Nat) : tierSec (advanceTo s t) = tierSec s := (rfl)

@[simp] theorem emit_tierSec (s : State) (o : Out) : tierSec (emit s o) = tierSec s := (rfl)

@[simp] theorem bumpFree_tierSec (s : State) : tierSec (bumpFree s) = tierSec s := (rfl)

@[simp] theorem updPair_tierSec (s : State) (q : Nat) (f : QPair → QPair) : tierSec (updPair s q f) = tierSec s := (rfl)

@[simp] theorem updQueue_tierSec (s : State) (q : Nat) (f : Queue → Queue) : tierSec (updQueue s q f) = tierSec s := by
  simp [updQueue]

@[simp] theorem updCmd_tierSec (s : State) (q cid : Nat) (f : Cmd → Cmd) : tierSec (updCmd s q cid f) = tierSec s := by
  simp [updCmd]

@[simp] theorem setBay_tierSec (s : State) (b : Nat) (v : Bay) : tierSec (setBay s b v) = tierSec s := (rfl)

@[simp] theorem updBay_tierSec (s : State) (b : Nat) (f : Bay → Bay) : tierSec (updBay s b f) = tierSec s := (rfl)

@[simp] theorem updCounters_tierSec (s : State) (b : Nat) (f : AdmCounters → AdmCounters) :
    tierSec (updCounters s b f) = tierSec s := (rfl)

@[simp] theorem updCtx_tierSec (s : State) (c : Nat) (f : Ctx → Ctx) : tierSec (updCtx s c f) = tierSec s := (rfl)

@[simp] theorem updPlan_tierSec (s : State) (h : Nat) (f : Plan → Plan) : tierSec (updPlan s h f) = tierSec s := (rfl)

@[simp] theorem updPeg_tierSec (s : State) (p : Nat) (f : Peg → Peg) : tierSec (updPeg s p f) = tierSec s := (rfl)

@[simp] theorem addPeg_tierSec (s : State) (p : Peg) : tierSec (addPeg s p) = tierSec s := (rfl)

@[simp] theorem updQuery_tierSec (s : State) (slot : Nat) (f : Query → Query) : tierSec (updQuery s slot f) = tierSec s := (rfl)

@[simp] theorem updIndex_tierSec (s : State) (n : Nat) (f : Index → Index) : tierSec (updIndex s n f) = tierSec s := (rfl)

@[simp] theorem setFrame_holds (e : Frame_) (h : F.Holds (tierSec s)) : F.Holds (tierSec (setFrame s e)) := by
  unfold setFrame
  dsimp only
  split
  · exact holds_filter _ h
  · exact holds_putFrame _ (holds_filter _ h)

@[simp] theorem setFrame_frames_holds (e : Frame_) (h : F.Holds (tierSec s)) :
    F.Holds ((setFrame s e).tier.frames, s.sec.staging, s.sec.arb) := by
  simpa [tierSec] using setFrame_holds e h

theorem setFrames_holds (es : List Frame_) (hes : F.ordered → (es.map (fun e => e.num)).Pairwise (· < ·)) (h : F.Holds (tierSec s)) :
    F.Holds (tierSec (setFrames s es)) := holds_mergeFrames h hes

@[simp] theorem updFrame_holds (d : Nat) (f : Frame_ → Frame_) (h : F.Holds (tierSec s)) : F.Holds (tierSec (updFrame s d f)) :=
  setFrame_holds _ h

@[simp] theorem updLinkCounters_tierSec (s : State) (fn : Nat) (f : LinkCounters → LinkCounters) :
    tierSec (updLinkCounters s fn f) = tierSec s := (rfl)

@[simp] theorem setDomain_tierSec (s : State) (d : Domain) : tierSec (setDomain s d) = tierSec s := (rfl)

@[simp] theorem setDict_tierSec (s : State) (i j v : Nat) : tierSec (setDict s i j v) = tierSec s := (rfl)

@[simp] theorem raiseVector_tierSec (s : State) (fn v : Nat) : tierSec (raiseVector s fn v) = tierSec s := by
  simp [raiseVector]

@[simp] theorem sendMsix_tierSec (s : State) (q : Nat) : tierSec (sendMsix s q) = tierSec s := by
  rw [sendMsix_frame]; rfl

@[simp] theorem afterCommit_tierSec (s : State) (q : Nat) : tierSec (afterCommit s q) = tierSec s := by
  rw [afterCommit_frame]; rfl

@[simp] theorem countAfterDelete_tierSec (s : State) (q : Nat) : tierSec (countAfterDelete s q) = tierSec s := (rfl)

@[simp] theorem commitEntry_tierSec (s : State) (d : Deferred) : tierSec (commitEntry s d) = tierSec s := by
  rw [commitEntry_frame]; rfl

@[simp] theorem postRecord_tierSec (s : State) (q : Nat) (c : Cmd) (status result nacc ndiff : Nat) :
    tierSec (postRecord s q c status result nacc ndiff) = tierSec s := by
  rw [postRecord_frame]; rfl

@[simp] theorem commitDeferred_tierSec (s : State) : tierSec (commitDeferred s) = tierSec s := by
  simp [commitDeferred]

@[simp] theorem dropDeferred_tierSec (s : State) : tierSec (dropDeferred s) = tierSec s := (rfl)

@[simp] theorem postCompletion_tierSec (s : State) (q cid status result : Nat) :
    tierSec (postCompletion s q cid status result) = tierSec s := by
  unfold postCompletion
  split <;> simp

@[simp] theorem startCmd_tierSec (s : State) (q : Nat) (c : Cmd) (f : Cmd → Cmd) : tierSec (startCmd s q c f) = tierSec s := by
  simp [startCmd]

@[simp] theorem endCmd_tierSec (s : State) (q : Nat) (c : Cmd) (status result : Nat) :
    tierSec (endCmd s q c status result) = tierSec s := by
  simp [endCmd]

@[simp] theorem sendFrame_tierSec (s : State) (dest : Nat) (h : BitVec 256) (v : Bytes) :
    tierSec (sendFrame s dest h v) = tierSec s := (rfl)

@[simp] theorem emitEvent_tierSec (s : State) (seq : BitVec 16) (retx : Bool) (code : Nat) (data : Word64) :
    tierSec (emitEvent s seq retx code data) = tierSec s := (rfl)

@[simp] theorem sendEvent_tierSec (s : State) (code : Nat) (data : Word64) : tierSec (sendEvent s code data) = tierSec s := (rfl)

@[simp] theorem refreshAlert_tierSec (s : State) : tierSec (refreshAlert s) = tierSec s := (rfl)

@[simp] theorem logEntry_tierSec (s : State) (cls sev unit detail : Nat) (ctx : Option (Nat × Nat)) :
    tierSec (logEntry s cls sev unit detail ctx) = tierSec s := by
  rw [logEntry_frame]; rfl

@[simp] theorem logError_tierSec (s : State) (cls unit detail : Nat) (ctx : Option (Nat × Nat)) :
    tierSec (logError s cls unit detail ctx) = tierSec s :=
  logEntry_tierSec s cls _ unit detail ctx

@[simp] theorem raiseEvent_tierSec (s : State) (code : Nat) (data : Word64) : tierSec (raiseEvent s code data) = tierSec s :=
  (rfl)

@[simp] theorem logMoraine_tierSec (s : State) (kind unit : Nat) (v0 v1 v2 v3 limit : Word32) :
    tierSec (logMoraine s kind unit v0 v1 v2 v3 limit) = tierSec s := by
  rw [logMoraine_frame, tierSec_mk, frames_staging_arb_eq_tierSec]

@[simp] theorem refreshLevel_tierSec (s : State) (g : Nat) : tierSec (refreshLevel s g) = tierSec s := by
  simp [refreshLevel]

@[simp] theorem refreshLevels_tierSec (s : State) : tierSec (refreshLevels s) = tierSec s := by
  simp [refreshLevels]

@[simp] theorem wakeOne_tierSec (s : State) (n source : Nat) : tierSec (wakeOne s n source) = tierSec s := by
  rw [wakeOne_frame]; rfl

@[simp] theorem startWake_tierSec (s : State) (n source : Nat) : tierSec (startWake s n source) = tierSec s := by
  simp [startWake]

@[simp] theorem rouseMgmt_tierSec (s : State) (source : Nat) : tierSec (rouseMgmt s source) = tierSec s := by
  simp [rouseMgmt]

@[simp] theorem needDomains_tierSec (s : State) (ds : List Nat) : tierSec (needDomains s ds) = tierSec s := by
  simp [needDomains]

@[simp] theorem wakeCapped_tierSec (s : State) : tierSec (wakeCapped s) = tierSec s := by simp [wakeCapped]

@[simp] theorem writeHeader_tierSec (s : State) (q cid pos : Nat) (h : Header) :
    tierSec (writeHeader s q cid pos h) = tierSec s := by
  simp [writeHeader]

@[simp] theorem dropQueries_tierSec (s : State) (p : Query → Bool) : tierSec (dropQueries s p) = tierSec s := (rfl)

@[simp] theorem dropQuery_tierSec (s : State) (slot : Nat) : tierSec (dropQuery s slot) = tierSec s := (rfl)

@[simp] theorem endQuery_tierSec (s : State) (x : Query) (h : Header) : tierSec (endQuery s x h) = tierSec s := by
  simp [endQuery]

@[simp] theorem failQuery_tierSec (s : State) (x : Query) (status : Nat) : tierSec (failQuery s x status) = tierSec s := by
  simp [failQuery]

@[simp] theorem progressCtx_tierSec (s : State) (c : Nat) : tierSec (progressCtx s c) = tierSec s := (rfl)

@[simp] theorem dropBatch_tierSec (s : State) (q cid : Nat) : tierSec (dropBatch s q cid) = tierSec s := (rfl)

@[simp] theorem postBatch_tierSec (s : State) (q cid : Nat) : tierSec (postBatch s q cid) = tierSec s := by
  rw [postBatch_frame]; rfl

@[simp] theorem abandonCmd_tierSec (s : State) (q : Nat) (c : Cmd) (result : Nat) :
    tierSec (abandonCmd s q c result) = tierSec s := by
  unfold abandonCmd
  dsimp only
  (repeat' split) <;> simp

@[simp] theorem settleNotice_tierSec (s : State) (b : Nat) : tierSec (settleNotice s b) = tierSec s := by
  unfold settleNotice
  split <;> simp

@[simp] theorem endWait_tierSec (s : State) (w : PegWait) (status : Nat) : tierSec (endWait s w status) = tierSec s := by
  simp [endWait]

@[simp] theorem serveWait_tierSec (s : State) (w : PegWait) (status : Nat) : tierSec (serveWait s w status) = tierSec s := by
  simp [serveWait]

@[simp] theorem pegTurn_tierSec (s : State) (p port : Nat) : tierSec (pegTurn s p port) = tierSec s := by simp [pegTurn]

@[simp] theorem takePeg_tierSec (s : State) (p ctx : Nat) : tierSec (takePeg s p ctx) = tierSec s := (rfl)

@[simp] theorem wakeWaitingCuts_tierSec (s : State) (p : Nat) (v : Word64) : tierSec (wakeWaitingCuts s p v) = tierSec s := by
  refine tierSec_foldl _ _ (fun t x => ?_) s
  split <;> simp

@[simp] theorem settlePeg_tierSec (s : State) (p : Nat) : tierSec (settlePeg s p) = tierSec s := by
  unfold settlePeg
  dsimp only
  (repeat' split) <;> simp

@[simp] theorem breakPeg_tierSec (s : State) (p : Nat) : tierSec (breakPeg s p) = tierSec s := by
  simp [breakPeg]

@[simp] theorem breakHeld_tierSec (s : State) (ctx : Nat) : tierSec (breakHeld s ctx) = tierSec s := by
  simp [breakHeld]

@[simp] theorem endRunsOnPeg_tierSec (s : State) (p status : Nat) : tierSec (endRunsOnPeg s p status) = tierSec s := by
  simp [endRunsOnPeg]

@[simp] theorem freePeg_tierSec (s : State) (p : Nat) : tierSec (freePeg s p) = tierSec s := by
  simp [freePeg]

@[simp] theorem freePegsOf_tierSec (s : State) (ctx : Nat) : tierSec (freePegsOf s ctx) = tierSec s := by
  simp [freePegsOf]

@[simp] theorem raisePeg_tierSec (s : State) (p : Nat) : tierSec (raisePeg s p) = tierSec s := by
  simp [raisePeg]

@[simp] theorem signalPeg_tierSec (s : State) (port p : Nat) : tierSec (signalPeg s port p) = tierSec s := by simp [signalPeg]

@[simp] theorem pegSetOp_tierSec (s : State) (ctx p : Nat) (v : Word64) : tierSec (pegSetOp s ctx p v).1 = tierSec s := by
  unfold pegSetOp
  split <;> simp

@[simp] theorem pegAddOp_tierSec (s : State) (ctx p : Nat) (v : Word64) : tierSec (pegAddOp s ctx p v).1 = tierSec s := by
  unfold pegAddOp
  split <;> simp

@[simp] theorem pegTestOp_tierSec (s : State) (ctx p : Nat) (kind : WaitKind) (v : Word64) :
    tierSec (pegTestOp s ctx p kind v).1 = tierSec s := by
  unfold pegTestOp
  split <;> simp

@[simp] theorem pegAcquireOp_tierSec (s : State) (ctx p : Nat) : tierSec (pegAcquireOp s ctx p).1 = tierSec s := by
  unfold pegAcquireOp
  split <;> simp

@[simp] theorem pegReleaseOp_tierSec (s : State) (ctx p : Nat) (v : Word64) : tierSec (pegReleaseOp s ctx p v).1 = tierSec s := by
  unfold pegReleaseOp
  split <;> simp

@[simp] theorem pegOp_tierSec (op : Nat) (s : State) (ctx p : Nat) (v : Word64) : tierSec (pegOp op s ctx p v).1 = tierSec s := by
  unfold pegOp
  split <;> simp

@[simp] theorem beginWait_tierSec (s : State) (q : Nat) (c : Cmd) (ctx p : Nat) (kind : WaitKind) (v : Word64) :
    tierSec (beginWait s q c ctx p kind v) = tierSec s := by
  simp [beginWait]

@[simp] theorem markDirty_holds (d sector : Nat) (h : F.Holds (tierSec s)) : F.Holds (tierSec (markDirty s d sector)) := by
  simp [markDirty, h]

@[simp] theorem refreshPoison_holds (d : Nat) (h : F.Holds (tierSec s)) : F.Holds (tierSec (refreshPoison s d)) := by
  simp [refreshPoison, h]

@[simp] theorem setMoved_tierSec (s : State) (p : Nat → Bool) : tierSec (setMoved s p) = tierSec s := by
  unfold setMoved
  split <;> simp

@[simp] theorem moveWritten_tierSec (s : State) (d off n : Nat) : tierSec (moveWritten s d off n) = tierSec s := by
  simp [moveWritten]

@[simp] theorem frameWrite_holds (d off : Nat) (bs : Bytes) (h : F.Holds (tierSec s)) :
    F.Holds (tierSec (frameWrite s d off bs)) := by
  unfold frameWrite
  dsimp only
  (repeat' split) <;> simp +contextual [h]

@[simp] theorem backInvalidate_tierSec (s : State) (line : Nat) : tierSec (backInvalidate s line) = tierSec s := by
  simp [backInvalidate]

@[simp] theorem backInvalidateRange_tierSec (s : State) (addr n : Nat) : tierSec (backInvalidateRange s addr n) = tierSec s := by
  simp [backInvalidateRange]

@[simp] theorem nowSpecified_tierSec (s : State) (sector : Nat) : tierSec (nowSpecified s sector) = tierSec s := (rfl)

@[simp] theorem rewriteBlocks_tierSec (s : State) (a n : Nat) : tierSec (rewriteBlocks s a n) = tierSec s := (rfl)

@[simp] theorem pageWrite_holds (a : Nat) (bs : Bytes) (h : F.Holds (tierSec s)) : F.Holds (tierSec (pageWrite s a bs)) := by
  unfold pageWrite
  split <;> simp [h]

@[simp] theorem clearFrame_tierSec (s : State) (d : Nat) : tierSec (clearFrame s d) = tierSec s := (rfl)

@[simp] theorem sweepPast_holds (b : Nat) (v : Frame_) (h : F.Holds (tierSec s)) : F.Holds (tierSec (sweepPast s b v)) :=
  holds_foldl _ _ (fun t e ht => by simp [ht]) h

@[simp] theorem freeFrame_holds (d : Nat) (h : F.Holds (tierSec s)) : F.Holds (tierSec (freeFrame s d)) := by
  unfold freeFrame
  dsimp only
  split <;> simp [h]

@[simp] theorem startWriteback_holds (d : Nat) (h : F.Holds (tierSec s)) : F.Holds (tierSec (startWriteback s d)) := by
  simp [startWriteback, h]

@[simp] theorem endWriteback_holds (d group slot : Nat) (h : F.Holds (tierSec s)) :
    F.Holds (tierSec (endWriteback s d group slot)) := by simp [endWriteback, h]

@[simp] theorem writeHome_holds (d group slot : Nat) (h : F.Holds (tierSec s)) :
    F.Holds (tierSec (writeHome s d group slot)) := by simp [writeHome, h]

@[simp] theorem releaseCopies_tierSec (s : State) (page : Nat) : tierSec (releaseCopies s page) = tierSec s := by
  simp [releaseCopies]

@[simp] theorem finishWriteback_holds (d : Nat) (h : F.Holds (tierSec s)) : F.Holds (tierSec (finishWriteback s d)) := by
  simp (disch := simp [h]) [finishWriteback, h]

@[simp] theorem cleanFrame_holds (d : Nat) (h : F.Holds (tierSec s)) : F.Holds (tierSec (cleanFrame s d)) := by
  simp [cleanFrame, h]

@[simp] theorem touchPage_holds (page hint : Nat) (h : F.Holds (tierSec s)) : F.Holds (tierSec (touchPage s page hint)) := by
  unfold touchPage
  split <;> simp [h]

@[simp] theorem fillSector_holds (d sector : Nat) (h : F.Holds (tierSec s)) : F.Holds (tierSec (fillSector s d sector)) := by
  simp [fillSector, h]

@[simp] theorem poisonSector_holds (d sector : Nat) (h : F.Holds (tierSec s)) : F.Holds (tierSec (poisonSector s d sector)) := by
  simp [poisonSector, h]

@[simp] theorem poisonDev_holds (a : Nat) (h : F.Holds (tierSec s)) : F.Holds (tierSec (poisonDev s a)) := by
  unfold poisonDev
  split <;> simp [h]

@[simp] theorem finishFill_holds (d : Nat) (h : F.Holds (tierSec s)) : F.Holds (tierSec (finishFill s d)) :=
  holds_foldl _ _ (fun t e ht => by simp [ht]) h

@[simp] theorem setBankHealth_tierSec (s : State) (v : BankHealth) : tierSec (setBankHealth s v) = tierSec s := (rfl)

@[simp] theorem noteCorrected_tierSec (s : State) (bank row : Nat) : tierSec (noteCorrected s bank row) = tierSec s := (rfl)

@[simp] theorem readBlock_holds (a : Nat) (wrong : List (Nat × Byte)) (h : F.Holds (tierSec s)) :
    F.Holds (tierSec (readBlock s a wrong).1) := by
  unfold readBlock
  split <;> simp [h]

@[simp] theorem dramRead_holds (a n : Nat) (wrong : List (Nat × Nat × Byte)) (h : F.Holds (tierSec s)) :
    F.Holds (tierSec (dramRead s a n wrong).1) := by
  refine holds_foldl _ _ (fun t p ht => by simp [ht]) (holds_foldl_fst _ (fun t k ht => ?_) _ (s, [], false) h)
  simp [ht]

@[simp] theorem freeBlock_tierSec (s : State) : tierSec (freeBlock s).1 = tierSec s := (rfl)

@[simp] theorem answerRead_holds (a : Nat) (wrong : List (Nat × Byte)) (h : F.Holds (tierSec s)) :
    F.Holds (tierSec (answerRead s a wrong)) := by simp [answerRead, h]

@[simp] theorem hostWrite_holds (a : Nat) (bs : Bytes) (h : F.Holds (tierSec s)) : F.Holds (tierSec (hostWrite s a bs)) := by
  simp [hostWrite, h]

@[simp] theorem serveAccess_holds (w : Nat × Option Bytes) (h : F.Holds (tierSec s)) : F.Holds (tierSec (serveAccess s w)) := by
  unfold serveAccess
  split <;> simp [h]

@[simp] theorem serveReady_holds (h : F.Holds (tierSec s)) : F.Holds (tierSec (serveReady s)) := by
  unfold serveReady
  dsimp only
  (repeat' split) <;> simp +contextual [h]

@[simp] theorem freeCustody_holds (page : Nat) (h : F.Holds (tierSec s)) : F.Holds (tierSec (freeCustody s page)) := by
  unfold freeCustody
  split <;> simp [h]

theorem evictOne_holds (b : Nat) (h : F.Holds (tierSec s)) {t : State} (e : evictOne s b = some t) : F.Holds (tierSec t) := by
  unfold evictOne at e
  split at e
  · obtain rfl := Option.some.inj e
    exact freeFrame_holds _ (cleanFrame_holds _ (sweepPast_holds _ _ h))
  · split at e
    · obtain rfl := Option.some.inj e
      exact finishWriteback_holds _ h
    · obtain ⟨e, -, rfl⟩ := Option.map_eq_some_iff.mp e
      simp [h]

theorem makeRoomFuel_holds (b n k : Nat) {s : State} (h : F.Holds (tierSec s)) : F.Holds (tierSec (makeRoomFuel b n k s)) := by
  induction k generalizing s with
  | zero => exact h
  | succ k ih =>
    simp only [makeRoomFuel]
    (repeat' split)
    · exact h
    next t e => exact ih (evictOne_holds b h e)
    · exact h

@[simp] theorem makeRoom_holds (b n : Nat) (h : F.Holds (tierSec s)) : F.Holds (tierSec (makeRoom s b n)) :=
  makeRoomFuel_holds b n _ h

@[simp] theorem takeFrame_holds (b : Nat) (h : F.Holds (tierSec s)) : F.Holds (tierSec (takeFrame s b).1) := by
  unfold takeFrame
  dsimp only
  (repeat' split) <;> simp [h]

@[simp] theorem faultPage_holds (page hint sector : Nat) (h : F.Holds (tierSec s)) :
    F.Holds (tierSec (faultPage s page hint sector)) := by
  unfold faultPage
  dsimp only
  (repeat' split) <;> simp [h]

@[simp] theorem fillPage_holds (page hint : Nat) (h : F.Holds (tierSec s)) : F.Holds (tierSec (fillPage s page hint)) := by
  unfold fillPage
  dsimp only
  (repeat' split) <;> simp (disch := simp [h]) [h]

@[simp] theorem bringPiece_holds (page : Nat) (h : F.Holds (tierSec s)) : F.Holds (tierSec (bringPiece s page)) := by
  unfold bringPiece
  (repeat' split) <;> simp [h]

theorem bringFuel_holds (k page hint : Nat) {s : State} (h : F.Holds (tierSec s)) : F.Holds (tierSec (bringFuel k s page hint)) := by
  induction k generalizing s with
  | zero => exact h
  | succ k ih =>
    simp only [bringFuel]
    split
    · simp [h]
    · split
      next t e =>
        obtain ⟨r, -, e⟩ := Option.bind_eq_some_iff.mp e
        exact ih (evictOne_holds _ (by simp [h]) e)
      · simp [h]

@[simp] theorem bringPage_holds (page hint : Nat) (h : F.Holds (tierSec s)) : F.Holds (tierSec (bringPage s page hint)) :=
  bringPiece_holds _ (bringFuel_holds _ _ _ h)

theorem devWriteFuel_holds (hint k a : Nat) (bs : Bytes) {s : State} (h : F.Holds (tierSec s)) :
    F.Holds (tierSec (devWriteFuel hint k s a bs)) := by
  induction k generalizing s a bs with
  | zero => exact h
  | succ k ih =>
    simp only [devWriteFuel]
    split
    · exact h
    · exact ih _ _ (touchPage_holds _ _ (pageWrite_holds _ _ (bringPage_holds _ _ h)))

@[simp] theorem devWriteHint_holds (hint a : Nat) (bs : Bytes) (h : F.Holds (tierSec s)) :
    F.Holds (tierSec (devWriteHint s hint a bs)) := by
  unfold devWriteHint
  exact devWriteFuel_holds hint _ a bs (by simp [h])

@[simp] theorem devWrite_holds (a : Nat) (bs : Bytes) (h : F.Holds (tierSec s)) : F.Holds (tierSec (devWrite s a bs)) := by
  simp [devWrite, h]

@[simp] theorem pinPage_holds (page : Nat) (h : F.Holds (tierSec s)) : F.Holds (tierSec (pinPage s page)) := by
  unfold pinPage
  dsimp only
  split <;> simp [h]

@[simp] theorem unpinPage_holds (page : Nat) (h : F.Holds (tierSec s)) : F.Holds (tierSec (unpinPage s page)) := by
  unfold unpinPage
  split <;> simp [h]

@[simp] theorem dropLocal_holds (fs : List Nat) (h : F.Holds (tierSec s)) : F.Holds (tierSec (dropLocal s fs)) :=
  holds_foldl _ _ (fun t d ht => setFrame_holds _ ht) (holds_filter _ h)
/-! Ascending descriptors (R219, R222). -/

theorem map_fst_zip_sublist {α β : Type} (l : List α) (m : List β) : ((l.zip m).map Prod.fst).Sublist l := by
  induction l generalizing m with
  | nil => simp
  | cons a l ih => cases m <;> simp [ih]

theorem freeRun_ascends (s : State) (k d n : Nat) : (freeRun s k d n).Pairwise (· < ·) ∧ ∀ x ∈ freeRun s k d n, d ≤ x := by
  induction k generalizing d n with
  | zero => simp [freeRun]
  | succ k ih =>
    simp only [freeRun]
    (repeat' split)
    · simp
    · obtain ⟨hp, hm⟩ := ih (d + 1) (n - 1)
      exact ⟨List.pairwise_cons.2 ⟨hm, hp⟩, fun x hx => by
        rcases List.mem_cons.1 hx with rfl | hx
        · exact le_rfl
        · exact (Nat.le_succ d).trans (hm x hx)⟩
    · exact ⟨(ih (d + 1) n).1, fun x hx => (Nat.le_succ d).trans ((ih (d + 1) n).2 x hx)⟩

theorem lowestFreeFrames_pairwise (h : F.Holds (tierSec s)) (ho : F.ordered) (n : Nat) : (lowestFreeFrames s n).Pairwise (· < ·) := by
  have hlow : (freeLow s).Pairwise (· < ·) := (h.frames ho).sublist (List.filter_sublist.map _)
  refine List.pairwise_append.2 ⟨hlow.sublist (List.take_sublist _ _), (freeRun_ascends s _ _ _).1, fun a ha b hb => ?_⟩
  have ha : a < 4096 := by
    obtain ⟨e, he, rfl⟩ := List.mem_map.1 (List.mem_of_mem_take ha)
    simpa using (And.left (by simpa using (List.mem_filter.1 he).2 : e.num < 4096 ∧ _))
  exact ha.trans_le ((freeRun_ascends s _ _ _).2 b hb)

@[simp] theorem fillDramRegion_holds (r : Region) (h : F.Holds (tierSec s)) : F.Holds (tierSec (fillDramRegion s r)) := by
  unfold fillDramRegion
  extract_lets s1 ds s2
  have h1 : F.Holds (tierSec s1) := by
    simp only [s1]
    split <;> simp [h]
  refine setFrames_holds _ (fun ho => ?_) (holds_foldl _ _ (fun t d ht => by simpa using ht) h1)
  rw [List.map_map]
  exact (lowestFreeFrames_pairwise h1 ho r.pages).sublist (by
    have e : List.map ((fun (e : Frame_) => e.num) ∘ fun (e : Nat × Nat) =>
        ({ num := e.1, state := .dram, page := r.base + e.2, bay := r.bay } : Frame_)) (ds.zip (List.range r.pages)) =
        (ds.zip (List.range r.pages)).map Prod.fst := rfl
    rw [e]
    exact map_fst_zip_sublist _ _)

/-- Descriptors listed set by set, ascending in each, are ascending when the sets are. -/
theorem flatMap_sets_pairwise {α : Type} {l : List α} (g : α → Nat) (f : α → List Nat) (hl : (l.map g).Pairwise (· < ·))
    (hf : ∀ a, (f a).Pairwise (· < ·)) (hb : ∀ a, ∀ x ∈ f a, x / 4096 = g a) : (l.flatMap f).Pairwise (· < ·) := by
  refine List.pairwise_flatMap.2 ⟨fun a _ => hf a, (List.pairwise_map.1 hl).imp fun {a b} hab x hx y hy => ?_⟩
  have hx := hb a x hx
  have hy := hb b y hy
  omega

/-- Descriptors of one set, taken in order. -/
theorem set_descriptors_pairwise (k : Nat) (p : Nat → Bool) :
    (((List.range 4096).filter p).map (fun x => 4096 * k + x)).Pairwise (· < ·) :=
  List.pairwise_map.2 ((List.pairwise_lt_range.filter p).imp fun h => by omega)

theorem div_of_mem_set_descriptors {k d : Nat} {p : Nat → Bool} (h : d ∈ ((List.range 4096).filter p).map (fun x => 4096 * k + x)) :
    d / 4096 = k := by
  obtain ⟨x, hx, rfl⟩ := List.mem_map.1 h
  have hx := List.mem_range.1 (List.mem_filter.1 hx).1
  omega

theorem freeSets_pairwise (s : State) (n : Nat) : (freeSets s n).Pairwise (· < ·) :=
  (List.pairwise_lt_range.filter _).sublist (List.take_sublist _ _)

theorem makeLocal_holds {fs : List Nat} (hfs : fs.Pairwise (· < ·)) (h : F.Holds (tierSec s)) : F.Holds (tierSec (makeLocal s fs)) := by
  refine setFrames_holds _ (fun _ => ?_) (holds_filter _ h)
  have e (f : Nat) : ((List.range 4096).filterMap (fun x => if (outChannels s).contains (x / 32) then
      some ({ num := 4096 * f + x, state := .spare } : Frame_) else none)).map (fun e => e.num) =
      ((List.range 4096).filter (fun x => (outChannels s).contains (x / 32))).map (fun x => 4096 * f + x) := by
    generalize List.range 4096 = l
    induction l with
    | nil => rfl
    | cons a l ih => by_cases ha : (outChannels s).contains (a / 32) <;> simp_all
  simp only [List.map_flatMap, e]
  exact flatMap_sets_pairwise (fun f => f) _ (by simpa using hfs) (fun f => set_descriptors_pairwise f _)
    (fun f d hd => div_of_mem_set_descriptors hd)

@[simp] theorem fillLocalRegion_holds (r : Region) (h : F.Holds (tierSec s)) : F.Holds (tierSec (fillLocalRegion s r)) := by
  unfold fillLocalRegion
  extract_lets n s0 fs s1 out piece mine s2 moved
  have h0 : F.Holds (tierSec s0) := by
    simp only [s0]
    split <;> simp [h]
  have hfs : fs.Pairwise (· < ·) := freeSets_pairwise _ _
  refine holds_foldl _ _ (fun t e ht => by simp [ht]) (setFrames_holds _ (fun _ => ?_) (makeLocal_holds hfs h0))
  simp only [mine, List.map_flatMap, List.map_map]
  exact flatMap_sets_pairwise Prod.fst _ ((hfs.sublist (List.take_sublist _ _)).sublist (map_fst_zip_sublist _ _))
    (fun e => set_descriptors_pairwise e.1 _) (fun e d hd => div_of_mem_set_descriptors hd)

@[simp] theorem takeLeafFrame_holds (h : F.Holds (tierSec s)) : F.Holds (tierSec (takeLeafFrame s).1) := by
  unfold takeLeafFrame
  split
  · exact h
  · split
    next t e =>
      obtain ⟨b, -, e⟩ := List.exists_of_findSome?_eq_some e
      obtain ⟨v, -, e⟩ := Option.bind_eq_some_iff.mp e
      exact evictOne_holds _ h e
    · exact h

@[simp] theorem putLeaf_tierSec (s : State) (l : Leaf) : tierSec (putLeaf s l) = tierSec s := (rfl)

@[simp] theorem addLeaf_holds (seg : Nat) (h : F.Holds (tierSec s)) : F.Holds (tierSec (addLeaf s seg)) := by
  unfold addLeaf
  dsimp only
  (repeat' split) <;> simp [h]

@[simp] theorem dropLeaves_holds (h : F.Holds (tierSec s)) : F.Holds (tierSec (dropLeaves s)) := by
  unfold dropLeaves
  dsimp only
  (repeat' split) <;> simp +contextual [h]

@[simp] theorem createRegion_holds (r : Region) (h : F.Holds (tierSec s)) : F.Holds (tierSec (createRegion s r)) := by
  unfold createRegion
  dsimp only
  (repeat' split) <;> simp +contextual [h]

@[simp] theorem fillLeaving_holds (e : Frame_) (sector : Nat) (h : F.Holds (tierSec s)) :
    F.Holds (tierSec (fillLeaving s e sector)) := by simp [fillLeaving, h]

@[simp] theorem releaseRegion_holds (r : Region) (zeroing : Bool) (h : F.Holds (tierSec s)) :
    F.Holds (tierSec (releaseRegion s r zeroing)) := by
  unfold releaseRegion
  extract_lets frames s1 sets s2 lo hi _ _ s3
  have h1 : F.Holds (tierSec s1) := holds_foldl _ _ (fun t e ht => by split <;> simp [ht]) h
  have h2 : F.Holds (tierSec s2) := by
    simp only [s2]
    split <;> simp [h1]
  have h3 : F.Holds (tierSec s3) := by
    refine dropLeaves_holds (h2.carry rfl rfl rfl)
  clear_value s3
  split <;> simp [h3]

@[simp] theorem setRimeBank_tierSec (s : State) (b : RimeBank) : tierSec (setRimeBank s b) = tierSec s := (rfl)

@[simp] theorem storeRegister_holds (bank : Nat) (u : RimeUnit) (w : BitVec 128) (cycles : Nat) (h : F.Holds (tierSec s)) :
    F.Holds (tierSec (storeRegister s bank u w cycles)) := by simp [storeRegister, h]

@[simp] theorem countCorrected_tierSec (s : State) (bank : Nat) (rows : List Nat) :
    tierSec (countCorrected s bank rows) = tierSec s := by
  simp [countCorrected]

@[simp] theorem runWord_holds (bank op : Nat) (w : BitVec 128) (m : Media) (corrected : List Nat) (h : F.Holds (tierSec s)) :
    F.Holds (tierSec (runWord s bank op w m corrected)) := by simp [runWord, h]

theorem tierSec_saved (s : State) (m : List Host.Cell) (p : List Nat) (j : List (Nat × Nat × Nat × Nat)) (b : RimeBank) :
    tierSec (setRimeBank { s with
      tier := { s.tier with dram := m, poison := p }, rime := { s.rime with journal := j } } b) = tierSec s := (rfl)

@[simp] theorem saveUnit_tierSec (s : State) (bank : Nat) : tierSec (saveUnit s bank) = tierSec s :=
  tierSec_saved s _ _ _ _

@[simp] theorem restoreUnit_tierSec (s : State) (bank : Nat) (m : Media) (corrected : List Nat) :
    tierSec (restoreUnit s bank m corrected) = tierSec s := by simp [restoreUnit]

@[simp] theorem writeResult_tierSec (s : State) (cell : Nat) (d : BitVec 256) (bs : Bytes) :
    tierSec (writeResult s cell d bs) = tierSec s := by
  simp [writeResult]

@[simp] theorem signalRequest_tierSec (s : State) (r : RimeReq) (code : Nat) : tierSec (signalRequest s r code) = tierSec s := by
  unfold signalRequest
  (repeat' split) <;> simp

@[simp] theorem chargeRequest_tierSec (s : State) (r : RimeReq) (u : RimeUnit) (code : Nat) :
    tierSec (chargeRequest s r u code) = tierSec s := by
  unfold chargeRequest
  (repeat' split) <;> simp

@[simp] theorem finishRequest_tierSec (s : State) (r : RimeReq) (u : RimeUnit) (code : Nat) :
    tierSec (finishRequest s r u code) = tierSec s := by simp [finishRequest]

@[simp] theorem usePromoted_tierSec (s : State) (ctx kind n : Nat) : tierSec (usePromoted s ctx kind n) = tierSec s := by
  unfold usePromoted
  split <;> simp

@[simp] theorem redirectHome_tierSec (s : State) (page bank to_ : Nat) : tierSec (redirectHome s page bank to_) = tierSec s := by
  simp [redirectHome]

@[simp] theorem moveFrame_holds (src dst : Nat) (left : FrameState) (h : F.Holds (tierSec s)) :
    F.Holds (tierSec (moveFrame s src dst left)) := by simp [moveFrame, h]

@[simp] theorem vacate_holds (d : Nat) (left : FrameState) (h : F.Holds (tierSec s)) : F.Holds (tierSec (vacate s d left)) := by
  unfold vacate
  dsimp only
  (repeat' split) <;> simp (disch := simp [h]) [h]

@[simp] theorem holdFrame_holds (d : Nat) (h : F.Holds (tierSec s)) : F.Holds (tierSec (holdFrame s d)) := by simp [holdFrame, h]

@[simp] theorem vacateLate_holds (h : F.Holds (tierSec s)) : F.Holds (tierSec (vacateLate s)) := by
  refine holds_foldl _ _ (fun t d ht => holdFrame_holds d ht) ?_
  simpa using h

@[simp] theorem unparkBank_tierSec (s : State) (bank : Nat) (p : RimeReq) (m : Media) (corrected : List Nat) :
    tierSec (unparkBank s bank p m corrected) = tierSec s := by simp [unparkBank]

@[simp] theorem startRequest_tierSec (s : State) (b : RimeBank) (r : RimeReq) : tierSec (startRequest s b r) = tierSec s := (rfl)

@[simp] theorem chooseRequest_tierSec (s : State) (bank : Nat) : tierSec (chooseRequest s bank) = tierSec s := by
  unfold chooseRequest
  dsimp only
  (repeat' split) <;> simp

@[simp] theorem preemptBank_tierSec (s : State) (bank : Nat) : tierSec (preemptBank s bank) = tierSec s := by
  unfold preemptBank
  dsimp only
  split
  · split <;> simp
  · rfl

@[simp] theorem abortRimeOf_tierSec (s : State) (ctx : Nat) : tierSec (abortRimeOf s ctx) = tierSec s := by simp [abortRimeOf]

@[simp] theorem poisonJournal_holds (p : Nat → Bool) (h : F.Holds (tierSec s)) : F.Holds (tierSec (poisonJournal s p)) := by
  unfold poisonJournal
  dsimp only
  (repeat' split) <;> simp +contextual [h]

@[simp] theorem settleJournal_tierSec (s : State) : tierSec (settleJournal s) = tierSec s := (rfl)

theorem tierSec_rime (s : State) (r : RimeState) : tierSec { s with rime := r } = tierSec s := (rfl)

@[simp] theorem makeScratchSet_holds (b : Nat) (h : F.Holds (tierSec s)) : F.Holds (tierSec (makeScratchSet s b)) := by
  unfold makeScratchSet
  dsimp only
  rw [tierSec_rime]
  exact createRegion_holds _ h

@[simp] theorem giveBack_holds (r : Region) (h : F.Holds (tierSec s)) : F.Holds (tierSec (giveBack s r)) := by simp [giveBack, h]

@[simp] theorem dropRegionAt_holds (base : Nat) (h : F.Holds (tierSec s)) : F.Holds (tierSec (dropRegionAt s base)) := by
  unfold dropRegionAt
  split <;> simp [h]

@[simp] theorem dropScratchSet_holds (b : Nat) (h : F.Holds (tierSec s)) : F.Holds (tierSec (dropScratchSet s b)) := by
  unfold dropScratchSet
  (repeat' split) <;> simp [h]

@[simp] theorem clearSectors_holds (b k : Nat) (h : F.Holds (tierSec s)) : F.Holds (tierSec (clearSectors s b k)) := by
  unfold clearSectors
  dsimp only
  (repeat' split) <;> simp +contextual [h]

@[simp] theorem unpinWeights_holds (p : Plan) (h : F.Holds (tierSec s)) : F.Holds (tierSec (unpinWeights s p)) :=
  holds_foldl _ _ (fun t e ht => by simp [ht]) h

@[simp] theorem reevalPieces_tierSec (s : State) : tierSec (reevalPieces s) = tierSec s := (rfl)

@[simp] theorem releasePlan_holds (n : Nat) (h : F.Holds (tierSec s)) : F.Holds (tierSec (releasePlan s n)) := by
  unfold releasePlan
  split
  · exact h
  next p _ =>
    extract_lets b s1 s2 s2' s3 s4 named
    have h1 : F.Holds (tierSec s1) := unpinWeights_holds p h
    have h2 : F.Holds (tierSec s2) := by
      simp only [s2]
      split <;> simp [h1]
    have h2' : F.Holds (tierSec s2') := by
      simp only [s2']
      split <;> simp [h2]
    have h3 : F.Holds (tierSec s3) := holds_foldl _ _ (fun t a ht => by simpa using ht) h2'
    rw [reevalPieces_tierSec]
    exact dropScratchSet_holds b (h3.carry rfl rfl rfl)

@[simp] theorem endContext_holds (ctx : Nat) (h : F.Holds (tierSec s)) : F.Holds (tierSec (endContext s ctx)) := by
  unfold endContext
  extract_lets s1 s2 s3 b s4
  have h1 : F.Holds (tierSec s1) := by simpa [s1] using h
  have h2 : F.Holds (tierSec s2) := holds_foldl _ _ (fun t p ht => releasePlan_holds _ ht) h1
  have h3 : F.Holds (tierSec s3) := holds_foldl _ _ (fun t r ht => giveBack_holds r ht) h2
  exact h3.carry rfl rfl rfl

@[simp] theorem trimParts_holds (index : Nat) (h : F.Holds (tierSec s)) : F.Holds (tierSec (trimParts s index)) := by
  unfold trimParts
  dsimp only
  (repeat' split) <;> simp +contextual [h]

/-- What follows the end of a merge in its context (R302). -/
theorem endIfEnding_holds (ctx : Nat) (h : F.Holds (tierSec s)) :
    F.Holds (tierSec (match ctxAt s ctx with
      | some c => if c.ending then endContext s ctx else s
      | none => s)) := by
  (repeat' split) <;> simp [h]

@[simp] theorem endMerge_holds (index : Nat) (status : Option Nat) (h : F.Holds (tierSec s)) :
    F.Holds (tierSec (endMerge s index status)) := by
  unfold endMerge
  split
  · exact h
  · split
    · exact h
    next x _ _ m _ =>
      have h1 : F.Holds (tierSec (trimParts (updIndex s index (fun y => { y with merge := none })) index)) :=
        trimParts_holds index (by simpa using h)
      refine endIfEnding_holds m.ctx ?_
      split <;> simp [h1]

@[simp] theorem cutMerges_holds (p : MergeState → Bool) (status : Option Nat) (h : F.Holds (tierSec s)) :
    F.Holds (tierSec (cutMerges s p status)) :=
  holds_foldl _ _ (fun t e ht => by simp [ht]) h

@[simp] theorem dropWaits_tierSec (s : State) (ctx : Nat) : tierSec (dropWaits s ctx) = tierSec s := (rfl)

@[simp] theorem abandonCmds_tierSec (s : State) (ctx : Nat) : tierSec (abandonCmds s ctx) = tierSec s := by
  simp [abandonCmds]

@[simp] theorem stopPairs_tierSec (s : State) (ctx : Nat) : tierSec (stopPairs s ctx) = tierSec s := (rfl)

@[simp] theorem tearDown_holds (ctx : Nat) (h : F.Holds (tierSec s)) : F.Holds (tierSec (tearDown s ctx)) := by
  refine endContext_holds ctx ?_
  simp [h]

@[simp] theorem resetContext_holds (status : Option Nat) (ctx : Nat) (h : F.Holds (tierSec s)) :
    F.Holds (tierSec (resetContext status s ctx)) := by
  unfold resetContext
  dsimp only
  rw [logError_tierSec]
  have h1 : F.Holds (tierSec (dropWaits (cutMerges (abortRimeOf s ctx) (fun m => m.ctx == ctx) status) ctx)) := by simp [h]
  exact endContext_holds ctx (h1.carry rfl rfl rfl)

@[simp] theorem endReclaimed_holds (ctx : Nat) (h : F.Holds (tierSec s)) : F.Holds (tierSec (endReclaimed s ctx)) := by
  unfold endReclaimed
  split <;> simp [h]

@[simp] theorem resetFunction_holds (status : Option Nat) (fn : Nat) (h : F.Holds (tierSec s)) :
    F.Holds (tierSec (resetFunction status s fn)) := by
  unfold resetFunction
  dsimp only
  rw [dropDeferred_tierSec]
  exact (holds_foldl _ _ (fun t (c : Ctx) ht => resetContext_holds status c.num ht) h).carry rfl rfl rfl

@[simp] theorem endIfLast_holds (ctx : Nat) (h : F.Holds (tierSec s)) : F.Holds (tierSec (endIfLast s ctx)) := by
  simp [endIfLast, h]

@[simp] theorem finishDelete_holds (qp : Nat) (h : F.Holds (tierSec s)) : F.Holds (tierSec (finishDelete s qp)) := by
  unfold finishDelete
  (repeat' split) <;> simp [h]

@[simp] theorem completeAfter_tierSec (s : State) (q cid status result : Nat) (channels : List Nat) :
    tierSec (completeAfter s q cid status result channels) = tierSec s := by
  simp [completeAfter]

@[simp] theorem completeAfterWake_tierSec (s : State) (q cid status result : Nat) :
    tierSec (completeAfterWake s q cid status result) = tierSec s := by
  simp [completeAfterWake]

@[simp] theorem releaseHeld_tierSec (s : State) (f : Cmd → Cmd) : tierSec (releaseHeld s f) = tierSec s := by
  simp [releaseHeld]

@[simp] theorem releaseWakeWaits_tierSec (s : State) (n : Nat) : tierSec (releaseWakeWaits s n) = tierSec s := by
  simp [releaseWakeWaits]

@[simp] theorem releasePieceWaits_tierSec (s : State) : tierSec (releasePieceWaits s) = tierSec s := by
  simp [releasePieceWaits]

@[simp] theorem withAdmin_holds {cid opcode : Nat} {k : State → Cmd → State} (hk : ∀ t c, F.Holds (tierSec t) → F.Holds (tierSec (k t c)))
    (h : F.Holds (tierSec s)) : F.Holds (tierSec (withAdmin s cid opcode k)) := by
  unfold withAdmin
  (repeat' split) <;> simp [h, hk]

@[simp] theorem withIo_holds {q cid opcode : Nat} {k : State → Cmd → State} (hk : ∀ t c, F.Holds (tierSec t) → F.Holds (tierSec (k t c)))
    (h : F.Holds (tierSec s)) : F.Holds (tierSec (withIo s q cid opcode k)) := by
  unfold withIo
  (repeat' split) <;> simp [h, hk]

@[simp] theorem dropAdminCids_holds (h : F.Holds (tierSec s)) : F.Holds (tierSec (dropAdminCids s)) :=
  ⟨h.frames, fun f e => h.staged f (by
    simp only [dropAdminCids, tierSec_mk] at e
    split at e
    · cases e
    · exact e), h.floor⟩

@[simp] theorem hostRead_tierSec (s : State) (addr n : Nat) : tierSec (hostRead s addr n) = tierSec s := by
  simp [hostRead]

@[simp] theorem touchBitmaps_tierSec (s : State) (a n : Nat) : tierSec (touchBitmaps s a n) = tierSec s := by simp [touchBitmaps]

@[simp] theorem acceptQuery_tierSec (s : State) (p : Plan) (x : Query) (offset : Nat) :
    tierSec (acceptQuery s p x offset) = tierSec s := by
  simp [acceptQuery]

@[simp] theorem readEntry_tierSec (s : State) (c : Cmd) (opcode stride : Nat) (p : Plan) (x : IndexParams) (i : Nat)
    (h : BitVec 512) : tierSec (readEntry s c opcode stride p x i h) = tierSec s := by
  simp [readEntry]

@[simp] theorem decidePosition_tierSec (pr : QPair) (p : Plan) (c : Cmd) (opcode stride : Nat) (s : State) (pos : Nat)
    (e : Option Bytes) : tierSec (decidePosition pr p c opcode stride s pos e) = tierSec s := by
  unfold decidePosition
  dsimp only
  (repeat' split) <;> simp

@[simp] theorem batchRow_holds (opcode : Nat) (kind : PlanKind) (q cid : Nat) (desc : BitVec 1024) (es : List Bytes)
    (h : F.Holds (tierSec s)) : F.Holds (tierSec (batchRow opcode kind q cid desc es s)) := by
  refine withIo_holds (fun t c ht => ?_) h
  dsimp only
  (repeat' split) <;> simp [ht]

@[simp] theorem dropPark_holds (b : Nat) (h : F.Holds (tierSec s)) : F.Holds (tierSec (dropPark s b)) := by
  unfold dropPark
  dsimp only
  (repeat' split) <;> simp +contextual [h]

@[simp] theorem makePark_holds (b pages : Nat) (h : F.Holds (tierSec s)) : F.Holds (tierSec (makePark s b pages)) := by
  simp [makePark, h]

@[simp] theorem bindRegion_holds (b : Nat) (r : BitVec 128) (h : F.Holds (tierSec s)) : F.Holds (tierSec (bindRegion b s r)) := by
  unfold bindRegion
  split
  · exact holds_map _ (fun e => by split <;> rfl) h
  · exact createRegion_holds _ h

@[simp] theorem unwriteChannel_tierSec (s : State) (c : Nat) : tierSec (unwriteChannel s c) = tierSec s := (rfl)

@[simp] theorem mapPieces_holds (b c base n : Nat) (h : F.Holds (tierSec s)) : F.Holds (tierSec (mapPieces s b c base n)) := by
  unfold mapPieces
  dsimp only
  (repeat' split) <;> simp +contextual [h]

theorem bindPieces_holds (b c base : Nat) (r : Region) (h : F.Holds (tierSec s)) :
    F.Holds (tierSec (updBay (unwriteChannel (mapPieces
      { s with
        bay := { s.bay with regions := s.bay.regions ++ [r] },
        tier := { s.tier with departures := s.tier.departures.map (fun d => if d.channel == c then { d with kind := .lease b } else d) } }
      b c base 30720) c) b (fun v => { v with
        excl := insertAsc c v.excl, exclAddrs := putKey v.exclAddrs c (pageBytes * base) }))) := by
  rw [updBay_tierSec, unwriteChannel_tierSec]
  exact mapPieces_holds _ _ _ _ (h.carry rfl rfl rfl)

@[simp] theorem bindExclusive_holds (b c : Nat) (h : F.Holds (tierSec s)) : F.Holds (tierSec (bindExclusive s b c)) :=
  bindPieces_holds b c _ _ (holds_foldl _ _ (fun t g ht => addLeaf_holds g ht) h)

@[simp] theorem settleBinds_tierSec (s : State) : tierSec (settleBinds s) = tierSec s := by
  simp [settleBinds]

@[simp] theorem acceptBind_holds (c : Cmd) (b : Nat) (hdr : BitVec 1024) (regs : List (BitVec 128)) (h : F.Holds (tierSec s)) :
    F.Holds (tierSec (acceptBind s c b hdr regs)) := by
  unfold acceptBind
  extract_lets ext s0 s1 freeA freeF slots pegs s2 s3 local_ s4 park s5 wait returns standby evac s6
  have h1 : F.Holds (tierSec s1) := by
    simp only [s1]
    split <;> simp [s0, h]
  have h3 : F.Holds (tierSec s3) := by
    simp only [s3]
    (repeat' split) <;> simpa [s2] using h1
  have h4 : F.Holds (tierSec s4) := holds_foldl _ _ (fun t r ht => bindRegion_holds b r ht) h3
  have h5 : F.Holds (tierSec s5) := by
    simp only [s5]
    split <;> simp [h4]
  have h6 : F.Holds (tierSec s6) := holds_foldl _ _ (fun t e ht => bindExclusive_holds b e ht) h5
  rw [settleBinds_tierSec]
  exact h6.carry rfl rfl rfl

@[simp] theorem clearArray_tierSec (s : State) (a : Nat) : tierSec (clearArray s a) = tierSec s := (rfl)

@[simp] theorem awaitLess_tierSec (s : State) (p : PendingBind) (f : PendingBind → PendingBind) :
    tierSec (awaitLess s p f) = tierSec s := by
  simp [awaitLess]

@[simp] theorem handOver_holds (r : Resource) (h : F.Holds (tierSec s)) : F.Holds (tierSec (handOver s r)) := by
  unfold handOver
  (repeat' split) <;> simp [h]

@[simp] theorem dropExclusive_holds (b c : Nat) (h : F.Holds (tierSec s)) : F.Holds (tierSec (dropExclusive s b c)) := by
  simp [dropExclusive, h]

@[simp] theorem startReturn_tierSec (s : State) : tierSec (startReturn s) = tierSec s := by
  unfold startReturn
  split <;> simp

@[simp] theorem releaseLease_tierSec (s : State) (c : Nat) : tierSec (releaseLease s c) = tierSec s := by
  simp [releaseLease]

@[simp] theorem storeToPages_tierSec (s : State) (src : List Host.Cell) (key page n : Nat) :
    tierSec (storeToPages s src key page n) = tierSec s := by
  refine tierSec_foldl _ _ (fun t i => ?_) s
  split <;> rfl

@[simp] theorem forcedSave_holds (b : Nat) (h : F.Holds (tierSec s)) : F.Holds (tierSec (forcedSave s b)) := by
  simp [forcedSave, h]

@[simp] theorem finishExpiry_holds (b : Nat) (h : F.Holds (tierSec s)) : F.Holds (tierSec (finishExpiry s b)) := by
  unfold finishExpiry
  dsimp only
  generalize hs1 : (if (bayAt s b).park && jobs s b != [] then forcedSave s b else updBay s b (fun v => { v with saved := 0 })) = s1
  have h1 : F.Holds (tierSec s1) := by
    rw [← hs1]
    split <;> simp [h]
  have h2 := cutMerges_holds (fun m => bayOfCtx s1 m.ctx == b) (some stContextEnded) h1
  exact holds_foldl _ _ (fun t c ht => by simp [ht]) (h2.carry rfl rfl rfl)

@[simp] theorem settleExpiry_holds (b : Nat) (h : F.Holds (tierSec s)) : F.Holds (tierSec (settleExpiry s b)) := by
  simp [settleExpiry, h]

@[simp] theorem giveUpRegions_holds (b : Nat) (h : F.Holds (tierSec s)) : F.Holds (tierSec (giveUpRegions s b)) := by
  refine holds_foldl _ _ (fun t r ht => ?_) h
  dsimp only
  split
  · exact holds_foldl _ _ (fun t e ht => by simp [ht]) (ht.carry rfl rfl rfl)
  · simp [ht]

@[simp] theorem faultContext_holds (ctx cause : Nat) (h : F.Holds (tierSec s)) :
    F.Holds (tierSec (faultContext s ctx cause)) := by
  unfold faultContext
  split <;> simp [h]

@[simp] theorem addIndex_tierSec (s : State) (x : Index) : tierSec (addIndex s x) = tierSec s := (rfl)

@[simp] theorem writeSlot_holds (x : Index) (k : IndexPart) (e : Nat × Bytes) (h : F.Holds (tierSec s)) :
    F.Holds (tierSec (writeSlot x k s e)) := by simp [writeSlot, h]

@[simp] theorem writeDriftSlots_holds (x : Index) (es : List DriftEntry) (h : F.Holds (tierSec s)) :
    F.Holds (tierSec (writeDriftSlots s x es)) :=
  holds_foldl _ _ (fun t e ht => by simp [ht]) h

@[simp] theorem firnMerge_holds (sweep : Bool) (cid : Nat) (h : F.Holds (tierSec s)) :
    F.Holds (tierSec (firnMerge sweep cid s)) := by
  refine withAdmin_holds (fun t c ht => ?_) h
  dsimp only
  (repeat' split) <;> simp [ht]

@[simp] theorem writeStore_holds (x : Index) (es : List (Nat × Bytes)) (h : F.Holds (tierSec s)) :
    F.Holds (tierSec (writeStore s x es)) := by
  unfold writeStore
  split
  · exact h
  · exact holds_foldl _ _ (fun t e ht => by simp [ht]) h

@[simp] theorem kerfByModule_tierSec (s : State) (index : Nat) (ns : List Nat) : tierSec (kerfByModule s index ns) = tierSec s :=
  (rfl)

@[simp] theorem loseUnit_tierSec (s : State) (channel die unit : Nat) : tierSec (loseUnit s channel die unit) = tierSec s := by
  unfold loseUnit
  dsimp only
  split
  · simp
  · refine (tierSec_foldl _ _ (fun t x => ?_) _).trans (logError_tierSec ..)
    (repeat' split) <;> simp

@[simp] theorem takeScratch_holds (b ctx pages : Nat) (h : F.Holds (tierSec s)) :
    F.Holds (tierSec (takeScratch s b ctx pages).1) := by simp [takeScratch, h]

@[simp] theorem bindPegs_tierSec (b ctx : Nat) (l : List PegBinding) (r : State × List PegBinding) :
    tierSec (bindPegs b ctx l r).1 = tierSec r.1 := by
  induction l generalizing r with
  | nil => rfl
  | cons d rest ih =>
    unfold bindPegs
    split
    · exact ih _
    · split <;> exact ih _

@[simp] theorem acceptPlan_holds (ctx : Nat) (m : Image) (h : F.Holds (tierSec s)) : F.Holds (tierSec (acceptPlan s ctx m).1) := by
  unfold acceptPlan
  extract_lets x b hd sector s1 u s2 g p s3
  have h1 : F.Holds (tierSec s1) := by
    simp only [s1]
    split <;> simp [h]
  have h2 : F.Holds (tierSec s2) := holds_foldl _ _ (fun t p ht => pinPage_holds p ht) (takeScratch_holds _ _ _ h1)
  have hg : F.Holds (tierSec g.1) := by simpa [g] using h2
  rw [updBay_tierSec]
  exact hg.carry rfl rfl rfl

@[simp] theorem poisonFilled_holds (a : Nat) (h : F.Holds (tierSec s)) : F.Holds (tierSec (poisonFilled s a)) := by
  unfold poisonFilled
  dsimp only
  split <;> simp [h]

@[simp] theorem touchReads_holds (i : Index) (rs : List PartRead) (h : F.Holds (tierSec s)) :
    F.Holds (tierSec (touchReads s i rs)) :=
  holds_foldl _ _ (fun t r ht => by
    split
    · exact ht
    · exact holds_foldl _ _ (fun t p ht => by simp [ht]) ht) h

@[simp] theorem takeTicket_tierSec (s : State) : tierSec (takeTicket s) = tierSec s := (rfl)

@[simp] theorem sendReads_holds (i : Index) (v : Version) (x : Query) (h : F.Holds (tierSec s)) :
    F.Holds (tierSec (sendReads s i v x)) := by simp [sendReads, h]

@[simp] theorem nextHop_holds (i : Index) (v : Version) (p : SearchParams) (x : Query) (h : F.Holds (tierSec s)) :
    F.Holds (tierSec (nextHop s i v p x)) := by simp [nextHop, h]

@[simp] theorem startTraversal_holds (x : Query) (h : F.Holds (tierSec s)) : F.Holds (tierSec (startTraversal s x)) := by
  unfold startTraversal
  split <;> simp [h]

@[simp] theorem requestSlots_holds (i : Index) (v : Version) (x : Query) (h : F.Holds (tierSec s)) :
    F.Holds (tierSec (requestSlots s i v x)) := by simp [requestSlots, h]

@[simp] theorem formPool_holds (x : Query) (h : F.Holds (tierSec s)) : F.Holds (tierSec (formPool s x)) := by
  unfold formPool
  split <;> simp [h]

@[simp] theorem settleSearch_holds (slot : Nat) (h : F.Holds (tierSec s)) : F.Holds (tierSec (settleSearch s slot)) := by
  unfold settleSearch
  split <;> simp [h]

@[simp] theorem formRerank_holds (x : Query) (h : F.Holds (tierSec s)) : F.Holds (tierSec (formRerank s x)) := by
  unfold formRerank
  split <;> simp [h]

@[simp] theorem countTruncated_tierSec (s : State) (b c : Nat) : tierSec (countTruncated s b c) = tierSec s := (rfl)

@[simp] theorem writeResults_tierSec (s : State) (x : Query) (p : Plan) (truncated byScore : Bool) :
    tierSec (writeResults s x p truncated byScore) = tierSec s := by
  unfold writeResults
  split <;> simp

@[simp] theorem afterEncoder_holds (x : Query) (p : Plan) (h : F.Holds (tierSec s)) : F.Holds (tierSec (afterEncoder s x p)) := by
  unfold afterEncoder
  (repeat' split) <;> simp [h]

@[simp] theorem chargeFlash_tierSec (s : State) (x : Query) : tierSec (chargeFlash s x) = tierSec s := by
  simp [chargeFlash]

@[simp] theorem startRebuild_tierSec (s : State) (x : Query) (u : Nat) : tierSec (startRebuild s x u).1 = tierSec s := (rfl)

@[simp] theorem chargeDram_tierSec (s : State) (x : Query) (r : DramReq) : tierSec (chargeDram s x r) = tierSec s := by
  simp [chargeDram]

@[simp] theorem endHop_holds (x : Query) (h : F.Holds (tierSec s)) : F.Holds (tierSec (endHop s x)) := by
  unfold endHop
  split <;> simp [h]

@[simp] theorem readRecord_holds (i : Index) (n : Nat) (m : DramRead) (h : F.Holds (tierSec s)) :
    F.Holds (tierSec (readRecord s i n m).1) := by simp (disch := simp [h]) [readRecord, h]

@[simp] theorem readSlot_holds (i : Index) (a : Nat) (m : DramRead) (h : F.Holds (tierSec s)) :
    F.Holds (tierSec (readSlot s i a m).1) := by simp [readSlot, h]

@[simp] theorem abandonCuts_tierSec (s : State) (x : Query) (p : Plan) : tierSec (abandonCuts s x p) = tierSec s := (rfl)

@[simp] theorem truncateQuery_tierSec (s : State) (x : Query) (p : Plan) : tierSec (truncateQuery s x p) = tierSec s := by
  unfold truncateQuery
  (repeat' split) <;> simp

@[simp] theorem placeWrite_holds (pl : Place) (bs : Bytes) (h : F.Holds (tierSec s)) :
    F.Holds (tierSec (placeWrite s pl bs)) := by
  unfold placeWrite
  split <;> simp [h]

@[simp] theorem afterLast_holds (sector : Nat) (h : F.Holds (tierSec s)) : F.Holds (tierSec (afterLast s sector)) := by
  unfold afterLast
  split <;> simp [h]

@[simp] theorem touchPlace_holds (pl : Place) (n : Nat) (h : F.Holds (tierSec s)) : F.Holds (tierSec (touchPlace s pl n)) := by
  unfold touchPlace
  split
  · exact holds_foldl _ _ (fun t k ht => by simp [ht]) (holds_foldl _ _ (fun t p ht => by simp [ht]) h)
  · exact h
  · exact h

@[simp] theorem failCut_tierSec (s : State) (x : Query) : tierSec (failCut s x) = tierSec s := (rfl)

@[simp] theorem cutWrite_holds (x : Query) (as_ : List Nat) (ws : List (Place × Bytes)) (count : PlanCounters → PlanCounters) (h : F.Holds (tierSec s)) :
    F.Holds (tierSec (cutWrite s x as_ ws count)) := by
  have write : F.Holds (tierSec (ws.foldl (fun st w => placeWrite st w.1 w.2) s)) :=
    holds_foldl _ _ (fun t w ht => by simp [ht]) h
  unfold cutWrite
  split
  · simp [h]
  · simp [write]

@[simp] theorem writeLanes_tierSec (s : State) (cell reg : Nat) (ls : List (BitVec 80)) :
    tierSec (writeLanes s cell reg ls) = tierSec s := (rfl)

@[simp] theorem setThread_tierSec (s : State) (t : Thread) : tierSec (setThread s t) = tierSec s := (rfl)

@[simp] theorem issueScalar_tierSec (s : State) (thr reg : Nat) (v : Word64) (wait : Option ThreadWait) :
    tierSec (issueScalar s thr reg v wait) = tierSec s := by
  simp [issueScalar]

@[simp] theorem wakeThread_tierSec (s : State) (thr : Nat) : tierSec (wakeThread s thr) = tierSec s := by
  unfold wakeThread
  split <;> simp

@[simp] theorem holdSlice_tierSec (s : State) (x : Query) (d : Cut) : tierSec (holdSlice s x d) = tierSec s := by
  unfold holdSlice
  (repeat' split) <;> simp

@[simp] theorem streamPage_holds (hint : Nat) (page : Nat) (h : F.Holds (tierSec s)) :
    F.Holds (tierSec (streamPage hint s page)) := by simp [streamPage, h]

@[simp] theorem updWeight_tierSec (s : State) (h n : Nat) (f : WeightObj → WeightObj) : tierSec (updWeight s h n f) = tierSec s :=
  (rfl)

@[simp] theorem startStream_holds (p : Plan) (n : Nat) (as_ : List Nat) (h : F.Holds (tierSec s)) :
    F.Holds (tierSec (startStream s p n as_)) := by
  unfold startStream
  split
  · exact h
  · exact holds_foldl _ _ (fun t p ht => by simp [ht]) (by simp [h])

@[simp] theorem finishStream_holds (o : WeightObj) (h : F.Holds (tierSec s)) : F.Holds (tierSec (finishStream s o)) :=
  holds_foldl _ _ (fun t k ht => by simp [ht]) (holds_foldl _ _ (fun t p ht => by simp [ht]) h)

@[simp] theorem markObject_holds (o : WeightObj) (h : F.Holds (tierSec s)) : F.Holds (tierSec (markObject s o)) := by
  simp [markObject, h]

@[simp] theorem endWaiting_tierSec (status : Nat) (s : State) (x : Query) : tierSec (endWaiting status s x) = tierSec s := by
  simp [endWaiting]

@[simp] theorem loseObject_tierSec (s : State) (o : WeightObj) (sectors : List Nat) :
    tierSec (loseObject s o sectors) = tierSec s := by
  simp [loseObject]

@[simp] theorem poisonObject_holds (o : WeightObj) (h : F.Holds (tierSec s)) : F.Holds (tierSec (poisonObject s o)) := by
  unfold poisonObject
  dsimp only
  (repeat' split) <;> simp [h]

@[simp] theorem updPlanCounters_tierSec (s : State) (h : Nat) (f : PlanCounters → PlanCounters) :
    tierSec (updPlanCounters s h f) = tierSec s := (rfl)

@[simp] theorem encodeOp_holds (x : Query) (as_ : List Nat) (mode : EncMode) (fmt kind g : Nat) (xs : List Word32)
    (dst scaleDst : Place) (h : F.Holds (tierSec s)) : F.Holds (tierSec (encodeOp s x as_ mode fmt kind g xs dst scaleDst)) := by
  simp [encodeOp, h]

@[simp] theorem convertOp_holds (x : Query) (as_ : List Nat) (fmt : Nat) (dst : Place) (v : Num) (h : F.Holds (tierSec s)) :
    F.Holds (tierSec (convertOp s x as_ fmt dst v)) := by simp [convertOp, h]

@[simp] theorem optimizeOp_holds (x : Query) (as_ : List Nat) (o : Optimizer) (step : Nat) (skip : Bool) (params : List Word32)
    (es : List (Word32 × Word32 × Word32 × Word32)) (mdst vdst wdst : Place) (h : F.Holds (tierSec s)) :
    F.Holds (tierSec (optimizeOp s x as_ o step skip params es mdst vdst wdst)) := by simp [optimizeOp, h]

@[simp] theorem loadOp_holds (x : Query) (p : Plan) (as_ : List Nat) (obj r g : Nat) (dst scaleDst : Place)
    (h : F.Holds (tierSec s)) : F.Holds (tierSec (loadOp s x p as_ obj r g dst scaleDst)) := by
  unfold loadOp
  dsimp only
  (repeat' split) <;> simp [h]

@[simp] theorem sramErrorOp_holds (x : Query) (p : Plan) (as_ : List Nat) (pl : Place) (double : Bool) (h : F.Holds (tierSec s)) :
    F.Holds (tierSec (sramErrorOp s x p as_ pl double)) := by
  unfold sramErrorOp
  (repeat' split) <;> simp [h]

@[simp] theorem runOp_holds (x : Query) (p : Plan) (as_ : List Nat) (op : CutOp) (h : F.Holds (tierSec s)) :
    F.Holds (tierSec (runOp s x p as_ op)) := by
  unfold runOp
  dsimp only
  (repeat' split) <;> simp [h]

@[simp] theorem cutOp_holds (slot : Nat) (as_ : List Nat) (op : CutOp) (h : F.Holds (tierSec s)) :
    F.Holds (tierSec (cutOp slot as_ s op)) := by
  unfold cutOp
  (repeat' split) <;> simp [h]

@[simp] theorem finishCuts_tierSec (s : State) (x : Query) (p : Plan) : tierSec (finishCuts s x p) = tierSec s := by
  unfold finishCuts
  (repeat' split) <;> simp

@[simp] theorem noteStall_tierSec (s : State) (x : Query) (p : Plan) : tierSec (noteStall s x p) = tierSec s := by
  simp [noteStall]

@[simp] theorem endCut_holds (x : Query) (p : Plan) (d : Cut) (cut : Nat) (work : List CutOp) (h : F.Holds (tierSec s)) :
    F.Holds (tierSec (endCut s x p d cut work)) := by
  unfold endCut
  extract_lets s1 s2 s3 s4 s5
  have h1 : F.Holds (tierSec s1) := holds_foldl _ _ (fun t op ht => cutOp_holds _ _ op ht) h
  split
  · exact h1
  · have h5 : F.Holds (tierSec s5) := by
      simp only [s5, s4, s3, s2]
      split <;> simp [h1]
    clear_value s5
    dsimp only
    (repeat' split) <;> simp [h5]

@[simp] theorem retryCopies_holds (h : F.Holds (tierSec s)) : F.Holds (tierSec (retryCopies s)) :=
  holds_foldl _ _ (fun t e ht => by simp [ht]) h

@[simp] theorem retryFaults_holds (h : F.Holds (tierSec s)) : F.Holds (tierSec (retryFaults s)) := by
  unfold retryFaults
  split
  · exact h
  · have faults : F.Holds (tierSec (s.tier.fillWaits.foldl (fun st w =>
        faultPage st (w.1 / pageBytes) (hostHint st (w.1 / pageBytes) w.2.isSome) (w.1 % pageBytes / 4096)) s)) :=
      holds_foldl _ _ (fun t w ht => by simp [ht]) h
    simp [faults]

@[simp] theorem withPlaced_tierSec (s : State) (ev : Reserved) (w : Nat) : tierSec (withPlaced s ev w) = tierSec s := (rfl)

@[simp] theorem undefer_tierSec (s : State) (ev : Reserved) : tierSec (undefer s ev) = tierSec s := (rfl)

@[simp] theorem setDie_tierSec (s : State) (v : Die) : tierSec (setDie s v) = tierSec s := (rfl)

@[simp] theorem beginPiece_tierSec (s : State) (ev : Reserved) (w : Nat) : tierSec (beginPiece s ev w) = tierSec s := by
  unfold beginPiece
  split <;> simp

@[simp] theorem markTaken_tierSec (s : State) (e : Placed) : tierSec (markTaken s e) = tierSec s := (rfl)

@[simp] theorem wantDeparture_tierSec (s : State) (c : Nat) (k : DepKind) : tierSec (wantDeparture s c k) = tierSec s := by
  simp [wantDeparture]

@[simp] theorem blockRetirement_tierSec (s : State) (channel : Nat) : tierSec (blockRetirement s channel) = tierSec s := (rfl)

@[simp] theorem poisonBlocks_holds (ks : List Nat)  (h : F.Holds (tierSec s)) : F.Holds (tierSec (poisonBlocks ks s)) := by
  unfold poisonBlocks
  dsimp only
  (repeat' split) <;> simp +contextual [h]

@[simp] theorem giveFrameBack_holds (d : Nat) (h : F.Holds (tierSec s)) : F.Holds (tierSec (giveFrameBack s d)) := by
  simp [giveFrameBack, h]

@[simp] theorem giveRowBack_holds (ds : List Nat) (h : F.Holds (tierSec s)) : F.Holds (tierSec (giveRowBack s ds)) := by
  unfold giveRowBack
  dsimp only
  (repeat' split) <;> simp +contextual [h]

@[simp] theorem freeRetired_holds (c : Nat) (h : F.Holds (tierSec s)) : F.Holds (tierSec (freeRetired s c)) := by
  simp [freeRetired, h]

@[simp] theorem spareLocals_holds (c : Nat) (h : F.Holds (tierSec s)) : F.Holds (tierSec (spareLocals s c)) := by
  unfold spareLocals
  dsimp only
  (repeat' split) <;> simp +contextual [h]

@[simp] theorem unspareLocals_holds (c : Nat) (h : F.Holds (tierSec s)) : F.Holds (tierSec (unspareLocals s c)) :=
  holds_foldl _ _ (fun t e ht => by simp [ht]) h

@[simp] theorem freeSpares_holds (n : Nat) (h : F.Holds (tierSec s)) : F.Holds (tierSec (freeSpares s n)) :=
  holds_foldl _ _ (fun t e ht => by simp [ht]) h

@[simp] theorem announceCopy_tierSec (s : State) (cs : List (Nat × Nat)) (stripes : Nat) :
    tierSec (announceCopy s cs stripes).1 = tierSec s := by
  simp [announceCopy]

@[simp] theorem rebuildSector_holds (k : Nat) (h : F.Holds (tierSec s)) : F.Holds (tierSec (rebuildSector s k)) := by
  unfold rebuildSector
  split <;> simp [h]

@[simp] theorem idleTick_tierSec (s : State) : tierSec (idleTick s) = tierSec s := by simp [idleTick]

@[simp] theorem updStage_tierSec (s : State) (f : StageState → StageState) : tierSec (updStage s f) = tierSec s := (rfl)

@[simp] theorem keepObject_tierSec (s : State) (i j : Nat) : tierSec (keepObject s i j) = tierSec s := by
  unfold keepObject
  split <;> simp

@[simp] theorem applyObject_tierSec (s : State) (i j v : Nat) : tierSec (applyObject s i j v) = tierSec s := by
  simp [applyObject]

@[simp] theorem touchLock_tierSec (s : State) (by_ : Master) : tierSec (touchLock s by_) = tierSec s := by
  simp [touchLock]

@[simp] theorem takeLock_tierSec (s : State) (by_ : Master) : tierSec (takeLock s by_).1 = tierSec s := by
  unfold takeLock
  split <;> simp

@[simp] theorem releaseLock_tierSec (s : State) (by_ : Master) : tierSec (releaseLock s by_).1 = tierSec s := by
  simp [releaseLock]

@[simp] theorem stageObject_tierSec (s : State) (by_ : Master) (i j : Nat) (value : Bytes) :
    tierSec (stageObject s by_ i j value).1 = tierSec s := by
  simp [stageObject]

@[simp] theorem discardFrame_tierSec (s : State) (by_ : Master) (v : Nat) : tierSec (discardFrame s by_ v).1 = tierSec s := by
  simp [discardFrame]

@[simp] theorem startFit_tierSec (s : State) (by_ : Master) (v : Nat) : tierSec (startFit s by_ v).1 = tierSec s := by
  simp [startFit]

@[simp] theorem writeFit_tierSec (s : State) : tierSec (writeFit s) = tierSec s := by
  unfold writeFit
  dsimp only
  split <;> simp

@[simp] theorem requestRaise_tierSec (s : State) (by_ : Master) (m : RaiseMode) (v : Nat) :
    tierSec (requestRaise s by_ m v).1 = tierSec s := by
  unfold requestRaise
  (repeat' split) <;> simp

@[simp] theorem cancelRaise_tierSec (s : State) (by_ : Master) : tierSec (cancelRaise s by_).1 = tierSec s := by
  unfold cancelRaise
  (repeat' split) <;> simp

@[simp] theorem writeRaiseCmd_tierSec (s : State) (by_ : Master) (v : Nat) : tierSec (writeRaiseCmd s by_ v).1 = tierSec s := by
  unfold writeRaiseCmd
  (repeat' split) <;> simp

@[simp] theorem applyBay0_holds (hdr : BitVec 1024) (h : F.Holds (tierSec s)) : F.Holds (tierSec (applyBay0 s hdr)) := by
  unfold applyBay0
  extract_lets v goneA goneF goneX newX slots pegs s1 s2 s3 s4 returns standby evac s5
  have h3 : F.Holds (tierSec s3) := by
    refine holds_foldl _ _ (fun t c ht => by simp [ht]) ?_
    simpa [s2, s1] using h
  have h4 : F.Holds (tierSec s4) := holds_foldl _ _ (fun t r ht => by simp [ht]) h3
  have h5 : F.Holds (tierSec s5) := holds_foldl _ _ (fun t c ht => bindExclusive_holds 0 c ht) h4
  split
  · exact h5
  · exact h5.carry rfl rfl rfl

@[simp] theorem settleHold_holds (h : F.Holds (tierSec s)) : F.Holds (tierSec (settleHold s)) := by
  unfold settleHold
  split <;> simp [h]

@[simp] theorem logEpisode_tierSec (s : State) (cause since : Nat) : tierSec (logEpisode s cause since) = tierSec s := by
  simp [logEpisode]

theorem settleHold_lifted_holds {a : AdmState} (h : F.Holds (tierSec s)) : F.Holds (tierSec (settleHold { s with adm := a })) :=
  settleHold_holds (h.carry rfl rfl rfl)

@[simp] theorem liftCap_holds (h : F.Holds (tierSec s)) : F.Holds (tierSec (liftCap s)) :=
  settleHold_lifted_holds (by simpa using h)

@[simp] theorem judgePower_holds (h : F.Holds (tierSec s)) : F.Holds (tierSec (judgePower s)) := by
  unfold judgePower
  dsimp only
  (repeat' split)
  · exact h
  · exact settleHold_holds (h.carry rfl rfl rfl)
  · exact liftCap_holds h
  · exact h

@[simp] theorem raiseObject_holds (e : Nat × Nat × Nat × Nat) (h : F.Holds (tierSec s)) : F.Holds (tierSec (raiseObject s e)) := by
  have h1 : F.Holds (tierSec (applyObject s e.1 e.2.1 e.2.2.2)) := by simpa using h
  unfold raiseObject
  dsimp only
  (repeat' split)
  · exact h1.carry rfl rfl rfl
  · exact judgePower_holds h1
  · exact applyBay0_holds _ h1
  · exact h1

@[simp] theorem raiseNow_holds (h : F.Holds (tierSec s)) : F.Holds (tierSec (raiseNow s)) := by
  unfold raiseNow
  dsimp only
  (repeat' split) <;> simp +contextual [h]

@[simp] theorem hostLockLost_tierSec (s : State) : tierSec (hostLockLost s) = tierSec s := by
  simp [hostLockLost]

@[simp] theorem stageAfterRestart_tierSec (s : State) : tierSec (stageAfterRestart s) = tierSec s := by
  simp [stageAfterRestart]

@[simp] theorem writeStart_tierSec (s : State) (by_ : Master) : tierSec (writeStart s by_) = tierSec s := by
  simp [writeStart]

@[simp] theorem restoreValue_tierSec (s : State) (i j v : Nat) : tierSec (restoreValue s i j v) = tierSec s := by
  unfold restoreValue
  split <;> simp

@[simp] theorem noteWrite_tierSec (by_ : Master) (i j : Nat) (r : State × Nat) :
    tierSec (noteWrite by_ i j r).1 = tierSec r.1 := by
  unfold noteWrite
  (repeat' split) <;> simp

@[simp] theorem rowWrite_holds {by_ : Master} {i j : Nat} {act : State → State × Nat}
    (hact : ∀ t, F.Holds (tierSec t) → F.Holds (tierSec (act t).1)) (h : F.Holds (tierSec s)) :
    F.Holds (tierSec (rowWrite s by_ i j act)) := by
  unfold rowWrite
  dsimp only
  (repeat' split) <;> simp [h, hact]

@[simp] theorem moveBlock_tierSec (s : State) (c l b t : Nat) : tierSec (moveBlock s c l b t) = tierSec s := (rfl)

@[simp] theorem moveStripe_tierSec (s : State) (g l u : Nat) : tierSec (moveStripe s g l u) = tierSec s := (rfl)

@[simp] theorem moveHome_holds (p : PageHome) (h : F.Holds (tierSec s)) : F.Holds (tierSec (moveHome s p)) :=
  holds_map _ (fun e => by split <;> rfl) h

@[simp] theorem removeBlock_holds (c l b : Nat) (h : F.Holds (tierSec s)) : F.Holds (tierSec (removeBlock s c l b)) := by
  unfold removeBlock
  extract_lets g held homes w s1 s2
  have h2 : F.Holds (tierSec s2) := holds_foldl _ _ (fun t p ht => moveHome_holds p ht) (by simpa [s1] using h)
  exact h2.carry rfl rfl rfl

@[simp] theorem placeBlock_holds (c d : Nat) (e : Nat × Nat) (h : F.Holds (tierSec s)) :
    F.Holds (tierSec (placeBlock c d s e)) := by
  unfold placeBlock
  split <;> simp [h]

@[simp] theorem retireDie_holds (c d : Nat) (h : F.Holds (tierSec s)) : F.Holds (tierSec (retireDie s c d)) := by
  unfold retireDie
  dsimp only
  rw [refreshLevels_tierSec, logError_tierSec, releasePieceWaits_tierSec]
  exact holds_foldl _ _ (fun t e ht => placeBlock_holds c d e ht) (by simpa using h)

@[simp] theorem retireSpent_holds (c k : Nat) {s : State} (h : F.Holds (tierSec s)) : F.Holds (tierSec (retireSpent c k s)) := by
  induction k generalizing s with
  | zero => exact h
  | succ k ih =>
    unfold retireSpent
    split
    · exact ih (retireDie_holds _ _ h)
    · exact h

@[simp] theorem retireBlock_holds (c d block : Nat) (h : F.Holds (tierSec s)) : F.Holds (tierSec (retireBlock s c d block)) := by
  unfold retireBlock
  dsimp only
  split
  · exact h
  · refine retireSpent_holds _ _ ?_
    split
    · exact placeBlock_holds _ _ _ (by simpa using h)
    · simpa using h

@[simp] theorem refreshBlock_tierSec (s : State) (c d block : Nat) : tierSec (refreshBlock s c d block) = tierSec s := by
  unfold refreshBlock
  split <;> simp

@[simp] theorem poisonRow_holds (bank row : Nat) (h : F.Holds (tierSec s)) : F.Holds (tierSec (poisonRow s bank row).1) := by
  unfold poisonRow
  (repeat' split) <;> simp [h]

@[simp] theorem retireFrames_tierSec (s : State) (c : Nat) (frames : List Nat) :
    tierSec (retireFrames s c frames) = tierSec s := by
  simp [retireFrames]

@[simp] theorem repairRow_holds (bank : Nat) (r : Nat × List Nat) (h : F.Holds (tierSec s)) :
    F.Holds (tierSec (repairRow bank s r)) := by simp [repairRow, h]

@[simp] theorem repairChannel_holds (c : Nat) (h : F.Holds (tierSec s)) : F.Holds (tierSec (repairChannel s c)) :=
  holds_foldl _ _ (fun t b ht => holds_foldl _ _ (fun t r ht => by simp [ht]) ht) h

@[simp] theorem exhaustArray_tierSec (s : State) (n : Nat) : tierSec (exhaustArray s n) = tierSec s := by
  simp [exhaustArray]

@[simp] theorem setReference_tierSec (s : State) (r : Nat × Nat × Nat × Int) : tierSec (setReference s r) = tierSec s := (rfl)

@[simp] theorem refreshReady_tierSec (s : State) : tierSec (refreshReady s) = tierSec s := (rfl)

@[simp] theorem resetFunctions_holds (h : F.Holds (tierSec s)) : F.Holds (tierSec (resetFunctions s)) := by
  have reset : F.Holds (tierSec ((List.range 64).foldl (resetFunction none) s)) :=
    holds_foldl _ _ (fun t b ht => by simp [ht]) h
  have drop := dropAdminCids_holds reset
  rw [resetFunctions]
  generalize dropAdminCids ((List.range 64).foldl (resetFunction none) s) = t at drop ⊢
  exact drop.carry rfl rfl rfl

@[simp] theorem clearKeys_tierSec (s : State) : tierSec (clearKeys s) = tierSec s := (rfl)

@[simp] theorem linkLost_holds (h : F.Holds (tierSec s)) : F.Holds (tierSec (linkLost s)) := by simp [linkLost, h]

@[simp] theorem trackLine_tierSec (s : State) (line : Nat) : tierSec (trackLine s line) = tierSec s := by
  unfold trackLine
  dsimp only
  (repeat' split) <;> simp

@[simp] theorem doeAnswer_tierSec (s : State) (code : Nat) (fields : List Nat) :
    tierSec (doeAnswer s code fields) = tierSec s := by
  simp [doeAnswer]

@[simp] theorem abandonAll_tierSec (s : State) : tierSec (abandonAll s) = tierSec s := by simp [abandonAll]

@[simp] theorem haltWork_holds (h : F.Holds (tierSec s)) : F.Holds (tierSec (haltWork s)) := by
  simp +contextual [haltWork, h]

@[simp] theorem hotOff_tierSec (s : State) : tierSec (hotOff s) = tierSec s := by simp [hotOff]

@[simp] theorem fatalEffect_holds (cause unit : Nat) (inCxl : Bool) (h : F.Holds (tierSec s)) :
    F.Holds (tierSec (fatalEffect s cause unit inCxl)) := by simp [fatalEffect, h]

@[simp] theorem endStaging_tierSec (s : State) : tierSec (endStaging s) = tierSec s := by
  unfold endStaging
  split <;> simp

@[simp] theorem mgmtLost_holds (h : F.Holds (tierSec s)) : F.Holds (tierSec (mgmtLost s)) := by
  have h1 : F.Holds (tierSec (stageAfterRestart (endStaging s))) := by simpa using h
  exact h1.unstage rfl (by simp [mgmtLost]) rfl

@[simp] theorem startTest_tierSec (s : State) (c : Cmd) (extended : Bool) : tierSec (startTest s c extended) = tierSec s := by
  simp [startTest]

/-- An image that reaches the floor may stand in the staging area (R395). -/
theorem stagedAs_holds {i : Option FwImage} (hi : ∀ f, i = some f → F.svn ≤ f.svn) (h : F.Holds (tierSec s)) :
    F.Holds (tierSec (stagedAs s i)) := by
  cases i with
  | none => exact h.unstage rfl (by simp [stagedAs]) rfl
  | some f => exact ⟨h.frames, fun g e => .inr (hi g (congrArg some (Staging.image.inj e))), h.floor⟩

theorem svnFloor_eq (s : State) : svnFloor s = (s.sec.arb.map (fun a => a.svnFloor)).getD 0 := by
  unfold svnFloor
  cases s.sec.arb <;> rfl

/-- An image that the verification passes reaches the floor in force (R395, R398). -/
theorem svnFloor_le_of_judgeImage {bs : Bytes} {f : FwImage} (e : (judgeImage s bs).2 = some f) : svnFloor s ≤ f.svn := by
  unfold judgeImage at e
  dsimp only at e
  split at e
  · cases e
  · split at e
    · cases e
    next hf =>
      obtain rfl := Option.some.inj e
      exact Nat.le_of_not_lt hf

/-- The verdict on an image leaves in the staging area what reaches the floor. -/
theorem stagedAs_judgeImage_holds {t : State} (bs : Bytes) (ht : F.Holds (tierSec t)) (h : F.Holds (tierSec s)) :
    F.Holds (tierSec (stagedAs s (judgeImage t bs).2)) :=
  stagedAs_holds (fun _ e => ht.floor.trans (svnFloor_eq t ▸ svnFloor_le_of_judgeImage e)) h

@[simp] theorem finishStage_holds (h : F.Holds (tierSec s)) : F.Holds (tierSec (finishStage s)) := by
  unfold finishStage
  split
  · rw [postCompletion_tierSec]
    exact stagedAs_judgeImage_holds _ h h
  · exact h

@[simp] theorem logIgnored_tierSec (s : State) (r : CfgRecord) : tierSec (logIgnored s r) = tierSec s := (rfl)

@[simp] theorem serveMgmt_tierSec (s : State) : tierSec (serveMgmt s) = tierSec s := by simp [serveMgmt]

theorem svnFloor_le_arbAfter (s : State) (a : ArbRecord) (f : FwImage) (rev : BitVec 4) :
    a.svnFloor ≤ (arbAfter s a f rev).svnFloor := by
  unfold arbAfter
  split
  · exact le_rfl
  · exact le_max_left _ _

@[simp] theorem bootFlash_holds (h : F.Holds (tierSec s)) : F.Holds (tierSec (bootFlash s)) := by
  unfold bootFlash
  extract_lets forces
  split
  · rw [refreshReady_tierSec]
    exact h.carry rfl rfl rfl
  · exact h
  next a _ ha =>
    extract_lets rev
    split
    · exact h
    next f _ =>
      extract_lets arb level s1 s2 ignored
      refine holds_foldl _ _ (fun t r ht => by simpa using ht) ?_
      rw [serveMgmt_tierSec]
      have hf : F.svn ≤ arb.svnFloor := by
        have := h.floor
        simp only [tierSec, ha, Option.map_some, Option.getD_some] at this
        exact this.trans (svnFloor_le_arbAfter _ _ _ _)
      exact ⟨h.frames, h.staged, hf⟩

@[simp] theorem beginEntry_tierSec (s : State) (n depth : Nat) : tierSec (beginEntry s n depth) = tierSec s := by
  simp [beginEntry]

@[simp] theorem enterDue_tierSec (s : State) (n : Nat) : tierSec (enterDue s n) = tierSec s := by
  simp [enterDue]

@[simp] theorem timerExpires_tierSec (s : State) (n us depth : Nat) : tierSec (timerExpires s n us depth) = tierSec s := by
  simp [timerExpires]

@[simp] theorem tickDomain_tierSec (s : State) (n : Nat) : tierSec (tickDomain s n) = tierSec s := by
  simp [tickDomain]

@[simp] theorem tickDomains_tierSec (s : State) : tierSec (tickDomains s) = tierSec s := by
  simp [tickDomains]

@[simp] theorem loseOff_holds (n : Nat) (h : F.Holds (tierSec s)) : F.Holds (tierSec (loseOff s n)) := by
  unfold loseOff
  split <;> simp [h]

@[simp] theorem startController_holds (p : Nat) (h : F.Holds (tierSec s)) : F.Holds (tierSec (startController s p)) := by
  simp [startController, h]

@[simp] theorem takeWake_holds (n : Nat) (h : F.Holds (tierSec s)) : F.Holds (tierSec (takeWake s n)) := by
  unfold takeWake
  split <;> simp [h]

@[simp] theorem dictDefaults_tierSec (s : State) : tierSec (dictDefaults s) = tierSec s := (rfl)

@[simp] theorem restartFromFlash_holds (h : F.Holds (tierSec s)) : F.Holds (tierSec (restartFromFlash s)) := by
  simp [restartFromFlash, h]

@[simp] theorem clearRime_tierSec (s : State) : tierSec (clearRime s) = tierSec s := (rfl)

@[simp] theorem unbindBay_holds (b : Nat) (h : F.Holds (tierSec s)) : F.Holds (tierSec (unbindBay s b)) := by
  unfold unbindBay
  dsimp only
  (repeat' split) <;> simp +contextual [h]

@[simp] theorem resetStart_holds (h : F.Holds (tierSec s)) : F.Holds (tierSec (resetStart s)) := by simp [resetStart, h]

@[simp] theorem moduleReset_holds (h : F.Holds (tierSec s)) : F.Holds (tierSec (moduleReset s)) := by
  unfold moduleReset
  extract_lets s1 _ s2 s3 _ _ _ s4 _ _
  have h1 : F.Holds (tierSec s1) := by simp [s1, h]
  clear_value s1
  have h2 : F.Holds (tierSec s2) := holds_foldl _ _ (fun t i ht => unbindBay_holds _ ht) (h1.carry rfl rfl rfl)
  have h3 : F.Holds (tierSec s3) := by simp [s3, h2]
  clear_value s3
  have h4 : F.Holds (tierSec s4) := resetStart_holds (h3.carry rfl rfl rfl)
  clear_value s4
  rw [refreshReady_tierSec]
  exact h4.carry rfl rfl rfl

@[simp] theorem rebuildMarked_holds (c d : Nat) (h : F.Holds (tierSec s)) : F.Holds (tierSec (rebuildMarked s c d)) := by
  unfold rebuildMarked
  dsimp only
  refine retireSpent_holds _ _ ?_
  split
  · exact h
  · exact holds_foldl _ _ (fun t e ht => placeBlock_holds _ _ _ ht) h

@[simp] theorem startRepairs_holds (h : F.Holds (tierSec s)) : F.Holds (tierSec (startRepairs s)) := by
  refine holds_foldl _ _ (fun t v ht => rebuildMarked_holds _ _ ht) (holds_foldl _ _ (fun t b ht => ?_) h)
  split <;> simp [ht]

@[simp] theorem loseDram_holds (h : F.Holds (tierSec s)) : F.Holds (tierSec (loseDram s)) := by
  unfold loseDram
  extract_lets moves _ s1 cut
  have h1 : F.Holds (tierSec s1) :=
    holds_foldl _ _ (fun t e ht => by split <;> simp [ht]) (h.carry rfl rfl rfl)
  exact vacateLate_holds (holds_map _ (fun _ => rfl) h1)

@[simp] theorem railsOff_holds (h : F.Holds (tierSec s)) : F.Holds (tierSec (railsOff s)) := by
  have h1 : F.Holds (tierSec (loseDram (clearRime (linkLost s)))) := by simp [h]
  unfold railsOff
  generalize loseDram (clearRime (linkLost s)) = t at h1
  dsimp only
  rw [refreshReady_tierSec]
  exact h1.unstage rfl (by simp) rfl

@[simp] theorem railsOn_holds (h : F.Holds (tierSec s)) : F.Holds (tierSec (railsOn s)) := by simp [railsOn, h]

@[simp] theorem tryPower_holds (h : F.Holds (tierSec s)) : F.Holds (tierSec (tryPower s)) := by simp [tryPower, h]

@[simp] theorem finishPowerDown_holds (h : F.Holds (tierSec s)) : F.Holds (tierSec (finishPowerDown s)) := by
  simp [finishPowerDown, h]

@[simp] theorem idle_holds (h : F.Holds (tierSec s)) : F.Holds (tierSec (idle s)) := by simp [idle, h]

@[simp] theorem requestEvidence_tierSec (s : State) (by_ : Master) (value : Bytes) (spdm : Bool) :
    tierSec (requestEvidence s by_ value spdm).1 = tierSec s := by
  simp [requestEvidence]

@[simp] theorem spdmServe_holds {k : State → State} (hk : ∀ t, F.Holds (tierSec t) → F.Holds (tierSec (k t)))
    (h : F.Holds (tierSec s)) : F.Holds (tierSec (spdmServe s k)) := by
  unfold spdmServe
  split <;> simp [h, hk]

@[simp] theorem setIdeDir_tierSec (s : State) (d : StreamDir) (v : IdeDir) : tierSec (setIdeDir s d v) = tierSec s := (rfl)

@[simp] theorem withinSession_holds {session set : Nat} {k : State → State}
    (hk : ∀ t, F.Holds (tierSec t) → F.Holds (tierSec (k t))) (h : F.Holds (tierSec s)) :
    F.Holds (tierSec (withinSession s session set k)) := by
  refine spdmServe_holds (fun t ht => ?_) h
  split <;> simp [ht, hk]

@[simp] theorem writeCopies_tierSec (s : State) (f : FwImage) (m0 m1 : Media) :
    tierSec (writeCopies s f m0 m1).1 = tierSec s := by
  simp [writeCopies]

@[simp] theorem bootStaged_tierSec (s : State) (f : FwImage) (m0 m1 : Media) : tierSec (bootStaged s f m0 m1).1 = tierSec s := by
  simp [bootStaged]

@[simp] theorem installRecord_holds (bs : Bytes) (h : F.Holds (tierSec s)) : F.Holds (tierSec (installRecord s bs).1) := by
  unfold installRecord
  dsimp only
  split <;> exact h.unstage rfl (by simp) rfl

@[simp] theorem mbAnswer_tierSec (s : State) (opcode ret : Nat) (data : Bytes) :
    tierSec (mbAnswer s opcode ret data) = tierSec s := (rfl)

@[simp] theorem mbEnd_tierSec (s : State) (opcode status : Nat) : tierSec (mbEnd s opcode status) = tierSec s := by
  simp [mbEnd]

@[simp] theorem mbServe_holds {opcode : Nat} {k : State → State}
    (hk : ∀ t, F.Holds (tierSec t) → F.Holds (tierSec (k t))) (h : F.Holds (tierSec s)) :
    F.Holds (tierSec (mbServe s opcode k)) := by
  unfold mbServe
  (repeat' split) <;> simp [h, hk]

@[simp] theorem endTransfer_holds (bs : Bytes) (h : F.Holds (tierSec s)) : F.Holds (tierSec (endTransfer s bs)) := by
  unfold endTransfer
  dsimp only
  rw [mbEnd_tierSec]
  exact stagedAs_judgeImage_holds bs h h

theorem applyObject_holds (i j v : Nat) (h : F.Holds (tierSec s)) : F.Holds (tierSec (applyObject s i j v)) := by simpa using h

theorem stagedAs_none_holds (h : F.Holds (tierSec s)) : F.Holds (tierSec (stagedAs s none)) := stagedAs_holds (by simp) h

@[simp] theorem fwRxSetLen_holds (v : Nat) (h : F.Holds (tierSec s)) : F.Holds (tierSec (fwRxSetLen s v).1) := by
  unfold fwRxSetLen
  dsimp only
  split
  · exact h
  · exact (applyObject_holds 0x7020 0 v h).unstage rfl (fun f e => by cases e) rfl

@[simp] theorem fwRxPut_holds (data : Bytes) (h : F.Holds (tierSec s)) : F.Holds (tierSec (fwRxPut s data).1) := by
  unfold fwRxPut
  dsimp only
  (repeat' split)
  · exact h
  · exact (applyObject_holds 0x7021 0 0 h).unstage rfl (fun f e => by cases e) rfl
  · exact h

theorem fwRxState_holds (x : Nat) (h : F.Holds (tierSec s)) :
    F.Holds (tierSec { s with sec := { s.sec with fwRxState := x } }) := h.carry rfl rfl rfl

theorem cfgRxState_holds (x : Nat) (h : F.Holds (tierSec s)) :
    F.Holds (tierSec { s with sec := { s.sec with cfgRxState := x } }) := h.carry rfl rfl rfl

@[simp] theorem fwRxCommand_holds (v : Nat) (m0 m1 : Media) (h : F.Holds (tierSec s)) :
    F.Holds (tierSec (fwRxCommand s v m0 m1).1) := by
  have h1 := applyObject_holds 0x7022 0 v h
  unfold fwRxCommand
  split
  · exact h
  · dsimp only
    generalize applyObject s 0x7022 0 v = s1 at h1
    split
    · split
      · refine fwRxState_holds _ ?_
        split
        · exact stagedAs_none_holds h1
        · exact stagedAs_judgeImage_holds _ h1 h1
      · exact h
    · split
      · simpa using h1
      · exact h
    · refine fwRxState_holds _ ?_
      split
      · exact stagedAs_none_holds h1
      · exact stagedAs_none_holds h1
      · exact h1

@[simp] theorem cfgRxSetLen_holds (v : Nat) (h : F.Holds (tierSec s)) : F.Holds (tierSec (cfgRxSetLen s v).1) := by
  have h1 : F.Holds (tierSec (applyObject (endStaging s) 0x7024 0 v)) := by simpa using h
  exact h1.unstage rfl (fun f e => by cases e) rfl

@[simp] theorem cfgRxPut_holds (data : Bytes) (h : F.Holds (tierSec s)) : F.Holds (tierSec (cfgRxPut s data).1) := by
  unfold cfgRxPut
  split
  · exact (applyObject_holds 0x7025 0 0 h).unstage rfl (fun f e => by cases e) rfl
  · exact h

@[simp] theorem cfgRxCommand_holds (v : Nat) (h : F.Holds (tierSec s)) : F.Holds (tierSec (cfgRxCommand s v).1) := by
  have h1 := applyObject_holds 0x7026 0 v h
  unfold cfgRxCommand
  dsimp only
  generalize applyObject s 0x7026 0 v = s1 at h1
  split
  · split
    · refine cfgRxState_holds _ ?_
      split
      · exact h1.unstage rfl (by simp) rfl
      · exact installRecord_holds _ h1
    · exact h
  · refine cfgRxState_holds _ ?_
    split
    · exact stagedAs_none_holds h1
    · exact h1

@[simp] theorem writeLog_tierSec (s : State) (by_ : Master) (j v : Nat) : tierSec (writeLog s by_ j v) = tierSec s := by
  simp [writeLog]

@[simp] theorem clearDump_tierSec (s : State) (v : Nat) : tierSec (clearDump s v) = tierSec s := by
  simp [clearDump]

@[simp] theorem writeSecLock_tierSec (s : State) (v : Nat) : tierSec (writeSecLock s v) = tierSec s := by
  simp [writeSecLock]

@[simp] theorem touchLockFor_tierSec (by_ : Master) (i : Nat) (s : State) : tierSec (applyWrite.touchLockFor by_ i s) = tierSec s := by
  unfold applyWrite.touchLockFor
  split <;> simp

@[simp] theorem applyWrite_holds (by_ : Master) (i j : Nat) (value : Bytes) (h : F.Holds (tierSec s)) :
    F.Holds (tierSec (applyWrite s by_ i j value).1) := by
  simp [applyWrite, h]

@[simp] theorem writeObject_holds (by_ : Master) (i j : Nat) (value : Bytes) (h : F.Holds (tierSec s)) :
    F.Holds (tierSec (writeObject s by_ i j value).1) := by
  unfold writeObject
  split <;> simp [h]

@[simp] theorem rxWrite_holds {i : Nat} {act : State → State × Nat}
    (hact : ∀ t, F.Holds (tierSec t) → F.Holds (tierSec (act t).1)) (h : F.Holds (tierSec s)) :
    F.Holds (tierSec (rxWrite s i act)) := by
  unfold rxWrite
  dsimp only
  (repeat' split) <;> simp [h, hact]

@[simp] theorem countAuth_tierSec (s : State) : tierSec (countAuth s) = tierSec s := (rfl)

@[simp] theorem countSeq_tierSec (s : State) : tierSec (countSeq s) = tierSec s := (rfl)

@[simp] theorem putPeer_tierSec (s : State) (p : Peer) : tierSec (putPeer s p) = tierSec s := (rfl)

@[simp] theorem hearPeer_tierSec (s : State) (a : Nat) : tierSec (hearPeer s a) = tierSec s := (rfl)

@[simp] theorem respond_tierSec (s : State) (f : Frame) (status : Nat) (change : Word32) (value : Bytes) :
    tierSec (respond s f status change value) = tierSec s := (rfl)

@[simp] theorem respondKept_tierSec (s : State) (f : Frame) (status : Nat) (change : Word32) (value : Bytes) :
    tierSec (respondKept s f status change value) = tierSec s := (rfl)

@[simp] theorem respondAgain_tierSec (s : State) (f : Frame) (h : BitVec 256) (value : Bytes) :
    tierSec (respondAgain s f h value) = tierSec s := (rfl)

@[simp] theorem runRequest_holds (f : Frame) (h : F.Holds (tierSec s)) : F.Holds (tierSec (runRequest s f).1) := by
  simp [runRequest, h]

@[simp] theorem wakeMgmt_tierSec (s : State) : tierSec (wakeMgmt s) = tierSec s := by simp [wakeMgmt]

@[simp] theorem handFrame_tierSec (s : State) : tierSec (handFrame s) = tierSec s := by simp [handFrame]

@[simp] theorem runOpen_holds (f : Frame) (h : F.Holds (tierSec s)) : F.Holds (tierSec (runOpen s f)) := by simp [runOpen, h]

@[simp] theorem runKept_holds (f : Frame) (h : F.Holds (tierSec s)) : F.Holds (tierSec (runKept s f)) := by simp [runKept, h]

@[simp] theorem receiveOpen_holds (f : Frame) (h : F.Holds (tierSec s)) : F.Holds (tierSec (receiveOpen s f)) := by
  simp [receiveOpen, h]

@[simp] theorem receiveSequenced_holds (f : Frame) (h : F.Holds (tierSec s)) : F.Holds (tierSec (receiveSequenced s f)) := by
  unfold receiveSequenced
  dsimp only
  (repeat' split) <;> simp [h]

@[simp] theorem takeAck_tierSec (s : State) (f : Frame) : tierSec (takeAck s f) = tierSec s := (rfl)

@[simp] theorem checkFrame_holds (f : Frame) (h : F.Holds (tierSec s)) : F.Holds (tierSec (checkFrame s f)) := by
  simp [checkFrame, h]

@[simp] theorem receive_holds (f : Frame) (h : F.Holds (tierSec s)) : F.Holds (tierSec (receive s f)) := by simp [receive, h]

@[simp] theorem copyRead_holds (hint addr n : Nat) (h : F.Holds (tierSec s)) :
    F.Holds (tierSec (copyRead s hint addr n).1) := by
  have bring : F.Holds (tierSec ((pagesOf addr n).foldl (fun st p =>
      let h := effectiveHint st hint p
      if h == 1 then st
      else touchPage (bringPage st p h) p h) s)) :=
    holds_foldl _ _ (fun t p ht => by simp [ht]) h
  exact holds_foldl _ _ (fun t k ht => by simp [ht]) bring

@[simp] theorem pegHost_holds (op q cid : Nat) (h : F.Holds (tierSec s)) :
    F.Holds (tierSec (pegHost op q cid s)) := by
  refine withIo_holds (fun t c ht => ?_) h
  dsimp only
  (repeat' split) <;> simp [ht]

@[simp] theorem threadAnswer_tierSec (s : State) (ctx thr p : Nat) (ok broken : Bool) :
    tierSec (threadAnswer s ctx thr p ok broken) = tierSec s := by
  simp [threadAnswer]

@[simp] theorem pegThread_holds (op ctx thr p : Nat) (v : Word64) (h : F.Holds (tierSec s)) :
    F.Holds (tierSec (pegThread op ctx thr p v s)) := by
  unfold pegThread
  dsimp only
  (repeat' split) <;> simp [h]

@[simp] theorem pegBy_holds (op : Nat) (i : PegIssuer)  (h : F.Holds (tierSec s)) : F.Holds (tierSec (pegBy op i s)) := by
  unfold pegBy
  split <;> simp [h]

@[simp] theorem doorbellWake_tierSec (s : State) : tierSec (doorbellWake s) = tierSec s := by
  simp [doorbellWake]

@[simp] theorem doorbell_holds {fn q v depth : Nat} {act : State → State}
    (hact : ∀ t, F.Holds (tierSec t) → F.Holds (tierSec (act t))) (h : F.Holds (tierSec s)) :
    F.Holds (tierSec (doorbell s fn q v depth act)) := by
  unfold doorbell
  (repeat' split) <;> simp [h, hact]

@[simp] theorem adminDoorbell_tierSec (s : State) (v depth : Nat) (act : Queue → Queue) :
    tierSec (adminDoorbell s v depth act) = tierSec s := by
  simp [adminDoorbell]

@[simp] theorem failEntry_tierSec (s : State) (q : Nat) (u : Queue) : tierSec (failEntry s q u) = tierSec s := by
  simp [failEntry]

@[simp] theorem addPair_tierSec (s : State) (p : QPair) : tierSec (addPair s p) = tierSec s := by
  simp [addPair]

@[simp] theorem endRequest_holds (r : RimeReq) (u : RimeUnit) (code : Nat) (h : F.Holds (tierSec s)) :
    F.Holds (tierSec (endRequest s r u code)) := by simp (disch := simp [h]) [endRequest, h]

@[simp] theorem storeWrite_holds (cell : Nat) (l : Loc) (bs : Bytes) (h : F.Holds (tierSec s)) :
    F.Holds (tierSec (storeWrite s cell l bs)) := by simp [storeWrite, h]

@[simp] theorem readRows_holds (cell : Nat) (srcs : List (Loc × Nat)) (nans : Nat) (h : F.Holds (tierSec s)) :
    F.Holds (tierSec (readRows s cell srcs nans)) := by
  unfold readRows
  dsimp only
  (repeat' split) <;> simp +contextual [h]

@[simp] theorem selectRow_holds (cell : Nat) (ok : Bool) (srcs dsts : List (Loc × Nat)) (nans : Nat) (f : State → State)
    (hf : ∀ t, F.Holds (tierSec t) → F.Holds (tierSec (f t))) (h : F.Holds (tierSec s)) :
    F.Holds (tierSec (selectRow s cell ok srcs dsts nans f)) := by
  unfold selectRow
  (repeat' split) <;> simp [h, hf]

@[simp] theorem setSelection_tierSec (s : State) (cell n : Nat) (f : Bool) : tierSec (setSelection s cell n f) = tierSec s :=
  (rfl)

@[simp] theorem putWords_holds (cell : Nat) (dst : Loc) (input out : List SortWord) (res : Option (Nat × Bool))
    (h : F.Holds (tierSec s)) : F.Holds (tierSec (putWords s cell dst input out res)) := by
  unfold putWords
  split <;> simp [h]

@[simp] theorem loadIr_tierSec (s : State) (code level : Nat) (cond : Bool) : tierSec (loadIr s code level cond) = tierSec s :=
  (rfl)

@[simp] theorem onTap_holds {k : State → State} (hk : ∀ t, F.Holds (tierSec t) → F.Holds (tierSec (k t)))
    (h : F.Holds (tierSec s)) : F.Holds (tierSec (onTap s k)) := by
  unfold onTap
  split <;> simp [h, hk]

@[simp] theorem capture_tierSec (s : State) (code : Nat) (v : BitVec 128) : tierSec (capture s code v) = tierSec s := (rfl)

@[simp] theorem updateDr_tierSec (s : State) (d : BitVec 128) : tierSec (updateDr s d) = tierSec s := by
  simp [updateDr]

@[simp] theorem startOp_tierSec (s : State) (op : Nat) (d : BitVec 128) : tierSec (startOp s op d) = tierSec s := by
  unfold startOp onTap
  (repeat' split) <;> simp

@[simp] theorem opPprQuery_tierSec (s : State) (b : Nat) : tierSec (opPprQuery s b).1 = tierSec s := (rfl)

@[simp] theorem opPprRepair_tierSec (s : State) (b row : Nat) (ok : Bool) : tierSec (opPprRepair s b row ok).1 = tierSec s := by
  simp [opPprRepair]

@[simp] theorem opBbtQuery_tierSec (s : State) (c d : Nat) : tierSec (opBbtQuery s c d).1 = tierSec s := (rfl)

@[simp] theorem opBbtRead_tierSec (s : State) (c d block : Nat) : tierSec (opBbtRead s c d block).1 = tierSec s := by
  simp [opBbtRead]

@[simp] theorem opBbtMark_tierSec (s : State) (c d block : Nat) : tierSec (opBbtMark s c d block).1 = tierSec s := by
  simp [opBbtMark]

@[simp] theorem opLoopStart_tierSec (s : State) (a0 : Nat) : tierSec (opLoopStart s a0).1 = tierSec s := by
  simp [opLoopStart]

@[simp] theorem opLoopStop_tierSec (s : State) : tierSec (opLoopStop s).1 = tierSec s := by
  unfold opLoopStop
  split <;> simp

@[simp] theorem bringupOp_tierSec (s : State) (d : BitVec 128) (ok : Bool) : tierSec (bringupOp s d ok).1 = tierSec s := by
  unfold bringupOp
  (repeat' split) <;> simp

end Sys2Proof.Machine

/-! SUPPORT. Every row of the command table keeps the canonical form of the byte stores, the order of the tier map and what holds
of the staging area: first the frames that rows share (who serves a command), then one lemma for each row. -/

namespace Sys2Proof.Machine

open Sys2Proof

variable {F : StageFloor} {s : State}

/-- A fold of operations that keep it keeps it. -/
theorem stands_foldl {α : Type} (f : State → α → State) (l : List α) (hf : ∀ t a, F.Stands t → F.Stands (f t a))
    (h : F.Stands s) : F.Stands (l.foldl f s) := by
  induction l generalizing s with
  | nil => exact h
  | cons a r ih => exact ih (hf s a h)

theorem withIo_stands {q cid opcode : Nat} {k : State → Cmd → State} (hk : ∀ t c, F.Stands t → F.Stands (k t c))
    (h : F.Stands s) : F.Stands (withIo s q cid opcode k) := by
  unfold withIo
  split
  · exact h
  next c _ =>
    split
    · rcases h.cases with ⟨hw, h⟩ | ⟨hw, h⟩ <;> simp [hw, h]
    · exact hk _ c h

theorem withAdmin_stands {cid opcode : Nat} {k : State → Cmd → State} (hk : ∀ t c, F.Stands t → F.Stands (k t c))
    (h : F.Stands s) : F.Stands (withAdmin s cid opcode k) := by
  have wake : F.Stands (rouseMgmt s 0x09) := by rcases h.cases with ⟨hw, h⟩ | ⟨hw, h⟩ <;> simp [hw, h]
  unfold withAdmin
  split
  · exact h
  next c _ =>
    extract_lets s1
    split
    · rcases h.cases with ⟨hw, h⟩ | ⟨hw, h⟩ <;> simp [hw, h, s1]
    · split
      · rcases h.cases with ⟨hw, h⟩ | ⟨hw, h⟩ <;> simp [hw, h, s1]
      · exact hk _ c wake

theorem spdmServe_stands {k : State → State} (hk : ∀ t, F.Stands t → F.Stands (k t)) (h : F.Stands s) :
    F.Stands (spdmServe s k) := by
  unfold spdmServe
  split
  · exact hk _ (by rcases h.cases with ⟨hw, h⟩ | ⟨hw, h⟩ <;> simp [hw, h])
  · exact h

theorem withinSession_stands {session set : Nat} {k : State → State} (hk : ∀ t, F.Stands t → F.Stands (k t)) (h : F.Stands s) :
    F.Stands (withinSession s session set k) := by
  refine spdmServe_stands (fun t h => ?_) h
  split
  · exact hk _ h
  · rcases h.cases with ⟨hw, h⟩ | ⟨hw, h⟩ <;> simp [hw, h]

theorem mbServe_stands {opcode : Nat} {k : State → State} (hk : ∀ t, F.Stands t → F.Stands (k t)) (h : F.Stands s) :
    F.Stands (mbServe s opcode k) := by
  have wake : F.Stands (rouseMgmt s 0x09) := by rcases h.cases with ⟨hw, h⟩ | ⟨hw, h⟩ <;> simp [hw, h]
  unfold mbServe
  split
  · exact h
  · split
    · exact hk _ wake
    · rcases h.cases with ⟨hw, h⟩ | ⟨hw, h⟩ <;> simp [hw, h]

theorem rowWrite_stands {m : Master} {i j : Nat} {act : State → State × Nat} (hk : ∀ t, F.Stands t → F.Stands (act t).1)
    (h : F.Stands s) : F.Stands (rowWrite s m i j act) := by
  have start : F.Stands (writeStart s m) := by rcases h.cases with ⟨hw, h⟩ | ⟨hw, h⟩ <;> simp [hw, h]
  unfold rowWrite
  extract_lets s1 r
  split
  · have hr : F.Stands r.1 := by
      simp only [r]
      split
      · rcases (hk _ start).cases with ⟨hw, h⟩ | ⟨hw, h⟩ <;> simp [hw, h, s1]
      · exact start
    rcases hr.cases with ⟨hw, h⟩ | ⟨hw, h⟩ <;> simp [hw, h]
  · exact h

theorem rxWrite_stands {i : Nat} {act : State → State × Nat} (hk : ∀ t, F.Stands t → F.Stands (act t).1)
    (h : F.Stands s) : F.Stands (rxWrite s i act) := by
  have start : F.Stands (writeStart s .sideband) := by rcases h.cases with ⟨hw, h⟩ | ⟨hw, h⟩ <;> simp [hw, h]
  unfold rxWrite
  extract_lets s1 o r
  split
  · have hr : F.Stands r.1 := by
      simp only [r]
      split
      · exact start
      · split
        · exact start
        · exact hk _ start
    rcases hr.cases with ⟨hw, h⟩ | ⟨hw, h⟩ <;> simp [hw, h]
  · exact h

theorem onTap_stands {k : State → State} (hk : ∀ t, F.Stands t → F.Stands (k t)) (h : F.Stands s) :
    F.Stands (onTap s k) := by
  unfold onTap
  split
  · exact hk _ h
  · exact h

theorem doorbell_stands {fn q v depth : Nat} {act : State → State} (hk : ∀ t, F.Stands t → F.Stands (act t)) (h : F.Stands s) :
    F.Stands (doorbell s fn q v depth act) := by
  have count (g : LinkCounters → LinkCounters) : F.Stands (updLinkCounters s fn g) := by
    rcases h.cases with ⟨hw, h⟩ | ⟨hw, h⟩ <;> simp [hw, h]
  unfold doorbell
  (repeat' split) <;> simp [h, hk, count]

theorem selectRow_stands {cell nans : Nat} {ok : Bool} {srcs dsts : List (Loc × Nat)} {f : State → State}
    (hk : ∀ t, F.Stands t → F.Stands (f t)) (h : F.Stands s) : F.Stands (selectRow s cell ok srcs dsts nans f) := by
  have read : F.Stands (readRows s cell srcs nans) := by rcases h.cases with ⟨hw, h⟩ | ⟨hw, h⟩ <;> simp [hw, h]
  unfold selectRow
  split
  · rcases h.cases with ⟨hw, h⟩ | ⟨hw, h⟩ <;> simp [hw, h]
  · exact h
  · split
    · split
      · rcases h.cases with ⟨hw, h⟩ | ⟨hw, h⟩ <;> simp [hw, h]
      · exact h
    · exact hk _ read

theorem execSearch_stands {q cid : Nat} {desc : BitVec 1024} {es : List Bytes} (h : F.Stands s) :
    F.Leads (execSearch q cid desc es s) := by
  rcases h.cases with ⟨hw, h⟩ | ⟨hw, h⟩ <;>
    simp [execSearch, hw, h]

theorem execEncodeSearch_stands {q cid : Nat} {desc : BitVec 1024} {es : List Bytes} (h : F.Stands s) :
    F.Leads (execEncodeSearch q cid desc es s) := by
  rcases h.cases with ⟨hw, h⟩ | ⟨hw, h⟩ <;>
    simp [execEncodeSearch, hw, h]

theorem execEncode_stands {q cid : Nat} {desc : BitVec 1024} {es : List Bytes} (h : F.Stands s) :
    F.Leads (execEncode q cid desc es s) := by
  rcases h.cases with ⟨hw, h⟩ | ⟨hw, h⟩ <;>
    simp [execEncode, hw, h]

theorem execRerank_stands {q cid : Nat} {desc : BitVec 1024} {es : List Bytes} (h : F.Stands s) :
    F.Leads (execRerank q cid desc es s) := by
  rcases h.cases with ⟨hw, h⟩ | ⟨hw, h⟩ <;>
    simp [execRerank, hw, h]

theorem execPlanRun_stands {q cid : Nat} {desc : BitVec 1024} (h : F.Stands s) : F.Leads (execPlanRun q cid desc s) := by
  refine withIo_stands (fun t c h => ?_) h
  dsimp only
  (repeat' split) <;> rcases h.cases with ⟨hw, h⟩ | ⟨hw, h⟩ <;>
    simp (disch := simp [hw, h]) [hw, h]

theorem execBayBind_stands {cid : Nat} {hdr : BitVec 1024} {regs : List (BitVec 128)} (h : F.Stands s) :
    F.Leads (execBayBind cid hdr regs s) := by
  refine withAdmin_stands (fun t c h => ?_) h
  rcases h.cases with ⟨hw, h⟩ | ⟨hw, h⟩ <;>
    simp [hw, h]

theorem execResourceDrained_stands {bay : Nat} {r : Resource} (h : F.Stands s) : F.Leads (execResourceDrained bay r s) := by
  have reeval (t : State) (h : F.Stands t) : F.Stands (reevalPieces t) := by
    rcases h.cases with ⟨hw, h⟩ | ⟨hw, h⟩ <;> simp [hw, h]
  have hand (t : State) (r : Resource) (h : F.Stands t) : F.Stands (handOver t r) := by
    rcases h.cases with ⟨hw, h⟩ | ⟨hw, h⟩ <;> simp [hw, h]
  have mark (t : State) (f : Bay → Bay) (h : F.Stands t) : F.Stands (updBay t bay f) := by
    rcases h.cases with ⟨hw, h⟩ | ⟨hw, h⟩ <;> simp [hw, h]
  have clear (t : State) (a : Nat) (h : F.Stands t) : F.Stands (clearArray t a) := by
    rcases h.cases with ⟨hw, h⟩ | ⟨hw, h⟩ <;> simp [hw, h]
  have drop (t : State) (c : Nat) (h : F.Stands t) : F.Stands (dropExclusive t bay c) := by
    rcases h.cases with ⟨hw, h⟩ | ⟨hw, h⟩ <;> simp [hw, h]
  have release (t : State) (c : Nat) (h : F.Stands t) : F.Stands (releaseLease t c) := by
    rcases h.cases with ⟨hw, h⟩ | ⟨hw, h⟩ <;> simp [hw, h]
  have free (t : State) (p : Nat) (h : F.Stands t) : F.Stands (freePeg t p) := by
    rcases h.cases with ⟨hw, h⟩ | ⟨hw, h⟩ <;> simp [hw, h]
  unfold execResourceDrained
  dsimp only
  split
  · exact h
  · refine reeval _ ?_
    split
    · split
      · exact hand _ _ (mark _ _ (clear _ _ h))
      · exact h
    · split
      · exact hand _ _ (mark _ _ h)
      · exact h
    · split
      · split
        · exact hand _ _ (mark _ _ (drop _ _ h))
        · exact release _ _ (mark _ _ (drop _ _ h))
      · exact h
    · exact mark _ _ h
    · split
      · exact mark _ _ (free _ _ h)
      · exact mark _ _ h
    · exact mark _ _ h
    · exact mark _ _ h

theorem execBayReclaim_stands {cid : Nat} (h : F.Stands s) : F.Leads (execBayReclaim cid s) := by
  refine withAdmin_stands (fun t c h => ?_) h
  have fin (st : Nat) : F.Stands (endCmd t adminQ c st 0) := by rcases h.cases with ⟨hw, h⟩ | ⟨hw, h⟩ <;> simp [hw, h]
  have tick : F.Stands (advanceTo t (now t + 1)) := by rcases h.cases with ⟨hw, h⟩ | ⟨hw, h⟩ <;> simp [hw, h]
  have mark (t : State) (b : Nat) (f : Bay → Bay) (h : F.Stands t) : F.Stands (updBay (startCmd t adminQ c) b f) := by
    rcases h.cases with ⟨hw, h⟩ | ⟨hw, h⟩ <;> simp [hw, h]
  have post (t : State) (l : List PendingBind) (h : F.Stands t) :
      F.Stands (l.foldl (fun st p => postCompletion st adminQ p.cid stNoResource 0) t) :=
    stands_foldl _ _ (fun t p h => by rcases h.cases with ⟨hw, h⟩ | ⟨hw, h⟩ <;> simp [hw, h]) h
  have notice (t : State) (p : Nat) (f : Peg → Peg) (h : F.Stands t) : F.Stands (settlePeg (updPeg (pegTurn t p 161) p f) p) := by
    rcases h.cases with ⟨hw, h⟩ | ⟨hw, h⟩ <;> simp (disch := simp [hw, h]) [hw, h]
  have reeval (t : State) (h : F.Stands t) : F.Stands (reevalPieces t) := by
    rcases h.cases with ⟨hw, h⟩ | ⟨hw, h⟩ <;> simp [hw, h]
  extract_lets b grace u e s1 mine _ _ s2
  have h1 : F.Stands s1 := mark _ _ _ (by
    simp only [u]
    split
    · exact tick
    · exact h)
  have h2 : F.Stands s2 := post _ _ ⟨h1.1, h1.2⟩
  (repeat' split) <;> simp only [fin, reeval, notice, h2]

theorem execReclaimGraceExpiry_stands {bay : Nat} (h : F.Stands s) : F.Leads (execReclaimGraceExpiry bay s) := by
  unfold execReclaimGraceExpiry
  dsimp only
  split <;> rcases h.cases with ⟨hw, h⟩ | ⟨hw, h⟩ <;>
    simp [hw, h]

theorem execReclaimComplete_stands {bay : Nat} (h : F.Stands s) : F.Leads (execReclaimComplete bay s) := by
  unfold execReclaimComplete
  dsimp only
  split <;> rcases h.cases with ⟨hw, h⟩ | ⟨hw, h⟩ <;>
    simp (disch := simp [hw, h]) [hw, h]

theorem execFrameZeroed_stands {frame : Nat} (h : F.Stands s) : F.Leads (execFrameZeroed frame s) := by
  have clear (t : State) (h : F.Stands t) : F.Stands (clearFrame t frame) := by
    rcases h.cases with ⟨hw, h⟩ | ⟨hw, h⟩ <;> simp [hw, h]
  have put (t : State) (e : Frame_) (h : F.Stands t) : F.Stands (setFrame t e) := by
    rcases h.cases with ⟨hw, h⟩ | ⟨hw, h⟩ <;> simp [hw, h]
  have drop (t : State) (l : List Nat) (h : F.Stands t) : F.Stands (vacateLate (dropLocal t l)) := by
    rcases h.cases with ⟨hw, h⟩ | ⟨hw, h⟩ <;> simp [hw, h]
  unfold execFrameZeroed
  dsimp only
  split
  · exact h
  · exact drop _ _ (put _ _ (clear _ h))

theorem execContextFault_stands {ctx cause : Nat} (h : F.Stands s) : F.Leads (execContextFault ctx cause s) := by
  rcases h.cases with ⟨hw, h⟩ | ⟨hw, h⟩ <;>
    simp [execContextFault, hw, h]

theorem execBePromotion_stands {bay ctx : Nat} (h : F.Stands s) : F.Leads (execBePromotion bay ctx s) := by
  unfold execBePromotion
  split <;> rcases h.cases with ⟨hw, h⟩ | ⟨hw, h⟩ <;>
    simp (disch := simp [hw, h]) [hw, h]

theorem execPromotionQuantumEnd_stands {bay : Nat} (h : F.Stands s) : F.Leads (execPromotionQuantumEnd bay s) := by
  unfold execPromotionQuantumEnd
  split <;> rcases h.cases with ⟨hw, h⟩ | ⟨hw, h⟩ <;>
    simp (disch := simp [hw, h]) [hw, h]

theorem execNsCreate_stands {cid : Nat} (h : F.Stands s) : F.Leads (execNsCreate cid s) := by
  refine withAdmin_stands (fun t c h => ?_) h
  have fin (t : State) (st r : Nat) (h : F.Stands t) : F.Stands (endCmd t adminQ c st r) := by
    rcases h.cases with ⟨hw, h⟩ | ⟨hw, h⟩ <;> simp [hw, h]
  have regions (t : State) (p : IndexParams) (rs : List PartRegion) (h : F.Stands t) : F.Stands (rs.foldl (fun st r => createRegion st (partRegion p r)) t) :=
    stands_foldl _ _ (fun t d h => by rcases h.cases with ⟨hw, h⟩ | ⟨hw, h⟩ <;> simp [hw, h]) h
  have add (t : State) (x : Index) (h : F.Stands t) : F.Stands (refreshLevels (addIndex t x)) := by
    rcases h.cases with ⟨hw, h⟩ | ⟨hw, h⟩ <;> simp [hw, h]
  dsimp only
  split
  · exact fin _ _ _ h
  · exact fin _ _ _ (add _ _ (regions _ _ _ h))

theorem execNsDelete_stands {cid : Nat} (h : F.Stands s) : F.Leads (execNsDelete cid s) := by
  refine withAdmin_stands (fun t c h => ?_) h
  dsimp only
  split <;> rcases h.cases with ⟨hw, h⟩ | ⟨hw, h⟩ <;>
    simp [hw, h]

theorem execNsDeleteRelease_stands {index : Nat} (h : F.Stands s) : F.Leads (execNsDeleteRelease index s) := by
  have drop (t : State) (l : List PartRegion) (h : F.Stands t) : F.Stands (l.foldl (fun st r => dropRegionAt st r.base) t) :=
    stands_foldl _ _ (fun t d h => by rcases h.cases with ⟨hw, h⟩ | ⟨hw, h⟩ <;> simp [hw, h]) h
  have post (t : State) (cid : Nat) (h : F.Stands t) : F.Stands (postCompletion (refreshLevels t) adminQ cid stOk 0) := by
    rcases h.cases with ⟨hw, h⟩ | ⟨hw, h⟩ <;> simp [hw, h]
  unfold execNsDeleteRelease
  split
  · exact h
  · split
    · exact h
    · split
      · exact h
      · have h1 (l : List PartRegion) := drop s l h
        exact post _ _ ⟨(h1 _).1, (h1 _).2⟩

theorem execInsert_stands {q cid : Nat} {block : Bytes} (h : F.Stands s) : F.Leads (execInsert q cid block s) := by
  refine withIo_stands (fun t c h => ?_) h
  dsimp only
  (repeat' split) <;> rcases h.cases with ⟨hw, h⟩ | ⟨hw, h⟩ <;>
    simp (disch := simp [hw, h]) [hw, h]

theorem execDelete_stands {q cid : Nat} {ids : List Word64} (h : F.Stands s) : F.Leads (execDelete q cid ids s) := by
  refine withIo_stands (fun t c h => ?_) h
  dsimp only
  (repeat' split) <;> rcases h.cases with ⟨hw, h⟩ | ⟨hw, h⟩ <;>
    simp [hw, h]

theorem execJournalWriteDone_stands {q cid : Nat} (h : F.Stands s) : F.Leads (execJournalWriteDone q cid s) := by
  unfold execJournalWriteDone
  (repeat' split) <;> rcases h.cases with ⟨hw, h⟩ | ⟨hw, h⟩ <;>
    simp (disch := simp [hw, h]) [hw, h]

theorem execFirnMergeDrift_stands {cid : Nat} (h : F.Stands s) : F.Leads (execFirnMergeDrift cid s) := by
  rcases h.cases with ⟨hw, h⟩ | ⟨hw, h⟩ <;>
    simp [execFirnMergeDrift, hw, h]

theorem execFirnMergeSweep_stands {cid : Nat} (h : F.Stands s) : F.Leads (execFirnMergeSweep cid s) := by
  rcases h.cases with ⟨hw, h⟩ | ⟨hw, h⟩ <;>
    simp [execFirnMergeSweep, hw, h]

theorem execFirnRoundStart_stands {index : Nat} (h : F.Stands s) : F.Leads (execFirnRoundStart index s) := by
  have regions (t : State) (p : IndexParams) (rs : List PartRegion) (h : F.Stands t) : F.Stands (rs.foldl (fun st r => createRegion st (partRegion p r)) t) :=
    stands_foldl _ _ (fun t d h => by rcases h.cases with ⟨hw, h⟩ | ⟨hw, h⟩ <;> simp [hw, h]) h
  have put (t : State) (f : Index → Index) (h : F.Stands t) : F.Stands (updIndex t index f) := by
    rcases h.cases with ⟨hw, h⟩ | ⟨hw, h⟩ <;> simp [hw, h]
  have use (t : State) (n : Nat) (h : F.Stands t) : F.Stands { t with free := n } := ⟨h.1, h.2⟩
  unfold execFirnRoundStart
  dsimp only
  split
  · exact h
  · split
    · split
      · exact h
      · split
        · exact h
        · exact put _ _ (use _ _ (regions _ _ _ h))
    · exact h

theorem execIndexVersionRaise_stands {index : Nat} (h : F.Stands s) : F.Leads (execIndexVersionRaise index s) := by
  have tick (t : State) (h : F.Stands t) : F.Stands (advanceTo t (now t + 1)) := by
    rcases h.cases with ⟨hw, h⟩ | ⟨hw, h⟩ <;> simp [hw, h]
  have put (t : State) (f : Index → Index) (h : F.Stands t) : F.Stands (updIndex t index f) := by
    rcases h.cases with ⟨hw, h⟩ | ⟨hw, h⟩ <;> simp [hw, h]
  have write (t : State) (x : Index) (l : List (Nat × Bytes)) (h : F.Stands t) : F.Stands (writeStore t x l) := by
    rcases h.cases with ⟨hw, h⟩ | ⟨hw, h⟩ <;> simp [hw, h]
  have fin (t : State) (st : Option Nat) (h : F.Stands t) : F.Stands (endMerge t index st) := by
    rcases h.cases with ⟨hw, h⟩ | ⟨hw, h⟩ <;> simp [hw, h]
  have sweep (t : State) (l : List (Nat × Nat × Nat)) (h : F.Stands t) :
      F.Stands { t with health := { t.health with lostUnits := l } } := ⟨h.1, h.2⟩
  unfold execIndexVersionRaise
  dsimp only
  split
  · exact h
  · split
    · exact h
    · split
      · exact h
      · have h0 : F.Stands (if (queriesOn s index).any (fun q => q.decided == now s) then advanceTo s (now s + 1) else s) := by
          split
          · exact tick _ h
          · exact h
        split
        · exact fin _ _ (sweep _ _ (write _ _ _ (put _ _ h0)))
        · exact sweep _ _ (write _ _ _ (put _ _ h0))

theorem execFirnRoundCutoff_stands {index : Nat} {cause : CutoffCause} (h : F.Stands s) :
    F.Leads (execFirnRoundCutoff index cause s) := by
  unfold execFirnRoundCutoff
  (repeat' split) <;> rcases h.cases with ⟨hw, h⟩ | ⟨hw, h⟩ <;>
    simp [hw, h]

theorem execVersionRelease_stands {index version : Nat} (h : F.Stands s) : F.Leads (execVersionRelease index version s) := by
  unfold execVersionRelease
  (repeat' split) <;> rcases h.cases with ⟨hw, h⟩ | ⟨hw, h⟩ <;>
    simp [hw, h]

theorem execIndexReplayDone_stands {index : Nat} (h : F.Stands s) : F.Leads (execIndexReplayDone index s) := by
  unfold execIndexReplayDone
  split <;> rcases h.cases with ⟨hw, h⟩ | ⟨hw, h⟩ <;>
    simp (disch := simp [hw, h]) [hw, h]

theorem execPlanLoad_stands {cid : Nat} {image : ImageRead} (h : F.Stands s) : F.Leads (execPlanLoad cid image s) := by
  refine withAdmin_stands (fun t c h => ?_) h
  have fin (t : State) (st r : Nat) (h : F.Stands t) : F.Stands (endCmd t adminQ c st r) := by
    rcases h.cases with ⟨hw, h⟩ | ⟨hw, h⟩ <;> simp [hw, h]
  have fault (t : State) (f : LinkCounters → LinkCounters) (h : F.Stands t) : F.Stands (updLinkCounters t 0 f) := by
    rcases h.cases with ⟨hw, h⟩ | ⟨hw, h⟩ <;> simp [hw, h]
  have poison (t : State) (l : List Nat) (h : F.Stands t) : F.Stands (l.foldl poisonFilled t) :=
    stands_foldl _ _ (fun t d h => by rcases h.cases with ⟨hw, h⟩ | ⟨hw, h⟩ <;> simp [hw, h]) h
  have accept (t : State) (ctx : Nat) (m : Image) (h : F.Stands t) : F.Stands ((acceptPlan t ctx m).1) := by
    rcases h.cases with ⟨hw, h⟩ | ⟨hw, h⟩ <;> simp [hw, h]
  have start (t : State) (n st r : Nat) (l : List Nat) (h : F.Stands t) : F.Stands (completeAfter (startCmd (reevalPieces t) adminQ c) adminQ n st r l) := by
    rcases h.cases with ⟨hw, h⟩ | ⟨hw, h⟩ <;> simp (disch := simp [hw, h]) [hw, h]
  dsimp only
  split
  · exact fin _ _ _ h
  · split
    · exact fin _ _ _ (fault _ _ h)
    · split
      · exact h
      · split
        · exact fin _ _ _ h
        · split
          · exact h
          · split
            · exact fin _ _ _ (poison _ _ h)
            · exact start _ _ _ _ _ (accept _ _ _ h)

theorem execPlanUnload_stands {cid : Nat} (h : F.Stands s) : F.Leads (execPlanUnload cid s) := by
  refine withAdmin_stands (fun t c h => ?_) h
  dsimp only
  split <;> rcases h.cases with ⟨hw, h⟩ | ⟨hw, h⟩ <;>
    simp [hw, h]

theorem execPlanUnloadRelease_stands {handle : Nat} (h : F.Stands s) : F.Leads (execPlanUnloadRelease handle s) := by
  unfold execPlanUnloadRelease
  (repeat' split) <;> rcases h.cases with ⟨hw, h⟩ | ⟨hw, h⟩ <;>
    simp [hw, h]

theorem execLogGet_stands {cid : Nat} (h : F.Stands s) : F.Leads (execLogGet cid s) := by
  refine withAdmin_stands (fun t c h => ?_) h
  rcases h.cases with ⟨hw, h⟩ | ⟨hw, h⟩ <;>
    simp [hw, h]

theorem execQueryWorkStart_stands {slot : Nat} (h : F.Stands s) : F.Leads (execQueryWorkStart slot s) := by
  unfold execQueryWorkStart
  dsimp only
  (repeat' split) <;> rcases h.cases with ⟨hw, h⟩ | ⟨hw, h⟩ <;>
    simp (disch := simp [hw, h]) [hw, h]

theorem execScribeReadComplete_stands {slot pair : Nat} {m : UnitRead} (h : F.Stands s) :
    F.Leads (execScribeReadComplete slot pair m s) := by
  unfold execScribeReadComplete
  (repeat' split) <;> rcases h.cases with ⟨hw, h⟩ | ⟨hw, h⟩ <;>
    simp (disch := simp [hw, h]) [hw, h]

theorem execHopComplete_stands {slot : Nat} (h : F.Stands s) : F.Leads (execHopComplete slot s) := by
  unfold execHopComplete
  (repeat' split) <;> rcases h.cases with ⟨hw, h⟩ | ⟨hw, h⟩ <;>
    simp [hw, h]

theorem execDramRecordReadDone_stands {slot localId : Nat} {m : DramRead} (h : F.Stands s) :
    F.Leads (execDramRecordReadDone slot localId m s) := by
  have charge (t : State) (x : Query) (r : DramReq) (h : F.Stands t) : F.Stands (chargeDram t x r) := by
    rcases h.cases with ⟨hw, h⟩ | ⟨hw, h⟩ <;> simp [hw, h]
  have read (t : State) (i : Index) (h : F.Stands t) : F.Stands ((readRecord t i localId m).1) := by
    rcases h.cases with ⟨hw, h⟩ | ⟨hw, h⟩ <;> simp [hw, h]
  have fail (t : State) (x : Query) (h : F.Stands t) : F.Stands (failQuery t x stMediaUe) := by
    rcases h.cases with ⟨hw, h⟩ | ⟨hw, h⟩ <;> simp [hw, h]
  have ticket (t : State) (h : F.Stands t) : F.Stands (takeTicket t) := by
    rcases h.cases with ⟨hw, h⟩ | ⟨hw, h⟩ <;> simp [hw, h]
  have put (t : State) (f : Query → Query) (h : F.Stands t) : F.Stands (updQuery t slot f) := by
    rcases h.cases with ⟨hw, h⟩ | ⟨hw, h⟩ <;> simp [hw, h]
  unfold execDramRecordReadDone
  split
  · exact h
  next x _ =>
    split
    next i v p _ _ =>
      extract_lets req r y z w
      have hr : F.Stands r.1 := read _ i (charge s x req h)
      split
      · exact h
      · split
        · exact fail _ _ hr
        · split
          · exact put _ _ (ticket _ hr)
          · exact put _ _ hr
    · exact h

theorem execDriftBlockScanned_stands {slot block cell : Nat} (h : F.Stands s) :
    F.Leads (execDriftBlockScanned slot block cell s) := by
  have charge (t : State) (x : Query) (r : DramReq) (h : F.Stands t) : F.Stands (chargeDram t x r) := by
    rcases h.cases with ⟨hw, h⟩ | ⟨hw, h⟩ <;> simp [hw, h]
  have touch (t : State) (i : Index) (l : List PartRead) (h : F.Stands t) : F.Stands (touchReads t i l) := by
    rcases h.cases with ⟨hw, h⟩ | ⟨hw, h⟩ <;> simp [hw, h]
  have fail (t : State) (x : Query) (h : F.Stands t) : F.Stands (failQuery t x stMediaUe) := by
    rcases h.cases with ⟨hw, h⟩ | ⟨hw, h⟩ <;> simp [hw, h]
  have settle (t : State) (f : Query → Query) (h : F.Stands t) : F.Stands (settleSearch (updQuery t slot f) slot) := by
    rcases h.cases with ⟨hw, h⟩ | ⟨hw, h⟩ <;> simp [hw, h]
  unfold execDriftBlockScanned
  dsimp only
  split
  · exact h
  · split
    · split
      · exact h
      · split
        · exact fail _ _ (touch _ _ _ (charge _ _ _ h))
        · exact settle _ _ (touch _ _ _ (charge _ _ _ h))
    · exact h

theorem execRerankSlotArrival_stands {slot localId : Nat} {m : DramRead} (h : F.Stands s) :
    F.Leads (execRerankSlotArrival slot localId m s) := by
  unfold execRerankSlotArrival
  (repeat' split) <;> rcases h.cases with ⟨hw, h⟩ | ⟨hw, h⟩ <;>
    simp (disch := simp [hw, h]) [hw, h]

theorem execBraceRebuildDone_stands {slot pair : Nat} {ok : Bool} (h : F.Stands s) :
    F.Leads (execBraceRebuildDone slot pair ok s) := by
  unfold execBraceRebuildDone
  (repeat' split) <;> rcases h.cases with ⟨hw, h⟩ | ⟨hw, h⟩ <;>
    simp [hw, h]

theorem execRerankDone_stands {slot : Nat} (h : F.Stands s) : F.Leads (execRerankDone slot s) := by
  unfold execRerankDone
  (repeat' split) <;> rcases h.cases with ⟨hw, h⟩ | ⟨hw, h⟩ <;>
    simp [hw, h]

theorem execGuardTime_stands {slot : Nat} (h : F.Stands s) : F.Leads (execGuardTime slot s) := by
  have tick (t : State) (n : Nat) (h : F.Stands t) : F.Stands (advanceTo t n) := by
    rcases h.cases with ⟨hw, h⟩ | ⟨hw, h⟩ <;> simp [hw, h]
  have abandon (t : State) (x : Query) (p : Plan) (h : F.Stands t) : F.Stands (abandonCuts t x p) := by
    rcases h.cases with ⟨hw, h⟩ | ⟨hw, h⟩ <;> simp [hw, h]
  have fail (t : State) (x : Query) (st : Nat) (h : F.Stands t) : F.Stands (failQuery t x st) := by
    rcases h.cases with ⟨hw, h⟩ | ⟨hw, h⟩ <;> simp [hw, h]
  have hop (t : State) (x : Query) (h : F.Stands t) : F.Stands (endHop t x) := by
    rcases h.cases with ⟨hw, h⟩ | ⟨hw, h⟩ <;> simp [hw, h]
  have cut (t : State) (x : Query) (p : Plan) (h : F.Stands t) : F.Stands (truncateQuery t x p) := by
    rcases h.cases with ⟨hw, h⟩ | ⟨hw, h⟩ <;> simp [hw, h]
  unfold execGuardTime
  split
  · exact h
  · split
    · exact h
    · extract_lets s0 s1 s2
      have h1 : F.Stands s1 := by
        simp only [s1]
        split
        · exact abandon _ _ _ (tick _ _ h)
        · exact tick _ _ h
      have h2 : F.Stands s2 := by
        simp only [s2]
        split
        · exact hop _ _ h1
        · exact h1
      split
      · exact fail _ _ _ h1
      · split
        · exact h2
        · split
          · exact h2
          · split
            · exact h2
            · exact cut _ _ _ h2

theorem execBaySliceExpiry_stands {bay : Nat} (h : F.Stands s) : F.Leads (execBaySliceExpiry bay s) := by
  unfold execBaySliceExpiry
  dsimp only
  (repeat' split) <;> rcases h.cases with ⟨hw, h⟩ | ⟨hw, h⟩ <;>
    simp [hw, h]

theorem execCutStart_stands {slot cut : Nat} (h : F.Stands s) : F.Leads (execCutStart slot cut s) := by
  have wait (t : State) (st : Nat) (x : Query) (h : F.Stands t) : F.Stands (endWaiting st t x) := by
    rcases h.cases with ⟨hw, h⟩ | ⟨hw, h⟩ <;> simp [hw, h]
  have hold (t : State) (x : Query) (d : Cut) (h : F.Stands t) : F.Stands (holdSlice t x d) := by
    rcases h.cases with ⟨hw, h⟩ | ⟨hw, h⟩ <;> simp [hw, h]
  have count (t : State) (n : Nat) (f : Plan → Plan) (h : F.Stands t) : F.Stands (updPlan t n f) := by
    rcases h.cases with ⟨hw, h⟩ | ⟨hw, h⟩ <;> simp [hw, h]
  have promote (t : State) (a b c : Nat) (h : F.Stands t) : F.Stands (usePromoted t a b c) := by
    rcases h.cases with ⟨hw, h⟩ | ⟨hw, h⟩ <;> simp [hw, h]
  have mark (t : State) (f : Query → Query) (h : F.Stands t) : F.Stands (updQuery t slot f) := by
    rcases h.cases with ⟨hw, h⟩ | ⟨hw, h⟩ <;> simp [hw, h]
  have stream (t : State) (p : Plan) (n : Nat) (l : List Nat) (h : F.Stands t) : F.Stands (startStream t p n l) := by
    rcases h.cases with ⟨hw, h⟩ | ⟨hw, h⟩ <;> simp [hw, h]
  have fault (t : State) (c n : Nat) (h : F.Stands t) : F.Stands (faultContext t c n) := by
    rcases h.cases with ⟨hw, h⟩ | ⟨hw, h⟩ <;> simp [hw, h]
  unfold execCutStart
  split
  · exact h
  next x _ =>
    split
    next p d _ _ =>
      extract_lets _ s1 s2 s3
      have h1 : F.Stands s1 := count _ _ _ (hold _ _ _ h)
      have h3 : F.Stands s3 := mark _ _ (by
        simp only [s2]
        split
        · exact promote _ _ _ _ h1
        · exact h1)
      split
      · exact wait _ _ _ h
      · split
        · exact h
        · split
          · exact h
          · split
            · split
              · exact stream _ _ _ _ h3
              · exact fault _ _ _ h3
            · exact h3
    · exact h

theorem execCutEnd_stands {slot cut : Nat} {work : List CutOp} (h : F.Stands s) : F.Leads (execCutEnd slot cut work s) := by
  unfold execCutEnd
  (repeat' split) <;> rcases h.cases with ⟨hw, h⟩ | ⟨hw, h⟩ <;>
    simp [hw, h]

theorem execWeightArrival_stands {handle obj : Nat} {m : Media} (h : F.Stands s) : F.Leads (execWeightArrival handle obj m s) := by
  have put (t : State) (f : WeightObj → WeightObj) (h : F.Stands t) : F.Stands (updWeight t handle obj f) := by
    rcases h.cases with ⟨hw, h⟩ | ⟨hw, h⟩ <;> simp [hw, h]
  have wait (t : State) (st : Nat) (l : List Query) (h : F.Stands t) : F.Stands (l.foldl (endWaiting st) t) :=
    stands_foldl _ _ (fun t d h => by rcases h.cases with ⟨hw, h⟩ | ⟨hw, h⟩ <;> simp [hw, h]) h
  have poison (t : State) (o : WeightObj) (h : F.Stands t) : F.Stands (poisonObject t o) := by
    rcases h.cases with ⟨hw, h⟩ | ⟨hw, h⟩ <;> simp [hw, h]
  have mark (t : State) (o : WeightObj) (h : F.Stands t) : F.Stands (markObject t o) := by
    rcases h.cases with ⟨hw, h⟩ | ⟨hw, h⟩ <;> simp [hw, h]
  have finish (t : State) (o : WeightObj) (h : F.Stands t) : F.Stands (finishStream t o) := by
    rcases h.cases with ⟨hw, h⟩ | ⟨hw, h⟩ <;> simp [hw, h]
  have signal (t : State) (a g : Nat) (h : F.Stands t) : F.Stands (signalPeg t a g) := by
    rcases h.cases with ⟨hw, h⟩ | ⟨hw, h⟩ <;> simp [hw, h]
  unfold execWeightArrival
  split
  · exact h
  · split
    · exact h
    · split
      · exact h
      · split
        · exact wait _ _ _ (put _ _ h)
        · split
          · split
            · exact poison _ _ h
            · exact wait _ _ _ (put _ _ (mark _ _ h))
          · split
            · exact signal _ _ _ (put _ _ (finish _ _ h))
            · exact put _ _ (finish _ _ h)

theorem execPageFault_stands {bay addr : Nat} {write lc : Bool} (h : F.Stands s) :
    F.Leads (execPageFault bay addr write lc s) := by
  unfold execPageFault
  dsimp only
  split <;> rcases h.cases with ⟨hw, h⟩ | ⟨hw, h⟩ <;>
    simp [hw, h]

theorem execFillSectorArrival_stands {page sector : Nat} {m : Media} {rebuilt : Bool} (h : F.Stands s) :
    F.Leads (execFillSectorArrival page sector m rebuilt s) := by
  have fill (t : State) (n : Nat) (h : F.Stands t) : F.Stands (fillSector t n sector) := by
    rcases h.cases with ⟨hw, h⟩ | ⟨hw, h⟩ <;> simp [hw, h]
  have poison (t : State) (n : Nat) (h : F.Stands t) : F.Stands (poisonSector t n sector) := by
    rcases h.cases with ⟨hw, h⟩ | ⟨hw, h⟩ <;> simp [hw, h]
  have dirty (t : State) (n : Nat) (h : F.Stands t) : F.Stands (markDirty t n sector) := by
    rcases h.cases with ⟨hw, h⟩ | ⟨hw, h⟩ <;> simp [hw, h]
  have serve (t : State) (h : F.Stands t) : F.Stands (freeCustody (serveReady t) page) := by
    rcases h.cases with ⟨hw, h⟩ | ⟨hw, h⟩ <;> simp [hw, h]
  have leave (t : State) (e : Frame_) (h : F.Stands t) : F.Stands (fillLeaving t e sector) := by
    rcases h.cases with ⟨hw, h⟩ | ⟨hw, h⟩ <;> simp [hw, h]
  unfold execFillSectorArrival
  split
  · split
    · exact h
    · refine serve _ ?_
      split
      · exact poison _ _ (fill _ _ h)
      · split
        · exact dirty _ _ (fill _ _ h)
        · exact fill _ _ h
  · split
    · exact leave _ _ h
    · exact h
  · exact h

theorem execCleanerWriteback_stands {bay : Nat} (h : F.Stands s) : F.Leads (execCleanerWriteback bay s) := by
  have write (t : State) (l : List Frame_) (h : F.Stands t) : F.Stands (l.foldl (fun st e => startWriteback st e.num) t) :=
    stands_foldl _ _ (fun t d h => by rcases h.cases with ⟨hw, h⟩ | ⟨hw, h⟩ <;> simp [hw, h]) h
  unfold execCleanerWriteback
  split
  · exact h
  · exact write _ _ h

theorem execWritebackDone_stands {page group home : Nat} (h : F.Stands s) : F.Leads (execWritebackDone page group home s) := by
  unfold execWritebackDone
  split <;> rcases h.cases with ⟨hw, h⟩ | ⟨hw, h⟩ <;>
    simp (disch := simp [hw, h]) [hw, h]

theorem execReservedEventPlace_stands {ev : Reserved} {window : Nat} (h : F.Stands s) :
    F.Leads (execReservedEventPlace ev window s) := by
  rcases h.cases with ⟨hw, h⟩ | ⟨hw, h⟩ <;>
    simp (disch := simp [hw, h]) [execReservedEventPlace, hw, h]

theorem execReservedEventForced_stands {ev : Reserved} (h : F.Stands s) : F.Leads (execReservedEventForced ev s) := by
  have place (t : State) (w : Nat) (h : F.Stands t) : F.Stands (undefer (beginPiece (withPlaced t ev w) ev w) ev) := by
    rcases h.cases with ⟨hw, h⟩ | ⟨hw, h⟩ <;> simp (disch := simp [hw, h]) [hw, h]
  have count (t : State) (l : List Nat) (f : AdmCounters → AdmCounters) (h : F.Stands t) : F.Stands (l.foldl (fun st b => updCounters st b f) t) :=
    stands_foldl _ _ (fun t d h => by rcases h.cases with ⟨hw, h⟩ | ⟨hw, h⟩ <;> simp [hw, h]) h
  unfold execReservedEventForced
  split
  · exact h
  · split
    · exact h
    · exact count _ _ _ (place _ _ h)

theorem execRetrainingPause_stands {channel : Nat} (h : F.Stands s) : F.Leads (execRetrainingPause channel s) := by
  unfold execRetrainingPause
  split <;> rcases h.cases with ⟨hw, h⟩ | ⟨hw, h⟩ <;>
    simp (disch := simp [hw, h]) [hw, h]

theorem execFlashPePieceEnd_stands {channel die : Nat} (h : F.Stands s) : F.Leads (execFlashPePieceEnd channel die s) := by
  have take (t : State) (e : Placed) (h : F.Stands t) : F.Stands (markTaken (advanceTo t e.window) e) := by
    rcases h.cases with ⟨hw, h⟩ | ⟨hw, h⟩ <;> simp [hw, h]
  have free (t : State) (d : Die) (h : F.Stands t) : F.Stands (releasePieceWaits (setDie t d)) := by
    rcases h.cases with ⟨hw, h⟩ | ⟨hw, h⟩ <;> simp [hw, h]
  unfold execFlashPePieceEnd
  split
  · exact h
  · exact free _ _ (take _ _ h)

theorem execEvacuationStart_stands {channel : Nat} {kind : DepKind} (h : F.Stands s) :
    F.Leads (execEvacuationStart channel kind s) := by
  rcases h.cases with ⟨hw, h⟩ | ⟨hw, h⟩ <;>
    simp (disch := simp [hw, h]) [execEvacuationStart, hw, h]

theorem execPieceRelocated_stands {src dst : Nat} (h : F.Stands s) : F.Leads (execPieceRelocated src dst s) := by
  unfold execPieceRelocated
  split <;> rcases h.cases with ⟨hw, h⟩ | ⟨hw, h⟩ <;>
    simp [hw, h]

theorem execEvacuationCopyWindow_stands {window : CopyWindow} (h : F.Stands s) : F.Leads (execEvacuationCopyWindow window s) := by
  unfold execEvacuationCopyWindow
  split <;> rcases h.cases with ⟨hw, h⟩ | ⟨hw, h⟩ <;>
    simp [hw, h]

theorem execEvacuationCopyEnd_stands (h : F.Stands s) : F.Leads (execEvacuationCopyEnd s) := by
  have tick (t : State) (n : Nat) (h : F.Stands t) : F.Stands (advanceTo t n) := by
    rcases h.cases with ⟨hw, h⟩ | ⟨hw, h⟩ <;> simp [hw, h]
  have vacate (t : State) (c : Nat) (h : F.Stands t) : F.Stands (vacateLate (spareLocals t c)) := by
    rcases h.cases with ⟨hw, h⟩ | ⟨hw, h⟩ <;> simp [hw, h]
  have bind (t : State) (b c : Nat) (p : PendingBind) (f : PendingBind → PendingBind) (h : F.Stands t) : F.Stands (awaitLess (bindExclusive t b c) p f) := by
    rcases h.cases with ⟨hw, h⟩ | ⟨hw, h⟩ <;> simp [hw, h]
  have release (t : State) (c : Nat) (h : F.Stands t) : F.Stands (releaseLease t c) := by
    rcases h.cases with ⟨hw, h⟩ | ⟨hw, h⟩ <;> simp [hw, h]
  have retire (t : State) (c n : Nat) (h : F.Stands t) : F.Stands (logError (freeRetired t c) errChannelRetired c n) := by
    rcases h.cases with ⟨hw, h⟩ | ⟨hw, h⟩ <;> simp [hw, h]
  have leave (t : State) (l : List Departure) (h : F.Stands t) :
      F.Stands { t with tier := { t.tier with evacuation := none, departures := l } } := ⟨h.1, h.2⟩
  unfold execEvacuationCopyEnd
  dsimp only
  split
  · exact h
  · split
    · exact h
    · have h2 (n c : Nat) (l : List Departure) := vacate _ c (leave _ l (tick s n h))
      split
      · exact h2 _ _ _
      · split
        · split
          · exact bind _ _ _ _ _ (h2 _ _ _)
          · exact release _ _ (h2 _ _ _)
        · exact retire _ _ _ (h2 _ _ _)
        · exact h2 _ _ _

theorem execReturnCopyEnd_stands (h : F.Stands s) : F.Leads (execReturnCopyEnd s) := by
  have tick (t : State) (n : Nat) (h : F.Stands t) : F.Stands (advanceTo t n) := by
    rcases h.cases with ⟨hw, h⟩ | ⟨hw, h⟩ <;> simp [hw, h]
  have home (t : State) (c : Nat) (h : F.Stands t) : F.Stands (unspareLocals t c) := by
    rcases h.cases with ⟨hw, h⟩ | ⟨hw, h⟩ <;> simp [hw, h]
  have free (t : State) (n : Nat) (h : F.Stands t) : F.Stands (freeSpares t n) := by
    rcases h.cases with ⟨hw, h⟩ | ⟨hw, h⟩ <;> simp [hw, h]
  have start (t : State) (h : F.Stands t) : F.Stands (startReturn (vacateLate t)) := by
    rcases h.cases with ⟨hw, h⟩ | ⟨hw, h⟩ <;> simp [hw, h]
  have place (t : State) (l : List Placed) (m : List Departure) (h : F.Stands t) :
      F.Stands { t with
        adm := { t.adm with placed := l }, tier := { t.tier with evacuation := none, departures := m } } := ⟨h.1, h.2⟩
  unfold execReturnCopyEnd
  dsimp only
  split
  · split
    · exact h
    · refine start _ ?_
      split
      · exact free _ _ (home _ _ (place _ _ _ (tick _ _ h)))
      · exact home _ _ (place _ _ _ (tick _ _ h))
  · exact h

theorem execReplenishment_stands {entry : Nat} (h : F.Stands s) : F.Leads (execReplenishment entry s) := by
  have spare (ds : List Nat) (t : State) (h : F.Stands t) : F.Stands (ds.foldl (fun st x => vacate st x .spare) t) :=
    stands_foldl _ _ (fun t d h => by rcases h.cases with ⟨hw, h⟩ | ⟨hw, h⟩ <;> simp [hw, h]) h
  have announce (t : State) (l : List (Nat × Nat)) (n : Nat) (h : F.Stands t) : F.Stands (announceCopy t l n).1 := by
    rcases h.cases with ⟨hw, h⟩ | ⟨hw, h⟩ <;> simp [hw, h]
  have mark (t : State) (l : List Departure) (h : F.Stands t) : F.Stands { t with tier := { t.tier with departures := l } } :=
    ⟨h.1, h.2⟩
  unfold execReplenishment
  split
  · exact h
  next d _ =>
    split
    · exact h
    · exact mark _ _ (announce _ _ _ (spare _ _ (spare _ _ h)))

theorem execWeightRebuildDone_stands {addr : Nat} {ok : Bool} (h : F.Stands s) : F.Leads (execWeightRebuildDone addr ok s) := by
  have rebuild (t : State) (l : List Nat) (h : F.Stands t) : F.Stands (l.foldl rebuildSector t) :=
    stands_foldl _ _ (fun t d h => by rcases h.cases with ⟨hw, h⟩ | ⟨hw, h⟩ <;> simp [hw, h]) h
  have lose (t : State) (o : WeightObj) (l : List Nat) (h : F.Stands t) : F.Stands (loseObject t o l) := by
    rcases h.cases with ⟨hw, h⟩ | ⟨hw, h⟩ <;> simp [hw, h]
  have done (t : State) (l : List WeightHealth) (h : F.Stands t) : F.Stands { t with tier := { t.tier with weights := l } } :=
    ⟨h.1, h.2⟩
  unfold execWeightRebuildDone
  split
  · exact h
  · split
    · exact h
    · split
      · exact done _ _ (rebuild _ _ h)
      · split
        · exact lose _ _ _ h
        · exact h

theorem execPtmRequest_stands (h : F.Stands s) : F.Leads (execPtmRequest s) := by
  rcases h.cases with ⟨hw, h⟩ | ⟨hw, h⟩ <;>
    simp [execPtmRequest, hw, h]

theorem execPtmExchange_stands {hostTime : Nat} (h : F.Stands s) : F.Leads (execPtmExchange hostTime s) := by
  rcases h.cases with ⟨hw, h⟩ | ⟨hw, h⟩ <;>
    simp [execPtmExchange, hw, h]

theorem execPtmTimeout_stands (h : F.Stands s) : F.Leads (execPtmTimeout s) := by
  unfold execPtmTimeout
  split <;> rcases h.cases with ⟨hw, h⟩ | ⟨hw, h⟩ <;>
    simp [hw, h]

theorem execDtbForwardStep_stands (h : F.Stands s) : F.Leads (execDtbForwardStep s) := by
  unfold execDtbForwardStep
  split <;> rcases h.cases with ⟨hw, h⟩ | ⟨hw, h⟩ <;>
    simp [hw, h]

theorem execDtbStepAbandon_stands (h : F.Stands s) : F.Leads (execDtbStepAbandon s) := by
  unfold execDtbStepAbandon
  split <;> rcases h.cases with ⟨hw, h⟩ | ⟨hw, h⟩ <;>
    simp [hw, h]

theorem execPtmEnableWrite_stands {on : Bool} (h : F.Stands s) : F.Leads (execPtmEnableWrite on s) := by
  rcases h.cases with ⟨hw, h⟩ | ⟨hw, h⟩ <;>
    simp [execPtmEnableWrite, hw, h]

theorem execDryFitComplete_stands (h : F.Stands s) : F.Leads (execDryFitComplete s) := by
  rcases h.cases with ⟨hw, h⟩ | ⟨hw, h⟩ <;>
    simp [execDryFitComplete, hw, h]

theorem execRaiseRefit_stands (h : F.Stands s) : F.Leads (execRaiseRefit s) := by
  unfold execRaiseRefit
  (repeat' split) <;> rcases h.cases with ⟨hw, h⟩ | ⟨hw, h⟩ <;>
    simp (disch := simp (disch := simp [hw, h]) [hw, h]) [hw, h]

theorem execDictRaise_stands (h : F.Stands s) : F.Leads (execDictRaise s) := by
  unfold execDictRaise
  dsimp only
  (repeat' split) <;> rcases h.cases with ⟨hw, h⟩ | ⟨hw, h⟩ <;>
    simp [hw, h]

theorem execRaiseExpiry_stands (h : F.Stands s) : F.Leads (execRaiseExpiry s) := by
  unfold execRaiseExpiry
  split <;> rcases h.cases with ⟨hw, h⟩ | ⟨hw, h⟩ <;>
    simp (disch := simp [hw, h]) [hw, h]

theorem execLockLapse_stands (h : F.Stands s) : F.Leads (execLockLapse s) := by
  rcases h.cases with ⟨hw, h⟩ | ⟨hw, h⟩ <;>
    simp (disch := simp [hw, h]) [execLockLapse, hw, h]

theorem execStageLockTake_stands {by_ : Master} (h : F.Stands s) : F.Leads (execStageLockTake by_ s) := by
  refine rowWrite_stands (fun t h => ?_) h
  rcases h.cases with ⟨hw, h⟩ | ⟨hw, h⟩ <;>
    simp [hw, h]

theorem execStageLockRelease_stands {by_ : Master} (h : F.Stands s) : F.Leads (execStageLockRelease by_ s) := by
  refine rowWrite_stands (fun t h => ?_) h
  rcases h.cases with ⟨hw, h⟩ | ⟨hw, h⟩ <;>
    simp [hw, h]

theorem execStageDiscard_stands {by_ : Master} (h : F.Stands s) : F.Leads (execStageDiscard by_ s) := by
  refine rowWrite_stands (fun t h => ?_) h
  rcases h.cases with ⟨hw, h⟩ | ⟨hw, h⟩ <;>
    simp [hw, h]

theorem execDryFit_stands {by_ : Master} (h : F.Stands s) : F.Leads (execDryFit by_ s) := by
  refine rowWrite_stands (fun t h => ?_) h
  rcases h.cases with ⟨hw, h⟩ | ⟨hw, h⟩ <;>
    simp [hw, h]

theorem execRaiseImmediate_stands {by_ : Master} (h : F.Stands s) : F.Leads (execRaiseImmediate by_ s) := by
  refine rowWrite_stands (fun t h => ?_) h
  rcases h.cases with ⟨hw, h⟩ | ⟨hw, h⟩ <;>
    simp [hw, h]

theorem execRaiseAtTime_stands {by_ : Master} {t : Word64} (h : F.Stands s) : F.Leads (execRaiseAtTime by_ t s) := by
  refine rowWrite_stands (fun t h => ?_) h
  rcases h.cases with ⟨hw, h⟩ | ⟨hw, h⟩ <;>
    simp [hw, h]

theorem execRaiseAtIdle_stands {by_ : Master} {limit : Word64} (h : F.Stands s) : F.Leads (execRaiseAtIdle by_ limit s) := by
  refine rowWrite_stands (fun t h => ?_) h
  rcases h.cases with ⟨hw, h⟩ | ⟨hw, h⟩ <;>
    simp [hw, h]

theorem execRaiseCancel_stands {by_ : Master} (h : F.Stands s) : F.Leads (execRaiseCancel by_ s) := by
  refine rowWrite_stands (fun t h => ?_) h
  rcases h.cases with ⟨hw, h⟩ | ⟨hw, h⟩ <;>
    simp [hw, h]

theorem execFlashPeFail_stands {channel die block : Nat} (h : F.Stands s) : F.Leads (execFlashPeFail channel die block s) := by
  rcases h.cases with ⟨hw, h⟩ | ⟨hw, h⟩ <;>
    simp [execFlashPeFail, hw, h]

theorem execFlashPatrol_stands {channel die block retries : Nat} {bitsHigh : Bool} (h : F.Stands s) :
    F.Leads (execFlashPatrol channel die block retries bitsHigh s) := by
  rcases h.cases with ⟨hw, h⟩ | ⟨hw, h⟩ <;>
    simp [execFlashPatrol, hw, h]

theorem execMediaUnitRebuild_stands {channel die unit : Nat} {ok : Bool} (h : F.Stands s) :
    F.Leads (execMediaUnitRebuild channel die unit ok s) := by
  unfold execMediaUnitRebuild
  (repeat' split) <;> rcases h.cases with ⟨hw, h⟩ | ⟨hw, h⟩ <;>
    simp [hw, h]

theorem execIndexStructureRestored_stands {index : Nat} {st : IndexStruct} (h : F.Stands s) :
    F.Leads (execIndexStructureRestored index st s) := by
  have fold (ds : List Nat) (t : State) (h : F.Stands t) : F.Stands (ds.foldl refreshPoison t) :=
    stands_foldl _ _ (fun t d h => by rcases h.cases with ⟨hw, h⟩ | ⟨hw, h⟩ <;> simp [hw, h]) h
  have log (t : State) (a b c : Nat) (h : F.Stands t) : F.Stands (logError (bumpFree (bumpFree t)) a b c) := by
    rcases h.cases with ⟨hw, h⟩ | ⟨hw, h⟩ <;> simp (disch := simp [hw, h]) [hw, h]
  unfold execIndexStructureRestored
  split
  · exact h
  · split
    · exact h
    · exact log _ _ _ _ (fold _ _ (by rcases h.cases with ⟨hw, h⟩ | ⟨hw, h⟩ <;> simp [hw, h]))

theorem execDramScrubPass_stands {set : Nat} {corrected : List (Nat × Nat)} (h : F.Stands s) :
    F.Leads (execDramScrubPass set corrected s) := by
  unfold execDramScrubPass
  split
  · exact h
  · extract_lets mine s1
    have h1 : F.Stands s1 :=
      stands_foldl _ _ (fun t d ht => by rcases ht.cases with ⟨hw, h⟩ | ⟨hw, h⟩ <;> simp [hw, h])
        (by rcases h.cases with ⟨hw, h⟩ | ⟨hw, h⟩ <;> simp [hw, h])
    rcases h1.cases with ⟨hw, h⟩ | ⟨hw, h⟩ <;> simp [hw, h]

theorem execDramRowFailing_stands {bank row : Nat} {uncorrectable : Bool} (h : F.Stands s) :
    F.Leads (execDramRowFailing bank row uncorrectable s) := by
  have poison : F.Stands (poisonRow s bank row).1 := by rcases h.cases with ⟨hw, h⟩ | ⟨hw, h⟩ <;> simp [hw, h]
  have log (t : State) (a b c : Nat) (h : F.Stands t) : F.Stands (logError t a b c) := by
    rcases h.cases with ⟨hw, h⟩ | ⟨hw, h⟩ <;> simp [hw, h]
  have hold (ds : List Nat) (t : State) (h : F.Stands t) : F.Stands (ds.foldl holdFrame t) :=
    stands_foldl _ _ (fun t d h => by rcases h.cases with ⟨hw, h⟩ | ⟨hw, h⟩ <;> simp [hw, h]) h
  have note (t : State) (v : BankHealth) (h : F.Stands t) : F.Stands (setBankHealth t v) := by
    rcases h.cases with ⟨hw, h⟩ | ⟨hw, h⟩ <;> simp [hw, h]
  have want (t : State) (c : Nat) (h : F.Stands t) : F.Stands (wantDeparture t c .temporary) := by
    rcases h.cases with ⟨hw, h⟩ | ⟨hw, h⟩ <;> simp [hw, h]
  have retire (t : State) (c : Nat) (ds : List Nat) (h : F.Stands t) : F.Stands (retireFrames t c ds) := by
    rcases h.cases with ⟨hw, h⟩ | ⟨hw, h⟩ <;> simp [hw, h]
  unfold execDramRowFailing
  extract_lets v c frames left t s1 s2 s3 s4
  have h1 : F.Stands s1 := by
    simp only [s1]
    split
    · exact log _ _ _ _ poison
    · exact h
  have h3 : F.Stands s3 := hold _ _ (log _ _ _ _ h1)
  split
  · exact h
  · split
    · split
      · exact want _ _ (note _ _ h3)
      · exact note _ _ h3
    · exact retire _ _ _ h3

theorem execFullRetrainingDone_stands {channel : Nat} (h : F.Stands s) : F.Leads (execFullRetrainingDone channel s) := by
  unfold execFullRetrainingDone
  split <;> rcases h.cases with ⟨hw, h⟩ | ⟨hw, h⟩ <;>
    simp [hw, h]

theorem execMonitorSample_stands {kind unit : Nat} {v0 v1 v2 v3 limit : Word32} (h : F.Stands s) :
    F.Leads (execMonitorSample kind unit v0 v1 v2 v3 limit s) := by
  rcases h.cases with ⟨hw, h⟩ | ⟨hw, h⟩ <;>
    simp [execMonitorSample, hw, h]

theorem execMarginPlanBuild_stands {trigger : Nat} {m : MarginItems} (h : F.Stands s) :
    F.Leads (execMarginPlanBuild trigger m s) := by
  have wake (l : List Nat) : F.Stands (needDomains (rouseMgmt s 0x09) l) := by rcases h.cases with ⟨hw, h⟩ | ⟨hw, h⟩ <;> simp [hw, h]
  have due (t u : State) (h : F.Stands t) (h' : F.Stands u) (c : Bool) (n : State → Nat) :
      F.Stands (if c then { t with health := { t.health with planDue := t.health.planDue + n t } } else u) := by
    split
    · rcases h.cases with ⟨hw, h⟩ | ⟨hw, h⟩ <;> simp [hw, h]
    · exact h'
  have tick (t : State) (n : Nat) (h : F.Stands t) : F.Stands (advanceTo t n) := by
    rcases h.cases with ⟨hw, h⟩ | ⟨hw, h⟩ <;> simp [hw, h]
  have log (t : State) (a b : Nat) (e f g i j : Word32) (k l m : Nat) (h : F.Stands t) :
      F.Stands (logError (logMoraine (bumpFree t) a b e f g i j) k l m) := by
    rcases h.cases with ⟨hw, h⟩ | ⟨hw, h⟩ <;> simp (disch := simp [hw, h]) [hw, h]
  have plan (t : State) (p : MarginPlan) (h : F.Stands t) : F.Stands { t with health := { t.health with plan := some p } } :=
    ⟨h.1, h.2⟩
  have exhaust (ds : List Nat) (t : State) (h : F.Stands t) : F.Stands (ds.foldl exhaustArray t) :=
    stands_foldl _ _ (fun t d h => by rcases h.cases with ⟨hw, h⟩ | ⟨hw, h⟩ <;> simp [hw, h]) h
  unfold execMarginPlanBuild
  split
  · exact h
  · extract_lets s0 t _ s1 p s2 s3 s4
    have h0 : F.Stands s0 := wake _
    have ht : F.Stands t := tick _ _ h0
    have h2 : F.Stands s2 := exhaust _ _ (due _ _ ht h0 _ marginPeriod)
    have h4 : F.Stands s4 := log _ _ _ _ _ _ _ _ _ _ _ h2
    exact plan _ _ h4

theorem execMarginPlanRaise_stands (h : F.Stands s) : F.Leads (execMarginPlanRaise s) := by
  unfold execMarginPlanRaise
  split
  · exact h
  next p _ =>
    extract_lets s1 _ s2
    have h1 : F.Stands s1 :=
      stands_foldl _ _ (fun t d ht => by rcases ht.cases with ⟨hw, h⟩ | ⟨hw, h⟩ <;> simp [hw, h]) h
    exact stands_foldl _ _ (fun t d ht => by rcases ht.cases with ⟨hw, h⟩ | ⟨hw, h⟩ <;> simp [hw, h])
      (by rcases h1.cases with ⟨hw, h⟩ | ⟨hw, h⟩ <;> simp [hw, h, s2])

theorem execLinkDown_stands (h : F.Stands s) : F.Leads (execLinkDown s) := by
  rcases h.cases with ⟨hw, h⟩ | ⟨hw, h⟩ <;>
    simp [execLinkDown, hw, h]

theorem execVfFlr_stands {fn : Nat} (h : F.Stands s) : F.Leads (execVfFlr fn s) := by
  rcases h.cases with ⟨hw, h⟩ | ⟨hw, h⟩ <;>
    simp [execVfFlr, hw, h]

theorem execPfFlr_stands (h : F.Stands s) : F.Leads (execPfFlr s) := by
  rcases h.cases with ⟨hw, h⟩ | ⟨hw, h⟩ <;>
    simp [execPfFlr, hw, h]

theorem execHotReset_stands (h : F.Stands s) : F.Leads (execHotReset s) := by
  rcases h.cases with ⟨hw, h⟩ | ⟨hw, h⟩ <;>
    simp (disch := simp [hw, h]) [execHotReset, hw, h]

theorem execVfEnableClear_stands (h : F.Stands s) : F.Leads (execVfEnableClear s) := by
  rcases h.cases with ⟨hw, h⟩ | ⟨hw, h⟩ <;>
    simp [execVfEnableClear, hw, h]

theorem execVfEnableSet_stands (h : F.Stands s) : F.Leads (execVfEnableSet s) := by
  rcases h.cases with ⟨hw, h⟩ | ⟨hw, h⟩ <;>
    simp [execVfEnableSet, hw, h]

theorem execLinkTrained_stands {cxlMode : Bool} {width rate : Nat} {flit256 : Bool} (h : F.Stands s) :
    F.Leads (execLinkTrained cxlMode width rate flit256 s) := by
  rcases h.cases with ⟨hw, h⟩ | ⟨hw, h⟩ <;>
    simp [execLinkTrained, hw, h]

theorem execLinkLoopbackEntry_stands {rate : Nat} (h : F.Stands s) : F.Leads (execLinkLoopbackEntry rate s) := by
  rcases h.cases with ⟨hw, h⟩ | ⟨hw, h⟩ <;>
    simp [execLinkLoopbackEntry, hw, h]

theorem execCxlCacheEnable_stands {on : Bool} (h : F.Stands s) : F.Leads (execCxlCacheEnable on s) := by
  rcases h.cases with ⟨hw, h⟩ | ⟨hw, h⟩ <;>
    simp [execCxlCacheEnable, hw, h]

theorem execCxlCacheSnoop_stands {line : Nat} (h : F.Stands s) : F.Leads (execCxlCacheSnoop line s) := by
  rcases h.cases with ⟨hw, h⟩ | ⟨hw, h⟩ <;>
    simp [execCxlCacheSnoop, hw, h]

theorem execCxlMemEnable_stands {on : Bool} (h : F.Stands s) : F.Leads (execCxlMemEnable on s) := by
  rcases h.cases with ⟨hw, h⟩ | ⟨hw, h⟩ <;>
    simp [execCxlMemEnable, hw, h]

theorem execHdmDecoderCommit_stands {n base size skip : Nat} (h : F.Stands s) :
    F.Leads (execHdmDecoderCommit n base size skip s) := by
  unfold execHdmDecoderCommit
  split <;> rcases h.cases with ⟨hw, h⟩ | ⟨hw, h⟩ <;>
    simp [hw, h]

theorem execCxlMemRead_stands {r : HostRead} (h : F.Stands s) : F.Leads (execCxlMemRead r s) := by
  unfold execCxlMemRead
  dsimp only
  (repeat' split) <;> rcases h.cases with ⟨hw, h⟩ | ⟨hw, h⟩ <;>
    simp (disch := simp [hw, h]) [hw, h]

theorem execCxlMemWrite_stands {hpa : Nat} {data : Bytes} (h : F.Stands s) : F.Leads (execCxlMemWrite hpa data s) := by
  unfold execCxlMemWrite
  dsimp only
  (repeat' split) <;> rcases h.cases with ⟨hw, h⟩ | ⟨hw, h⟩ <;>
    simp [hw, h]

theorem execBisnpinv_stands {line : Nat} (h : F.Stands s) : F.Leads (execBisnpinv line s) := by
  rcases h.cases with ⟨hw, h⟩ | ⟨hw, h⟩ <;>
    simp [execBisnpinv, hw, h]

theorem execCdatTableAccess_stands {tableType entry : Nat} (h : F.Stands s) :
    F.Leads (execCdatTableAccess tableType entry s) := by
  unfold execCdatTableAccess
  split <;> rcases h.cases with ⟨hw, h⟩ | ⟨hw, h⟩ <;>
    simp [hw, h]

theorem execDoeDiscovery_stands {index : Nat} (h : F.Stands s) : F.Leads (execDoeDiscovery index s) := by
  rcases h.cases with ⟨hw, h⟩ | ⟨hw, h⟩ <;>
    simp [execDoeDiscovery, hw, h]

theorem execIdeIntegrityFail_stands {stream : Nat} (h : F.Stands s) : F.Leads (execIdeIntegrityFail stream s) := by
  unfold execIdeIntegrityFail
  (repeat' split) <;> rcases h.cases with ⟨hw, h⟩ | ⟨hw, h⟩ <;>
    simp (disch := simp (disch := simp [hw, h]) [hw, h]) [hw, h]

theorem execFatalError_stands {cause unit : Nat} {inCxl : Bool} (h : F.Stands s) :
    F.Leads (execFatalError cause unit inCxl s) := by
  rcases h.cases with ⟨hw, h⟩ | ⟨hw, h⟩ <;>
    simp [execFatalError, hw, h]

theorem execDumpWritten_stands (h : F.Stands s) : F.Leads (execDumpWritten s) := by
  rcases h.cases with ⟨hw, h⟩ | ⟨hw, h⟩ <;>
    simp [execDumpWritten, hw, h]

theorem execMgmtCodeCheck_stands {digest : Nat} (h : F.Stands s) : F.Leads (execMgmtCodeCheck digest s) := by
  unfold execMgmtCodeCheck
  split <;> rcases h.cases with ⟨hw, h⟩ | ⟨hw, h⟩ <;>
    simp [hw, h]

theorem execMgmtRestart_stands (h : F.Stands s) : F.Leads (execMgmtRestart s) := by
  unfold execMgmtRestart
  (repeat' split) <;> rcases h.cases with ⟨hw, h⟩ | ⟨hw, h⟩ <;>
    simp (disch := simp (disch := simp [hw, h]) [hw, h]) [hw, h]

theorem execSelfTestShort_stands {cid : Nat} (h : F.Stands s) : F.Leads (execSelfTestShort cid s) := by
  refine withAdmin_stands (fun t c h => ?_) h
  rcases h.cases with ⟨hw, h⟩ | ⟨hw, h⟩ <;>
    simp [hw, h]

theorem execSelfTestExtended_stands {cid : Nat} (h : F.Stands s) : F.Leads (execSelfTestExtended cid s) := by
  refine withAdmin_stands (fun t c h => ?_) h
  rcases h.cases with ⟨hw, h⟩ | ⟨hw, h⟩ <;>
    simp [hw, h]

theorem execSelfTestStop_stands {cid : Nat} (h : F.Stands s) : F.Leads (execSelfTestStop cid s) := by
  refine withAdmin_stands (fun t c h => ?_) h
  (repeat' split) <;> rcases h.cases with ⟨hw, h⟩ | ⟨hw, h⟩ <;>
    simp [hw, h]

theorem execSelfTestDone_stands {failures : List (BitVec 512)} {items yieldNs : Nat} (h : F.Stands s) :
    F.Leads (execSelfTestDone failures items yieldNs s) := by
  unfold execSelfTestDone
  (repeat' split) <;> rcases h.cases with ⟨hw, h⟩ | ⟨hw, h⟩ <;>
    simp (disch := simp (disch := simp [hw, h]) [hw, h]) [hw, h]

theorem execMgmtReady_stands (h : F.Stands s) : F.Leads (execMgmtReady s) := by
  rcases h.cases with ⟨hw, h⟩ | ⟨hw, h⟩ <;>
    simp [execMgmtReady, hw, h]

theorem execDomainTimerRet_stands {n : Nat} (h : F.Stands s) : F.Leads (execDomainTimerRet n s) := by
  rcases h.cases with ⟨hw, h⟩ | ⟨hw, h⟩ <;>
    simp [execDomainTimerRet, hw, h]

theorem execDomainTimerOff_stands {n : Nat} (h : F.Stands s) : F.Leads (execDomainTimerOff n s) := by
  rcases h.cases with ⟨hw, h⟩ | ⟨hw, h⟩ <;>
    simp [execDomainTimerOff, hw, h]

theorem execDomainEntryDone_stands {n : Nat} (h : F.Stands s) : F.Leads (execDomainEntryDone n s) := by
  unfold execDomainEntryDone
  extract_lets d
  split
  next t _ =>
    extract_lets s1 s2 s3
    have h2 : F.Stands s2 := by rcases h.cases with ⟨hw, h⟩ | ⟨hw, h⟩ <;> simp [hw, h, s1, s2]
    have h3 : F.Stands s3 := by
      simp only [s3]
      split <;> rcases h2.cases with ⟨hw, h⟩ | ⟨hw, h⟩ <;> simp [hw, h]
    split
    · exact h3
    · rcases h3.cases with ⟨hw, h⟩ | ⟨hw, h⟩ <;> simp [hw, h]
  · exact h

theorem execDomainWake_stands {n source : Nat} (h : F.Stands s) : F.Leads (execDomainWake n source s) := by
  rcases h.cases with ⟨hw, h⟩ | ⟨hw, h⟩ <;>
    simp [execDomainWake, hw, h]

theorem execDomainWakeDone_stands {n : Nat} (h : F.Stands s) : F.Leads (execDomainWakeDone n s) := by
  rcases h.cases with ⟨hw, h⟩ | ⟨hw, h⟩ <;>
    simp (disch := simp [hw, h]) [execDomainWakeDone, hw, h]

theorem execDtbComparator_stands {i : Nat} (h : F.Stands s) : F.Leads (execDtbComparator i s) := by
  unfold execDtbComparator
  dsimp only
  (repeat' split) <;> rcases h.cases with ⟨hw, h⟩ | ⟨hw, h⟩ <;>
    simp [hw, h]

theorem execComparatorTrip_stands {c : Comparator} {value : Nat} (h : F.Stands s) : F.Leads (execComparatorTrip c value s) := by
  unfold execComparatorTrip
  split
  · exact h
  · extract_lets _ s1 _ s2 s3
    have h2 : F.Stands s2 := by
      simp only [s2]
      split <;> rcases h.cases with ⟨hw, h⟩ | ⟨hw, h⟩ <;> simp [hw, h, s1]
    have h3 : F.Stands s3 :=
      stands_foldl _ _ (fun t d ht => by rcases ht.cases with ⟨hw, h⟩ | ⟨hw, h⟩ <;> simp [hw, h]) h2
    rcases h3.cases with ⟨hw, h⟩ | ⟨hw, h⟩ <;> simp [hw, h]

theorem execComparatorRelease_stands {r : InputReading} (h : F.Stands s) : F.Leads (execComparatorRelease r s) := by
  rcases h.cases with ⟨hw, h⟩ | ⟨hw, h⟩ <;>
    simp (disch := simp [hw, h]) [execComparatorRelease, hw, h]

theorem execPowerCapThrottle_stands {watts : Nat} (h : F.Stands s) : F.Leads (execPowerCapThrottle watts s) := by
  rcases h.cases with ⟨hw, h⟩ | ⟨hw, h⟩ <;>
    simp [execPowerCapThrottle, hw, h]

theorem execPowerCapThrottleLift_stands {watts : Nat} (h : F.Stands s) : F.Leads (execPowerCapThrottleLift watts s) := by
  rcases h.cases with ⟨hw, h⟩ | ⟨hw, h⟩ <;>
    simp [execPowerCapThrottleLift, hw, h]

theorem execThrottleNAssert_stands (h : F.Stands s) : F.Leads (execThrottleNAssert s) := by
  rcases h.cases with ⟨hw, h⟩ | ⟨hw, h⟩ <;>
    simp [execThrottleNAssert, hw, h]

theorem execThrottleNRelease_stands (h : F.Stands s) : F.Leads (execThrottleNRelease s) := by
  rcases h.cases with ⟨hw, h⟩ | ⟨hw, h⟩ <;>
    simp (disch := simp [hw, h]) [execThrottleNRelease, hw, h]

theorem execMgmtPllLock_stands (h : F.Stands s) : F.Leads (execMgmtPllLock s) := by
  rcases h.cases with ⟨hw, h⟩ | ⟨hw, h⟩ <;>
    simp [execMgmtPllLock, hw, h]

theorem execPerstNAssert_stands (h : F.Stands s) : F.Leads (execPerstNAssert s) := by
  rcases h.cases with ⟨hw, h⟩ | ⟨hw, h⟩ <;>
    simp [execPerstNAssert, hw, h]

theorem execDumpCopied_stands (h : F.Stands s) : F.Leads (execDumpCopied s) := by
  rcases h.cases with ⟨hw, h⟩ | ⟨hw, h⟩ <;>
    simp [execDumpCopied, hw, h]

theorem execPerstNRelease_stands (h : F.Stands s) : F.Leads (execPerstNRelease s) := by
  rcases h.cases with ⟨hw, h⟩ | ⟨hw, h⟩ <;>
    simp (disch := simp [hw, h]) [execPerstNRelease, hw, h]

theorem execPwrEnRise_stands (h : F.Stands s) : F.Leads (execPwrEnRise s) := by
  rcases h.cases with ⟨hw, h⟩ | ⟨hw, h⟩ <;>
    simp [execPwrEnRise, hw, h]

theorem execPwrEnFall_stands (h : F.Stands s) : F.Leads (execPwrEnFall s) := by
  unfold execPwrEnFall
  extract_lets _ s1 _ _ s2 s3
  have h1 : F.Stands s1 := by rcases h.cases with ⟨hw, h⟩ | ⟨hw, h⟩ <;> simp [hw, h, s1]
  have h2 : F.Stands s2 := by
    simp only [s2]
    split <;> rcases h1.cases with ⟨hw, h⟩ | ⟨hw, h⟩ <;> simp [hw, h]
  have fold : F.Stands ((beContexts s2).foldl tearDown s2) :=
    stands_foldl _ _ (fun t d ht => by rcases ht.cases with ⟨hw, h⟩ | ⟨hw, h⟩ <;> simp [hw, h]) h2
  have h3 : F.Stands s3 := by rcases fold.cases with ⟨hw, h⟩ | ⟨hw, h⟩ <;> simp [hw, h, s3]
  split
  · exact h1
  · split
    · exact h3
    · rcases h3.cases with ⟨hw, h⟩ | ⟨hw, h⟩ <;> simp [hw, h]

theorem execMainPowerLoss_stands (h : F.Stands s) : F.Leads (execMainPowerLoss s) := by
  rcases h.cases with ⟨hw, h⟩ | ⟨hw, h⟩ <;>
    simp [execMainPowerLoss, hw, h]

theorem execMainInputReturn_stands {millivolts : Nat} (h : F.Stands s) : F.Leads (execMainInputReturn millivolts s) := by
  rcases h.cases with ⟨hw, h⟩ | ⟨hw, h⟩ <;>
    simp [execMainInputReturn, hw, h]

theorem execAuxLoss_stands (h : F.Stands s) : F.Leads (execAuxLoss s) := by
  rcases h.cases with ⟨hw, h⟩ | ⟨hw, h⟩ <;>
    simp (disch := simp [hw, h]) [execAuxLoss, hw, h]

theorem execEvidenceSign_stands (h : F.Stands s) : F.Leads (execEvidenceSign s) := by
  unfold execEvidenceSign
  (repeat' split) <;> rcases h.cases with ⟨hw, h⟩ | ⟨hw, h⟩ <;>
    simp [hw, h]

theorem execNegotiateAlgorithms_stands {hash aead dhe sig : Bool} (h : F.Stands s) :
    F.Leads (execNegotiateAlgorithms hash aead dhe sig s) := by
  refine spdmServe_stands (fun t h => ?_) h
  rcases h.cases with ⟨hw, h⟩ | ⟨hw, h⟩ <;>
    simp [hw, h]

theorem execGetCertificate_stands {slot offset len : Nat} (h : F.Stands s) : F.Leads (execGetCertificate slot offset len s) := by
  refine spdmServe_stands (fun t h => ?_) h
  split <;> rcases h.cases with ⟨hw, h⟩ | ⟨hw, h⟩ <;>
    simp [hw, h]

theorem execChallenge_stands {slot : Nat} {nonce : BitVec 256} (h : F.Stands s) : F.Leads (execChallenge slot nonce s) := by
  refine spdmServe_stands (fun t h => ?_) h
  rcases h.cases with ⟨hw, h⟩ | ⟨hw, h⟩ <;>
    simp [hw, h]

theorem execGetMeasurements_stands {slot : Nat} {nonce : BitVec 256} (h : F.Stands s) :
    F.Leads (execGetMeasurements slot nonce s) := by
  refine spdmServe_stands (fun t h => ?_) h
  rcases h.cases with ⟨hw, h⟩ | ⟨hw, h⟩ <;>
    simp [hw, h]

theorem execSpdmEvidenceRequest_stands {value : Bytes} (h : F.Stands s) : F.Leads (execSpdmEvidenceRequest value s) := by
  refine spdmServe_stands (fun t h => ?_) h
  rcases h.cases with ⟨hw, h⟩ | ⟨hw, h⟩ <;>
    simp [hw, h]

theorem execSpdmKeyExchange_stands (h : F.Stands s) : F.Leads (execSpdmKeyExchange s) := by
  refine spdmServe_stands (fun t h => ?_) h
  rcases h.cases with ⟨hw, h⟩ | ⟨hw, h⟩ <;>
    simp [hw, h]

theorem execKeyProg_stands {session : Nat} {dir : StreamDir} {set : Nat} {key : BitVec 256} (h : F.Stands s) :
    F.Leads (execKeyProg session dir set key s) := by
  refine withinSession_stands (fun t h => ?_) h
  rcases h.cases with ⟨hw, h⟩ | ⟨hw, h⟩ <;>
    simp [hw, h]

theorem execKSetGo_stands {session : Nat} {dir : StreamDir} {set : Nat} (h : F.Stands s) :
    F.Leads (execKSetGo session dir set s) := by
  refine withinSession_stands (fun t h => ?_) h
  rcases h.cases with ⟨hw, h⟩ | ⟨hw, h⟩ <;>
    simp (disch := simp [hw, h]) [hw, h]

theorem execKSetStop_stands {session : Nat} {dir : StreamDir} {set : Nat} (h : F.Stands s) :
    F.Leads (execKSetStop session dir set s) := by
  refine withinSession_stands (fun t h => ?_) h
  rcases h.cases with ⟨hw, h⟩ | ⟨hw, h⟩ <;>
    simp [hw, h]

theorem execFwStage_stands {cid : Nat} {image : Bytes} (h : F.Stands s) : F.Leads (execFwStage cid image s) := by
  refine withAdmin_stands (fun t c h => ?_) h
  have fin (t : State) (st : Nat) (h : F.Stands t) : F.Stands (endCmd t adminQ c st 0) := by rcases h.cases with ⟨hw, h⟩ | ⟨hw, h⟩ <;> simp [hw, h]
  have drop : F.Stands (stagedAs (updLinkCounters t 0 (fun k => { k with hostFaults := wrapAdd 64 k.hostFaults 1 })) none) := by
    rcases h.cases with ⟨hw, h⟩ | ⟨hw, h⟩ <;> simp [hw, stagedAs_none_holds, h]
  have start : F.Stands (startCmd (startWake t 1 0x09) adminQ c) := by rcases h.cases with ⟨hw, h⟩ | ⟨hw, h⟩ <;> simp [hw, h]
  have verify (bs : Bytes) (t : State) (h : F.Stands t) : F.Stands { t with sec := { t.sec with staging := .verifying c.cid bs } } :=
    ⟨h.1, h.2.unstage rfl (by simp) rfl⟩
  dsimp only
  (repeat' split) <;> simp only [fin, h, drop, start, verify]

theorem execFwActivate_stands {cid : Nat} {m0 m1 : Media} (h : F.Stands s) : F.Leads (execFwActivate cid m0 m1 s) := by
  refine withAdmin_stands (fun t c h => ?_) h
  split <;> rcases h.cases with ⟨hw, h⟩ | ⟨hw, h⟩ <;>
    simp [hw, h]

theorem execGetFwInfo_stands (h : F.Stands s) : F.Leads (execGetFwInfo s) := by
  refine mbServe_stands (fun t h => ?_) h
  rcases h.cases with ⟨hw, h⟩ | ⟨hw, h⟩ <;>
    simp [hw, h]

theorem execTransferFw_stands {action offset : Nat} {data : Bytes} (h : F.Stands s) :
    F.Leads (execTransferFw action offset data s) := by
  refine mbServe_stands (fun t h => ?_) h
  have place (bs : Bytes) : F.Stands { t with sec := { t.sec with staging := .mailbox bs } } :=
    ⟨fun hF => h.1 hF, h.2.unstage rfl (by simp) rfl⟩
  have fin (u : State) (st : Nat) (hu : F.Stands u) : F.Stands (mbEnd u 0x0201 st) := by
    rcases hu.cases with ⟨hw, h⟩ | ⟨hw, h⟩ <;> simp [hw, h]
  have none : F.Stands (stagedAs t none) := by rcases h.cases with ⟨hw, h⟩ | ⟨hw, h⟩ <;> simp [hw, stagedAs_none_holds, h]
  have answer (st : Nat) (bs : Bytes) : F.Stands (mbAnswer t 0x0201 st bs) := by
    rcases h.cases with ⟨hw, h⟩ | ⟨hw, h⟩ <;> simp [hw, h]
  have transferred (bs : Bytes) : F.Stands (endTransfer t bs) := by
    rcases h.cases with ⟨hw, h⟩ | ⟨hw, h⟩ <;> simp [hw, h]
  dsimp only
  (repeat' split) <;> simp only [answer, fin, none, transferred, place]

theorem execActivateFw_stands {online : Bool} {m0 m1 : Media} (h : F.Stands s) : F.Leads (execActivateFw online m0 m1 s) := by
  refine mbServe_stands (fun t h => ?_) h
  (repeat' split) <;> rcases h.cases with ⟨hw, h⟩ | ⟨hw, h⟩ <;>
    simp [hw, h]

theorem execGetSupportedLogs_stands (h : F.Stands s) : F.Leads (execGetSupportedLogs s) := by
  refine mbServe_stands (fun t h => ?_) h
  rcases h.cases with ⟨hw, h⟩ | ⟨hw, h⟩ <;>
    simp [hw, h]

theorem execGetLog_stands {page offset len : Nat} (h : F.Stands s) : F.Leads (execGetLog page offset len s) := by
  refine mbServe_stands (fun t h => ?_) h
  rcases h.cases with ⟨hw, h⟩ | ⟨hw, h⟩ <;>
    simp [hw, h]

theorem execInstallConfigRecord_stands {offset : Nat} {last : Bool} {data : Bytes} (h : F.Stands s) :
    F.Leads (execInstallConfigRecord offset last data s) := by
  refine mbServe_stands (fun t h => ?_) h
  have fin (u : State) (st : Nat) (hu : F.Stands u) : F.Stands (mbEnd u 0xC100 st) := by
    rcases hu.cases with ⟨hw, h⟩ | ⟨hw, h⟩ <;> simp [hw, h]
  have place (bs : Bytes) : F.Stands { t with sec := { t.sec with staging := .cfgMailbox bs } } :=
    ⟨fun hF => h.1 hF, h.2.unstage rfl (by simp) rfl⟩
  have answer : F.Stands (mbAnswer t 0xC100 mbBusy []) := by rcases h.cases with ⟨hw, h⟩ | ⟨hw, h⟩ <;> simp [hw, h]
  have install (bs : Bytes) : F.Stands (installRecord t bs).1 := by rcases h.cases with ⟨hw, h⟩ | ⟨hw, h⟩ <;> simp [hw, h]
  dsimp only
  (repeat' split) <;> simp only [fin, h, install, place, answer]

theorem execDictRead_stands {cid : Nat} (h : F.Stands s) : F.Leads (execDictRead cid s) := by
  refine withAdmin_stands (fun t c h => ?_) h
  rcases h.cases with ⟨hw, h⟩ | ⟨hw, h⟩ <;>
    simp [hw, h]

theorem execDictWrite_stands {cid : Nat} {value : Bytes} (h : F.Stands s) : F.Leads (execDictWrite cid value s) := by
  refine withAdmin_stands (fun t c h => ?_) h
  rcases h.cases with ⟨hw, h⟩ | ⟨hw, h⟩ <;>
    simp (disch := simp [hw, h]) [hw, h]

theorem execStagedObjectWrite_stands {by_ : Master} {index sub : Nat} {value : Bytes} (h : F.Stands s) :
    F.Leads (execStagedObjectWrite by_ index sub value s) := by
  refine rowWrite_stands (fun t h => ?_) h
  rcases h.cases with ⟨hw, h⟩ | ⟨hw, h⟩ <;>
    simp [hw, h]

theorem execSecLock_stands {by_ : Master} (h : F.Stands s) : F.Leads (execSecLock by_ s) := by
  refine rowWrite_stands (fun t h => ?_) h
  rcases h.cases with ⟨hw, h⟩ | ⟨hw, h⟩ <;>
    simp [hw, h]

theorem execErrAck_stands {by_ : Master} {entry : Word32} (h : F.Stands s) : F.Leads (execErrAck by_ entry s) := by
  refine rowWrite_stands (fun t h => ?_) h
  rcases h.cases with ⟨hw, h⟩ | ⟨hw, h⟩ <;>
    simp [hw, h]

theorem execDumpClear_stands {by_ : Master} (h : F.Stands s) : F.Leads (execDumpClear by_ s) := by
  refine rowWrite_stands (fun t h => ?_) h
  rcases h.cases with ⟨hw, h⟩ | ⟨hw, h⟩ <;>
    simp [hw, h]

theorem execEvidenceReq_stands {by_ : Master} {value : Bytes} (h : F.Stands s) : F.Leads (execEvidenceReq by_ value s) := by
  refine rowWrite_stands (fun t h => ?_) h
  rcases h.cases with ⟨hw, h⟩ | ⟨hw, h⟩ <;>
    simp [hw, h]

theorem execFwRxLen_stands {v : Word32} (h : F.Stands s) : F.Leads (execFwRxLen v s) := by
  refine rxWrite_stands (fun t h => ?_) h
  rcases h.cases with ⟨hw, h⟩ | ⟨hw, h⟩ <;>
    simp [hw, h]

theorem execFwRxData_stands {data : Bytes} (h : F.Stands s) : F.Leads (execFwRxData data s) := by
  refine rxWrite_stands (fun t h => ?_) h
  rcases h.cases with ⟨hw, h⟩ | ⟨hw, h⟩ <;>
    simp [hw, h]

theorem execFwRxVerify_stands (h : F.Stands s) : F.Leads (execFwRxVerify s) := by
  refine rxWrite_stands (fun t h => ?_) h
  rcases h.cases with ⟨hw, h⟩ | ⟨hw, h⟩ <;>
    simp [hw, h]

theorem execFwRxActivateBoot_stands {m0 m1 : Media} (h : F.Stands s) : F.Leads (execFwRxActivateBoot m0 m1 s) := by
  refine rxWrite_stands (fun t h => ?_) h
  rcases h.cases with ⟨hw, h⟩ | ⟨hw, h⟩ <;>
    simp [hw, h]

theorem execFwRxAbort_stands (h : F.Stands s) : F.Leads (execFwRxAbort s) := by
  refine rxWrite_stands (fun t h => ?_) h
  rcases h.cases with ⟨hw, h⟩ | ⟨hw, h⟩ <;>
    simp [hw, h]

theorem execCfgRxLen_stands {v : Word32} (h : F.Stands s) : F.Leads (execCfgRxLen v s) := by
  refine rxWrite_stands (fun t h => ?_) h
  rcases h.cases with ⟨hw, h⟩ | ⟨hw, h⟩ <;>
    simp [hw, h]

theorem execCfgRxData_stands {data : Bytes} (h : F.Stands s) : F.Leads (execCfgRxData data s) := by
  refine rxWrite_stands (fun t h => ?_) h
  rcases h.cases with ⟨hw, h⟩ | ⟨hw, h⟩ <;>
    simp [hw, h]

theorem execCfgRxInstall_stands (h : F.Stands s) : F.Leads (execCfgRxInstall s) := by
  refine rxWrite_stands (fun t h => ?_) h
  rcases h.cases with ⟨hw, h⟩ | ⟨hw, h⟩ <;>
    simp [hw, h]

theorem execCfgRxAbort_stands (h : F.Stands s) : F.Leads (execCfgRxAbort s) := by
  refine rxWrite_stands (fun t h => ?_) h
  rcases h.cases with ⟨hw, h⟩ | ⟨hw, h⟩ <;>
    simp [hw, h]

theorem execXsdpRead_stands {f : Frame} (h : F.Stands s) : F.Leads (execXsdpRead f s) := by
  rcases h.cases with ⟨hw, h⟩ | ⟨hw, h⟩ <;>
    simp [execXsdpRead, hw, h]

theorem execXsdpWrite_stands {f : Frame} (h : F.Stands s) : F.Leads (execXsdpWrite f s) := by
  rcases h.cases with ⟨hw, h⟩ | ⟨hw, h⟩ <;>
    simp [execXsdpWrite, hw, h]

theorem execEventAck_stands {f : Frame} (h : F.Stands s) : F.Leads (execEventAck f s) := by
  rcases h.cases with ⟨hw, h⟩ | ⟨hw, h⟩ <;>
    simp [execEventAck, hw, h]

theorem execXsdpMalformedDatagram_stands {f : Frame} (h : F.Stands s) : F.Leads (execXsdpMalformedDatagram f s) := by
  rcases h.cases with ⟨hw, h⟩ | ⟨hw, h⟩ <;>
    simp [execXsdpMalformedDatagram, hw, h]

theorem execEventRetransmit_stands {seq : Nat} (h : F.Stands s) : F.Leads (execEventRetransmit seq s) := by
  unfold execEventRetransmit
  split <;> rcases h.cases with ⟨hw, h⟩ | ⟨hw, h⟩ <;>
    simp (disch := simp [hw, h]) [hw, h]

theorem execPlcaStatusChange_stands {active : Bool} (h : F.Stands s) : F.Leads (execPlcaStatusChange active s) := by
  rcases h.cases with ⟨hw, h⟩ | ⟨hw, h⟩ <;>
    simp [execPlcaStatusChange, hw, h]

theorem execNeighborDiscovery_stands {target : Nat} (h : F.Stands s) : F.Leads (execNeighborDiscovery target s) := by
  rcases h.cases with ⟨hw, h⟩ | ⟨hw, h⟩ <;>
    simp [execNeighborDiscovery, hw, h]

theorem execIcmpv6Echo_stands {peer : Nat} {payload : Bytes} (h : F.Stands s) : F.Leads (execIcmpv6Echo peer payload s) := by
  rcases h.cases with ⟨hw, h⟩ | ⟨hw, h⟩ <;>
    simp [execIcmpv6Echo, hw, h]

theorem execCopy_stands {q cid : Nat} {data : Bytes} {m : Media} (h : F.Stands s) : F.Leads (execCopy q cid data m s) := by
  refine withIo_stands (fun t c h => ?_) h
  extract_lets n src dst pages s0 clean whole r t1 s1 ctx status mine s2
  have h0 : F.Stands s0 := by
    simp only [s0]
    split <;> rcases h.cases with ⟨hw, h⟩ | ⟨hw, h⟩ <;> simp [hw, h]
  have hr : F.Stands r.1 := by
    simp only [r]
    split <;> rcases h0.cases with ⟨hw, h⟩ | ⟨hw, h⟩ <;> simp [hw, h]
  have ht : F.Stands t1 := by
    simp only [t1]
    split <;> rcases hr.cases with ⟨hw, h⟩ | ⟨hw, h⟩ <;> simp [hw, h]
  have h1 : F.Stands s1 := by
    simp only [s1]
    split <;> rcases ht.cases with ⟨hw, h⟩ | ⟨hw, h⟩ <;> simp [hw, h]
  have h2 : F.Stands s2 := by rcases h1.cases with ⟨hw, h⟩ | ⟨hw, h⟩ <;> simp [hw, h, s2]
  have fold (es : List Nat) : F.Stands (es.foldl startWriteback s2) :=
    stands_foldl _ _ (fun t p ht => by rcases ht.cases with ⟨hw, h⟩ | ⟨hw, h⟩ <;> simp [hw, h]) h2
  have fin (st : Nat) : F.Stands (endCmd t q c st 0) := by rcases h.cases with ⟨hw, h⟩ | ⟨hw, h⟩ <;> simp [hw, h]
  have fault : F.Stands (endCmd (updLinkCounters t (bayOfQueue t q) (fun k => { k with hostFaults := wrapAdd 64 k.hostFaults 1 }))
      q c stHostFault 0) := by rcases h.cases with ⟨hw, h⟩ | ⟨hw, h⟩ <;> simp [hw, h]
  have done : F.Stands (progressCtx (endCmd s1 q c status whole) ctx) := by
    rcases h1.cases with ⟨hw, h⟩ | ⟨hw, h⟩ <;> simp [hw, h]
  (repeat' split) <;> simp only [fin, fault, h, done, fold]

theorem execPegSet_stands {i : PegIssuer} (h : F.Stands s) : F.Leads (execPegSet i s) := by
  rcases h.cases with ⟨hw, h⟩ | ⟨hw, h⟩ <;>
    simp [execPegSet, hw, h]

theorem execPegAdd_stands {i : PegIssuer} (h : F.Stands s) : F.Leads (execPegAdd i s) := by
  rcases h.cases with ⟨hw, h⟩ | ⟨hw, h⟩ <;>
    simp [execPegAdd, hw, h]

theorem execPegWaitGe_stands {i : PegIssuer} (h : F.Stands s) : F.Leads (execPegWaitGe i s) := by
  rcases h.cases with ⟨hw, h⟩ | ⟨hw, h⟩ <;>
    simp [execPegWaitGe, hw, h]

theorem execPegWaitEq_stands {i : PegIssuer} (h : F.Stands s) : F.Leads (execPegWaitEq i s) := by
  rcases h.cases with ⟨hw, h⟩ | ⟨hw, h⟩ <;>
    simp [execPegWaitEq, hw, h]

theorem execPegAcquire_stands {i : PegIssuer} (h : F.Stands s) : F.Leads (execPegAcquire i s) := by
  rcases h.cases with ⟨hw, h⟩ | ⟨hw, h⟩ <;>
    simp [execPegAcquire, hw, h]

theorem execPegRelease_stands {i : PegIssuer} (h : F.Stands s) : F.Leads (execPegRelease i s) := by
  rcases h.cases with ⟨hw, h⟩ | ⟨hw, h⟩ <;>
    simp [execPegRelease, hw, h]

theorem execPegWaitTimeout_stands {q cid : Nat} (h : F.Stands s) : F.Leads (execPegWaitTimeout q cid s) := by
  unfold execPegWaitTimeout
  (repeat' split) <;> rcases h.cases with ⟨hw, h⟩ | ⟨hw, h⟩ <;>
    simp [hw, h]

theorem execPegSignalRepeat_stands {peg : Nat} (h : F.Stands s) : F.Leads (execPegSignalRepeat peg s) := by
  rcases h.cases with ⟨hw, h⟩ | ⟨hw, h⟩ <;>
    simp [execPegSignalRepeat, hw, h]

theorem execSqTailDoorbell_stands {fn q : Nat} {v : Word32} (h : F.Stands s) : F.Leads (execSqTailDoorbell fn q v s) := by
  unfold execSqTailDoorbell
  (repeat' split) <;> rcases h.cases with ⟨hw, h⟩ | ⟨hw, h⟩ <;>
    simp (disch := (intros; simp [*])) [hw, h]

theorem execCqHeadDoorbell_stands {fn q : Nat} {v : Word32} (h : F.Stands s) : F.Leads (execCqHeadDoorbell fn q v s) := by
  unfold execCqHeadDoorbell
  (repeat' split) <;> rcases h.cases with ⟨hw, h⟩ | ⟨hw, h⟩ <;>
    simp (disch := (intros; simp [*])) [hw, h]

theorem execAdminSqTail_stands {v : Word32} (h : F.Stands s) : F.Leads (execAdminSqTail v s) := by
  rcases h.cases with ⟨hw, h⟩ | ⟨hw, h⟩ <;>
    simp [execAdminSqTail, hw, h]

theorem execAdminCqHead_stands {v : Word32} (h : F.Stands s) : F.Leads (execAdminCqHead v s) := by
  rcases h.cases with ⟨hw, h⟩ | ⟨hw, h⟩ <;>
    simp [execAdminCqHead, hw, h]

theorem execAdminEnable_stands {sqBase cqBase cfg : Word64} (h : F.Stands s) : F.Leads (execAdminEnable sqBase cqBase cfg s) := by
  rcases h.cases with ⟨hw, h⟩ | ⟨hw, h⟩ <;>
    simp [execAdminEnable, hw, h]

theorem execAdminDisable_stands (h : F.Stands s) : F.Leads (execAdminDisable s) := by
  rcases h.cases with ⟨hw, h⟩ | ⟨hw, h⟩ <;>
    simp [execAdminDisable, hw, h]

theorem execSubmissionConsume_stands {q : Nat} {sqe : BitVec 512} (h : F.Stands s) : F.Leads (execSubmissionConsume q sqe s) := by
  unfold execSubmissionConsume
  dsimp only
  (repeat' split) <;> rcases h.cases with ⟨hw, h⟩ | ⟨hw, h⟩ <;>
    simp [hw, h]

theorem execMsixCoalesceTimer_stands {q : Nat} (h : F.Stands s) : F.Leads (execMsixCoalesceTimer q s) := by
  unfold execMsixCoalesceTimer
  split <;> rcases h.cases with ⟨hw, h⟩ | ⟨hw, h⟩ <;>
    simp [hw, h]

theorem execHostReadFault_stands {q cid : Nat} {t : ReadTarget} (h : F.Stands s) : F.Leads (execHostReadFault q cid t s) := by
  unfold execHostReadFault
  (repeat' split) <;> rcases h.cases with ⟨hw, h⟩ | ⟨hw, h⟩ <;>
    simp (disch := simp [hw, h]) [hw, h]

theorem execBatchCompletionPost_stands {q cid : Nat} (h : F.Stands s) : F.Leads (execBatchCompletionPost q cid s) := by
  unfold execBatchCompletionPost
  split <;> rcases h.cases with ⟨hw, h⟩ | ⟨hw, h⟩ <;>
    simp [hw, h]

theorem execQpCreate_stands {cid : Nat} (h : F.Stands s) : F.Leads (execQpCreate cid s) := by
  refine withAdmin_stands (fun t c h => ?_) h
  rcases h.cases with ⟨hw, h⟩ | ⟨hw, h⟩ <;>
    simp (disch := simp [hw, h]) [hw, h]

theorem execQpDelete_stands {cid : Nat} (h : F.Stands s) : F.Leads (execQpDelete cid s) := by
  refine withAdmin_stands (fun t c h => ?_) h
  dsimp only
  split <;> rcases h.cases with ⟨hw, h⟩ | ⟨hw, h⟩ <;>
    simp [hw, h]

theorem execQpDeleteComplete_stands {qp : Nat} (h : F.Stands s) : F.Leads (execQpDeleteComplete qp s) := by
  rcases h.cases with ⟨hw, h⟩ | ⟨hw, h⟩ <;>
    simp [execQpDeleteComplete, hw, h]

theorem execRimeRequestSubmit_stands {slot : Option Nat} {ctx cell : Nat} {desc : BitVec 256} (h : F.Stands s) :
    F.Leads (execRimeRequestSubmit slot ctx cell desc s) := by
  unfold execRimeRequestSubmit
  dsimp only
  (repeat' split) <;> rcases h.cases with ⟨hw, h⟩ | ⟨hw, h⟩ <;>
    simp [hw, h]

theorem execRimeSegmentEnd_stands {bank : Nat} (h : F.Stands s) : F.Leads (execRimeSegmentEnd bank s) := by
  unfold execRimeSegmentEnd
  dsimp only
  split <;> rcases h.cases with ⟨hw, h⟩ | ⟨hw, h⟩ <;>
    simp (disch := simp [hw, h]) [hw, h]

theorem execRimeRequestDone_stands {bank : Nat} (h : F.Stands s) : F.Leads (execRimeRequestDone bank s) := by
  unfold execRimeRequestDone
  dsimp only
  split <;> rcases h.cases with ⟨hw, h⟩ | ⟨hw, h⟩ <;>
    simp [hw, h]

theorem execBankRefresh_stands {bank : Nat} (h : F.Stands s) : F.Leads (execBankRefresh bank s) := by
  rcases h.cases with ⟨hw, h⟩ | ⟨hw, h⟩ <;>
    simp [execBankRefresh, hw, h]

theorem execBankAccessDuringRime_stands {bank : Nat} (h : F.Stands s) : F.Leads (execBankAccessDuringRime bank s) := by
  rcases h.cases with ⟨hw, h⟩ | ⟨hw, h⟩ <;>
    simp [execBankAccessDuringRime, hw, h]

theorem execNop_stands {bank : Nat} {w : BitVec 128} (h : F.Stands s) : F.Leads (execNop bank w s) := by
  rcases h.cases with ⟨hw, h⟩ | ⟨hw, h⟩ <;>
    simp [execNop, hw, h]

theorem execClr_stands {bank : Nat} {w : BitVec 128} (h : F.Stands s) : F.Leads (execClr bank w s) := by
  rcases h.cases with ⟨hw, h⟩ | ⟨hw, h⟩ <;>
    simp [execClr, hw, h]

theorem execLoadq_stands {bank : Nat} {w : BitVec 128} {m : Media} {corrected : List Nat} (h : F.Stands s) :
    F.Leads (execLoadq bank w m corrected s) := by
  rcases h.cases with ⟨hw, h⟩ | ⟨hw, h⟩ <;>
    simp [execLoadq, hw, h]

theorem execLoadr_stands {bank : Nat} {w : BitVec 128} {m : Media} {corrected : List Nat} (h : F.Stands s) :
    F.Leads (execLoadr bank w m corrected s) := by
  rcases h.cases with ⟨hw, h⟩ | ⟨hw, h⟩ <;>
    simp [execLoadr, hw, h]

theorem execStorer_stands {bank : Nat} {w : BitVec 128} (h : F.Stands s) : F.Leads (execStorer bank w s) := by
  rcases h.cases with ⟨hw, h⟩ | ⟨hw, h⟩ <;>
    simp [execStorer, hw, h]

theorem execDot_stands {bank : Nat} {w : BitVec 128} {m : Media} {corrected : List Nat} (h : F.Stands s) :
    F.Leads (execDot bank w m corrected s) := by
  rcases h.cases with ⟨hw, h⟩ | ⟨hw, h⟩ <;>
    simp [execDot, hw, h]

theorem execMaxsim_stands {bank : Nat} {w : BitVec 128} {m : Media} {corrected : List Nat} (h : F.Stands s) :
    F.Leads (execMaxsim bank w m corrected s) := by
  rcases h.cases with ⟨hw, h⟩ | ⟨hw, h⟩ <;>
    simp [execMaxsim, hw, h]

theorem execWsum_stands {bank : Nat} {w : BitVec 128} {m : Media} {corrected : List Nat} (h : F.Stands s) :
    F.Leads (execWsum bank w m corrected s) := by
  rcases h.cases with ⟨hw, h⟩ | ⟨hw, h⟩ <;>
    simp [execWsum, hw, h]

theorem execVmax_stands {bank : Nat} {w : BitVec 128} (h : F.Stands s) : F.Leads (execVmax bank w s) := by
  rcases h.cases with ⟨hw, h⟩ | ⟨hw, h⟩ <;>
    simp [execVmax, hw, h]

theorem execRmax_stands {bank : Nat} {w : BitVec 128} (h : F.Stands s) : F.Leads (execRmax bank w s) := by
  rcases h.cases with ⟨hw, h⟩ | ⟨hw, h⟩ <;>
    simp [execRmax, hw, h]

theorem execSave_stands {bank : Nat} (h : F.Stands s) : F.Leads (execSave bank s) := by
  rcases h.cases with ⟨hw, h⟩ | ⟨hw, h⟩ <;>
    simp [execSave, hw, h]

theorem execRestore_stands {bank : Nat} {m : AreaRead} (h : F.Stands s) : F.Leads (execRestore bank m s) := by
  unfold execRestore
  dsimp only
  (repeat' split) <;> rcases h.cases with ⟨hw, h⟩ | ⟨hw, h⟩ <;>
    simp [hw, h]

theorem execCmdq_stands {bank : Nat} {w0 w1 : BitVec 128} (h : F.Stands s) : F.Leads (execCmdq bank w0 w1 s) := by
  rcases h.cases with ⟨hw, h⟩ | ⟨hw, h⟩ <;>
    simp [execCmdq, hw, h]

theorem execRimeCtrlClear_stands {bank : Nat} (h : F.Stands s) : F.Leads (execRimeCtrlClear bank s) := by
  rcases h.cases with ⟨hw, h⟩ | ⟨hw, h⟩ <;>
    simp [execRimeCtrlClear, hw, h]

theorem execRimeCtrlAbort_stands {bank : Nat} (h : F.Stands s) : F.Leads (execRimeCtrlAbort bank s) := by
  rcases h.cases with ⟨hw, h⟩ | ⟨hw, h⟩ <;>
    simp [execRimeCtrlAbort, hw, h]

theorem execRimeCtrlSuspend_stands {bank : Nat} (h : F.Stands s) : F.Leads (execRimeCtrlSuspend bank s) := by
  rcases h.cases with ⟨hw, h⟩ | ⟨hw, h⟩ <;>
    simp [execRimeCtrlSuspend, hw, h]

theorem execRimeCtrlResume_stands {bank : Nat} (h : F.Stands s) : F.Leads (execRimeCtrlResume bank s) := by
  rcases h.cases with ⟨hw, h⟩ | ⟨hw, h⟩ <;>
    simp [execRimeCtrlResume, hw, h]

theorem execRcfgWrite_stands {channel : Nat} {value : Byte} (h : F.Stands s) : F.Leads (execRcfgWrite channel value s) := by
  rcases h.cases with ⟨hw, h⟩ | ⟨hw, h⟩ <;>
    simp [execRcfgWrite, hw, h]

theorem execSort_stands {cell : Nat} {w : Word64} {src dst : Loc} {n : Nat} (h : F.Stands s) :
    F.Leads (execSort cell w src dst n s) := by
  refine selectRow_stands (fun t h => ?_) h
  rcases h.cases with ⟨hw, h⟩ | ⟨hw, h⟩ <;>
    simp [hw, h]

theorem execSelect_stands {cell : Nat} {w : Word64} {src dst : Loc} {n : Nat} (h : F.Stands s) :
    F.Leads (execSelect cell w src dst n s) := by
  refine selectRow_stands (fun t h => ?_) h
  rcases h.cases with ⟨hw, h⟩ | ⟨hw, h⟩ <;>
    simp [hw, h]

theorem execThresh_stands {cell : Nat} {w : Word64} {src dst : Loc} {n : Nat} {t : Word32} (h : F.Stands s) :
    F.Leads (execThresh cell w src dst n t s) := by
  refine selectRow_stands (fun t h => ?_) h
  rcases h.cases with ⟨hw, h⟩ | ⟨hw, h⟩ <;>
    simp [hw, h]

theorem execMerge_stands {cell : Nat} {w : Word64} {srcs : List (Loc × Nat)} {dst : Loc} (h : F.Stands s) :
    F.Leads (execMerge cell w srcs dst s) := by
  refine selectRow_stands (fun t h => ?_) h
  rcases h.cases with ⟨hw, h⟩ | ⟨hw, h⟩ <;>
    simp [hw, h]

theorem execArgmax_stands {cell : Nat} {w : Word64} {src : Loc} {n : Nat} (h : F.Stands s) :
    F.Leads (execArgmax cell w src n s) := by
  refine selectRow_stands (fun t h => ?_) h
  rcases h.cases with ⟨hw, h⟩ | ⟨hw, h⟩ <;>
    simp [hw, h]

theorem execExtest_stands (h : F.Stands s) : F.Leads (execExtest s) := by
  refine onTap_stands (fun t h => ?_) h
  rcases h.cases with ⟨hw, h⟩ | ⟨hw, h⟩ <;>
    simp [hw, h]

theorem execIdcode_stands (h : F.Stands s) : F.Leads (execIdcode s) := by
  refine onTap_stands (fun t h => ?_) h
  rcases h.cases with ⟨hw, h⟩ | ⟨hw, h⟩ <;>
    simp [hw, h]

theorem execSamplePreload_stands {pins : Nat} (h : F.Stands s) : F.Leads (execSamplePreload pins s) := by
  refine onTap_stands (fun t h => ?_) h
  rcases h.cases with ⟨hw, h⟩ | ⟨hw, h⟩ <;>
    simp (disch := simp [hw, h]) [hw, h]

theorem execHighz_stands (h : F.Stands s) : F.Leads (execHighz s) := by
  refine onTap_stands (fun t h => ?_) h
  rcases h.cases with ⟨hw, h⟩ | ⟨hw, h⟩ <;>
    simp [hw, h]

theorem execClamp_stands (h : F.Stands s) : F.Leads (execClamp s) := by
  refine onTap_stands (fun t h => ?_) h
  rcases h.cases with ⟨hw, h⟩ | ⟨hw, h⟩ <;>
    simp [hw, h]

theorem execDbgStatus_stands (h : F.Stands s) : F.Leads (execDbgStatus s) := by
  refine onTap_stands (fun t h => ?_) h
  rcases h.cases with ⟨hw, h⟩ | ⟨hw, h⟩ <;>
    simp [hw, h]

theorem execMgmtDebug_stands {halt : Bool} {addr : Nat} (h : F.Stands s) : F.Leads (execMgmtDebug halt addr s) := by
  refine onTap_stands (fun t h => ?_) h
  rcases h.cases with ⟨hw, h⟩ | ⟨hw, h⟩ <;>
    simp (disch := simp [hw, h]) [hw, h]

theorem execBypass_stands (h : F.Stands s) : F.Leads (execBypass s) := by
  refine onTap_stands (fun t h => ?_) h
  rcases h.cases with ⟨hw, h⟩ | ⟨hw, h⟩ <;>
    simp [hw, h]

theorem execBringup_stands {dr : Option (BitVec 128)} (h : F.Stands s) : F.Leads (execBringup dr s) := by
  refine onTap_stands (fun t h => ?_) h
  split <;> rcases h.cases with ⟨hw, h⟩ | ⟨hw, h⟩ <;>
    simp (disch := simp [hw, h]) [hw, h]

theorem execPprQuery_stands {dr : BitVec 128} (h : F.Stands s) : F.Leads (execPprQuery dr s) := by
  rcases h.cases with ⟨hw, h⟩ | ⟨hw, h⟩ <;>
    simp [execPprQuery, hw, h]

theorem execPprRepair_stands {dr : BitVec 128} (h : F.Stands s) : F.Leads (execPprRepair dr s) := by
  rcases h.cases with ⟨hw, h⟩ | ⟨hw, h⟩ <;>
    simp [execPprRepair, hw, h]

theorem execBbtQuery_stands {dr : BitVec 128} (h : F.Stands s) : F.Leads (execBbtQuery dr s) := by
  rcases h.cases with ⟨hw, h⟩ | ⟨hw, h⟩ <;>
    simp [execBbtQuery, hw, h]

theorem execBbtRead_stands {dr : BitVec 128} (h : F.Stands s) : F.Leads (execBbtRead dr s) := by
  rcases h.cases with ⟨hw, h⟩ | ⟨hw, h⟩ <;>
    simp [execBbtRead, hw, h]

theorem execBbtMark_stands {dr : BitVec 128} (h : F.Stands s) : F.Leads (execBbtMark dr s) := by
  rcases h.cases with ⟨hw, h⟩ | ⟨hw, h⟩ <;>
    simp [execBbtMark, hw, h]

theorem execLoopStart_stands {dr : BitVec 128} (h : F.Stands s) : F.Leads (execLoopStart dr s) := by
  rcases h.cases with ⟨hw, h⟩ | ⟨hw, h⟩ <;>
    simp [execLoopStart, hw, h]

theorem execLoopStop_stands {dr : BitVec 128} (h : F.Stands s) : F.Leads (execLoopStop dr s) := by
  rcases h.cases with ⟨hw, h⟩ | ⟨hw, h⟩ <;>
    simp [execLoopStop, hw, h]

theorem execBringupOpComplete_stands {ok : Bool} (h : F.Stands s) : F.Leads (execBringupOpComplete ok s) := by
  have op (t : State) (h : F.Stands t) (d : BitVec 128) : F.Stands (bringupOp t d ok).1 := by rcases h.cases with ⟨hw, h⟩ | ⟨hw, h⟩ <;> simp [hw, h]
  have train (t : State) (h : F.Stands t) : F.Stands (startRepairs t) := by rcases h.cases with ⟨hw, h⟩ | ⟨hw, h⟩ <;> simp [hw, h]
  unfold execBringupOpComplete
  split
  · exact h
  next d _ =>
    have drop : F.Stands { s with tap := { s.tap with op := none } } := ⟨h.1, h.2⟩
    have hr := op _ drop d
    generalize bringupOp { s with tap := { s.tap with op := none } } d ok = r at hr ⊢
    have h1 (n : BitVec 128) : F.Stands { r.1 with tap := { r.1.tap with dr := n } } := ⟨hr.1, hr.2⟩
    dsimp only
    split
    · exact ⟨(train _ (h1 _)).1, (train _ (h1 _)).2⟩
    · exact h1 _

theorem execRimeSegmentStart_stands {bank : Nat} (h : F.Stands s) : F.Leads (execRimeSegmentStart bank s) := by
  have choose : F.Stands (chooseRequest s bank) := by rcases h.cases with ⟨hw, h⟩ | ⟨hw, h⟩ <;> simp [hw, h]
  have promote (t : State) (a b c : Nat) (h : F.Stands t) : F.Stands (usePromoted t a b c) := by
    rcases h.cases with ⟨hw, h⟩ | ⟨hw, h⟩ <;> simp [hw, h]
  have put (t : State) (b : RimeBank) (h : F.Stands t) : F.Stands (setRimeBank t b) := by
    rcases h.cases with ⟨hw, h⟩ | ⟨hw, h⟩ <;> simp [hw, h]
  unfold execRimeSegmentStart
  dsimp only
  split
  · exact h
  · split
    · exact h
    · split
      · exact h
      · split
        · exact ⟨h.1, h.2⟩
        · refine put _ _ ?_
          split
          · exact choose
          · exact promote _ _ _ _ choose

theorem execAuxPowerUp_stands {straps : Nat} (h : F.Stands s) : F.Leads (execAuxPowerUp straps s) := by
  have settle (t : State) (h : F.Stands t) : F.Stands (settleHold (refreshAlert t)) := by
    rcases h.cases with ⟨hw, h⟩ | ⟨hw, h⟩ <;> simp [hw, h]
  unfold execAuxPowerUp
  split
  · exact h
  · exact settle _ ⟨h.1, h.2⟩

end Sys2Proof.Machine

/-! SUPPORT. Every command and every step keeps what a run builds on; with it the canonical form of the byte stores, the order of
the tier map (R219), and that no image below the anti-rollback floor comes into the staging area (R395, R398). -/

namespace Sys2Proof.Machine

open Sys2Proof

variable {F : StageFloor} {s t : State}

/-- What every command keeps. -/
theorem exec_stands (i : Instr) (h : F.Stands s) : F.Leads (exec i s) := by
  cases i with
  | search => exact execSearch_stands h
  | encodeSearch => exact execEncodeSearch_stands h
  | encode => exact execEncode_stands h
  | rerank => exact execRerank_stands h
  | queryWorkStart => exact execQueryWorkStart_stands h
  | scribeReadComplete => exact execScribeReadComplete_stands h
  | hopComplete => exact execHopComplete_stands h
  | dramRecordReadDone => exact execDramRecordReadDone_stands h
  | driftBlockScanned => exact execDriftBlockScanned_stands h
  | braceRebuildDone => exact execBraceRebuildDone_stands h
  | rerankSlotArrival => exact execRerankSlotArrival_stands h
  | rerankDone => exact execRerankDone_stands h
  | guardTime => exact execGuardTime_stands h
  | batchCompletionPost => exact execBatchCompletionPost_stands h
  | insert => exact execInsert_stands h
  | delete => exact execDelete_stands h
  | journalWriteDone => exact execJournalWriteDone_stands h
  | planRun => exact execPlanRun_stands h
  | copy => exact execCopy_stands h
  | pegSet => exact execPegSet_stands h
  | pegAdd => exact execPegAdd_stands h
  | pegWaitGe => exact execPegWaitGe_stands h
  | pegWaitEq => exact execPegWaitEq_stands h
  | pegAcquire => exact execPegAcquire_stands h
  | pegRelease => exact execPegRelease_stands h
  | pegWaitTimeout => exact execPegWaitTimeout_stands h
  | pegSignalRepeat => exact execPegSignalRepeat_stands h
  | nsCreate => exact execNsCreate_stands h
  | nsDelete => exact execNsDelete_stands h
  | nsDeleteRelease => exact execNsDeleteRelease_stands h
  | qpCreate => exact execQpCreate_stands h
  | qpDelete => exact execQpDelete_stands h
  | qpDeleteComplete => exact execQpDeleteComplete_stands h
  | planLoad => exact execPlanLoad_stands h
  | planUnload => exact execPlanUnload_stands h
  | planUnloadRelease => exact execPlanUnloadRelease_stands h
  | bayBind => exact execBayBind_stands h
  | bayReclaim => exact execBayReclaim_stands h
  | reclaimGraceExpiry => exact execReclaimGraceExpiry_stands h
  | resourceDrained => exact execResourceDrained_stands h
  | reclaimComplete => exact execReclaimComplete_stands h
  | frameZeroed => exact execFrameZeroed_stands h
  | selfTestShort => exact execSelfTestShort_stands h
  | selfTestExtended => exact execSelfTestExtended_stands h
  | selfTestStop => exact execSelfTestStop_stands h
  | selfTestDone => exact execSelfTestDone_stands h
  | fwStage => exact execFwStage_stands h
  | fwActivate => exact execFwActivate_stands h
  | logGet => exact execLogGet_stands h
  | dictRead => exact execDictRead_stands h
  | dictWrite => exact execDictWrite_stands h
  | stagedObjectWrite => exact execStagedObjectWrite_stands h
  | firnMergeDrift => exact execFirnMergeDrift_stands h
  | firnMergeSweep => exact execFirnMergeSweep_stands h
  | firnRoundStart => exact execFirnRoundStart_stands h
  | indexVersionRaise => exact execIndexVersionRaise_stands h
  | firnRoundCutoff => exact execFirnRoundCutoff_stands h
  | versionRelease => exact execVersionRelease_stands h
  | indexReplayDone => exact execIndexReplayDone_stands h
  | cutStart => exact execCutStart_stands h
  | cutEnd => exact execCutEnd_stands h
  | weightArrival => exact execWeightArrival_stands h
  | sort => exact execSort_stands h
  | select => exact execSelect_stands h
  | thresh => exact execThresh_stands h
  | merge => exact execMerge_stands h
  | argmax => exact execArgmax_stands h
  | baySliceExpiry => exact execBaySliceExpiry_stands h
  | bePromotion => exact execBePromotion_stands h
  | promotionQuantumEnd => exact execPromotionQuantumEnd_stands h
  | contextFault => exact execContextFault_stands h
  | rimeRequestSubmit => exact execRimeRequestSubmit_stands h
  | rimeSegmentStart => exact execRimeSegmentStart_stands h
  | rimeSegmentEnd => exact execRimeSegmentEnd_stands h
  | rimeRequestDone => exact execRimeRequestDone_stands h
  | bankRefresh => exact execBankRefresh_stands h
  | bankAccessDuringRime => exact execBankAccessDuringRime_stands h
  | nop => exact execNop_stands h
  | clr => exact execClr_stands h
  | loadq => exact execLoadq_stands h
  | loadr => exact execLoadr_stands h
  | storer => exact execStorer_stands h
  | dot => exact execDot_stands h
  | maxsim => exact execMaxsim_stands h
  | wsum => exact execWsum_stands h
  | vmax => exact execVmax_stands h
  | rmax => exact execRmax_stands h
  | save => exact execSave_stands h
  | restore => exact execRestore_stands h
  | cmdq => exact execCmdq_stands h
  | rimeCtrlClear => exact execRimeCtrlClear_stands h
  | rimeCtrlAbort => exact execRimeCtrlAbort_stands h
  | rimeCtrlSuspend => exact execRimeCtrlSuspend_stands h
  | rimeCtrlResume => exact execRimeCtrlResume_stands h
  | rcfgWrite => exact execRcfgWrite_stands h
  | reservedEventPlace => exact execReservedEventPlace_stands h
  | reservedEventForced => exact execReservedEventForced_stands h
  | retrainingPause => exact execRetrainingPause_stands h
  | flashPePieceEnd => exact execFlashPePieceEnd_stands h
  | flashPeFail => exact execFlashPeFail_stands h
  | pageFault => exact execPageFault_stands h
  | fillSectorArrival => exact execFillSectorArrival_stands h
  | cleanerWriteback => exact execCleanerWriteback_stands h
  | writebackDone => exact execWritebackDone_stands h
  | evacuationStart => exact execEvacuationStart_stands h
  | pieceRelocated => exact execPieceRelocated_stands h
  | evacuationCopyWindow => exact execEvacuationCopyWindow_stands h
  | evacuationCopyEnd => exact execEvacuationCopyEnd_stands h
  | returnCopyEnd => exact execReturnCopyEnd_stands h
  | replenishment => exact execReplenishment_stands h
  | weightRebuildDone => exact execWeightRebuildDone_stands h
  | indexStructureRestored => exact execIndexStructureRestored_stands h
  | mediaUnitRebuild => exact execMediaUnitRebuild_stands h
  | dramScrubPass => exact execDramScrubPass_stands h
  | flashPatrol => exact execFlashPatrol_stands h
  | dramRowFailing => exact execDramRowFailing_stands h
  | monitorSample => exact execMonitorSample_stands h
  | marginPlanBuild => exact execMarginPlanBuild_stands h
  | marginPlanRaise => exact execMarginPlanRaise_stands h
  | fatalError => exact execFatalError_stands h
  | dumpWritten => exact execDumpWritten_stands h
  | dumpCopied => exact execDumpCopied_stands h
  | mgmtCodeCheck => exact execMgmtCodeCheck_stands h
  | mgmtRestart => exact execMgmtRestart_stands h
  | sqTailDoorbell => exact execSqTailDoorbell_stands h
  | cqHeadDoorbell => exact execCqHeadDoorbell_stands h
  | adminSqTail => exact execAdminSqTail_stands h
  | adminCqHead => exact execAdminCqHead_stands h
  | adminEnable => exact execAdminEnable_stands h
  | adminDisable => exact execAdminDisable_stands h
  | submissionConsume => exact execSubmissionConsume_stands h
  | msixCoalesceTimer => exact execMsixCoalesceTimer_stands h
  | hostReadFault => exact execHostReadFault_stands h
  | cxlMemRead => exact execCxlMemRead_stands h
  | cxlMemWrite => exact execCxlMemWrite_stands h
  | bisnpinv => exact execBisnpinv_stands h
  | cxlCacheSnoop => exact execCxlCacheSnoop_stands h
  | hdmDecoderCommit => exact execHdmDecoderCommit_stands h
  | linkTrained => exact execLinkTrained_stands h
  | linkDown => exact execLinkDown_stands h
  | vfFlr => exact execVfFlr_stands h
  | pfFlr => exact execPfFlr_stands h
  | hotReset => exact execHotReset_stands h
  | vfEnableClear => exact execVfEnableClear_stands h
  | ideIntegrityFail => exact execIdeIntegrityFail_stands h
  | keyProg => exact execKeyProg_stands h
  | kSetGo => exact execKSetGo_stands h
  | kSetStop => exact execKSetStop_stands h
  | cdatTableAccess => exact execCdatTableAccess_stands h
  | getMeasurements => exact execGetMeasurements_stands h
  | spdmEvidenceRequest => exact execSpdmEvidenceRequest_stands h
  | spdmKeyExchange => exact execSpdmKeyExchange_stands h
  | ptmRequest => exact execPtmRequest_stands h
  | ptmExchange => exact execPtmExchange_stands h
  | ptmTimeout => exact execPtmTimeout_stands h
  | dtbForwardStep => exact execDtbForwardStep_stands h
  | dtbStepAbandon => exact execDtbStepAbandon_stands h
  | getFwInfo => exact execGetFwInfo_stands h
  | transferFw => exact execTransferFw_stands h
  | activateFw => exact execActivateFw_stands h
  | getSupportedLogs => exact execGetSupportedLogs_stands h
  | getLog => exact execGetLog_stands h
  | installConfigRecord => exact execInstallConfigRecord_stands h
  | xsdpRead => exact execXsdpRead_stands h
  | xsdpWrite => exact execXsdpWrite_stands h
  | eventAck => exact execEventAck_stands h
  | eventRetransmit => exact execEventRetransmit_stands h
  | stageLockTake => exact execStageLockTake_stands h
  | stageLockRelease => exact execStageLockRelease_stands h
  | lockLapse => exact execLockLapse_stands h
  | stageDiscard => exact execStageDiscard_stands h
  | dryFit => exact execDryFit_stands h
  | dryFitComplete => exact execDryFitComplete_stands h
  | raiseImmediate => exact execRaiseImmediate_stands h
  | raiseAtTime => exact execRaiseAtTime_stands h
  | raiseAtIdle => exact execRaiseAtIdle_stands h
  | raiseCancel => exact execRaiseCancel_stands h
  | raiseRefit => exact execRaiseRefit_stands h
  | dictRaise => exact execDictRaise_stands h
  | raiseExpiry => exact execRaiseExpiry_stands h
  | secLock => exact execSecLock_stands h
  | errAck => exact execErrAck_stands h
  | dumpClear => exact execDumpClear_stands h
  | evidenceReq => exact execEvidenceReq_stands h
  | evidenceSign => exact execEvidenceSign_stands h
  | fwRxLen => exact execFwRxLen_stands h
  | fwRxData => exact execFwRxData_stands h
  | fwRxVerify => exact execFwRxVerify_stands h
  | fwRxActivateBoot => exact execFwRxActivateBoot_stands h
  | fwRxAbort => exact execFwRxAbort_stands h
  | cfgRxLen => exact execCfgRxLen_stands h
  | cfgRxData => exact execCfgRxData_stands h
  | cfgRxInstall => exact execCfgRxInstall_stands h
  | cfgRxAbort => exact execCfgRxAbort_stands h
  | domainTimerRet => exact execDomainTimerRet_stands h
  | domainTimerOff => exact execDomainTimerOff_stands h
  | domainEntryDone => exact execDomainEntryDone_stands h
  | domainWake => exact execDomainWake_stands h
  | domainWakeDone => exact execDomainWakeDone_stands h
  | dtbComparator => exact execDtbComparator_stands h
  | comparatorTrip => exact execComparatorTrip_stands h
  | comparatorRelease => exact execComparatorRelease_stands h
  | powerCapThrottle => exact execPowerCapThrottle_stands h
  | powerCapThrottleLift => exact execPowerCapThrottleLift_stands h
  | throttleNAssert => exact execThrottleNAssert_stands h
  | throttleNRelease => exact execThrottleNRelease_stands h
  | auxPowerUp => exact execAuxPowerUp_stands h
  | auxLoss => exact execAuxLoss_stands h
  | pwrEnRise => exact execPwrEnRise_stands h
  | mgmtReady => exact execMgmtReady_stands h
  | pwrEnFall => exact execPwrEnFall_stands h
  | mainPowerLoss => exact execMainPowerLoss_stands h
  | perstNAssert => exact execPerstNAssert_stands h
  | perstNRelease => exact execPerstNRelease_stands h
  | extest => exact execExtest_stands h
  | idcode => exact execIdcode_stands h
  | samplePreload => exact execSamplePreload_stands h
  | highz => exact execHighz_stands h
  | clamp => exact execClamp_stands h
  | dbgStatus => exact execDbgStatus_stands h
  | bringup => exact execBringup_stands h
  | mgmtDebug => exact execMgmtDebug_stands h
  | bypass => exact execBypass_stands h
  | pprQuery => exact execPprQuery_stands h
  | pprRepair => exact execPprRepair_stands h
  | bbtQuery => exact execBbtQuery_stands h
  | bbtRead => exact execBbtRead_stands h
  | bbtMark => exact execBbtMark_stands h
  | loopStart => exact execLoopStart_stands h
  | loopStop => exact execLoopStop_stands h
  | bringupOpComplete => exact execBringupOpComplete_stands h
  | plcaStatusChange => exact execPlcaStatusChange_stands h
  | mainInputReturn => exact execMainInputReturn_stands h
  | neighborDiscovery => exact execNeighborDiscovery_stands h
  | icmpv6Echo => exact execIcmpv6Echo_stands h
  | xsdpMalformedDatagram => exact execXsdpMalformedDatagram_stands h
  | fullRetrainingDone => exact execFullRetrainingDone_stands h
  | mgmtPllLock => exact execMgmtPllLock_stands h
  | getCertificate => exact execGetCertificate_stands h
  | challenge => exact execChallenge_stands h
  | negotiateAlgorithms => exact execNegotiateAlgorithms_stands h
  | doeDiscovery => exact execDoeDiscovery_stands h
  | vfEnableSet => exact execVfEnableSet_stands h
  | ptmEnableWrite => exact execPtmEnableWrite_stands h
  | cxlCacheEnable => exact execCxlCacheEnable_stands h
  | cxlMemEnable => exact execCxlMemEnable_stands h
  | linkLoopbackEntry => exact execLinkLoopbackEntry_stands h

theorem idle_stands (h : F.Stands s) : F.Stands (idle s) := by
  rcases h.cases with ⟨hw, h⟩ | ⟨hw, h⟩ <;> simp [hw, h]

theorem step_stands (h : F.Stands s) (e : step s = .next t) : F.Stands t := by
  obtain rfl | ⟨c, rest, e⟩ := step_cases e
  · exact idle_stands h
  · have hl : F.Leads (exec c { s with pending := rest }) := exec_stands c ⟨h.1, h.2⟩
    rw [e] at hl
    exact hl

/-- What holds of a state: the image staged there, and its own floor. -/
def floorOf (s : State) : StageFloor where
  stored := storesWf s
  ordered := tierMapWf s
  image := match s.sec.staging with
    | .image f => some f
    | _ => none
  svn := svnFloor s

theorem floorOf_image_of_staged {f : FwImage} (e : s.sec.staging = .image f) : (floorOf s).image = some f := by
  simp [floorOf, e]

theorem staged_of_floorOf_image {f : FwImage} (e : (floorOf s).image = some f) : s.sec.staging = .image f := by
  simp only [floorOf] at e
  split at e
  · simp_all
  · cases e

theorem floorOf_stands (s : State) : (floorOf s).Stands s :=
  ⟨id, id, fun _ e => .inl (floorOf_image_of_staged e), (svnFloor_eq s).le⟩

/-- Settles O3: every step leads from a state to one that keeps what holds of it. -/
theorem stepKeepsStoresWf : Obligations.StepKeepsStoresWf := fun s _ hw e => (step_stands (floorOf_stands s) e).1 hw

/-- Settles O4: every step leads from a state to one that keeps what holds of it. -/
theorem stepKeepsTierMapOrder : Obligations.StepKeepsTierMapOrder := fun s _ hw e => (step_stands (floorOf_stands s) e).2.frames hw

/-- Settles O29: a staged image stood there before the step or reaches the floor that stood then, and an image that is not valid ends
its verification with ST_FW_INVALID. -/
theorem rollbackRefused : Obligations.RollbackRefused := by
  refine ⟨fun s t f e hf => ?_, fun s bs hv => ?_⟩
  · exact ((step_stands (floorOf_stands s) e).2.staged f hf).imp_left staged_of_floorOf_image
  · simp [judgeImage, hv]

end Sys2Proof.Machine

/-! SUPPORT. The step itself: it runs the front command, it always answers a next state, and at reset the stores and the tier map are
well formed; the ticks of an empty queue. -/

namespace Sys2Proof.Machine

open Sys2Proof

/-- Every row answers a next state: none refuses a command or faults. -/
theorem exec_next (i : Instr) (s : State) : ∃ t, exec i s = .next t := by
  cases i <;> exact ⟨_, rfl⟩

/-- Settles O1: a queue with a front command is the case of the step that runs it. -/
theorem stepRunsFrontCommand : Obligations.StepRunsFrontCommand := fun _ _ _ => rfl

/-- Settles O2: an empty queue ticks, and every row answers a next state. -/
theorem everyStepAnswersNext : Obligations.EveryStepAnswersNext := by
  intro s
  unfold step
  split
  · exact ⟨_, rfl⟩
  · exact exec_next _ _

/-- Settles O5: the reset stores are empty and so is the tier map. -/
theorem resetStoresWf : Obligations.ResetStoresWf := ⟨State.reset_wf, List.Pairwise.nil⟩

/-- The module on the crystal with a host that lies more than 1 ms behind: at the eighth tick of the crystal's round the slew takes
16 ns of a step of 30,517 ns (log entry 94). -/
def laggingOnCrystal : State :=
  { State.reset with time := { State.reset.time with crystal := 7, ptmOffset := -1000001, slew := -1000001 } }

/-- Refutes O8: a tick on the crystal advances the DTB by 30,501 ns where the slew takes its 16 ns of a step of 30,517 ns. -/
theorem not_emptyQueueTicks : ¬ Obligations.EmptyQueueTicks := by
  intro h
  obtain ⟨t, ht, -, -, -, hcrystal⟩ := h.1 laggingOnCrystal rfl rfl (fun _ _ => by simp [laggingOnCrystal, State.reset])
  obtain rfl : idle laggingOnCrystal = t := Host.Outcome.next.inj ht
  have hlow := (hcrystal rfl).1
  have htick : (idle laggingOnCrystal).time.dtb = 30501 := by decide
  rw [htick] at hlow
  exact absurd hlow (by decide)

end Sys2Proof.Machine

/-! SUPPORT. Time: the PTM rows and the steps of the DTB (R24, R25, R250). -/

namespace Sys2Proof.Machine

open Sys2Proof

theorem ptmSync_of_no_exchange {s : State} (h : s.time.ptmLast = none) : ptmSync s = false := by simp [ptmSync, h]

theorem execPtmRequest_of_up {s : State} (he : s.time.ptmEnabled = true) (hu : s.link.up = true) :
    execPtmRequest s = .next { s with
      time := { s.time with ptmRequestAt := some (s.time.ptmRequestAt.getD s.time.dtb) }, out := s.out ++ [.ptmRequest] } := by
  simp [execPtmRequest, he, hu, emit, now]

theorem execPtmTimeout_of_waiting {s : State} {r : Nat} (he : s.time.ptmEnabled = true) (hr : s.time.ptmRequestAt = some r) :
    execPtmTimeout s = .next { s with
      time := { runFree { s.time with dtb := max s.time.dtb (r + 100000000) } with ptmLost := true } } := by
  simp [execPtmTimeout, he, hr, advanceTo]

theorem execPtmEnableWrite_true {s : State} (hu : s.link.up = true) :
    execPtmEnableWrite true s = .next { s with time := { s.time with ptmEnabled := true } } := by
  simp [execPtmEnableWrite, hu]

theorem execPtmEnableWrite_false {s : State} (hu : s.link.up = true) :
    execPtmEnableWrite false s = .next { s with time := { runFree s.time with ptmEnabled := false } } := by
  simp [execPtmEnableWrite, hu]

theorem execPtmExchange_of_up {s : State} (h : Nat) (he : s.time.ptmEnabled = true) (hu : s.link.up = true) :
    execPtmExchange h s = .next { s with time := { disciplineTo s.time ((h : Int) - s.time.dtb) with
      ptmLast := some s.time.dtb, ptmOffset := (h : Int) - s.time.dtb, ptmFirst := false, ptmRequestAt := none,
      ptmLost := false } } := by
  simp [execPtmExchange, he, hu, now]

theorem disciplineTo_dtb (t : TimeState) (off : Int) : (disciplineTo t off).dtb = t.dtb := by
  unfold disciplineTo
  (repeat' split) <;> rfl

theorem disciplineTo_of_le {t : TimeState} {off : Int} (h : off ≤ 1000000) :
    disciplineTo t off = { t with slew := off, stepDue := none } := by simp [disciplineTo, h]

theorem disciplineTo_of_first {t : TimeState} {off : Int} (h : 1000000 < off) (hf : t.ptmFirst = true) :
    disciplineTo t off = { t with slew := 0, stepDue := some (off.toNat, t.dtb) } := by
  simp [disciplineTo, not_le.2 h, hf]

/-- A waiting step that finds a free tick within its second is taken, by the row of the step as by the row that would abandon it. -/
theorem execDtbForwardStep_of_idle {s : State} {n r : Nat} (hd : s.time.stepDue = some (n, r)) (hq : s.adm.queries = [])
    (hr : s.time.dtb ≤ r + 1000000000) :
    execDtbForwardStep s = .next { s with time := { s.time with dtb := s.time.dtb + n, stepDue := none } } := by
  simp [execDtbForwardStep, hd, hq, slotOccupied, now, hr]

theorem execDtbForwardStep_of_occupied {s : State} (hq : s.adm.queries ≠ []) : execDtbForwardStep s = .next s := by
  unfold execDtbForwardStep
  split <;> simp [slotOccupied, hq]

theorem execDtbStepAbandon_of_idle {s : State} {n r : Nat} (hd : s.time.stepDue = some (n, r)) (hq : s.adm.queries = [])
    (hr : s.time.dtb ≤ r + 1000000000) :
    execDtbStepAbandon s = .next { s with time := { s.time with dtb := s.time.dtb + n, stepDue := none } } := by
  simp [execDtbStepAbandon, hd, hq, slotOccupied, now, hr]

theorem execDtbStepAbandon_of_late {s : State} {n r : Nat} (hd : s.time.stepDue = some (n, r))
    (h : s.adm.queries ≠ [] ∨ r + 1000000000 < s.time.dtb) :
    execDtbStepAbandon s = .next { s with
      time := { s.time with dtb := max s.time.dtb (r + 1000000000), stepDue := none, slew := n } } := by
  have hlate : (!slotOccupied s && decide (now s ≤ r + 1000000000)) = false := by
    rcases h with h | h
    · simp [slotOccupied, h]
    · simp [now, not_le.2 h]
  simp [execDtbStepAbandon, hd, hlate, advanceTo]

/-- Settles O6: each row by its lemma; what an exchange slews or steps is `disciplineTo`. -/
theorem timeRows : Obligations.TimeRows := by
  refine ⟨fun s he hu => ?_, fun s h he hu => ?_, fun s r he hr => ?_, fun s n r => execDtbForwardStep_of_idle,
    fun s => execDtbForwardStep_of_occupied, fun s n r => execDtbStepAbandon_of_late, fun s n r => execDtbStepAbandon_of_idle,
    fun s on hu => ?_⟩
  · exact execPtmRequest_of_up he hu
  · refine ⟨_, execPtmExchange_of_up h he hu, rfl, disciplineTo_dtb .., rfl, rfl, rfl, fun hle => ?_, fun hlt hf => ?_⟩
    · simp [disciplineTo_of_le hle]
    · have hsize : ((h : Int) - s.time.dtb).toNat = h - s.time.dtb := by omega
      simp [disciplineTo_of_first hlt hf, hsize]
  · exact ⟨_, execPtmTimeout_of_waiting he hr, rfl, ptmSync_of_no_exchange rfl, rfl, rfl, le_max_left .., le_max_right ..⟩
  · cases on with
    | true => exact ⟨_, execPtmEnableWrite_true hu, rfl, rfl, rfl, nofun⟩
    | false => exact ⟨_, execPtmEnableWrite_false hu, rfl, rfl, rfl, fun _ => ⟨ptmSync_of_no_exchange rfl, rfl, rfl⟩⟩

end Sys2Proof.Machine

/-! SUPPORT. Resets and the disable of the admin queue take the CIDs of admin commands out of what runs on, the CID of a bay's reclaim
among them (R257, R301): `resetBounded`, by which the binding of every bay stands, does not hold of a module with a bay being reclaimed. -/

namespace Sys2Proof.Machine

open Sys2Proof

/-- A module with its link up and BAY_RECLAIM, CID 3, of bay 1 in course, its grace ending at DTB 7. -/
def reclaimingBay : State :=
  { State.reset with
    link := { State.reset.link with up := true }
    bay := { State.reset.bay with bays := [(1, { mode := .reclaiming, expiry := some (7, 3) })] } }

theorem sameBinding.expiry {u v : Bay} (h : sameBinding u v) : u.expiry = v.expiry := by
  unfold sameBinding at h
  rw [h]

/-- A reset that keeps its bounds keeps the reclaim of every bay, its CID with it. -/
theorem resetBounded.expiry {s t : State} (h : resetBounded s t) (b : Nat) : (bayAt t b).expiry = (bayAt s b).expiry := by
  obtain ⟨-, -, -, -, hbays, -⟩ := h
  exact (hbays b).expiry

/-- From the module with bay 1 being reclaimed no step keeps the bounds of a reset when it takes the reclaim's CID. -/
theorem not_resetBounded_of_next {o : Host.Outcome State Fault Refusal} {t u : State} (ht : o = .next t) (hu : o = .next u)
    (h : (bayAt u 1).expiry = some (7, noCid)) : ¬ resetBounded reclaimingBay t := by
  intro hb
  obtain rfl : u = t := Host.Outcome.next.inj (hu.symm.trans ht)
  have hcid : some (7, noCid) = some (7, 3) := h.symm.trans (hb.expiry 1)
  exact absurd hcid (by decide)

/-- Refutes O11: a disable of the admin queue takes the CID of a reclaim that runs on, and what binds that bay changes with it. -/
theorem not_adminQueueRows : ¬ Obligations.AdminQueueRows := by
  intro h
  obtain ⟨-, -, -, -, hdisable⟩ := h
  obtain ⟨t, ht, -, -, -, hb, -⟩ := hdisable reclaimingBay rfl
  exact not_resetBounded_of_next ht rfl (by decide) hb

/-- Refutes O17: a loss of the link takes the CID of a reclaim that runs on, and what binds that bay changes with it. -/
theorem not_linkRows : ¬ Obligations.LinkRows := by
  intro h
  obtain ⟨-, hdown, -, -⟩ := h
  obtain ⟨t, ht, hb, -⟩ := hdown reclaimingBay rfl
  exact not_resetBounded_of_next ht rfl (by decide +kernel) hb

/-- Refutes O18: a reset of every function takes the CID of a reclaim that runs on, and what binds that bay changes with it. -/
theorem not_functionResetRows : ¬ Obligations.FunctionResetRows := by
  intro h
  obtain ⟨-, hpf, -⟩ := h
  obtain ⟨t, ht, -, hb, -⟩ := hpf reclaimingBay rfl
  exact not_resetBounded_of_next ht rfl (by decide +kernel) hb

end Sys2Proof.Machine

/-! SUPPORT. Doorbells: what a queue holds after one, which one takes effect, and the counters of the dropped ones (R251, R258). -/

namespace Sys2Proof.Machine

open Sys2Proof

variable {s : State} {fn q : Nat}

theorem updQueue_of_ne (f : Queue → Queue) (hq : q ≠ adminQ) :
    updQueue s q f = updPair s q (fun p => { p with q := f p.q }) := by
  simp [updQueue, hq]

theorem pairOf_updQueue_same (f : Queue → Queue) (hq : q ≠ adminQ) :
    pairOf (updQueue s q f) q = (pairOf s q).map (fun p => { p with q := f p.q }) := by
  rw [updQueue_of_ne f hq]
  exact pairOf_updPair_same s q _ (fun _ => rfl)

theorem pairOf_updQueue_other {q' : Nat} (f : Queue → Queue) (hq : q' ≠ q) : pairOf (updQueue s q f) q' = pairOf s q' := by
  unfold updQueue
  split
  · rfl
  · exact pairOf_updPair_other s q q' _ (fun _ => rfl) hq

theorem admin_updQueue (f : Queue → Queue) (hq : q ≠ adminQ) : (updQueue s q f).queues.admin = s.queues.admin := by
  rw [updQueue_of_ne f hq]
  rfl

theorem queueOf_of_ne (hq : q ≠ adminQ) : queueOf s q = (pairOf s q).map (fun p => p.q) := by simp [queueOf, hq]

theorem doorbellWake_frame (s : State) : doorbellWake s = { s with power := (doorbellWake s).power } := by
  unfold doorbellWake
  split
  · rfl
  · dsimp only
    rw [startWake_frame, startWake_frame s]

/-- A doorbell of a queue pair that takes it does what its row does. -/
theorem doorbell_of_open {p : QPair} {v depth : Nat} (hl : linkServes s) (hp : pairOpen s fn q p) (hv : v < depth)
    (act : State → State) : doorbell s fn q v depth act = act s := by
  obtain ⟨hup, hdeg⟩ := hl
  obtain ⟨hpair, hbay, hstop, hdel, hrec⟩ := hp
  simp [doorbell, hup, hdeg, hpair, hbay, hstop, hdel, hrec, hv]

theorem addMark_eq (u : Queue) (tail t : Nat) :
    addMark u tail t = if tail = u.sqTail then u.marks else u.marks ++ [(tail, t)] := by
  simp [addMark]

/-- The doorbell of a pair that takes it updates that pair and asks its domains to wake. -/
theorem exists_doorbell {f : Queue → Queue} {p : QPair} (hp : pairOf s q = some p) (hq : q ≠ adminQ) :
    ∃ t, doorbellWake (updQueue s q f) = t ∧ t = { s with queues := t.queues, power := t.power } ∧
      pairOf t q = some { p with q := f p.q } ∧ t.queues.admin = s.queues.admin ∧ ∀ q', q' ≠ q → pairOf t q' = pairOf s q' := by
  have hqueues : (doorbellWake (updQueue s q f)).queues = (updQueue s q f).queues := by rw [doorbellWake_frame]
  have hpair (n : Nat) : pairOf (doorbellWake (updQueue s q f)) n = pairOf (updQueue s q f) n := by rw [pairOf, hqueues]; rfl
  refine ⟨_, rfl, by rw [doorbellWake_frame, updQueue_frame], ?_, ?_, fun q' hq' => ?_⟩
  · rw [hpair, pairOf_updQueue_same f hq, hp]
    rfl
  · rw [hqueues, admin_updQueue f hq]
  · rw [hpair, pairOf_updQueue_other f hq']

/-- Settles O9: a doorbell that its pair takes writes the queue's tail with its mark, or its head. -/
theorem doorbellRows : Obligations.DoorbellRows := by
  refine ⟨fun s fn q v p hl hp hq hv => ?_, fun s fn q v p hl hp hq hv => ?_⟩
  · obtain ⟨t, ht, hrest⟩ := exists_doorbell
      (f := fun u => { u with sqTail := v.toNat % 65536, marks := addMark u (v.toNat % 65536) (now s) }) hp.1 hq
    refine ⟨t, ?_, by simpa [addMark_eq, now] using hrest⟩
    simp only [exec, execSqTailDoorbell, hp.1, doorbell_of_open hl hp hv, ht]
  · obtain ⟨t, ht, hrest⟩ := exists_doorbell (f := fun u => { u with cqHead := v.toNat % 65536 }) hp.1 hq
    refine ⟨t, ?_, hrest⟩
    simp only [exec, execCqHeadDoorbell, hp.1, doorbell_of_open hl hp hv, ht]

/-! Dropped doorbells. -/

theorem lookupKey_updLinkCounters (f : LinkCounters → LinkCounters) :
    lookupKey (updLinkCounters s fn f).link.counters fn = some (f ((lookupKey s.link.counters fn).getD {})) :=
  lookupKey_putKey_same ..

theorem wrapAdd_one {c : Nat} (h : c < 2 ^ 64 - 1) : wrapAdd 64 c 1 = c + 1 := Nat.mod_eq_of_lt (by omega)

/-- A dropped doorbell is counted as one of a stopped pair or as one with a bad value. -/
theorem execSqTailDoorbell_of_dropped {v : Word32} (hl : linkServes s)
    (hp : ∀ p, pairOf s q = some p → p.bay = fn ∧ (p.stopped = true ∨ p.deleting ≠ none ∨ p.q.sqDepth ≤ v.toNat % 65536)) :
    execSqTailDoorbell fn q v s = .next (updLinkCounters s fn (fun c => { c with dbStopped := wrapAdd 64 c.dbStopped 1 })) ∨
    execSqTailDoorbell fn q v s = .next (updLinkCounters s fn (fun c => { c with dbBadValue := wrapAdd 64 c.dbBadValue 1 })) := by
  obtain ⟨hup, hdeg⟩ := hl
  unfold execSqTailDoorbell doorbell
  cases hpair : pairOf s q with
  | none => simp [hup, hdeg]
  | some p =>
    obtain ⟨hbay, hdrop⟩ := hp p hpair
    by_cases hclosed : (p.stopped || p.deleting.isSome || p.reclaimed) = true
    · simp [hup, hdeg, hbay, hclosed]
    · have hopen : p.stopped = false ∧ p.deleting = none := by simp_all
      have hv : p.q.sqDepth ≤ v.toNat % 65536 := by simpa [hopen] using hdrop
      simp [hup, hdeg, hbay, hclosed, hv]

/-- Settles O10: the dropped doorbell raises one of the two counters of its function by one. -/
theorem droppedDoorbells : Obligations.DroppedDoorbells := by
  intro s fn q v hl hp
  rcases execSqTailDoorbell_of_dropped hl hp with h | h
  · refine ⟨_, h, rfl, fun c hc hs hb => ⟨_, lookupKey_updLinkCounters _, ?_⟩⟩
    simp only [hc, Option.getD_some, wrapAdd_one hs]
    exact ⟨by omega, trivial⟩
  · refine ⟨_, h, rfl, fun c hc hs hb => ⟨_, lookupKey_updLinkCounters _, ?_⟩⟩
    simp only [hc, Option.getD_some, wrapAdd_one hb]
    exact ⟨by omega, trivial⟩

end Sys2Proof.Machine

/-! SUPPORT. Consumption of submission entries and the posting of completions (R258, R260, R262). -/

namespace Sys2Proof.Machine

open Sys2Proof

variable {s : State} {q : Nat} {u : Queue}

/-! Consumption. -/

/-- Settles O12: the row's own branches, the entry's command behind those that wait. -/
theorem consumptionNeedsCompletionSlot : Obligations.ConsumptionNeedsCompletionSlot := by
  refine ⟨fun s q sqe u hl hu hf hne hadm hc he => ?_, fun s q sqe u hu hc => ?_⟩
  · obtain ⟨hup, hdeg⟩ := hl
    have hdue : entryDue s q u = true := by simpa [entryDue, hup, hdeg, hf, hne] using not_or_of_imp hadm
    refine ⟨updQueue s q (fun v => { advanceHead v with cmds := v.cmds ++ [consumedCmd u sqe s.time.dtb] }), ?_,
      updQueue_frame .., ?_⟩
    · simp [exec, execSubmissionConsume, hu, hdue, hc, he, now]
    · rw [queueOf_updQueue_same, hu]
      rfl
  · by_cases hdue : entryDue s q u = true
    · exact ⟨updLinkCounters s (bayOfQueue s q) (fun c => { c with cqSlotWaits := wrapAdd 64 c.cqSlotWaits 1 }),
        by simp [exec, execSubmissionConsume, hu, hdue, hc], rfl⟩
    · exact ⟨s, by simp [exec, execSubmissionConsume, hu, hdue], rfl⟩

/-! Posting. -/

theorem bayOfQueue_updPair (f : QPair → QPair) (q' : Nat) (h : ∀ p, (f p).id = p.id ∧ (f p).bay = p.bay) :
    bayOfQueue (updPair s q f) q' = bayOfQueue s q' := by
  unfold bayOfQueue
  by_cases hq : q' = q
  · subst hq
    rw [pairOf_updPair_same s q' f (fun p => (h p).1)]
    cases pairOf s q' <;> simp [h]
  · rw [pairOf_updPair_other s q q' f (fun p => (h p).1) hq]

@[simp] theorem bayOfQueue_updQueue (f : Queue → Queue) (q' : Nat) : bayOfQueue (updQueue s q f) q' = bayOfQueue s q' := by
  unfold updQueue
  split
  · rfl
  · exact bayOfQueue_updPair _ _ (fun _ => ⟨rfl, rfl⟩)

@[simp] theorem bayOfQueue_countAfterDelete (q' : Nat) : bayOfQueue (countAfterDelete s q) q' = bayOfQueue s q' :=
  bayOfQueue_updPair _ _ (fun p => by split <;> exact ⟨rfl, rfl⟩)

@[simp] theorem bayOfQueue_emit (o : Out) (q' : Nat) : bayOfQueue (emit s o) q' = bayOfQueue s q' := rfl

@[simp] theorem queueOf_emit (o : Out) (q' : Nat) : queueOf (emit s o) q' = queueOf s q' := rfl

@[simp] theorem queueOf_countAfterDelete (q' : Nat) : queueOf (countAfterDelete s q) q' = queueOf s q' := by
  unfold queueOf countAfterDelete
  split
  · rfl
  · by_cases hq : q' = q
    · subst hq
      rw [pairOf_updPair_same _ _ _ (fun p => by split <;> rfl)]
      cases pairOf s q' with
      | none => rfl
      | some p => simp only [Option.map_some]; split <;> rfl
    · rw [pairOf_updPair_other _ _ _ _ (fun p => by split <;> rfl) hq]

theorem queueOf_raiseVector (fn v q' : Nat) : queueOf (raiseVector s fn v) q' = queueOf s q' := by
  unfold raiseVector
  split <;> rfl

/-- Where the message of a vector goes: out, or to the pending bits of a masked one. -/
theorem out_raiseVector (fn v : Nat) : (raiseVector s fn v).out = s.out ∨ (raiseVector s fn v).out = s.out ++ [.msix fn v] := by
  unfold raiseVector
  split
  · exact .inl rfl
  · exact .inr rfl

theorem out_sendMsix (hu : queueOf s q = some u) :
    (sendMsix s q).out = s.out ∨ (sendMsix s q).out = s.out ++ [.msix (bayOfQueue s q) u.msix] := by
  simp only [sendMsix, hu]
  simpa using out_raiseVector (s := updQueue s q (fun u => { u with uncovered := 0 })) (bayOfQueue s q) u.msix

theorem queueOf_sendMsix (hu : queueOf s q = some u) : queueOf (sendMsix s q) q = some { u with uncovered := 0 } := by
  simp only [sendMsix, hu]
  rw [queueOf_raiseVector, queueOf_updQueue_same, hu]
  rfl

/-- A commit adds at most the message of its queue's vector to what leaves the module. -/
theorem out_afterCommit (hu : queueOf s q = some u) :
    (afterCommit s q).out = s.out ∨ (afterCommit s q).out = s.out ++ [.msix (bayOfQueue s q) u.msix] := by
  simp only [afterCommit, hu]
  split
  · exact .inl rfl
  · split
    · have h := out_sendMsix (s := updQueue s q (fun u =>
        { u with uncovered := u.uncovered + 1, oldest := if u.uncovered == 0 then now s else u.oldest })) (q := q)
        (by rw [queueOf_updQueue_same, hu]; rfl)
      simpa using h
    · simp

/-- Of its queue a commit changes no more than what an interrupt covers. -/
theorem queueOf_afterCommit (hu : queueOf s q = some u) :
    ∃ n o, queueOf (afterCommit s q) q = some { u with uncovered := n, oldest := o } := by
  simp only [afterCommit, hu]
  split
  · exact ⟨u.uncovered, u.oldest, hu⟩
  · have hup := queueOf_updQueue_same s q (fun u =>
      { u with uncovered := u.uncovered + 1, oldest := if u.uncovered == 0 then now s else u.oldest })
    rw [hu, Option.map_some] at hup
    split
    · have hsent := queueOf_sendMsix hup
      exact ⟨_, _, hsent⟩
    · exact ⟨_, _, hup⟩

/-- A queue with a record out of its list. -/
def withoutCmd (u : Queue) (c : Cmd) : Queue := { u with cmds := removeFirst (fun x => x.seq == c.seq) u.cmds }

theorem queueOf_removed (c : Cmd) (hu : queueOf s q = some u) :
    queueOf (updQueue s q (fun u => { u with cmds := removeFirst (fun x => x.seq == c.seq) u.cmds })) q = some (withoutCmd u c) := by
  rw [queueOf_updQueue_same, hu]
  rfl

/-- A record posted while the link serves: its entry leaves the module, the slot and the phase move, an interrupt may follow. -/
theorem postRecord_of_serving (c : Cmd) (status result nacc ndiff : Nat) (hu : queueOf s q = some u)
    (hw : queueWrites s q = true) (hl : s.link.degraded = false) :
    ∃ v, queueOf v q = some (bumpCqTail (withoutCmd u c)) ∧ bayOfQueue v q = bayOfQueue s q ∧
      v.out = s.out ++ [postedEntry s u q c status result nacc ndiff] ∧
      postRecord s q c status result nacc ndiff = afterCommit v q := by
  have hw' : queueWrites (updQueue s q (fun u => { u with cmds := removeFirst (fun x => x.seq == c.seq) u.cmds })) q = true := by
    by_cases hq : q = adminQ
    · simpa [queueWrites, hq, updQueue] using hw
    · simp [queueWrites, hq]
  simp only [postRecord, hu, hl, Bool.false_eq_true, if_false, commitEntry, queueOf_removed c hu, hw', if_true]
  refine ⟨_, ?_, ?_, ?_, rfl⟩
  · rw [queueOf_countAfterDelete, queueOf_emit, queueOf_updQueue_same, queueOf_removed c hu]
    rfl
  · simp
  · simp [countAfterDelete, emit, postedEntry, now, withoutCmd]

theorem bumpCqTail_eq (u : Queue) :
    bumpCqTail u = { u with
      cqTail := if u.cqTail + 1 < u.cqDepth then u.cqTail + 1 else 0,
      phase := if u.cqTail + 1 < u.cqDepth then u.phase else !u.phase } := by
  unfold bumpCqTail
  split <;> rfl

theorem out_postRecord (c : Cmd) (status result nacc ndiff : Nat) (hu : queueOf s q = some u)
    (hw : queueWrites s q = true) (hl : s.link.degraded = false) :
    ∃ r, (postRecord s q c status result nacc ndiff).out = s.out ++ postedEntry s u q c status result nacc ndiff :: r ∧
      (r = [] ∨ r = [.msix (bayOfQueue s q) u.msix]) := by
  obtain ⟨v, hv, hbay, hout, e⟩ := postRecord_of_serving c status result nacc ndiff hu hw hl
  have hm : (bumpCqTail (withoutCmd u c)).msix = u.msix := by rw [bumpCqTail_eq]; rfl
  rw [e]
  rcases out_afterCommit hv with h | h
  · exact ⟨[], by rw [h, hout], .inl rfl⟩
  · exact ⟨_, by rw [h, hout, hbay, hm, List.append_assoc]; rfl, .inr rfl⟩

/-- The queue after a completion: the record is gone and the completion tail is one slot further. -/
theorem queueOf_postRecord (c : Cmd) (status result nacc ndiff : Nat) (hu : queueOf s q = some u)
    (hw : queueWrites s q = true) (hl : s.link.degraded = false) :
    ∃ n o, queueOf (postRecord s q c status result nacc ndiff) q =
      some { bumpCqTail (withoutCmd u c) with uncovered := n, oldest := o } := by
  obtain ⟨v, hv, -, -, e⟩ := postRecord_of_serving c status result nacc ndiff hu hw hl
  rw [e]
  exact queueOf_afterCommit hv

/-- While the link is degraded the completion is kept behind those that wait already (log entry 144). -/
theorem postRecord_of_degraded (c : Cmd) (status result nacc ndiff : Nat) (hu : queueOf s q = some u) (hl : s.link.degraded = true) :
    postRecord s q c status result nacc ndiff =
      { updQueue s q (fun u => { u with cmds := removeFirst (fun x => x.seq == c.seq) u.cmds }) with
        queues := { (updQueue s q (fun u => { u with cmds := removeFirst (fun x => x.seq == c.seq) u.cmds })).queues with
          deferred := s.queues.deferred ++
            [{ q := q, cmd := c, status := status, result := result, nacc := nacc, ndiff := ndiff }] } } := by
  have hdef (f : Queue → Queue) : (updQueue s q f).queues.deferred = s.queues.deferred := by
    unfold updQueue
    split <;> rfl
  simp [postRecord, hu, hl, hdef]

/-- Settles O13: the entry and what may follow it, the slot and the phase, and the completions kept on a degraded link. -/
theorem completionPostsOneEntry : Obligations.CompletionPostsOneEntry := by
  refine ⟨fun s q c status result nacc ndiff u hu hw hl => ⟨postRecord_frame .., ?_, ?_⟩,
    fun s q c status result nacc ndiff u hu hl => ?_⟩
  · obtain ⟨r, hr, hm⟩ := out_postRecord c status result nacc ndiff hu hw hl
    exact ⟨r, hr, hm⟩
  · obtain ⟨n, o, hv⟩ := queueOf_postRecord c status result nacc ndiff hu hw hl
    refine ⟨_, hv, ?_⟩
    simp [bumpCqTail_eq, withoutCmd]
  · rw [postRecord_of_degraded c status result nacc ndiff hu hl]
    exact ⟨by rw [updQueue_frame], rfl, queueOf_removed c hu⟩

end Sys2Proof.Machine

/-! SUPPORT. What a completion leaves of the pairs, and the queue events: the coalescing timer and failed host reads (R260, R265). -/

namespace Sys2Proof.Machine

open Sys2Proof

variable {s : State} {q : Nat} {u : Queue}

/-- A pair without its queue and its count of completions after a deletion. -/
def pairCore (p : QPair) : QPair := { p with q := {}, afterDelete := 0 }

/-- Two pairs with the same core have the same context, bay and marks of their life. -/
theorem eq_of_pairCore {p p' : QPair} (h : pairCore p' = pairCore p) : p' = { p with q := p'.q, afterDelete := p'.afterDelete } := by
  cases p
  cases p'
  simp_all [pairCore]

theorem ctx_of_pairCore {p p' : QPair} (h : pairCore p' = pairCore p) : p'.ctx = p.ctx := by rw [eq_of_pairCore h]

/-- The cores of all pairs. -/
def pairCores (s : State) : List QPair := s.queues.pairs.map pairCore

theorem map_pairOf (s : State) (q : Nat) : (pairOf s q).map pairCore = (pairCores s).find? (fun p => p.id == q) := by
  rw [pairCores, List.find?_map]
  rfl

theorem map_updateFirst {α β : Type} (g : α → β) (p : α → Bool) (f : α → α) (h : ∀ a, g (f a) = g a) (l : List α) :
    (updateFirst p f l).map g = l.map g := by
  induction l with
  | nil => rfl
  | cons a r ih => by_cases ha : p a <;> simp [updateFirst, ha, h, ih]

theorem pairCores_updPair (f : QPair → QPair) (h : ∀ p, pairCore (f p) = pairCore p) : pairCores (updPair s q f) = pairCores s :=
  map_updateFirst pairCore _ f h _

@[simp] theorem pairCores_updQueue (f : Queue → Queue) : pairCores (updQueue s q f) = pairCores s := by
  unfold updQueue
  split
  · rfl
  · exact pairCores_updPair _ (fun _ => rfl)

@[simp] theorem pairCores_countAfterDelete : pairCores (countAfterDelete s q) = pairCores s :=
  pairCores_updPair _ (fun p => by split <;> rfl)

@[simp] theorem pairCores_emit (o : Out) : pairCores (emit s o) = pairCores s := rfl

@[simp] theorem pairOf_emit (o : Out) (q' : Nat) : pairOf (emit s o) q' = pairOf s q' := rfl

@[simp] theorem pairOf_raiseVector (fn v q' : Nat) : pairOf (raiseVector s fn v) q' = pairOf s q' := by
  unfold raiseVector
  split <;> rfl

@[simp] theorem pairCores_raiseVector (fn v : Nat) : pairCores (raiseVector s fn v) = pairCores s := by
  unfold raiseVector
  split <;> rfl

@[simp] theorem pairCores_sendMsix : pairCores (sendMsix s q) = pairCores s := by
  unfold sendMsix
  split <;> simp

@[simp] theorem pairCores_afterCommit : pairCores (afterCommit s q) = pairCores s := by
  unfold afterCommit
  dsimp only
  (repeat' split) <;> simp

@[simp] theorem pairCores_commitEntry (d : Deferred) : pairCores (commitEntry s d) = pairCores s := by
  unfold commitEntry
  (repeat' split) <;> simp

/-- A completion leaves every pair but for its queue and its count of completions after a deletion. -/
@[simp] theorem pairCores_postRecord (c : Cmd) (status result nacc ndiff : Nat) :
    pairCores (postRecord s q c status result nacc ndiff) = pairCores s := by
  unfold postRecord
  split
  · rfl
  · dsimp only
    split
    · exact pairCores_updQueue _
    · simp

@[simp] theorem pairCores_postCompletion (cid status result : Nat) :
    pairCores (postCompletion s q cid status result) = pairCores s := by
  unfold postCompletion
  split <;> simp

theorem pairOf_countAfterDelete_other {q' : Nat} (hq : q' ≠ q) : pairOf (countAfterDelete s q) q' = pairOf s q' :=
  pairOf_updPair_other s q q' _ (fun p => by split <;> rfl) hq

theorem pairOf_sendMsix_other {q' : Nat} (hq : q' ≠ q) : pairOf (sendMsix s q) q' = pairOf s q' := by
  unfold sendMsix
  split <;> simp [pairOf_updQueue_other _ hq]

theorem pairOf_afterCommit_other {q' : Nat} (hq : q' ≠ q) : pairOf (afterCommit s q) q' = pairOf s q' := by
  unfold afterCommit
  dsimp only
  (repeat' split) <;> simp [pairOf_updQueue_other _ hq, pairOf_sendMsix_other hq]

theorem pairOf_commitEntry_other {q' : Nat} (d : Deferred) (hq : q' ≠ d.q) : pairOf (commitEntry s d) q' = pairOf s q' := by
  unfold commitEntry
  dsimp only
  (repeat' split) <;>
    simp [pairOf_updQueue_other _ hq, pairOf_afterCommit_other hq, pairOf_countAfterDelete_other hq]

/-- A completion leaves the pairs of other queues as they stand. -/
theorem pairOf_postRecord_other {q' : Nat} (c : Cmd) (status result nacc ndiff : Nat) (hq : q' ≠ q) :
    pairOf (postRecord s q c status result nacc ndiff) q' = pairOf s q' := by
  unfold postRecord
  split
  · rfl
  · dsimp only
    split
    · exact pairOf_updQueue_other _ hq
    · rw [pairOf_commitEntry_other _ hq, pairOf_updQueue_other _ hq]

/-! The coalescing timer. -/

theorem execMsixCoalesceTimer_of_uncovered (hu : queueOf s q = some u) (hi : u.intEn = true) (hn : 0 < u.uncovered) :
    execMsixCoalesceTimer q s = .next (sendMsix (advanceTo s (u.oldest + 50000)) q) := by
  simp [execMsixCoalesceTimer, hu, hi, hn]

theorem sendMsix_of_queue (hu : queueOf s q = some u) :
    sendMsix s q = raiseVector (updQueue s q (fun u => { u with uncovered := 0 })) (bayOfQueue s q) u.msix := by
  simp [sendMsix, hu]

theorem raiseVector_of_unmasked {fn v : Nat} (h : msixMasked s fn v = false) : raiseVector s fn v = emit s (.msix fn v) := by
  simp [raiseVector, h]

/-- The message of a masked vector waits in its pending bit. -/
theorem raiseVector_of_masked {fn v : Nat} (h : msixMasked s fn v = true) :
    (raiseVector s fn v).out = s.out ∧ (fn, v) ∈ (raiseVector s fn v).queues.msixPending := by
  simp [raiseVector, h]

@[simp] theorem msixMasked_updQueue (f : Queue → Queue) (fn v : Nat) : msixMasked (updQueue s q f) fn v = msixMasked s fn v := by
  unfold updQueue
  split <;> rfl

theorem out_sendMsix_of_unmasked (hu : queueOf s q = some u) (hm : msixMasked s (bayOfQueue s q) u.msix = false) :
    (sendMsix s q).out = s.out ++ [.msix (bayOfQueue s q) u.msix] := by
  rw [sendMsix_of_queue hu, raiseVector_of_unmasked (by simpa using hm)]
  simp [emit]

theorem out_sendMsix_of_masked (hu : queueOf s q = some u) (hm : msixMasked s (bayOfQueue s q) u.msix = true) :
    (sendMsix s q).out = s.out ∧ (bayOfQueue s q, u.msix) ∈ (sendMsix s q).queues.msixPending := by
  rw [sendMsix_of_queue hu]
  simpa using raiseVector_of_masked (s := updQueue s q (fun u => { u with uncovered := 0 })) (by simpa using hm)

/-! Failed reads. -/

theorem removeFirst_append_last {α : Type} (p : α → Bool) (l : List α) (a : α) (hl : ∀ x ∈ l, p x = false) (ha : p a = true) :
    removeFirst p (l ++ [a]) = l := by
  induction l with
  | nil => simp [removeFirst, ha]
  | cons b r ih =>
    simp [removeFirst, hl b (by simp), ih (fun x hx => hl x (by simp [hx]))]

/-- The command that a failed read of an entry ends: no more than its place, and a free value as its CID (R265; log entry 142). -/
def failedCmd (s : State) (u : Queue) : Cmd := { consumedCmd u 0 (now s) with cid := (freshValue s).toNat % 65536 }

/-- The state in which a failed entry has been consumed. -/
def entryTaken (s : State) (q : Nat) (u : Queue) : State :=
  updQueue (bumpFree s) q (fun v => { advanceHead v with cmds := v.cmds ++ [failedCmd s u] })

theorem queueOf_entryTaken (hu : queueOf s q = some u) :
    queueOf (entryTaken s q u) q = some { advanceHead u with cmds := u.cmds ++ [failedCmd s u] } := by
  unfold entryTaken
  rw [queueOf_updQueue_same, show queueOf (bumpFree s) q = queueOf s q from rfl, hu]
  rfl

theorem failEntry_eq (s : State) (q : Nat) (u : Queue) :
    failEntry s q u = postRecord (entryTaken s q u) q (failedCmd s u) stHostFault 0 0 0 := rfl

/-- What a failed entry leaves of its queue: the head has moved, the list of commands stands. -/
theorem queueOf_failEntry (hu : queueOf s q = some u) (hq : q ≠ adminQ) (hl : s.link.degraded = false)
    (hseq : ∀ d ∈ u.cmds, d.seq ≠ u.consumed) :
    ∃ v, queueOf (failEntry s q u) q = some v ∧ v.sqHead = (advanceHead u).sqHead ∧ v.cmds = u.cmds := by
  obtain ⟨n, o, h⟩ := queueOf_postRecord (failedCmd s u) stHostFault 0 0 0 (queueOf_entryTaken hu) (by simp [queueWrites, hq])
    (by simpa [entryTaken] using hl)
  refine ⟨_, h, ?_, ?_⟩
  · simp [bumpCqTail_eq, withoutCmd]
  · simp only [bumpCqTail_eq, withoutCmd]
    exact removeFirst_append_last _ _ _ (fun d hd => by simpa [failedCmd, consumedCmd] using hseq d hd) (by simp)

theorem out_failEntry (hu : queueOf s q = some u) (hq : q ≠ adminQ) (hl : s.link.degraded = false) :
    ∃ r, (failEntry s q u).out = s.out ++ .completion q u.cqTail (completionEntry 0 s.time.dtb ((freshValue s).toNat % 65536)
      (advanceHead u).sqHead q stHostFault 0 0 u.phase) :: r := by
  obtain ⟨r, h, -⟩ := out_postRecord (failedCmd s u) stHostFault 0 0 0 (queueOf_entryTaken hu) (by simp [queueWrites, hq])
    (by simpa [entryTaken] using hl)
  exact ⟨r, by simpa [failEntry_eq, postedEntry, entryTaken, advanceHead, failedCmd, consumedCmd, bumpFree] using h⟩

theorem failEntry_frame (s : State) (q : Nat) (u : Queue) :
    failEntry s q u = { s with queues := (failEntry s q u).queues, out := (failEntry s q u).out, free := s.free + 1 } := by
  rw [failEntry_eq, postRecord_frame, entryTaken, updQueue_frame]
  rfl

theorem pairOf_failEntry_same {p : QPair} (hp : pairOf s q = some p) :
    ∃ p', pairOf (failEntry s q u) q = some p' ∧ pairCore p' = pairCore p := by
  have h : (pairOf (failEntry s q u) q).map pairCore = some (pairCore p) := by
    have hcores : pairCores (failEntry s q u) = pairCores s := by
      rw [failEntry_eq, pairCores_postRecord, entryTaken, pairCores_updQueue]
      rfl
    rw [map_pairOf, hcores, ← map_pairOf, hp]
    rfl
  exact Option.map_eq_some_iff.1 h

theorem pairOf_failEntry_other {q' : Nat} (hq : q' ≠ q) : pairOf (failEntry s q u) q' = pairOf s q' := by
  rw [failEntry_eq, pairOf_postRecord_other _ _ _ _ _ hq, entryTaken, pairOf_updQueue_other _ hq]
  rfl

/-- A host read that failed, as its function counts it. -/
def faultCounted (s : State) (q : Nat) : State :=
  updLinkCounters s (bayOfQueue s q) (fun c => { c with hostFaults := wrapAdd 64 c.hostFaults 1 })

theorem execHostReadFault_entry {cid : Nat} (hu : queueOf s q = some u) (hq : q ≠ adminQ) (hdue : entryDue s q u = true)
    (hc : cqSlotFree u = true) :
    execHostReadFault q cid .entry s =
      .next (updPair (failEntry (faultCounted s q) q u) q (fun p => { p with stopped := true })) := by
  simp [execHostReadFault, hu, hdue, hc, hq, faultCounted]

theorem execHostReadFault_block {c : Cmd} (hu : queueOf s q = some u) (hc : nextUndecided u = some c) :
    execHostReadFault q c.cid .block s = .next (postRecord (faultCounted s q) q c stHostFault 0 0 0) := by
  simp [execHostReadFault, hu, hc, faultCounted, endCmd]

theorem degraded_of_entryDue (h : entryDue s q u = true) : s.link.degraded = false := by
  simp only [entryDue, Bool.and_eq_true, Bool.not_eq_true'] at h
  exact h.1.1.1.2

/-- Settles O14: the message of an uncovered queue, an entry that could not be read, and a block that could not. -/
theorem queueEventRows : Obligations.QueueEventRows := by
  refine ⟨fun s q u hu hi hn => ?_, fun s q cid p hq hp hdue hc hseq => ?_, fun s q cid u c hu hc hcid hw hl => ?_⟩
  · have hu' : queueOf (advanceTo s (u.oldest + 50000)) q = some u := hu
    refine ⟨_, execMsixCoalesceTimer_of_uncovered hu hi hn, ?_, fun hm => ?_, fun hm => ?_, queueOf_sendMsix hu', ?_, ?_⟩
    · rw [sendMsix_frame]
      rfl
    · exact out_sendMsix_of_unmasked hu' hm
    · exact out_sendMsix_of_masked hu' hm
    · rw [sendMsix_frame]
      exact le_max_right ..
    · rw [sendMsix_frame]
      exact le_max_left ..
  · have hu : queueOf (faultCounted s q) q = some p.q := by rw [queueOf_of_ne hq]; exact congrArg _ hp
    obtain ⟨r, hout⟩ := out_failEntry hu hq (degraded_of_entryDue hdue)
    obtain ⟨v, hv, hhead, hcmds⟩ := queueOf_failEntry hu hq (degraded_of_entryDue hdue) hseq
    obtain ⟨p', hp', hcore⟩ := pairOf_failEntry_same (u := p.q) (s := faultCounted s q) hp
    obtain rfl : p'.q = v := by simpa [queueOf_of_ne hq, hp'] using hv
    refine ⟨_, _, r, execHostReadFault_entry (cid := cid) (by rw [queueOf_of_ne hq, hp]; rfl) hq hdue hc, ?_, hout, ⟨{ p' with stopped := true }, ?_, rfl,
      hhead, hcmds, ctx_of_pairCore (p' := p') hcore⟩, fun q' hq' => ?_⟩
    · rw [failEntry_frame]
      rfl
    · rw [pairOf_updPair_same _ q (fun p => { p with stopped := true }) (fun _ => rfl), hp']
      rfl
    · rw [pairOf_updPair_other _ q q' (fun p => { p with stopped := true }) (fun _ => rfl) hq', pairOf_failEntry_other hq']
      rfl
  · subst hcid
    obtain ⟨r, hr, -⟩ := out_postRecord (s := faultCounted s q) c stHostFault 0 0 0 hu hw hl
    refine ⟨_, r, execHostReadFault_block hu hc, ?_, hr⟩
    rw [postRecord_frame]
    rfl

end Sys2Proof.Machine

/-! SUPPORT. The completion of a batch, and queue pairs created and deleted (R254, R271, R273). -/

namespace Sys2Proof.Machine

open Sys2Proof

variable {s : State} {q cid : Nat} {c : Cmd}

/-! Batches. -/

/-- The state in which a batch that is over is posted: its slots are free, its context has made progress. -/
def batchDropped (s : State) (q cid ctx : Nat) : State := progressCtx (dropBatch s q cid) ctx

theorem postBatch_of_batch (hc : runningCmd s q cid = some c) (h4 : sqeOpcode c.sqe ≤ 4) :
    postBatch s q cid = postRecord (batchDropped s q cid (ctxOfQueue s q)) q c
      (if c.ndiff = 0 then stOk else stQueryStatus) 0 c.nacc c.ndiff := by
  have hrun : sqeOpcode c.sqe ≠ 0x07 := by omega
  simp [postBatch, hc, hrun, batchDropped]

theorem ctxAt_postRecord (k : Nat) (status result nacc ndiff : Nat) :
    ctxAt (postRecord s q c status result nacc ndiff) k = ctxAt s k := by
  rw [postRecord_frame]
  rfl

theorem ctxAt_batchDropped (k : Nat) :
    ctxAt (batchDropped s q cid k) k = (ctxAt s k).map (fun x => { x with progress := now s }) :=
  ctxAt_updCtx_same _ _ _ (fun _ => rfl)

/-- A context that no reclaim has ended is not ended with its batch. -/
theorem endReclaimed_of_live {k : Nat} (h : ∀ x, ctxAt s k = some x → x.reclaimed = false) : endReclaimed s k = s := by
  unfold endReclaimed
  split
  next x hx => simp [h x hx]
  next => rfl

theorem ctxOfQueue_of_pair {p : QPair} (hp : pairOf s q = some p) : ctxOfQueue s q = p.ctx := by simp [ctxOfQueue, hp]

/-- Settles O15: the batch's queries are dropped and its record posted with NACC and NDIFF. -/
theorem batchCompletion : Obligations.BatchCompletion := by
  intro s q cid p c hq hp hc h1 h4 hover hl hlive
  have hpost := postBatch_of_batch hc h4
  have hctx : ∀ x, ctxAt (postBatch s q cid) (ctxOfQueue s q) = some x → x.reclaimed = false := by
    rw [hpost, ctxAt_postRecord, ctxAt_batchDropped, ctxOfQueue_of_pair hp]
    intro x hx
    obtain ⟨y, hy, rfl⟩ := Option.map_eq_some_iff.1 hx
    exact hlive y hy
  have hrow : execBatchCompletionPost q cid s = .next (postBatch s q cid) := by
    simp [execBatchCompletionPost, hc, h1, h4, hover, endReclaimed_of_live hctx]
  obtain ⟨r, hout, -⟩ := out_postRecord (s := batchDropped s q cid (ctxOfQueue s q)) (u := p.q) c
    (if c.ndiff = 0 then stOk else stQueryStatus) 0 c.nacc c.ndiff ((queueOf_of_ne hq).trans (congrArg _ hp))
    (by simp [queueWrites, hq]) hl
  refine ⟨_, r, hrow, ?_, by rw [hpost]; exact hout, ?_⟩
  · rw [hpost, postRecord_frame]
    rfl
  · rw [hpost, postRecord_frame]
    intro x hx
    have hkept := (List.mem_filter.1 hx).2
    exact fun ⟨hxq, hxcid⟩ => by simp [hxq, hxcid] at hkept

/-! Queue pairs. -/

/-- An admin row whose command is found, with MGMT awake, does its work. -/
theorem withAdmin_of_adminTakes {opcode : Nat} (h : adminTakes s cid opcode c) (k : State → Cmd → State) :
    withAdmin s cid opcode k = k s c := by
  obtain ⟨htake, hawake, hserves, hvalid⟩ := h
  have hon : ((domainAt s 0).state == .on) = true := by
    simp only [mgmtAwake, Bool.and_eq_true] at hawake
    exact hawake.1.2
  simp [withAdmin, htake, rouseMgmt, bne, hon, hserves, hvalid]

@[simp] theorem pairCores_updCmd (f : Cmd → Cmd) : pairCores (updCmd s q cid f) = pairCores s := by simp [updCmd]

theorem completeAfter_frame (s : State) (q cid status result : Nat) (channels : List Nat) :
    completeAfter s q cid status result channels = { s with
      queues := (completeAfter s q cid status result channels).queues,
      power := (completeAfter s q cid status result channels).power,
      out := (completeAfter s q cid status result channels).out } := by
  unfold completeAfter
  dsimp only
  split
  · unfold postCompletion
    split
    · rw [postRecord_frame, wakeCapped_frame]
    · rw [wakeCapped_frame]
  · rw [updCmd, updQueue_frame, wakeCapped_frame]

theorem pairOf_postCompletion_other {q' : Nat} (status result : Nat) (hq : q' ≠ q) :
    pairOf (postCompletion s q cid status result) q' = pairOf s q' := by
  unfold postCompletion
  split
  · exact pairOf_postRecord_other _ _ _ _ _ hq
  · rfl

/-- What completes an admin command leaves the I/O pairs as they stand. -/
theorem pairOf_completeAfterWake_other {q' : Nat} (status result : Nat) (hq : q' ≠ q) :
    pairOf (completeAfterWake s q cid status result) q' = pairOf s q' := by
  have hwake : pairOf (wakeCapped s) q' = pairOf s q' := by rw [pairOf, wakeCapped_frame]; rfl
  unfold completeAfterWake completeAfter
  dsimp only
  split
  · rw [pairOf_postCompletion_other _ _ hq, hwake]
  · rw [updCmd, pairOf_updQueue_other _ hq, hwake]

theorem pairOf_addPair {p : QPair} (h : pairOf s p.id = none) : pairOf (addPair s p) p.id = some p := by
  have hnew : ∀ x ∈ s.queues.pairs, (x.id == p.id) = false := by simpa [pairOf] using h
  have hpairs : (addPair s p).queues.pairs = insertBy (fun a b => decide (a.id < b.id)) p s.queues.pairs := by
    unfold addPair
    dsimp only
    split <;> rfl
  rw [pairOf, hpairs]
  exact find_insertBy_same _ _ _ _ (by simp) hnew

theorem ctxAt_addPair (s : State) (p : QPair) : (ctxAt (addPair s p) p.ctx).isSome = true := by
  unfold addPair
  dsimp only
  split
  · assumption
  · simp [ctxAt]

theorem addPair_frame (s : State) (p : QPair) :
    addPair s p = { s with queues := (addPair s p).queues, bay := (addPair s p).bay } := by
  unfold addPair
  dsimp only
  split <;> rfl

/-- An I/O pair created by a command has a number below the admin queue's. -/
theorem newPair_id_ne (e : BitVec 512) : (newPair e).id ≠ adminQ := by
  have h : (newPair e).id < 4096 := Nat.mod_lt _ (by decide)
  simp only [adminQ]
  omega

/-- A pair whose deletion an admin command has begun. -/
def deletingPair (cid : Nat) (p : QPair) : QPair :=
  { p with deleting := some cid, afterDelete := 0, q := { p.q with sqTail := p.q.sqHead, marks := [] } }

theorem finishDelete_of_shared {qp : Nat} {p : QPair} (hp : pairOf s qp = some p) (hc : p.q.cmds = []) (hd : p.deleting = some cid)
    (hdef : ∀ d ∈ s.queues.deferred, d.q ≠ qp) (hshare : s.queues.pairs.any (fun x => x.id != qp && x.ctx == p.ctx) = true) :
    finishDelete s qp = postCompletion { s with
      queues := { s.queues with pairs := s.queues.pairs.filter (fun x => x.id != qp) } } adminQ cid stOk p.afterDelete := by
  have hnone : s.queues.deferred.any (fun d => d.q == qp) = false := by simpa using hdef
  simp only [finishDelete, hp, hc, hd, hnone, bne_self_eq_false, Bool.or_self, Bool.false_eq_true, if_false]
  set s1 : State := { s with queues := { s.queues with pairs := s.queues.pairs.filter (fun x => x.id != qp) } } with hs1
  have hctx : (postCompletion s1 adminQ cid stOk p.afterDelete).queues.pairs.any (fun x => x.ctx == p.ctx) = true := by
    have hcores : ((pairCores (postCompletion s1 adminQ cid stOk p.afterDelete)).any (fun x => x.ctx == p.ctx)) = true := by
      rw [pairCores_postCompletion]
      simpa [pairCores, hs1, pairCore, Function.comp_def] using hshare
    simpa [pairCores, pairCore, Function.comp_def] using hcores
  simp [endIfLast, hctx]

theorem postCompletion_frame (s : State) (q cid status result : Nat) :
    postCompletion s q cid status result = { s with
      queues := (postCompletion s q cid status result).queues, out := (postCompletion s q cid status result).out } := by
  unfold postCompletion
  split
  · rw [postRecord_frame]
  · rfl

/-- Settles O16: the new pair under its number with its context, the marks of a deletion, and the pair gone at its end. -/
theorem queuePairRows : Obligations.QueuePairRows := by
  refine ⟨fun s cid c h hlc hbay hrec hf hfree hfn hctx hshare hfloor => ?_, fun s cid c p h hp hd => ?_,
    fun s qp cid p hp hc hd hdef hshare => ?_⟩
  · have hrow : execQpCreate cid s =
        .next (completeAfterWake (startCmd (addPair s (newPair c.sqe)) adminQ c) adminQ c.cid stOk 0) := by
      unfold execQpCreate
      rw [withAdmin_of_adminTakes h]
      cases hx : ctxAt s (newPair c.sqe).ctx with
      | none => simp [hlc, hbay, hrec, hf, hfree, hfn, hx, not_le.2 hshare, hfloor]
      | some x =>
        obtain ⟨hxbay, hending⟩ := hctx x hx
        simp [hlc, hbay, hrec, hf, hfree, hfn, hx, hxbay, hending, not_le.2 hshare, hfloor]
    refine ⟨_, hrow, ?_, ?_, ?_⟩
    · rw [completeAfterWake, completeAfter_frame, startCmd_frame, addPair_frame]
    · rw [pairOf_completeAfterWake_other _ _ (newPair_id_ne _), startCmd, pairOf_updQueue_other _ (newPair_id_ne _)]
      exact pairOf_addPair hfree
    · rw [completeAfterWake, completeAfter_frame, startCmd_frame]
      exact ctxAt_addPair ..
  · have hq : field c.sqe 64 12 ≠ adminQ := newPair_id_ne c.sqe
    have hrow : execQpDelete cid s = .next (updPair (startCmd s adminQ c) (field c.sqe 64 12) (deletingPair c.cid)) := by
      unfold execQpDelete
      rw [withAdmin_of_adminTakes h]
      simp only [hp, hd, Option.isSome_none, Bool.false_eq_true, if_false]
      rfl
    refine ⟨_, hrow, ?_, ?_, fun q' hq' => ?_⟩
    · rw [startCmd_frame]
      rfl
    · rw [pairOf_updPair_same _ _ (deletingPair c.cid) (fun _ => rfl), startCmd, pairOf_updQueue_other _ hq, hp]
      rfl
    · rw [pairOf_updPair_other _ _ _ (deletingPair c.cid) (fun _ => rfl) hq', startCmd]
      by_cases hadmin : q' = adminQ
      · subst hadmin
        rfl
      · rw [pairOf_updQueue_other _ hadmin]
  · refine ⟨_, congrArg Host.Outcome.next (finishDelete_of_shared hp hc hd hdef hshare), ?_, ?_, rfl⟩
    · rw [postCompletion_frame]
    · have hgone : (pairCores (postCompletion { s with
          queues := { s.queues with pairs := s.queues.pairs.filter (fun x => x.id != qp) } } adminQ cid stOk p.afterDelete)).find?
            (fun p => p.id == qp) = none := by
        rw [pairCores_postCompletion]
        simp [pairCores, pairCore]
      rw [← map_pairOf] at hgone
      simpa using hgone

end Sys2Proof.Machine

/-! SUPPORT. The enables of CXL.mem and CXL.cache, decoders, snoops and back-invalidations (R244 to R248). -/

namespace Sys2Proof.Machine

open Sys2Proof

variable {s : State}

theorem execCxlCacheEnable_of_up {on : Bool} (hu : s.link.up = true) (hd : on = true → s.link.degraded = false) :
    execCxlCacheEnable on s =
      .next { s with link := { s.link with cacheOn := on, cache := if on then s.link.cache else [] } } := by
  cases on <;> simp_all [execCxlCacheEnable]

theorem execCxlMemEnable_of_up {on : Bool} (hu : s.link.up = true)
    (hd : on = true → s.link.degraded = false ∧ s.link.flit256 = true) :
    execCxlMemEnable on s =
      .next { s with link := { s.link with memOn := on, snoopFilter := if on then s.link.snoopFilter else [] } } := by
  cases on <;> simp_all [execCxlMemEnable]

/-- A back-invalidation takes its line out of the snoop filter, where it stands there. -/
theorem snoopFilter_backInvalidate (s : State) (l : Nat) :
    (backInvalidate s l).link.snoopFilter = s.link.snoopFilter.filter (fun x => x != l) := by
  unfold backInvalidate
  split
  · rfl
  next h =>
    have hl : l ∉ s.link.snoopFilter := by simpa using h
    exact (List.filter_eq_self.2 fun x hx => by simpa using ne_of_mem_of_not_mem hx hl).symm

theorem backInvalidate_frame (s : State) (l : Nat) :
    backInvalidate s l = { s with
      link := { s.link with snoopFilter := (backInvalidate s l).link.snoopFilter }, out := (backInvalidate s l).out } := by
  unfold backInvalidate
  split <;> rfl

theorem mem_snoopFilter_foldl {ls : List Nat} {l : Nat} (h : l ∈ (ls.foldl backInvalidate s).link.snoopFilter) :
    l ∈ s.link.snoopFilter ∧ l ∉ ls := by
  induction ls generalizing s with
  | nil => exact ⟨h, by simp⟩
  | cons a r ih =>
    obtain ⟨hs, hr⟩ := ih h
    rw [snoopFilter_backInvalidate, List.mem_filter] at hs
    exact ⟨hs.1, by simpa [hr] using hs.2⟩

theorem foldl_backInvalidate_frame (ls : List Nat) (s : State) :
    ls.foldl backInvalidate s = { s with
      link := { s.link with snoopFilter := (ls.foldl backInvalidate s).link.snoopFilter },
      out := (ls.foldl backInvalidate s).out } := by
  induction ls generalizing s with
  | nil => rfl
  | cons a r ih =>
    rw [List.foldl_cons, ih, backInvalidate_frame]

/-- No line of the range is left in the snoop filter. -/
theorem not_mem_snoopFilter_backInvalidateRange {a n l : Nat} (h : l ∈ (backInvalidateRange s a n).link.snoopFilter) :
    ¬(a ≤ l ∧ l < a + n) := by
  intro ⟨hlo, hhi⟩
  obtain ⟨hs, hr⟩ := mem_snoopFilter_foldl h
  have hstart : a / 64 * 64 ≤ l := by omega
  exact hr (List.mem_filter.2 ⟨hs, by simp [hstart, hhi]⟩)

theorem execHdmDecoderCommit_of_free {n base size skip : Nat} {d : HdmDecoder} (hd : lookupKey s.link.hdm n = some d) (hn : n < 4)
    (hu : s.link.up = true) (hf : s.link.flit256 = true) (hc : d.committed = false) (hb : base % 2 ^ 28 = 0)
    (hs : size % 2 ^ 28 = 0) (hk : skip % 2 ^ 28 = 0) (h0 : 0 < size) (hspan : skip + size ≤ s.sec.order.dpaSpan) :
    execHdmDecoderCommit n base size skip s = .next { s with
      link := { s.link with
        hdm := putKey s.link.hdm n { base := base, size := size, skip := skip, committed := true } } } := by
  have hsize : size ≠ 0 := by omega
  simp_all [execHdmDecoderCommit, hdmDecoders, not_le.2 hn, not_lt.2 hspan]

theorem execHdmDecoderCommit_of_committed {n base size skip : Nat} {d : HdmDecoder} (hd : lookupKey s.link.hdm n = some d)
    (hc : d.committed = true) (h0 : size ≠ 0) : execHdmDecoderCommit n base size skip s = .next s := by
  simp [execHdmDecoderCommit, hd, hc, h0]

theorem execHdmDecoderCommit_zero {n base skip : Nat} {d : HdmDecoder} (hd : lookupKey s.link.hdm n = some d)
    (hc : d.committed = true) (hu : s.link.up = true) :
    execHdmDecoderCommit n base 0 skip s = .next (backInvalidateRange
      { s with link := { s.link with hdm := putKey s.link.hdm n {} } } (d.skip + 2 ^ 30) d.size) := by
  simp [execHdmDecoderCommit, hd, hc, hu]

theorem execBisnpinv_of_tracked {l : Nat} (h : l / 64 * 64 ∈ s.link.snoopFilter) :
    execBisnpinv l s = .next (emit { s with
      link := { s.link with snoopFilter := s.link.snoopFilter.filter (fun x => x != l / 64 * 64) } } (.bisnp (l / 64 * 64))) := by
  simp [execBisnpinv, backInvalidate, h]

/-- Settles O19: an enable and a decoder by their rows; a range given up leaves none of its lines in the snoop filter. -/
theorem windowControlRows : Obligations.WindowControlRows := by
  refine ⟨fun s on hu hd => ?_, fun s on hu hd => ?_, fun s n base size skip d hd hn hu hf hc hb hs hk h0 hspan => ?_,
    fun s n base size skip d => execHdmDecoderCommit_of_committed, fun s n base skip d hd hc hu => ?_, fun s line => ?_,
    fun s line h => ?_⟩
  · exact ⟨_, execCxlCacheEnable_of_up hu hd, rfl, rfl, fun h => by simp [h]⟩
  · exact ⟨_, execCxlMemEnable_of_up hu hd, rfl, rfl, fun h => by simp [h]⟩
  · exact ⟨_, execHdmDecoderCommit_of_free hd hn hu hf hc hb hs hk h0 hspan, rfl, lookupKey_putKey_same ..,
      fun m hm => lookupKey_putKey_other _ _ _ _ hm⟩
  · have hframe := foldl_backInvalidate_frame (s.link.snoopFilter.filter (fun l =>
      (d.skip + 2 ^ 30) / 64 * 64 ≤ l && l < d.skip + 2 ^ 30 + d.size)) { s with link := { s.link with hdm := putKey s.link.hdm n {} } }
    refine ⟨_, execHdmDecoderCommit_zero hd hc hu, ?_, ?_, ?_, fun m hm => ?_, fun l hl => not_mem_snoopFilter_backInvalidateRange hl⟩
    · rw [backInvalidateRange, hframe]
    · rw [backInvalidateRange, hframe]
    · rw [backInvalidateRange, hframe]
      exact lookupKey_putKey_same ..
    · rw [backInvalidateRange, hframe]
      exact lookupKey_putKey_other _ _ _ _ hm
  · exact ⟨_, rfl, rfl, by simp, fun x hx hne => by simp [hx, hne]⟩
  · exact ⟨_, execBisnpinv_of_tracked h, rfl, rfl, by simp [emit]⟩

end Sys2Proof.Machine

/-! SUPPORT. The dictionary: objects, change counters and the writes of a master (R321 to R329). -/

namespace Sys2Proof.Machine

open Sys2Proof

variable {s u : State} {m : Master} {i j v : Nat}

theorem find_putEntry_same (l : List DictEntry) (e : DictEntry) :
    (putEntry l e).find? (fun x => x.index == e.index && x.sub == e.sub) = some e := by
  induction l with
  | nil => simp [putEntry]
  | cons x r ih =>
    unfold putEntry
    split
    · simp
    · split
      · simp
      · rename_i hne
        rw [List.find?_cons_of_neg (by simpa [Eq.comm (a := x.index), Eq.comm (a := x.sub)] using hne), ih]

theorem find_putEntry_other {i' j' : Nat} (e : DictEntry) (h : i' ≠ e.index ∨ j' ≠ e.sub) (l : List DictEntry) :
    (putEntry l e).find? (fun x => x.index == i' && x.sub == j') = l.find? (fun x => x.index == i' && x.sub == j') := by
  have he : (e.index == i' && e.sub == j') = false := by
    rcases h with h | h <;> simp [Ne.symm h]
  induction l with
  | nil => simp [putEntry, he]
  | cons x r ih =>
    unfold putEntry
    split
    · simp [List.find?_cons_of_neg, he]
    · split
      · rename_i hx
        simp only [Bool.and_eq_true, beq_iff_eq] at hx
        have hx' : (x.index == i' && x.sub == j') = false := by rw [← hx.1, ← hx.2]; exact he
        simp [List.find?_cons_of_neg, he, hx']
      · simp only [List.find?_cons, ih]

theorem dictEntry_key {e : DictEntry} (h : dictEntry s i j = some e) : e.index = i ∧ e.sub = j := by
  simpa using List.find?_some h

/-- Two states whose dictionaries hold the same entries answer an object alike. -/
theorem dictEntry_congr (h : u.dict.entries = s.dict.entries) (i j : Nat) : dictEntry u i j = dictEntry s i j := by
  unfold dictEntry; rw [h]

theorem dictValue_congr (h : u.dict.entries = s.dict.entries) (i j d : Nat) : dictValue u i j d = dictValue s i j d := by
  unfold dictValue; rw [dictEntry_congr h]

theorem dictCounter_congr (h : u.dict.entries = s.dict.entries) (i j : Nat) : dictCounter u i j = dictCounter s i j := by
  unfold dictCounter; rw [dictEntry_congr h]

/-- The entry of an object, or an empty one under its indices. -/
def entryOr (s : State) (i j : Nat) : DictEntry := (dictEntry s i j).getD { index := i, sub := j }

theorem entryOr_key (s : State) (i j : Nat) : (entryOr s i j).index = i ∧ (entryOr s i j).sub = j := by
  unfold entryOr
  cases h : dictEntry s i j with
  | none => exact ⟨rfl, rfl⟩
  | some e => exact dictEntry_key h

theorem dictCounter_eq_entryOr (s : State) (i j : Nat) : dictCounter s i j = (entryOr s i j).counter := by
  unfold dictCounter entryOr
  cases dictEntry s i j <;> rfl

theorem keepObject_frame (s : State) (i j : Nat) :
    keepObject s i j = { s with dict := { s.dict with kept := (keepObject s i j).dict.kept } } := by
  unfold keepObject
  (repeat' split) <;> rfl

theorem applyObject_entries (s : State) (i j v : Nat) : (applyObject s i j v).dict.entries =
    putEntry s.dict.entries { entryOr s i j with value := some v, counter := (entryOr s i j).counter + 1 } := by
  unfold applyObject
  rw [keepObject_frame]
  rfl

/-- A new value changes the entries and the kept values of the dictionary and nothing else. -/
theorem applyObject_dict (s : State) (i j v : Nat) : (applyObject s i j v).dict =
    { s.dict with entries := (applyObject s i j v).dict.entries, kept := (applyObject s i j v).dict.kept } := by
  unfold applyObject
  rw [keepObject_frame]
  rfl

theorem dictEntry_applyObject_same (s : State) (i j v : Nat) : dictEntry (applyObject s i j v) i j =
    some { entryOr s i j with value := some v, counter := (entryOr s i j).counter + 1 } := by
  obtain ⟨hi, hj⟩ := entryOr_key s i j
  have h := find_putEntry_same s.dict.entries
    { entryOr s i j with value := some v, counter := (entryOr s i j).counter + 1 }
  rw [← applyObject_entries] at h
  simpa only [dictEntry, hi, hj] using h

theorem dictEntry_applyObject_other {i' j' : Nat} (v : Nat) (h : i' ≠ i ∨ j' ≠ j) :
    dictEntry (applyObject s i j v) i' j' = dictEntry s i' j' := by
  obtain ⟨hi, hj⟩ := entryOr_key s i j
  unfold dictEntry
  rw [applyObject_entries, find_putEntry_other _ (by simpa only [hi, hj] using h)]

@[simp] theorem applyObject_stage (s : State) (i j v : Nat) : (applyObject s i j v).dict.stage = s.dict.stage := by
  rw [applyObject_dict]

@[simp] theorem dictValue_applyObject_same (s : State) (i j v d : Nat) : dictValue (applyObject s i j v) i j d = v := by
  unfold dictValue
  rw [dictEntry_applyObject_same]
  rfl

theorem dictCounter_applyObject_same (s : State) (i j v : Nat) :
    dictCounter (applyObject s i j v) i j = dictCounter s i j + 1 := by
  rw [dictCounter_eq_entryOr s]
  unfold dictCounter
  rw [dictEntry_applyObject_same]

theorem dictValue_applyObject_other {i' j' : Nat} (v d : Nat) (h : i' ≠ i ∨ j' ≠ j) :
    dictValue (applyObject s i j v) i' j' d = dictValue s i' j' d := by
  unfold dictValue
  rw [dictEntry_applyObject_other v h]

theorem dictCounter_applyObject_other {i' j' : Nat} (v : Nat) (h : i' ≠ i ∨ j' ≠ j) :
    dictCounter (applyObject s i j v) i' j' = dictCounter s i' j' := by
  unfold dictCounter
  rw [dictEntry_applyObject_other v h]

end Sys2Proof.Machine

namespace Sys2Proof

/-- Settles O24: `putEntry` puts the entry with the next counter in the object's place, and another object's entry is found as before. -/
theorem changeCounterGrowsByOne : Obligations.ChangeCounterGrowsByOne := by
  intro s i j v
  exact ⟨Machine.applyObject_frame s i j v, Machine.dictCounter_applyObject_same s i j v,
    Machine.dictValue_applyObject_same s i j v, fun i' j' h =>
      ⟨Machine.dictCounter_applyObject_other v h, fun d => Machine.dictValue_applyObject_other v d h⟩⟩

end Sys2Proof

/-! SUPPORT. The rows that write the dictionary: what the master's write starts with, and what is noted of it (R325, R329). -/

namespace Sys2Proof.Machine

open Sys2Proof

variable {s u : State} {m : Master} {i j v : Nat}

theorem rouseMgmt_frame (s : State) (source : Nat) : rouseMgmt s source = { s with power := (rouseMgmt s source).power } := by
  unfold rouseMgmt
  split
  · exact startWake_frame s 0 source
  · rfl

theorem writeStart_frame (s : State) (m : Master) : writeStart s m = { s with power := (writeStart s m).power } :=
  rouseMgmt_frame s _

@[simp] theorem writeStart_dict (s : State) (m : Master) : (writeStart s m).dict = s.dict := by rw [writeStart_frame]
@[simp] theorem writeStart_out (s : State) (m : Master) : (writeStart s m).out = s.out := by rw [writeStart_frame]
@[simp] theorem writeStart_time (s : State) (m : Master) : (writeStart s m).time = s.time := by rw [writeStart_frame]
@[simp] theorem now_writeStart (s : State) (m : Master) : now (writeStart s m) = now s := by rw [writeStart_frame]; rfl
@[simp] theorem raiseActive_writeStart (s : State) (m : Master) : raiseActive (writeStart s m) = raiseActive s := by
  rw [writeStart_frame]; rfl

/-- An object whose value a later write of the same tick does not restore (R325). -/
def noRestore (i j : Nat) : Prop := i = 0x8000 ∨ ∀ o, objAt i j = some o → o.right ≠ .rw

/-- What is noted of a write that took effect: the host's last tick and what it wrote there. -/
def noted (u : State) (t : Option Nat) (w : List (Nat × Nat × Nat)) : State :=
  { u with dict := { u.dict with hostTick := t, hostWrote := w } }

theorem noteWrite_of_noRestore (m : Master) (u : State) (h : noRestore i j) :
    ∃ t w, noteWrite m i j (u, stOk) = (noted u t w, stOk) := by
  unfold noteWrite
  simp only [bne_self_eq_false, Bool.false_eq_true, if_false]
  split
  · exact ⟨_, _, rfl⟩
  · split
    · rename_i o _ ho
      rw [if_neg]
      · exact ⟨u.dict.hostTick, u.dict.hostWrote, rfl⟩
      · rcases h with h | h
        · simp [h]
        · simp [h o ho]
    · exact ⟨u.dict.hostTick, u.dict.hostWrote, rfl⟩

/-- A served write that takes effect: its state with the note of the write and the answer. -/
theorem rowWrite_of_effect {act : State → State × Nat} (hm : masterReaches s m = true) (hd : dictServes s = true)
    (hr : noRestore i j) (ha : act (writeStart s m) = (u, stOk)) :
    ∃ t w, rowWrite s m i j act =
      { noted u t w with out := u.out ++ [.dictAnswer m i j stOk (dictCounter u i j)] } := by
  obtain ⟨t, w, hn⟩ := noteWrite_of_noRestore m u hr
  refine ⟨t, w, ?_⟩
  unfold rowWrite
  rw [if_pos hm]
  dsimp only
  rw [if_pos hd, ha, hn]
  rfl

/-- The shape that the rows of the staging area share: a write that changes the dictionary alone, to `u`. -/
theorem rowWrite_dict {act : State → State × Nat} (hm : masterReaches s m = true) (hd : dictServes s = true)
    (hr : noRestore i j) (ha : act (writeStart s m) = (u, stOk)) (hu : u = { writeStart s m with dict := u.dict }) :
    rowWrite s m i j act = { writeStart s m with dict := (rowWrite s m i j act).dict, out := (rowWrite s m i j act).out } ∧
      (rowWrite s m i j act).dict = { u.dict with
        hostTick := (rowWrite s m i j act).dict.hostTick, hostWrote := (rowWrite s m i j act).dict.hostWrote } ∧
      answered s (rowWrite s m i j act) m i j stOk := by
  obtain ⟨t, w, h⟩ := rowWrite_of_effect hm hd hr ha
  rw [h]
  refine ⟨?_, rfl, ?_⟩
  · rw [hu]; rfl
  · have ho : u.out = s.out := by rw [hu]; exact writeStart_out s m
    unfold answered
    rw [← ho]
    rfl

end Sys2Proof.Machine

/-! SUPPORT. The staging lock, the frame, the fit and the raise (R329 to R334). -/

namespace Sys2Proof.Machine

open Sys2Proof

variable {s u : State} {m : Master} {i j v : Nat}

theorem noRestore_stageLock : noRestore 0x8000 0 := .inl rfl

theorem noRestore_of_right {r : Obj} (ho : objAt i j = some r) (hr : r.right ≠ .rw) : noRestore i j :=
  .inr fun o h => by rwa [Option.some.inj (h.symm.trans ho)]

theorem noRestore_discard : noRestore 0x8002 0 := noRestore_of_right (r := ⟨1, .wo, false⟩) (by decide) (by decide)
theorem noRestore_dryFit : noRestore 0x8020 0 := noRestore_of_right (r := ⟨1, .wo, false⟩) (by decide) (by decide)
theorem noRestore_raiseCmd : noRestore 0x8030 0 := noRestore_of_right (r := ⟨16, .wo, false⟩) (by decide) (by decide)

theorem touchLock_of_holder (h : u.dict.stage.lock = some m) :
    touchLock u m = updStage u (fun g => { g with lastWrite := now u }) := by simp [touchLock, h]

@[simp] theorem updStage_stage (u : State) (f : StageState → StageState) : (updStage u f).dict.stage = f u.dict.stage := rfl

/-- An update of the staging state after an object's new value changes the dictionary alone. -/
theorem updStage_applyObject_frame (u : State) (f : StageState → StageState) (i j v : Nat) :
    updStage (applyObject u i j v) f = { u with dict := (updStage (applyObject u i j v) f).dict } := by
  unfold updStage
  rw [applyObject_frame]

theorem takeLock_of_free (h : u.dict.stage.lock = none) : takeLock u m =
    (updStage (applyObject u 0x8000 0 1) (fun g => { g with lock := some m, lastWrite := now u }), stOk) := by
  simp [takeLock, h]

theorem releaseLock_of_holder (h : u.dict.stage.lock = some m) (hr : raiseActive u = false) : releaseLock u m =
    (updStage (applyObject u 0x8000 0 0) (fun g => { g with lock := none, frame := [] }), stOk) := by
  simp [releaseLock, h, hr]

theorem discardFrame_of_holder (h : u.dict.stage.lock = some m) (hr : raiseActive u = false) : discardFrame u m 1 =
    (updStage (applyObject (updStage u (fun g => { g with lastWrite := now u })) 0x8002 0 1)
      (fun g => { g with frame := [] }), stOk) := by
  simp [discardFrame, h, hr, touchLock_of_holder h]

theorem startFit_of_holder (h : u.dict.stage.lock = some m) (hr : raiseActive u = false) (hf : u.dict.stage.fit ≠ .running) :
    startFit u m 1 =
      (updStage (applyObject (updStage u (fun g => { g with lastWrite := now u })) 0x8020 0 1)
        (fun g => { g with fit := .running }), stOk) := by
  simp [startFit, h, hr, hf, touchLock_of_holder h]

theorem stageObject_of_holder {value : Bytes} (h : u.dict.stage.lock = some m) (hr : raiseActive u = false)
    (hl : (putStaged u.dict.stage.frame (i, j, value.length, leNat value)).length ≤ 64)
    (hb : frameBytes (putStaged u.dict.stage.frame (i, j, value.length, leNat value)) ≤ 8192) :
    stageObject u m i j value =
      (updStage (updStage u (fun g => { g with lastWrite := now u }))
        (fun g => staleFit { g with frame := putStaged u.dict.stage.frame (i, j, value.length, leNat value) }), stOk) := by
  simp [stageObject, h, hr, touchLock_of_holder h, Nat.not_lt.mpr hl, Nat.not_lt.mpr hb]

theorem staleFit_frame (g : StageState) : (staleFit g).frame = g.frame := by unfold staleFit; split <;> rfl
theorem staleFit_lock (g : StageState) : (staleFit g).lock = g.lock := by unfold staleFit; split <;> rfl

theorem staleFit_fit_ne_passed (g : StageState) : (staleFit g).fit ≠ .passed := by
  unfold staleFit
  split
  · exact nofun
  · rename_i h
    intro hp
    simp [hp] at h

theorem objAt_fwRx_not_rws : ∀ i, 0x7020 ≤ i → i ≤ 0x7022 → ∀ r ∈ objRows, r.1 = i → r.2.2.right ≠ .rws := by
  intro i hlo hhi
  have h : i = 0x7020 ∨ i = 0x7021 ∨ i = 0x7022 := by omega
  rcases h with rfl | rfl | rfl <;> decide +kernel

theorem objAt_fwRx {o : Obj} (ho : objAt i j = some o) (hlo : 0x7020 ≤ i) (hhi : i ≤ 0x7022) : o.right ≠ .rws := by
  have hn : recordCount i = none := by
    have h : i = 0x7020 ∨ i = 0x7021 ∨ i = 0x7022 := by omega
    rcases h with rfl | rfl | rfl <;> decide +kernel
  unfold objAt at ho
  rw [hn] at ho
  dsimp only at ho
  cases hf : objRows.find? (fun r => r.1 == i && r.2.1 == j) with
  | none => simp [hf] at ho
  | some r =>
    simp only [hf, Option.map_some, Option.some.injEq] at ho
    have hk := List.find?_some hf
    simp only [Bool.and_eq_true, beq_iff_eq] at hk
    rw [← ho]
    exact objAt_fwRx_not_rws i hlo hhi r (List.mem_of_find?_eq_some hf) hk.1

/-- A write of a staged object by the lock's holder is judged by the frame alone. -/
theorem writeObject_of_rws {value : Bytes} {o : Obj} (ho : objAt i j = some o) (hr : o.right = .rws)
    (h : u.dict.stage.lock = some m) (hv : m = .host → value.length = o.size) :
    writeObject u m i j value = stageObject u m i j value := by
  have hfw : ¬(0x7020 ≤ i ∧ i ≤ 0x7022) := fun hi => objAt_fwRx ho hi.1 hi.2 hr
  have hforbid : writeForbidden u o i = false := by
    rw [Decidable.not_and_iff_or_not] at hfw
    rcases hfw with hlo | hhi
    · simp [writeForbidden, hr, hlo]
    · simp [writeForbidden, hr, hhi]
  have hsize : (m == .host && value.length != o.size) = false := by
    cases m <;> simp_all
  simp [writeObject, ho, hforbid, lockMissing, hr, h, hsize]

theorem execDryFitComplete_of_running (h : s.dict.stage.fit = .running) : execDryFitComplete s = .next (writeFit s) := by
  simp [execDryFitComplete, h]

theorem writeFit_of_fit (h : fitFailures s = []) : writeFit s = updStage s (fun g => { g with fit := .passed }) := by
  simp [writeFit, h]

theorem writeFit_of_failures {r o : Nat} {l : List (Nat × Nat)} (h : fitFailures s = (r, o) :: l) : writeFit s =
    updStage (bumpFree s) (fun g => { g with fit := .failed, fitRule := r, fitObject := o, fitFails := l.length + 1 }) := by
  simp [writeFit, h]

theorem writeFit_frame (s : State) :
    writeFit s = { s with dict := { s.dict with stage := (writeFit s).dict.stage }, free := (writeFit s).free } := by
  cases h : fitFailures s with
  | nil => rw [writeFit_of_fit h]; rfl
  | cons x l => rw [writeFit_of_failures (r := x.1) (o := x.2) h]; rfl

theorem writeFit_stage (s : State) : (writeFit s).dict.stage.lock = s.dict.stage.lock ∧
    (writeFit s).dict.stage.frame = s.dict.stage.frame := by
  cases h : fitFailures s with
  | nil => rw [writeFit_of_fit h]; exact ⟨rfl, rfl⟩
  | cons x l => rw [writeFit_of_failures (r := x.1) (o := x.2) h]; exact ⟨rfl, rfl⟩

@[simp] theorem raiseEvent_dict (u : State) (code : Nat) (data : Word64) : (raiseEvent u code data).dict = u.dict := by
  rw [raiseEvent_frame]
@[simp] theorem raiseEvent_time (u : State) (code : Nat) (data : Word64) : (raiseEvent u code data).time = u.time := by
  rw [raiseEvent_frame]

theorem execLockLapse_of_held (h : s.dict.stage.lock = some m) (hr : raiseActive s = false) : execLockLapse s =
    .next (raiseEvent (updStage (advanceTo s (s.dict.stage.lastWrite + lockIdle s)) (fun g => { g with lock := none, frame := [] }))
      0x0003 (BitVec.ofNat 64 (now (advanceTo s (s.dict.stage.lastWrite + lockIdle s))))) := by
  simp [execLockLapse, h, hr]

/-- The shape of an event of the dictionary after a change of its staging state at a later tick. -/
theorem stageEvent_frame (s : State) (t : Nat) (f : StageState → StageState) (code : Nat) (data : Word64) :
    raiseEvent (updStage (advanceTo s t) f) code data =
      { s with
        free := (raiseEvent (updStage (advanceTo s t) f) code data).free,
        out := (raiseEvent (updStage (advanceTo s t) f) code data).out,
        time := (raiseEvent (updStage (advanceTo s t) f) code data).time,
        pins := (raiseEvent (updStage (advanceTo s t) f) code data).pins,
        health := (raiseEvent (updStage (advanceTo s t) f) code data).health,
        dict := (raiseEvent (updStage (advanceTo s t) f) code data).dict,
        sb := (raiseEvent (updStage (advanceTo s t) f) code data).sb } := by
  rw [raiseEvent_frame]
  rfl

/-- Settles O20: each write of the holder changes the dictionary as `rowWrite_dict` says; the fit and the lapse by their branches. -/
theorem stagingRows : Obligations.StagingRows := by
  refine ⟨fun s m hm hd hl => ?_, fun s m hm hd hl hr => ?_, fun s m i j v o hm hd hl hr ho hrws hv hlen hbytes => ?_,
    fun s m hm hd hl hr => ?_, fun s m hm hd hl hr hf => ?_, fun s hf => ?_, fun s m hl hr => ?_⟩
  · obtain ⟨hframe, hdict, hans⟩ := rowWrite_dict (act := fun s => takeLock s m) (j := 0) hm hd noRestore_stageLock
      (takeLock_of_free (u := writeStart s m) (by simpa using hl)) (updStage_applyObject_frame _ _ _ _ _)
    exact ⟨_, rfl, hframe, by rw [hdict]; simp [now], hans⟩
  · obtain ⟨hframe, hdict, hans⟩ := rowWrite_dict (act := fun s => releaseLock s m) (j := 0) hm hd noRestore_stageLock
      (releaseLock_of_holder (u := writeStart s m) (by simpa using hl) (by simpa using hr)) (updStage_applyObject_frame _ _ _ _ _)
    exact ⟨_, rfl, hframe, by rw [hdict]; simp, hans⟩
  · have hw : writeObject (writeStart s m) m i j v = _ :=
      (writeObject_of_rws ho hrws (by simpa using hl) hv).trans (stageObject_of_holder (by simpa using hl) (by simpa using hr)
        (by simpa using hlen) (by simpa using hbytes))
    obtain ⟨hframe, hdict, hans⟩ := rowWrite_dict (act := fun s => writeObject s m i j v) hm hd
      (noRestore_of_right ho (by rw [hrws]; decide)) hw rfl
    have hstage := congrArg DictState.stage hdict
    have hpart : (rowWrite s m i j (fun s => writeObject s m i j v)).dict = { s.dict with
        stage := (rowWrite s m i j (fun s => writeObject s m i j v)).dict.stage,
        hostTick := (rowWrite s m i j (fun s => writeObject s m i j v)).dict.hostTick,
        hostWrote := (rowWrite s m i j (fun s => writeObject s m i j v)).dict.hostWrote } := by
      refine hdict.trans ?_
      rw [hstage]
      simp [updStage]
    refine ⟨_, rfl, ?_, ?_, ?_, ?_, hans⟩
    · exact hframe.trans (congrArg (fun d => { writeStart s m with
        dict := d, out := (rowWrite s m i j (fun s => writeObject s m i j v)).out }) hpart)
    · rw [hdict]; simp [staleFit_frame]
    · rw [hdict]; simp [staleFit_lock, hl]
    · rw [hdict]; exact staleFit_fit_ne_passed _
  · obtain ⟨hframe, hdict, hans⟩ := rowWrite_dict (act := fun s => discardFrame s m 1) (j := 0) hm hd noRestore_discard
      (discardFrame_of_holder (u := writeStart s m) (by simpa using hl) (by simpa using hr)) (updStage_applyObject_frame _ _ _ _ _)
    exact ⟨_, rfl, hframe, by rw [hdict]; simp [now], hans⟩
  · obtain ⟨hframe, hdict, hans⟩ := rowWrite_dict (act := fun s => startFit s m 1) (j := 0) hm hd noRestore_dryFit
      (startFit_of_holder (u := writeStart s m) (by simpa using hl) (by simpa using hr) (by simpa using hf)) (updStage_applyObject_frame _ _ _ _ _)
    exact ⟨_, rfl, hframe, by rw [hdict]; simp [now], hans⟩
  · refine ⟨_, execDryFitComplete_of_running hf, writeFit_frame s, ?_, (writeFit_stage s).2, fun r o l h => ?_⟩
    · cases h : fitFailures s with
      | nil => rw [writeFit_of_fit h]; rfl
      | cons x l => rw [writeFit_of_failures (r := x.1) (o := x.2) h]; rfl
    · rw [writeFit_of_failures h]
      exact ⟨rfl, rfl, rfl⟩
  · refine ⟨_, execLockLapse_of_held hl hr, stageEvent_frame .., ?_⟩
    simp [advanceTo, updStage]

end Sys2Proof.Machine

/-! SUPPORT. The raise of a frame: its request, refit, effect and expiry (R332 to R334). -/

namespace Sys2Proof.Machine

open Sys2Proof

variable {s u : State} {m : Master}

theorem requestRaise_of_holder {mode : RaiseMode} (v : Nat) (h : u.dict.stage.lock = some m)
    (hr : raiseRefused u mode = none) :
    requestRaise u m mode v =
      (updStage (applyObject (updStage u (fun g => { g with lastWrite := now u })) 0x8030 0 v) (fun g => { g with
        raise := .pending, mode := some mode, requested := now u, refitOk := false }), stOk) := by
  simp [requestRaise, h, touchLock_of_holder h, hr]

theorem raiseRefused_immediate (hr : raiseActive u = false) (hf : u.dict.stage.fit = .passed) :
    raiseRefused u .immediate = none := by simp [raiseRefused, hr, hf]

theorem raiseRefused_atTime {t : Nat} (hr : raiseActive u = false) (hf : u.dict.stage.fit = .passed)
    (hlo : now u + 2000000 ≤ t) (hhi : t ≤ now u + 86400000000000) : raiseRefused u (.atTime t) = none := by
  have hrange : ¬(t < now u + 2000000 ∨ now u + 86400000000000 < t) := by omega
  simp [raiseRefused, hr, hf, hrange]

theorem raiseRefused_atIdle {l : Nat} (hr : raiseActive u = false) (hf : u.dict.stage.fit = .passed)
    (hlo : 1000000 ≤ l) (hhi : l ≤ 60000000000) : raiseRefused u (.atIdle l) = none := by
  have hrange : ¬(l < 1000000 ∨ 60000000000 < l) := by omega
  simp [raiseRefused, hr, hf, hrange]

/-- A request of a raise that its mode does not refuse: the frame is pending and the write is the holder's last. -/
theorem rowWrite_requestRaise {mode : RaiseMode} {v : Nat} (hm : masterReaches s m = true) (hd : dictServes s = true)
    (hl : s.dict.stage.lock = some m)
    (hr : raiseRefused (writeStart s m) mode = none) :
    let t := rowWrite s m 0x8030 0 (fun s => requestRaise s m mode v)
    t = { writeStart s m with dict := t.dict, out := t.out } ∧
      t.dict.stage = { s.dict.stage with
        raise := .pending, mode := some mode, requested := (writeStart s m).time.dtb, refitOk := false,
          lastWrite := (writeStart s m).time.dtb } ∧
      answered s t m 0x8030 0 stOk := by
  obtain ⟨hframe, hdict, hans⟩ := rowWrite_dict (act := fun s => requestRaise s m mode v) (j := 0) hm hd noRestore_raiseCmd
    (requestRaise_of_holder (u := writeStart s m) v (by simpa using hl) hr) (updStage_applyObject_frame _ _ _ _ _)
  exact ⟨hframe, by rw [hdict]; simp [now], hans⟩

theorem cancelRaise_of_pending (h : u.dict.stage.lock = some m) (hp : u.dict.stage.raise = .pending) : cancelRaise u m =
    (updStage (applyObject (updStage u (fun g => { g with lastWrite := now u })) 0x8030 0 3)
      (fun g => { g with raise := .cancelled, mode := none }), stOk) := by
  simp [cancelRaise, h, touchLock_of_holder h, hp]

/-- The state in which the refit of a raise judges the frame: at its tick less the refit's time, or as it stands. -/
def refitAt (s : State) : State :=
  match s.dict.stage.mode with
  | some (.atTime t) => advanceTo s (t - 1000000)
  | _ => s

theorem refitAt_of_not_atTime (h : ∀ r, s.dict.stage.mode ≠ some (.atTime r)) : refitAt s = s := by
  unfold refitAt
  split
  · rename_i t ht
    exact absurd ht (h t)
  · rfl

theorem refitAt_frame (s : State) : refitAt s = { s with time := (refitAt s).time } := by
  unfold refitAt
  split <;> rfl

@[simp] theorem refitAt_dict (s : State) : (refitAt s).dict = s.dict := by rw [refitAt_frame]

theorem le_refitAt (s : State) : s.time.dtb ≤ (refitAt s).time.dtb := by
  unfold refitAt
  split
  · exact Nat.le_max_left ..
  · exact Nat.le_refl _

theorem execRaiseRefit_of_pending (hp : s.dict.stage.raise = .pending) (hf : s.health.fatal = .none) : execRaiseRefit s = .next
    (if fitFailures (refitAt s) = [] then updStage (refitAt s) (fun g => { g with raise := .refit, refitOk := true })
     else raiseEvent (updStage (writeFit (refitAt s)) (fun g => { g with
       raise := .refitFailed, mode := none, lastWrite := now (refitAt s) })) 0x0002 4) := by
  have hp' : (s.dict.stage.raise != .pending || s.health.fatal != .none) = false := by simp [hp, hf]
  unfold execRaiseRefit
  rw [if_neg (by simp [hp'])]
  simp only [beq_iff_eq]
  rfl

theorem foldl_dict {α : Type} (f : State → α → State) (hf : ∀ s a, (f s a).dict = s.dict) (l : List α) (s : State) :
    (l.foldl f s).dict = s.dict := by
  induction l generalizing s with
  | nil => rfl
  | cons a l ih => rw [List.foldl_cons, ih, hf]

@[simp] theorem logError_dict (s : State) (cls unit detail : Nat) (ctx : Option (Nat × Nat)) :
    (logError s cls unit detail ctx).dict = s.dict := by rw [logError_frame]

@[simp] theorem refreshLevel_dict (s : State) (g : Nat) : (refreshLevel s g).dict = s.dict := by
  unfold refreshLevel
  dsimp only
  split
  · rfl
  · split
    · rw [foldl_dict]
      intro s k
      split <;> simp
    · split
      · simp
      · rfl

@[simp] theorem refreshLevels_dict (s : State) : (refreshLevels s).dict = s.dict := foldl_dict _ refreshLevel_dict _ s

theorem raiseNow_stage (s : State) : ∃ g : StageState, (raiseNow s).dict.stage = { g with
    frame := [], lock := none, raise := .done, mode := none, refitOk := false, raiseTick := now s,
    raiseObjects := s.dict.stage.frame.length } := by
  simp only [raiseNow, raiseEvent_dict, refreshLevels_dict, updStage_stage]
  exact ⟨_, rfl⟩

theorem execDictRaise_immediate (hr : s.dict.stage.raise = .refit) (ho : s.dict.stage.refitOk = true)
    (hf : s.health.fatal = .none) (hm : s.dict.stage.mode = some .immediate) : execDictRaise s = .next (raiseNow s) := by
  simp [execDictRaise, hr, ho, hf, hm]

theorem execRaiseExpiry_of_refit {l : Nat} (hr : s.dict.stage.raise = .refit) (hf : s.health.fatal = .none)
    (hm : s.dict.stage.mode = some (.atIdle l)) : execRaiseExpiry s = .next
    (raiseEvent (updStage (advanceTo s (s.dict.stage.requested + l)) (fun g => { g with
      raise := .expired, mode := none, refitOk := false, lastWrite := now (advanceTo s (s.dict.stage.requested + l)) })) 0x0002 5) := by
  simp [execRaiseExpiry, hr, hf, hm]

/-- The refit of a pending raise: its tick, its verdict and what it leaves of the staging state. -/
theorem raiseRefit_row (hp : s.dict.stage.raise = .pending) (hf : s.health.fatal = .none) :
    ∃ t, execRaiseRefit s = .next t ∧
      t = { s with
        free := t.free, out := t.out, time := t.time, pins := t.pins, health := t.health, dict := t.dict, sb := t.sb } ∧
      t.dict.stage.lock = s.dict.stage.lock ∧ t.dict.stage.frame = s.dict.stage.frame ∧ s.time.dtb ≤ t.time.dtb ∧
      (t.dict.stage.raise = .refit ∧ t.dict.stage.refitOk = true ∨ t.dict.stage.raise = .refitFailed ∧ t.dict.stage.mode = none) ∧
      (t.dict.stage.raise = .refit ↔ fitFailures (refitAt s) = []) := by
  refine ⟨_, execRaiseRefit_of_pending hp hf, ?_⟩
  by_cases h : fitFailures (refitAt s) = []
  · rw [if_pos h]
    refine ⟨?_, by simp, by simp, le_refitAt s, .inl ⟨rfl, rfl⟩, by simp [h]⟩
    rw [refitAt_frame]; rfl
  · obtain ⟨hlock, hframe⟩ := writeFit_stage (refitAt s)
    rw [if_neg h]
    refine ⟨?_, by simp [hlock], by simp [hframe], ?_, .inr ⟨by simp, by simp⟩, by simp [h]⟩
    · rw [raiseEvent_frame, writeFit_frame, refitAt_frame]; rfl
    · rw [raiseEvent_time, writeFit_frame]
      exact le_refitAt s

/-- Settles O22: a request by its mode's refusals, the refit by its verdict, the effect by the staging state that it leaves. -/
theorem raiseRows : Obligations.RaiseRows := by
  refine ⟨fun s m hm hd hl hr hf => ?_, fun s m r hm hd hl hr hf hlo hhi => ?_, fun s m l hm hd hl hr hf hlo hhi => ?_,
    fun s m hm hd hl hp => ?_, fun s hp hf => ?_, fun s hr ho hf hmode => ?_, fun s l hr hf hmode => ?_⟩
  · exact ⟨_, rfl, rowWrite_requestRaise hm hd hl (raiseRefused_immediate (by simpa using hr) (by simpa using hf))⟩
  · exact ⟨_, rfl, rowWrite_requestRaise hm hd hl (raiseRefused_atTime (by simpa using hr) (by simpa using hf) hlo hhi)⟩
  · exact ⟨_, rfl, rowWrite_requestRaise hm hd hl (raiseRefused_atIdle (by simpa using hr) (by simpa using hf) hlo hhi)⟩
  · obtain ⟨hframe, hdict, hans⟩ := rowWrite_dict (act := fun s => cancelRaise s m) (j := 0) hm hd noRestore_raiseCmd
      (cancelRaise_of_pending (u := writeStart s m) (by simpa using hl) (by simpa using hp)) (updStage_applyObject_frame _ _ _ _ _)
    exact ⟨_, rfl, hframe, by rw [hdict]; simp [now], hans⟩
  · obtain ⟨t, hexec, hframe, hlock, hfr, htime, hends, hiff⟩ := raiseRefit_row hp hf
    exact ⟨t, hexec, hframe, hlock, hfr, htime, hends, fun h => by rw [hiff, refitAt_of_not_atTime h]⟩
  · obtain ⟨g, hg⟩ := raiseNow_stage s
    exact ⟨_, execDictRaise_immediate hr ho hf hmode, rfl, by rw [hg], by rw [hg], by rw [hg], by rw [hg]; rfl, by rw [hg]⟩
  · refine ⟨_, execRaiseExpiry_of_refit hr hf hmode, stageEvent_frame .., ?_⟩
    simp [advanceTo, updStage]

end Sys2Proof.Machine

/-! SUPPORT. DICT_READ and DICT_WRITE as MGMT's domain is on, in retention or off (R323, R348), and a write that the host's write of the
same tick undoes (R325). -/

namespace Sys2Proof.Machine

open Sys2Proof

variable {s : State} {cid opcode source : Nat} {c : Cmd}

theorem startWake_mgmt (s : State) (source : Nat) : startWake s 0 source = wakeOne s 0 source := by
  have hdep : dependsOn 0 = [] := by decide
  simp [startWake, hdep]

theorem num_domainAt (s : State) (n : Nat) : (domainAt s n).num = n := by
  unfold domainAt
  cases h : s.power.domains.find? (fun d => d.num == n) with
  | none => rfl
  | some d => simpa using List.find?_some h

theorem domainAt_wakeOne_retention {n : Nat} (h : (domainAt s n).state = .retention) :
    (domainAt (wakeOne s n source) n).state = .waking ∧ (domainAt (wakeOne s n source) n).lastWake = source := by
  have hnum := num_domainAt s n
  unfold wakeOne
  simp only [h]
  have hset := domainAt_setDomain_same s { domainAt s n with
    state := .waking, lastWake := source, lastWakeDtb := now s, fromOff := DomState.retention == .off, idleSince := none, due := 0 }
  simp only [hnum] at hset ⊢
  rw [hset]
  exact ⟨rfl, rfl⟩

theorem rouseMgmt_of_asleep (hs : supplied s 0 = true) (hd : (domainAt s 0).state ≠ .on) :
    rouseMgmt s source = startWake s 0 source := by simp [rouseMgmt, hs, hd]

theorem supplied_of_main (n : Nat) (h : s.pins.mainOn = true) : supplied s n = true := by simp [supplied, h]

theorem withAdmin_of_served (htake : takeCmd s adminQ cid opcode = some c) (hserves : adminServes s c = true)
    (hvalid : sqeValid c.sqe = true) (k : State → Cmd → State) :
    withAdmin s cid opcode k = k (rouseMgmt s 0x09) c := by
  simp [withAdmin, htake, hserves, hvalid]

theorem withAdmin_of_not_served (htake : takeCmd s adminQ cid opcode = some c) (hserves : adminServes s c = false)
    (k : State → Cmd → State) :
    withAdmin s cid opcode k = endCmd (rouseMgmt s 0x09) adminQ c stBusyOtherMaster 0 := by
  simp [withAdmin, htake, hserves]

theorem adminServes_of_off (h : (domainAt s 0).state = .off) : adminServes s c = false := by
  simp [adminServes, mgmtServes, h]

/-- What a DICT_READ of a served command does: the answer of the object, or the refusal of a short buffer. -/
def dictReadEnd (cid : Nat) (s : State) (c : Cmd) : State :=
  let r := readObject s .host (cmdObject c) (cmdSub c)
  if r.1 != stOk then endCmd s adminQ c r.1 0
  else if cmdBufLen c < r.2.length then endCmd s adminQ c stInvalidField 0
  else endCmd (emit s (.hostWrite adminQ cid r.2)) adminQ c stOk (dictCounter s (cmdObject c) (cmdSub c)).toNat

theorem execDictRead_eq (cid : Nat) (s : State) : execDictRead cid s = .next (withAdmin s cid 0x8C (dictReadEnd cid)) := (rfl)

theorem dictReadEnd_of_ok (hr : (readObject s .host (cmdObject c) (cmdSub c)).1 = stOk)
    (hl : (readObject s .host (cmdObject c) (cmdSub c)).2.length ≤ cmdBufLen c) :
    dictReadEnd cid s c = endCmd (emit s (.hostWrite adminQ cid (readObject s .host (cmdObject c) (cmdSub c)).2)) adminQ c stOk
      (dictCounter s (cmdObject c) (cmdSub c)).toNat := by
  simp [dictReadEnd, hr, Nat.not_lt.mpr hl]

theorem dictReadEnd_frame (cid : Nat) (s : State) (c : Cmd) :
    dictReadEnd cid s c = { s with out := (dictReadEnd cid s c).out, queues := (dictReadEnd cid s c).queues } := by
  unfold dictReadEnd
  dsimp only
  split
  · rw [endCmd_frame]
  · split
    · rw [endCmd_frame]
    · rw [endCmd_frame]; rfl

theorem domainAt_dictReadEnd (cid n : Nat) (s : State) (c : Cmd) : domainAt (dictReadEnd cid s c) n = domainAt s n := by
  rw [dictReadEnd_frame]; rfl

/-- What a DICT_WRITE of a served command whose data are read does. -/
def dictWriteEnd (v : Bytes) (s : State) (c : Cmd) : State :=
  let n := cmdBufLen c
  if v.length < n then
    endCmd (updLinkCounters s 0 (fun k => { k with hostFaults := wrapAdd 64 k.hostFaults 1 })) adminQ c stHostFault 0
  else
    let r := noteWrite .host (cmdObject c) (cmdSub c) (writeObject s .host (cmdObject c) (cmdSub c) (v.take n))
    endCmd r.1 adminQ c r.2 (dictCounter r.1 (cmdObject c) (cmdSub c)).toNat

theorem execDictWrite_eq (cid : Nat) (v : Bytes) (s : State) :
    execDictWrite cid v s = .next (withAdmin s cid 0x8D (dictWriteEnd v)) := (rfl)

theorem dictWriteEnd_of_data {v : Bytes} (h : cmdBufLen c ≤ v.length) : ∃ t st,
    dictWriteEnd v s c = endCmd t adminQ c st (dictCounter t (cmdObject c) (cmdSub c)).toNat ∧
      (t, st) = noteWrite .host (cmdObject c) (cmdSub c) (writeObject s .host (cmdObject c) (cmdSub c) (v.take (cmdBufLen c))) := by
  refine ⟨_, _, ?_, Prod.mk.eta⟩
  unfold dictWriteEnd
  exact if_neg (Nat.not_lt.mpr h)

theorem rouseMgmt_of_mgmt_off (hm : s.pins.mainOn = true) (hd : (domainAt s 0).state = .off) :
    rouseMgmt s 0x09 = startWake s 0 0x09 := rouseMgmt_of_asleep (supplied_of_main 0 hm) (by simp [hd])

/-- Settles O23: the commands run where MGMT serves, wake it from retention before they run, and are refused where it is off. -/
theorem dictCommandRows : Obligations.DictCommandRows := by
  refine ⟨fun s cid c ht hr hl => ?_, fun s cid v c ht hl => ?_, fun s cid c htake hserves hvalid hmain hret => ?_,
    fun s cid v c row hrow htake hmain hoff => ?_⟩
  · exact congrArg Host.Outcome.next ((withAdmin_of_adminTakes ht _).trans (dictReadEnd_of_ok hr hl))
  · obtain ⟨t, st, he, hw⟩ := dictWriteEnd_of_data (s := s) hl
    exact ⟨t, st, congrArg Host.Outcome.next ((withAdmin_of_adminTakes ht _).trans he), hw⟩
  · have hrun : execDictRead cid s = .next (dictReadEnd cid (wakeOne s 0 0x09) c) := by
      rw [execDictRead_eq, withAdmin_of_served htake hserves hvalid,
        rouseMgmt_of_asleep (supplied_of_main 0 hmain) (by simp [hret]), startWake_mgmt]
    refine ⟨_, hrun, ?_, ?_⟩
    · rw [dictReadEnd_frame, wakeOne_frame]
    · rw [domainAt_dictReadEnd]
      exact domainAt_wakeOne_retention hret
  · have hrefused : ∀ k opcode, takeCmd s adminQ cid opcode = some c →
        withAdmin s cid opcode k = endCmd (startWake s 0 0x09) adminQ c stBusyOtherMaster 0 := fun k opcode h => by
      rw [withAdmin_of_not_served h (adminServes_of_off hoff), rouseMgmt_of_mgmt_off hmain hoff]
    simp only [List.mem_cons, List.not_mem_nil, or_false] at hrow
    rcases hrow with rfl | rfl
    · exact congrArg Host.Outcome.next (hrefused _ _ (by simpa using htake))
    · exact congrArg Host.Outcome.next (hrefused _ _ (by simpa using htake))

/-- A reset module whose firmware serves, in a tick in which the host has already written 5 to ERR_ACK. -/
def hostWroteErrAck : State :=
  { State.reset with
    sec := { State.reset.sec with mgmtReady := true }, pins := { State.reset.pins with auxGood := true },
    power := { State.reset.power with domains := [{ num := 0, state := .on }] },
    dict := { State.reset.dict with hostTick := some (State.reset.time.dtb / 125), hostWrote := [(0x600B, 0, 5)] } }

/-- Refutes O25: the sideband's ERR_ACK of 7 in the tick of the host's write of 5 leaves the value 5, as R325 lets the host's stand. -/
theorem not_objectRows : ¬ Obligations.ObjectRows := by
  intro h
  obtain ⟨t, ht, -, hvalue, -⟩ := h.2.1 hostWroteErrAck .sideband 7 (by decide +kernel) (by decide +kernel)
  have hrun : dictValue (rowWrite hostWroteErrAck .sideband 0x600B 0
      (fun s => writeObject s .sideband 0x600B 0 (natLe 4 (7 : Word32).toNat))) 0x600B 0 0 = 5 := by decide +kernel
  obtain rfl : _ = t := Host.Outcome.next.inj ht
  exact absurd (hrun.symm.trans hvalue) (by decide)

end Sys2Proof.Machine

/-! SUPPORT. Firmware and the CXL primary mailbox (R279, R387, R396, R397, R401). -/

namespace Sys2Proof.Machine

open Sys2Proof

variable {s : State} {cid n : Nat} {c : Cmd} {f : FwImage}

@[simp] theorem length_natLe (k n : Nat) : (natLe k n).length = k := by
  induction k generalizing n with
  | zero => rfl
  | succ k ih => simp [natLe, ih]

@[simp] theorem length_padTo (n : Nat) (bs : Bytes) : (padTo n bs).length = n := by
  simp only [padTo, List.length_append, List.length_take, List.length_replicate]
  omega

theorem writeCopies_ok (m0 m1 : Media) (h : s.sec.activated ≠ some f) (h0 : m0 = .ok) (h1 : m1 = .ok) :
    writeCopies s f m0 m1 = ({ s with
      sec := { s.sec with copy0 := some f, copy1 := some f, activated := some f, pending := f.version },
      link := { s.link with cdatSeq := (s.link.cdatSeq + 1) % 2 ^ 32 } }, stOk) := by
  subst h0 h1
  simp [writeCopies, h]

theorem writeCopies_uncorrectable (m1 : Media) (h : s.sec.activated ≠ some f) :
    writeCopies s f .uncorrectable m1 = ({ s with sec := { s.sec with copy0 := none } }, stMediaUe) := by
  simp [writeCopies, h]

/-- What an FW_STAGE of a served command does with the bytes read. -/
def fwStageEnd (image : Bytes) (s : State) (c : Cmd) : State :=
  let n := field c.sqe 64 32
  let bs := image.take n
  if n % 64 != 0 then endCmd s adminQ c stInvalidField 0
  else if transferring s then endCmd s adminQ c stInProgress 0
  else if bs.length < n then
    endCmd (stagedAs (updLinkCounters s 0 (fun k => { k with hostFaults := wrapAdd 64 k.hostFaults 1 })) none) adminQ c stHostFault 0
  else
    let s1 := startCmd (startWake s 1 0x09) adminQ c
    { s1 with sec := { s1.sec with staging := .verifying c.cid bs } }

theorem execFwStage_of_taken (image : Bytes) (h : adminTakes s cid 0x89 c) :
    execFwStage cid image s = .next (fwStageEnd image s c) :=
  congrArg Host.Outcome.next (withAdmin_of_adminTakes h (fwStageEnd image))

theorem fwStageEnd_of_short {image : Bytes} (ht : transferring s = false) (ha : field c.sqe 64 32 % 64 = 0)
    (hl : image.length < field c.sqe 64 32) : fwStageEnd image s c =
      endCmd (stagedAs (updLinkCounters s 0 (fun k => { k with hostFaults := wrapAdd 64 k.hostFaults 1 })) none)
        adminQ c stHostFault 0 := by
  simp [fwStageEnd, ha, ht, hl]

/-- What an FW_ACTIVATE of a served command does with the image staged. -/
def fwActivateEnd (m0 m1 : Media) (f : FwImage) (s : State) (c : Cmd) : State :=
  endCmd (writeCopies s f m0 m1).1 adminQ c (writeCopies s f m0 m1).2
    (if (writeCopies s f m0 m1).2 == stOk then imageResult f else 0)

theorem execFwActivate_of_taken (m0 m1 : Media) (h : adminTakes s cid 0x8A c) (hf : s.sec.staging = .image f) :
    execFwActivate cid m0 m1 s = .next (fwActivateEnd m0 m1 f s c) := by
  refine congrArg Host.Outcome.next ((withAdmin_of_adminTakes h _).trans ?_)
  simp only [hf, fwActivateEnd]

theorem startCmd_startWake_queues (s : State) (m source : Nat) (c : Cmd) :
    (startCmd (startWake s m source) adminQ c).queues = (startCmd s adminQ c).queues := by
  rw [startWake_frame]
  simp only [startCmd, updQueue]
  split <;> rfl

/-- Settles O28: FW_STAGE by the image's length and the area's state, FW_ACTIVATE by the first copy's writing. -/
theorem firmwareCommandRows : Obligations.FirmwareCommandRows := by
  refine ⟨fun s cid image c h ht ha hl => ?_, fun s cid image c h ht ha => ?_, fun s cid image c h ht ha hl => ?_,
    fun s cid c f h hf hn => ?_, fun s cid c f m h hf hn => ?_⟩
  · have hrun : fwStageEnd image s c = { startCmd (startWake s 1 0x09) adminQ c with
        sec := { (startCmd (startWake s 1 0x09) adminQ c).sec with
          staging := .verifying c.cid (image.take (field c.sqe 64 32)) } } := by
      simp [fwStageEnd, ha, ht, Nat.not_lt.mpr hl]
    refine ⟨_, (execFwStage_of_taken image h).trans (congrArg Host.Outcome.next hrun), ?_, ?_, ?_⟩
    · rw [startCmd_frame, startWake_frame]
    · rw [startCmd_frame, startWake_frame]
    · exact startCmd_startWake_queues s 1 0x09 c
  · refine (execFwStage_of_taken image h).trans (congrArg Host.Outcome.next ?_)
    simp [fwStageEnd, ha, ht]
  · exact ⟨_, (execFwStage_of_taken image h).trans (congrArg Host.Outcome.next (fwStageEnd_of_short ht ha hl)), rfl⟩
  · refine ⟨_, (execFwActivate_of_taken .ok .ok h hf).trans (congrArg Host.Outcome.next ?_), rfl⟩
    rw [fwActivateEnd, writeCopies_ok _ _ hn rfl rfl]
    rfl
  · refine ⟨_, (execFwActivate_of_taken .uncorrectable m h hf).trans (congrArg Host.Outcome.next ?_), rfl⟩
    rw [fwActivateEnd, writeCopies_uncorrectable _ hn]
    rfl

/-- A mailbox command is served after MGMT is roused. -/
theorem mbServe_of_served {opcode : Nat} (k : State → State) (hu : s.link.up = true)
    (hs : ((mgmtServes s && !isFatal s) || loaderServes s) = true) : mbServe s opcode k = k (rouseMgmt s 0x09) := by
  simp only [mbServe, hu, hs]
  rfl

@[simp] theorem loaderServes_rouseMgmt (s : State) (source : Nat) : loaderServes (rouseMgmt s source) = loaderServes s := by
  rw [rouseMgmt_frame]; rfl
@[simp] theorem rouseMgmt_sec (s : State) (source : Nat) : (rouseMgmt s source).sec = s.sec := by rw [rouseMgmt_frame]
@[simp] theorem rouseMgmt_out (s : State) (source : Nat) : (rouseMgmt s source).out = s.out := by rw [rouseMgmt_frame]
@[simp] theorem rouseMgmt_link (s : State) (source : Nat) : (rouseMgmt s source).link = s.link := by rw [rouseMgmt_frame]
@[simp] theorem mbLogs_rouseMgmt (s : State) (source : Nat) : mbLogs (rouseMgmt s source) = mbLogs s := by simp [mbLogs]
@[simp] theorem transferring_rouseMgmt (s : State) (source : Nat) : transferring (rouseMgmt s source) = transferring s := by
  simp [transferring]
@[simp] theorem loaderTakesImage_rouseMgmt (s : State) (source : Nat) :
    loaderTakesImage (rouseMgmt s source) = loaderTakesImage s := by simp [loaderTakesImage]

theorem length_flatMap_const {α β : Type} {k : Nat} (l : List α) (g : α → List β) (h : ∀ a, (g a).length = k) :
    (l.flatMap g).length = k * l.length := by
  induction l with
  | nil => simp
  | cons a l ih =>
    rw [List.flatMap_cons, List.length_append, ih, h, List.length_cons, Nat.mul_add, Nat.mul_one, Nat.add_comm]

@[simp] theorem mbEnd_stOk (s : State) (opcode : Nat) : mbEnd s opcode stOk = mbAnswer s opcode mbSuccess [] := by
  simp [mbEnd]

/-- Neither a state of the loader that takes no image nor a transfer on another way refuses a TRANSFER_FW. -/
theorem loader_refuses_iff (hl : loaderServes s = true → loaderTakesImage s = true) :
    (loaderServes s && !loaderTakesImage s) = false := by
  cases h : loaderServes s with
  | false => rfl
  | true => simp [hl h]

theorem execTransferFw_initiate {offset : Nat} {data : Bytes} (hu : s.link.up = true)
    (hs : ((mgmtServes s && !isFatal s) || loaderServes s) = true) (hl : loaderServes s = true → loaderTakesImage s = true)
    (ht : transferring s = false) (hlen : 128 * offset + data.length ≤ stagingBytes) :
    execTransferFw 1 offset data s = .next (mbAnswer { rouseMgmt s 0x09 with
      sec := { (rouseMgmt s 0x09).sec with staging := .mailbox (placeAt [] (128 * offset) data) } } 0x0201 mbSuccess []) := by
  refine congrArg Host.Outcome.next ((mbServe_of_served _ hu hs).trans ?_)
  simp [loader_refuses_iff hl, ht, Nat.not_lt.mpr hlen]

theorem execTransferFw_continue {offset : Nat} {data bs : Bytes} (hu : s.link.up = true)
    (hs : ((mgmtServes s && !isFatal s) || loaderServes s) = true) (hl : loaderServes s = true → loaderTakesImage s = true)
    (hb : s.sec.staging = .mailbox bs) (hlen : 128 * offset + data.length ≤ stagingBytes) :
    execTransferFw 2 offset data s = .next (mbAnswer { rouseMgmt s 0x09 with
      sec := { (rouseMgmt s 0x09).sec with staging := .mailbox (placeAt bs (128 * offset) data) } } 0x0201 mbSuccess []) := by
  refine congrArg Host.Outcome.next ((mbServe_of_served _ hu hs).trans ?_)
  simp [loader_refuses_iff hl, hb, Nat.not_lt.mpr hlen]

theorem execActivateFw_staged (hu : s.link.up = true) (hs : ((mgmtServes s && !isFatal s) || loaderServes s) = true)
    (hl : loaderServes s = false) (hf : s.sec.staging = .image f) (hn : s.sec.activated ≠ some f) :
    execActivateFw false .ok .ok s = .next (mbAnswer { rouseMgmt s 0x09 with
      sec := { s.sec with copy0 := some f, copy1 := some f, activated := some f, pending := f.version },
      link := { s.link with cdatSeq := (s.link.cdatSeq + 1) % 2 ^ 32 } } 0x0202 mbSuccess []) := by
  refine congrArg Host.Outcome.next ((mbServe_of_served _ hu hs).trans ?_)
  simp [hl, hf, writeCopies_ok (s := rouseMgmt s 0x09) .ok .ok (by simpa using hn) rfl rfl]

theorem execInstallConfigRecord_part {offset : Nat} {data bs : Bytes} (hu : s.link.up = true)
    (hs : ((mgmtServes s && !isFatal s) || loaderServes s) = true) (hb : s.sec.staging = .cfgMailbox bs)
    (hd : data.length ≤ 32768) (hlen : 128 * offset + data.length ≤ stagingBytes) :
    execInstallConfigRecord offset false data s = .next (mbAnswer { rouseMgmt s 0x09 with
      sec := { (rouseMgmt s 0x09).sec with staging := .cfgMailbox (placeAt bs (128 * offset) data) } } 0xC100 mbSuccess []) := by
  refine congrArg Host.Outcome.next ((mbServe_of_served _ hu hs).trans ?_)
  simp [hb, Nat.not_lt.mpr hd, Nat.not_lt.mpr hlen]

theorem mbAnswer_rouseMgmt (s : State) (opcode ret : Nat) (d : Bytes) :
    mbAnswer (rouseMgmt s 0x09) opcode ret d = { rouseMgmt s 0x09 with out := s.out ++ [.mailbox opcode ret d] } := by
  simp [mbAnswer, emit]

/-- Settles O30: a served command answers what its row says of the state after MGMT is roused. -/
theorem mailboxRows : Obligations.MailboxRows := by
  refine ⟨fun s hu hs => ⟨_, congrArg Host.Outcome.next ((mbServe_of_served _ hu hs).trans (mbAnswer_rouseMgmt ..)), ?_⟩,
    fun s hu hs => ⟨_, congrArg Host.Outcome.next ((mbServe_of_served _ hu hs).trans (mbAnswer_rouseMgmt ..)), ?_⟩,
    fun s page offset len hu hs hp => congrArg Host.Outcome.next ((mbServe_of_served _ hu hs).trans ?_),
    fun s offset data hu hs hl ht hlen => (execTransferFw_initiate hu hs hl ht hlen).trans (congrArg Host.Outcome.next ?_),
    fun s offset data bs hu hs hl hb hlen => (execTransferFw_continue hu hs hl hb hlen).trans (congrArg Host.Outcome.next ?_),
    fun s f hu hs hl hf hn => (execActivateFw_staged hu hs hl hf hn).trans (congrArg Host.Outcome.next ?_),
    fun s m0 m1 hu hs => congrArg Host.Outcome.next ((mbServe_of_served _ hu hs).trans (mbAnswer_rouseMgmt ..)),
    fun s offset data bs hu hs hb hd hlen => (execInstallConfigRecord_part hu hs hb hd hlen).trans (congrArg Host.Outcome.next ?_)⟩
  · simp
  · rw [length_flatMap_const (k := 16) _ _ (by simp), mbLogs_rouseMgmt]
  · rw [if_pos (by simpa using hp), mbAnswer_rouseMgmt]
  · simp [mbAnswer, emit]
  · simp [mbAnswer, emit]
  · simp [mbAnswer, emit]
  · simp [mbAnswer, emit]

end Sys2Proof.Machine

/-! SUPPORT. SPDM, evidence, and frames of the sideband (R316 to R320, R391, R392). -/

namespace Sys2Proof.Machine

open Sys2Proof

variable {s : State} {f : Frame}

theorem spdmServe_of_up (k : State → State) (hu : s.link.up = true) : spdmServe s k = k (startWake s 1 0x09) := by
  simp [spdmServe, hu]

theorem doeAnswer_of_up (code : Nat) (fields : List Nat) (hu : s.link.up = true) :
    doeAnswer s code fields = { s with out := s.out ++ [.doe code (fields.flatMap (natLe 8))] } := by
  simp [doeAnswer, hu, emit]

@[simp] theorem startWake_link (s : State) (n source : Nat) : (startWake s n source).link = s.link := by rw [startWake_frame]
@[simp] theorem startWake_sec (s : State) (n source : Nat) : (startWake s n source).sec = s.sec := by rw [startWake_frame]
@[simp] theorem startWake_out (s : State) (n source : Nat) : (startWake s n source).out = s.out := by rw [startWake_frame]

/-- An answer of the DOE mailbox once the security block is asked to wake: nothing else of the module changes. -/
theorem emit_startWake_frame (s : State) (n source : Nat) (e : Out) : emit (startWake s n source) e =
    { s with power := (emit (startWake s n source) e).power, out := s.out ++ [e] } := by
  rw [startWake_frame]; rfl

theorem doeAnswer_startWake (n source code : Nat) (fields : List Nat) (hu : s.link.up = true) :
    doeAnswer (startWake s n source) code fields = emit (startWake s n source) (.doe code (fields.flatMap (natLe 8))) := by
  simp [doeAnswer, hu]

theorem measLive_startWake (s : State) (n source : Nat) : measLive (startWake s n source) = measLive s := by
  rw [startWake_frame]; rfl

theorem requestEvidence_of_module (v : Bytes) (by_ : Master) (spdm : Bool) (hb : leAt v 32 1 = 0xFF) (hr : leAt v 33 7 = 0)
    (hl : s.sec.evidence.length < 4) : requestEvidence s by_ v spdm = (startWake { s with sec := { s.sec with
      evidence := s.sec.evidence ++ [{ by_ := by_, nonce := BitVec.ofNat 256 (leAt v 0 32), bay := none, spdm := spdm }] } } 1 0x09,
        stOk) := by
  simp [requestEvidence, hb, hr, Nat.not_le.mpr hl]

theorem execSpdmEvidenceRequest_of_module {v : Bytes} (hu : s.link.up = true) (hb : leAt v 32 1 = 0xFF)
    (hr : leAt v 33 7 = 0) (hl : s.sec.evidence.length < 4) : execSpdmEvidenceRequest v s =
      .next (startWake { startWake s 1 0x09 with sec := { (startWake s 1 0x09).sec with evidence := s.sec.evidence ++
        [{ by_ := .host, nonce := BitVec.ofNat 256 (leAt v 0 32), bay := none, spdm := true }] } } 1 0x09) := by
  refine congrArg Host.Outcome.next ((spdmServe_of_up _ hu).trans ?_)
  simp only [requestEvidence_of_module v .host true hb hr (s := startWake s 1 0x09) (by simpa using hl), startWake_sec]
  rfl

/-- Settles O32: the security block is asked to wake for each request, and the request is answered by its row's branch. -/
theorem spdmRows : Obligations.SpdmRows := by
  refine ⟨fun s hu => ?_, fun s offset len r hu hr => ?_, fun s nonce hu hn => ?_, fun s nonce hu hn => ?_,
    fun s v hu hb hv hl => ?_, fun s hu hn hl => ?_, fun s hu hn hl => ?_⟩
  · refine ⟨_, congrArg Host.Outcome.next ((spdmServe_of_up _ hu).trans (doeAnswer_of_up _ _ (by simpa using hu))), ?_⟩
    rw [startWake_frame]; rfl
  · refine ⟨_, congrArg Host.Outcome.next ((spdmServe_of_up _ hu).trans ?_), emit_startWake_frame s 1 0x09 _⟩
    simp [hr]
  · exact ⟨_, padTo evidenceSig (Config.slhSign labelSpdm (natLe 32 nonce.toNat)),
      congrArg Host.Outcome.next ((spdmServe_of_up _ hu).trans (if_pos (by simp [hn]))), emit_startWake_frame s 1 0x09 _⟩
  · refine ⟨_, padTo evidenceSig (Config.slhSign labelSpdm (natLe 32 nonce.toNat ++
        (measurements (startWake s 1 0x09)).flatMap (fun m => natLe 64 m.2.toNat))),
      congrArg Host.Outcome.next ((spdmServe_of_up _ hu).trans (if_pos (by simp [hn]))), ?_⟩
    refine (emit_startWake_frame s 1 0x09 _).trans ?_
    simp [measurements, measLive_startWake]
  · refine ⟨_, execSpdmEvidenceRequest_of_module hu hb hv hl, ?_, ?_⟩
    · rw [startWake_frame, startWake_frame]
    · rw [startWake_frame, startWake_frame]
  · refine ⟨_, congrArg Host.Outcome.next ((spdmServe_of_up _ hu).trans ((if_pos (by simp [hn, hl])).trans
      (doeAnswer_of_up _ _ (by simpa using hu)))), ?_⟩
    rw [startWake_frame]
    simp
  · refine ⟨_, congrArg Host.Outcome.next ((spdmServe_of_up _ hu).trans ((if_neg (by simp [hl])).trans
      (doeAnswer_startWake _ _ _ _ hu))), emit_startWake_frame s 1 0x09 _⟩

theorem execEvidenceSign_of_request {r : EvidenceReq} {rest : List EvidenceReq} (h : s.sec.evidence = r :: rest)
    (hm : s.pins.mainOn = true) : ∃ t, execEvidenceSign s = .next t ∧ t = { s with sec := t.sec, out := t.out } ∧
      t.sec = if r.by_ == .host then { s.sec with evidence := rest, evidenceHost := some (evidenceOf s r) }
        else { s.sec with evidence := rest, evidenceSideband := some (evidenceOf s r) } := by
  unfold execEvidenceSign
  simp only [h, hm, Bool.not_true, Bool.false_eq_true, if_false]
  refine ⟨_, rfl, ?_, ?_⟩
  · split <;> rfl
  · split <;> rfl

theorem length_evidence_meas (s : State) (r : EvidenceReq) :
    (evidenceOf s r).meas.length = if r.bay = none then 5 else 6 := by
  cases h : r.bay <;> simp [evidenceOf, measurements, h]

/-- Settles O33: the head of the waiting list is served, and the signature is padded to its 49,856 bytes. -/
theorem evidenceSignRow : Obligations.EvidenceSignRow := by
  intro s r rest h hm
  obtain ⟨t, hexec, hframe, hsec⟩ := execEvidenceSign_of_request h hm
  refine ⟨t, hexec, hframe, ?_, fun hb => ?_, fun hb => ?_, length_evidence_meas s r, length_padTo _ _⟩
  · rw [hsec]; split <;> rfl
  · rw [hsec, hb]; exact ⟨rfl, rfl⟩
  · rw [hsec, hb]; exact ⟨rfl, rfl⟩

/-- A read of LOCK_IDLE, without a tag, from peer 1. -/
def openRead : Frame :=
  { peer := 1, len := 48, header := BitVec.ofNat 256 (1 + 1 * 2 ^ 8 + 0x8001 * 2 ^ 80), value := [], tag := 0 }

/-- A reset module without SB_KEY on AUX power, whose LOCK_IDLE was written once. -/
def onceWritten : State :=
  { State.reset with
    pins := { State.reset.pins with auxGood := true },
    dict := { State.reset.dict with entries := [{ index := 0x8001, sub := 0, value := some 30, counter := 1 }] } }

/-- Refutes O35: the refusal of an untagged read carries the object's change counter, which is not 0 once the object was written. -/
theorem not_sidebandRequestRows : ¬ Obligations.SidebandRequestRows := by
  intro h
  have hrefused := h.2.1 onceWritten openRead (by decide +kernel) (by decide +kernel) (by decide +kernel) (by decide +kernel)
    (by decide +kernel) (by decide +kernel)
  have hout := congrArg State.out (Host.Outcome.next.inj hrefused)
  revert hout
  decide +kernel

theorem wakeOne_sb (s : State) (n source : Nat) (x : SidebandState) :
    wakeOne { s with sb := x } n source = { wakeOne s n source with sb := x } := by
  have hd : domainAt { s with sb := x } n = domainAt s n := rfl
  have hn : now { s with sb := x } = now s := rfl
  unfold wakeOne
  dsimp only
  rw [hd, hn]
  cases hs : (domainAt s n).state <;> simp only [] <;> (repeat' split) <;> rfl

theorem rouseMgmt_sb (s : State) (source : Nat) (x : SidebandState) :
    rouseMgmt { s with sb := x } source = { rouseMgmt s source with sb := x } := by
  unfold rouseMgmt
  by_cases h : (supplied s 0 && (domainAt s 0).state != .on) = true
  · rw [if_pos h, startWake_mgmt, startWake_mgmt]
    exact (if_pos h).trans (wakeOne_sb s 0 source x)
  · rw [if_neg h]
    exact if_neg h

theorem handFrame_sb (s : State) (x : SidebandState) : handFrame { s with sb := x } = { handFrame s with sb := x } := by
  unfold handFrame wakeMgmt
  by_cases h : mgmtServes s = true
  · rw [if_pos h]
    exact (if_pos h).trans (rouseMgmt_sb s 0x02 x)
  · rw [if_neg h]
    exact if_neg h

theorem handFrame_countAuth (s : State) :
    handFrame (countAuth s) = { handFrame s with sb := { s.sb with authFail := s.sb.authFail + 1 } } := handFrame_sb s _

/-- Settles O36: a wrong tag is the first check that fails, which counts; the frame then wakes MGMT. -/
theorem wrongTagIsDropped : Obligations.WrongTagIsDropped := by
  intro s f hl hb hk ht
  have hcheck : checkFrame s f = countAuth s := by
    unfold checkFrame
    rw [if_neg (by simp [hb]), if_pos (by simp only [Bool.and_eq_true, bne_iff_ne]; exact ⟨hk, ht⟩)]
  simp only [receive, hl, Bool.false_eq_true, if_false, hcheck]
  exact handFrame_countAuth s

/-- The entry that `logError` appends. -/
def errorEntry (s : State) (cls unit detail : Nat) (ctx : Option (Nat × Nat)) : ErrEntry :=
  { dtb := now s, boot := s.time.bootCount, entry := s.health.nextEntry, cls := cls, severity := severityOf cls,
    ctx := ctx, unit := unit, detail := BitVec.ofNat 128 detail }

theorem logError_health (s : State) (cls unit detail : Nat) (ctx : Option (Nat × Nat)) :
    (logError s cls unit detail ctx).health = { s.health with
      nextEntry := s.health.nextEntry + 1,
      errors := (s.health.errors ++ [errorEntry s cls unit detail ctx]).drop
        ((s.health.errors ++ [errorEntry s cls unit detail ctx]).length - 16384) } := by
  unfold logError logEntry
  dsimp only
  split <;> rfl

theorem logError_of_alert {cls : Nat} (unit detail : Nat) (ctx : Option (Nat × Nat)) (h : severityOf cls = 2) :
    logError s cls unit detail ctx = refreshAlert (sendEvent { s with health := { s.health with
      nextEntry := s.health.nextEntry + 1,
      errors := (s.health.errors ++ [errorEntry s cls unit detail ctx]).drop
        ((s.health.errors ++ [errorEntry s cls unit detail ctx]).length - 16384) } }
      0x0004 (BitVec.ofNat 64 s.health.nextEntry.toNat)) := by
  have hsev : (severityOf cls == 2) = true := by simp [h]
  unfold logError logEntry
  exact if_pos hsev

theorem alertLow_refreshAlert (u : State) : (refreshAlert u).pins.alertLow = alertOpen (refreshAlert u) := (rfl)

/-- Settles O38: the entry is appended and the oldest are dropped; an ALERT sends one frame and sets ALERT_N by the entries. -/
theorem errorLogEntry : Obligations.ErrorLogEntry := by
  intro s cls unit detail ctx
  refine ⟨errorEntry s cls unit detail ctx, logError_health .., rfl, rfl, rfl, rfl, rfl, rfl, logError_frame .., fun h => ?_,
    fun h => ?_⟩
  · rw [logError_of_alert unit detail ctx h]
    exact ⟨alertLow_refreshAlert _, by simp [refreshAlert, sendEvent, emitEvent, sendFrame, emit]⟩
  · simp [logError, logEntry, h]

end Sys2Proof.Machine

/-! SUPPORT. The fatal sequence: the halt of its first error, the dump, the reset that waits for it, and restarts of MGMT (R376 to R379,
R390, R399). -/

namespace Sys2Proof.Machine

open Sys2Proof

variable {s u : State}

theorem hotOff_frame (s : State) : hotOff s = { s with power := (hotOff s).power, cells := {} } := by
  unfold hotOff
  dsimp only
  rw [foldl_power]
  intro s a
  rfl

theorem haltWork_ends (s : State) : (haltWork s).adm.queries = [] ∧ (haltWork s).health.selfTest = none ∧
    ∀ d ∈ (haltWork s).health.dies, d.piece = none := by
  refine ⟨rfl, rfl, fun d hd => ?_⟩
  simp only [haltWork, List.mem_map] at hd
  obtain ⟨a, -, rfl⟩ := hd
  rfl

/-- The halt of a fatal error, `u` being the module once its work has ended. -/
def halted (s u : State) (cause unit : Nat) : State :=
  clearKeys { u with
    queues := { u.queues with pairs := u.queues.pairs.map (fun p => { p with q := { p.q with cmds := [] } }) },
    adm := { u.adm with stopped := true }, pins := { u.pins with faultLow := true },
    health := { u.health with fatal := .halted, fatalInfo := some (cause, unit, now s, s.health.nextEntry) } }

/-- The work ended by a fatal error. -/
def endedByFatal (s : State) (cause unit : Nat) (inCxl : Bool) : State :=
  haltWork (if inCxl then linkLost (logError s errFatal cause unit) else abandonAll (logError s errFatal cause unit))

theorem fatalEffect_of_first {cause unit : Nat} {inCxl : Bool} (hf : isFatal s = false) (hm : s.pins.mainOn = true) :
    fatalEffect s cause unit inCxl = refreshReady
      (if cause == 4 then hotOff (halted s (endedByFatal s cause unit inCxl) cause unit)
        else halted s (endedByFatal s cause unit inCxl) cause unit) :=
  if_neg (by simp [hf, hm])

theorem refreshReady_of_fatal (h : u.health.fatal ≠ .none) :
    (refreshReady u).link.ready = false ∧ (refreshReady u).pins.modReady = false := by
  have hf : (u.health.fatal == .none) = false := by simpa using h
  simp [refreshReady, hf]

/-- What the first fatal error leaves, hot or not. -/
theorem fatalEffect_first {cause unit : Nat} {inCxl : Bool} (hf : isFatal s = false) (hm : s.pins.mainOn = true) :
    let t := fatalEffect s cause unit inCxl
    t.health.fatal = .halted ∧ t.pins.faultLow = true ∧
      (∃ d, t.health.fatalInfo = some (cause, unit, d, s.health.nextEntry)) ∧ t.adm.stopped = true ∧ t.adm.queries = [] ∧
      noKeys t ∧ t.link.ready = false ∧ t.pins.modReady = false ∧ (∀ p ∈ t.queues.pairs, p.q.cmds = []) ∧
      t.health.selfTest = none ∧ (∀ d ∈ t.health.dies, d.piece = none) := by
  have hkeys : ∀ e ∈ (halted s (endedByFatal s cause unit inCxl) cause unit).link.ide,
      e.2.key0 = none ∧ e.2.key1 = none ∧ e.2.active = none := by
    intro e he
    simp only [halted, clearKeys, List.mem_map] at he
    obtain ⟨a, -, rfl⟩ := he
    exact ⟨rfl, rfl, rfl⟩
  have hcmds : ∀ p ∈ (halted s (endedByFatal s cause unit inCxl) cause unit).queues.pairs, p.q.cmds = [] := by
    intro p hp
    simp only [halted, clearKeys, List.mem_map] at hp
    obtain ⟨a, -, rfl⟩ := hp
    rfl
  obtain ⟨hqueries, htest, hdies⟩ := haltWork_ends (if inCxl then linkLost (logError s errFatal cause unit)
    else abandonAll (logError s errFatal cause unit))
  intro t
  have ht : t = refreshReady (if cause == 4 then hotOff (halted s (endedByFatal s cause unit inCxl) cause unit)
    else halted s (endedByFatal s cause unit inCxl) cause unit) := fatalEffect_of_first hf hm
  rw [ht]
  cases cause == 4
  · obtain ⟨hready, hmod⟩ := refreshReady_of_fatal (u := halted s (endedByFatal s cause unit inCxl) cause unit) nofun
    exact ⟨rfl, rfl, ⟨_, rfl⟩, rfl, hqueries, hkeys, hready, hmod, hcmds, htest, hdies⟩
  · rw [if_pos rfl, hotOff_frame]
    obtain ⟨hready, hmod⟩ := refreshReady_of_fatal (u := { halted s (endedByFatal s cause unit inCxl) cause unit with
      power := (hotOff (halted s (endedByFatal s cause unit inCxl) cause unit)).power, cells := {} }) nofun
    exact ⟨rfl, rfl, ⟨_, rfl⟩, rfl, hqueries, hkeys, hready, hmod, hcmds, htest, hdies⟩

theorem endStaging_keeps (v : State) :
    (endStaging v).health = v.health ∧ (endStaging v).pins = v.pins ∧ (endStaging v).sec = v.sec := by
  unfold endStaging
  split
  · rw [postCompletion_frame]; exact ⟨rfl, rfl, rfl⟩
  · exact ⟨rfl, rfl, rfl⟩

theorem stageAfterRestart_keeps (v : State) : (stageAfterRestart v).health = v.health ∧
    (stageAfterRestart v).pins = v.pins ∧ (stageAfterRestart v).sec = v.sec := by
  unfold stageAfterRestart
  dsimp only
  split <;> exact ⟨rfl, rfl, rfl⟩

/-- The end of a module reset: a start from the state `v` in which the fatal sequence is over. -/
theorem moduleReset_eq (s : State) : ∃ v : State, v.health.fatal = .none ∧ v.pins.resetDue = false ∧
    moduleReset s = refreshReady { resetStart v with
      link := { (resetStart v).link with training := false }, tap := { (resetStart v).tap with marked := [] } } :=
  ⟨_, rfl, rfl, rfl⟩

/-- What a module reset leaves of the fatal sequence, of MGMT and of the reset that waited. -/
theorem moduleReset_ends_fatal (s : State) : (moduleReset s).health.fatal = .none ∧ (moduleReset s).pins.resetDue = false ∧
    (moduleReset s).sec.mgmtReady = false := by
  have hstart : ∀ v : State, (resetStart v).health.fatal = v.health.fatal ∧
      (resetStart v).pins.resetDue = v.pins.resetDue ∧ (resetStart v).sec.mgmtReady = false := by
    intro v
    obtain ⟨hf, hp, -⟩ := endStaging_keeps v
    obtain ⟨hf', hp', -⟩ := stageAfterRestart_keeps (endStaging v)
    refine ⟨?_, ?_, rfl⟩
    · exact congrArg (·.fatal) (hf'.trans hf)
    · exact congrArg (·.resetDue) (hp'.trans hp)
  obtain ⟨v, hfatal, hdue, hv⟩ := moduleReset_eq s
  obtain ⟨hf, hp, hm⟩ := hstart v
  rw [hv]
  exact ⟨hf.trans hfatal, hp.trans hdue, hm⟩

theorem mgmtLost_lost (s : State) : (mgmtLost s).sec.mgmtReady = false ∧ (mgmtLost s).sec.staging = .empty ∧
    (mgmtLost s).sec.failedBoots = s.sec.failedBoots ∧ (mgmtLost s).dict.stage.lock = none ∧
    (mgmtLost s).dict.stage.frame = [] ∧ (mgmtLost s).sb.events = [] ∧ (mgmtLost s).health.fatal = s.health.fatal := by
  obtain ⟨hh, -, hs⟩ := endStaging_keeps s
  obtain ⟨hh', -, hs'⟩ := stageAfterRestart_keeps (endStaging s)
  refine ⟨rfl, rfl, ?_, rfl, rfl, rfl, ?_⟩
  · exact congrArg (·.failedBoots) (hs'.trans hs)
  · exact congrArg (·.fatal) (hh'.trans hh)

theorem execMgmtRestart_of_ready {f : FwImage} (hf : isFatal s = false) (hd : (domainAt s 0).state = .on)
    (hb : s.sec.booted = some f) (hr : s.sec.mgmtReady = true) : execMgmtRestart s = .next (refreshReady { mgmtLost s with
      health := { (mgmtLost s).health with restarts := [now s] },
      sec := { (mgmtLost s).sec with failedBoots := (mgmtLost s).sec.failedBoots + 1 } }) := by
  simp [execMgmtRestart, hf, hd, hb, hr]

theorem fatal_none_of_not (h : isFatal s = false) : s.health.fatal = .none := by simpa [isFatal] using h

theorem ready_of_not_mgmtReady (h : u.sec.mgmtReady = false) : (refreshReady u).link.ready = false := by
  simp [refreshReady, h]

/-- Settles O39: the first fatal error by its halt, a later one by the guard; the dump and its waiting reset; MGMT's check and restart. -/
theorem fatalRows : Obligations.FatalRows := by
  refine ⟨fun s cause unit cxl h1 h6 hf hm => ⟨_, congrArg Host.Outcome.next (if_pos (by simp [h1, h6])), fatalEffect_first hf hm⟩,
    fun s cause unit cxl hf => ?_, fun s hp hm hf hd => ?_, fun s hf hd => ?_, fun s hf hd hr => ?_, fun s hf hd hr => ?_,
    fun s f d hb hne hon hf hm => ?_, fun s f hf hon hb hr => ?_⟩
  · have hskip : fatalEffect s cause unit cxl = s := if_pos (by simp [hf])
    simp [Machine.exec, execFatalError, hskip]
  · simp [Machine.exec, execPerstNAssert, hp, hm, hf, hd]
  · simp [Machine.exec, execDumpWritten, hf, hd]
  · simp [Machine.exec, execDumpCopied, hf, hd, hr]
  · obtain ⟨hfatal, hdue, hready⟩ := moduleReset_ends_fatal
      { s with health := { s.health with dumpState := 2, fatal := .service } }
    refine ⟨_, ?_, hfatal, hdue, hready⟩
    simp [Machine.exec, execDumpCopied, hf, hd, hr]
  · have hrun : execMgmtCodeCheck d s = .next (fatalEffect (bumpFree s) 5 ((freshValue s).toNat % 2 ^ 16) false) := by
      simp [execMgmtCodeCheck, hb, hon, hne]
    obtain ⟨hfatal, -, ⟨r, hinfo⟩, -⟩ := fatalEffect_first (s := bumpFree s) (cause := 5)
      (unit := (freshValue s).toNat % 2 ^ 16) (inCxl := false) hf hm
    exact ⟨_, _, _, hrun, hfatal, hinfo⟩
  · obtain ⟨hready, hstaging, hboots, hlock, hframe, hevents, hfatal⟩ := mgmtLost_lost s
    refine ⟨_, execMgmtRestart_of_ready hf hon hb hr, hready, hstaging, ?_, rfl, hlock, hframe, hevents,
      ready_of_not_mgmtReady hready, hfatal.trans (fatal_none_of_not hf)⟩
    exact congrArg (· + 1) hboots

end Sys2Proof.Machine

/-! SUPPORT. Self-tests, and what two completions on the admin queue leave (R262, R280, R380). -/

namespace Sys2Proof.Machine

open Sys2Proof

variable {s : State} {q cid : Nat} {c d : Cmd} {x : SelfTest} {u : Queue}

@[simp] theorem adminCfg_updQueue (f : Queue → Queue) : (updQueue s q f).queues.adminCfg = s.queues.adminCfg := by
  unfold updQueue
  split <;> rfl

@[simp] theorem adminCfg_raiseVector (fn v : Nat) : (raiseVector s fn v).queues.adminCfg = s.queues.adminCfg := by
  unfold raiseVector
  split <;> rfl

@[simp] theorem adminCfg_sendMsix : (sendMsix s q).queues.adminCfg = s.queues.adminCfg := by
  unfold sendMsix
  split <;> simp

@[simp] theorem adminCfg_afterCommit : (afterCommit s q).queues.adminCfg = s.queues.adminCfg := by
  unfold afterCommit
  dsimp only
  (repeat' split) <;> simp

@[simp] theorem adminCfg_commitEntry (e : Deferred) : (commitEntry s e).queues.adminCfg = s.queues.adminCfg := by
  unfold commitEntry
  (repeat' split) <;> simp [countAfterDelete, updPair, emit]

@[simp] theorem adminCfg_postRecord (status result nacc ndiff : Nat) :
    (postRecord s q c status result nacc ndiff).queues.adminCfg = s.queues.adminCfg := by
  unfold postRecord
  split
  · rfl
  · dsimp only
    split
    · exact adminCfg_updQueue _
    · simp

theorem queueWrites_postRecord (status result nacc ndiff q' : Nat) :
    queueWrites (postRecord s q c status result nacc ndiff) q' = queueWrites s q' := by simp [queueWrites]

theorem out_prefix_commit (s : State) (e : Deferred) : s.out <+: (commitEntry s e).out := by
  unfold commitEntry
  split
  · exact List.prefix_refl _
  · dsimp only
    split
    · refine List.IsPrefix.trans ?_ (out_prefix_afterCommit _ _)
      simp [countAfterDelete, emit]
    · exact List.prefix_refl _

/-- A completion takes nothing back of what has left the module. -/
theorem out_prefix_completion (s : State) (q cid status result : Nat) : s.out <+: (postCompletion s q cid status result).out := by
  unfold postCompletion postRecord
  (repeat' split)
  · exact List.prefix_refl _
  · simp
  · simpa using out_prefix_commit (updQueue s q _) _
  · exact List.prefix_refl _

theorem queueOf_admin (s : State) : queueOf s adminQ = some s.queues.admin := (rfl)

theorem cid_of_runningCmd (h : runningCmd s q cid = some c) : c.cid = cid := by
  unfold runningCmd at h
  split at h
  · have hfound : c.cid = cid ∧ c.phase = .running := by simpa using List.find?_some h
    exact hfound.1
  · contradiction

theorem postCompletion_of_running (status result : Nat) (h : runningCmd s q cid = some c) :
    postCompletion s q cid status result = postRecord s q c status result 0 0 := by simp [postCompletion, h]

theorem postCompletion_of_none (status result : Nat) (h : runningCmd s q cid = none) :
    postCompletion s q cid status result = s := by simp [postCompletion, h]

/-- The entry of a completion on the admin queue leaves the module. -/
theorem entry_mem_postCompletion (status result : Nat) (hc : runningCmd s adminQ cid = some c)
    (hw : queueWrites s adminQ = true) (hl : s.link.degraded = false) :
    .completion adminQ s.queues.admin.cqTail (completionEntry result s.time.dtb cid c.sqHead adminQ status 0 0 s.queues.admin.phase) ∈
      (postCompletion s adminQ cid status result).out := by
  obtain ⟨r, hr, -⟩ := out_postRecord c status result 0 0 (queueOf_admin s) hw hl
  rw [postCompletion_of_running status result hc, hr, ← cid_of_runningCmd hc]
  simp [postedEntry]

theorem find_removeFirst {α : Type} (p r : α → Bool) (l : List α) (a : α) (hr : l.find? r = some a) (hp : p a = false) :
    (removeFirst p l).find? r = some a := by
  induction l with
  | nil => simp at hr
  | cons b l ih =>
    by_cases hb : r b = true
    · rw [List.find?_cons_of_pos hb] at hr
      obtain rfl := Option.some.inj hr
      simp [removeFirst, hp, List.find?_cons_of_pos hb]
    · rw [List.find?_cons_of_neg hb] at hr
      unfold removeFirst
      split
      · exact hr
      · rw [List.find?_cons_of_neg hb]
        exact ih hr

/-- After one completion of a queue another command of it still runs. -/
theorem runningCmd_postRecord {k : Nat} (status result nacc ndiff : Nat) (hu : queueOf s q = some u)
    (hw : queueWrites s q = true) (hl : s.link.degraded = false) (hd : runningCmd s q k = some d) (hne : c.seq ≠ d.seq) :
    runningCmd (postRecord s q c status result nacc ndiff) q k = some d := by
  obtain ⟨n, o, hpost⟩ := queueOf_postRecord c status result nacc ndiff hu hw hl
  simp only [runningCmd, hu] at hd
  simp only [runningCmd, hpost, bumpCqTail_eq, withoutCmd]
  exact find_removeFirst _ _ _ _ hd (by simpa using Ne.symm hne)

theorem startTest_of_free {extended : Bool} (ht : cmdTest c = if extended then 2 else 1) (h : s.health.selfTest = none) :
    startTest s c extended = { startCmd s adminQ c with
      health := { (startCmd s adminQ c).health with
        selfTest := some { cid := c.cid, extended := extended, start := now (startCmd s adminQ c) } } } := by
  simp [startTest, ht, h, startCmd, updQueue, now]

theorem startTest_of_running {extended : Bool} (ht : cmdTest c = if extended then 2 else 1) (h : s.health.selfTest ≠ none) :
    startTest s c extended = endCmd s adminQ c stInProgress 0 := by
  simp [startTest, ht, Option.isSome_iff_ne_none.mpr h]

/-- What a SELF_TEST_STOP of a served command does. -/
def stopTest (cid : Nat) (s : State) (c : Cmd) : State :=
  if cmdTest c != 3 then (if cmdTest c == 0 then endCmd s adminQ c stInvalidField 0 else s)
  else
    match s.health.selfTest with
    | none => endCmd (bumpFree s) adminQ c ((freshValue s).toNat % 65536) 0
    | some t =>
      if t.stopCid.isSome then endCmd s adminQ c stInProgress 0
      else
        let s1 := startCmd s adminQ c
        { s1 with health := { s1.health with selfTest := some { t with stopCid := some cid } } }

theorem stopTest_of_running (ht : cmdTest c = 3) (hx : s.health.selfTest = some x) (hs : x.stopCid = none) :
    stopTest cid s c = { startCmd s adminQ c with
      health := { (startCmd s adminQ c).health with selfTest := some { x with stopCid := some cid } } } := by
  simp [stopTest, ht, hx, hs]

theorem stopTest_of_stopped (ht : cmdTest c = 3) (hx : s.health.selfTest = some x) (hs : x.stopCid ≠ none) :
    stopTest cid s c = endCmd s adminQ c stInProgress 0 := by
  simp [stopTest, ht, hx, Option.isSome_iff_ne_none.mpr hs]

/-- The end of a test with its record written to the host. -/
def testWritten (s : State) (x : SelfTest) (fs : List (BitVec 512)) (items y : Nat) : State :=
  emit { s with health := { s.health with selfTest := none } } (.hostWrite adminQ x.cid (testRecord x (now s) fs items y))

/-- The completion of the test's command. -/
def testEnded (s : State) (x : SelfTest) (fs : List (BitVec 512)) (items y : Nat) : State :=
  postCompletion (testWritten s x fs items y) adminQ x.cid (if fs = [] then stOk else stTestFail) fs.length

/-- The completion of the command that stopped the test, if one did. -/
def stopEnded (s : State) (x : SelfTest) : State :=
  match x.stopCid with
  | some k => postCompletion s adminQ k stOk 0
  | none => s

theorem stopEnded_of_some {k : Nat} (h : x.stopCid = some k) : stopEnded s x = postCompletion s adminQ k stOk 0 := by
  simp [stopEnded, h]

theorem out_prefix_stopEnded (s : State) (x : SelfTest) : s.out <+: (stopEnded s x).out := by
  unfold stopEnded
  split
  · exact out_prefix_completion ..
  · exact List.prefix_refl _

theorem stopEnded_frame (s : State) (x : SelfTest) :
    stopEnded s x = { s with queues := (stopEnded s x).queues, out := (stopEnded s x).out } := by
  unfold stopEnded
  split
  · exact postCompletion_frame ..
  · rfl

theorem execSelfTestDone_of_test (fs : List (BitVec 512)) (items y : Nat) (h : s.health.selfTest = some x) :
    execSelfTestDone fs items y s = .next (stopEnded (testEnded s x fs items y) x) := by
  simp only [execSelfTestDone, h, stopEnded, beq_iff_eq]
  cases x.stopCid <;> rfl

theorem testEnded_of_running (fs : List (BitVec 512)) (items y : Nat) (hc : runningCmd s adminQ x.cid = some c) :
    testEnded s x fs items y = postRecord (testWritten s x fs items y) adminQ c (if fs = [] then stOk else stTestFail) fs.length 0 0 :=
  postCompletion_of_running (s := testWritten s x fs items y) _ _ hc

/-- The entry of the test's own command. -/
theorem entry_mem_testEnded (fs : List (BitVec 512)) (items y : Nat) (hc : runningCmd s adminQ x.cid = some c)
    (hw : queueWrites s adminQ = true) (hl : s.link.degraded = false) :
    .completion adminQ s.queues.admin.cqTail (completionEntry fs.length s.time.dtb x.cid c.sqHead adminQ
      (if fs = [] then stOk else stTestFail) 0 0 s.queues.admin.phase) ∈ (testEnded s x fs items y).out := by
  have h := entry_mem_postCompletion (s := testWritten s x fs items y) (if fs = [] then stOk else stTestFail) fs.length hc hw hl
  have hq : (testWritten s x fs items y).queues = s.queues := rfl
  have ht : (testWritten s x fs items y).time = s.time := rfl
  rwa [hq, ht] at h

/-- The admin queue after the test's command completed, its completion tail short of the wrap. -/
theorem admin_testEnded (fs : List (BitVec 512)) (items y : Nat) (hc : runningCmd s adminQ x.cid = some c)
    (hw : queueWrites s adminQ = true) (hl : s.link.degraded = false) (ht : s.queues.admin.cqTail + 1 < s.queues.admin.cqDepth) :
    (testEnded s x fs items y).queues.admin.cqTail = s.queues.admin.cqTail + 1 ∧
      (testEnded s x fs items y).queues.admin.phase = s.queues.admin.phase := by
  obtain ⟨n, o, h⟩ := queueOf_postRecord (s := testWritten s x fs items y) (u := s.queues.admin) c
    (if fs = [] then stOk else stTestFail) fs.length 0 0 rfl hw hl
  rw [← testEnded_of_running fs items y hc, queueOf_admin, Option.some.injEq] at h
  rw [h, bumpCqTail_eq]
  simp [withoutCmd, ht]

/-- Settles O40: a start and a stop by whether a test runs and is stopped already; the end by its two completions in turn. -/
theorem selfTestRows : Obligations.SelfTestRows := by
  have hadmin : ∀ (s : State) (c : Cmd), (startCmd s adminQ c).queues.pairs = s.queues.pairs := fun s c => rfl
  refine ⟨fun s cid c h ht hx => ?_, fun s cid c h ht hx => ?_, fun s cid c x h ht hx hs => ?_, fun s fs items y x hx => ?_,
    fun s fs items y x c hx hc hw hl => ?_, fun s fs items y k x d hx hk hc hd hw hl => ?_,
    fun s fs items y k x c d hx hk hc hd hne hseq hw hl ht => ?_, fun s cid c h ht hx => ?_, fun s cid c h ht hx => ?_,
    fun s cid c x h ht hx hs => ?_⟩
  · exact ⟨_, congrArg Host.Outcome.next ((withAdmin_of_adminTakes h _).trans (startTest_of_free (extended := false) ht hx)),
      rfl, hadmin s c⟩
  · exact ⟨_, congrArg Host.Outcome.next ((withAdmin_of_adminTakes h _).trans (startTest_of_free (extended := true) ht hx)),
      rfl, hadmin s c⟩
  · exact ⟨_, congrArg Host.Outcome.next ((withAdmin_of_adminTakes h (stopTest cid)).trans (stopTest_of_running ht hx hs)), rfl⟩
  · obtain ⟨r, hr⟩ := (out_prefix_completion (testWritten s x fs items y) adminQ x.cid (if fs = [] then stOk else stTestFail)
      fs.length).trans (out_prefix_stopEnded (testEnded s x fs items y) x)
    refine ⟨_, r, execSelfTestDone_of_test fs items y hx, ?_, ?_, length_padTo _ _, ?_⟩
    · rw [stopEnded_frame, testEnded, postCompletion_frame]; rfl
    · rw [← hr]; simp [testWritten, emit, now]
    · rw [stopEnded_frame, testEnded, postCompletion_frame]; rfl
  · exact ⟨_, execSelfTestDone_of_test fs items y hx,
      (out_prefix_stopEnded _ _).subset (entry_mem_testEnded fs items y hc hw hl)⟩
  · refine ⟨_, execSelfTestDone_of_test fs items y hx, ?_⟩
    rw [stopEnded_of_some hk, testEnded, postCompletion_of_none (s := testWritten s x fs items y) (q := adminQ) (cid := x.cid) _ _ hc]
    exact entry_mem_postCompletion (s := testWritten s x fs items y) stOk 0 hd hw hl
  · refine ⟨_, execSelfTestDone_of_test fs items y hx, ?_⟩
    have hrun := testEnded_of_running fs items y hc
    have hd' : runningCmd (testEnded s x fs items y) adminQ k = some d := by
      rw [hrun]
      exact runningCmd_postRecord (s := testWritten s x fs items y) _ _ _ _ (queueOf_admin _) hw hl hd hseq
    have hw' : queueWrites (testEnded s x fs items y) adminQ = true := by
      rw [hrun, queueWrites_postRecord]; exact hw
    have hl' : (testEnded s x fs items y).link.degraded = false := by rw [hrun, postRecord_frame]; exact hl
    have htime : (testEnded s x fs items y).time = s.time := by rw [hrun, postRecord_frame]; rfl
    obtain ⟨htail, hphase⟩ := admin_testEnded fs items y hc hw hl ht
    have hentry := entry_mem_postCompletion stOk 0 hd' hw' hl'
    rwa [htail, hphase, htime, ← stopEnded_of_some hk] at hentry
  · exact congrArg Host.Outcome.next ((withAdmin_of_adminTakes h _).trans (startTest_of_running (extended := false) ht hx))
  · exact congrArg Host.Outcome.next ((withAdmin_of_adminTakes h _).trans (startTest_of_running (extended := true) ht hx))
  · exact congrArg Host.Outcome.next ((withAdmin_of_adminTakes h (stopTest cid)).trans (stopTest_of_stopped ht hx hs))

end Sys2Proof.Machine

/-! SUPPORT. Power domains: timers, entries, wakes and comparators (R337 to R354). -/

namespace Sys2Proof.Machine

open Sys2Proof

variable {s u : State} {n m source k : Nat} {d : Domain}

theorem domainAt_setDomain_num (hd : d.num = n) : domainAt (setDomain s d) n = d := by
  subst hd
  exact domainAt_setDomain_same s d

theorem domainAt_congr (h : u.power.domains = s.power.domains) (m : Nat) : domainAt u m = domainAt s m := by
  unfold domainAt; rw [h]

/-- What the entry of a domain changes: the power section and MGMT's comparator. -/
theorem beginEntry_frame (s : State) (n k : Nat) :
    beginEntry s n k = { s with power := (beginEntry s n k).power, time := (beginEntry s n k).time } := by
  unfold beginEntry
  dsimp only
  split <;> rfl

theorem beginEntry_dtb (s : State) (n k : Nat) : (beginEntry s n k).time.dtb = s.time.dtb := by
  unfold beginEntry
  dsimp only
  split <;> rfl

theorem domainAt_beginEntry (s : State) (n k m : Nat) : domainAt (beginEntry s n k) m =
    domainAt (setDomain s { domainAt s n with state := .entering k, entryAt := now s, edge := none }) m := by
  unfold beginEntry
  dsimp only
  split <;> rfl

theorem domainAt_beginEntry_same (s : State) (n k : Nat) : domainAt (beginEntry s n k) n =
    { domainAt s n with state := .entering k, entryAt := now s, edge := none } := by
  rw [domainAt_beginEntry]
  exact domainAt_setDomain_num (num_domainAt s n)

theorem domainAt_beginEntry_other (s : State) (k : Nat) (h : m ≠ n) : domainAt (beginEntry s n k) m = domainAt s m := by
  rw [domainAt_beginEntry]
  exact domainAt_setDomain_other _ _ _ (by simpa [num_domainAt] using h)

/-- The module when the timer of a domain has expired, its entry into `depth` due. -/
def dueAt (s : State) (n us depth : Nat) : State :=
  setDomain (advanceTo s ((domainAt s n).idleSince.getD (now s) + 1000 * us)) { domainAt s n with
    idleSince := some ((domainAt s n).idleSince.getD (now s)), due := max (domainAt s n).due depth }

theorem dueAt_frame (s : State) (n us depth : Nat) : dueAt s n us depth =
    { s with power := (dueAt s n us depth).power, time := (dueAt s n us depth).time } := rfl

theorem domainAt_dueAt_same (s : State) (n us depth : Nat) : domainAt (dueAt s n us depth) n = { domainAt s n with
    idleSince := some ((domainAt s n).idleSince.getD (now s)), due := max (domainAt s n).due depth } :=
  domainAt_setDomain_num (num_domainAt s n)

theorem domainAt_dueAt_other (us depth : Nat) (h : m ≠ n) : domainAt (dueAt s n us depth) m = domainAt s m :=
  domainAt_setDomain_other _ _ _ (by simpa [num_domainAt] using h)

theorem dueAt_dtb (s : State) (n us depth : Nat) :
    (dueAt s n us depth).time.dtb = max s.time.dtb ((domainAt s n).idleSince.getD s.time.dtb + 1000 * us) := rfl

/-- The timer of an idle domain expires without a latch: its entry is due. -/
theorem timerExpires_due {us depth : Nat} (hus : us ≠ 0) (hs : supplied s n = true) (hn : n < 196) (hi : domainIdle s n = true)
    (hl : (domainAt s n).latches = []) (hh : levelHeld s n = false) :
    timerExpires s n us depth = enterDue (dueAt s n us depth) n := by
  have hd : ∀ t, domainAt (advanceTo s t) n = domainAt s n := fun _ => rfl
  have hheld : ∀ t, levelHeld (advanceTo s t) n = levelHeld s n := fun _ => rfl
  simp [timerExpires, hus, hs, hn, hi, hd, hheld, hl, hh, dueAt]

theorem timerExpires_latched {us depth : Nat} (hus : us ≠ 0) (hs : supplied s n = true) (hn : n < 196)
    (hi : domainIdle s n = true) (hl : (domainAt s n).latches ≠ [] ∨ levelHeld s n = true) :
    timerExpires s n us depth = setDomain (advanceTo s ((domainAt s n).idleSince.getD (now s) + 1000 * us))
      { domainAt s n with idleSince := none, due := 0 } := by
  have hd : ∀ t, domainAt (advanceTo s t) n = domainAt s n := fun _ => rfl
  have hheld : ∀ t, levelHeld (advanceTo s t) n = levelHeld s n := fun _ => rfl
  simp only [timerExpires, hd, hheld]
  rw [if_neg (by simp [hus, hs, hn, hi]), if_pos (by simpa using hl)]

theorem mem_dependents_ne (h : k ∈ dependents s n) : k ≠ n := by
  unfold dependents at h
  split at h
  · rename_i hn
    simp only [beq_iff_eq] at hn
    simp only [List.mem_append, List.mem_cons, List.not_mem_nil, or_false, List.mem_map, List.mem_range, arrayDomain, flgDomain] at h
    omega
  · split at h
    · rename_i h3 _
      simp only [List.mem_singleton] at h
      simp only [beq_iff_eq] at h3
      omega
    · simp at h

/-- Where a domain's entry is due its dependents and cap are what they were. -/
theorem dependents_dueAt (s : State) (n us depth : Nat) : dependents (dueAt s n us depth) n = dependents s n := by
  unfold dependents
  split
  · rfl
  · rename_i h3
    simp only [beq_iff_eq] at h3
    rw [domainAt_dueAt_other us depth (Ne.symm h3)]

theorem depthCap_congr (p : PowerState) (t : TimeState) (n : Nat) :
    depthCap { s with power := p, time := t } n = depthCap s n := rfl

theorem offAllowed_congr (p : PowerState) (t : TimeState) (n : Nat) :
    offAllowed { s with power := p, time := t } n = offAllowed s n := rfl

theorem depthCap_dueAt (s : State) (n us depth : Nat) : depthCap (dueAt s n us depth) n = depthCap s n := depthCap_congr _ _ n

theorem retentionOpen_dueAt {us depth : Nat} (hon : (domainAt s n).state = .on) (hc : 1 ≤ depthCap s n)
    (hdep : ∀ d ∈ dependents s n, (domainAt s d).state = .retention ∨ (domainAt s d).state = .off) :
    retentionOpen (dueAt s n us depth) n = true := by
  have hall : ∀ d ∈ dependents s n, (domainAt (dueAt s n us depth) d).state = .retention ∨
      (domainAt (dueAt s n us depth) d).state = .off := fun d hd => by
    rw [domainAt_dueAt_other us depth (mem_dependents_ne hd)]
    exact hdep d hd
  simp [retentionOpen, domainAt_dueAt_same, hon, depthCap_dueAt, hc, dependents_dueAt]
  exact hall

theorem offOpen_dueAt {us depth : Nat} (hon : (domainAt s n).state = .on ∨ (domainAt s n).state = .retention)
    (hc : 2 ≤ depthCap s n) (ho : offAllowed s n = true) (hdep : ∀ d ∈ dependents s n, (domainAt s d).state = .off) :
    offOpen (dueAt s n us depth) n = true := by
  have hall : ∀ d ∈ dependents s n, (domainAt (dueAt s n us depth) d).state = .off := fun d hd => by
    rw [domainAt_dueAt_other us depth (mem_dependents_ne hd)]
    exact hdep d hd
  have hallowed : offAllowed (dueAt s n us depth) n = true := (offAllowed_congr _ _ n).trans ho
  simp [offOpen, domainAt_dueAt_same, hon, depthCap_dueAt, hc, dependents_dueAt, hallowed]
  exact hall

/-- The entry that a timer's expiry begins: its tick, its state and the other domains. -/
theorem beginEntry_dueAt (s : State) (n us depth k : Nat) :
    let t := beginEntry (setDomain (dueAt s n us depth) { domainAt (dueAt s n us depth) n with due := 0 }) n k
    t = { s with power := t.power, time := t.time } ∧ (domainAt t n).state = .entering k ∧
      (domainAt t n).entryAt = t.time.dtb ∧
      t.time.dtb = max s.time.dtb ((domainAt s n).idleSince.getD s.time.dtb + 1000 * us) ∧
      ∀ m, m ≠ n → domainAt t m = domainAt s m := by
  intro t
  have hsame := domainAt_beginEntry_same
    (setDomain (dueAt s n us depth) { domainAt (dueAt s n us depth) n with due := 0 }) n k
  have hdtb : t.time.dtb = (dueAt s n us depth).time.dtb := beginEntry_dtb ..
  refine ⟨?_, congrArg Domain.state hsame, (congrArg Domain.entryAt hsame).trans hdtb.symm, hdtb.trans (dueAt_dtb ..),
    fun m hm => ?_⟩
  · exact (beginEntry_frame ..).trans rfl
  · rw [domainAt_beginEntry_other _ _ hm, domainAt_setDomain_other _ _ _ (by simpa [num_domainAt] using hm),
      domainAt_dueAt_other us depth hm]

theorem enterDue_retention {us : Nat} (hdue : (domainAt s n).due = 0) (hopen : retentionOpen (dueAt s n us 1) n = true) :
    enterDue (dueAt s n us 1) n =
      beginEntry (setDomain (dueAt s n us 1) { domainAt (dueAt s n us 1) n with due := 0 }) n 1 := by
  have h1 : (domainAt (dueAt s n us 1) n).due = 1 := by rw [domainAt_dueAt_same]; simp [hdue]
  simp [enterDue, h1, hopen]

theorem enterDue_off {us : Nat} (hdue : (domainAt s n).due ≤ 2) (hopen : offOpen (dueAt s n us 2) n = true) :
    enterDue (dueAt s n us 2) n =
      beginEntry (setDomain (dueAt s n us 2) { domainAt (dueAt s n us 2) n with due := 0 }) n 2 := by
  have h2 : (domainAt (dueAt s n us 2) n).due = 2 := by rw [domainAt_dueAt_same]; exact max_eq_right hdue
  simp [enterDue, h2, hopen]

theorem execDomainTimerRet_of_on (h : (domainAt s n).state = .on) :
    execDomainTimerRet n s = .next (timerExpires s n (timerRet s n) 1) := by simp [execDomainTimerRet, h]

theorem execDomainTimerOff_of_on (h : (domainAt s n).state = .on ∨ (domainAt s n).state = .retention) :
    execDomainTimerOff n s = .next (timerExpires s n (timerOff s n) 2) := by
  rcases h with h | h <;> simp [execDomainTimerOff, h]

/-- The module at the end of an entry that no latch and no edge cuts short. -/
theorem execDomainEntryDone_quiet {t : Nat} (hs : (domainAt s n).state = .entering t) (hl : (domainAt s n).latches = [])
    (he : (domainAt s n).edge = none) : execDomainEntryDone n s = .next (refreshReady
      (if t == 2 then loseOff (setDomain (advanceTo s ((domainAt s n).entryAt + (if t == 2 then entryToOff n else entryToRet n)))
          { domainAt s n with state := if t == 2 then .off else .retention, edge := none }) n
        else setDomain (advanceTo s ((domainAt s n).entryAt + (if t == 2 then entryToOff n else entryToRet n)))
          { domainAt s n with state := if t == 2 then .off else .retention, edge := none })) := by
  simp [execDomainEntryDone, hs, hl, he]

theorem domainAt_refreshReady (s : State) (n : Nat) : domainAt (refreshReady s) n = domainAt s n := rfl

theorem memRead_memClear (l : List Host.Cell) (a n i : Nat) (hlo : a ≤ i) (hhi : i < a + n) : memRead (memClear l a n) i = 0 := by
  induction l with
  | nil => rfl
  | cons c l ih =>
    unfold memClear at ih ⊢
    by_cases hc : c.1 < a ∨ a + n ≤ c.1
    · rw [List.filter_cons_of_pos (by simpa using hc)]
      have hne : (c.1 == i) = false := by simp; omega
      simp only [memRead, hne]
      exact ih
    · rw [List.filter_cons_of_neg (by simpa using hc)]
      exact ih

end Sys2Proof.Machine

/-! SUPPORT. Wakes of power domains (R341 to R348). -/

namespace Sys2Proof.Machine

open Sys2Proof

variable {s u : State} {n m source k : Nat} {d : Domain}

/-- A wake asks its own domain alone. -/
theorem domainAt_wakeOne_other (s : State) (source : Nat) (h : m ≠ n) : domainAt (wakeOne s n source) m = domainAt s m := by
  have hset : ∀ e : Domain, e.num = n → domainAt (setDomain s e) m = domainAt s m := fun e he =>
    domainAt_setDomain_other _ _ _ (by rw [he]; exact h)
  have hnum := num_domainAt s n
  unfold wakeOne
  dsimp only
  split
  · exact hset _ hnum
  · exact hset _ hnum
  · split
    · split
      · exact hset _ hnum
      · rfl
    · exact hset _ hnum
  · split
    · exact hset _ hnum
    · rfl
  · split
    · exact hset _ hnum
    · rfl

theorem domainAt_foldl_wakeOne (f : Nat → Nat) (source : Nat) (l : List Nat) (s : State) (h : ∀ p ∈ l, n ≠ f p) :
    domainAt (l.foldl (fun st p => wakeOne st (f p) source) s) n = domainAt s n := by
  induction l generalizing s with
  | nil => rfl
  | cons p l ih =>
    rw [List.foldl_cons, ih _ (fun q hq => h q (List.mem_cons_of_mem _ hq)), domainAt_wakeOne_other _ _ (h p List.mem_cons_self)]

/-- The controllers that FAB's start needs, FAB off. -/
def wakeControllers (s : State) : State :=
  if wakesFromOff s 3 then (List.range 16).foldl (fun st p => wakeOne st (lpcDomain p) 0x08) s else s

theorem wakeControllers_frame (s : State) : wakeControllers s = { s with power := (wakeControllers s).power } := by
  unfold wakeControllers
  split
  · exact foldl_power _ (fun s p => wakeOne_frame s (lpcDomain p) _) _ _
  · rfl

theorem domainAt_wakeControllers (h : n < 164 ∨ 180 ≤ n) : domainAt (wakeControllers s) n = domainAt s n := by
  unfold wakeControllers
  split
  · exact domainAt_foldl_wakeOne _ _ _ _ (fun p hp => by
      simp only [List.mem_range] at hp
      unfold lpcDomain
      omega)
  · rfl

theorem startWake_fab (s : State) (source : Nat) : startWake s 3 source = wakeOne (wakeControllers s) 3 source := (rfl)

theorem startWake_of_ne (h : n ≠ 3) (source : Nat) : startWake s n source =
    wakeOne (if dependsOn n == [] then s else wakeOne (wakeControllers s) 3 0x08) n source := by
  have hn : (n == 3) = false := by simpa using h
  simp only [startWake, hn]
  rfl

theorem domKind_of_ge (h : 4 ≤ n) : domKind n = if n < 164 then .array else if n < 180 then .lpc else .flg := by
  unfold domKind
  rw [if_neg (by simp; omega), if_neg (by simp; omega), if_neg (by simp; omega), if_neg (by simp; omega)]

theorem dependsOn_controller (h : 164 ≤ n) (h' : n < 180) : dependsOn n = [] := by
  have hk : domKind n = .lpc := by rw [domKind_of_ge (by omega), if_neg (by omega), if_pos h']
  simp [dependsOn, hk]

/-- Before its own wake a domain stands as it stood, the time too. -/
theorem exists_wakeOne_startWake (s : State) (n source : Nat) : ∃ v : State, domainAt v n = domainAt s n ∧ now v = now s ∧
    startWake s n source = wakeOne v n source := by
  have hnow : now (wakeControllers s) = now s := by rw [wakeControllers_frame]; rfl
  by_cases h3 : n = 3
  · subst h3
    exact ⟨wakeControllers s, domainAt_wakeControllers (.inl (by decide)), hnow, startWake_fab s source⟩
  · rw [startWake_of_ne h3]
    by_cases hd : dependsOn n = []
    · exact ⟨s, rfl, rfl, by simp [hd]⟩
    · have hrange : n < 164 ∨ 180 ≤ n := by
        by_contra hn
        exact hd (dependsOn_controller (by omega) (by omega))
      refine ⟨wakeOne (wakeControllers s) 3 0x08, ?_, ?_, by simp [hd]⟩
      · rw [domainAt_wakeOne_other _ _ h3, domainAt_wakeControllers hrange]
      · rw [wakeOne_frame]; exact hnow

theorem domainAt_wakeOne_asleep (source : Nat) (h : (domainAt s n).state = .off ∨ (domainAt s n).state = .retention) :
    (domainAt (wakeOne s n source) n).state = .waking ∧ (domainAt (wakeOne s n source) n).lastWake = source ∧
      (domainAt (wakeOne s n source) n).lastWakeDtb = now s := by
  have hset : wakeOne s n source = setDomain s { domainAt s n with
      state := .waking, lastWake := source, lastWakeDtb := now s, fromOff := (domainAt s n).state == .off, idleSince := none,
      due := 0 } := by
    rcases h with h | h <;> simp [wakeOne, h]
  rw [hset, domainAt_setDomain_num (by exact num_domainAt s n)]
  exact ⟨rfl, rfl, rfl⟩

theorem domainAt_startWake_asleep (source : Nat) (h : (domainAt s n).state = .off ∨ (domainAt s n).state = .retention) :
    (domainAt (startWake s n source) n).state = .waking ∧ (domainAt (startWake s n source) n).lastWake = source ∧
      (domainAt (startWake s n source) n).lastWakeDtb = now s := by
  obtain ⟨v, hv, hnow, e⟩ := exists_wakeOne_startWake s n source
  rw [e, ← hnow]
  exact domainAt_wakeOne_asleep source (by rwa [hv])

theorem execDomainWake_of_source (hs : supplied s n = true) (hn : n < 196) (hw : sourceWakes s source n = true) :
    execDomainWake n source s = .next (startWake s n source) := by simp [execDomainWake, hs, hn, hw]

/-! What a domain does when it is on leaves its own state. -/

theorem foldl_power_same {α : Type} (f : State → α → State) (hf : ∀ s a, (f s a).power = s.power) (l : List α) (s : State) :
    (l.foldl f s).power = s.power := by
  induction l generalizing s with
  | nil => rfl
  | cons a l ih => rw [List.foldl_cons, ih, hf]

theorem releaseHeld_power (s : State) (f : Cmd → Cmd) : (releaseHeld s f).power = s.power := by
  unfold releaseHeld
  dsimp only
  rw [foldl_power_same]
  · rw [updQueue_frame]
  · intro s c
    rw [postCompletion_frame]

theorem releaseWakeWaits_power (s : State) (n : Nat) : (releaseWakeWaits s n).power = s.power := by
  unfold releaseWakeWaits
  exact releaseHeld_power _ _

theorem startController_power (s : State) (p : Nat) : (startController s p).power = s.power := by
  unfold startController poisonJournal
  dsimp only
  rw [foldl_power_same]
  · rfl
  · intro s d
    unfold refreshPoison updFrame
    dsimp only
    split
    · rfl
    · rw [setFrame_frame]

theorem logError_power (s : State) (cls unit detail : Nat) (ctx : Option (Nat × Nat)) :
    (logError s cls unit detail ctx).power = s.power := by rw [logError_frame]

/-- Firmware that serves again logs the trips that wait; MGMT's domain is on and its latches are taken. -/
theorem domainAt_serveMgmt (s : State) : domainAt (serveMgmt s) 0 =
    { domainAt s 0 with state := .on, latches := [], edge := none } := by
  have hlog : domainAt (s.power.toLog.foldl (fun st e => logError st errComparator e.1 e.2) s) 0 = domainAt s 0 :=
    domainAt_congr (by rw [foldl_power_same _ (fun s e => logError_power s _ _ _ _)]) 0
  unfold serveMgmt
  rw [← hlog]
  exact domainAt_setDomain_num (num_domainAt _ 0)

/-- A domain taken on: what it does then leaves it on, with no latch and no edge. -/
theorem takeWake_stays_on (hp : s.sec.pufOk = true) (hd : (domainAt s n).state = .on ∧ (domainAt s n).latches = [] ∧
    (domainAt s n).edge = none) : (domainAt (takeWake s n) n).state = .on ∧ (domainAt (takeWake s n) n).latches = [] ∧
      (domainAt (takeWake s n) n).edge = none := by
  unfold takeWake
  split
  · exact hd
  · rw [domainAt_congr (congrArg PowerState.domains (startController_power s _))]; exact hd
  · rw [if_pos hp]; exact hd
  · rename_i hk
    have h0 : n = 0 := by
      unfold domKind at hk
      by_contra hn
      simp only [beq_iff_eq, hn, if_false] at hk
      (repeat' split at hk) <;> exact absurd hk (by decide)
    subst h0
    dsimp only
    split
    · rw [domainAt_serveMgmt]; exact ⟨rfl, rfl, rfl⟩
    · exact hd
  · exact hd

theorem takeWake_cxl (s : State) : (takeWake s 2).power.doorbellLatch = none := rfl

/-- A woken domain that is on, its latches and its edge taken. -/
def taken (s : State) (n : Nat) : State := setDomain s { domainAt s n with state := .on, latches := [], edge := none }

theorem domainAt_taken (s : State) (n : Nat) :
    domainAt (taken s n) n = { domainAt s n with state := .on, latches := [], edge := none } :=
  domainAt_setDomain_num (num_domainAt s n)

theorem execDomainWakeDone_of_ready (hw : (domainAt s n).state = .waking) (hdep : ∀ m ∈ dependsOn n, (domainAt s m).state = .on)
    (hfab : n = 3 → (domainAt s n).fromOff = true → ∀ p, p < 16 → (domainAt s (lpcDomain p)).state = .on)
    (hs : supplied s n = true) : execDomainWakeDone n s = .next
      (releaseWakeWaits (takeWake (taken s n) n) n) := by
  have hany : ((dependsOn n).any (fun m => (domainAt s m).state != .on)) = false := by
    rw [List.any_eq_false]
    exact fun m hm => by simp [hdep m hm]
  have hlpc : (n == 3 && (domainAt s n).fromOff && (List.range 16).any (fun p => (domainAt s (lpcDomain p)).state != .on)) = false := by
    by_cases h3 : n = 3 ∧ (domainAt s n).fromOff = true
    · rw [Bool.and_eq_false_iff]
      refine .inr (List.any_eq_false.mpr fun p hp => ?_)
      simp [hfab h3.1 h3.2 p (List.mem_range.mp hp)]
    · rw [Bool.and_eq_false_iff]
      refine .inl ?_
      rw [Bool.and_eq_false_iff]
      rw [Decidable.not_and_iff_or_not] at h3
      exact h3.imp (by simp) (by simp)
  simp [execDomainWakeDone, hw, hany, hlpc, hs, taken]

theorem lookupKey_dropKey_same {α : Type} (l : List (Nat × α)) (i : Nat) : lookupKey (dropKey l i) i = none := by
  induction l with
  | nil => rfl
  | cons e l ih =>
    unfold dropKey at ih ⊢
    by_cases he : e.1 = i
    · rw [List.filter_cons_of_neg (by simpa using he)]
      exact ih
    · rw [List.filter_cons_of_pos (by simpa using he)]
      simpa [lookupKey, he] using ih

/-- The sill once a comparator has expired. -/
def comparatorExpired (s : State) (i d : Nat) : State :=
  { advanceTo s d with time := { (advanceTo s d).time with comparators := dropKey s.time.comparators i } }

theorem execDtbComparator_of_set {i d : Nat} (h : lookupKey s.time.comparators i = some (n, d)) : execDtbComparator i s = .next
    (if supplied s n then startWake (comparatorExpired s i d) n 0x04 else comparatorExpired s i d) := by
  unfold execDtbComparator
  simp only [h]
  rfl

theorem tickDomain_starts (hon : (domainAt s n).state = .on) (hs : supplied s n = true) (hi : domainIdle s n = true)
    (h0 : (domainAt s n).idleSince = none) (hd : (domainAt s n).due = 0) :
    tickDomain s n = setDomain s { domainAt s n with idleSince := some s.time.dtb } := by
  simp [tickDomain, hon, hs, hi, h0, hd, now]

theorem tickDomain_active (hon : (domainAt s n).state = .on) (hs : supplied s n = true) (hi : domainIdle s n = false) :
    tickDomain s n = if (domainAt s n).idleSince.isSome || (domainAt s n).due != 0 then
      setDomain s { domainAt s n with idleSince := none, due := 0 } else s := by
  simp [tickDomain, hon, hs, hi]

/-- A domain that has entered retention or off, `d` after its entry began. -/
def entered (s : State) (n d : Nat) (x : DomState) : State :=
  setDomain (advanceTo s ((domainAt s n).entryAt + d)) { domainAt s n with state := x, edge := none }

theorem domainAt_entered_same (s : State) (n d : Nat) (x : DomState) :
    domainAt (entered s n d x) n = { domainAt s n with state := x, edge := none } :=
  domainAt_setDomain_num (num_domainAt s n)

theorem domainAt_entered_other (s : State) (d : Nat) (x : DomState) (h : m ≠ n) : domainAt (entered s n d x) m = domainAt s m :=
  domainAt_setDomain_other _ _ _ (by simpa [num_domainAt] using h)

theorem loseOff_array {a : Nat} (s : State) (ha : a < 160) : loseOff s (arrayDomain a) = clearArray s a := by
  have hkind : domKind (arrayDomain a) = .array := by
    unfold arrayDomain
    rw [domKind_of_ge (by omega), if_pos (by omega)]
  have ha4 : arrayDomain a - 4 = a := by unfold arrayDomain; omega
  simp [loseOff, hkind, ha4]

/-- Settles O41: timers by the entry they make due, entries and wakes by the state of the domain, the tick by its idleness. -/
theorem domainRows : Obligations.DomainRows := by
  refine ⟨fun s n hn hs hi hl hh hon hdue ht hc hdep => ?_, fun s n hn hs hi hl hh hon ht hc ho hdue hdep => ?_,
    fun s n hn hs hi hon ht hl => ?_, fun s n hs hl he => ?_, fun s a ha hs hl he => ?_, fun s n source hs hn hw hd => ?_,
    fun s n hw hdep hfab hs hp => ?_, fun s i n d h => ?_, fun s hm hon => ?_, fun s n hon _ hs hi h0 hd => ?_,
    fun s n hon _ hs hi => ?_⟩
  · refine ⟨_, (execDomainTimerRet_of_on hon).trans (congrArg Host.Outcome.next ((timerExpires_due ht hs hn hi hl hh).trans
      (enterDue_retention hdue (retentionOpen_dueAt hon hc hdep)))), ?_⟩
    exact beginEntry_dueAt s n (timerRet s n) 1 1
  · refine ⟨_, (execDomainTimerOff_of_on hon).trans (congrArg Host.Outcome.next ((timerExpires_due ht hs hn hi hl hh).trans
      (enterDue_off hdue (offOpen_dueAt hon hc ho hdep)))), ?_⟩
    exact beginEntry_dueAt s n (timerOff s n) 2 2
  · exact ⟨_, (execDomainTimerRet_of_on hon).trans (congrArg Host.Outcome.next (timerExpires_latched ht hs hn hi hl)), rfl,
      domainAt_setDomain_num (num_domainAt s n), fun m hm => domainAt_setDomain_other _ _ _ (by simpa [num_domainAt] using hm)⟩
  · refine ⟨_, execDomainEntryDone_quiet hs hl he, rfl, ?_, Nat.le_max_right .., Nat.le_max_left .., rfl, rfl, fun m hm => ?_⟩
    · exact congrArg Domain.state (domainAt_entered_same s n _ .retention)
    · exact domainAt_entered_other s _ .retention hm
  · have ha4 : arrayDomain a - 4 = a := by unfold arrayDomain; omega
    refine ⟨_, (execDomainEntryDone_quiet hs hl he).trans
      (congrArg (fun v => Host.Outcome.next (refreshReady v)) (loseOff_array (entered s (arrayDomain a) _ .off) ha)),
      rfl, ?_, fun k hk => memRead_memClear _ _ _ _ (by omega) (by omega), rfl⟩
    exact congrArg Domain.state (domainAt_entered_same s (arrayDomain a) _ .off)
  · exact ⟨_, execDomainWake_of_source hs hn hw, startWake_frame s n source, domainAt_startWake_asleep source hd⟩
  · obtain ⟨hon, hlatch, hedge⟩ := takeWake_stays_on (n := n)
      (s := taken s n) hp (by rw [domainAt_taken]; exact ⟨rfl, rfl, rfl⟩)
    have hpower := releaseWakeWaits_power (takeWake (taken s n) n) n
    refine ⟨_, execDomainWakeDone_of_ready hw hdep hfab hs, ?_⟩
    rw [domainAt_congr (congrArg PowerState.domains hpower), hpower]
    exact ⟨hon, hlatch, hedge, fun h2 => by subst h2; exact takeWake_cxl _⟩
  · refine ⟨_, execDtbComparator_of_set h, ?_⟩
    have hdrop := lookupKey_dropKey_same s.time.comparators i
    by_cases hs : supplied s n = true
    · rw [if_pos hs, startWake_frame]
      refine ⟨rfl, rfl, hdrop, fun _ hoff => ?_⟩
      obtain ⟨hstate, hlast, -⟩ := domainAt_startWake_asleep (s := comparatorExpired s i d) 0x04 (.inl hoff)
      exact ⟨hstate, hlast⟩
    · rw [if_neg hs]
      exact ⟨rfl, rfl, hdrop, fun h => absurd h hs⟩
  · simp [Machine.exec, execMgmtPllLock, hm, hon]
  · exact tickDomain_starts hon hs hi h0 hd
  · rw [tickDomain_active hon hs hi]
    split
    · exact .inr rfl
    · rename_i h
      exact .inl ⟨rfl, by simpa using h⟩

end Sys2Proof.Machine

/-! SUPPORT. What the serving of pages leaves: outside the tiers, the link, the outputs, the domains that wake and the free values, it
changes nothing (R221 to R226, R246). -/

namespace Sys2Proof.Machine

open Sys2Proof

variable {s t : State}

/-- The part of the module that the serving of pages leaves. -/
def pagingRest (s : State) :=
  (s.pending, s.time, s.pins, s.queues, s.indexes, s.bay, s.adm, s.rime, s.cells, s.health, s.dict, s.sb, s.sec, s.tap, s.power.tripped)

theorem eq_of_pagingRest (h : pagingRest t = pagingRest s) : t = { s with
    free := t.free, out := t.out, link := t.link, tier := t.tier, power := t.power } ∧ t.power.tripped = s.power.tripped := by
  obtain ⟨⟩ := s
  obtain ⟨⟩ := t
  simp only [pagingRest, Prod.mk.injEq] at h
  simp [h]

theorem pagingRest_foldl {α : Type} (f : State → α → State) (h : ∀ s a, pagingRest (f s a) = pagingRest s) (l : List α) (s : State) :
    pagingRest (l.foldl f s) = pagingRest s := by
  induction l generalizing s with
  | nil => rfl
  | cons a l ih => rw [List.foldl_cons, ih, h]

@[simp] theorem pagingRest_tier (x : TierState) : pagingRest { s with tier := x } = pagingRest s := rfl

@[simp] theorem pagingRest_bumpFree : pagingRest (bumpFree s) = pagingRest s := rfl

@[simp] theorem pagingRest_emit (o : Out) : pagingRest (emit s o) = pagingRest s := rfl

@[simp] theorem pagingRest_updLinkCounters (fn : Nat) (f : LinkCounters → LinkCounters) :
    pagingRest (updLinkCounters s fn f) = pagingRest s := rfl

@[simp] theorem pagingRest_setFrame (e : Frame_) : pagingRest (setFrame s e) = pagingRest s := by
  rw [setFrame_frame]
  rfl

@[simp] theorem pagingRest_updFrame (d : Nat) (f : Frame_ → Frame_) : pagingRest (updFrame s d f) = pagingRest s :=
  pagingRest_setFrame _

@[simp] theorem pagingRest_clearFrame (d : Nat) : pagingRest (clearFrame s d) = pagingRest s := rfl

@[simp] theorem pagingRest_setDomain_of (d : Domain) : pagingRest (setDomain s d) = pagingRest s := rfl

@[simp] theorem pagingRest_wakeOne (n source : Nat) : pagingRest (wakeOne s n source) = pagingRest s := by
  unfold wakeOne
  dsimp only
  (repeat' split) <;> simp

@[simp] theorem pagingRest_startWake (n source : Nat) : pagingRest (startWake s n source) = pagingRest s := by
  have hfab : pagingRest (wakeControllers s) = pagingRest s := by
    unfold wakeControllers
    split
    · exact pagingRest_foldl _ (fun s p => pagingRest_wakeOne _ _) _ _
    · rfl
  by_cases h : n = 3
  · subst h
    rw [startWake_fab, pagingRest_wakeOne, hfab]
  · rw [startWake_of_ne h, pagingRest_wakeOne]
    split <;> simp [hfab]

@[simp] theorem pagingRest_needDomains (ds : List Nat) : pagingRest (needDomains s ds) = pagingRest s := by
  unfold needDomains
  split
  · exact pagingRest_foldl _ (fun s n => pagingRest_startWake _ _) _ _
  · rfl

@[simp] theorem pagingRest_backInvalidate (l : Nat) : pagingRest (backInvalidate s l) = pagingRest s := by
  unfold backInvalidate
  split <;> rfl

@[simp] theorem pagingRest_backInvalidateRange (a n : Nat) : pagingRest (backInvalidateRange s a n) = pagingRest s :=
  pagingRest_foldl _ (fun _ _ => pagingRest_backInvalidate _) _ _

@[simp] theorem pagingRest_refreshPoison (d : Nat) : pagingRest (refreshPoison s d) = pagingRest s := by
  unfold refreshPoison
  dsimp only
  split <;> simp

@[simp] theorem pagingRest_setMoved (p : Nat → Bool) : pagingRest (setMoved s p) = pagingRest s := by
  unfold setMoved
  split <;> rfl

@[simp] theorem pagingRest_moveWritten (d off n : Nat) : pagingRest (moveWritten s d off n) = pagingRest s := by simp [moveWritten]

@[simp] theorem pagingRest_markDirty (d sector : Nat) : pagingRest (markDirty s d sector) = pagingRest s := by
  unfold markDirty
  dsimp only
  split <;> simp

@[simp] theorem pagingRest_frameWrite (d off : Nat) (bs : Bytes) : pagingRest (frameWrite s d off bs) = pagingRest s := by
  unfold frameWrite
  dsimp only
  split
  · simp
  · split
    · rw [pagingRest_foldl _ (fun _ _ => pagingRest_markDirty _ _)]
      simp
    · simp

@[simp] theorem pagingRest_nowSpecified (k : Nat) : pagingRest (nowSpecified s k) = pagingRest s := rfl

@[simp] theorem pagingRest_rewriteBlocks (a n : Nat) : pagingRest (rewriteBlocks s a n) = pagingRest s := rfl

@[simp] theorem pagingRest_pageWrite (a : Nat) (bs : Bytes) : pagingRest (pageWrite s a bs) = pagingRest s := by
  unfold pageWrite
  split <;> simp

@[simp] theorem pagingRest_touchPage (page h : Nat) : pagingRest (touchPage s page h) = pagingRest s := by
  rw [touchPage_frame]
  rfl

@[simp] theorem pagingRest_hostWrite (a : Nat) (bs : Bytes) : pagingRest (hostWrite s a bs) = pagingRest s := by simp [hostWrite]

@[simp] theorem pagingRest_answerRead (a : Nat) : pagingRest (answerRead s a) = pagingRest s := by
  rw [answerRead_frame]
  rfl

@[simp] theorem pagingRest_freeBlock : pagingRest (freeBlock s).1 = pagingRest s :=
  pagingRest_foldl _ (fun _ _ => pagingRest_bumpFree) _ _

@[simp] theorem pagingRest_serveAccess (w : Nat × Option Bytes) : pagingRest (serveAccess s w) = pagingRest s := by
  unfold serveAccess
  split <;> simp

@[simp] theorem pagingRest_serveReady : pagingRest (serveReady s) = pagingRest s := by
  unfold serveReady
  dsimp only
  rw [pagingRest_foldl _ (fun _ _ => pagingRest_serveAccess _)]
  simp

@[simp] theorem pagingRest_sweepPast (b : Nat) (v : Frame_) : pagingRest (sweepPast s b v) = pagingRest s :=
  pagingRest_foldl _ (fun _ _ => pagingRest_updFrame _ _) _ _

@[simp] theorem pagingRest_startWriteback (d : Nat) : pagingRest (startWriteback s d) = pagingRest s := by
  unfold startWriteback
  dsimp only
  split <;> simp

@[simp] theorem pagingRest_freeFrame (d : Nat) : pagingRest (freeFrame s d) = pagingRest s := by
  unfold freeFrame
  dsimp only
  split <;> simp

@[simp] theorem pagingRest_takeFrame (b : Nat) : pagingRest (takeFrame s b).1 = pagingRest s := by
  unfold takeFrame
  dsimp only
  (repeat' split) <;> simp

@[simp] theorem pagingRest_faultPage (page hint sector : Nat) : pagingRest (faultPage s page hint sector) = pagingRest s := by
  unfold faultPage
  dsimp only
  (repeat' split) <;> simp

@[simp] theorem pagingRest_retryCopies : pagingRest (retryCopies s) = pagingRest s :=
  pagingRest_foldl _ (fun _ _ => pagingRest_startWriteback _) _ _

@[simp] theorem pagingRest_retryFaults : pagingRest (retryFaults s) = pagingRest s := by
  unfold retryFaults
  split
  · rfl
  · rw [pagingRest_retryCopies, pagingRest_serveReady, pagingRest_foldl _ (fun _ _ => pagingRest_faultPage _ _ _)]

end Sys2Proof.Machine

/-! SUPPORT. Holds of best-effort work: comparators, the power cap and THROTTLE_N (R346, R352, R353). -/

namespace Sys2Proof.Machine

open Sys2Proof

variable {s t : State} {c : Comparator} {v w : Nat}

/-- The part of the module that a hold and its end leave. -/
def holdRest (s : State) :=
  (s.pending, s.time, s.pins.throttleN, s.queues, s.indexes, s.adm, s.rime, s.cells, s.dict, s.sec, s.tap, s.power.tripped)

theorem eq_of_holdRest (h : holdRest t = holdRest s) : t = { s with
    free := t.free, out := t.out, pins := t.pins, link := t.link, bay := t.bay, tier := t.tier, health := t.health,
    sb := t.sb, power := t.power } ∧ t.power.tripped = s.power.tripped ∧ t.pins.throttleN = s.pins.throttleN := by
  obtain ⟨⟩ := s
  obtain ⟨⟩ := t
  simp only [holdRest, Prod.mk.injEq] at h
  simp [h]

theorem fields_of_holdRest (h : holdRest t = holdRest s) : t.time = s.time ∧ t.queues = s.queues ∧ t.indexes = s.indexes ∧
    t.adm = s.adm ∧ t.rime = s.rime ∧ t.cells = s.cells ∧ t.dict = s.dict ∧ t.sec = s.sec ∧ t.tap = s.tap ∧
    t.power.tripped = s.power.tripped := by
  simp only [holdRest, Prod.mk.injEq] at h
  obtain ⟨-, htime, -, hqueues, hindexes, hadm, hrime, hcells, hdict, hsec, htap, htrip⟩ := h
  exact ⟨htime, hqueues, hindexes, hadm, hrime, hcells, hdict, hsec, htap, htrip⟩

theorem fields_of_holdRest_adm {a : AdmState} (h : holdRest t = holdRest { s with adm := a }) : t.time = s.time ∧
    t.queues = s.queues ∧ t.indexes = s.indexes ∧ t.adm = a ∧ t.rime = s.rime ∧ t.cells = s.cells ∧ t.dict = s.dict ∧
    t.sec = s.sec ∧ t.tap = s.tap ∧ t.power.tripped = s.power.tripped := fields_of_holdRest h

theorem holdRest_of_pagingRest (h : pagingRest t = pagingRest s) : holdRest t = holdRest s := by
  simp only [pagingRest, Prod.mk.injEq] at h
  simp [holdRest, h]

theorem throttleN_refreshAlert (s : State) : (refreshAlert s).pins.throttleN = s.pins.throttleN := rfl

theorem pins_sendEvent (s : State) (code : Nat) (data : Word64) : (sendEvent s code data).pins = s.pins := rfl

@[simp] theorem holdRest_logError (cls unit detail : Nat) (ctx : Option (Nat × Nat)) :
    holdRest (logError s cls unit detail ctx) = holdRest s := by
  have hpin : (logError s cls unit detail ctx).pins.throttleN = s.pins.throttleN := by
    by_cases h : severityOf cls = 2
    · rw [logError_of_alert unit detail ctx h, throttleN_refreshAlert, pins_sendEvent]
    · simp [logError, logEntry, h]
  simp only [holdRest, hpin]
  rw [logError_frame]

@[simp] theorem holdRest_logEpisode (cause since : Nat) : holdRest (logEpisode s cause since) = holdRest s := by
  unfold logEpisode
  split <;> simp

/-- While best-effort work is held, the hold's start alone is noted. -/
theorem settleHold_of_held (h : beHeld s = true) :
    settleHold s = { s with power := { s.power with heldSince := some (s.power.heldSince.getD (now s)) } } := by
  unfold settleHold
  cases hs : s.power.heldSince with
  | none => simp [h]
  | some t =>
    have hp : { s.power with heldSince := some t } = s.power := by rw [← hs]
    simp [h, hp]

@[simp] theorem holdRest_settleHold : holdRest (settleHold s) = holdRest s := by
  unfold settleHold
  split
  · rfl
  · exact (holdRest_of_pagingRest pagingRest_retryFaults).trans rfl
  · rfl

/-- A comparator's trip noted in the power section. -/
def tripNoted (s : State) (c : Comparator) : State :=
  { s with power := { s.power with
      tripped := s.power.tripped ++ [c], vinSince := if c == .vinDroop then now s else s.power.vinSince } }

/-- The trip logged, or kept for MGMT to log. -/
def tripLogged (s : State) (c : Comparator) (value : Nat) : State :=
  if mgmtAwake s then logError s errComparator (compNumber c) value
  else { s with power := { s.power with toLog := s.power.toLog ++ [(compNumber c, value)] } }

/-- The domains that a trip wakes. -/
def tripWakes (s : State) (c : Comparator) : State :=
  ((compWakes c).filter (supplied s)).foldl (fun st n => startWake st n (5 + compNumber c)) s

theorem execComparatorTrip_past (ha : s.pins.auxGood = true) (hc : c ∉ s.power.tripped) (hp : compPast s c v = true) :
    execComparatorTrip c v s = .next (settleHold (tripWakes (tripLogged (tripNoted s c) c v) c)) := by
  have hcond : (!s.pins.auxGood || s.power.tripped.contains c || !compPast s c v) = false := by simp [ha, hc, hp]
  unfold execComparatorTrip
  rw [if_neg (by rw [hcond]; exact Bool.false_ne_true)]
  rfl

theorem holdRest_tripLogged (c : Comparator) (value : Nat) : holdRest (tripLogged s c value) = holdRest s := by
  unfold tripLogged
  split
  · exact holdRest_logError ..
  · rfl

theorem holdRest_tripWakes (c : Comparator) : holdRest (tripWakes s c) = holdRest s :=
  holdRest_of_pagingRest (pagingRest_foldl _ (fun _ _ => pagingRest_startWake _ _) _ _)

theorem beHeld_of_vin (h : .vinDroop ∈ s.power.tripped) : beHeld s = true := by simp [beHeld, h]

theorem execComparatorRelease_back (hc : c ∈ s.power.tripped) (hb : compBack s c v = true) :
    execComparatorRelease { comparator := c, value := v } s = .next (settleHold
      (if c == .vinDroop then
        logEpisode { s with power := { s.power with tripped := s.power.tripped.filter (fun x => x != c) } } 2 s.power.vinSince
       else { s with power := { s.power with tripped := s.power.tripped.filter (fun x => x != c) } })) := by
  simp [execComparatorRelease, hc, hb]

theorem execComparatorRelease_not (h : c ∉ s.power.tripped ∨ compBack s c v = false) :
    execComparatorRelease { comparator := c, value := v } s = .next s := by
  have hcond : (!s.power.tripped.contains c || !compBack s c v) = true := by
    rcases h with h | h <;> simp [h]
  exact congrArg Host.Outcome.next (if_pos hcond)

/-- POWER_NOW as measured. -/
def measured (s : State) (w : Nat) : State := { s with power := { s.power with powerNow := w } }

theorem holdRest_measured (s : State) (w : Nat) : holdRest (measured s w) = holdRest s := rfl

theorem judgePower_above (hc : s.adm.capThrottle = false) (hp : powerCap s < w) : judgePower (measured s w) =
    settleHold { measured s w with adm := { s.adm with capThrottle := true, throttleSince := now s } } := by
  have hw : powerCap (measured s w) < (measured s w).power.powerNow := hp
  have hc' : (measured s w).adm.capThrottle ≠ true := by simp [measured, hc]
  unfold judgePower
  dsimp only
  rw [if_pos hw, if_neg hc']
  rfl

theorem judgePower_below (hc : s.adm.capThrottle = true) (hp : 100 * w < 98 * powerCap s) :
    judgePower (measured s w) = liftCap (measured s w) := by
  have hw : ¬ powerCap (measured s w) < (measured s w).power.powerNow := by
    have hcap : powerCap (measured s w) = powerCap s := rfl
    have hnow : (measured s w).power.powerNow = w := rfl
    rw [hcap, hnow]
    omega
  unfold judgePower
  dsimp only
  rw [if_neg hw]
  exact if_pos (by simp only [Bool.and_eq_true, decide_eq_true_eq]; exact ⟨hc, hp⟩)

/-- The episodes that the lift of the cap throttle logs. -/
def capLogged (s : State) : State :=
  logEpisode (if s.adm.capPeak == 0 then s else logError s errCapExcursion 0 s.adm.capPeak) 0 s.adm.throttleSince

theorem holdRest_capLogged : holdRest (capLogged s) = holdRest s := by
  unfold capLogged
  rw [holdRest_logEpisode]
  split <;> simp

theorem liftCap_eq (s : State) : liftCap s =
    settleHold { capLogged s with adm := { (capLogged s).adm with capThrottle := false, capPeak := 0 } } := (rfl)

theorem execPowerCapThrottleLift_of_main (h : s.pins.mainOn = true) :
    execPowerCapThrottleLift w s = .next (judgePower (measured s w)) := congrArg Host.Outcome.next (if_pos h)

theorem execPowerCapThrottle_of_main (h : s.pins.mainOn = true) :
    execPowerCapThrottle w s = .next (judgePower (measured s w)) := congrArg Host.Outcome.next (if_pos h)

theorem holdRest_lifted (hc : s.adm.capThrottle = true) (hp : 100 * w < 98 * powerCap s) : holdRest (judgePower (measured s w)) =
    holdRest { capLogged (measured s w) with adm := { (capLogged (measured s w)).adm with capThrottle := false, capPeak := 0 } } := by
  rw [judgePower_below hc hp, liftCap_eq, holdRest_settleHold]

/-- What the lift of the cap throttle leaves. -/
theorem judgePower_lifts (hc : s.adm.capThrottle = true) (hp : 100 * w < 98 * powerCap s) :
    let t := judgePower (measured s w)
    t.time = s.time ∧ t.queues = s.queues ∧ t.indexes = s.indexes ∧ t.rime = s.rime ∧ t.cells = s.cells ∧
      t.dict = s.dict ∧ t.sec = s.sec ∧ t.tap = s.tap ∧ t.adm.capThrottle = false ∧ t.time = s.time ∧
      t.power.tripped = s.power.tripped := by
  obtain ⟨htime, hqueues, hindexes, hadm, hrime, hcells, hdict, hsec, htap, htrip⟩ :=
    fields_of_holdRest_adm (holdRest_lifted hc hp)
  obtain ⟨htime', hqueues', hindexes', -, hrime', hcells', hdict', hsec', htap', htrip'⟩ :=
    fields_of_holdRest ((holdRest_capLogged (s := measured s w)).trans (holdRest_measured s w))
  exact ⟨htime.trans htime', hqueues.trans hqueues', hindexes.trans hindexes',
    hrime.trans hrime', hcells.trans hcells', hdict.trans hdict', hsec.trans hsec', htap.trans htap',
    congrArg AdmState.capThrottle hadm, htime.trans htime', htrip.trans htrip'⟩

/-- Settles O42: a trip and a release by what the hold's settling leaves; the cap by POWER_NOW against it. -/
theorem throttleRows : Obligations.ThrottleRows := by
  refine ⟨fun s c v ha hc hp => ?_, fun s c v h => execComparatorRelease_not h, fun s c v h => ?_, fun s c v hc hb => ?_,
    fun s w hm hc hp => ?_, fun s w hm hc hp => ?_, fun s ha ht => ?_, fun s ha ht => ?_⟩
  · obtain ⟨hframe, htrip, -⟩ := eq_of_holdRest (holdRest_settleHold.trans ((holdRest_tripWakes c).trans
      (holdRest_tripLogged (s := tripNoted s c) c v)))
    refine ⟨_, execComparatorTrip_past ha hc hp, hframe, htrip, ?_, ?_, fun hv => beHeld_of_vin ?_⟩
    · rw [hframe]; rfl
    · rw [hframe]; rfl
    · rw [htrip, hv]; simp [tripNoted]
  · exact congrArg Host.Outcome.next (if_pos (by simp [h]))
  · have hrest : holdRest (settleHold (if c == .vinDroop then
        logEpisode { s with power := { s.power with tripped := s.power.tripped.filter (fun x => x != c) } } 2 s.power.vinSince
       else { s with power := { s.power with tripped := s.power.tripped.filter (fun x => x != c) } })) =
        holdRest { s with power := { s.power with tripped := s.power.tripped.filter (fun x => x != c) } } := by
      rw [holdRest_settleHold]
      split <;> simp
    obtain ⟨hframe, htrip, -⟩ := eq_of_holdRest hrest
    refine ⟨_, execComparatorRelease_back hc hb, hframe, htrip, ?_, ?_, ?_⟩
    · rw [htrip]; simp
    · rw [hframe]
    · rw [hframe]
  · have hheld : beHeld { measured s w with adm := { s.adm with capThrottle := true, throttleSince := now s } } = true := rfl
    refine ⟨_, (execPowerCapThrottle_of_main hm).trans (congrArg Host.Outcome.next ((judgePower_above hc hp).trans
      (settleHold_of_held hheld))), rfl, rfl, rfl, rfl⟩
  · exact ⟨_, execPowerCapThrottleLift_of_main hm, judgePower_lifts hc hp⟩
  · have hheld : beHeld { s with pins := { s.pins with throttleN := false }, power := { s.power with throttleNSince := now s } } = true := by
      simp [beHeld]
    refine ⟨_, congrArg Host.Outcome.next ((if_neg (by simp [ha, ht])).trans (settleHold_of_held hheld)), rfl, rfl, ?_⟩
    simp [beHeld]
  · obtain ⟨hframe, -, hpin⟩ := eq_of_holdRest (holdRest_settleHold.trans
      (holdRest_logEpisode (s := { s with pins := { s.pins with throttleN := true } }) 1 s.power.throttleNSince))
    refine ⟨_, congrArg Host.Outcome.next (if_neg (by simp [ha, ht])), hframe, hpin, ?_, ?_⟩
    · rw [hframe]
    · rw [hframe]

end Sys2Proof.Machine

/-! SUPPORT. The window: a page in a frame whose number a second frame bears too (R247, R360). -/

namespace Sys2Proof.Machine

open Sys2Proof

/-- Page 4096, the first of the window, stands in the second of two frames of one number. -/
def twoFramesOfOneNumber : State :=
  { State.reset with
    link := { State.reset.link with
      up := true, memOn := true, hdm := [(0, { base := 0, size := 2 ^ 28, skip := 0, committed := true })] },
    bay := { State.reset.bay with regions := [{ base := 4096, pages := 1, kind := 2, hint := 0, groups := 1, bay := 0 }] },
    tier := { State.reset.tier with
      frames := [{ num := 0, state := .resident, page := 0 }, { num := 0, state := .resident, page := 4096 }] } }

/-- Refutes O44: of two frames with one number the access keeps the first, so the block with one wrong byte is in no frame when it is
read, and no corrected error is counted (R360). -/
theorem not_windowDataRows : ¬ Obligations.WindowDataRows := by
  intro h
  obtain ⟨t, ht, -, -, hcount⟩ := h.2.2.1 twoFramesOfOneNumber { hpa := 0, wrong := [(0, 1)] } (2 ^ 30)
    { base := 4096, pages := 1, kind := 2, hint := 0, groups := 1, bay := 0 } { num := 0, state := .resident, page := 4096 }
    (by decide +kernel) (by decide +kernel) (by decide +kernel) (by decide +kernel) (by decide +kernel)
  have hrun : Machine.exec (.cxlMemRead { hpa := 0, wrong := [(0, 1)] }) twoFramesOfOneNumber =
      .next (answerRead (trackLine twoFramesOfOneNumber (2 ^ 30)) (2 ^ 30) [(0, 1)]) := by rfl
  have hnone : (answerRead (trackLine twoFramesOfOneNumber (2 ^ 30)) (2 ^ 30) [(0, 1)]).health.banks = [] := by decide +kernel
  have hzero : ∀ (s : State) (b : Nat), s.health.banks = [] → (bankHealth s b).corrected = 0 := fun s b hb => by
    simp [bankHealth, hb]
  obtain rfl := Host.Outcome.next.inj (hrun.symm.trans ht)
  exact absurd ((hzero _ _ hnone).symm.trans hcount) (Nat.succ_ne_zero _).symm

end Sys2Proof.Machine

/-! SUPPORT. The TAP: its instructions, its data register and the bring-up operations (R417 to R421). -/

namespace Sys2Proof.Machine

open Sys2Proof

variable {s : State} {d : BitVec 128}

/-- Loading an instruction that may act, and capturing its register. -/
theorem capture_loadIr_acts {code level : Nat} {cond : Bool} (v : BitVec 128) (hlevel : level ≤ s.sec.debugLevel)
    (hcond : cond = true) :
    capture (loadIr s code level cond) code v = tapLoaded s code code false (code == 0x00 || code == 0x09) (code == 0x08) v := by
  simp [capture, loadIr, tapLoaded, hlevel, hcond]

/-- An instruction that may not act acts as BYPASS. -/
theorem loadIr_of_blocked {code level : Nat} {cond : Bool} (h : cond = false ∨ s.sec.debugLevel < level) :
    loadIr s code level cond = tapLoaded s code 0xFF true false false s.tap.captured := by
  have hacts : ¬ (level ≤ s.sec.debugLevel ∧ cond = true) := by
    rintro ⟨hle, hc⟩
    rcases h with h | h
    · simp [hc] at h
    · omega
  have hno : (decide (level ≤ s.sec.debugLevel) && cond) = false := by simpa using fun h => by simpa [h] using hacts
  simp [loadIr, tapLoaded, hno]

theorem updateDr_starts (hact : s.tap.acting = 0x30) (hb : inBringup s = true) (hop : s.tap.op = none)
    (hawake : mgmtAwake s = true) (hd : brOp d ≠ 0) : updateDr s d = { s with tap := { s.tap with op := some d } } := by
  simp [updateDr, hact, hb, hop, hawake, hd]

theorem updateDr_of_not_acting (hact : s.tap.acting ≠ 0x30) : updateDr s d = s := by
  simp [updateDr, hact]

theorem startOp_starts {op : Nat} (haux : s.pins.auxGood = true) (hact : s.tap.acting = 0x30) (hb : inBringup s = true)
    (hop : s.tap.op = none) (hawake : mgmtAwake s = true) (hd : brOp d = op) (hne : op ≠ 0) :
    startOp s op d = { s with tap := { s.tap with op := some d } } := by
  simp only [startOp, onTap, haux, hd, beq_self_eq_true, if_true]
  exact updateDr_starts hact hb hop hawake (hd.trans_ne hne)

theorem dbgWord_toNat (s : State) : (dbgWord s).toNat = s.pins.auxGood.toNat + 2 * s.sec.mgmtReady.toNat +
    4 * s.tap.blocked.toNat + 8 * s.pins.faultLow.toNat + 16 * s.pins.mainOn.toNat + 32 * (!s.pins.perstN).toNat +
    64 * (s.sec.debugLevel % 4) + 256 * (s.sec.bootState % 256) := by
  have hbit : ∀ (p : Bool) (i : Nat), (if p = true then 2 ^ i else 0) = 2 ^ i * p.toNat := by
    intro p i; cases p <;> simp
  have hle := Bool.toNat_le
  have h1 := hle s.pins.auxGood
  have h2 := hle s.sec.mgmtReady
  have h3 := hle s.tap.blocked
  have h4 := hle s.pins.faultLow
  have h5 := hle s.pins.mainOn
  have h6 := hle (!s.pins.perstN)
  have h7 := Nat.mod_lt s.sec.debugLevel (show 0 < 4 by decide)
  have h8 := Nat.mod_lt s.sec.bootState (show 0 < 256 by decide)
  simp only [dbgWord, hbit, BitVec.toNat_ofNat]
  omega

/-- The word that DBG_STATUS captures: its flags and fields. -/
theorem dbgWord_fields (s : State) :
    let w := (dbgWord s).setWidth 128
    flag w 0 = s.pins.auxGood ∧ flag w 1 = s.sec.mgmtReady ∧ flag w 3 = s.pins.faultLow ∧ flag w 4 = s.pins.mainOn ∧
      (flag w 5 = !s.pins.perstN) ∧ field w 6 2 = s.sec.debugLevel % 4 ∧ field w 8 8 = s.sec.bootState % 256 := by
  have hw : ((dbgWord s).setWidth 128).toNat = (dbgWord s).toNat := by
    rw [BitVec.toNat_setWidth]
    have := (dbgWord s).isLt
    omega
  have hflag : ∀ (n i : Nat) (p : Bool), n / 2 ^ i % 2 = p.toNat → bitAt n i = p := by
    intro n i p h
    cases p <;> simp_all [bitAt]
  have hle := Bool.toNat_le
  have h1 := hle s.pins.auxGood
  have h2 := hle s.sec.mgmtReady
  have h3 := hle s.tap.blocked
  have h4 := hle s.pins.faultLow
  have h5 := hle s.pins.mainOn
  have h6 := hle (!s.pins.perstN)
  simp only [flag, field, bitsAt, hw, dbgWord_toNat]
  exact ⟨hflag _ _ _ (by omega), hflag _ _ _ (by omega), hflag _ _ _ (by omega), hflag _ _ _ (by omega),
    hflag _ _ _ (by omega), by omega, by omega⟩

theorem brWord_toNat (op status a0 a1 a2 : Nat) : (brWord op status a0 a1 a2).toNat =
    op % 256 + status % 256 * 2 ^ 16 + a0 % 2 ^ 32 * 2 ^ 32 + a1 % 2 ^ 32 * 2 ^ 64 + a2 % 2 ^ 32 * 2 ^ 96 := by
  rw [brWord, BitVec.toNat_ofNat, Nat.mod_eq_of_lt]
  omega

variable {op status a0 a1 a2 : Nat}

theorem op_brWord : field (brWord op status a0 a1 a2) 0 8 = op % 256 := by
  simp only [field, bitsAt, brWord_toNat]; omega
theorem rsvd_brWord : field (brWord op status a0 a1 a2) 8 8 = 0 := by
  simp only [field, bitsAt, brWord_toNat]; omega
theorem status_brWord : field (brWord op status a0 a1 a2) 16 8 = status % 256 := by
  simp only [field, bitsAt, brWord_toNat]; omega
theorem rsvd_high_brWord : field (brWord op status a0 a1 a2) 24 8 = 0 := by
  simp only [field, bitsAt, brWord_toNat]; omega
theorem arg0_brWord : field (brWord op status a0 a1 a2) 32 32 = a0 % 2 ^ 32 := by
  simp only [field, bitsAt, brWord_toNat]; omega
theorem arg1_brWord : field (brWord op status a0 a1 a2) 64 32 = a1 % 2 ^ 32 := by
  simp only [field, bitsAt, brWord_toNat]; omega

theorem brOp_lt (d : BitVec 128) : brOp d % 256 = brOp d := Nat.mod_mod _ _
theorem brArg0_lt (d : BitVec 128) : brArg0 d % 2 ^ 32 = brArg0 d := Nat.mod_mod _ _

/-- The part of the module that a bring-up operation leaves. -/
theorem bringupOp_frame (s : State) (d : BitVec 128) (ok : Bool) :
    (bringupOp s d ok).1 = { s with
      tap := (bringupOp s d ok).1.tap, health := (bringupOp s d ok).1.health, free := (bringupOp s d ok).1.free } := by
  unfold bringupOp opPprQuery opPprRepair opBbtQuery opBbtRead opBbtMark opLoopStart opLoopStop
  split_ifs <;> dsimp only <;> repeat' split
  all_goals rfl

theorem op_bringupOp (s : State) (d : BitVec 128) (ok : Bool) : (bringupOp s d ok).1.tap.op = s.tap.op := by
  unfold bringupOp opPprQuery opPprRepair opBbtQuery opBbtRead opBbtMark opLoopStart opLoopStop
  split_ifs <;> dsimp only <;> repeat' split
  all_goals rfl

/-- The state without its running bring-up operation. -/
def opTaken (s : State) : State := { s with tap := { s.tap with op := none } }

/-- A value in the data register of BRINGUP. -/
def withDr (t : State) (w : BitVec 128) : State := { t with tap := { t.tap with dr := w } }

theorem withDr_of_frame {t : State} (w : BitVec 128) (h : t = { opTaken s with tap := t.tap, health := t.health, free := t.free }) :
    withDr t w = { s with tap := (withDr t w).tap, health := (withDr t w).health, free := (withDr t w).free } := by
  rw [h]
  rfl

theorem dr_withDr (t : State) (w : BitVec 128) : (withDr t w).tap.dr = w := rfl
theorem op_withDr (t : State) (w : BitVec 128) : (withDr t w).tap.op = t.tap.op := rfl
theorem bankHealth_withDr (t : State) (w : BitVec 128) (b : Nat) : bankHealth (withDr t w) b = bankHealth t b := rfl

/-- The module after an operation that came to `r`: its state, its status and its two values (R418). -/
def opEnd (d : BitVec 128) (r : State × Nat × Nat × Nat) : State :=
  withDr r.1 (brWord (brOp d) r.2.1 (brArg0 d) r.2.2.1 r.2.2.2)

theorem opEnd_mk (d : BitVec 128) (t : State) (st a v : Nat) :
    opEnd d (t, st, a, v) = withDr t (brWord (brOp d) st (brArg0 d) a v) := rfl

/-- The module after a completed operation, before anything that PERST_N's end lets start. -/
def opDone (s : State) (d : BitVec 128) (ok : Bool) : State := opEnd d (bringupOp (opTaken s) d ok)

theorem opDone_frame (s : State) (d : BitVec 128) (ok : Bool) : opDone s d ok = { s with
    tap := (opDone s d ok).tap, health := (opDone s d ok).health, free := (opDone s d ok).free } :=
  withDr_of_frame _ (bringupOp_frame (opTaken s) d ok)

theorem dr_opDone (s : State) (d : BitVec 128) (ok : Bool) : ∃ st a v, (opDone s d ok).tap.dr = brWord (brOp d) st (brArg0 d) a v := by
  rw [opDone, opEnd, dr_withDr]
  exact ⟨_, _, _, rfl⟩

theorem op_opDone (s : State) (d : BitVec 128) (ok : Bool) : (opDone s d ok).tap.op = none := by
  rw [opDone, opEnd, op_withDr, op_bringupOp]
  rfl

/-- What the end of an operation lets start where PERST_N has been released meanwhile (R419). -/
def afterOp (t : State) : State :=
  if t.pins.perstN && t.pins.mainOn && !t.link.up then
    { startRepairs t with link := { (startRepairs t).link with training := true } }
  else t

theorem execBringupOpComplete_eq {ok : Bool} (hop : s.tap.op = some d) :
    execBringupOpComplete ok s = .next (afterOp (opEnd d (bringupOp (opTaken s) d ok))) := by
  unfold execBringupOpComplete
  split
  next h => simp [hop] at h
  next d' h =>
    obtain rfl : d' = d := Option.some.inj (h.symm.trans hop)
    rw [show opTaken s = { s with tap := { s.tap with op := none } } from rfl]
    generalize bringupOp { s with tap := { s.tap with op := none } } d' ok = r
    rfl

theorem execBringupOpComplete_of_op {ok : Bool} (hop : s.tap.op = some d) (hperst : s.pins.perstN = false) :
    execBringupOpComplete ok s = .next (opDone s d ok) := by
  have hpins : (opDone s d ok).pins.perstN = false := by rw [opDone_frame]; exact hperst
  have hafter : afterOp (opDone s d ok) = opDone s d ok := if_neg (by simp [hpins])
  exact (execBringupOpComplete_eq hop).trans (congrArg Host.Outcome.next hafter)

theorem bank_bankHealth (s : State) (b : Nat) : (bankHealth s b).bank = b := by
  unfold bankHealth
  cases hf : s.health.banks.find? (fun x => x.bank == b) with
  | none => rfl
  | some v => simpa using List.find?_some hf

theorem bank_le_bits {channel bank : Nat} (hc : channel < 128) (hb : bank < 32) :
    bitsAt (channel + bank * 2 ^ 8) 0 7 = channel ∧ bitsAt (channel + bank * 2 ^ 8) 8 5 = bank := by
  simp only [bitsAt]
  omega

/-- A repair of a DRAM row is the operation on the bank that its argument names. -/
theorem bringupOp_repair (s : State) {channel bank row : Nat} (ok : Bool) (hc : channel < 128) (hb : bank < 32) (hr : row < 122880) :
    bringupOp s (brWord 0x02 0 (channel + bank * 2 ^ 8) row 0) ok = opPprRepair s (32 * channel + bank) row ok := by
  have hop : brOp (brWord 0x02 0 (channel + bank * 2 ^ 8) row 0) = 2 := op_brWord
  have h0 : brArg0 (brWord 0x02 0 (channel + bank * 2 ^ 8) row 0) = channel + bank * 2 ^ 8 :=
    arg0_brWord.trans (Nat.mod_eq_of_lt (by omega))
  have h1 : brArg1 (brWord 0x02 0 (channel + bank * 2 ^ 8) row 0) = row := arg1_brWord.trans (Nat.mod_eq_of_lt (by omega))
  obtain ⟨hch, hbk⟩ := bank_le_bits hc hb
  simp only [bringupOp, hop, h0, h1, rsvd_brWord, rsvd_high_brWord, hch, hbk, bne_self_eq_false, Bool.or_false, beq_self_eq_true,
    Bool.false_eq_true, if_false, if_true]

/-- What a bank keeps of a repair that succeeds. -/
def repairedBank (v : BankHealth) (row : Nat) : BankHealth :=
  { v with used := v.used + 1, mended := v.mended + 1, repaired := v.repaired ++ [row] }

theorem opPprRepair_succeeds (s : State) {b row : Nat} (hr : row < 122880) (hused : (bankHealth s b).used < 4) :
    opPprRepair s b row true =
      (setBankHealth s (repairedBank (bankHealth s b) row), 0, 4 - ((bankHealth s b).used + 1), 0) := by
  simp only [opPprRepair, repairedBank, if_neg (Nat.not_le.2 hr), if_neg (Nat.not_le.2 hused), if_true]

theorem bankHealth_repaired (s : State) (b row : Nat) :
    bankHealth (setBankHealth s (repairedBank (bankHealth s b) row)) b = repairedBank (bankHealth s b) row := by
  have hb : (repairedBank (bankHealth s b) row).bank = b := bank_bankHealth s b
  have h := bankHealth_setBankHealth_same s (repairedBank (bankHealth s b) row)
  rwa [hb] at h

/-- The word of a row's repair (R419). -/
def repairWord (channel bank row : Nat) : BitVec 128 := brWord 0x02 0 (channel + bank * 2 ^ 8) row 0

/-- A completed repair: the result says success and the repairs left, and the bank counts it. -/
theorem opDone_repair {channel bank row : Nat} (hc : channel < 128) (hb : bank < 32) (hr : row < 122880)
    (hd : d = repairWord channel bank row) (hused : (bankHealth s (32 * channel + bank)).used < 4) :
    field (opDone s d true).tap.dr 16 8 = 0 ∧
      bankHealth (opDone s d true) (32 * channel + bank) = repairedBank (bankHealth s (32 * channel + bank)) row ∧
      field (opDone s d true).tap.dr 64 32 = 4 - (bankHealth (opDone s d true) (32 * channel + bank)).used := by
  have hrun : bringupOp (opTaken s) d true = _ :=
    ((congrArg (bringupOp (opTaken s) · true) hd).trans (bringupOp_repair (opTaken s) true hc hb hr)).trans
      (opPprRepair_succeeds (opTaken s) (b := 32 * channel + bank) hr hused)
  have hbank : bankHealth (opDone s d true) (32 * channel + bank) = repairedBank (bankHealth s (32 * channel + bank)) row := by
    rw [opDone, hrun, opEnd_mk, bankHealth_withDr]
    exact bankHealth_repaired (opTaken s) (32 * channel + bank) row
  refine ⟨?_, hbank, ?_⟩
  · rw [opDone, hrun, opEnd_mk, dr_withDr, status_brWord]
  · rw [hbank, opDone, hrun, opEnd_mk, dr_withDr, arg1_brWord]
    exact Nat.mod_eq_of_lt (by omega)

theorem execBringup_of_acts (haux : s.pins.auxGood = true) (hb : inBringup s = true) (hl : 1 ≤ s.sec.debugLevel) :
    execBringup none s = .next (tapLoaded s 0x30 0x30 false false false (brCapture s)) := by
  have hcap : brCapture (loadIr s 0x30 1 (inBringup s)) = brCapture s := rfl
  simp only [execBringup, onTap, haux, if_true, hcap]
  exact congrArg Host.Outcome.next (capture_loadIr_acts _ hl hb)

theorem execBringup_of_blocked (dr : Option (BitVec 128)) (haux : s.pins.auxGood = true)
    (h : inBringup s = false ∨ s.sec.debugLevel = 0) :
    execBringup dr s = .next (tapLoaded s 0x30 0xFF true false false 0) := by
  have hload : loadIr s 0x30 1 (inBringup s) = tapLoaded s 0x30 0xFF true false false s.tap.captured :=
    loadIr_of_blocked (h.imp id (fun h => by omega))
  have hbyp : (tapLoaded s 0x30 0xFF true false false s.tap.captured).tap.acting ≠ 0x30 :=
    show (0xFF : Nat) ≠ 0x30 by decide
  simp only [execBringup, onTap, haux, if_true]
  rw [hload]
  cases dr with
  | none => rfl
  | some d => exact congrArg (fun x => Host.Outcome.next (capture x 0x30 (brCapture x))) (updateDr_of_not_acting hbyp)

theorem execMgmtDebug_of_acts (halt : Bool) (addr : Nat) (haux : s.pins.auxGood = true) (hb : inBringup s = true)
    (hl : 2 ≤ s.sec.debugLevel) :
    execMgmtDebug halt addr s = .next (tapLoaded { s with tap := { s.tap with halted := halt } } 0x40 0x40 false false false
      (BitVec.ofNat 128 (leNat (unlaid 13 addr 16)))) := by
  simp [execMgmtDebug, onTap, haux, loadIr, hl, hb, capture, tapLoaded]

theorem execDbgStatus_of_aux (haux : s.pins.auxGood = true) :
    execDbgStatus s = .next (tapLoaded s 0x10 0x10 false false false ((dbgWord s).setWidth 128)) := by
  simp only [execDbgStatus, onTap, haux, if_true]
  exact congrArg Host.Outcome.next (capture_loadIr_acts _ (Nat.zero_le _) rfl)

theorem execSamplePreload_of_main (pins : Nat) (haux : s.pins.auxGood = true) (hmain : s.pins.mainOn = true) :
    execSamplePreload pins s =
      .next (tapLoaded { s with tap := { s.tap with boundary := pins } } 0x02 0x02 false false false (BitVec.ofNat 128 pins)) := by
  simp [execSamplePreload, onTap, haux, hmain, loadIr, capture, tapLoaded]

/-- The rows that name a bring-up operation start it. -/
theorem bringupRow_starts {row : Instr} {op : Nat}
    (hrow : (row, op) ∈ [(.pprQuery d, 0x01), (.pprRepair d, 0x02), (.bbtQuery d, 0x10), (.bbtRead d, 0x11), (.bbtMark d, 0x12),
      (.loopStart d, 0x20), (.loopStop d, 0x21)]) : Machine.exec row s = .next (startOp s op d) ∧ op ≠ 0 := by
  simp only [List.mem_cons, Prod.mk.injEq, List.not_mem_nil, or_false] at hrow
  rcases hrow with ⟨rfl, rfl⟩ | ⟨rfl, rfl⟩ | ⟨rfl, rfl⟩ | ⟨rfl, rfl⟩ | ⟨rfl, rfl⟩ | ⟨rfl, rfl⟩ | ⟨rfl, rfl⟩
  all_goals exact ⟨rfl, by decide⟩

/-- Settles O45: each instruction that may act is loaded and captured; a bring-up operation's completion is `opDone`. -/
theorem tapRows : Obligations.TapRows := by
  unfold Obligations.TapRows
  have hexec : ∀ {s : State} (k : State → State), s.pins.auxGood = true → onTap s k = k s := fun k h => if_pos h
  refine ⟨fun s haux hb => ?_, fun s haux => ?_, fun s pins haux hmain => execSamplePreload_of_main pins haux hmain,
    fun s haux hperst => ?_, fun s haux hperst => ?_, fun s haux => ?_, fun s haux => ?_, fun s halt addr haux hb hl => ?_,
    fun s haux hb hl => execBringup_of_acts haux hb hl, fun s d haux h => execBringup_of_blocked d haux h,
    fun s d row op hrow haux hact hb hop hawake hd => ?_, fun s ok d hop hperst => ?_,
    fun s d channel bank row hc hbank hr hd hop hperst hused => ?_⟩
  · exact congrArg Host.Outcome.next ((hexec _ haux).trans (capture_loadIr_acts _ (Nat.zero_le _) hb))
  · exact congrArg Host.Outcome.next ((hexec _ haux).trans (capture_loadIr_acts _ (Nat.zero_le _) rfl))
  · exact congrArg Host.Outcome.next ((hexec _ haux).trans (capture_loadIr_acts _ (Nat.zero_le _) (by simp [hperst])))
  · exact congrArg Host.Outcome.next ((hexec _ haux).trans (capture_loadIr_acts _ (Nat.zero_le _) (by simp [hperst])))
  · obtain ⟨haux', hready, hfault, hmain, hperst, hlevel, hboot⟩ := dbgWord_fields s
    exact ⟨_, execDbgStatus_of_aux haux, rfl, haux'.trans haux, hready, hfault, hmain, hperst, hlevel, hboot⟩
  · exact congrArg Host.Outcome.next ((hexec _ haux).trans (capture_loadIr_acts _ (Nat.zero_le _) rfl))
  · exact ⟨_, execMgmtDebug_of_acts halt addr haux hb hl, rfl⟩
  · obtain ⟨hexecRow, hne⟩ := bringupRow_starts (s := s) hrow
    exact hexecRow.trans (congrArg Host.Outcome.next (startOp_starts haux hact hb hop hawake hd hne))
  · obtain ⟨st, a, v, hdr⟩ := dr_opDone s d ok
    refine ⟨_, execBringupOpComplete_of_op hop hperst, opDone_frame s d ok, op_opDone s d ok, ?_, ?_⟩
    · rw [hdr, op_brWord, brOp_lt]
    · rw [hdr, arg0_brWord, brArg0_lt]
  · obtain ⟨hstatus, hrepaired, hleft⟩ := opDone_repair (s := s) hc hbank hr hd hused
    refine ⟨_, execBringupOpComplete_of_op hop hperst, ?_, hstatus, hrepaired, hleft⟩
    rw [opDone_frame]

end Sys2Proof.Machine

/-! SUPPORT. Pegs: the turn of a port, what serving the waits of a peg leaves, and the operations (R307 to R311, R345). -/

namespace Sys2Proof.Machine

open Sys2Proof

variable {s : State} {q cid p op ctx thr : Nat} {c : Cmd} {v : Word64} {x : Peg} {w : PegWait}

theorem cid_of_takeCmd {opcode : Nat} (h : takeCmd s q cid opcode = some c) : c.cid = cid := by
  unfold takeCmd at h
  (repeat' split at h) <;> simp_all

/-! A turn of a peg's port. -/

/-- The tick of a port's turn at a peg. -/
def pegTick (s : State) (p port : Nat) : Nat := if turnOver s p port then s.time.dtb + 1 else s.time.dtb

/-- The turns kept once a port has had its turn: those of its tick. -/
def turnsAfter (s : State) (p port : Nat) : List (Nat × Nat × Nat) :=
  putKey (s.bay.pegTurns.filter (fun e => e.2.1 == pegTick s p port)) p (pegTick s p port, portOrder port (pegTick s p port))

theorem pegTurn_eq (s : State) (p port : Nat) : pegTurn s p port = { s with
    time := { s.time with dtb := pegTick s p port },
    bay := { s.bay with pegTurns := turnsAfter s p port } } := by
  unfold pegTurn turnsAfter pegTick
  split <;> simp [advanceTo, now]

theorem pegTurn_frame (s : State) (p port : Nat) : pegTurn s p port = { s with
    time := { s.time with dtb := pegTick s p port }, bay := { s.bay with pegTurns := (pegTurn s p port).bay.pegTurns } } := by
  rw [pegTurn_eq]

theorem lookupKey_pegTurn (s : State) (p port : Nat) :
    lookupKey (pegTurn s p port).bay.pegTurns p = some (pegTick s p port, portOrder port (pegTick s p port)) := by
  rw [pegTurn_eq]
  exact lookupKey_putKey_same _ _ _

variable {port : Nat}

@[simp] theorem pegAt_pegTurn (n : Nat) : pegAt (pegTurn s p port) n = pegAt s n := by rw [pegTurn_eq]; rfl
@[simp] theorem mayUsePeg_pegTurn : mayUsePeg (pegTurn s p port) ctx x = mayUsePeg s ctx x := by rw [pegTurn_eq]; rfl
@[simp] theorem waits_pegTurn : (pegTurn s p port).bay.waits = s.bay.waits := by rw [pegTurn_eq]
@[simp] theorem queueOf_pegTurn : queueOf (pegTurn s p port) q = queueOf s q := by rw [pegTurn_eq]; rfl
@[simp] theorem threadAt_pegTurn (n : Nat) : threadAt (pegTurn s p port) n = threadAt s n := by rw [pegTurn_eq]; rfl

/-! Waits served, and the values of pegs. -/

@[simp] theorem bay_endCmd {st r : Nat} : (endCmd s q c st r).bay = s.bay := by rw [endCmd_frame]
@[simp] theorem bay_startWake {n source : Nat} : (startWake s n source).bay = s.bay := by rw [startWake_frame]
@[simp] theorem pegs_progressCtx : (progressCtx s ctx).bay.pegs = s.bay.pegs := rfl
@[simp] theorem waits_progressCtx : (progressCtx s ctx).bay.waits = s.bay.waits := rfl
@[simp] theorem time_progressCtx : (progressCtx s ctx).time = s.time := rfl

theorem pegAt_congr {t : State} (h : t.bay.pegs = s.bay.pegs) (n : Nat) : pegAt t n = pegAt s n := congrArg (List.find? _) h

@[simp] theorem pegAt_progress_end {st r : Nat} (n : Nat) : pegAt (progressCtx (endCmd s q c st r) ctx) n = pegAt s n :=
  pegAt_congr (by simp) n

theorem endWait_rest (w : PegWait) (st : Nat) : (endWait s w st).bay.pegs = s.bay.pegs ∧
    (endWait s w st).bay.waits = removeFirst (fun y => y == w) s.bay.waits ∧ (endWait s w st).time = s.time := by
  simp only [endWait, pegs_progressCtx, waits_progressCtx, time_progressCtx]
  rw [postCompletion_frame]
  exact ⟨rfl, rfl, rfl⟩

theorem pegs_serveWait (w : PegWait) (st : Nat) : (serveWait s w st).bay.pegs = s.bay.pegs := by
  unfold serveWait
  split
  · exact (endWait_rest w st).1
  · simp

/-- No command waits to acquire the peg. -/
def noAcquirer (s : State) (p : Nat) : Prop := ∀ w ∈ s.bay.waits, w.peg = p → w.kind ≠ .acquire

theorem mem_of_mem_removeFirst {α : Type} {f : α → Bool} {a : α} {l : List α} (h : a ∈ removeFirst f l) : a ∈ l := by
  induction l with
  | nil => exact h
  | cons b r ih =>
    simp only [removeFirst] at h
    split at h
    · exact List.mem_cons_of_mem b h
    · rcases List.mem_cons.1 h with rfl | h
      · exact List.mem_cons_self
      · exact List.mem_cons_of_mem b (ih h)

theorem exists_of_mem_updateFirst {α : Type} {f : α → Bool} {g : α → α} {a : α} {l : List α} (h : a ∈ updateFirst f g l) :
    ∃ b ∈ l, a = b ∨ a = g b := by
  induction l with
  | nil => simp [updateFirst] at h
  | cons b r ih =>
    simp only [updateFirst] at h
    split at h
    · rcases List.mem_cons.1 h with rfl | h
      · exact ⟨b, List.mem_cons_self, .inr rfl⟩
      · exact ⟨a, List.mem_cons_of_mem b h, .inl rfl⟩
    · rcases List.mem_cons.1 h with rfl | h
      · exact ⟨a, List.mem_cons_self, .inl rfl⟩
      · obtain ⟨d, hd, hor⟩ := ih h
        exact ⟨d, List.mem_cons_of_mem b hd, hor⟩

theorem noAcquirer_serveWait (w : PegWait) (st : Nat) (h : noAcquirer s p) : noAcquirer (serveWait s w st) p := by
  unfold serveWait
  split
  · intro y hy
    rw [(endWait_rest w st).2.1] at hy
    exact h y (mem_of_mem_removeFirst hy)
  · intro y hy
    rw [bay_startWake] at hy
    obtain ⟨b, hb, rfl | rfl⟩ := exists_of_mem_updateFirst hy
    · exact h _ hb
    · exact h b hb

/-- Serving a list of waits leaves the pegs and brings no one who waits to acquire. -/
theorem foldl_serveWait (st : Nat) (l : List PegWait) : ∀ s : State, (l.foldl (fun t w => serveWait t w st) s).bay.pegs = s.bay.pegs ∧
    (noAcquirer s p → noAcquirer (l.foldl (fun t w => serveWait t w st) s) p) := by
  induction l with
  | nil => exact fun s => ⟨rfl, id⟩
  | cons w r ih =>
    intro s
    obtain ⟨hpegs, hno⟩ := ih (serveWait s w st)
    exact ⟨hpegs.trans (pegs_serveWait w st), fun h => hno (noAcquirer_serveWait w st h)⟩

theorem foldl_bay {α : Type} {f : State → α → State} (hf : ∀ t a, (f t a).bay = t.bay) (l : List α) (s : State) :
    (l.foldl f s).bay = s.bay := by
  induction l generalizing s with
  | nil => rfl
  | cons a r ih => exact (ih (f s a)).trans (hf s a)

@[simp] theorem bay_wakeWaitingCuts : (wakeWaitingCuts s p v).bay = s.bay := by
  unfold wakeWaitingCuts
  refine foldl_bay (fun t y => ?_) _ _
  split
  · rfl
  · exact foldl_bay (fun u d => foldl_bay (fun _ _ => bay_startWake) _ _) _ _

theorem nextAcquire_of_none (h : noAcquirer s p) : nextAcquire s p = none := by
  have hnil : s.bay.waits.filter (fun w => w.peg == p && w.kind == .acquire) = [] := by
    rw [List.filter_eq_nil_iff]
    intro w hw
    have := h w hw
    simpa using this
  simp [nextAcquire, hnil, sortBy]

theorem updateFirst_id {α : Type} (f : α → Bool) (l : List α) : updateFirst f (fun a => a) l = l := by
  induction l with
  | nil => rfl
  | cons b r ih => simp [updateFirst, ih]

/-- Settling a peg changes at most its holder; the values of pegs stand. -/
theorem settlePeg_pegs (s : State) (p : Nat) : ∃ f : Peg → Peg, (∀ y, (f y).num = y.num ∧ (f y).value = y.value) ∧
    (noAcquirer s p → f = fun y => y) ∧ (settlePeg s p).bay.pegs = updateFirst (fun y => y.num == p) f s.bay.pegs := by
  have hsame : ∀ t : State, t.bay.pegs = s.bay.pegs → ∃ f : Peg → Peg, (∀ y, (f y).num = y.num ∧ (f y).value = y.value) ∧
      (noAcquirer s p → f = fun y => y) ∧ t.bay.pegs = updateFirst (fun y => y.num == p) f s.bay.pegs := fun t ht =>
    ⟨fun y => y, fun _ => ⟨rfl, rfl⟩, fun _ => rfl, ht.trans (updateFirst_id _ _).symm⟩
  unfold settlePeg
  cases hx : pegAt s p with
  | none => exact hsame s rfl
  | some x =>
    obtain ⟨hpegs, hno⟩ := foldl_serveWait (p := p) stOk (s.bay.waits.filter (fun w => w.peg == p && waitHolds w x.value))
      (wakeWaitingCuts s p x.value)
    rw [bay_wakeWaitingCuts] at hpegs
    have hno' : noAcquirer s p → nextAcquire _ p = none := fun h => nextAcquire_of_none (hno (by
      intro w hw
      rw [bay_wakeWaitingCuts] at hw
      exact h w hw))
    dsimp only
    generalize hs1 : (s.bay.waits.filter (fun w => w.peg == p && waitHolds w x.value)).foldl (fun st w => serveWait st w stOk)
      (wakeWaitingCuts s p x.value) = s1 at hpegs hno' ⊢
    split
    · exact hsame s1 hpegs
    · cases hn : nextAcquire s1 p with
      | none => exact hsame s1 hpegs
      | some w =>
        dsimp only
        split
        · refine ⟨fun y => { y with holder := some w.ctx, broken := false }, fun _ => ⟨rfl, rfl⟩, fun h => ?_, ?_⟩
          · exact absurd (hn.symm.trans (hno' h)) (Option.some_ne_none w)
          · rw [(endWait_rest _ _).1, ← hpegs]
            rfl
        · exact hsame _ ((pegs_serveWait w stOk).trans hpegs)

theorem pegAt_settlePeg (h : pegAt s p = some x) : ∃ y, pegAt (settlePeg s p) p = some y ∧ y.value = x.value := by
  obtain ⟨f, hf, -, hpegs⟩ := settlePeg_pegs s p
  refine ⟨f x, ?_, (hf x).2⟩
  unfold pegAt at h ⊢
  rw [hpegs, find_updateFirst_same _ _ _ (fun a ha => by simpa [(hf a).1] using ha), h]
  rfl

theorem pegAt_settlePeg_of_none (hno : noAcquirer s p) (h : pegAt s p = some x) : pegAt (settlePeg s p) p = some x := by
  obtain ⟨f, hf, hid, hpegs⟩ := settlePeg_pegs s p
  rw [hid hno, updateFirst_id] at hpegs
  exact (pegAt_congr hpegs p).trans h

/-- A peg changed and settled has the value that the change gave it. -/
theorem pegAt_settle_updPeg {f : Peg → Peg} (hf : ∀ y, (f y).num = y.num) (h : pegAt s p = some x) :
    ∃ y, pegAt (settlePeg (updPeg s p f) p) p = some y ∧ y.value = (f x).value :=
  pegAt_settlePeg (by rw [pegAt_updPeg_same s p f hf, h]; rfl)

/-! The operations on a peg as it stands. -/

section Ops

variable (hx : pegAt s p = some x) (huse : mayUsePeg s ctx x = true)

include hx huse

theorem pegSetOp_stands (hkind : x.kind ≠ .notice) : pegSetOp s ctx p v =
    (settlePeg (updPeg s p (fun y => { y with value := v })) p, .ended stOk v.toNat) := by
  simp [pegSetOp, hx, huse, hkind]

theorem pegAddOp_stands (hkind : x.kind ≠ .notice) : pegAddOp s ctx p v =
    (settlePeg (updPeg s p (fun y => { y with value := y.value + v })) p, .ended stOk (x.value + v).toNat) := by
  simp [pegAddOp, hx, huse, hkind]

theorem pegTestOp_ge : pegTestOp s ctx p .ge v =
    (s, if v.toNat ≤ x.value.toNat then .ended stOk x.value.toNat else .waits .ge) := by
  simp only [pegTestOp, hx, huse, Bool.not_true, Bool.false_eq_true, if_false, decide_eq_true_eq]
  split <;> rfl

theorem pegTestOp_eq : pegTestOp s ctx p .eq v = (s, if x.value = v then .ended stOk x.value.toNat else .waits .eq) := by
  simp only [pegTestOp, hx, huse, Bool.not_true, Bool.false_eq_true, if_false, beq_iff_eq]
  split <;> rfl

theorem pegAcquireOp_stands (hkind : x.kind ≠ .notice) (hother : x.holder ≠ some ctx) : pegAcquireOp s ctx p =
    if x.holder = none then (takePeg s p ctx, .ended (if x.broken then stPegBroken else stOk) x.value.toNat)
    else (s, .waits .acquire) := by
  cases hh : x.holder <;> simp_all [pegAcquireOp]

theorem pegReleaseOp_stands (hkind : x.kind ≠ .notice) (hholder : x.holder = some ctx) : pegReleaseOp s ctx p 0 =
    (settlePeg (updPeg s p (fun y => { y with holder := none })) p, .ended stOk x.value.toNat) := by
  simp [pegReleaseOp, hx, huse, hkind, hholder]

end Ops

/-- A peg that the context may not use is not found. -/
theorem pegTestOp_not_found (kind : WaitKind) (h : ∀ x, pegAt s p = some x → mayUsePeg s ctx x = false) :
    pegTestOp s ctx p kind v = (s, .ended stNotFound 0) := by
  unfold pegTestOp
  cases hx : pegAt s p with
  | none => rfl
  | some x => simp [h x hx]

/-! The command of a queue pair and the instruction of a thread. -/

theorem pegHost_of_ended {t : State} {st r : Nat} (ht : ioTakes s q cid 0x09 c) (hop : field c.sqe 84 4 = op)
    (h : pegOp op (pegTurn s (field c.sqe 64 17) 160) (ctxOfQueue s q) (field c.sqe 64 17) (BitVec.ofNat 64 (field c.sqe 128 64)) =
      (t, .ended st r)) :
    pegHost op q cid s = progressCtx (endCmd t q c st r) (ctxOfQueue s q) := by
  rw [pegHost, withIo_of_ioTakes ht]
  simp [hop, h]

theorem pegHost_of_waits {t : State} {k : WaitKind} (ht : ioTakes s q cid 0x09 c) (hop : field c.sqe 84 4 = op)
    (h : pegOp op (pegTurn s (field c.sqe 64 17) 160) (ctxOfQueue s q) (field c.sqe 64 17) (BitVec.ofNat 64 (field c.sqe 128 64)) =
      (t, .waits k)) :
    pegHost op q cid s =
      beginWait t q c (ctxOfQueue s q) (field c.sqe 64 17) k (BitVec.ofNat 64 (field c.sqe 128 64)) := by
  rw [pegHost, withIo_of_ioTakes ht]
  simp [hop, h]

/-- The BROKEN that a thread's answer carries: of a wait or an acquisition of a broken peg. -/
def answersBroken (s : State) (op p : Nat) : Bool := (pegAt s p).any (fun x => x.broken) && 2 ≤ op && op ≤ 4

theorem pegThread_of_ended {t : State} {st r : Nat} {y : Ctx} (hc : ctxAt s ctx = some y) (hst : st ≠ stNotFound)
    (h : pegOp op (pegTurn s p (thr / 16384)) ctx p v = (t, .ended st r)) :
    pegThread op ctx thr p v s = threadAnswer t ctx thr p (st == stOk || st == stPegBroken) (answersBroken s op p) := by
  simp [pegThread, hc, h, hst, answersBroken]

theorem pegThread_of_waits {t : State} {k : WaitKind} {y : Ctx} (hc : ctxAt s ctx = some y)
    (h : pegOp op (pegTurn s p (thr / 16384)) ctx p v = (t, .waits k)) :
    pegThread op ctx thr p v s = threadAnswer t ctx thr p false (answersBroken s op p) := by
  simp [pegThread, hc, h, answersBroken]

theorem pegThread_of_not_found {t : State} {r : Nat} {y : Ctx} (hc : ctxAt s ctx = some y)
    (h : pegOp op (pegTurn s p (thr / 16384)) ctx p v = (t, .ended stNotFound r)) :
    pegThread op ctx thr p v s = faultContext s ctx faultPeg := by
  simp [pegThread, hc, h]

theorem num_threadAt (s : State) (n : Nat) : (threadAt s n).num = n := by
  unfold threadAt
  cases h : s.cells.threads.find? (fun t => t.num == n) with
  | none => rfl
  | some t => simpa using List.find?_some h

theorem threadAt_setThread_same (t : Thread) : threadAt (setThread s t) t.num = t := by
  unfold threadAt setThread
  rw [find_insertBy_same _ _ _ _ (by simp) (by
    intro a ha
    have := (List.mem_filter.1 ha).2
    simpa using this)]
  rfl

theorem threadAt_setThread_other (t : Thread) {n : Nat} (h : n ≠ t.num) : threadAt (setThread s t) n = threadAt s n := by
  unfold threadAt setThread
  rw [find_insertBy_other _ _ _ _ (by simpa using Ne.symm h), find_filter_other _ _ _ (by
    intro a ha
    simp_all)]

end Sys2Proof.Machine

/-! SUPPORT. The answers of a peg operation to a thread and to a queue pair (R277, R309). -/

namespace Sys2Proof.Machine

open Sys2Proof

variable {s t : State} {q cid p op ctx thr : Nat} {c : Cmd} {v w : Word64} {x : Peg} {ok broken : Bool}

theorem pegAt_setThread (u : Thread) (n : Nat) : pegAt (setThread s u) n = pegAt s n := rfl

@[simp] theorem pegAt_threadAnswer (n : Nat) : pegAt (threadAnswer s ctx thr p ok broken) n = pegAt s n := by
  unfold threadAnswer
  dsimp only
  split <;> rfl

/-- The results with one more, and a thread that no longer waits. -/
def withThreadResult (s : State) (r : Nat × Nat × Nat × Bool × Word64 × Bool) : State :=
  { s with bay := { s.bay with threadResults := s.bay.threadResults ++ [r] } }

def freedThread (s : State) (thr : Nat) : Thread := { threadAt s thr with wait := none }

theorem num_freedThread : (freedThread s thr).num = thr := num_threadAt s thr

theorem threadAt_withThreadResult (r : Nat × Nat × Nat × Bool × Word64 × Bool) (n : Nat) :
    threadAt (withThreadResult s r) n = threadAt s n := rfl

theorem threadAnswer_eq (hx : pegAt s p = some x) : threadAnswer s ctx thr p ok broken =
    if (threadAt s thr).wait = some (.peg p) then
      setThread (withThreadResult s (ctx, thr, p, ok, x.value, broken)) (freedThread s thr)
    else withThreadResult s (ctx, thr, p, ok, x.value, broken) := by
  have hv : ((pegAt s p).map (fun x => x.value)).getD 0 = x.value := by rw [hx]; rfl
  by_cases hw : (threadAt s thr).wait = some (.peg p)
  · simp only [threadAnswer, hv]
    exact (if_pos (beq_iff_eq.2 hw)).trans (if_pos hw).symm
  · simp only [threadAnswer, hv]
    exact (if_neg (fun h => hw (beq_iff_eq.1 h))).trans (if_neg hw).symm

/-- The answer to a thread with the peg as it stands: its wait ends, its registers and every other thread stand. -/
theorem threadAnswer_rest (hx : pegAt s p = some x) (ht : t = threadAnswer s ctx thr p ok broken) :
    t = { s with cells := t.cells, bay := { s.bay with
        threadResults := s.bay.threadResults ++ [(ctx, thr, p, ok, x.value, broken)] } } ∧
      t.cells = { s.cells with threads := t.cells.threads } ∧
      ((threadAt s thr).wait = some (.peg p) → (threadAt t thr).wait = none) ∧ (threadAt t thr).regs = (threadAt s thr).regs ∧
      ∀ k, k ≠ thr → threadAt t k = threadAt s k := by
  rw [threadAnswer_eq hx] at ht
  by_cases hw : (threadAt s thr).wait = some (.peg p)
  · rw [if_pos hw] at ht
    have hsame : threadAt t thr = freedThread s thr := by
      have h := threadAt_setThread_same (s := withThreadResult s (ctx, thr, p, ok, x.value, broken)) (freedThread s thr)
      rwa [num_freedThread, ← ht] at h
    have hother : ∀ k, k ≠ thr → threadAt t k = threadAt s k := fun k hk => by
      rw [ht, threadAt_setThread_other _ (hk.trans_eq num_freedThread.symm), threadAt_withThreadResult]
    exact ⟨by rw [ht]; rfl, by rw [ht]; rfl, fun _ => by rw [hsame]; rfl, by rw [hsame]; rfl, hother⟩
  · rw [if_neg hw] at ht
    subst ht
    exact ⟨rfl, rfl, fun h => absurd h hw, rfl, fun k _ => rfl⟩

/-- A command that waits: its record runs, and a wait is kept with the limit of its time. -/
theorem beginWait_of_room {kind : WaitKind} (htime : field c.sqe 192 32 ≠ 0) (hroom : s.bay.waits.length < 65536) :
    beginWait s q c ctx p kind v = { startCmd s q c with bay := { s.bay with waits := s.bay.waits ++
      [{ q := q, cid := c.cid, ctx := ctx, peg := p, kind := kind, operand := v, tick := now s, port := 160,
         limit := if field c.sqe 192 32 = 0xFFFFFFFF then none else some (now s + 1000 * field c.sqe 192 32) }] } } := by
  simp [beginWait, htime, hroom]

theorem beginWait_of_no_time {kind : WaitKind} (htime : field c.sqe 192 32 = 0) (hx : pegAt s p = some x) :
    beginWait s q c ctx p kind v = endCmd s q c stPegTimeout x.value.toNat := by
  simp [beginWait, htime, hx]

/-- A change of a peg depends on what it makes of the peg that stands. -/
theorem updPeg_congr {f g : Peg → Peg} (hx : pegAt s p = some x) (h : f x = g x) : updPeg s p f = updPeg s p g := by
  have hlist : ∀ l : List Peg, l.find? (fun y => y.num == p) = some x →
      updateFirst (fun y => y.num == p) f l = updateFirst (fun y => y.num == p) g l := by
    intro l
    induction l with
    | nil => exact fun _ => rfl
    | cons y r ih =>
      intro hl
      by_cases hy : y.num = p
      · obtain rfl : y = x := by simpa [hy] using hl
        simp [updateFirst, hy, h]
      · have hr : r.find? (fun y => y.num == p) = some x := by simpa [hy] using hl
        simp [updateFirst, hy, ih hr]
  unfold updPeg
  rw [hlist _ hx]

theorem pegTest_of_row {row : Instr} (i : PegIssuer)
    (hrow : row = .pegWaitGe i ∧ op = 2 ∨ row = .pegWaitEq i ∧ op = 3) : Machine.exec row s = .next (pegBy op i s) := by
  rcases hrow with ⟨rfl, rfl⟩ | ⟨rfl, rfl⟩
  · rfl
  · rfl

/-- What a test of a peg finds: GE of 2, EQ of 3. -/
def pegMeets (op : Nat) (x v : Word64) : Prop := if op = 2 then v.toNat ≤ x.toNat else x = v

theorem pegOp_meets (hop : op = 2 ∨ op = 3) (hx : pegAt s p = some x) (huse : mayUsePeg s ctx x = true)
    (hmeets : pegMeets op x.value v) : pegOp op s ctx p v = (s, .ended stOk x.value.toNat) := by
  rcases hop with rfl | rfl
  · exact (pegTestOp_ge hx huse).trans (by rw [if_pos (show v.toNat ≤ x.value.toNat from hmeets)])
  · exact (pegTestOp_eq hx huse).trans (by rw [if_pos (show x.value = v from hmeets)])

theorem pegOp_waits (hop : op = 2 ∨ op = 3) (hx : pegAt s p = some x) (huse : mayUsePeg s ctx x = true)
    (hmeets : ¬ pegMeets op x.value v) : ∃ k, pegOp op s ctx p v = (s, .waits k) := by
  rcases hop with rfl | rfl
  · exact ⟨_, (pegTestOp_ge hx huse).trans (by rw [if_neg (show ¬ v.toNat ≤ x.value.toNat from hmeets)])⟩
  · exact ⟨_, (pegTestOp_eq hx huse).trans (by rw [if_neg (show ¬ x.value = v from hmeets)])⟩

theorem pegOp_not_found (hop : op = 2 ∨ op = 3) (h : ∀ x, pegAt s p = some x → mayUsePeg s ctx x = false) :
    pegOp op s ctx p v = (s, .ended stNotFound 0) := by
  rcases hop with rfl | rfl
  · exact pegTestOp_not_found .ge h
  · exact pegTestOp_not_found .eq h

/-- The rows of a queue pair's test that its operand meets, and of one that it does not. -/
theorem meets_of_row {row : Instr} {i : PegIssuer} (hrow : row = .pegWaitGe i ∧ op = 2 ∧ v.toNat ≤ x.value.toNat ∨
    row = .pegWaitEq i ∧ op = 3 ∧ x.value = v) :
    Machine.exec row s = .next (pegBy op i s) ∧ (op = 2 ∨ op = 3) ∧ pegMeets op x.value v := by
  rcases hrow with ⟨rfl, rfl, h⟩ | ⟨rfl, rfl, h⟩
  · exact ⟨rfl, .inl rfl, h⟩
  · exact ⟨rfl, .inr rfl, h⟩

theorem not_meets_of_row {row : Instr} {i : PegIssuer} (hrow : row = .pegWaitGe i ∧ op = 2 ∧ x.value.toNat < v.toNat ∨
    row = .pegWaitEq i ∧ op = 3 ∧ x.value ≠ v) :
    Machine.exec row s = .next (pegBy op i s) ∧ (op = 2 ∨ op = 3) ∧ ¬ pegMeets op x.value v := by
  rcases hrow with ⟨rfl, rfl, h⟩ | ⟨rfl, rfl, h⟩
  · exact ⟨rfl, .inl rfl, show ¬ v.toNat ≤ x.value.toNat by omega⟩
  · exact ⟨rfl, .inr rfl, h⟩

theorem answersBroken_of_wait (hop : op = 2 ∨ op = 3 ∨ op = 4) (hx : pegAt s p = some x) : answersBroken s op p = x.broken := by
  rcases hop with rfl | rfl | rfl <;> simp [answersBroken, hx]

theorem answersBroken_of_set (hop : op = 0 ∨ op = 1 ∨ op = 5) : answersBroken s op p = false := by
  rcases hop with rfl | rfl | rfl <;> simp [answersBroken]

end Sys2Proof.Machine

/-! SUPPORT. Peg operations: each clause of the rows (R277, R307 to R311, R345). -/

namespace Sys2Proof.Machine

open Sys2Proof

variable {s t : State} {q cid p op ctx thr : Nat} {c : Cmd} {v w : Word64} {x : Peg} {ok broken : Bool}

/-- A peg changed, settled and answered to its command. -/
theorem pegHost_changes {f : Peg → Peg} {r : Nat} (ht : ioTakes s q cid 0x09 c) (hop : field c.sqe 84 4 = op)
    (hp : p = field c.sqe 64 17) (hv : v = BitVec.ofNat 64 (field c.sqe 128 64)) (hx : pegAt s p = some x)
    (hf : ∀ y, (f y).num = y.num)
    (h : pegOp op (pegTurn s p 160) (ctxOfQueue s q) p v = (settlePeg (updPeg (pegTurn s p 160) p f) p, .ended stOk r)) :
    ∃ t y, .next (pegHost op q cid s) = (Host.Outcome.next t : Host.Outcome State Fault Refusal) ∧ pegAt t p = some y ∧
      y.value = (f x).value ∧
      t = progressCtx (endCmd (settlePeg (updPeg (pegTurn s p 160) p f) p) q c stOk r) (ctxOfQueue s q) := by
  subst hp hv
  obtain ⟨y, hy, hval⟩ := pegAt_settle_updPeg (s := pegTurn s (field c.sqe 64 17) 160) hf ((pegAt_pegTurn _).trans hx)
  exact ⟨_, y, congrArg _ (pegHost_of_ended ht hop h), (pegAt_progress_end _).trans hy, hval, rfl⟩

/-- A peg changed, settled and answered to its thread. -/
theorem pegThread_changes {f : Peg → Peg} {r : Nat} {y : Ctx} (hc : ctxAt s ctx = some y) (hop : op = 0 ∨ op = 1 ∨ op = 5)
    (hx : pegAt s p = some x) (hf : ∀ y, (f y).num = y.num)
    (h : pegOp op (pegTurn s p (thr / 16384)) ctx p v =
      (settlePeg (updPeg (pegTurn s p (thr / 16384)) p f) p, .ended stOk r)) :
    ∃ t y, .next (pegThread op ctx thr p v s) = (Host.Outcome.next t : Host.Outcome State Fault Refusal) ∧ pegAt t p = some y ∧
      y.value = (f x).value ∧ t = threadAnswer (settlePeg (updPeg (pegTurn s p (thr / 16384)) p f) p) ctx thr p true false := by
  obtain ⟨y, hy, hval⟩ := pegAt_settle_updPeg (s := pegTurn s p (thr / 16384)) hf ((pegAt_pegTurn _).trans hx)
  refine ⟨_, y, congrArg _ ((pegThread_of_ended hc (by decide) h).trans ?_), (pegAt_threadAnswer _).trans hy, hval, rfl⟩
  rw [answersBroken_of_set hop]
  rfl

theorem pegHost_acquires (ht : ioTakes s q cid 0x09 c) (hop : field c.sqe 84 4 = 4) (hp : p = field c.sqe 64 17)
    (hx : pegAt s p = some x) (huse : mayUsePeg s (ctxOfQueue s q) x = true) (hkind : x.kind ≠ .notice)
    (hfree : x.holder = none) :
    pegHost 4 q cid s = progressCtx (endCmd (takePeg (pegTurn s p 160) p (ctxOfQueue s q)) q c
      (if x.broken then stPegBroken else stOk) x.value.toNat) (ctxOfQueue s q) := by
  subst hp
  have hacq := pegAcquireOp_stands (s := pegTurn s (field c.sqe 64 17) 160) ((pegAt_pegTurn _).trans hx)
    (mayUsePeg_pegTurn.trans huse) hkind (by simp [hfree])
  exact pegHost_of_ended ht hop (hacq.trans (if_pos hfree))

theorem pegAt_takePeg (hx : pegAt s p = some x) : pegAt (takePeg s p ctx) p = some { x with holder := some ctx, broken := false } := by
  rw [takePeg, pegAt_updPeg_same _ _ _ (by exact fun _ => rfl), hx]
  rfl

theorem pegThread_acquires {y : Ctx} (hc : ctxAt s ctx = some y) (hx : pegAt s p = some x) (huse : mayUsePeg s ctx x = true)
    (hkind : x.kind ≠ .notice) (hother : x.holder ≠ some ctx) :
    pegThread 4 ctx thr p v s = if x.holder = none
      then threadAnswer (takePeg (pegTurn s p (thr / 16384)) p ctx) ctx thr p true x.broken
      else threadAnswer (pegTurn s p (thr / 16384)) ctx thr p false x.broken := by
  have hacq := pegAcquireOp_stands (s := pegTurn s p (thr / 16384)) ((pegAt_pegTurn _).trans hx)
    (mayUsePeg_pegTurn.trans huse) hkind hother
  have hb : answersBroken s 4 p = x.broken := answersBroken_of_wait (by simp) hx
  by_cases hfree : x.holder = none
  · have hst : (if x.broken then stPegBroken else stOk) ≠ stNotFound ∧
        (((if x.broken then stPegBroken else stOk) == stOk || (if x.broken then stPegBroken else stOk) == stPegBroken) = true) := by
      cases x.broken <;> decide
    rw [if_pos hfree] at hacq ⊢
    rw [pegThread_of_ended (op := 4) hc hst.1 hacq, hst.2, hb]
  · rw [if_neg hfree] at hacq ⊢
    rw [pegThread_of_waits (op := 4) hc hacq, hb]

/-- A thread's test of a peg answers whether it holds, with the peg as it stands. -/
theorem pegThread_tests {y : Ctx} {met : Bool} (hc : ctxAt s ctx = some y) (hop : op = 2 ∨ op = 3) (hx : pegAt s p = some x)
    (huse : mayUsePeg s ctx x = true) (hmet : met = true ↔ pegMeets op x.value v) :
    pegThread op ctx thr p v s = threadAnswer (pegTurn s p (thr / 16384)) ctx thr p met x.broken := by
  have hx' : pegAt (pegTurn s p (thr / 16384)) p = some x := (pegAt_pegTurn _).trans hx
  have huse' : mayUsePeg (pegTurn s p (thr / 16384)) ctx x = true := mayUsePeg_pegTurn.trans huse
  have hb : answersBroken s op p = x.broken := answersBroken_of_wait (by tauto) hx
  cases met with
  | true => rw [pegThread_of_ended hc (by decide) (pegOp_meets hop hx' huse' (hmet.1 rfl)), hb]; rfl
  | false =>
    obtain ⟨k, hk⟩ := pegOp_waits hop hx' huse' (fun h => Bool.false_ne_true (hmet.2 h))
    rw [pegThread_of_waits hc hk, hb]

theorem execPegWaitTimeout_of_limit {lim : Nat} {w : PegWait}
    (hw : s.bay.waits.find? (fun y => y.q == q && y.cid == cid && !y.lost) = some w) (hlim : w.limit = some lim) :
    execPegWaitTimeout q cid s = .next (endWait (advanceTo s lim) w stPegTimeout) := by
  simp [execPegWaitTimeout, hw, hlim]

/-- A repeated signal settles the peg with the signals of its waits no longer lost. -/
theorem execPegSignalRepeat_eq (s : State) (p : Nat) : execPegSignalRepeat p s = .next (settlePeg { s with bay := { s.bay with
    waits := s.bay.waits.map (fun w => if w.peg = p then { w with lost := false } else w) } } p) := by
  simp [execPegSignalRepeat]

/-- A released peg that nobody waits to acquire has no holder. -/
theorem holder_of_released (hx : pegAt s p = some x) (hno : noAcquirer s p) :
    ∃ y, pegAt (settlePeg (updPeg s p (fun z => { z with holder := none })) p) p = some y ∧ y.holder = none := by
  refine ⟨{ x with holder := none }, pegAt_settlePeg_of_none hno ?_, rfl⟩
  rw [pegAt_updPeg_same _ _ _ (by exact fun _ => rfl), hx]
  rfl

theorem tick_pegTurn (s : State) (p port : Nat) : (pegTurn s p port).time.dtb = pegTick s p port := by rw [pegTurn_eq]

/-- A wait that begins is kept behind the others, with its limit from its tick. -/
theorem beginWait_rest {kind : WaitKind} (htime : field c.sqe 192 32 ≠ 0) (hroom : s.bay.waits.length < 65536)
    (hcid : c.cid = cid) : ∃ w, beginWait s q c ctx p kind v =
      { s with queues := (beginWait s q c ctx p kind v).queues, bay := { s.bay with waits := s.bay.waits ++ [w] } } ∧
      w.q = q ∧ w.cid = cid ∧ w.peg = p ∧ w.operand = v ∧
      w.limit = if field c.sqe 192 32 = 0xFFFFFFFF then none else some (s.time.dtb + 1000 * field c.sqe 192 32) := by
  refine ⟨{ q := q, cid := c.cid, ctx := ctx, peg := p, kind := kind, operand := v, tick := now s, port := 160, limit :=
    if field c.sqe 192 32 = 0xFFFFFFFF then none else some (now s + 1000 * field c.sqe 192 32) }, ?_, rfl, hcid, rfl, rfl, rfl⟩
  rw [beginWait_of_room htime hroom, startCmd_frame]

/-- Settles O46: each clause is one operation on the peg as it stands, answered to its queue pair or its thread. -/
theorem pegRows : Obligations.PegRows := by
  unfold Obligations.PegRows
  refine ⟨fun s q cid p c v x ht hop hp hv hx huse hkind => ?_, fun s q cid p c v x ht hop hp hv hx huse hkind => ?_,
    fun s q cid p op c v x row ht hop hp hv hx huse hrow => ?_, fun s q cid p op c v x row ht hop hp hv hx huse hrow htime => ?_,
    fun s q cid p op c v x row ht hop hp hv hx huse hrow htime hroom => ?_,
    fun s q cid p c x ht hop hp hx huse hkind hfree => ?_, fun s q cid p c x ht hop hp h0 hx huse hkind hholder => ?_,
    fun s ctx thr p op v c x row met hc hx huse hrow => ?_, fun s ctx thr p v c row hc hno hrow => ?_,
    fun s q cid lim w hw hlim => ?_, fun s p => ?_, fun s p port => ?_,
    fun s ctx thr p v w c x row hc hx huse hkind hrow => ?_,
    fun s ctx thr p v c x hc hx huse hkind hother => congrArg Host.Outcome.next (pegThread_acquires hc hx huse hkind hother),
    fun s ctx thr p c x hc hx huse hkind hholder => ?_⟩
  · exact pegHost_changes (op := 0) (f := fun y => { y with value := v }) ht hop hp hv hx (fun _ => rfl)
      (pegSetOp_stands ((pegAt_pegTurn _).trans hx) (mayUsePeg_pegTurn.trans huse) hkind)
  · exact pegHost_changes (op := 1) (f := fun y => { y with value := y.value + v }) ht hop hp hv hx (fun _ => rfl)
      (pegAddOp_stands ((pegAt_pegTurn _).trans hx) (mayUsePeg_pegTurn.trans huse) hkind)
  · obtain ⟨hexec, hop2, hmeets⟩ := meets_of_row (s := s) hrow
    subst hp hv
    exact hexec.trans (congrArg Host.Outcome.next (pegHost_of_ended ht hop
      (pegOp_meets hop2 ((pegAt_pegTurn _).trans hx) (mayUsePeg_pegTurn.trans huse) hmeets)))
  · obtain ⟨hexec, hop2, hmeets⟩ := not_meets_of_row (s := s) hrow
    subst hp hv
    have hx' := (pegAt_pegTurn (p := field c.sqe 64 17) (port := 160) _).trans hx
    obtain ⟨k, hk⟩ := pegOp_waits hop2 hx' (mayUsePeg_pegTurn.trans huse) hmeets
    exact hexec.trans (congrArg Host.Outcome.next ((pegHost_of_waits ht hop hk).trans (beginWait_of_no_time htime hx')))
  · obtain ⟨hexec, hop2, hmeets⟩ := not_meets_of_row (s := s) hrow
    subst hp hv
    obtain ⟨k, hk⟩ := pegOp_waits hop2 ((pegAt_pegTurn (p := field c.sqe 64 17) (port := 160) _).trans hx) (mayUsePeg_pegTurn.trans huse) hmeets
    obtain ⟨w, hframe, hq, hcid, hpeg, hv, hlim⟩ := beginWait_rest (s := pegTurn s (field c.sqe 64 17) 160) (q := q)
      (ctx := ctxOfQueue s q) (p := field c.sqe 64 17) (v := BitVec.ofNat 64 (field c.sqe 128 64)) (kind := k) htime
      (waits_pegTurn.symm ▸ hroom) (cid_of_takeCmd ht.1)
    rw [waits_pegTurn] at hframe
    exact ⟨_, w, hexec.trans (congrArg Host.Outcome.next (pegHost_of_waits ht hop hk)), hframe, hq, hcid, hpeg, hv, hlim⟩
  · exact ⟨_, congrArg Host.Outcome.next (pegHost_acquires ht hop hp hx huse hkind hfree),
      (pegAt_progress_end _).trans (pegAt_takePeg ((pegAt_pegTurn _).trans hx)), rfl⟩
  · have hrel := pegReleaseOp_stands (s := pegTurn s p 160) ((pegAt_pegTurn _).trans hx) (mayUsePeg_pegTurn.trans huse) hkind hholder
    obtain ⟨t, y, hexec, hy, hval, ht'⟩ := pegHost_changes (op := 5) (f := fun y => { y with holder := none }) (v := 0)
      ht hop hp (by rw [h0]; rfl) hx (fun _ => rfl) hrel
    refine ⟨t, y, hexec, hy, hval, fun hno => ?_, ht'⟩
    obtain ⟨z, hz, hnone⟩ := holder_of_released (s := pegTurn s p 160) ((pegAt_pegTurn _).trans hx)
      (by simpa [noAcquirer] using hno)
    rw [ht'] at hy
    obtain rfl : z = y := Option.some.inj (hz.symm.trans ((pegAt_progress_end _).symm.trans hy))
    exact hnone
  · have hrow' : Machine.exec row s = .next (pegThread op ctx thr p v s) ∧ (op = 2 ∨ op = 3) ∧ (met = true ↔ pegMeets op x.value v) := by
      rcases hrow with ⟨rfl, rfl, rfl⟩ | ⟨rfl, rfl, rfl⟩
      · exact ⟨rfl, .inl rfl, decide_eq_true_iff⟩
      · exact ⟨rfl, .inr rfl, beq_iff_eq⟩
    obtain ⟨hexec, hop, hmet⟩ := hrow'
    have hx' : pegAt (pegTurn s p (thr / 16384)) p = some x := (pegAt_pegTurn _).trans hx
    obtain ⟨hframe, hcells, hwait, hregs, hothers⟩ := threadAnswer_rest (ctx := ctx) (thr := thr) (ok := met) (broken := x.broken) hx' rfl
    refine ⟨_, hexec.trans (congrArg Host.Outcome.next (pegThread_tests hc hop hx huse hmet)), ?_, ?_, ?_, ?_, ?_⟩
    · rw [pegTurn_eq] at hframe ⊢
      exact hframe
    · rw [pegTurn_eq] at hcells ⊢
      exact hcells
    · simpa using hwait
    · simpa using hregs
    · simpa using hothers
  · have hno' : ∀ y, pegAt (pegTurn s p (thr / 16384)) p = some y → mayUsePeg (pegTurn s p (thr / 16384)) ctx y = false := by
      simpa using hno
    simp only [List.mem_cons, List.not_mem_nil, or_false] at hrow
    rcases hrow with rfl | rfl
    · exact ⟨_, congrArg Host.Outcome.next (pegThread_of_not_found hc (pegOp_not_found (.inl rfl) hno')), rfl⟩
    · exact ⟨_, congrArg Host.Outcome.next (pegThread_of_not_found hc (pegOp_not_found (.inr rfl) hno')), rfl⟩
  · obtain ⟨-, hwaits, htime⟩ := endWait_rest (s := advanceTo s lim) w stPegTimeout
    exact ⟨_, execPegWaitTimeout_of_limit hw hlim, rfl, congrArg TimeState.dtb htime, hwaits⟩
  · exact ⟨_, execPegSignalRepeat_eq s p, rfl, fun y hy => pegAt_settlePeg (p := p) hy⟩
  · exact ⟨pegTick s p port, rfl, pegTurn_frame s p port, lookupKey_pegTurn s p port⟩
  · simp only [List.mem_cons, Prod.mk.injEq, List.not_mem_nil, or_false] at hrow
    rcases hrow with ⟨rfl, rfl⟩ | ⟨rfl, rfl⟩
    · exact pegThread_changes (op := 0) (f := fun y => { y with value := w }) hc (by simp) hx (fun _ => rfl)
        (pegSetOp_stands ((pegAt_pegTurn _).trans hx) (mayUsePeg_pegTurn.trans huse) hkind)
    · have hadd := pegAddOp_stands (v := v) ((pegAt_pegTurn (p := p) (port := thr / 16384) p).trans hx) (mayUsePeg_pegTurn.trans huse) hkind
      rw [updPeg_congr (g := fun z => { z with value := x.value + v }) ((pegAt_pegTurn _).trans hx) rfl] at hadd
      exact pegThread_changes (op := 1) (f := fun z => { z with value := x.value + v }) hc (by simp) hx (fun _ => rfl) hadd
  · exact pegThread_changes (op := 5) (f := fun y => { y with holder := none }) hc (by simp) hx (fun _ => rfl)
      (pegReleaseOp_stands ((pegAt_pegTurn _).trans hx) (mayUsePeg_pegTurn.trans huse) hkind hholder)

end Sys2Proof.Machine

/-! SUPPORT. A host that uses a CID again while its first command runs (R262, R266). -/

namespace Sys2Proof.Machine

open Sys2Proof

/-- SEARCH with CID 5 and plan 1, its results at 64. -/
def secondSearch : Cmd := { cid := 5, sqe := BitVec.ofNat 512 (1 + 5 * 2 ^ 32 + 2 ^ 64 + 64 * 2 ^ 448), arrival := 0, sqHead := 0, seq := 1 }

/-- SEARCH with CID 5 and plan 1 that runs, its results at 0. -/
def firstSearch : Cmd :=
  { cid := 5, sqe := BitVec.ofNat 512 (1 + 5 * 2 ^ 32 + 2 ^ 64), arrival := 0, sqHead := 0, phase := .running }

/-- A pair of batch size 1 with both commands. -/
def twiceUsedCid : QPair :=
  { id := 0, ctx := 0, bay := 0, lc := false, dqp := 0, bsize := 1, q := { cmds := [firstSearch, secondSearch] } }

/-- A search plan of no index. -/
def plainPlan : Plan :=
  { handle := 1, ctx := 0, kind := .search, index := none, lcOk := false, flashClass := false, sr := false, arrays := [],
    rimeSector := none, params := {}, profile := none, cuts := [], pegs := [], weights := [] }

/-- A stopped module with the pair and the plan. -/
def cidUsedTwice : State :=
  { State.reset with
    queues := { State.reset.queues with pairs := [twiceUsedCid] }, bay := { State.reset.bay with plans := [plainPlan] },
    adm := { State.reset.adm with stopped := true } }

/-- A query descriptor of one position. -/
def onePosition : BitVec 1024 := BitVec.ofNat 1024 (1 + 2 ^ 32 + 2 ^ 512)

/-- Refutes O47: of two commands of one CID the header of the second's refused position goes to the address of the first. -/
theorem not_batchRows : ¬ Obligations.BatchRows := by
  intro h
  obtain ⟨t, ht, -, hout⟩ := h.2.1 cidUsedTwice 0 5 1 0 stRefusedCapacity .search onePosition [] (.search 0 5 onePosition [])
    secondSearch twiceUsedCid plainPlan (by simp [batchRows]) ⟨by decide +kernel, by decide +kernel⟩ (by decide +kernel)
    (by decide +kernel) (by decide +kernel) (by decide +kernel) rfl rfl rfl (fun hlc => by cases hlc) (by decide +kernel)
    (by intro b; cases b <;> decide +kernel)
  have hrun : Machine.exec (.search 0 5 onePosition []) cidUsedTwice =
      .next (batchRow 0x01 .search 0 5 onePosition [] cidUsedTwice) := by rfl
  have hheader : (batchRow 0x01 .search 0 5 onePosition [] cidUsedTwice).out =
      [.header 0 5 0 0 (headerWord 0 { status := stRefusedCapacity })] := by decide +kernel
  obtain rfl := Host.Outcome.next.inj (hrun.symm.trans ht)
  have haddr : (cidUsedTwice.out ++ [.header 0 5 0 (sqePtr2 secondSearch.sqe + 0 * regionBytes cidUsedTwice plainPlan)
      (headerWord cidUsedTwice.time.dtb { status := stRefusedCapacity })]) =
      [.header 0 5 0 64 (headerWord 0 { status := stRefusedCapacity })] := by decide +kernel
  have hsame := hheader.symm.trans (hout.trans haddr)
  simp at hsame

end Sys2Proof.Machine

/-! SUPPORT. A vector register that holds more lanes than it has (R162). -/

namespace Sys2Proof.Machine

open Sys2Proof

/-- A query of the plan in slot 0. -/
def plainQuery : Query := newQuery State.reset twiceUsedCid plainPlan firstSearch 0x01 0 0 0 []

/-- Register 0 of cell 0 holds 65 zero lanes. -/
def longRegister : State :=
  { State.reset with
    adm := { State.reset.adm with queries := [plainQuery] }, bay := { State.reset.bay with plans := [plainPlan] },
    cells := { State.reset.cells with vregs := [(0, List.replicate 65 0)] } }

/-- Refutes O48: zero written into a register of 65 zero lanes leaves its 64 lanes, not the 65 that the statement's list keeps. -/
theorem not_planRows : ¬ Obligations.PlanRows := by
  intro h
  obtain ⟨-, -, -, -, -, -, -, -, -, -, -, -, hvector, -⟩ := h
  have hlanes := hvector longRegister 0 0 0 0 [0] plainQuery plainPlan (by decide +kernel) (by decide +kernel) (by decide +kernel) rfl
    (by decide) (by decide)
  have hlen : (vectorLanes (cutOp 0 [0] longRegister (.vector 0 0 [0])) 0 0).length = 64 := by decide +kernel
  have hlong : ([0] ++ (vectorLanes longRegister 0 0).drop [(0 : BitVec 80)].length).length = 65 := by decide +kernel
  exact absurd (hlen.symm.trans ((congrArg List.length hlanes).trans hlong)) (by decide)

end Sys2Proof.Machine

/-! SUPPORT. A query whose set bitmap lies in the second of two frames of one number (R52, R66). -/

namespace Sys2Proof.Machine

open Sys2Proof

/-- An index of tier DRAM with one node and no regions. -/
def oneNodeIndex : Index :=
  { num := 0,
    params := { nCap := 1, w := 256, degree := 0, dramTier := true, hubs := 0, groups := 0, atype := 0, rfmt := 0, rdim := 0,
                rgs := 0, rsck := 0, flashDirect := false, driftLimit := 0 },
    versions := [{ num := 0, driftBase := 0, nodes := [{ id := 0, version := 0, code := 0 }] }] }

/-- A query that reads the record of node 0; its set of one local ID lies at the start of page 4096. -/
def setQuery : Query :=
  { plainQuery with recs := [0], index := some 0, filter := some (BitVec.ofNat 512 (2 ^ 350 + 2 ^ 384 + 2 ^ 452)) }

/-- Pages 0 and 4096 in two frames of number 0, whose first byte is 1. -/
def bitmapInSecondFrame : State :=
  { State.reset with
    indexes := [oneNodeIndex], adm := { State.reset.adm with queries := [setQuery] },
    bay := { State.reset.bay with plans := [plainPlan] },
    tier := { State.reset.tier with
      frames := [{ num := 0, state := .resident, page := 0 }, { num := 0, state := .resident, page := 4096 }],
      dram := memWriteBytes State.reset.tier.dram (dramKey 0 0) [1] } }

/-- Refutes O49: the read of the record keeps the first of two frames of one number, so the bit of the set is read from no frame. -/
theorem not_queryRows : ¬ Obligations.QueryRows := by
  intro h
  obtain ⟨-, -, -, -, -, -, -, -, -, -, -, -, hrecord, -⟩ := h
  obtain ⟨t, y, ht, -, -, hy, -, -, -, hfound⟩ := hrecord bitmapInSecondFrame 0 0 setQuery oneNodeIndex
    { num := 0, driftBase := 0, nodes := [{ id := 0, version := 0, code := 0 }] } plainPlan { id := 0, version := 0, code := 0 }
    (by decide +kernel) ⟨rfl, rfl⟩ (by decide +kernel) (by decide +kernel) (by decide +kernel) (by decide +kernel) rfl
    (by decide +kernel)
  have hrun : ∃ u, Machine.exec (.dramRecordReadDone 0 0 { media := .ok }) bitmapInSecondFrame = .next u ∧
      (queryAt u 0).map (fun z => z.found) = some [] := ⟨_, rfl, by decide +kernel⟩
  obtain ⟨u, hu, hnone⟩ := hrun
  obtain rfl := Host.Outcome.next.inj (hu.symm.trans ht)
  have hpasses : (passTagRange setQuery.filter 0 0 0 && passSet bitmapInSecondFrame setQuery 0) = true := by decide +kernel
  rw [hy] at hnone
  have hempty : y.found = [] := Option.some.inj hnone
  have hone : y.found = setQuery.found ++ [(hamming 256 setQuery.code 0, 0)] := hfound.trans (if_pos hpasses)
  simp [hempty] at hone

end Sys2Proof.Machine

/-! SUPPORT. An INSERT whose drift buffer lies in a page that two frames claim, one of a number that a third frame bears too (R51). -/

namespace Sys2Proof.Machine

open Sys2Proof

/-- An empty index with its drift buffer at page 4096. -/
def bufferIndex : Index :=
  { oneNodeIndex with
    params := { oneNodeIndex.params with nCap := 2, rfmt := 1, rdim := 16, driftLimit := 4 },
    versions := [{ num := 0, driftBase := 0 }], parts := [{ part := .driftBuffer, base := 4096, pages := 1 }] }

/-- INSERT of two entries into index 0. -/
def insertTwo : Cmd := { cid := 5, sqe := BitVec.ofNat 512 (5 + 5 * 2 ^ 32 + 2 ^ 80), arrival := 0, sqHead := 0 }

/-- Entries of local IDs 0 and 1. -/
def twoEntries : Bytes := List.replicate 320 0 ++ 1 :: List.replicate 319 0

/-- The drift entries of the block. -/
def twoDriftEntries : List DriftEntry :=
  ((List.range 2).map (cutInsert bufferIndex.params twoEntries)).zipIdx.map (fun e => driftEntry bufferIndex.params e.2 e.1)

/-- The buffer's page stands in frame 0, the second of its number, and in frame 5. -/
def bufferInTwoFrames : State :=
  { State.reset with
    queues := { State.reset.queues with pairs := [{ twiceUsedCid with q := { cmds := [insertTwo] } }] }, indexes := [bufferIndex],
    tier := { State.reset.tier with
      frames := [{ num := 0, state := .resident, page := 0 }, { num := 0, state := .resident, page := 4096 },
                 { num := 5, state := .resident, page := 4096 }] } }

/-- Refutes O50: the write of the first entry keeps only the first frame of number 0, so the second entry's slot goes to frame 5, outside
the places that the state before names. -/
theorem not_indexRows : ¬ Obligations.IndexRows := by
  intro h
  obtain ⟨-, -, -, hinsert, -⟩ := h
  obtain ⟨t, y, new, ht, -, hy, hdrift, hlen, -, hnew, -, -, -, -, hmem⟩ := hinsert bufferInTwoFrames 0 5 0 2 twoEntries
    ((List.range 2).map (cutInsert bufferIndex.params twoEntries)) insertTwo bufferIndex ⟨by decide +kernel, by decide +kernel⟩
    (by decide +kernel) (by decide +kernel) (by decide +kernel) rfl (by decide +kernel) rfl (by decide +kernel) (by decide +kernel)
    (by decide +kernel)
  have hrun : ∃ u, Machine.exec (.insert 0 5 twoEntries) bufferInTwoFrames = .next u ∧
      (indexAt u 0).map (fun x => x.drift) = some twoDriftEntries ∧ memRead u.tier.dram (dramKey 5 509) = 1 :=
    ⟨_, rfl, by decide +kernel, by decide +kernel⟩
  obtain ⟨u, hu, hentries, hbyte⟩ := hrun
  obtain rfl := Host.Outcome.next.inj (hu.symm.trans ht)
  rw [hy] at hentries
  have hnew' : new = twoDriftEntries := hdrift.symm.trans (Option.some.inj hentries)
  have hout : ∀ e ∈ new, ∀ d, bufferIndex.params.rfmt ≠ 0 →
      descOfPage bufferInTwoFrames (placeAddr bufferIndex .driftBuffer (e.seq % bufferIndex.params.driftLimit) / pageBytes) = some d →
      dramKey 5 509 < dramKey d (placeAddr bufferIndex .driftBuffer (e.seq % bufferIndex.params.driftLimit) % pageBytes) ∨
      dramKey d (placeAddr bufferIndex .driftBuffer (e.seq % bufferIndex.params.driftLimit) % pageBytes) + e.slot.length ≤ dramKey 5 509 := by
    rw [hnew']
    intro e he d _ hd
    have hall : twoDriftEntries.all (fun e =>
        (descOfPage bufferInTwoFrames (placeAddr bufferIndex .driftBuffer (e.seq % bufferIndex.params.driftLimit) / pageBytes)).all
          (fun d => decide (dramKey d (placeAddr bufferIndex .driftBuffer (e.seq % bufferIndex.params.driftLimit) % pageBytes) +
            e.slot.length ≤ dramKey 5 509))) = true := by decide +kernel
    have hone := List.all_eq_true.1 hall e he
    rw [hd] at hone
    exact .inr (of_decide_eq_true hone)
  have hzero : memRead bufferInTwoFrames.tier.dram (dramKey 5 509) = 0 := by decide +kernel
  exact absurd (hbyte.symm.trans ((hmem resetStoresWf.1 _ hout).trans hzero)) (by decide)

end Sys2Proof.Machine

/-! SUPPORT. A reclaimed bay that holds DRAM bandwidth still (R303). -/

namespace Sys2Proof.Machine

open Sys2Proof

/-- Bay 1 is reclaimed and has given up all but its share of DRAM bandwidth. -/
def shareLeft : State :=
  { State.reset with
    bay := { State.reset.bay with bays := [(1, { (bayAt State.reset 1) with mode := .reclaiming, expiry := some (0, 0), dramShare := 1 })] } }

/-- Refutes O53: a bay whose DRAM share is not yet drained is not done, and a completion of its reclaim changes nothing (R303). -/
theorem not_bayRows : ¬ Obligations.BayRows := by
  intro h
  obtain ⟨-, -, -, -, -, -, hcomplete, -⟩ := h
  obtain ⟨t, ht, -, hmode, -⟩ := hcomplete shareLeft 1 0 0 (by decide +kernel) (by decide +kernel) (by decide +kernel) (by decide +kernel)
    (by decide +kernel) (by decide +kernel) (by decide +kernel) (by decide +kernel)
    ⟨nofun, nofun⟩
  have hstays : ∃ u, Machine.exec (.reclaimComplete 1) shareLeft = .next u ∧ (bayAt u 1).mode = .reclaiming :=
    ⟨_, rfl, by decide +kernel⟩
  obtain ⟨u, hu, hu1⟩ := hstays
  obtain rfl := Host.Outcome.next.inj (hu.symm.trans ht)
  exact absurd (hu1.symm.trans hmode) (by decide)

end Sys2Proof.Machine

/-! SUPPORT. A SORT whose input holds a NaN score (R89, R91). -/

namespace Sys2Proof.Machine

open Sys2Proof

/-- A plan of one cut on array 0. -/
def oneCutPlan : Plan :=
  { plainPlan with
    arrays := [0],
    cuts := [{ worstNs := 0, waitPeg := 0xFFFF, signalPeg := 0xFFFF, waitValue := 0, stage := 0, firstLa := 0, nLa := 1, weightStart := 0xFFFF }] }

/-- The cut runs, and cell 0 holds one word with a NaN key. -/
def nanInCell : State :=
  { State.reset with
    adm := { State.reset.adm with queries := [{ plainQuery with running := [{ cut := 0, start := 0 }] }] },
    bay := { State.reset.bay with plans := [oneCutPlan] },
    cells := { State.reset.cells with cellStore := memWriteBytes State.reset.cells.cellStore 0 [0, 0, 0, 0, 0, 0, 0, 0, 0xC0, 0x7F] } }

/-- SORT of FP32 scores. -/
def sortFp32 : Word64 := BitVec.ofNat 64 (3 * 2 ^ 50 + 0x40 * 2 ^ 56)

/-- Refutes O54: a word with a NaN score is counted in the query whose cut runs there (R91), outside what the statement lets change. -/
theorem not_selectionRows : ¬ Obligations.SelectionRows := by
  intro h
  obtain ⟨hsort, -⟩ := h
  obtain ⟨t, ht, ⟨hframe, -⟩, -⟩ := hsort nanInCell 0 1 sortFp32 ⟨.cellStore, 0⟩ ⟨.cellStore, 16⟩
    (by unfold storesWf; decide +kernel) (by decide +kernel) (by decide +kernel) (by decide +kernel)
    ⟨by decide +kernel, by decide +kernel⟩ (by decide +kernel)
  have hcounts : ∃ u, Machine.exec (.sort 0 sortFp32 ⟨.cellStore, 0⟩ ⟨.cellStore, 16⟩ 1) nanInCell = .next u ∧
      u.adm.queries.map (fun x => x.nanDropped) = [1] := ⟨_, rfl, by decide +kernel⟩
  obtain ⟨u, hu, hone⟩ := hcounts
  obtain rfl := Host.Outcome.next.inj (hu.symm.trans ht)
  have hzero : nanInCell.adm.queries.map (fun x => x.nanDropped) = [0] := by decide +kernel
  rw [hframe] at hone
  exact absurd (hzero.symm.trans hone) (by decide)

end Sys2Proof.Machine

/-! SUPPORT. Bytes read back from a store after a run of bytes was written, and the words of a rime unit (R193 to R195, R208). -/

namespace Sys2Proof.Machine

open Sys2Proof

/-! Runs of bytes. -/

theorem memRead_memWriteBytes_other (bs : Bytes) : ∀ (m : List Host.Cell) (a k : Nat), k < a ∨ a + bs.length ≤ k →
    memRead (memWriteBytes m a bs) k = memRead m k := by
  induction bs with
  | nil => exact fun m a k _ => rfl
  | cons b r ih =>
    intro m a k h
    rw [List.length_cons] at h
    rw [memWriteBytes, ih _ _ _ (by omega), memRead_memWrite_other _ _ _ _ (by omega)]

theorem memRead_memWriteBytes_at (bs : Bytes) : ∀ (m : List Host.Cell) (a i : Nat), memWf m = true → i < bs.length →
    memRead (memWriteBytes m a bs) (a + i) = bs.getD i 0 := by
  induction bs with
  | nil => exact fun m a i _ h => absurd h (Nat.not_lt_zero i)
  | cons b r ih =>
    intro m a i hm h
    cases i with
    | zero =>
      rw [memWriteBytes, memRead_memWriteBytes_other _ _ _ _ (by omega)]
      exact memRead_memWrite_same m a b hm
    | succ i =>
      rw [memWriteBytes, ← Nat.add_assoc, Nat.add_right_comm, ih _ _ _ (memWf_memWrite _ _ _ hm) (by simpa using h)]
      rfl

theorem memReadBytes_memWriteBytes (n : Nat) : ∀ (m : List Host.Cell) (bs : Bytes) (a j : Nat), memWf m = true → j + n ≤ bs.length →
    memReadBytes (memWriteBytes m a bs) (a + j) n = (bs.drop j).take n := by
  induction n with
  | zero => exact fun m bs a j _ _ => by simp [memReadBytes]
  | succ n ih =>
    intro m bs a j hm h
    have hj : j < bs.length := by omega
    rw [memReadBytes, memRead_memWriteBytes_at bs m a j hm hj, Nat.add_assoc, ih m bs a (j + 1) hm (by omega),
      List.drop_eq_getElem_cons hj, List.take_succ_cons, List.getD_eq_getElem _ _ hj]

theorem leNat_natLe (k : Nat) : ∀ n, leNat (natLe k n) = n % 256 ^ k := by
  induction k with
  | zero => exact fun n => by simp [natLe, leNat, Nat.mod_one]
  | succ k ih =>
    intro n
    rw [natLe, leNat, ih, BitVec.toNat_ofNat, pow_succ' 256 k, Nat.mod_mul (a := 256)]

theorem length_flatMap_natLe (k : Nat) (f : Nat → Nat) (l : List Nat) : (l.flatMap (fun i => natLe k (f i))).length = k * l.length := by
  induction l with
  | nil => simp
  | cons x r ih => simp [ih, Nat.mul_add, Nat.add_comm]

/-- The i-th word of words laid end to end. -/
theorem word_of_flatMap_natLe (k : Nat) (f : Nat → Nat) (l : List Nat) : ∀ i (h : i < l.length),
    ((l.flatMap (fun i => natLe k (f i))).drop (k * i)).take k = natLe k (f l[i]) := by
  induction l with
  | nil => exact fun i h => absurd h (Nat.not_lt_zero i)
  | cons x r ih =>
    intro i h
    have hlen : (natLe k (f x)).length = k := length_natLe k (f x)
    cases i with
    | zero => simp [hlen]
    | succ i =>
      rw [List.flatMap_cons, List.drop_append, List.drop_eq_nil_of_le (by rw [hlen, Nat.mul_succ]; omega), List.nil_append,
        hlen, Nat.mul_succ, Nat.add_sub_cancel]
      exact ih i (by simpa using h)

/-! A word of a rime unit. -/

variable {s : State} {bank op : Nat} {w : BitVec 128} {m : Media} {ns : List Nat}

@[simp] theorem countCorrected_nil (s : State) (bank : Nat) : countCorrected s bank [] = s := rfl

theorem noteCorrected_frame (s : State) (b r : Nat) : noteCorrected s b r =
    { s with health := { s.health with banks := (noteCorrected s b r).health.banks } } := rfl

theorem foldl_noteCorrected (b : Nat) (rows : List Nat) : ∀ s : State, rows.foldl (fun st r => noteCorrected st b r) s =
    { s with health := { s.health with banks := (rows.foldl (fun st r => noteCorrected st b r) s).health.banks } } := by
  induction rows with
  | nil => exact fun s => rfl
  | cons r rest ih =>
    intro s
    rw [List.foldl_cons, ih, noteCorrected_frame]

theorem countCorrected_frame (s : State) (bank : Nat) (rows : List Nat) : countCorrected s bank rows =
    { s with rime := { s.rime with corrected := (countCorrected s bank rows).rime.corrected },
             health := { s.health with banks := (countCorrected s bank rows).health.banks } } := by
  unfold countCorrected
  split
  · rfl
  · dsimp only
    rw [foldl_noteCorrected]

theorem rimeBank_countCorrected (s : State) (bank : Nat) (rows : List Nat) (b : Nat) :
    rimeBank (countCorrected s bank rows) b = rimeBank s b := by
  rw [countCorrected_frame]
  rfl

theorem operandFault_countCorrected (s : State) (bank : Nat) (rows : List Nat) (b : Nat) :
    operandFault (countCorrected s bank rows) b w m = operandFault s b w m := by
  rw [countCorrected_frame]
  rfl

/-- The unit after a word's tag, cycles and open row. -/
def unitAfter (s : State) (bank : Nat) (w : BitVec 128) : RimeUnit :=
  let rows := rowOpenings (rimeBank s bank).unit.openRow (spanRows (rwByte w) (rwSpans w))
  { (popWord (rimeBank s bank) w).unit with
    tag := rwTag w, cycles := (rimeBank s bank).unit.cycles + rwCycles w rows.1, openRow := rows.2 }

/-- The bank after a word whose arithmetic takes effect. -/
def bankAfter (s : State) (bank : Nat) (w : BitVec 128) : RimeBank :=
  { popWord (rimeBank s bank) w with unit := unitEffect s bank (unitAfter s bank w) w }

theorem bank_bankAfter : (bankAfter s bank w).bank = bank := rimeBank_bank s bank

/-- The bank after a word that ends its request: the word is taken and its tag is kept. -/
def bankTagged (s : State) (bank : Nat) (w : BitVec 128) : RimeBank :=
  { popWord (rimeBank s bank) w with unit := { (popWord (rimeBank s bank) w).unit with tag := rwTag w } }

section Runs

variable (hen : rimeEnabled s bank = true) (hseg : (rimeBank s bank).segment.isSome = true) (hsusp : (rimeBank s bank).unit.susp = false)
  (hnext : nextWord (rimeBank s bank) = some w) (hop : rwOp w = op)

include hen hseg hsusp hnext hop

/-- A legal word within its bank whose operands are sound. -/
theorem runWord_sound (hlegal : rwLegal w = true) (hext : rwExtent w = 0 ∨ rwByte w + rwExtent w ≤ 245760 * 1024)
    (hfault : operandFault s bank w m = 0) : runWord s bank op w m ns =
      setRimeBank (if op = 0x04 then storeRegister (countCorrected s bank (ns.filter (spanRows (rwByte w) (rwSpans w)).contains)) bank
          (unitAfter s bank w) w (rwCycles w (rowOpenings (rimeBank s bank).unit.openRow (spanRows (rwByte w) (rwSpans w))).1)
        else countCorrected s bank (ns.filter (spanRows (rwByte w) (rwSpans w)).contains)) (bankAfter s bank w) := by
  have hsome : (rimeBank s bank).segment.isNone = false := by simpa using hseg
  have hguard : (!rimeEnabled s bank || (rimeBank s bank).segment.isNone || (rimeBank s bank).unit.susp ||
      nextWord (rimeBank s bank) != some w || rwOp w != op) = false := by simp [hen, hsome, hsusp, hnext, hop]
  have hin : (rwExtent w != 0 && decide (245760 * 1024 < rwByte w + rwExtent w)) = false := by
    rcases hext with h | h
    · simp [h]
    · simp [Nat.not_lt.2 h]
  simp only [runWord, hguard, hlegal, hin, operandFault_countCorrected, hfault, Bool.not_true, Bool.false_eq_true, if_false,
    bne_self_eq_false, beq_iff_eq]
  rfl

/-- An illegal word ends the request of its unit. -/
theorem runWord_illegal (hlegal : rwLegal w = false) : runWord s bank op w m ns =
    setRimeBank s (endWithCode (bankTagged s bank w) 5 3) := by
  have hsome : (rimeBank s bank).segment.isNone = false := by simpa using hseg
  have hguard : (!rimeEnabled s bank || (rimeBank s bank).segment.isNone || (rimeBank s bank).unit.susp ||
      nextWord (rimeBank s bank) != some w || rwOp w != op) = false := by simp [hen, hsome, hsusp, hnext, hop]
  simp only [runWord, hguard, hlegal, Bool.not_false, Bool.false_eq_true, if_false, if_true]
  rfl

end Runs

theorem rimeBank_setRimeBank_bank {b : RimeBank} (h : b.bank = bank) : rimeBank (setRimeBank s b) bank = b := by
  rw [← h, rimeBank_setRimeBank_same]

/-! CLR. -/

theorem getD_set_zero (l : List Word32) (i j : Nat) : (l.set i 0).getD j 0 = if j = i then 0 else l.getD j 0 := by
  simp only [List.getD, List.getElem?_set]
  by_cases hij : i = j
  · subst hij
    by_cases hi : i < l.length <;> simp [hi]
  · simp [hij, Ne.symm hij]

theorem getD_replicate_zero (n j : Nat) : (List.replicate n (0 : Word32)).getD j 0 = 0 := by
  by_cases hj : j < n <;> simp [List.getD, hj]

theorem laneAt_setLane (u : RimeUnit) (i j : Nat) : laneAt (setLane u i 0) j = if j = i then 0 else laneAt u j := by
  unfold laneAt setLane
  rw [getD_set_zero]
  split
  · rfl
  · by_cases hnil : u.lanes = []
    · rw [if_pos (by simp [hnil]), getD_replicate_zero, hnil]
      rfl
    · rw [if_neg (by simp [hnil])]

theorem laneAt_foldl_zero (k n : Nat) : ∀ (m : Nat) (u : RimeUnit) (j : Nat),
    laneAt (((List.replicate n (0 : Word32)).zip (List.range' m n)).foldl (fun v e => setLane v (k + e.2) e.1) u) j =
      if k + m ≤ j ∧ j < k + m + n then 0 else laneAt u j := by
  induction n with
  | zero => intro m u j; simp
  | succ n ih =>
    intro m u j
    rw [List.replicate_succ, List.range'_succ, List.zip_cons_cons, List.foldl_cons, ih, laneAt_setLane]
    by_cases h : k + (m + 1) ≤ j ∧ j < k + (m + 1) + n
    · rw [if_pos h, if_pos (by omega)]
    · rw [if_neg h]
      by_cases hj : j = k + m
      · rw [if_pos hj, if_pos (by omega)]
      · rw [if_neg hj, if_neg (by omega)]

theorem laneAt_clr (u : RimeUnit) (hop : rwOp w = 0x01) (j : Nat) : laneAt (unitEffect s bank u w) j =
    if 16 * rwDst w ≤ j ∧ j < 16 * rwDst w + 16 then 0 else laneAt u j := by
  have h := laneAt_foldl_zero (16 * rwDst w) 16 0 u j
  simpa [unitEffect, hop, setLanes, List.range_eq_range'] using h

end Sys2Proof.Machine

/-! SUPPORT. STORER, and the rows of rime words (R193 to R195, R207, R208). -/

namespace Sys2Proof.Machine

open Sys2Proof

variable {s : State} {bank op : Nat} {w : BitVec 128} {m : Media} {ns : List Nat}

/-! Bytes written into a frame. -/

@[simp] theorem dram_setFrame (e : Frame_) : (setFrame s e).tier.dram = s.tier.dram := by
  unfold setFrame
  dsimp only
  split <;> rfl

@[simp] theorem dram_updFrame (d : Nat) (f : Frame_ → Frame_) : (updFrame s d f).tier.dram = s.tier.dram := dram_setFrame _

theorem dram_markDirty (d i : Nat) : (markDirty s d i).tier.dram = s.tier.dram := by
  unfold markDirty
  dsimp only
  split <;> simp

@[simp] theorem dram_refreshPoison (d : Nat) : (refreshPoison s d).tier.dram = s.tier.dram := by
  unfold refreshPoison
  dsimp only
  split <;> simp

@[simp] theorem dram_moveWritten (d off n : Nat) : (moveWritten s d off n).tier.dram = s.tier.dram := by
  unfold moveWritten setMoved
  split <;> rfl

theorem dram_foldl_markDirty (d : Nat) (l : List Nat) : ∀ s : State, (l.foldl (fun st i => markDirty st d i) s).tier.dram = s.tier.dram := by
  induction l with
  | nil => exact fun s => rfl
  | cons i r ih => exact fun s => (ih _).trans (dram_markDirty d i)

/-- A frame's bytes are written at its place, whatever the frame's record says. -/
theorem dram_frameWrite (s : State) (d off : Nat) (bs : Bytes) :
    (frameWrite s d off bs).tier.dram = memWriteBytes s.tier.dram (dramKey d off) bs := by
  unfold frameWrite
  dsimp only
  split
  · simp
  · split
    · rw [dram_foldl_markDirty]
      simp
    · simp

theorem frameWrite_tier_frame (s : State) (d off : Nat) (bs : Bytes) :
    frameWrite s d off bs = { s with tier := (frameWrite s d off bs).tier } := by
  have hset : ∀ (t : State) (e : Frame_), setFrame t e = { t with tier := (setFrame t e).tier } := fun t e => by
    unfold setFrame; dsimp only; split <;> rfl
  have hmove : moveWritten s d off bs.length = { s with tier := (moveWritten s d off bs.length).tier } := by
    unfold moveWritten setMoved; split <;> rfl
  have hdirty : ∀ (l : List Nat) (t : State), l.foldl (fun st i => markDirty st d i) t =
      { t with tier := (l.foldl (fun st i => markDirty st d i) t).tier } := by
    intro l
    induction l with
    | nil => exact fun t => rfl
    | cons i r ih =>
      intro t
      have hone : markDirty t d i = { t with tier := (markDirty t d i).tier } := by
        unfold markDirty; dsimp only; split <;> rw [hset]
      rw [List.foldl_cons, ih, hone]
  have hpoison : ∀ t : State, refreshPoison t d = { t with tier := (refreshPoison t d).tier } := fun t => by
    unfold refreshPoison updFrame; dsimp only; split
    · rfl
    · rw [hset]
  unfold frameWrite
  dsimp only
  split
  · rw [updFrame, hset, hpoison, hmove]
  · split
    · rw [hdirty, hpoison, hmove]
    · rw [updFrame, hset, hpoison, hmove]

/-! STORER. -/

theorem backInvalidateRange_frame (s : State) (a n : Nat) : backInvalidateRange s a n =
    { s with link := (backInvalidateRange s a n).link, out := (backInvalidateRange s a n).out } := by
  have hone : ∀ (t : State) (l : Nat), backInvalidate t l = { t with link := (backInvalidate t l).link, out := (backInvalidate t l).out } :=
    fun t l => by unfold backInvalidate; split <;> rfl
  have hfold : ∀ (l : List Nat) (t : State), l.foldl backInvalidate t =
      { t with link := (l.foldl backInvalidate t).link, out := (l.foldl backInvalidate t).out } := by
    intro l
    induction l with
    | nil => exact fun t => rfl
    | cons x r ih => intro t; rw [List.foldl_cons, ih, hone]
  exact hfold _ s

/-- The 64 bytes of a register. -/
def registerBytes (u : RimeUnit) (w : BitVec 128) : Bytes :=
  (List.range 16).flatMap (fun i => natLe 4 (laneAt u (16 * rwDst w + i)).toNat)

theorem length_registerBytes (u : RimeUnit) : (registerBytes u w).length = 64 := by
  rw [registerBytes, length_flatMap_natLe, List.length_range]

theorem storeRegister_rest (s : State) (bank : Nat) (u : RimeUnit) (w : BitVec 128) (c : Nat) :
    storeRegister s bank u w c = { s with
      rime := { s.rime with journal := (storeRegister s bank u w c).rime.journal }, tier := (storeRegister s bank u w c).tier,
      link := (storeRegister s bank u w c).link, out := (storeRegister s bank u w c).out } ∧
    (storeRegister s bank u w c).tier.dram = memWriteBytes s.tier.dram (bankKey s bank (rwByte w)) (registerBytes u w) := by
  unfold storeRegister
  dsimp only
  split
  · refine ⟨?_, ?_⟩
    · rw [frameWrite_tier_frame, backInvalidateRange_frame]
    · refine (dram_frameWrite _ _ _ _).trans ?_
      rw [backInvalidateRange_frame]
      rfl
  · refine ⟨?_, (dram_frameWrite _ _ _ _).trans rfl⟩
    rw [frameWrite_tier_frame]

/-- The i-th word of a register's bytes reads back as its lane. -/
theorem memLe_registerBytes (u : RimeUnit) {mem : List Host.Cell} (a : Nat) (hwf : memWf mem = true) {i : Nat} (hi : i < 16) :
    memLe (memWriteBytes mem a (registerBytes u w)) (a + 4 * i) 4 = (laneAt u (16 * rwDst w + i)).toNat := by
  rw [memLe, memReadBytes_memWriteBytes 4 mem _ a (4 * i) hwf (by rw [length_registerBytes]; omega), registerBytes,
    word_of_flatMap_natLe 4 _ _ i (by simpa using hi), List.getElem_range, leNat_natLe]
  exact Nat.mod_eq_of_lt (laneAt u (16 * rwDst w + i)).isLt

theorem unitEffect_storer (hop : rwOp w = 0x04) (u : RimeUnit) : unitEffect s bank u w = u := by simp [unitEffect, hop]

theorem lanes_unitAfter : (unitAfter s bank w).lanes = (rimeBank s bank).unit.lanes := rfl

/-- The rows of words other than STORER. -/
theorem runWord_of_row {row : Instr} (hrow : (row, op, m, ns) ∈ [(.nop bank w, 0x00, .ok, []), (.clr bank w, 0x01, .ok, []),
      (.loadq bank w m ns, 0x02, m, ns), (.loadr bank w m ns, 0x03, m, ns), (.dot bank w m ns, 0x10, m, ns),
      (.maxsim bank w m ns, 0x11, m, ns), (.wsum bank w m ns, 0x12, m, ns), (.vmax bank w, 0x13, .ok, []), (.rmax bank w, 0x14, .ok, [])]) :
    Machine.exec row s = .next (runWord s bank op w m ns) ∧ op ≠ 0x04 := by
  simp only [List.mem_cons, Prod.mk.injEq, List.not_mem_nil, or_false] at hrow
  rcases hrow with ⟨rfl, rfl, rfl, rfl⟩ | ⟨rfl, rfl, rfl, rfl⟩ | ⟨rfl, rfl, -, -⟩ | ⟨rfl, rfl, -, -⟩ | ⟨rfl, rfl, -, -⟩ | ⟨rfl, rfl, -, -⟩ |
    ⟨rfl, rfl, -, -⟩ | ⟨rfl, rfl, rfl, rfl⟩ | ⟨rfl, rfl, rfl, rfl⟩
  all_goals exact ⟨rfl, by decide⟩

/-- The rows of all words, whatever their operand reads meet. -/
theorem runWord_of_any_row {row : Instr} (hrow : (row, op) ∈ [(.nop bank w, 0x00), (.clr bank w, 0x01), (.loadq bank w m ns, 0x02),
      (.loadr bank w m ns, 0x03), (.storer bank w, 0x04), (.dot bank w m ns, 0x10), (.maxsim bank w m ns, 0x11),
      (.wsum bank w m ns, 0x12), (.vmax bank w, 0x13), (.rmax bank w, 0x14)]) :
    ∃ m' ns', Machine.exec row s = .next (runWord s bank op w m' ns') := by
  simp only [List.mem_cons, Prod.mk.injEq, List.not_mem_nil, or_false] at hrow
  rcases hrow with ⟨rfl, rfl⟩ | ⟨rfl, rfl⟩ | ⟨rfl, rfl⟩ | ⟨rfl, rfl⟩ | ⟨rfl, rfl⟩ | ⟨rfl, rfl⟩ | ⟨rfl, rfl⟩ | ⟨rfl, rfl⟩ | ⟨rfl, rfl⟩ | ⟨rfl, rfl⟩
  all_goals exact ⟨_, _, rfl⟩

/-- A unit ended with a code keeps its lanes, and its request has neither words nor another code. -/
theorem endWithCode_rest (b : RimeBank) (code err : Nat) : (endWithCode b code err).unit.err = err ∧
    (endWithCode b code err).unit.cmdq = [] ∧ (endWithCode b code err).unit.lanes = b.unit.lanes ∧
    ∀ r, (endWithCode b code err).current = some r → r.cmds = [] ∧ r.code = code := by
  refine ⟨rfl, rfl, rfl, fun r hr => ?_⟩
  obtain ⟨r', -, rfl⟩ := Option.map_eq_some_iff.1 hr
  exact ⟨rfl, rfl⟩

/-- Settles O55: a word that runs sets its bank alone; STORER's bytes read back; an illegal word ends the request with code 5. -/
theorem rimeWordRows : Obligations.RimeWordRows := by
  unfold Obligations.RimeWordRows
  refine ⟨fun s bank op cyc n w m row open_ hrow hen hseg hsusp hnext hop hlegal hext hfault hcyc => ?_,
    fun s bank w hwf hen hseg hsusp hnext hop hlegal hext => ?_,
    fun s bank op n w m row hrow hen hseg hsusp hnext hop hlegal => ?_, fun s bank w hop j => laneAt_clr _ hop j⟩
  · obtain ⟨hexec, hne⟩ := runWord_of_row (s := s) hrow
    have hrun := runWord_sound (ns := n) hen hseg hsusp hnext hop hlegal hext hfault
    rw [if_neg hne] at hrun
    obtain ⟨rfl, rfl⟩ := Prod.mk.inj hcyc
    refine ⟨_, hexec.trans (congrArg Host.Outcome.next hrun), ?_, ?_, rimeBank_setRimeBank_bank bank_bankAfter, fun b hb => ?_⟩
    · rw [countCorrected_frame]
      rfl
    · rintro rfl
      rfl
    · rw [rimeBank_setRimeBank_other _ _ _ (hb.trans_eq bank_bankAfter.symm), rimeBank_countCorrected]
  · have hrun := runWord_sound (m := .ok) (ns := []) hen hseg hsusp hnext hop hlegal (.inr (by simpa [rwExtent, rwSpans, hop] using hext))
      (by simp [operandFault, hop])
    rw [if_pos rfl, List.filter_nil, countCorrected_nil] at hrun
    obtain ⟨hframe, hdram⟩ := storeRegister_rest s bank (unitAfter s bank w) w
      (rwCycles w (rowOpenings (rimeBank s bank).unit.openRow (spanRows (rwByte w) (rwSpans w))).1)
    have hunit : (bankAfter s bank w).unit = unitAfter s bank w := unitEffect_storer hop _
    refine ⟨_, congrArg Host.Outcome.next hrun, ?_, fun i hi => ?_, fun k hk => ?_, ?_, ?_⟩
    · rw [hframe]
      rfl
    · exact (congrArg (memLe · _ _) hdram).trans (memLe_registerBytes _ _ hwf.1 hi)
    · refine (congrArg (memRead · k) hdram).trans (memRead_memWriteBytes_other _ _ _ _ ?_)
      rwa [length_registerBytes]
    · rw [rimeBank_setRimeBank_bank bank_bankAfter, hunit]
      rfl
    · rw [rimeBank_setRimeBank_bank bank_bankAfter, hunit]
      rfl
  · obtain ⟨m', ns', hexec⟩ := runWord_of_any_row (s := s) hrow
    have hrun := runWord_illegal (m := m') (ns := ns') hen hseg hsusp hnext hop hlegal
    refine ⟨_, hexec.trans (congrArg Host.Outcome.next hrun), rfl, ?_⟩
    rw [rimeBank_setRimeBank_bank (show (endWithCode (bankTagged s bank w) 5 3).bank = bank from rimeBank_bank s bank)]
    exact endWithCode_rest (bankTagged s bank w) 5 3

end Sys2Proof.Machine

/-! SUPPORT. A rime unit whose save area holds a parked request (R205). -/

namespace Sys2Proof.Machine

open Sys2Proof

/-- A best-effort request whose state is in the save area. -/
def parkedRequest : RimeReq :=
  { bank := 0, slot := none, ctx := 0, cell := 0, desc := 0, home := 0, list := [], lc := false, deadline := 0, arrival := 0 }

/-- Bank 0 is enabled, idle and parks the request. -/
def bankWithParked : State :=
  { State.reset with rime := { State.reset.rime with rcfg := [(0, 0x80)], banks := [{ bank := 0, parked := some parkedRequest }] } }

/-- Refutes O57: SAVE does not write over the save area of a parked request (R205), so it takes no cycles. -/
theorem not_rimeRequestRows : ¬ Obligations.RimeRequestRows := by
  intro h
  obtain ⟨-, -, -, -, -, -, -, -, hsave, -⟩ := h
  obtain ⟨t, ht, -, -, hcycles, -⟩ := hsave bankWithParked 0 (by unfold storesWf; decide +kernel) (by decide +kernel) (by decide +kernel)
    (by decide +kernel)
  have hstays : ∃ u, Machine.exec (.save 0) bankWithParked = .next u ∧ (rimeBank u 0).unit.cycles = 0 := ⟨_, rfl, by decide +kernel⟩
  obtain ⟨u, hu, hzero⟩ := hstays
  obtain rfl := Host.Outcome.next.inj (hu.symm.trans ht)
  exact absurd (hzero.symm.trans hcycles) (Nat.succ_ne_zero _).symm

end Sys2Proof.Machine

/-! SUPPORT. A departure of a channel number past the last channel (R230, R232). -/

namespace Sys2Proof.Machine

open Sys2Proof

/-- Channel 128 evacuates, and frames 0 to 4,095 form a set of local frames. -/
def evacuationPastEnd : State :=
  { State.reset with
    tier := { State.reset.tier with
      localSets := [0], evacuation := some { channel := 128, returning := false, clear := [] },
      departures := [{ channel := 128, kind := .temporary }] } }

/-- Refutes O59: the end of the copies spares the frames 32 × 128 to 32 × 128 + 31 of the set, which lie in no channel 128. -/
theorem not_departureRows : ¬ Obligations.DepartureRows := by
  intro h
  obtain ⟨-, -, -, -, -, -, -, -, -, -, hend, -⟩ := h
  obtain ⟨t, ht, -, hframes, -⟩ := hend evacuationPastEnd { channel := 128, returning := false, clear := [] }
    { channel := 128, kind := .temporary } (by decide +kernel) (by decide +kernel) (by decide +kernel) (by decide +kernel)
    (by decide +kernel) (by decide +kernel) (by decide +kernel)
  have hspares : ∃ u, Machine.exec .evacuationCopyEnd evacuationPastEnd = .next u ∧ frameAt u 4096 ≠ frameAt evacuationPastEnd 4096 :=
    ⟨_, rfl, by decide +kernel⟩
  obtain ⟨u, hu, hne⟩ := hspares
  obtain rfl := Host.Outcome.next.inj (hu.symm.trans ht)
  rcases hframes 4096 with hsame | ⟨-, hchannel, -⟩
  · exact hne hsame
  · exact absurd hchannel (by decide)

end Sys2Proof.Machine

/-! SUPPORT. The dies of a channel: a die's record after it is put, a block that moves to a spare, a bad block, a refreshed one
(R357, R360, R362). -/

namespace Sys2Proof.Machine

open Sys2Proof

variable {s : State}

theorem die_dieAt (s : State) (c d : Nat) : (dieAt s c d).channel = c ∧ (dieAt s c d).die = d := by
  unfold dieAt
  cases h : s.health.dies.find? (fun x => x.channel == c && x.die == d) with
  | none => exact ⟨rfl, rfl⟩
  | some v => simpa using List.find?_some h

/-- Puts a die's record in place of the old one. -/
theorem dieAt_setDie (s : State) (v : Die) (c d : Nat) :
    dieAt (setDie s v) c d = if c = v.channel ∧ d = v.die then v else dieAt s c d := by
  by_cases h : c = v.channel ∧ d = v.die
  · obtain ⟨rfl, rfl⟩ := h
    simp
  · rw [if_neg h]
    exact dieAt_setDie_other s v c d (by tauto)

/-- A die's record that keeps its place takes the place of the old one. -/
theorem dieAt_setDie_at {v : Die} {c d : Nat} (hv : v.channel = c ∧ v.die = d) (x : Nat) :
    dieAt (setDie s v) c x = if x = d then v else dieAt s c x := by
  simp [dieAt_setDie, hv]

/-- The record of a die that gives up its spare block k. -/
def takeSpare (k : Nat) (v : Die) : Die := { v with pool := v.pool.erase k, spares := v.spares - 1 }

/-- The record of a die whose logical block b lies at block k of die t. -/
def noteMoved (b t k : Nat) (v : Die) : Die := { v with moved := putKey v.moved b (t, k) }

theorem moveBlock_eq (s : State) (c l b t : Nat) : moveBlock s c l b t =
    setDie (setDie s (takeSpare (nextSpare s c t) (dieAt s c t)))
      (noteMoved b t (nextSpare s c t) (dieAt (setDie s (takeSpare (nextSpare s c t) (dieAt s c t))) c l)) := rfl

/-- What the record of die x becomes when block b of die l moves to block k of die t. -/
def movedDie (l b t k x : Nat) (v : Die) : Die :=
  let w := if x = t then takeSpare k v else v
  if x = l then noteMoved b t k w else w

theorem dieAt_moveBlock (s : State) (c l b t x : Nat) :
    dieAt (moveBlock s c l b t) c x = movedDie l b t (nextSpare s c t) x (dieAt s c x) := by
  rw [moveBlock_eq]
  generalize nextSpare s c t = k
  have htake (y : Nat) := dieAt_setDie_at (s := s) (v := takeSpare k (dieAt s c t)) (die_dieAt s c t) y
  generalize setDie s (takeSpare k (dieAt s c t)) = u at htake ⊢
  rw [dieAt_setDie_at (v := noteMoved b t k (dieAt u c l)) (die_dieAt u c l)]
  by_cases hl : x = l <;> by_cases ht : x = t <;> simp_all [movedDie]

section
variable (l b t k x : Nat) (v : Die)

@[simp] theorem movedDie_bad : (movedDie l b t k x v).bad = v.bad := by unfold movedDie; split <;> split <;> rfl
@[simp] theorem movedDie_retired : (movedDie l b t k x v).retired = v.retired := by unfold movedDie; split <;> split <;> rfl
@[simp] theorem movedDie_refreshed : (movedDie l b t k x v).refreshed = v.refreshed := by unfold movedDie; split <;> split <;> rfl
@[simp] theorem movedDie_spares_at : (movedDie l b t k t v).spares = v.spares - 1 := by
  unfold movedDie; rw [if_pos rfl]; split <;> rfl
theorem movedDie_moved_at : lookupKey (movedDie l b t k l v).moved b = some (t, k) := by
  unfold movedDie
  rw [if_pos rfl]
  exact lookupKey_putKey_same ..
end

/-- No die of a channel that is in use is without a spare (R362). -/
def noSpent (c : Nat) (s : State) : Prop := ∀ v ∈ s.health.dies, v.channel = c → v.retired = true ∨ v.spares ≠ 0

theorem retireSpent_of_noSpent {c : Nat} (n : Nat) (h : noSpent c s) : retireSpent c n s = s := by
  cases n with
  | zero => rfl
  | succ n =>
    have hnone : s.health.dies.find? (fun v => v.channel == c && !v.retired && v.spares == 0) = none := by
      rw [List.find?_eq_none]
      intro v hv
      have := h v hv
      simp only [Bool.and_eq_true, beq_iff_eq, Bool.not_eq_true', not_and]
      rintro ⟨hc, hr⟩ hz
      simp_all
    simp [retireSpent, hnone]

theorem noSpent_setDie {c : Nat} {v : Die} (h : noSpent c s) (hv : v.retired = true ∨ v.spares ≠ 0) : noSpent c (setDie s v) := by
  intro w hw hc
  have hmem := (insertBy_perm _ v _).mem_iff.mp hw
  rcases List.mem_cons.mp hmem with rfl | hold
  · exact hv
  · exact h w (List.mem_of_mem_filter hold) hc

/-- A block is held by its own die, or by one of the channel that has noted where the block lies. -/
theorem blockAt_holder {c d block : Nat} {h : Nat × Nat} (hb : blockAt s c d block = some h) :
    h.1 = d ∨ (dieAt s c h.1).moved ≠ [] := by
  unfold blockAt at hb
  dsimp only at hb
  cases hf : (channelDies s c).findSome? (fun w => (w.moved.find? (fun e => e.2 == (d, block))).map (fun e => (w.die, e.1))) with
  | none =>
    rw [hf] at hb
    simp only [Option.orElse_none] at hb
    left
    grind
  | some e =>
    rw [hf] at hb
    obtain rfl : e = h := by simpa using hb
    right
    obtain ⟨w, hw, hm⟩ := List.exists_of_findSome?_eq_some hf
    obtain ⟨i, -, rfl⟩ := List.mem_map.mp hw
    cases hg : (dieAt s c i).moved.find? (fun e => e.2 == (d, block)) with
    | none => simp [hg] at hm
    | some m =>
      simp only [hg, Option.map_some, Option.some.injEq, (die_dieAt s c i).2] at hm
      rw [← hm]
      exact List.ne_nil_of_mem (List.mem_of_find?_eq_some hg)

/-- A die that has noted a block has a record of its own. -/
theorem mem_of_moved {c d : Nat} (h : (dieAt s c d).moved ≠ []) : dieAt s c d ∈ s.health.dies := by
  unfold dieAt at h ⊢
  cases hf : s.health.dies.find? (fun x => x.channel == c && x.die == d) with
  | none => simp [hf] at h
  | some v => exact List.mem_of_find?_eq_some hf

/-- No die is left without a spare where a block moves within a die that has two. -/
theorem noSpent_moveBlock {c l d : Nat} (b : Nat) (h : noSpent c s) (hs : 2 ≤ (dieAt s c d).spares)
    (hl : l = d ∨ (dieAt s c l).moved ≠ []) : noSpent c (moveBlock s c l b d) := by
  rw [moveBlock_eq]
  generalize nextSpare s c d = k
  have htake := noSpent_setDie (v := takeSpare k (dieAt s c d)) h (.inr (by simp [takeSpare]; omega))
  refine noSpent_setDie htake ?_
  rw [dieAt_setDie_at (v := takeSpare k (dieAt s c d)) (die_dieAt s c d)]
  by_cases hd : l = d
  · rw [if_pos hd]
    exact .inr (by simp [noteMoved, takeSpare]; omega)
  · rw [if_neg hd]
    have hlive := h _ (mem_of_moved (hl.resolve_left hd)) (die_dieAt s c l).1
    exact hlive

theorem placeBlock_of_spareDie {c d t : Nat} (e : Nat × Nat) (h : spareDie s c d = some t) :
    placeBlock c d s e = moveBlock s c e.1 e.2 t := by
  simp [placeBlock, h]

/-- The record of a die that a bad block leaves. -/
def markBad (block : Nat) (v : Die) : Die := { v with bad := insertAsc block v.bad, pool := v.pool.erase block }

/-- A bad block that holds data, on a die with a spare: what it holds goes to a spare of the die, and spent dies of the channel retire. -/
theorem retireBlock_of_held {c d block : Nat} {h : Nat × Nat} (hr : (dieAt s c d).retired = false)
    (hbad : (dieAt s c d).bad.contains block = false) (hpool : (dieAt s c d).pool.contains block = false)
    (hb : blockAt s c d block = some h) (hs : (dieAt s c d).spares ≠ 0) : retireBlock s c d block =
      retireSpent c s.sec.order.dies (moveBlock (setDie s (markBad block (dieAt s c d))) c h.1 h.2 d) := by
  have hspare : spareBlock s c d block = false := by simp_all [spareBlock]
  have hdie := dieAt_setDie_at (s := s) (v := markBad block (dieAt s c d)) (die_dieAt s c d) d
  rw [if_pos rfl] at hdie
  have htarget : spareDie (setDie s (markBad block (dieAt s c d))) c d = some d := by
    unfold spareDie
    rw [List.find?_cons_of_pos]
    rw [hdie]
    simp [markBad, hr, hs]
  unfold retireBlock
  simp only [hbad, hspare, hb, Bool.or_false, Bool.false_eq_true, if_false]
  rw [if_neg (by simp [hr])]
  exact congrArg (retireSpent c s.sec.order.dies) (placeBlock_of_spareDie h htarget)

/-- The end of a bad block: one spare fewer, and the block is listed. -/
theorem retireBlock_effect {c d block : Nat} {h : Nat × Nat} (hr : (dieAt s c d).retired = false)
    (hbad : (dieAt s c d).bad.contains block = false) (hpool : (dieAt s c d).pool.contains block = false)
    (hb : blockAt s c d block = some h) (hs : 2 ≤ (dieAt s c d).spares) (hlive : noSpent c s) :
    retireBlock s c d block = { s with health := { s.health with dies := (retireBlock s c d block).health.dies } } ∧
    (dieAt (retireBlock s c d block) c d).bad = insertAsc block (dieAt s c d).bad ∧
    (dieAt (retireBlock s c d block) c d).spares = (dieAt s c d).spares - 1 ∧
    (dieAt (retireBlock s c d block) c d).retired = false ∧
    ∃ k, lookupKey (dieAt (retireBlock s c d block) c h.1).moved h.2 = some (d, k) := by
  rw [retireBlock_of_held hr hbad hpool hb (by omega)]
  have hdie := dieAt_setDie_at (s := s) (v := markBad block (dieAt s c d)) (die_dieAt s c d)
  have hmarked : noSpent c (setDie s (markBad block (dieAt s c d))) :=
    noSpent_setDie hlive (.inr (by simp [markBad]; omega))
  have hheld : h.1 = d ∨ (dieAt (setDie s (markBad block (dieAt s c d))) c h.1).moved ≠ [] := by
    by_cases hd : h.1 = d
    · exact .inl hd
    · rw [hdie, if_neg hd]
      exact .inr ((blockAt_holder hb).resolve_left hd)
  have hspares : 2 ≤ (dieAt (setDie s (markBad block (dieAt s c d))) c d).spares := by
    rw [hdie, if_pos rfl]
    exact hs
  rw [retireSpent_of_noSpent _ (noSpent_moveBlock h.2 hmarked hspares hheld)]
  refine ⟨rfl, ?_, ?_, ?_, _, by rw [dieAt_moveBlock]; exact movedDie_moved_at ..⟩
  · rw [dieAt_moveBlock, hdie, if_pos rfl]
    simp [markBad]
  · rw [dieAt_moveBlock, hdie, if_pos rfl]
    simp [markBad]
  · rw [dieAt_moveBlock, hdie, if_pos rfl]
    simp [markBad, hr]

/-- O60, FLASH_PE_FAIL. -/
theorem execFlashPeFail_row {c d block : Nat} {h : Nat × Nat} (hc : c < 128) (hd : d < s.sec.order.dies)
    (hr : (dieAt s c d).retired = false) (hbad : (dieAt s c d).bad.contains block = false)
    (hpool : (dieAt s c d).pool.contains block = false) (hb : blockAt s c d block = some h) (hs : 2 ≤ (dieAt s c d).spares)
    (hlive : noSpent c s) : ∃ t, Machine.exec (.flashPeFail c d block) s = .next t ∧
      t = { s with health := { s.health with dies := t.health.dies } } ∧
      (Config.blocksPerDie ≤ block → t = s) ∧
      (block < Config.blocksPerDie →
        (dieAt t c d).bad = insertAsc block (dieAt s c d).bad ∧
        (dieAt t c d).spares = (dieAt s c d).spares - 1 ∧ (dieAt t c d).retired = false ∧
        ∃ k, lookupKey (dieAt t c h.1).moved h.2 = some (d, k)) := by
  obtain ⟨hframe, heffect⟩ := retireBlock_effect hr hbad hpool hb hs hlive
  by_cases hrange : block < Config.blocksPerDie
  · have hcond : (c < 128 && d < s.sec.order.dies && block < Config.blocksPerDie) = true := by simp [hc, hd, hrange]
    exact ⟨_, congrArg Host.Outcome.next (if_pos hcond), hframe, fun hle => absurd hle (by omega), fun _ => heffect⟩
  · have hcond : ¬ (c < 128 && d < s.sec.order.dies && block < Config.blocksPerDie) = true := by simp [hrange]
    exact ⟨s, congrArg Host.Outcome.next (if_neg hcond), rfl, fun _ => rfl, fun hlt => absurd hlt hrange⟩

end Sys2Proof.Machine

/-! SUPPORT. The patrol of a flash block: a block that needed retries is refreshed into a spare (R360, R362). -/

namespace Sys2Proof.Machine

open Sys2Proof

variable {s u : State}

/-- A block is held by what the dies of its channel have noted, alone. -/
theorem blockAt_congr {c : Nat} (horder : u.sec.order.dies = s.sec.order.dies)
    (hdies : ∀ d, (dieAt u c d).moved = (dieAt s c d).moved ∧ (dieAt u c d).removed = (dieAt s c d).removed) (d block : Nat) :
    blockAt u c d block = blockAt s c d block := by
  simp [blockAt, channelDies, List.findSome?_map, Function.comp_def, hdies, horder, die_dieAt]

/-- The record of a die whose block a patrol refreshed at a tick of a boot. -/
def noteRefreshed (block : Nat) (at_ : Nat × Nat) (v : Die) : Die := { v with refreshed := putKey v.refreshed block at_ }

/-- The record of a die that gains the spare block `block`. -/
def addSpare (block : Nat) (v : Die) : Die := { v with pool := v.pool ++ [block], spares := v.spares + 1 }

/-- The refresh of a block that is held: what it holds moves to a spare of the die, and the block is a spare. -/
theorem refreshBlock_of_held {c d block : Nat} {h : Nat × Nat} (hb : blockAt s c d block = some h) (hs : (dieAt s c d).spares ≠ 0) :
    refreshBlock s c d block = setDie (moveBlock s c h.1 h.2 d) (addSpare block (dieAt (moveBlock s c h.1 h.2 d) c d)) := by
  unfold refreshBlock
  rw [hb]
  exact if_neg (by simpa using hs)

theorem refreshBlock_frame (s : State) (c d block : Nat) :
    refreshBlock s c d block = { s with health := { s.health with dies := (refreshBlock s c d block).health.dies } } := by
  cases hb : blockAt s c d block with
  | none => simp [refreshBlock, hb]
  | some h =>
    by_cases hs : (dieAt s c d).spares = 0
    · simp [refreshBlock, hb, hs]
    · rw [refreshBlock_of_held hb hs]
      rfl

theorem dieAt_refreshBlock {c d block : Nat} {h : Nat × Nat} (hb : blockAt s c d block = some h) (hs : (dieAt s c d).spares ≠ 0)
    (x : Nat) : dieAt (refreshBlock s c d block) c x =
      if x = d then addSpare block (movedDie h.1 h.2 d (nextSpare s c d) d (dieAt s c d))
      else movedDie h.1 h.2 d (nextSpare s c d) x (dieAt s c x) := by
  rw [refreshBlock_of_held hb hs,
    dieAt_setDie_at (v := addSpare block (dieAt (moveBlock s c h.1 h.2 d) c d)) (die_dieAt (moveBlock s c h.1 h.2 d) c d),
    dieAt_moveBlock, dieAt_moveBlock]

/-- The end of a refresh: the die keeps its number of spares, the block is one of them, and its data has moved. -/
theorem refreshBlock_effect {c d block : Nat} {h : Nat × Nat} (hb : blockAt s c d block = some h) (hs : (dieAt s c d).spares ≠ 0) :
    (dieAt (refreshBlock s c d block) c d).refreshed = (dieAt s c d).refreshed ∧
    (dieAt (refreshBlock s c d block) c d).spares = (dieAt s c d).spares ∧
    block ∈ (dieAt (refreshBlock s c d block) c d).pool ∧
    (dieAt (refreshBlock s c d block) c d).bad = (dieAt s c d).bad ∧
    ∃ k, lookupKey (dieAt (refreshBlock s c d block) c h.1).moved h.2 = some (d, k) := by
  refine ⟨?_, ?_, ?_, ?_, nextSpare s c d, ?_⟩
  · simp [dieAt_refreshBlock hb hs, addSpare]
  · simp [dieAt_refreshBlock hb hs, addSpare]
    omega
  · simp [dieAt_refreshBlock hb hs, addSpare]
  · simp [dieAt_refreshBlock hb hs, addSpare]
  · rw [dieAt_refreshBlock hb hs]
    split
    · next hd =>
      rw [← hd]
      exact movedDie_moved_at ..
    · exact movedDie_moved_at ..

/-- s with a patrol's refresh noted in the record of a die. -/
def patrolNoted (s : State) (c d block : Nat) : State :=
  setDie s (noteRefreshed block (s.time.bootCount.toNat, s.time.dtb) (dieAt s c d))

theorem dieAt_patrolNoted (s : State) (c d block x : Nat) : dieAt (patrolNoted s c d block) c x =
    if x = d then noteRefreshed block (s.time.bootCount.toNat, s.time.dtb) (dieAt s c d) else dieAt s c x :=
  dieAt_setDie_at (v := noteRefreshed block _ (dieAt s c d)) (die_dieAt s c d) x

theorem blockAt_patrolNoted (s : State) (c d block : Nat) : blockAt (patrolNoted s c d block) c d block = blockAt s c d block := by
  refine blockAt_congr (s := s) (u := patrolNoted s c d block) rfl (fun x => ?_) d block
  rw [dieAt_patrolNoted]
  split
  · next hx => exact hx ▸ ⟨rfl, rfl⟩
  · exact ⟨rfl, rfl⟩

theorem needDomains_frame (s : State) (ds : List Nat) : needDomains s ds = { s with power := (needDomains s ds).power } := by
  unfold needDomains
  split
  · exact foldl_power _ (fun s n => startWake_frame s n _) _ s
  · rfl

theorem flgWake_frame (s : State) (c : Nat) :
    ∃ p, needDomains s [flgDomain (c / 8)] = { s with power := p } := ⟨_, needDomains_frame ..⟩

theorem execFlashPatrol_of_refresh {c d block retries : Nat} {high : Bool} (hc : c < 128) (hd : d < s.sec.order.dies)
    (hr : (dieAt s c d).retired = false) (hheld : beHeld s = false) (htries : retries ≤ 3) (hneed : 2 ≤ retries ∨ high = true)
    (hb : (blockAt s c d block).isSome = true) (hfirst : lookupKey (dieAt s c d).refreshed block = none) {p : PowerState}
    (hp : needDomains s [flgDomain (c / 8)] = { s with power := p }) :
    Machine.exec (.flashPatrol c d block retries high) s =
      .next (refreshBlock (patrolNoted { s with power := p } c d block) c d block) := by
  have hserves : ¬ (beHeld s || 128 ≤ c || s.sec.order.dies ≤ d) = true := by simp [hheld]; omega
  have hneeds : ¬ ((dieAt s c d).retired || 3 < retries || (blockAt s c d block).isNone || !(2 ≤ retries || high)) = true := by
    simp [hr, Option.isSome_iff_ne_none.mp hb]
    grind
  refine congrArg Host.Outcome.next ((if_neg hserves).trans ?_)
  dsimp only
  rw [hp]
  refine (if_neg hneeds).trans (if_neg ?_)
  change ¬ ((lookupKey (dieAt s c d).refreshed block).any _) = true
  rw [hfirst]
  simp

/-- O60, FLASH_PATROL of a block that needed retries. -/
theorem execFlashPatrol_refreshes {c d block retries : Nat} {high : Bool} {h : Nat × Nat} (hc : c < 128) (hd : d < s.sec.order.dies)
    (hr : (dieAt s c d).retired = false) (hheld : beHeld s = false) (htries : retries ≤ 3) (hneed : 2 ≤ retries ∨ high = true)
    (hb : blockAt s c d block = some h) (hs : (dieAt s c d).spares ≠ 0)
    (hfirst : lookupKey (dieAt s c d).refreshed block = none) :
    ∃ t, Machine.exec (.flashPatrol c d block retries high) s = .next t ∧
      t = { s with power := t.power, health := { s.health with dies := t.health.dies } } ∧
      lookupKey (dieAt t c d).refreshed block = some (s.time.bootCount.toNat, s.time.dtb) ∧
      (dieAt t c d).spares = (dieAt s c d).spares ∧ block ∈ (dieAt t c d).pool ∧
      (dieAt t c d).bad = (dieAt s c d).bad ∧
      ∃ k, lookupKey (dieAt t c h.1).moved h.2 = some (d, k) := by
  obtain ⟨p, hp⟩ := flgWake_frame s c
  have hdie : dieAt (patrolNoted { s with power := p } c d block) c d =
      noteRefreshed block (s.time.bootCount.toNat, s.time.dtb) (dieAt s c d) := by
    rw [dieAt_patrolNoted, if_pos rfl]
    rfl
  have hblock : blockAt (patrolNoted { s with power := p } c d block) c d block = some h := (blockAt_patrolNoted ..).trans hb
  have hspares : (dieAt (patrolNoted { s with power := p } c d block) c d).spares ≠ 0 := by
    rw [hdie]
    exact hs
  obtain ⟨hrefreshed, hsame, hpool, hbad, hmoved⟩ := refreshBlock_effect hblock hspares
  rw [hdie] at hrefreshed hsame hbad
  refine ⟨_, execFlashPatrol_of_refresh hc hd hr hheld htries hneed (by simp [hb]) hfirst hp, ?_, ?_, hsame, hpool, hbad, hmoved⟩
  · rw [refreshBlock_frame]
    rfl
  · rw [hrefreshed]
    exact lookupKey_putKey_same ..

/-- O60, FLASH_PATROL of a block that needed no retries or could not be read. -/
theorem execFlashPatrol_passes {c d block retries : Nat} {high : Bool} (s : State)
    (hpass : retries ≤ 1 ∧ high = false ∨ 3 < retries) :
    ∃ t, Machine.exec (.flashPatrol c d block retries high) s = .next t ∧ t = { s with power := t.power } := by
  by_cases hserves : (beHeld s || 128 ≤ c || s.sec.order.dies ≤ d) = true
  · exact ⟨s, congrArg Host.Outcome.next (if_pos hserves), rfl⟩
  · obtain ⟨p, hp⟩ := flgWake_frame s c
    have hidle : ((dieAt { s with power := p } c d).retired || 3 < retries || (blockAt { s with power := p } c d block).isNone ||
        !(2 ≤ retries || high)) = true := by
      simp
      grind
    refine ⟨{ s with power := p }, congrArg Host.Outcome.next ((if_neg hserves).trans ?_), rfl⟩
    dsimp only
    rw [hp]
    exact if_pos hidle

end Sys2Proof.Machine

/-! SUPPORT. Units of flash: a unit that is rebuilt or lost, and the XOR of a stripe (R44, R355 to R359). -/

namespace Sys2Proof.Machine

open Sys2Proof

variable {s : State}

/-! The XOR of a stripe. -/

/-- Two units combined byte by byte. -/
def xorBytes (a b : Bytes) : Bytes := a.zipWith (fun x y => x ^^^ y) b

theorem xorBytes_comm (a b : Bytes) : xorBytes a b = xorBytes b a := by
  unfold xorBytes
  rw [List.zipWith_comm]
  congr
  funext x y
  exact BitVec.xor_comm y x

theorem xorBytes_assoc (a b c : Bytes) : xorBytes (xorBytes a b) c = xorBytes a (xorBytes b c) := by
  induction a generalizing b c with
  | nil => simp [xorBytes]
  | cons x a ih =>
    cases b with
    | nil => simp [xorBytes]
    | cons y b =>
      cases c with
      | nil => simp [xorBytes]
      | cons z c =>
        have := ih b c
        simp_all [xorBytes, BitVec.xor_assoc]

theorem length_xorBytes (a b : Bytes) : (xorBytes a b).length = min a.length b.length := List.length_zipWith

theorem xorBytes_zero (a : Bytes) {n : Nat} (h : a.length = n) : xorBytes (List.replicate n 0) a = a := by
  subst h
  induction a with
  | nil => rfl
  | cons x a ih => simp_all [xorBytes, List.replicate_succ]

theorem xorBytes_self (a : Bytes) : xorBytes a a = List.replicate a.length 0 := by
  induction a with
  | nil => rfl
  | cons x a ih => simp_all [xorBytes, List.replicate_succ]

/-- The XOR of the units at the places of a list. -/
def xorOf (f : Nat → Bytes) (l : List Nat) : Bytes := xorUnits (l.map f)

theorem foldl_xorBytes (us : List Bytes) (a z : Bytes) : us.foldl xorBytes (xorBytes z a) = xorBytes (us.foldl xorBytes z) a := by
  induction us generalizing z with
  | nil => rfl
  | cons u us ih =>
    rw [List.foldl_cons, List.foldl_cons, ← ih]
    congr 1
    rw [xorBytes_assoc, xorBytes_comm a u, xorBytes_assoc]

theorem xorUnits_cons (u : Bytes) (us : List Bytes) : xorUnits (u :: us) = xorBytes (xorUnits us) u := foldl_xorBytes us u _

theorem length_xorOf (f : Nat → Bytes) (hf : ∀ c, c < 8 → (f c).length = 4096) (l : List Nat) (hl : ∀ c ∈ l, c < 8) :
    (xorOf f l).length = 4096 := by
  induction l with
  | nil => exact List.length_replicate
  | cons c l ih =>
    have hrest := ih (fun x hx => hl x (List.mem_cons_of_mem c hx))
    unfold xorOf at *
    rw [List.map_cons, xorUnits_cons, length_xorBytes, hrest, hf c (hl c List.mem_cons_self)]
    rfl

theorem xorOf_congr {f g : Nat → Bytes} {l : List Nat} (h : ∀ c ∈ l, f c = g c) : xorOf f l = xorOf g l := by
  unfold xorOf
  rw [List.map_congr_left h]

/-- A place that stands once in a list gives its unit to the XOR. -/
theorem xorOf_split (f : Nat → Bytes) {l : List Nat} (hn : l.Nodup) {q : Nat} (hq : q ∈ l) :
    xorOf f l = xorBytes (xorOf f (l.filter (fun c => c != q))) (f q) := by
  induction l with
  | nil => simp at hq
  | cons c l ih =>
    obtain ⟨hc, hl⟩ := List.nodup_cons.mp hn
    unfold xorOf at *
    by_cases h : c = q
    · subst h
      have hall : l.filter (fun x => x != c) = l := List.filter_eq_self.mpr (fun x hx => by
        simpa using fun he : x = c => hc (he ▸ hx))
      simp [xorUnits_cons, hall]
    · have hmem : q ∈ l := (List.mem_cons.mp hq).resolve_left (Ne.symm h)
      simp only [List.map_cons, xorUnits_cons, ih hl hmem, List.filter_cons, bne_iff_ne, ne_eq, h, not_false_eq_true, if_true]
      rw [xorBytes_assoc, xorBytes_assoc, xorBytes_comm (f q)]

/-- Where place p holds the XOR of the other places, the XOR of all places but q is what q holds. -/
theorem xorOf_of_parity {f g : Nat → Bytes} (hf : ∀ c, c < 8 → (f c).length = 4096) {p q : Nat} (hp : p < 8) (hq : q < 8) (hpq : p ≠ q)
    (hgp : g p = xorOf f ((List.range 8).filter (fun c => c != p))) (hg : ∀ c, c ≠ p → g c = f c) :
    xorOf g ((List.range 8).filter (fun c => c != q)) = f q := by
  have hmem (a b : Nat) (ha : a < 8) (hab : a ≠ b) : a ∈ (List.range 8).filter (fun c => c != b) := by simp [ha, hab]
  have hnodup (a : Nat) : ((List.range 8).filter (fun c => c != a)).Nodup := List.nodup_range.filter _
  have hcomm : ((List.range 8).filter (fun c => c != p)).filter (fun c => c != q) =
      ((List.range 8).filter (fun c => c != q)).filter (fun c => c != p) := by
    simp only [List.filter_filter]
    congr
    funext c
    exact Bool.and_comm ..
  have hboth : (xorOf f (((List.range 8).filter (fun c => c != q)).filter (fun c => c != p))).length = 4096 :=
    length_xorOf f hf _ (by simp; omega)
  rw [xorOf_split g (hnodup q) (hmem p q hp hpq), hgp, xorOf_split f (hnodup p) (hmem q p hq (Ne.symm hpq)), hcomm,
    xorOf_congr (f := g) (g := f) (fun c hc => hg c (by simpa using (List.mem_filter.mp hc).2)), ← xorBytes_assoc, xorBytes_self,
    hboth, xorBytes_zero _ (hf q hq)]

/-- The unit of a stripe at place c of its group. -/
def unitOfPlace (l : UnitLoc) (c : Nat) : UnitLoc := { l with channel := 8 * (l.channel / 8) + c }

theorem rebuiltUnit_eq (s : State) (l : UnitLoc) : rebuiltUnit s l =
    xorOf (fun c => stripeUnit s (unitOfPlace l c)) ((List.range 8).filter (fun c => c != l.channel % 8)) := by
  have hplaces : (List.range 8).filter (fun c => 8 * (l.channel / 8) + c != l.channel) =
      (List.range 8).filter (fun c => c != l.channel % 8) := by
    refine List.filter_congr (fun c _ => ?_)
    have : 8 * (l.channel / 8) + c = l.channel ↔ c = l.channel % 8 := by omega
    simp [bne, this, Bool.beq_eq_decide_eq]
  unfold rebuiltUnit otherUnits xorOf
  rw [hplaces, List.map_map]
  rfl

theorem parityUnit_eq (s : State) (l : UnitLoc) : parityUnit s (l.channel / 8) l.die l.unit =
    xorOf (fun c => readUnitBytes s (unitOfPlace l c)) ((List.range 8).filter (fun c => c != l.unit % 8)) := by
  unfold parityUnit stripeUnits xorOf
  rw [List.map_map]
  rfl

theorem stripeUnit_unitOfPlace (s : State) (l : UnitLoc) {c : Nat} (hc : c < 8) : stripeUnit s (unitOfPlace l c) =
    if c = l.unit % 8 then parityUnit s (l.channel / 8) l.die l.unit else readUnitBytes s (unitOfPlace l c) := by
  have hgroup : (unitOfPlace l c).channel / 8 = l.channel / 8 := by simp only [unitOfPlace]; omega
  have hplace : (unitOfPlace l c).channel % 8 = c := by simp only [unitOfPlace]; omega
  unfold stripeUnit
  rw [hgroup, hplace]
  simp [unitOfPlace]

theorem unitOfPlace_self (l : UnitLoc) : unitOfPlace l (l.channel % 8) = l := by
  obtain ⟨channel, die, unit⟩ := l
  simp only [unitOfPlace, UnitLoc.mk.injEq, and_true]
  omega

/-- The XOR of the other units of a stripe is the unit (R359). -/
theorem rebuiltUnit_eq_stripeUnit (s : State) (l : UnitLoc)
    (hlen : ∀ c, c < 8 → (readUnitBytes s { l with channel := 8 * (l.channel / 8) + c }).length = 4096) :
    rebuiltUnit s l = stripeUnit s l := by
  have hself := stripeUnit_unitOfPlace s l (Nat.mod_lt l.channel (by decide : 0 < 8))
  rw [unitOfPlace_self] at hself
  rw [rebuiltUnit_eq, hself]
  by_cases hp : l.channel % 8 = l.unit % 8
  · rw [if_pos hp, parityUnit_eq, hp]
    refine xorOf_congr (fun c hc => ?_)
    obtain ⟨hr, hne⟩ := List.mem_filter.mp hc
    rw [stripeUnit_unitOfPlace s l (List.mem_range.mp hr), if_neg (by simpa using hne)]
  · rw [if_neg hp]
    have hcongr : xorOf (fun c => stripeUnit s (unitOfPlace l c)) ((List.range 8).filter (fun c => c != l.channel % 8)) =
        xorOf (fun c => if c = l.unit % 8 then parityUnit s (l.channel / 8) l.die l.unit else readUnitBytes s (unitOfPlace l c))
          ((List.range 8).filter (fun c => c != l.channel % 8)) :=
      xorOf_congr (fun c hc => stripeUnit_unitOfPlace s l (List.mem_range.mp (List.mem_filter.mp hc).1))
    rw [hcongr, xorOf_of_parity (f := fun c => readUnitBytes s (unitOfPlace l c)) hlen (Nat.mod_lt l.unit (by decide))
      (Nat.mod_lt l.channel (by decide)) (Ne.symm hp) ((if_pos rfl).trans (parityUnit_eq s l)) (fun c hc => if_neg hc),
      unitOfPlace_self]

/-! A unit that is rebuilt, and one that is lost. -/

/-- What a rebuilt unit does to its block: it is refreshed where it lies. -/
def unitRefreshed (s : State) (c d unit : Nat) : State :=
  match physOf s c d (unit / Config.unitsPerBlock) with
  | some p => refreshBlock s c p.1 p.2
  | none => s

theorem unitRefreshed_frame (s : State) (c d unit : Nat) :
    unitRefreshed s c d unit = { s with health := { s.health with dies := (unitRefreshed s c d unit).health.dies } } := by
  unfold unitRefreshed
  cases physOf s c d (unit / Config.unitsPerBlock) with
  | none => rfl
  | some p => exact refreshBlock_frame ..

theorem execMediaUnitRebuild_of_rebuilt {c d unit : Nat} (hc : c < 128) (hd : d < s.sec.order.dies)
    (hl : s.health.lostUnits.contains (c, d, unit) = false) (hb : stripeBroken s c d unit = false) :
    Machine.exec (.mediaUnitRebuild c d unit true) s =
      .next (logError (unitRefreshed s c d unit) errFlashRebuilt (dieUnit c d) unit) := by
  have hserves : ¬ (128 ≤ c || s.sec.order.dies ≤ d || s.health.lostUnits.contains (c, d, unit)) = true := by
    simp only [hl, Bool.or_false, Bool.or_eq_true, decide_eq_true_eq]
    omega
  exact congrArg Host.Outcome.next ((if_neg hserves).trans (if_pos (by simp [hb])))

theorem execMediaUnitRebuild_of_lost {c d unit : Nat} {ok : Bool} (hc : c < 128) (hd : d < s.sec.order.dies)
    (hl : s.health.lostUnits.contains (c, d, unit) = false) (hb : ok = false ∨ stripeBroken s c d unit = true) :
    Machine.exec (.mediaUnitRebuild c d unit ok) s = .next (loseUnit s c d unit) := by
  have hserves : ¬ (128 ≤ c || s.sec.order.dies ≤ d || s.health.lostUnits.contains (c, d, unit)) = true := by
    simp only [hl, Bool.or_false, Bool.or_eq_true, decide_eq_true_eq]
    omega
  refine congrArg Host.Outcome.next ((if_neg hserves).trans (if_neg ?_))
  rcases hb with rfl | hb
  · simp
  · simp [hb]

/-- What a lost unit changes outside the indexes. -/
def lostRest (s : State) := (s.tier, s.health)

theorem foldl_lostRest {α : Type} {f : State → α → State} (hf : ∀ st a, lostRest (f st a) = lostRest st) (l : List α) (s : State) :
    lostRest (l.foldl f s) = lostRest s := by
  induction l generalizing s with
  | nil => rfl
  | cons a l ih => exact (ih _).trans (hf s a)

/-- The flash poison of the sectors of a unit. -/
def unitPoison (s : State) (c d unit : Nat) : List Nat :=
  (unitSectors s c d unit).flatMap (fun a => (List.range 64).map (fun i => a + 64 * i))

/-- s with a lost unit of a sole copy noted, and its sectors poisoned. -/
def unitPoisoned (s : State) (c d unit : Nat) : State :=
  let s1 := logError s errFlashLost (dieUnit c d) (lostDetail s c d unit)
  { s1 with
    health := { s1.health with lostUnits := s1.health.lostUnits.filter (fun e => e != (c, d, unit)) ++ [(c, d, unit)] },
    tier := { s1.tier with flashPoison := insertAllAsc (unitPoison s c d unit) s1.tier.flashPoison } }

theorem lostRest_loseUnit {c d unit : Nat} (h : soleCopy s c d unit = true) :
    lostRest (loseUnit s c d unit) = lostRest (unitPoisoned s c d unit) := by
  unfold loseUnit
  dsimp only
  rw [if_neg (by simp [h])]
  refine foldl_lostRest (fun st x => ?_) _ (unitPoisoned s c d unit)
  cases versionAt x x.version with
  | none => rfl
  | some v =>
    dsimp only
    split <;> split <;> rfl

/-- O60, MEDIA_UNIT_REBUILD. -/
theorem execMediaUnitRebuild_row {c d unit : Nat} (hc : c < 128) (hd : d < s.sec.order.dies)
    (hl : s.health.lostUnits.contains (c, d, unit) = false) :
    (stripeBroken s c d unit = false →
      ∃ u, Machine.exec (.mediaUnitRebuild c d unit true) s = .next (logError u errFlashRebuilt (dieUnit c d) unit) ∧
        u = { s with health := { s.health with dies := u.health.dies } }) ∧
    ∀ ok, (ok = false ∨ stripeBroken s c d unit = true) → ∃ t, Machine.exec (.mediaUnitRebuild c d unit ok) s = .next t ∧
      (soleCopy s c d unit = true → t.health.lostUnits.contains (c, d, unit) = true ∧
        ∀ a ∈ unitSectors s c d unit, ∀ k, k < 64 → a + 64 * k ∈ t.tier.flashPoison) ∧
      (soleCopy s c d unit = false → t.health.lostUnits = s.health.lostUnits ∧ t.tier = s.tier ∧ t.indexes = s.indexes) := by
  refine ⟨fun hb => ⟨_, execMediaUnitRebuild_of_rebuilt hc hd hl hb, unitRefreshed_frame ..⟩, fun ok hb =>
    ⟨_, execMediaUnitRebuild_of_lost hc hd hl hb, fun hsole => ?_, fun hsole => ?_⟩⟩
  · obtain ⟨htier, hhealth⟩ := Prod.mk.inj (lostRest_loseUnit hsole)
    refine ⟨?_, fun a ha k hk => ?_⟩
    · rw [hhealth]
      simp [unitPoisoned]
    · rw [htier]
      refine mem_insertAllAsc.mpr (.inl (List.mem_flatMap.mpr ⟨a, ha, List.mem_map.mpr ⟨k, List.mem_range.mpr hk, rfl⟩⟩))
  · have hlog : loseUnit s c d unit = logError s errFlashLost (dieUnit c d) (lostDetail s c d unit) := by
      unfold loseUnit
      dsimp only
      rw [if_pos (by simp [hsole])]
    rw [hlog]
    refine ⟨by rw [logError_health], ?_, ?_⟩ <;> rw [logError_frame]

end Sys2Proof.Machine

/-! SUPPORT. The entries of the tier map as they are put, and the rows of DRAM and flash health that touch no frame's data
(R219, R281, R363, R367 to R373). -/

namespace Sys2Proof.Machine

open Sys2Proof

variable {s : State}

/-! The entry of a frame. -/

theorem frameReset_num (l : List Nat) (d : Nat) : (frameReset l d).num = d := by
  unfold frameReset
  dsimp only
  split <;> [rfl; split <;> [rfl; split <;> [rfl; split <;> rfl]]]

theorem frameAt_num (s : State) (d : Nat) : (frameAt s d).num = d := by
  unfold frameAt
  cases h : s.tier.frames.find? (fun e => e.num == d) with
  | none => exact frameReset_num ..
  | some e => simpa using List.find?_some h

theorem find_putFrame_same (l : List Frame_) (e : Frame_) (h : ∀ x ∈ l, x.num ≠ e.num) :
    (putFrame l e).find? (fun x => x.num == e.num) = some e := by
  induction l with
  | nil => simp [putFrame]
  | cons x r ih =>
    have hx := h x List.mem_cons_self
    have hr := ih (fun y hy => h y (List.mem_cons_of_mem x hy))
    simp only [putFrame]
    split
    · simp
    · rw [if_neg (by simpa using Ne.symm hx), List.find?_cons_of_neg (by simpa using hx)]
      exact hr

theorem find_putFrame_other (l : List Frame_) (e : Frame_) {d : Nat} (hd : d ≠ e.num) (h : ∀ x ∈ l, x.num ≠ e.num) :
    (putFrame l e).find? (fun x => x.num == d) = l.find? (fun x => x.num == d) := by
  induction l with
  | nil => simp [putFrame, Ne.symm hd]
  | cons x r ih =>
    have hx := h x List.mem_cons_self
    have hr := ih (fun y hy => h y (List.mem_cons_of_mem x hy))
    simp only [putFrame]
    split
    · rw [List.find?_cons_of_neg (by simpa using Ne.symm hd)]
    · rw [if_neg (by simpa using Ne.symm hx), List.find?_cons, List.find?_cons, hr]

/-- An entry that is put is found under its own number, and every other entry stands. -/
theorem frameAt_setFrame (s : State) (e : Frame_) (d : Nat) :
    frameAt (setFrame s e) d = if d = e.num then e else frameAt s d := by
  have hrest : ∀ x ∈ s.tier.frames.filter (fun x => x.num != e.num), x.num ≠ e.num := by simp
  have hnone : (s.tier.frames.filter (fun x => x.num != e.num)).find? (fun x => x.num == e.num) = none := by simp
  have hother (hd : d ≠ e.num) : (s.tier.frames.filter (fun x => x.num != e.num)).find? (fun x => x.num == d) =
      s.tier.frames.find? (fun x => x.num == d) := find_filter_other _ _ _ (by simp_all)
  unfold setFrame
  dsimp only
  split
  · next hreset =>
    by_cases hd : d = e.num
    · rw [if_pos hd, hd]
      simp only [frameAt, hnone]
      exact (eq_of_beq hreset).symm
    · rw [if_neg hd]
      simp only [frameAt, hother hd]
  · by_cases hd : d = e.num
    · rw [if_pos hd, hd]
      simp only [frameAt, find_putFrame_same _ _ hrest, Option.getD_some]
    · rw [if_neg hd]
      simp only [frameAt, find_putFrame_other _ _ hd hrest, hother hd]

theorem setFrame_frames (s : State) (e : Frame_) : setFrame s e = { s with tier := { s.tier with frames := (setFrame s e).tier.frames } } := by
  unfold setFrame
  dsimp only
  split <;> rfl

theorem frameAt_updFrame {f : Frame_ → Frame_} (hf : ∀ e, (f e).num = e.num) (s : State) (n d : Nat) :
    frameAt (updFrame s n f) d = if d = n then f (frameAt s n) else frameAt s d := by
  unfold updFrame
  rw [frameAt_setFrame, hf, frameAt_num]

/-! The mark of a poisoned frame. -/

/-- A frame is marked as poisoned, as one of its blocks is. -/
def markPoison (b : Bool) (e : Frame_) : Frame_ := { e with poison := b }

theorem refreshPoison_frame (s : State) (d : Nat) :
    refreshPoison s d = { s with tier := { s.tier with frames := (refreshPoison s d).tier.frames } } := by
  unfold refreshPoison
  dsimp only
  split
  · rfl
  · exact setFrame_frames ..

theorem frameAt_refreshPoison (s : State) (n d : Nat) : frameAt (refreshPoison s n) d =
    if d = n then markPoison (s.tier.poison.any (fun k => k / pageBytes == n)) (frameAt s n) else frameAt s d := by
  unfold refreshPoison
  dsimp only
  split
  · next h =>
    by_cases hd : d = n
    · rw [if_pos hd, ← eq_of_beq h, hd]
      rfl
    · rw [if_neg hd]
  · exact frameAt_updFrame (f := markPoison (s.tier.poison.any (fun k => k / pageBytes == n))) (fun _ => rfl) s n d

theorem foldl_refreshPoison (ds : List Nat) (s : State) :
    ds.foldl refreshPoison s = { s with tier := { s.tier with frames := (ds.foldl refreshPoison s).tier.frames } } ∧
    ∀ d, (frameAt (ds.foldl refreshPoison s) d).poison = (frameAt s d).poison ∨
      (frameAt (ds.foldl refreshPoison s) d).poison = s.tier.poison.any (fun k => k / pageBytes == d) := by
  induction ds generalizing s with
  | nil => exact ⟨rfl, fun _ => .inl rfl⟩
  | cons n ds ih =>
    obtain ⟨hframe, hpoison⟩ := ih (refreshPoison s n)
    have hsame : (refreshPoison s n).tier.poison = s.tier.poison := by rw [refreshPoison_frame]
    refine ⟨?_, fun d => ?_⟩
    · rw [List.foldl_cons, hframe, refreshPoison_frame]
    · rw [List.foldl_cons]
      rcases hpoison d with h | h
      · rw [h, frameAt_refreshPoison]
        split
        · next hd => exact .inr (by rw [hd]; rfl)
        · exact .inl rfl
      · exact .inr (by rw [h, hsame])

/-! The newest entry of a log. -/

theorem drop_append_last {α : Type} (l : List α) (a : α) {n : Nat} (hn : 0 < n) :
    (l ++ [a]).drop ((l ++ [a]).length - n) = l.drop (l.length + 1 - n) ++ [a] := by
  rw [List.length_append, List.length_singleton, List.drop_append_of_le_length (by omega)]

theorem errorEntry_mem_logError (s : State) (cls unit detail : Nat) :
    errorEntry s cls unit detail none ∈ (logError s cls unit detail).health.errors := by
  rw [logError_health, drop_append_last _ _ (by decide)]
  simp

theorem logError_of_quiet {cls : Nat} (unit detail : Nat) (h : severityOf cls ≠ 2) :
    logError s cls unit detail = { s with health := (logError s cls unit detail).health } := by
  have hsev : ¬ (severityOf cls == 2) = true := by simpa using h
  unfold logError logEntry
  dsimp only
  rw [if_neg hsev]

/-- s with the poison of a structure's blocks taken away. -/
def structCleared (s : State) (x : Index) (st : IndexStruct) : State :=
  { s with tier := { s.tier with poison := s.tier.poison.filter (fun k => !inStruct s x st k) } }

/-- The frames that hold poisoned blocks of a structure. -/
def poisonedFrames (s : State) (x : Index) (st : IndexStruct) : List Nat :=
  ((s.tier.poison.filter (inStruct s x st)).map (fun k => k / pageBytes)).eraseDups

/-- The detail of the log entry of a restored structure: two free values. -/
def restoredDetail (u : State) : Nat := (freshValue u).toNat + (freshValue (bumpFree u)).toNat * 2 ^ 64

theorem execIndexStructureRestored_of_poison {n : Nat} {st : IndexStruct} {x : Index} (hx : indexAt s n = some x)
    (hp : s.tier.poison.any (inStruct s x st) = true) : Machine.exec (.indexStructureRestored n st) s =
      .next (logError (bumpFree (bumpFree ((poisonedFrames s x st).foldl refreshPoison (structCleared s x st)))) errIndexRestored n
        (restoredDetail ((poisonedFrames s x st).foldl refreshPoison (structCleared s x st)))) := by
  refine congrArg Host.Outcome.next ?_
  rw [hx]
  exact if_neg (by simp only [hp]; decide)

/-- O60, INDEX_STRUCTURE_RESTORED. -/
theorem execIndexStructureRestored_row {n : Nat} {st : IndexStruct} {x : Index} (hx : indexAt s n = some x)
    (hp : s.tier.poison.any (inStruct s x st) = true) :
    ∃ t, Machine.exec (.indexStructureRestored n st) s = .next t ∧
      t = { s with
        tier := { s.tier with poison := s.tier.poison.filter (fun k => !inStruct s x st k), frames := t.tier.frames },
        free := t.free, health := t.health } ∧
      (∀ d, (frameAt t d).poison = (frameAt s d).poison ∨ (frameAt t d).poison = t.tier.poison.any (fun k => k / pageBytes == d)) ∧
      ∃ e ∈ t.health.errors, e.cls = errIndexRestored ∧ e.unit = n := by
  have hexec := execIndexStructureRestored_of_poison hx hp
  obtain ⟨hframe, hpoison⟩ := foldl_refreshPoison (poisonedFrames s x st) (structCleared s x st)
  generalize (poisonedFrames s x st).foldl refreshPoison (structCleared s x st) = u at hexec hframe hpoison
  generalize restoredDetail u = detail at hexec
  have hlog := logError_of_quiet (s := bumpFree (bumpFree u)) (cls := errIndexRestored) n detail (by decide)
  have hentry := errorEntry_mem_logError (bumpFree (bumpFree u)) errIndexRestored n detail
  generalize logError (bumpFree (bumpFree u)) errIndexRestored n detail = t at hexec hlog hentry
  have htier : t.tier = u.tier := by rw [hlog]; rfl
  have hblocks : u.tier.poison = s.tier.poison.filter (fun k => !inStruct s x st k) := by rw [hframe]; rfl
  refine ⟨t, hexec, ?_, fun d => ?_, _, hentry, rfl, rfl⟩
  · rw [hlog, hframe]
    rfl
  · have hat : frameAt t d = frameAt u d := by simp only [frameAt, htier]
    rw [hat, htier, hblocks]
    exact hpoison d

/-! The scrub of a set of DRAM frames, and the monitors (R363, R367). -/

theorem foldl_noteCorrected_pairs (l : List (Nat × Nat)) (s : State) : l.foldl (fun st e => noteCorrected st e.1 e.2) s =
    { s with health := { s.health with banks := (l.foldl (fun st e => noteCorrected st e.1 e.2) s).health.banks } } := by
  induction l generalizing s with
  | nil => rfl
  | cons e l ih =>
    rw [List.foldl_cons, ih]
    rfl

/-- u with a set noted as scrubbed at tick dtb. -/
def setScrubbed (u : State) (set dtb : Nat) : State :=
  { u with health := { u.health with scrubbed := putKey u.health.scrubbed set dtb } }

theorem execDramScrubPass_of_free {set : Nat} (cs : List (Nat × Nat)) (hb : beHeld s = false) (hset : set < 960) :
    Machine.exec (.dramScrubPass set cs) s = .next (setScrubbed
      ((cs.filter (fun e => e.2 / 128 == set && e.1 < 4096)).foldl (fun st e => noteCorrected st e.1 e.2) (needDomains s lpcDomains))
      set s.time.dtb) := by
  have hserves : ¬ (beHeld s || 960 ≤ set) = true := by simp [hb]; omega
  exact congrArg Host.Outcome.next (if_neg hserves)

/-- O60, DRAM_SCRUB_PASS. -/
theorem execDramScrubPass_row {set : Nat} {cs : List (Nat × Nat)} (hb : beHeld s = false) (hset : set < 960) :
    ∃ t, Machine.exec (.dramScrubPass set cs) s = .next t ∧
      t = { s with power := t.power, health := { s.health with banks := t.health.banks, scrubbed := t.health.scrubbed } } ∧
      lookupKey t.health.scrubbed set = some s.time.dtb := by
  have hwake := needDomains_frame s lpcDomains
  have hnote := foldl_noteCorrected_pairs (cs.filter (fun e => e.2 / 128 == set && e.1 < 4096)) (needDomains s lpcDomains)
  refine ⟨_, execDramScrubPass_of_free cs hb hset, ?_, lookupKey_putKey_same ..⟩
  rw [hnote, hwake]
  rfl

/-- The record that `logMoraine` appends. -/
def moraineEntry (s : State) (kind unit : Nat) (v0 v1 v2 v3 limit : Word32) : Moraine :=
  { dtb := now s, boot := s.time.bootCount, seq := s.health.nextRecord, kind := kind, unit := unit, v0 := v0, v1 := v1, v2 := v2,
    v3 := v3, limit := limit, plan := s.health.planNumber }

theorem logMoraine_health (s : State) (kind unit : Nat) (v0 v1 v2 v3 limit : Word32) :
    (logMoraine s kind unit v0 v1 v2 v3 limit).health = { s.health with
      nextRecord := s.health.nextRecord + 1,
      moraine := (s.health.moraine ++ [moraineEntry s kind unit v0 v1 v2 v3 limit]).drop
        ((s.health.moraine ++ [moraineEntry s kind unit v0 v1 v2 v3 limit]).length - 1048576) } := rfl

theorem getLast_logMoraine (s : State) (kind unit : Nat) (v0 v1 v2 v3 limit : Word32) :
    (logMoraine s kind unit v0 v1 v2 v3 limit).health.moraine.getLast? = some (moraineEntry s kind unit v0 v1 v2 v3 limit) := by
  rw [logMoraine_health, drop_append_last _ _ (by omega), List.getLast?_append]
  rfl

/-- O60, MONITOR_SAMPLE of a monitor whose record is due. -/
theorem execMonitorSample_of_due {kind unit : Nat} {v0 v1 v2 v3 : Word32} (limit : Word32) (hk : monitorKinds.contains kind = true)
    (hm : monitored s kind unit = true) (hd : recordDue s kind unit [v0, v1, v2, v3] = true) :
    Machine.exec (.monitorSample kind unit v0 v1 v2 v3 limit) s = .next (logMoraine s kind unit v0 v1 v2 v3 limit) :=
  congrArg Host.Outcome.next (if_pos (by simp [hm, hd]; simpa using hk))

/-- O60, MONITOR_SAMPLE of a monitor whose record is not due. -/
theorem execMonitorSample_of_not_due {kind unit : Nat} {v0 v1 v2 v3 : Word32} (limit : Word32)
    (hd : recordDue s kind unit [v0, v1, v2, v3] = false) : Machine.exec (.monitorSample kind unit v0 v1 v2 v3 limit) s = .next s :=
  congrArg Host.Outcome.next (if_neg (by simp [hd]))

/-! The raise of a margin plan, and LOG_GET (R281, R371). -/

theorem setReference_frame (s : State) (r : Nat × Nat × Nat × Int) :
    setReference s r = { s with health := { s.health with dies := (setReference s r).health.dies } } := rfl

theorem foldl_setReference (rs : List (Nat × Nat × Nat × Int)) (s : State) : rs.foldl setReference s =
    { s with health := { s.health with dies := (rs.foldl setReference s).health.dies } } := by
  induction rs generalizing s with
  | nil => rfl
  | cons r rs ih =>
    rw [List.foldl_cons, ih, setReference_frame]

theorem wantDeparture_frame (s : State) (c : Nat) (k : DepKind) :
    wantDeparture s c k = { s with tier := { s.tier with wanted := (wantDeparture s c k).tier.wanted } } := by
  unfold wantDeparture
  dsimp only
  split <;> rfl

theorem foldl_wantDeparture (k : DepKind) (cs : List Nat) (s : State) : cs.foldl (fun st c => wantDeparture st c k) s =
    { s with tier := { s.tier with wanted := (cs.foldl (fun st c => wantDeparture st c k) s).tier.wanted } } := by
  induction cs generalizing s with
  | nil => rfl
  | cons c cs ih =>
    rw [List.foldl_cons, ih, wantDeparture_frame]

/-- u with a margin plan in force since tick dtb. -/
def planRaised (u : State) (p : MarginPlan) (dtb : Nat) : State :=
  { u with health := { u.health with
    plan := none, planNumber := p.number, planDtb := dtb, refreshMult := p.refresh,
    offsets := p.offsets.foldl (fun l e => putKey l e.1 e.2) u.health.offsets,
    clocks := p.clocks.foldl (fun l e => putKey l e.1 e.2) u.health.clocks } }

theorem execMarginPlanRaise_of_plan {p : MarginPlan} (hp : s.health.plan = some p) : Machine.exec .marginPlanRaise s =
    .next (p.retrain.foldl (fun st c => wantDeparture st c .temporary) (planRaised (p.refs.foldl setReference s) p s.time.dtb)) := by
  refine congrArg Host.Outcome.next ?_
  rw [hp]
  rfl

/-- O60, MARGIN_PLAN_RAISE. -/
theorem execMarginPlanRaise_row {p : MarginPlan} (hp : s.health.plan = some p) :
    ∃ t, Machine.exec .marginPlanRaise s = .next t ∧
      t = { s with health := t.health, tier := { s.tier with wanted := t.tier.wanted } } ∧
      t.health.plan = none ∧ t.health.planNumber = p.number ∧ t.health.planDtb = s.time.dtb ∧ t.health.refreshMult = p.refresh := by
  refine ⟨_, execMarginPlanRaise_of_plan hp, ?_, ?_⟩
  · rw [foldl_wantDeparture, foldl_setReference]
    rfl
  · rw [foldl_wantDeparture]
    exact ⟨rfl, rfl, rfl, rfl⟩

/-- O60, LOG_GET. -/
theorem execLogGet_of_page {cid : Nat} {c : Cmd} {bs : Bytes} (ht : adminTakes s cid 0x8B c) (hoff : field c.sqe 112 32 % 64 = 0)
    (hmul : field c.sqe 144 32 % 64 = 0) (hlen : field c.sqe 144 32 ≠ 0)
    (hpage : logPage s .host (field c.sqe 64 8) (field c.sqe 80 32) = (stOk, bs)) :
    Machine.exec (.logGet cid) s = .next (endCmd { s with
      out := s.out ++ [.hostWrite adminQ cid (sliceOf bs (field c.sqe 112 32) (field c.sqe 144 32))] } adminQ c stOk
      (sliceOf bs (field c.sqe 112 32) (field c.sqe 144 32)).length) := by
  refine congrArg Host.Outcome.next ((withAdmin_of_adminTakes ht _).trans ?_)
  dsimp only
  rw [if_neg (by simp [hoff, hmul, hlen]), hpage]
  exact if_neg (by simp)

end Sys2Proof.Machine

/-! SUPPORT. The build of a margin plan (R371, R372). -/

namespace Sys2Proof.Machine

open Sys2Proof

variable {s : State}

/-- t is s but for what the build of a margin plan may change. -/
def marginFrame (s t : State) : Prop :=
  t = { s with free := t.free, out := t.out, pins := t.pins, bay := t.bay, health := t.health, sb := t.sb, power := t.power }

theorem marginFrame_trans {t u : State} (h : marginFrame s t) (h' : marginFrame t u) : marginFrame s u := by
  unfold marginFrame at *
  rw [h', h]

theorem marginFrame_logError (s : State) (cls unit detail : Nat) : marginFrame s (logError s cls unit detail) := by
  unfold marginFrame
  rw [logError_frame]

theorem marginFrame_bumpFree (s : State) : marginFrame s (bumpFree s) := rfl

theorem marginFrame_logMoraine (s : State) (kind unit : Nat) (v0 v1 v2 v3 limit : Word32) :
    marginFrame s (logMoraine s kind unit v0 v1 v2 v3 limit) := by
  unfold marginFrame
  rw [logMoraine_frame]

theorem marginFrame_exhaustArray (s : State) (n : Nat) : marginFrame s (exhaustArray s n) := by
  unfold exhaustArray
  dsimp only
  split
  · rfl
  · exact marginFrame_trans (marginFrame_logError ..) rfl

theorem marginFrame_foldl_exhaustArray (ns : List Nat) (s : State) : marginFrame s (ns.foldl exhaustArray s) := by
  induction ns generalizing s with
  | nil => rfl
  | cons n ns ih => exact marginFrame_trans (marginFrame_exhaustArray s n) (ih _)

/-- What the build of a plan wakes: MGMT, and the domains of the flash it will read. -/
def planWoken (s : State) (trigger : Nat) (m : MarginItems) : State :=
  needDomains (rouseMgmt s 0x09) (if trigger == 5 then [] else flgDomains ((m.refs.map (fun r => r.1)).filter (fun c => c < 128)))

theorem planWoken_frame (s : State) (trigger : Nat) (m : MarginItems) :
    planWoken s trigger m = { s with power := (planWoken s trigger m).power } := by
  unfold planWoken
  rw [needDomains_frame, rouseMgmt_frame]

/-- What the log keeps of a plan. -/
def planLogged (u : State) (p : MarginPlan) (trigger : Nat) : State :=
  logError (logMoraine (bumpFree u) 0x0030 p.number (BitVec.ofNat 32 (changedDomains u p).length)
    (BitVec.ofNat 32 p.refresh) (BitVec.ofNat 32 (refDies u p.refs).length) (BitVec.ofNat 32 trigger)
    (BitVec.ofNat 32 (freshValue u).toNat)) errMarginPlan p.number trigger

theorem marginFrame_planLogged (u : State) (p : MarginPlan) (trigger : Nat) : marginFrame u (planLogged u p trigger) :=
  marginFrame_trans (marginFrame_trans (marginFrame_bumpFree u) (marginFrame_logMoraine ..)) (marginFrame_logError ..)

/-- The arrays whose supply would have to rise past the limit. -/
def overLimit (m : MarginItems) : List Nat := (m.offsets.filter (fun e => 4 ≤ e.1 && e.1 < 164 && 75 < e.2)).map (fun e => e.1)

/-- u with a plan that waits for its raise. -/
def withPlan (u : State) (p : MarginPlan) : State := { u with health := { u.health with plan := some p } }

theorem execMarginPlanBuild_of_idle {trigger : Nat} (m : MarginItems) (hp : s.health.plan = none) (ha : mgmtAwake s = true)
    (hf : isFatal s = false) (h2 : 2 ≤ trigger) (h7 : trigger ≤ 7) : Machine.exec (.marginPlanBuild trigger m) s =
      .next (withPlan (planLogged ((overLimit m).foldl exhaustArray (planWoken s trigger m))
        (planOf (planWoken s trigger m) trigger m) trigger) (planOf (planWoken s trigger m) trigger m)) := by
  have hserves : ¬ (s.health.plan.isSome || !mgmtAwake s || isFatal s || trigger == 0 || 7 < trigger) = true := by
    simp [hp, ha, hf]
    omega
  have hfirst : ¬ (trigger == 1) = true := by simp; omega
  refine congrArg Host.Outcome.next ((if_neg hserves).trans ?_)
  dsimp only
  rw [if_neg hfirst]
  rfl

theorem clampOffset_bounds (v : Int) : -50 ≤ clampOffset v ∧ clampOffset v ≤ 75 := by
  unfold clampOffset
  omega

theorem clampReference_bounds (v : Int) : -400 ≤ clampReference v ∧ clampReference v ≤ 400 := by
  unfold clampReference
  omega

/-- A plan stays within the limits of offsets, references and clock steps. -/
theorem planOf_bounds (u : State) (trigger : Nat) (m : MarginItems) :
    (∀ e ∈ (planOf u trigger m).offsets, -50 ≤ e.2 ∧ e.2 ≤ 75) ∧
    (∀ r ∈ (planOf u trigger m).refs, -400 ≤ r.2.2.2 ∧ r.2.2.2 ≤ 400) ∧
    (∀ e ∈ (planOf u trigger m).clocks, e.1 < 2 ∧ e.2 ≤ 3) ∧
    (trigger = 5 → (planOf u trigger m).refs = [] ∧ (planOf u trigger m).retrain = []) := by
  refine ⟨fun e he => ?_, fun r hr => ?_, fun e he => ?_, fun h => ?_⟩
  · obtain ⟨x, -, rfl⟩ := List.mem_map.mp he
    exact clampOffset_bounds x.2
  · unfold planOf at hr
    dsimp only at hr
    split at hr
    · exact absurd hr List.not_mem_nil
    · obtain ⟨x, -, rfl⟩ := List.mem_map.mp hr
      exact clampReference_bounds _
  · obtain ⟨-, hcond⟩ := List.mem_filter.mp he
    simp only [Bool.and_eq_true, decide_eq_true_eq] at hcond
    exact hcond.1
  · subst h
    exact ⟨rfl, rfl⟩

/-- O60, MARGIN_PLAN_BUILD. -/
theorem execMarginPlanBuild_row {trigger : Nat} (m : MarginItems) (hp : s.health.plan = none) (ha : mgmtAwake s = true)
    (hf : isFatal s = false) (h2 : 2 ≤ trigger) (h7 : trigger ≤ 7) :
    ∃ t p, Machine.exec (.marginPlanBuild trigger m) s = .next t ∧
      t = { s with
        free := t.free, out := t.out, time := t.time, pins := t.pins, bay := t.bay, health := t.health, sb := t.sb, power := t.power } ∧
      t.health.plan = some p ∧ p.number = s.health.planNumber + 1 ∧
      p.trigger = trigger ∧ (∀ e ∈ p.offsets, -50 ≤ e.2 ∧ e.2 ≤ 75) ∧ (∀ r ∈ p.refs, -400 ≤ r.2.2.2 ∧ r.2.2.2 ≤ 400) ∧
      (∀ e ∈ p.clocks, e.1 < 2 ∧ e.2 ≤ 3) ∧ (trigger = 5 → p.refs = [] ∧ p.retrain = []) := by
  obtain ⟨hoff, hrefs, hclocks, hfive⟩ := planOf_bounds (planWoken s trigger m) trigger m
  have hwoken := planWoken_frame s trigger m
  have hnumber : (planOf (planWoken s trigger m) trigger m).number = s.health.planNumber + 1 := by
    change (planWoken s trigger m).health.planNumber + 1 = _
    rw [hwoken]
  have hframe : marginFrame s (withPlan (planLogged ((overLimit m).foldl exhaustArray (planWoken s trigger m))
      (planOf (planWoken s trigger m) trigger m) trigger) (planOf (planWoken s trigger m) trigger m)) :=
    marginFrame_trans (t := planWoken s trigger m) (by unfold marginFrame; rw [hwoken])
      (marginFrame_trans (marginFrame_foldl_exhaustArray ..) (marginFrame_trans (marginFrame_planLogged ..) rfl))
  refine ⟨_, planOf (planWoken s trigger m) trigger m, execMarginPlanBuild_of_idle m hp ha hf h2 h7, ?_, rfl, hnumber, rfl, hoff,
    hrefs, hclocks, hfive⟩
  unfold marginFrame at hframe
  rw [hframe]

end Sys2Proof.Machine

/-! SUPPORT. A frame that is held for a failing row: what moving or cleaning it can change (R362 to R367). -/

namespace Sys2Proof.Machine

open Sys2Proof

variable {s : State}

/-! What moving a frame leaves unchanged. -/

/-- What stands of a state where frames move, are cleaned or are held. -/
def movingRest (s : State) :=
  (s.pending, s.free, s.time, s.pins, s.link, s.indexes, s.adm, s.cells, s.health, s.dict, s.sb, s.power, s.sec, s.tap)

theorem eq_of_movingRest {t : State} (h : movingRest t = movingRest s) :
    t = { s with out := t.out, queues := t.queues, bay := t.bay, tier := t.tier, rime := t.rime } := by
  obtain ⟨⟩ := s
  obtain ⟨⟩ := t
  simp only [movingRest, Prod.mk.injEq] at h
  simp [h]

theorem foldl_movingRest {α : Type} {f : State → α → State} (hf : ∀ t a, movingRest (f t a) = movingRest t) (l : List α) (s : State) :
    movingRest (l.foldl f s) = movingRest s := by
  induction l generalizing s with
  | nil => rfl
  | cons a l ih => exact (ih _).trans (hf s a)

@[simp] theorem movingRest_tier (x : TierState) : movingRest { s with tier := x } = movingRest s := rfl

@[simp] theorem movingRest_setFrame (e : Frame_) : movingRest (setFrame s e) = movingRest s := by
  rw [setFrame_frame]
  rfl

@[simp] theorem movingRest_clearFrame (d : Nat) : movingRest (clearFrame s d) = movingRest s := rfl

@[simp] theorem movingRest_setRimeBank (b : RimeBank) : movingRest (setRimeBank s b) = movingRest s := rfl

@[simp] theorem movingRest_setMoved (p : Nat → Bool) : movingRest (setMoved s p) = movingRest s := by
  unfold setMoved
  split <;> rfl

@[simp] theorem movingRest_redirectHome (page bank to_ : Nat) : movingRest (redirectHome s page bank to_) = movingRest s := by
  unfold redirectHome
  dsimp only
  split <;> split <;> simp

@[simp] theorem movingRest_moveFrame (src dst : Nat) (left : FrameState) : movingRest (moveFrame s src dst left) = movingRest s := by
  unfold moveFrame
  dsimp only
  split <;> simp

@[simp] theorem movingRest_startWriteback (d : Nat) : movingRest (startWriteback s d) = movingRest s := by
  unfold startWriteback
  dsimp only
  split <;> simp

@[simp] theorem movingRest_endWriteback (d group slot : Nat) : movingRest (endWriteback s d group slot) = movingRest s := by
  unfold endWriteback
  dsimp only
  split <;> simp

@[simp] theorem movingRest_writeHome (d group slot : Nat) : movingRest (writeHome s d group slot) = movingRest s := by
  simp [writeHome]

@[simp] theorem movingRest_updCmd (q cid : Nat) (f : Cmd → Cmd) : movingRest (updCmd s q cid f) = movingRest s := by
  rw [updCmd_frame]
  rfl

@[simp] theorem movingRest_postCompletion (q cid status result : Nat) :
    movingRest (postCompletion s q cid status result) = movingRest s := by
  rw [postCompletion_frame]
  rfl

@[simp] theorem movingRest_progressCtx (c : Nat) : movingRest (progressCtx s c) = movingRest s := rfl

@[simp] theorem movingRest_releaseCopies (page : Nat) : movingRest (releaseCopies s page) = movingRest s := by
  refine foldl_movingRest (fun t p => foldl_movingRest (fun u c => ?_) _ t) _ s
  dsimp only
  split <;> simp

@[simp] theorem movingRest_finishWriteback (d : Nat) : movingRest (finishWriteback s d) = movingRest s := by
  unfold finishWriteback
  dsimp only
  split <;> simp

@[simp] theorem movingRest_cleanFrame (d : Nat) : movingRest (cleanFrame s d) = movingRest s := by
  unfold cleanFrame
  split <;> simp

@[simp] theorem movingRest_freeFrame (d : Nat) : movingRest (freeFrame s d) = movingRest s := by
  unfold freeFrame
  dsimp only
  split <;> simp

@[simp] theorem movingRest_vacate (d : Nat) (left : FrameState) : movingRest (vacate s d left) = movingRest s := by
  unfold vacate
  dsimp only
  (repeat' split) <;> simp

@[simp] theorem movingRest_holdFrame (d : Nat) : movingRest (holdFrame s d) = movingRest s := by
  unfold holdFrame
  dsimp only
  (repeat' split) <;> simp

/-! A failing row. -/

/-- A departure of a channel is wanted when eight of its rows wait for a repair (R365). -/
def wantedIfFull (s : State) (c : Nat) : State := if 8 ≤ queuedRows s c then wantDeparture s c .temporary else s

/-- The failing row of a bank, with its frames held. -/
def rowHeld (s : State) (bank row : Nat) : State :=
  (framesOfRow s bank row).foldl holdFrame
    (logError s errRowFailing bank (row + (4 - (bankHealth s bank).used) * 2 ^ 64))

/-- A bank's record with one more row that waits for a repair. -/
def addFailing (row : Nat) (frames : List Nat) (v : BankHealth) : BankHealth := { v with failing := v.failing ++ [(row, frames)] }

theorem execDramRowFailing_of_weak {bank row : Nat} (hb : bank < 4096) (hr : row < 131072)
    (hnew : (bankHealth s bank).failing.any (fun r => r.1 == row) = false) (hweak : rowWeak s bank row = true)
    (hroom : (bankHealth s bank).used + (bankHealth s bank).failing.length < 4) :
    Machine.exec (.dramRowFailing bank row false) s = .next (wantedIfFull
      (setBankHealth (rowHeld s bank row) (addFailing row (framesOfRow s bank row) (bankHealth s bank))) (bank / 32)) := by
  have hserves : ¬ (4096 ≤ bank || 131072 ≤ row || (bankHealth s bank).failing.any (fun r => r.1 == row) ||
      !(false || rowWeak s bank row)) = true := by
    simp only [hnew, hweak, Bool.or_false, Bool.false_or, Bool.not_true, Bool.or_eq_true, decide_eq_true_eq]
    omega
  exact congrArg Host.Outcome.next ((if_neg hserves).trans (if_pos hroom))

theorem wantedIfFull_frame (s : State) (c : Nat) :
    wantedIfFull s c = { s with tier := { s.tier with wanted := (wantedIfFull s c).tier.wanted } } := by
  unfold wantedIfFull
  split
  · exact wantDeparture_frame ..
  · rfl

theorem bankHealth_wantedIfFull (s : State) (c b : Nat) : bankHealth (wantedIfFull s c) b = bankHealth s b := by
  rw [wantedIfFull_frame]
  rfl

theorem bankHealth_addFailing (u : State) {bank : Nat} (row : Nat) (frames : List Nat) {v : BankHealth} (hv : v.bank = bank) :
    bankHealth (setBankHealth u (addFailing row frames v)) bank = addFailing row frames v := by
  subst hv
  exact bankHealth_setBankHealth_same u (addFailing row frames v)

/-- O60, DRAM_ROW_FAILING of a row with too many corrected bytes in a day. -/
theorem execDramRowFailing_row {bank row : Nat} (hb : bank < 4096) (hr : row < 131072)
    (hnew : (bankHealth s bank).failing.any (fun r => r.1 == row) = false) (hweak : rowWeak s bank row = true)
    (hroom : (bankHealth s bank).used + (bankHealth s bank).failing.length < 4) :
    ∃ t, Machine.exec (.dramRowFailing bank row false) s = .next t ∧
      t = { s with
        free := t.free, out := t.out, pins := t.pins, queues := t.queues, bay := t.bay, tier := t.tier, health := t.health,
        sb := t.sb, link := t.link, rime := t.rime } ∧
      bankHealth t bank = { bankHealth s bank with
        failing := (bankHealth s bank).failing ++ [(row, framesOfRow s bank row)] } ∧
      ∃ e ∈ t.health.errors, e.cls = errRowFailing ∧ e.unit = bank := by
  have hexec := execDramRowFailing_of_weak hb hr hnew hweak hroom
  have hheld : movingRest (rowHeld s bank row) = _ := foldl_movingRest (fun _ _ => movingRest_holdFrame _) _ _
  have hmoved := eq_of_movingRest hheld
  have hlog := logError_frame s errRowFailing bank (row + (4 - (bankHealth s bank).used) * 2 ^ 64) none
  have hentry := errorEntry_mem_logError s errRowFailing bank (row + (4 - (bankHealth s bank).used) * 2 ^ 64)
  generalize logError s errRowFailing bank (row + (4 - (bankHealth s bank).used) * 2 ^ 64) = l at hmoved hlog hentry
  generalize rowHeld s bank row = u at hexec hmoved
  have hwanted := wantedIfFull_frame (setBankHealth u (addFailing row (framesOfRow s bank row) (bankHealth s bank))) (bank / 32)
  have hbank := bankHealth_wantedIfFull (setBankHealth u (addFailing row (framesOfRow s bank row) (bankHealth s bank))) (bank / 32)
    bank
  rw [bankHealth_addFailing u row (framesOfRow s bank row) (bank_bankHealth s bank)] at hbank
  have herrors : u.health = l.health := by rw [hmoved]
  refine ⟨_, hexec, ?_, hbank, errorEntry s errRowFailing bank (row + (4 - (bankHealth s bank).used) * 2 ^ 64) none, ?_, rfl, rfl⟩
  · rw [hwanted, hmoved, hlog]
    rfl
  · rw [hwanted]
    change _ ∈ u.health.errors
    rw [herrors]
    exact hentry

/-- O60, MONITOR_SAMPLE of a monitor whose record is due. -/
theorem execMonitorSample_row {kind unit : Nat} {v0 v1 v2 v3 : Word32} (limit : Word32) (hk : monitorKinds.contains kind = true)
    (hm : monitored s kind unit = true) (hd : recordDue s kind unit [v0, v1, v2, v3] = true) :
    ∃ t r, Machine.exec (.monitorSample kind unit v0 v1 v2 v3 limit) s = .next t ∧
      t = { s with health := { s.health with nextRecord := s.health.nextRecord + 1, moraine := t.health.moraine } } ∧
      t.health.moraine.getLast? = some r ∧ r.kind = kind ∧ r.unit = unit ∧ r.v0 = v0 ∧ r.v1 = v1 ∧ r.v2 = v2 ∧ r.v3 = v3 ∧
      r.limit = limit ∧ r.dtb = s.time.dtb ∧ r.boot = s.time.bootCount ∧ r.seq = s.health.nextRecord := by
  have hframe := logMoraine_frame s kind unit v0 v1 v2 v3 limit
  have hhealth := logMoraine_health s kind unit v0 v1 v2 v3 limit
  have hlast := getLast_logMoraine s kind unit v0 v1 v2 v3 limit
  have hexec := execMonitorSample_of_due limit hk hm hd
  generalize logMoraine s kind unit v0 v1 v2 v3 limit = t at *
  refine ⟨t, _, hexec, ?_, hlast, rfl, rfl, rfl, rfl, rfl, rfl, rfl, rfl, rfl, rfl⟩
  rw [hframe, hhealth]

/-- Settles O60: the dies' records for FLASH_PE_FAIL and FLASH_PATROL, the XOR of a stripe by its parity unit, the log's newest
entry, and the frames that a failing row holds. -/
theorem healthRows : Obligations.HealthRows :=
  ⟨fun _ _ _ _ _ hc hd hr hbad hpool hb hs hlive => execFlashPeFail_row hc hd hr hbad hpool hb hs hlive,
    fun _ _ _ _ _ _ _ hc hd hr hheld htries hneed hb hs hfirst => execFlashPatrol_refreshes hc hd hr hheld htries hneed hb hs hfirst,
    fun s _ _ _ _ _ _ hpass => execFlashPatrol_passes s hpass,
    fun _ _ _ _ hc hd hl => execMediaUnitRebuild_row hc hd hl,
    rebuiltUnit_eq_stripeUnit,
    fun _ _ _ _ hx hp => execIndexStructureRestored_row hx hp,
    fun _ _ _ hb hset => execDramScrubPass_row hb hset,
    fun _ _ _ hb hr hnew hweak hroom => execDramRowFailing_row hb hr hnew hweak hroom,
    fun _ _ _ _ _ _ _ limit hk hm hd => execMonitorSample_row limit hk hm hd,
    fun _ _ _ _ _ _ _ limit hd => execMonitorSample_of_not_due limit hd,
    fun _ _ m hp ha hf h2 h7 => execMarginPlanBuild_row m hp ha hf h2 h7,
    fun _ _ hp => execMarginPlanRaise_row hp,
    fun _ _ _ _ ht hoff hmul hlen hpage => execLogGet_of_page ht hoff hmul hlen hpage⟩

end Sys2Proof.Machine

/-! SUPPORT. A copy between byte stores: what stands at its destination afterwards, and elsewhere. -/

namespace Sys2Proof.Machine

open Sys2Proof

theorem memRead_filter (p : Nat → Bool) (m : List Host.Cell) {k : Nat} (hk : p k = true) :
    memRead (m.filter (fun e => p e.1)) k = memRead m k := by
  induction m with
  | nil => rfl
  | cons e r ih =>
    obtain ⟨i, b⟩ := e
    by_cases hi : i = k
    · subst hi
      simp [memRead, hk]
    · cases hp : p i <;> simp [memRead, hp, hi, ih]

theorem memRead_memClear_other (m : List Host.Cell) (a n : Nat) {k : Nat} (hk : k < a ∨ a + n ≤ k) :
    memRead (memClear m a n) k = memRead m k :=
  memRead_filter (fun i => i < a || a + n ≤ i) m (by simpa using hk)

theorem memRead_memPut_other (es : List Host.Cell) (src dst : Nat) (m : List Host.Cell) {k : Nat}
    (hk : ∀ e ∈ es, e.1 - src + dst ≠ k) : memRead (memPut m src dst es) k = memRead m k := by
  induction es generalizing m with
  | nil => rfl
  | cons e r ih =>
    have hr := ih (memWrite m (e.1 - src + dst) e.2) (fun x hx => hk x (List.mem_cons_of_mem e hx))
    exact hr.trans (memRead_memWrite_other m _ k e.2 (Ne.symm (hk e List.mem_cons_self)))

/-- Entries put into an empty place are read there as they were in their own. -/
theorem memRead_memPut_at (es : List Host.Cell) (src dst : Nat) (m : List Host.Cell) {k : Nat} (hm : memWf m = true)
    (hes : memWf es = true) (hsrc : ∀ e ∈ es, src ≤ e.1) (hzero : memRead m (dst + k) = 0) :
    memRead (memPut m src dst es) (dst + k) = memRead es (src + k) := by
  induction es generalizing m with
  | nil => exact hzero
  | cons e r ih =>
    obtain ⟨hsorted, hne⟩ := (memWf_iff _).mp hes
    obtain ⟨hfirst, hrest⟩ := List.pairwise_cons.mp hsorted
    have hput : memPut m src dst (e :: r) = memPut (memWrite m (e.1 - src + dst) e.2) src dst r := rfl
    have hr : memWf r = true := (memWf_iff _).mpr ⟨hrest, fun x hx => hne x (List.mem_cons_of_mem e hx)⟩
    have hge := hsrc e List.mem_cons_self
    have hrsrc : ∀ x ∈ r, src ≤ x.1 := fun x hx => hsrc x (List.mem_cons_of_mem e hx)
    rw [hput]
    by_cases he : e.1 = src + k
    · have hplace : e.1 - src + dst = dst + k := by omega
      have hothers : ∀ x ∈ r, x.1 - src + dst ≠ dst + k := fun x hx => by
        have hlt := hfirst x hx
        have hle := hrsrc x hx
        omega
      rw [memRead_memPut_other r src dst _ hothers, hplace, memRead_memWrite_same m (dst + k) e.2 hm]
      simp [memRead, he]
    · have hplace : dst + k ≠ e.1 - src + dst := by omega
      rw [ih _ (memWf_memWrite m _ e.2 hm) hr hrsrc (by rw [memRead_memWrite_other m _ _ _ hplace, hzero])]
      simp [memRead, he]

/-- A copy reads at its destination as its source. -/
theorem memRead_memCopy_at {x m : List Host.Cell} (a b n : Nat) {k : Nat} (hx : memWf x = true) (hm : memWf m = true) (hk : k < n) :
    memRead (memCopy x m a b n) (b + k) = memRead x (a + k) := by
  have hpart : ∀ e ∈ memPart x a n, a ≤ e.1 := fun e he => by
    have := (List.mem_filter.mp he).2
    simp only [Bool.and_eq_true, decide_eq_true_eq] at this
    exact this.1
  have hempty : memRead (memClear m b n) (b + k) = 0 := memRead_memClear m b n (b + k) (by omega) (by omega)
  have hread := memRead_memPut_at (memPart x a n) a b (memClear m b n) (k := k) (memWf_memClear m b n hm) (memWf_filter x _ hx) hpart
    hempty
  exact hread.trans (memRead_filter (fun i => a ≤ i && i < a + n) x (by simp; omega))

/-- A copy changes nothing outside its destination. -/
theorem memRead_memCopy_other {x m : List Host.Cell} (a b n : Nat) {k : Nat} (hk : k < b ∨ b + n ≤ k) :
    memRead (memCopy x m a b n) k = memRead m k := by
  have hpart : ∀ e ∈ memPart x a n, e.1 - a + b ≠ k := fun e he => by
    have := (List.mem_filter.mp he).2
    simp only [Bool.and_eq_true, decide_eq_true_eq] at this
    omega
  exact (memRead_memPut_other _ a b _ hpart).trans (memRead_memClear_other m b n hk)

end Sys2Proof.Machine

/-! SUPPORT. A page fault: what serving the waiting accesses leaves of every entry of the tier map, and the frame that a page takes
(R222 to R225). -/

namespace Sys2Proof.Machine

open Sys2Proof

variable {s t u : State}

/-! What a served access leaves. -/

/-- f is e but for what accesses to its page mark. -/
def entryKept (e f : Frame_) : Prop := f.page = e.page ∧ f.bay = e.bay ∧ f.state = e.state ∧ (e.ref = true → f.ref = true)

/-- Accesses lead from s to t: no domain, no flash content, and of a frame's entry no more than an access marks. -/
def servedFrom (s t : State) : Prop := t.power = s.power ∧ t.tier.flash = s.tier.flash ∧ ∀ d, entryKept (frameAt s d) (frameAt t d)

theorem servedFrom_refl (s : State) : servedFrom s s := ⟨rfl, rfl, fun _ => ⟨rfl, rfl, rfl, id⟩⟩

theorem servedFrom_trans (h : servedFrom s t) (h' : servedFrom t u) : servedFrom s u := by
  obtain ⟨hp, hf, he⟩ := h
  obtain ⟨hp', hf', he'⟩ := h'
  refine ⟨hp'.trans hp, hf'.trans hf, fun d => ?_⟩
  obtain ⟨hpage, hbay, hstate, href⟩ := he d
  obtain ⟨hpage', hbay', hstate', href'⟩ := he' d
  exact ⟨hpage'.trans hpage, hbay'.trans hbay, hstate'.trans hstate, fun h => href' (href h)⟩

theorem servedFrom_foldl {α : Type} {f : State → α → State} (hf : ∀ t a, servedFrom t (f t a)) (l : List α) (s : State) :
    servedFrom s (l.foldl f s) := by
  induction l generalizing s with
  | nil => exact servedFrom_refl s
  | cons a l ih => exact servedFrom_trans (hf s a) (ih _)

theorem servedFrom_of_same (hp : t.power = s.power) (hf : t.tier.flash = s.tier.flash) (hframes : t.tier.frames = s.tier.frames)
    (hsets : t.tier.localSets = s.tier.localSets) : servedFrom s t := by
  refine ⟨hp, hf, fun d => ?_⟩
  have hsame : frameAt t d = frameAt s d := by simp only [frameAt, hframes, hsets]
  rw [hsame]
  exact ⟨rfl, rfl, rfl, id⟩

theorem servedFrom_setFrame {e : Frame_} (h : entryKept (frameAt s e.num) e) : servedFrom s (setFrame s e) := by
  refine ⟨by rw [setFrame_frames], by rw [setFrame_frames], fun d => ?_⟩
  rw [frameAt_setFrame]
  split
  · next hd => exact hd ▸ h
  · exact ⟨rfl, rfl, rfl, id⟩

theorem servedFrom_updFrame {f : Frame_ → Frame_} (d : Nat) (hn : (f (frameAt s d)).num = (frameAt s d).num)
    (h : entryKept (frameAt s d) (f (frameAt s d))) : servedFrom s (updFrame s d f) :=
  servedFrom_setFrame (by rw [hn, frameAt_num]; exact h)

theorem servedFrom_touchPage (s : State) (page hint : Nat) : servedFrom s (touchPage s page hint) := by
  unfold touchPage
  split
  · exact servedFrom_updFrame _ rfl ⟨rfl, rfl, rfl, fun _ => rfl⟩
  · exact servedFrom_refl s

theorem servedFrom_refreshPoison (s : State) (d : Nat) : servedFrom s (refreshPoison s d) := by
  unfold refreshPoison
  dsimp only
  split
  · exact servedFrom_refl s
  · exact servedFrom_updFrame _ rfl ⟨rfl, rfl, rfl, id⟩

/-- An entry with a sector marked as dirty, at a place of the clock of dirty frames. -/
def dirtied (sector clock : Nat) (e : Frame_) : Frame_ :=
  { e with dirty := e.dirty ||| (1#64 <<< sector), ref := true, dirtyAt := if e.dirty == 0 then clock else e.dirtyAt }

/-- s with the clock of dirty frames one further. -/
def dirtyTick (s : State) : State := { s with tier := { s.tier with dirtyClock := s.tier.dirtyClock + 1 } }

theorem markDirty_eq (s : State) (d sector : Nat) : markDirty s d sector =
    if (frameAt s d).dirty == 0 then dirtyTick (setFrame s (dirtied sector s.tier.dirtyClock (frameAt s d)))
    else setFrame s (dirtied sector s.tier.dirtyClock (frameAt s d)) := rfl

theorem servedFrom_markDirty (s : State) (d sector : Nat) : servedFrom s (markDirty s d sector) := by
  have hput : servedFrom s (setFrame s (dirtied sector s.tier.dirtyClock (frameAt s d))) :=
    servedFrom_updFrame (f := dirtied sector s.tier.dirtyClock) d rfl ⟨rfl, rfl, rfl, fun _ => rfl⟩
  rw [markDirty_eq]
  split
  · exact servedFrom_trans hput (servedFrom_of_same rfl rfl rfl rfl)
  · exact hput

theorem servedFrom_moveWritten (s : State) (d off n : Nat) : servedFrom s (moveWritten s d off n) := by
  unfold moveWritten setMoved
  split
  · exact servedFrom_refl s
  · exact servedFrom_of_same rfl rfl rfl rfl

theorem servedFrom_frameWrite (s : State) (d off : Nat) (bs : Bytes) : servedFrom s (frameWrite s d off bs) := by
  unfold frameWrite
  dsimp only
  refine servedFrom_trans (servedFrom_moveWritten s d off bs.length) ?_
  generalize moveWritten s d off bs.length = u
  generalize memWriteBytes _ _ _ = x
  generalize List.filter _ u.tier.poison = p
  have hdata : servedFrom u { u with tier := { u.tier with dram := x, poison := p } } := servedFrom_of_same rfl rfl rfl rfl
  refine servedFrom_trans hdata (servedFrom_trans (servedFrom_refreshPoison _ d) ?_)
  generalize refreshPoison _ d = v
  have hwritten (x : List Nat) : servedFrom v { v with tier := { v.tier with written := x } } := servedFrom_of_same rfl rfl rfl rfl
  split
  · exact servedFrom_trans (hwritten _) (servedFrom_updFrame _ rfl ⟨rfl, rfl, rfl, fun _ => rfl⟩)
  · split
    · exact servedFrom_foldl (fun v i => servedFrom_markDirty v d i) _ _
    · exact servedFrom_updFrame _ rfl ⟨rfl, rfl, rfl, fun _ => rfl⟩

theorem servedFrom_pageWrite (s : State) (a : Nat) (bs : Bytes) : servedFrom s (pageWrite s a bs) := by
  unfold pageWrite
  split
  · next d _ =>
    refine servedFrom_trans (servedFrom_frameWrite s d (a % pageBytes) bs) ?_
    generalize frameWrite s d (a % pageBytes) bs = v
    have hspecified : servedFrom v (nowSpecified v (a / 4096 * 4096)) := servedFrom_of_same rfl rfl rfl rfl
    exact servedFrom_trans hspecified (servedFrom_of_same rfl rfl rfl rfl)
  · exact servedFrom_refl s

theorem servedFrom_answerRead (s : State) (a : Nat) : servedFrom s (answerRead s a) := by
  have htouch : servedFrom s (if hostHint s (a / pageBytes) false == 1 then s
      else touchPage s (a / pageBytes) (hostHint s (a / pageBytes) false)) := by
    split
    · exact servedFrom_refl s
    · exact servedFrom_touchPage ..
  unfold answerRead
  dsimp only
  rw [readBlock_nil]
  exact servedFrom_trans htouch (servedFrom_of_same rfl rfl rfl rfl)

theorem servedFrom_serveAccess (s : State) (w : Nat × Option Bytes) : servedFrom s (serveAccess s w) := by
  unfold serveAccess
  split
  · exact servedFrom_answerRead ..
  · exact servedFrom_trans (servedFrom_pageWrite s _ _) (servedFrom_touchPage ..)
  · exact servedFrom_trans (servedFrom_foldl (fun v _ => servedFrom_of_same rfl rfl rfl rfl) (List.range 8) s)
      (servedFrom_of_same rfl rfl rfl rfl)
  · exact servedFrom_of_same rfl rfl rfl rfl

theorem servedFrom_serveReady (s : State) : servedFrom s (serveReady s) :=
  servedFrom_trans (servedFrom_of_same rfl rfl rfl rfl) (servedFrom_foldl servedFrom_serveAccess _ _)

end Sys2Proof.Machine

/-! SUPPORT. The frame that a page without one takes (R222, R223). -/

namespace Sys2Proof.Machine

open Sys2Proof

variable {s t u : State}

/-- t is s but for the tiers, whose flash stands. -/
def tierMoved (s t : State) : Prop := t = { s with tier := t.tier } ∧ t.tier.flash = s.tier.flash

theorem tierMoved_refl (s : State) : tierMoved s s := ⟨rfl, rfl⟩

theorem tierMoved_trans (h : tierMoved s t) (h' : tierMoved t u) : tierMoved s u := by
  obtain ⟨hs, hf⟩ := h
  obtain ⟨hs', hf'⟩ := h'
  exact ⟨by rw [hs', hs], hf'.trans hf⟩

theorem tierMoved_foldl {α : Type} {f : State → α → State} (hf : ∀ t a, tierMoved t (f t a)) (l : List α) (s : State) :
    tierMoved s (l.foldl f s) := by
  induction l generalizing s with
  | nil => exact tierMoved_refl s
  | cons a l ih => exact tierMoved_trans (hf s a) (ih _)

theorem tierMoved_setFrame (s : State) (e : Frame_) : tierMoved s (setFrame s e) := by
  rw [setFrame_frames]
  exact ⟨rfl, rfl⟩

theorem tierMoved_clearFrame (s : State) (d : Nat) : tierMoved s (clearFrame s d) := ⟨rfl, rfl⟩

theorem tierMoved_startWriteback (s : State) (d : Nat) : tierMoved s (startWriteback s d) := by
  unfold startWriteback
  dsimp only
  split
  · generalize memCopy _ _ _ _ _ = x
    generalize insertAllAsc _ _ = bad
    have hcapture : tierMoved s { s with tier := { s.tier with capture := x, captureBad := bad } } := ⟨rfl, rfl⟩
    exact tierMoved_trans hcapture (tierMoved_setFrame _ _)
  · exact tierMoved_refl s

theorem tierMoved_freeFrame (s : State) (d : Nat) : tierMoved s (freeFrame s d) := by
  unfold freeFrame
  dsimp only
  have hput := tierMoved_setFrame s { num := d, state := .free }
  generalize setFrame s { num := d, state := .free } = u at hput ⊢
  split
  · exact tierMoved_trans hput ⟨rfl, rfl⟩
  · exact hput

theorem tierMoved_sweepPast (s : State) (b : Nat) (v : Frame_) : tierMoved s (sweepPast s b v) :=
  tierMoved_foldl (fun u e => tierMoved_setFrame u _) _ s

theorem tierMoved_takeFrame (s : State) (b : Nat) : tierMoved s (takeFrame s b).1 := by
  unfold takeFrame
  dsimp only
  split
  · exact tierMoved_refl s
  · split
    · exact tierMoved_refl s
    · split
      · exact tierMoved_trans (tierMoved_sweepPast s b _) (tierMoved_startWriteback _ _)
      · exact tierMoved_trans (tierMoved_sweepPast s b _) (tierMoved_freeFrame _ _)

/-- Which frame is taken does not depend on the power domains. -/
theorem takeFrame_power (s : State) (p : PowerState) (b : Nat) : (takeFrame { s with power := p } b).2 = (takeFrame s b).2 := by
  unfold takeFrame
  dsimp only
  have hlowest : lowestFreeFrame { s with power := p } = lowestFreeFrame s := rfl
  have hvictim : victimOf { s with power := p } b = victimOf s b := rfl
  have hreclaiming : bayReclaiming { s with power := p } b = bayReclaiming s b := rfl
  have hfree : freeDram { s with power := p } = freeDram s := rfl
  have hused : quotaUsed { s with power := p } b = quotaUsed s b := rfl
  have hbay : bayAt { s with power := p } b = bayAt s b := rfl
  rw [hlowest, hvictim, hreclaiming, hfree, hused, hbay]
  split
  · rfl
  · split
    · rfl
    · split <;> rfl

/-- The entry that a page takes without a frame: it is filled from its home, or it has no content yet. -/
theorem faultPage_takes {page d : Nat} {r : Region} (hint sector : Nat) (hr : regionOfPage s page = some r)
    (hf : frameOfPage s page = none) (hk : r.kind = 2) (ht : (takeFrame (needDomains s (fillDomains s page)) r.bay).2 = some d) :
    ∃ e : Frame_, faultPage s page hint sector = setFrame (clearFrame (takeFrame (needDomains s (fillDomains s page)) r.bay).1 d) e ∧
      e.num = d ∧ e.page = page ∧ e.bay = r.bay ∧ e.ref = true ∧ (e.state = .fill ∨ e.state = .resident) := by
  have hkind : ¬ (r.kind != 2) = true := by simp [hk]
  unfold faultPage
  rw [hr, hf]
  simp only [ht]
  generalize (takeFrame (needDomains s (fillDomains s page)) r.bay).1 = u
  rw [if_neg hkind]
  split
  · exact ⟨_, rfl, rfl, rfl, rfl, rfl, .inl rfl⟩
  · exact ⟨_, rfl, rfl, rfl, rfl, rfl, .inr rfl⟩

theorem execPageFault_of_serves {bay addr : Nat} {write lc : Bool} {r : Region} (hr : regionOfPage s (addr / pageBytes) = some r)
    (hb : r.bay = bay) (hc : r.custody = false) (hk : r.kind = 2) (hw : write = true ∨ r.hint ≠ 1) (hl : lc = true ∨ beHeld s = false) :
    Machine.exec (.pageFault bay addr write lc) s = .next (serveReady (faultPage s (addr / pageBytes)
      (if write then writeHint r.hint else r.hint) (addr % pageBytes / 4096))) := by
  have hserves : ¬ (r.bay != bay || r.custody || r.kind != 2 || !write && r.hint == 1 || !lc && beHeld s) = true := by
    rcases hw with hw | hw <;> rcases hl with hl | hl <;> simp [hb, hc, hk, hw, hl]
  refine congrArg Host.Outcome.next ?_
  dsimp only
  rw [hr]
  exact if_neg hserves

/-- O58, PAGE_FAULT of a page without a frame. -/
theorem execPageFault_row {bay addr d : Nat} {write lc : Bool} {r : Region} (hr : regionOfPage s (addr / pageBytes) = some r)
    (hb : r.bay = bay) (hc : r.custody = false) (hk : r.kind = 2) (hw : write = true ∨ r.hint ≠ 1) (hl : lc = true ∨ beHeld s = false)
    (hf : frameOfPage s (addr / pageBytes) = none) (ht : (takeFrame s bay).2 = some d) :
    ∃ t, Machine.exec (.pageFault bay addr write lc) s = .next t ∧
      t = { s with free := t.free, out := t.out, link := t.link, tier := t.tier, power := t.power } ∧
      t.power = (needDomains s (fillDomains s (addr / pageBytes))).power ∧ (frameAt t d).page = addr / pageBytes ∧
      (frameAt t d).bay = bay ∧ (frameAt t d).ref = true ∧ ((frameAt t d).state = .fill ∨ (frameAt t d).state = .resident) ∧
      t.tier.flash = s.tier.flash := by
  have hwake := needDomains_frame s (fillDomains s (addr / pageBytes))
  have htake : (takeFrame (needDomains s (fillDomains s (addr / pageBytes))) r.bay).2 = some d := by
    rw [hwake, takeFrame_power, hb, ht]
  obtain ⟨e, hfault, rfl, hpage, hbay, href, hstate⟩ := faultPage_takes
    (if write then writeHint r.hint else r.hint) (addr % pageBytes / 4096) hr hf hk htake
  have hrest : pagingRest (serveReady (faultPage s (addr / pageBytes) (if write then writeHint r.hint else r.hint)
      (addr % pageBytes / 4096))) = pagingRest s := by rw [pagingRest_serveReady, pagingRest_faultPage]
  have hmoved : tierMoved (needDomains s (fillDomains s (addr / pageBytes)))
      (faultPage s (addr / pageBytes) (if write then writeHint r.hint else r.hint) (addr % pageBytes / 4096)) := by
    rw [hfault]
    exact tierMoved_trans (tierMoved_trans (tierMoved_takeFrame ..) (tierMoved_clearFrame ..)) (tierMoved_setFrame ..)
  have hentry : frameAt (faultPage s (addr / pageBytes) (if write then writeHint r.hint else r.hint) (addr % pageBytes / 4096)) e.num =
      e := by rw [hfault, frameAt_setFrame, if_pos rfl]
  obtain ⟨hpower, hflash, hkept⟩ := servedFrom_serveReady
    (faultPage s (addr / pageBytes) (if write then writeHint r.hint else r.hint) (addr % pageBytes / 4096))
  have hat := hkept e.num
  rw [hentry] at hat
  obtain ⟨hpage', hbay', hstate', href'⟩ := hat
  obtain ⟨hsame, hstands⟩ := hmoved
  refine ⟨_, execPageFault_of_serves hr hb hc hk hw hl, (eq_of_pagingRest hrest).1, ?_, hpage'.trans hpage,
    hbay'.trans (hbay.trans hb), href' href, by rw [hstate']; exact hstate, ?_⟩
  · rw [hpower, hsame]
  · rw [hflash, hstands, hwake]

/-- O58, PAGE_FAULT of a read of a page that is read past the tiers. -/
theorem execPageFault_of_stream {bay addr : Nat} {lc : Bool} {r : Region} (hr : regionOfPage s (addr / pageBytes) = some r)
    (hh : r.hint = 1) : Machine.exec (.pageFault bay addr false lc) s = .next s := by
  have hserves : (r.bay != bay || r.custody || r.kind != 2 || !false && r.hint == 1 || !lc && beHeld s) = true := by simp [hh]
  refine congrArg Host.Outcome.next ?_
  dsimp only
  rw [hr]
  exact if_pos hserves

end Sys2Proof.Machine

/-! SUPPORT. A sector that arrives from its home (R223, R236). -/

namespace Sys2Proof.Machine

open Sys2Proof

variable {s t u : State}

/-! An entry of the tier map that is put in place of its old one. -/

/-- e in place of the entry of its number. -/
def replaceFrame (e x : Frame_) : Frame_ := if x.num = e.num then e else x

theorem putFrame_filter {l : List Frame_} {e : Frame_} (hl : (l.map (fun x => x.num)).Pairwise (· < ·)) (he : ∃ x ∈ l, x.num = e.num) :
    putFrame (l.filter (fun x => x.num != e.num)) e = l.map (replaceFrame e) := by
  induction l with
  | nil => simp at he
  | cons x r ih =>
    obtain ⟨hfirst, hrest⟩ := List.pairwise_cons.mp (List.map_cons .. ▸ hl)
    have hlt : ∀ y ∈ r, x.num < y.num := fun y hy => hfirst y.num (List.mem_map_of_mem hy)
    by_cases hx : x.num = e.num
    · have hothers : ∀ y ∈ r, y.num ≠ e.num := fun y hy => by have := hlt y hy; omega
      have hsame : r.filter (fun y => y.num != e.num) = r := List.filter_eq_self.mpr (fun y hy => by simpa using hothers y hy)
      have hmap : r.map (replaceFrame e) = r := by
        conv_rhs => rw [← List.map_id r]
        exact List.map_congr_left (fun y hy => if_neg (hothers y hy))
      have hhead : putFrame r e = e :: r := by
        cases r with
        | nil => rfl
        | cons y r =>
          have := hlt y List.mem_cons_self
          exact if_pos (by omega)
      rw [List.filter_cons_of_neg (by simpa using hx), hsame, hhead, List.map_cons, hmap]
      simp [replaceFrame, hx]
    · obtain ⟨y, hy, hnum⟩ := he
      have hin : y ∈ r := (List.mem_cons.mp hy).resolve_left (fun h => hx (h ▸ hnum))
      have hless := hlt y hin
      rw [List.filter_cons_of_pos (by simpa using hx), List.map_cons, ← ih hrest ⟨y, hin, hnum⟩]
      have hskip : replaceFrame e x = x := if_neg hx
      rw [hskip]
      exact (if_neg (by omega)).trans (if_neg (by simpa using Ne.symm hx))

/-- An entry that its reset value cannot be: a frame that migrates. -/
theorem ne_frameReset {e : Frame_} (h : e.state = .fill ∨ e.state = .resident ∨ e.state = .writeback) (l : List Nat) (d : Nat) :
    e ≠ frameReset l d := by
  rintro rfl
  unfold frameReset at h
  dsimp only at h
  (repeat' split at h) <;> simp at h

theorem setFrame_of_listed {e x : Frame_} (hwf : tierMapWf s) (hx : x ∈ s.tier.frames) (hnum : x.num = e.num)
    (he : e.state = .fill ∨ e.state = .resident ∨ e.state = .writeback) :
    setFrame s e = { s with tier := { s.tier with frames := s.tier.frames.map (replaceFrame e) } } := by
  unfold setFrame
  dsimp only
  rw [if_neg (by simpa using ne_frameReset he s.tier.localSets e.num), putFrame_filter hwf ⟨x, hx, hnum⟩]

theorem num_replaceFrame (e x : Frame_) : (replaceFrame e x).num = x.num := by
  unfold replaceFrame
  split
  · next h => exact h.symm
  · rfl

theorem tierMapWf_setFrame {e x : Frame_} (hwf : tierMapWf s) (hx : x ∈ s.tier.frames) (hnum : x.num = e.num)
    (he : e.state = .fill ∨ e.state = .resident ∨ e.state = .writeback) : tierMapWf (setFrame s e) := by
  rw [setFrame_of_listed hwf hx hnum he]
  unfold tierMapWf at *
  simpa [List.map_map, Function.comp_def, num_replaceFrame] using hwf

/-- Frames are listed once. -/
theorem eq_of_num {x y : Frame_} (hwf : tierMapWf s) (hx : x ∈ s.tier.frames) (hy : y ∈ s.tier.frames) (h : x.num = y.num) : x = y :=
  List.inj_on_of_nodup_map (List.Pairwise.imp (fun h => Nat.ne_of_lt h) hwf) hx hy h

theorem frameAt_of_mem {e : Frame_} (hwf : tierMapWf s) (he : e ∈ s.tier.frames) : frameAt s e.num = e := by
  unfold frameAt
  cases hf : s.tier.frames.find? (fun x => x.num == e.num) with
  | none => exact absurd (List.find?_eq_none.mp hf e he) (by simp)
  | some x => exact eq_of_num hwf (List.mem_of_find?_eq_some hf) he (by simpa using List.find?_some hf)

/-- A frame that holds a page: of the page, not to be zeroed, in a state with content. -/
def holdsPage (page : Nat) (e : Frame_) : Bool :=
  e.page == page && !e.zeroing &&
    (e.state == .fill || e.state == .resident || e.state == .writeback || e.state == .dram || e.state == .local_)

theorem frameOfPage_eq (s : State) (page : Nat) : frameOfPage s page = s.tier.frames.find? (holdsPage page) := rfl

/-- An entry that keeps its page stands for it afterwards, and every other page keeps its frame. -/
theorem frameOfPage_setFrame {page : Nat} {e f : Frame_} (hwf : tierMapWf s) (he : frameOfPage s page = some e) (hnum : f.num = e.num)
    (hpage : f.page = e.page) (hzero : f.zeroing = e.zeroing) (hf : f.state = .fill ∨ f.state = .resident ∨ f.state = .writeback)
    (p : Nat) : frameOfPage (setFrame s f) p = if p = page then some f else frameOfPage s p := by
  have hmem : e ∈ s.tier.frames := List.mem_of_find?_eq_some he
  have hholds : holdsPage page e = true := List.find?_some he
  obtain ⟨hat, hnz, -⟩ : e.page = page ∧ e.zeroing = false ∧ _ := by
    simpa only [holdsPage, Bool.and_eq_true, beq_iff_eq, Bool.not_eq_true', and_assoc] using hholds
  have hother (x : Frame_) (hx : x ∈ s.tier.frames) (hne : x ≠ e) : replaceFrame f x = x :=
    if_neg (fun h => hne (eq_of_num hwf hx hmem (h.trans hnum)))
  have hself : replaceFrame f e = f := if_pos hnum.symm
  have hstate : holdsPage page f = true := by
    rcases hf with h | h | h <;> simp [holdsPage, hpage, hat, hzero, hnz, h]
  have hsame (x : Frame_) (hx : x ∈ s.tier.frames) : holdsPage p (replaceFrame f x) = holdsPage p x := by
    by_cases hxe : x = e
    · rw [hxe, hself]
      by_cases hp : p = page
      · rw [hp, hstate, hholds]
      · have hne : (page == p) = false := by simpa using Ne.symm hp
        simp [holdsPage, hpage, hat, hne]
    · rw [hother x hx hxe]
  have hfind : s.tier.frames.find? (holdsPage p ∘ replaceFrame f) = s.tier.frames.find? (holdsPage p) :=
    List.find?_congr hsame
  rw [setFrame_of_listed hwf hmem hnum.symm hf, frameOfPage_eq, frameOfPage_eq, List.find?_map, hfind]
  split
  · next hp =>
    rw [hp, ← frameOfPage_eq, he]
    exact congrArg some hself
  · next hp =>
    cases hx : s.tier.frames.find? (holdsPage p) with
    | none => rfl
    | some x =>
      have hxp : holdsPage p x = true := List.find?_some hx
      refine congrArg some (hother x (List.mem_of_find?_eq_some hx) (fun h => hp ?_))
      rw [h] at hxp
      simp only [holdsPage, Bool.and_eq_true, beq_iff_eq] at hxp
      exact hxp.1.1.symm.trans hat

end Sys2Proof.Machine

/-! SUPPORT. A sector that arrives from its home: the frame's content, its poison, and what waits for it (R223, R236). -/

namespace Sys2Proof.Machine

open Sys2Proof

variable {s t u : State}

theorem flag_eq_getLsbD {w : Nat} (x : BitVec w) (i : Nat) : flag x i = x.getLsbD i := by
  unfold flag bitAt
  rw [BitVec.getLsbD, Nat.testBit_eq_decide_div_mod_eq]
  exact Bool.beq_eq_decide_eq ..

theorem flag_set (x : BitVec 64) (i j : Nat) (hj : j < 64) :
    flag (x ||| (1#64 <<< i)) j = (flag x j || decide (j = i)) := by
  simp only [flag_eq_getLsbD, BitVec.getLsbD_or, BitVec.getLsbD_shiftLeft, BitVec.getLsbD_one, hj, decide_true, Bool.true_and]
  congr 1
  simp only [← decide_not, ← Bool.decide_and, decide_eq_decide]
  omega

theorem flag_allOnes {j : Nat} (hj : j < 64) : flag (BitVec.allOnes 64) j = true := by
  rw [flag_eq_getLsbD, BitVec.getLsbD_allOnes, decide_eq_true hj]

/-- An entry with one more sector arrived; with the last one the frame is resident. -/
def filledEntry (sector : Nat) (e : Frame_) : Frame_ :=
  let arrived := e.arrived ||| (1#64 <<< sector)
  { e with
    arrived := if arrived == BitVec.allOnes 64 then 0 else arrived
    first := if arrived == BitVec.allOnes 64 then 0 else e.first
    state := if arrived == BitVec.allOnes 64 then .resident else .fill }

/-- s with the sector at key of DRAM as it stands at address a of flash, with its poison. -/
def filledData (s : State) (a key : Nat) : State :=
  { s with tier := { s.tier with
    dram := memCopy s.tier.flash s.tier.dram a key 4096
    poison := insertAllAsc ((s.tier.flashPoison.filter (fun p => p / 4096 == a / 4096)).map (fun p => key + p % 4096))
      (s.tier.poison.filter (fun p => p / 4096 != key / 4096)) } }

theorem moveWritten_frame (s : State) (d off n : Nat) :
    moveWritten s d off n = { s with tier := { s.tier with evacuation := (moveWritten s d off n).tier.evacuation } } := by
  unfold moveWritten setMoved
  split <;> rfl

theorem fillSector_eq (s : State) (d sector : Nat) : fillSector s d sector =
    refreshPoison (setFrame (filledData (moveWritten s d (4096 * sector) 4096) (pageBytes * (frameAt s d).page + 4096 * sector)
      (dramKey d (4096 * sector))) (filledEntry sector (frameAt s d))) d := by
  unfold fillSector filledData
  dsimp only
  rw [moveWritten_frame]
  rfl

theorem filledEntry_state (sector : Nat) (e : Frame_) : (filledEntry sector e).state = .fill ∨ (filledEntry sector e).state = .resident := by
  unfold filledEntry
  dsimp only
  split
  · exact .inr rfl
  · exact .inl rfl

/-- The bit of the sector that came stands while the frame is not full. -/
theorem filledEntry_arrived {sector : Nat} (e : Frame_) (hs : sector < 64) :
    flag (filledEntry sector e).arrived sector = !((filledEntry sector e).state == .resident) := by
  unfold filledEntry
  dsimp only
  split
  · rw [flag_eq_getLsbD]
    simp
  · rw [flag_set _ _ _ hs]
    simp

/-- What waited for another sector waits on. -/
theorem filledEntry_waits {sector i : Nat} {e : Frame_} (hi : i < 64) (hne : i ≠ sector) (hwait : flag e.arrived i = false) :
    ((filledEntry sector e).state != .fill || flag (filledEntry sector e).arrived i) = false := by
  have hbit : flag (e.arrived ||| (1#64 <<< sector)) i = false := by simp [flag_set _ _ _ hi, hwait, hne]
  have hopen : ¬ (e.arrived ||| (1#64 <<< sector) == BitVec.allOnes 64) = true := by
    intro h
    rw [eq_of_beq h, flag_allOnes hi] at hbit
    exact absurd hbit (by decide)
  unfold filledEntry
  dsimp only
  rw [if_neg hopen, if_neg hopen, hbit]
  rfl

/-- The frame of the page after the sector, and those of other pages. -/
theorem frameOfPage_fillSector {page sector : Nat} {e : Frame_} (hwf : tierMapWf s) (he : frameOfPage s page = some e) :
    ∃ b, frameAt (fillSector s e.num sector) e.num = markPoison b (filledEntry sector e) ∧
      ∀ p, frameOfPage (fillSector s e.num sector) p = if p = page then some (markPoison b (filledEntry sector e)) else frameOfPage s p := by
  have hmem : e ∈ s.tier.frames := List.mem_of_find?_eq_some he
  have hat : frameAt s e.num = e := frameAt_of_mem hwf hmem
  have hfilled : (filledEntry sector e).state = .fill ∨ (filledEntry sector e).state = .resident ∨
      (filledEntry sector e).state = .writeback := (filledEntry_state sector e).imp_right .inl
  rw [fillSector_eq, hat]
  generalize hv : filledData (moveWritten s e.num (4096 * sector) 4096) (pageBytes * e.page + 4096 * sector)
    (dramKey e.num (4096 * sector)) = v
  have hframes : v.tier.frames = s.tier.frames := by
    rw [← hv, moveWritten_frame]
    rfl
  have hvwf : tierMapWf v := by
    unfold tierMapWf
    rw [hframes]
    exact hwf
  have hvpage (p : Nat) : frameOfPage v p = frameOfPage s p := by rw [frameOfPage_eq, hframes, frameOfPage_eq]
  have hput (p : Nat) := frameOfPage_setFrame (f := filledEntry sector e) hvwf ((hvpage page).trans he) rfl rfl rfl hfilled p
  have hputat : frameAt (setFrame v (filledEntry sector e)) e.num = filledEntry sector e := by
    rw [frameAt_setFrame]
    exact if_pos rfl
  have hputwf : tierMapWf (setFrame v (filledEntry sector e)) := tierMapWf_setFrame (x := e) hvwf (hframes ▸ hmem) rfl hfilled
  generalize setFrame v (filledEntry sector e) = w at hput hputat hputwf
  have hwpage : frameOfPage w page = some (filledEntry sector e) := by rw [hput, if_pos rfl]
  refine ⟨w.tier.poison.any (fun k => k / pageBytes == e.num), ?_, fun p => ?_⟩
  · rw [frameAt_refreshPoison, if_pos rfl, hputat]
  · unfold refreshPoison
    dsimp only
    rw [hputat]
    split
    · next hsame =>
      have hmark : markPoison (w.tier.poison.any (fun k => k / pageBytes == e.num)) (filledEntry sector e) = filledEntry sector e := by
        rw [← eq_of_beq hsame]
        rfl
      rw [hmark, hput, hvpage]
    · have hmark := frameOfPage_setFrame (f := markPoison (w.tier.poison.any (fun k => k / pageBytes == e.num)) (filledEntry sector e))
        hputwf hwpage rfl rfl rfl hfilled p
      rw [updFrame, hputat]
      refine Eq.trans hmark ?_
      split
      · rfl
      · next hp => rw [hput, if_neg hp, hvpage]

/-- The parts of the tiers that a sector fills. -/
theorem fillSector_tier (s : State) (d sector : Nat) :
    fillSector s d sector = { s with tier := (fillSector s d sector).tier } ∧
    (fillSector s d sector).tier.dram = memCopy s.tier.flash s.tier.dram (pageBytes * (frameAt s d).page + 4096 * sector)
      (dramKey d (4096 * sector)) 4096 ∧
    (fillSector s d sector).tier.flash = s.tier.flash ∧ (fillSector s d sector).tier.fillWaits = s.tier.fillWaits ∧
    (fillSector s d sector).tier.poison = insertAllAsc ((s.tier.flashPoison.filter (fun p =>
        p / 4096 == (pageBytes * (frameAt s d).page + 4096 * sector) / 4096)).map (fun p => dramKey d (4096 * sector) + p % 4096))
      (s.tier.poison.filter (fun p => p / 4096 != dramKey d (4096 * sector) / 4096)) := by
  rw [fillSector_eq, refreshPoison_frame, setFrame_frames, moveWritten_frame]
  exact ⟨rfl, rfl, rfl, rfl, rfl⟩

theorem serveReady_of_none (h : ∀ w ∈ s.tier.fillWaits, waitReady s w = false) : serveReady s = s := by
  have hready : s.tier.fillWaits.filter (waitReady s) = [] := List.filter_eq_nil_iff.mpr (fun w hw => by simp [h w hw])
  have hkept : s.tier.fillWaits.filter (fun w => !waitReady s w) = s.tier.fillWaits :=
    List.filter_eq_self.mpr (fun w hw => by simp [h w hw])
  simp only [serveReady, hready, hkept, List.foldl_nil]

theorem freeCustody_of_none {page : Nat} (h : ∀ r, regionOfPage s page = some r → r.custody = false) : freeCustody s page = s := by
  unfold freeCustody
  split
  · next e r _ hr => exact if_pos (by simp [h r hr])
  · rfl

theorem execFillSectorArrival_of_due {page sector : Nat} {e : Frame_} (he : frameOfPage s page = some e) (hf : e.state = .fill)
    (hnew : flag e.arrived sector = false) (hs : sector < 64) (hfirst : e.arrived = 0 → sector = e.first) :
    Machine.exec (.fillSectorArrival page sector .ok false) s = .next (freeCustody (serveReady (fillSector s e.num sector)) page) := by
  have hfilter : (some e).filter (fun x => x.state == .fill) = some e := by simp [hf]
  have hdue : ¬ (!sectorDue e sector) = true := by
    simp [sectorDue, hnew, hs]
    exact hfirst
  refine congrArg Host.Outcome.next ?_
  rw [he, hfilter]
  exact if_neg hdue

/-- O58, FILL_SECTOR_ARRIVAL. -/
theorem execFillSectorArrival_row {page sector : Nat} {e : Frame_} (hw : storesWf s) (hwf : tierMapWf s)
    (he : frameOfPage s page = some e) (hf : e.state = .fill) (hnew : flag e.arrived sector = false) (hs : sector < 64)
    (hfirst : e.arrived = 0 → sector = e.first)
    (hwait : ∀ w ∈ s.tier.fillWaits, waitReady s w = false ∧ w.1 / 4096 * 4096 ≠ pageBytes * page + 4096 * sector)
    (hcustody : ∀ r, regionOfPage s page = some r → r.custody = false) :
    ∃ t, Machine.exec (.fillSectorArrival page sector .ok false) s = .next t ∧ t = { s with tier := t.tier } ∧
      flag (frameAt t e.num).arrived sector = !((frameAt t e.num).state == .resident) ∧
      (∀ k, k < 4096 → memRead t.tier.dram (dramKey e.num (4096 * sector + k)) =
        memRead s.tier.flash (pageBytes * page + 4096 * sector + k)) ∧
      (∀ k, k < dramKey e.num (4096 * sector) ∨ dramKey e.num (4096 * sector) + 4096 ≤ k →
        memRead t.tier.dram k = memRead s.tier.dram k) ∧ t.tier.flash = s.tier.flash ∧
      ∀ k, k ∈ t.tier.poison ↔ (k ∈ s.tier.poison ∧ k / 4096 ≠ dramKey e.num (4096 * sector) / 4096) ∨
        ∃ p ∈ s.tier.flashPoison, p / 4096 = (pageBytes * page + 4096 * sector) / 4096 ∧
          k = dramKey e.num (4096 * sector) + p % 4096 := by
  obtain ⟨hdramWf, hflashWf, -, -, -⟩ := hw
  have hpage : e.page = page := by
    have hholds : holdsPage page e = true := List.find?_some he
    simp only [holdsPage, Bool.and_eq_true, beq_iff_eq] at hholds
    exact hholds.1.1
  have hat : frameAt s e.num = e := frameAt_of_mem hwf (List.mem_of_find?_eq_some he)
  have hexec := execFillSectorArrival_of_due he hf hnew hs hfirst
  obtain ⟨b, hentry, hpages⟩ := frameOfPage_fillSector (sector := sector) hwf he
  obtain ⟨hframe, hdram, hflash, hwaits, hpoison⟩ := fillSector_tier s e.num sector
  rw [hat, hpage] at hdram hpoison
  generalize fillSector s e.num sector = t at *
  have hregion (p : Nat) : regionOfPage t p = regionOfPage s p := by rw [hframe]; rfl
  have hnone : ∀ w ∈ t.tier.fillWaits, waitReady t w = false := by
    rw [hwaits]
    intro w hmem
    obtain ⟨hnot, hplace⟩ := hwait w hmem
    unfold waitReady at hnot ⊢
    rw [hpages, hregion]
    by_cases hp : w.1 / pageBytes = page
    · rw [hp, he] at hnot
      rw [if_pos hp]
      have hbit : flag e.arrived (w.1 % pageBytes / 4096) = false := by simpa [hf] using hnot
      have hrange : w.1 % pageBytes / 4096 < 64 := by unfold pageBytes; omega
      have hne : w.1 % pageBytes / 4096 ≠ sector := fun h => hplace (by
        rw [← hp, ← h]
        unfold pageBytes
        omega)
      exact filledEntry_waits hrange hne hbit
    · rw [if_neg hp]
      exact hnot
  rw [serveReady_of_none hnone, freeCustody_of_none (by rw [hregion]; exact hcustody)] at hexec
  refine ⟨t, hexec, hframe, ?_, fun k hk => ?_, fun k hk => ?_, hflash, fun k => ?_⟩
  · rw [hentry]
    exact filledEntry_arrived e hs
  · have hkey : dramKey e.num (4096 * sector + k) = dramKey e.num (4096 * sector) + k := by simp only [dramKey]; omega
    rw [hdram, hkey, memRead_memCopy_at _ _ _ hflashWf hdramWf hk]
  · rw [hdram, memRead_memCopy_other _ _ _ hk]
  · rw [hpoison, mem_insertAllAsc, or_comm]
    simp only [List.mem_map, List.mem_filter, bne_iff_ne, ne_eq, beq_iff_eq, and_assoc, eq_comm (a := k)]

end Sys2Proof.Machine

/-! SUPPORT. Write-backs of dirty frames (R224, R226). -/

namespace Sys2Proof.Machine

open Sys2Proof

variable {s t u : State}

/-! The start of a write-back. -/

/-- The entry of a frame whose dirty sectors are captured. -/
def writingBack (e : Frame_) : Frame_ := { e with state := .writeback, captured := e.dirty, dirty := 0 }

/-- s with a page captured from a frame, and its poison. -/
def capturedData (s : State) (d page : Nat) : State :=
  { s with tier := { s.tier with
    capture := memCopy s.tier.dram s.tier.capture (dramKey d 0) (pageBytes * page) pageBytes
    captureBad := insertAllAsc (poisonedBlocks s d page) (s.tier.captureBad.filter (fun p => p / pageBytes != page)) } }

theorem startWriteback_eq (s : State) (d : Nat) : startWriteback s d =
    if (frameAt s d).state == .resident && (frameAt s d).dirty != 0 then
      setFrame (capturedData s d (frameAt s d).page) (writingBack (frameAt s d))
    else s := rfl

theorem startWriteback_of_dirty {d : Nat} (hr : (frameAt s d).state = .resident) (hd : (frameAt s d).dirty ≠ 0) :
    startWriteback s d = setFrame (capturedData s d (frameAt s d).page) (writingBack (frameAt s d)) := by
  rw [startWriteback_eq]
  exact if_pos (by simpa [hr] using hd)

theorem frameAt_startWriteback (s : State) (d x : Nat) : frameAt (startWriteback s d) x = frameAt s x ∨
    (frameAt s x).state = .resident ∧ (frameAt s x).dirty ≠ 0 ∧ frameAt (startWriteback s d) x = writingBack (frameAt s x) := by
  rw [startWriteback_eq]
  split
  · next h =>
    simp only [Bool.and_eq_true, beq_iff_eq, bne_iff_ne] at h
    have hnum : (writingBack (frameAt s d)).num = d := frameAt_num s d
    rw [frameAt_setFrame, hnum]
    by_cases hx : x = d
    · subst hx
      rw [if_pos rfl]
      exact .inr ⟨h.1, h.2, rfl⟩
    · rw [if_neg hx]
      exact .inl rfl
  · exact .inl rfl

/-- What write-backs that start leave unchanged. -/
def capturing (s t : State) : Prop :=
  t = { s with tier := { s.tier with frames := t.tier.frames, capture := t.tier.capture, captureBad := t.tier.captureBad } }

theorem capturing_startWriteback (s : State) (d : Nat) : capturing s (startWriteback s d) := by
  rw [startWriteback_eq]
  split
  · unfold capturing
    rw [setFrame_frames]
    rfl
  · rfl

theorem foldl_startWriteback (es : List Frame_) (s : State) : capturing s (es.foldl (fun st e => startWriteback st e.num) s) ∧
    ∀ d, frameAt (es.foldl (fun st e => startWriteback st e.num) s) d = frameAt s d ∨
      (frameAt s d).state = .resident ∧ (frameAt s d).dirty ≠ 0 ∧
        frameAt (es.foldl (fun st e => startWriteback st e.num) s) d = writingBack (frameAt s d) := by
  induction es generalizing s with
  | nil => exact ⟨rfl, fun _ => .inl rfl⟩
  | cons e es ih =>
    obtain ⟨hframe, hentry⟩ := ih (startWriteback s e.num)
    have hfirst := capturing_startWriteback s e.num
    refine ⟨?_, fun d => ?_⟩
    · unfold capturing at *
      rw [List.foldl_cons, hframe, hfirst]
    · rw [List.foldl_cons]
      rcases frameAt_startWriteback s e.num d with hsame | ⟨hr, hd, hwb⟩
      · rw [← hsame]
        exact hentry d
      · right
        rcases hentry d with hkept | ⟨hres, -⟩
        · exact ⟨hr, hd, hkept.trans hwb⟩
        · rw [hwb] at hres
          exact absurd hres (by simp [writingBack])

/-! The cleaner. -/

/-- Whether the cleaner may write a frame back: resident, and its group is not out of space. -/
def mayClean (s : State) (e : Frame_) : Bool := e.state == .resident && groupLevelNow s (homeGroup s e.page) < 3

/-- The frames that the cleaner writes back for a bay. -/
def cleanerFrames (s : State) (bay : Nat) : List Frame_ :=
  (sortBy (fun (a b : Frame_) => decide (a.dirtyAt < b.dirtyAt)) ((dirtyFrames s bay).filter (mayClean s))).take
      ((dirtyFrames s bay).length - tierDirtyHigh s * (migrating s bay).length / 100) ++
    if bay == 0 then (custodyFrames s).filter (mayClean s) else []

theorem execCleanerWriteback_eq (s : State) (bay : Nat) : Machine.exec (.cleanerWriteback bay) s =
    .next (if beHeld s then s else (cleanerFrames s bay).foldl (fun st e => startWriteback st e.num) s) := rfl

theorem cleanerFrames_of_few {bay : Nat} (h : (dirtyFrames s bay).length ≤ tierDirtyHigh s * (migrating s bay).length / 100)
    (hc : bay ≠ 0 ∨ custodyFrames s = []) : cleanerFrames s bay = [] := by
  unfold cleanerFrames
  rw [Nat.sub_eq_zero_of_le h]
  rcases hc with hc | hc <;> simp [hc]

theorem cleanerFrames_of_one {bay : Nat} {e : Frame_} (hb : bay ≠ 0) (hl : tierDirtyHigh s * (migrating s bay).length / 100 = 0)
    (he : dirtyFrames s bay = [e]) (hr : e.state = .resident) (hg : groupLevelNow s (homeGroup s e.page) < 3) :
    cleanerFrames s bay = [e] := by
  have hmay : mayClean s e = true := by simp [mayClean, hr, hg]
  simp [cleanerFrames, hl, he, hmay, hb, sortBy, insertBy]

/-- O58, CLEANER_WRITEBACK of a bay with few dirty frames. -/
theorem execCleanerWriteback_of_few {bay : Nat}
    (h : (dirtyFrames s bay).length ≤ tierDirtyHigh s * (migrating s bay).length / 100) (hc : bay ≠ 0 ∨ custodyFrames s = []) :
    Machine.exec (.cleanerWriteback bay) s = .next s := by
  rw [execCleanerWriteback_eq, cleanerFrames_of_few h hc]
  simp

/-- The capture of a frame: its page as DRAM holds it, and the blocks poisoned there. -/
theorem startWriteback_effect {e : Frame_} (hw : storesWf s) (hwf : tierMapWf s) (hmem : e ∈ s.tier.frames) (hr : e.state = .resident)
    (hd : e.dirty ≠ 0) : (frameAt (startWriteback s e.num) e.num).state = .writeback ∧
      (∀ k, k < pageBytes → memRead (startWriteback s e.num).tier.capture (pageBytes * e.page + k) =
        memRead s.tier.dram (dramKey e.num k)) ∧
      (∀ k, k ∈ (startWriteback s e.num).tier.captureBad ↔
        (k ∈ s.tier.captureBad ∧ k / pageBytes ≠ e.page) ∨ k ∈ poisonedBlocks s e.num e.page) ∧
      ∀ k, k < pageBytes * e.page ∨ pageBytes * e.page + pageBytes ≤ k →
        memRead (startWriteback s e.num).tier.capture k = memRead s.tier.capture k := by
  obtain ⟨hdram, -, hcapture, -, -⟩ := hw
  have hat : frameAt s e.num = e := frameAt_of_mem hwf hmem
  have heq : startWriteback s e.num = setFrame (capturedData s e.num e.page) (writingBack e) := by
    rw [startWriteback_of_dirty (hat.symm ▸ hr) (hat.symm ▸ hd), hat]
  have hentry : frameAt (startWriteback s e.num) e.num = writingBack e := by
    rw [heq, frameAt_setFrame]
    exact if_pos rfl
  have htier : (startWriteback s e.num).tier.capture = (capturedData s e.num e.page).tier.capture ∧
      (startWriteback s e.num).tier.captureBad = (capturedData s e.num e.page).tier.captureBad := by
    rw [heq, setFrame_frames]
    exact ⟨rfl, rfl⟩
  obtain ⟨hc, hbad⟩ := htier
  rw [hentry, hc, hbad]
  refine ⟨rfl, fun k hk => ?_, fun k => ?_, fun k hk => memRead_memCopy_other _ _ _ hk⟩
  · have hkey : dramKey e.num k = dramKey e.num 0 + k := by simp only [dramKey]; omega
    rw [hkey]
    exact memRead_memCopy_at _ _ _ hdram hcapture hk
  · refine mem_insertAllAsc.trans ?_
    rw [or_comm]
    simp

/-- O58, CLEANER_WRITEBACK. -/
theorem execCleanerWriteback_row {bay : Nat} (hb : beHeld s = false) :
    ∃ t, Machine.exec (.cleanerWriteback bay) s = .next t ∧
      t = { s with tier := { s.tier with frames := t.tier.frames, capture := t.tier.capture, captureBad := t.tier.captureBad } } ∧
      (∀ d, frameAt t d = frameAt s d ∨ (frameAt s d).state = .resident ∧ (frameAt s d).dirty ≠ 0 ∧
        frameAt t d = { frameAt s d with state := .writeback, captured := (frameAt s d).dirty, dirty := 0 }) ∧
      (∀ e, bay ≠ 0 → tierDirtyHigh s * (migrating s bay).length / 100 = 0 → dirtyFrames s bay = [e] → storesWf s → tierMapWf s →
        e.state = .resident → groupLevelNow s (homeGroup s e.page) < 3 → (frameAt t e.num).state = .writeback ∧
        (∀ k, k < pageBytes → memRead t.tier.capture (pageBytes * e.page + k) = memRead s.tier.dram (dramKey e.num k)) ∧
        (∀ k, k ∈ t.tier.captureBad ↔ (k ∈ s.tier.captureBad ∧ k / pageBytes ≠ e.page) ∨ k ∈ poisonedBlocks s e.num e.page) ∧
        ∀ k, k < pageBytes * e.page ∨ pageBytes * e.page + pageBytes ≤ k →
          memRead t.tier.capture k = memRead s.tier.capture k) := by
  obtain ⟨hframe, hentry⟩ := foldl_startWriteback (cleanerFrames s bay) s
  refine ⟨_, (execCleanerWriteback_eq s bay).trans (congrArg Host.Outcome.next (if_neg (by simp [hb]))), hframe, hentry,
    fun e hbay hl he hw hwf hr hg => ?_⟩
  have hin : e ∈ dirtyFrames s bay := by simp [he]
  obtain ⟨hmig, hdirty⟩ := List.mem_filter.mp hin
  rw [cleanerFrames_of_one hbay hl he hr hg]
  exact startWriteback_effect hw hwf (List.mem_filter.mp hmig).1 hr (by simpa using hdirty)

end Sys2Proof.Machine

/-! SUPPORT. The end of a write-back, and the rebuild of an object (R223, R224, R228). -/

namespace Sys2Proof.Machine

open Sys2Proof

variable {s t u : State}

/-- The entry of a frame whose page stands at a new home. -/
def homed (group slot : Nat) (e : Frame_) : Frame_ := { e with state := .resident, home := some (group, slot), captured := 0 }

/-- s with the captured content of a page, and its poison, at the page's home in flash. -/
def homeData (s : State) (page : Nat) : State :=
  { s with tier := { s.tier with
    flash := memCopy s.tier.capture s.tier.flash (pageBytes * page) (pageBytes * page) pageBytes
    capture := memClear s.tier.capture (pageBytes * page) pageBytes
    flashPoison := insertAllAsc (s.tier.captureBad.filter (fun p => p / pageBytes == page))
      (s.tier.flashPoison.filter (fun p => !(p / pageBytes == page)))
    captureBad := s.tier.captureBad.filter (fun p => !(p / pageBytes == page))
    homes := s.tier.homes.filter (fun h => h.page != page) } }

theorem endWriteback_of_writeback {d : Nat} {e : Frame_} (group slot : Nat) (he : frameAt s d = e) (hs : e.state = .writeback) :
    endWriteback s d group slot = setFrame (homeData s e.page) (homed group slot e) := by
  have hcond : ¬ (e.state != .writeback) = true := by simp [hs]
  unfold endWriteback
  rw [he]
  exact if_neg hcond

/-- s with the head of a group's log past a slot. -/
def logMoved (s : State) (group slot : Nat) : State :=
  { s with tier := { s.tier with logHead := putKey s.tier.logHead group (max (nextHome s group) (slot + 64)) } }

theorem writeHome_eq (s : State) (d group slot : Nat) : writeHome s d group slot = logMoved (endWriteback s d group slot) group slot := rfl

/-- The parts of the tiers that the end of a write-back changes. -/
theorem writeHome_effect {e : Frame_} (group slot : Nat) (he : frameAt s e.num = e) (hs : e.state = .writeback) :
    writeHome s e.num group slot = { s with tier := (writeHome s e.num group slot).tier } ∧
    frameAt (writeHome s e.num group slot) e.num = homed group slot e ∧
    (writeHome s e.num group slot).tier.dram = s.tier.dram ∧
    (writeHome s e.num group slot).tier.fillWaits = s.tier.fillWaits ∧
    (writeHome s e.num group slot).tier.flashPoison = insertAllAsc (s.tier.captureBad.filter (fun p => p / pageBytes == e.page))
      (s.tier.flashPoison.filter (fun p => !(p / pageBytes == e.page))) ∧
    (writeHome s e.num group slot).tier.flash =
      memCopy s.tier.capture s.tier.flash (pageBytes * e.page) (pageBytes * e.page) pageBytes := by
  have hentry : frameAt (logMoved (setFrame (homeData s e.page) (homed group slot e)) group slot) e.num = homed group slot e := by
    change frameAt (setFrame (homeData s e.page) (homed group slot e)) e.num = homed group slot e
    rw [frameAt_setFrame]
    exact if_pos rfl
  rw [writeHome_eq, endWriteback_of_writeback group slot he hs]
  refine ⟨?_, hentry, ?_, ?_, ?_, ?_⟩ <;> rw [setFrame_frames] <;> rfl

/-- No COPY waits for a page. -/
theorem releaseCopies_of_none {page : Nat} (h : copyWaits s page = false) : releaseCopies s page = s := by
  have hpair : ∀ p ∈ s.queues.pairs, p.q.cmds.filter (fun c => c.pages.contains page) = [] := by
    intro p hp
    simp only [copyWaits, List.any_eq_false] at h
    have hq := h p hp
    rw [List.filter_eq_nil_iff]
    exact fun c hc => (List.any_eq_false.mp (Bool.not_eq_true _ ▸ hq)) c hc
  unfold releaseCopies
  generalize s.queues.pairs = ps at hpair
  induction ps with
  | nil => rfl
  | cons p ps ih =>
    rw [List.foldl_cons, hpair p List.mem_cons_self]
    exact ih (fun q hq => hpair q (List.mem_cons_of_mem p hq))

theorem retryFaults_of_none (hw : s.tier.fillWaits = []) (hc : ∀ p, copyWaits s p = false) : retryFaults s = s := by
  have hserve : serveReady s = s := serveReady_of_none (by simp [hw])
  have hframes : s.tier.frames.filter (fun e => e.state == .resident && e.dirty != 0 && !e.zeroing && copyWaits s e.page) = [] :=
    List.filter_eq_nil_iff.mpr (fun e _ => by simp [hc])
  unfold retryFaults
  split
  · rfl
  · rw [hw, List.foldl_nil, hserve, retryCopies, hframes]
    rfl

theorem execWritebackDone_of_writeback {page group home : Nat} {e : Frame_} (he : frameOfPage s page = some e)
    (hs : e.state = .writeback) (hg : homeGroup s page = group) : Machine.exec (.writebackDone page group home) s =
    .next (retryFaults (if e.dirty != 0 && copyWaits (writeHome s e.num group home) page then writeHome s e.num group home
      else freeCustody (releaseCopies (writeHome s e.num group home) page) page)) := by
  have hfilter : (some e).filter (fun x => x.state == .writeback) = some e := by simp [hs]
  refine congrArg Host.Outcome.next ?_
  rw [he, hfilter]
  exact if_neg (by simp [hg])

/-- O58, WRITEBACK_DONE. -/
theorem execWritebackDone_row {page group home : Nat} {e : Frame_} (hw : storesWf s) (hwf : tierMapWf s)
    (he : frameOfPage s page = some e) (hs : e.state = .writeback) (hg : homeGroup s page = group)
    (hcopies : ∀ p, copyWaits s p = false) (hwaits : s.tier.fillWaits = [])
    (hcustody : ∀ r, regionOfPage s page = some r → r.custody = false) :
    ∃ t, Machine.exec (.writebackDone page group home) s = .next t ∧ t = { s with tier := t.tier } ∧
      frameAt t e.num = { e with state := .resident, home := some (group, home), captured := 0 } ∧
      t.tier.dram = s.tier.dram ∧
      (∀ k, k ∈ t.tier.flashPoison ↔ (k ∈ s.tier.flashPoison ∧ k / pageBytes ≠ page) ∨ (k ∈ s.tier.captureBad ∧ k / pageBytes = page)) ∧
      (∀ k, k < pageBytes → memRead t.tier.flash (pageBytes * page + k) = memRead s.tier.capture (pageBytes * page + k)) ∧
      (∀ k, k < pageBytes * page ∨ pageBytes * page + pageBytes ≤ k → memRead t.tier.flash k = memRead s.tier.flash k) := by
  obtain ⟨-, hflashWf, hcaptureWf, -, -⟩ := hw
  have hpage : e.page = page := by
    have hholds : holdsPage page e = true := List.find?_some he
    simp only [holdsPage, Bool.and_eq_true, beq_iff_eq] at hholds
    exact hholds.1.1
  have hat : frameAt s e.num = e := frameAt_of_mem hwf (List.mem_of_find?_eq_some he)
  have hexec := execWritebackDone_of_writeback (home := home) he hs hg
  obtain ⟨hframe, hentry, hdram, hkept, hpoison, hflash⟩ := writeHome_effect group home hat hs
  rw [hpage] at hpoison hflash
  generalize writeHome s e.num group home = t at *
  have hnone (p : Nat) : copyWaits t p = false := by
    rw [hframe]
    exact hcopies p
  have hregion : regionOfPage t page = regionOfPage s page := by rw [hframe]; rfl
  rw [hnone, Bool.and_false, if_neg (by decide), releaseCopies_of_none (hnone page), freeCustody_of_none (by rw [hregion]; exact hcustody),
    retryFaults_of_none (hkept.trans hwaits) hnone] at hexec
  refine ⟨t, hexec, hframe, hentry, hdram, fun k => ?_, fun k hk => ?_, fun k hk => ?_⟩
  · rw [hpoison, mem_insertAllAsc, or_comm]
    simp
  · rw [hflash]
    exact memRead_memCopy_at _ _ _ hcaptureWf hflashWf hk
  · rw [hflash]
    exact memRead_memCopy_other _ _ _ hk

/-! A rebuilt object. -/

theorem markDirty_frame (s : State) (d sector : Nat) : markDirty s d sector = { s with tier := (markDirty s d sector).tier } := by
  rw [markDirty_eq, setFrame_frames]
  split <;> rfl

theorem rebuildSector_frame (s : State) (k : Nat) : rebuildSector s k = { s with tier := (rebuildSector s k).tier } := by
  unfold rebuildSector
  split
  · dsimp only
    generalize memCopy _ _ _ _ _ = x
    generalize List.filter _ s.tier.poison = bad
    rw [markDirty_frame, refreshPoison_frame]
  · rfl

theorem foldl_rebuildSector (ks : List Nat) (s : State) : ks.foldl rebuildSector s = { s with tier := (ks.foldl rebuildSector s).tier } := by
  induction ks generalizing s with
  | nil => rfl
  | cons k ks ih => rw [List.foldl_cons, ih, rebuildSector_frame]

/-- s with an object no longer under repair. -/
def weightHealed (s : State) (addr : Nat) : State :=
  { s with tier := { s.tier with weights := s.tier.weights.filter (fun x => x.addr != addr) } }

/-- O58, WEIGHT_REBUILD_DONE. -/
theorem execWeightRebuildDone_row {addr : Nat} {w : WeightHealth} (hw : weightHealth s addr = some w) (hl : w.lost = false) :
    ∃ t, Machine.exec (.weightRebuildDone addr true) s = .next t ∧ t = { s with tier := t.tier } ∧ weightHealth t addr = none := by
  have hexec : Machine.exec (.weightRebuildDone addr true) s = .next (weightHealed (w.sectors.foldl rebuildSector s) addr) := by
    refine congrArg Host.Outcome.next ?_
    rw [hw]
    exact (if_neg (by simp [hl])).trans (if_pos rfl)
  refine ⟨_, hexec, ?_, ?_⟩
  · rw [foldl_rebuildSector]
    rfl
  · simp [weightHealth, weightHealed]

end Sys2Proof.Machine

/-! SUPPORT. COPY between the host and the device range (R277, R281). -/

namespace Sys2Proof.Machine

open Sys2Proof

variable {s t u : State} {q cid : Nat} {c : Cmd}

/-- The sectors that lie whole in a range lie in its pages. -/
theorem page_of_wholeSectors {addr n k : Nat} (hk : k ∈ wholeSectors addr n) : k / pageBytes ∈ pagesOf addr n := by
  unfold wholeSectors ceilDiv at hk
  simp only [List.mem_map, List.mem_range] at hk
  obtain ⟨i, hi, rfl⟩ := hk
  unfold pagesOf pageBytes
  rw [if_neg (by simp; omega)]
  refine List.mem_map.mpr ⟨4096 * ((addr + 4096 - 1) / 4096 + i) / 262144 - addr / 262144, List.mem_range.mpr ?_, ?_⟩ <;> omega

/-- A read past the tiers leaves them. -/
theorem copyRead_of_stream {hint addr n : Nat} (h : ∀ p ∈ pagesOf addr n, effectiveHint s hint p = 1) :
    copyRead s hint addr n = (s, devRead s addr n) := by
  have hbring (l : List Nat) (hl : ∀ p ∈ l, effectiveHint s hint p = 1) : l.foldl (fun st p =>
      if effectiveHint st hint p == 1 then st
      else touchPage (bringPage st p (effectiveHint st hint p)) p (effectiveHint st hint p)) s = s := by
    induction l with
    | nil => rfl
    | cons p l ih =>
      rw [List.foldl_cons, if_pos (by simp [hl p List.mem_cons_self])]
      exact ih (fun x hx => hl x (List.mem_cons_of_mem p hx))
  have hlast (l : List Nat) (hl : ∀ k ∈ l, effectiveHint s hint (k / pageBytes) = 1) : l.foldl (fun st k =>
      if effectiveHint st hint (k / pageBytes) == 3 then afterLast st k else st) s = s := by
    induction l with
    | nil => rfl
    | cons k l ih =>
      rw [List.foldl_cons, if_neg (by simp [hl k List.mem_cons_self])]
      exact ih (fun x hx => hl x (List.mem_cons_of_mem k hx))
  unfold copyRead
  dsimp only
  rw [hbring _ h, hlast _ (fun k hk => h _ (page_of_wholeSectors hk))]

/-- O58, COPY from the device range to the host. -/
theorem execCopy_of_read {data : Bytes} (ht : ioTakes s q cid 0x08 c) (hok : copyFieldsOk s (ctxOfQueue s q) c = true)
    (hsrc : copySrcDev c = true) (hdst : copyDstDev c = false) (hb : beHeld s = false)
    (hclean : cleanBytes s (sqePtr0 c.sqe) (copyLen c) = copyLen c)
    (hhint : ∀ p ∈ pagesOf (sqePtr0 c.sqe) (copyLen c), effectiveHint s (copyHint c) p = 1) :
    Machine.exec (.copy q cid data .ok) s = .next (progressCtx (endCmd
      { s with out := s.out ++ [.hostWrite q cid (devRead s (sqePtr0 c.sqe) (copyLen c))] } q c stOk (copyLen c)) (ctxOfQueue s q)) := by
  have hmedia : (copySrcDev c && Media.ok == .uncorrectable) = false := by simp
  refine congrArg Host.Outcome.next ((withIo_of_ioTakes ht _).trans ?_)
  dsimp only
  rw [hmedia]
  simp only [hok, hsrc, hdst, hb, hclean, copyRead_of_stream hhint, Bool.not_true, Bool.false_and, Bool.false_eq_true, if_false,
    if_true, List.any_nil, Nat.lt_irrefl, Bool.not_false, Bool.or_true]
  rfl

/-! Queue pairs keep their contexts while pages are brought in (R222 to R224). -/

theorem ctxOfQueue_of_pairCores (h : pairCores t = pairCores s) (q : Nat) : ctxOfQueue t q = ctxOfQueue s q := by
  have hcore : (pairOf t q).map pairCore = (pairOf s q).map pairCore := by rw [map_pairOf, map_pairOf, h]
  have hread (u : State) : ctxOfQueue u q = (((pairOf u q).map pairCore).map (fun p => p.ctx)).getD 0 := by
    unfold ctxOfQueue
    cases pairOf u q <;> rfl
  rw [hread, hread, hcore]

theorem foldl_pairCores {α : Type} {f : State → α → State} (hf : ∀ t a, pairCores (f t a) = pairCores t) (l : List α) (s : State) :
    pairCores (l.foldl f s) = pairCores s := by
  induction l generalizing s with
  | nil => rfl
  | cons a l ih => exact (ih _).trans (hf s a)

/-- What leaves the queues leaves the pairs. -/
theorem pairCores_of_pagingRest (h : pagingRest t = pagingRest s) : pairCores t = pairCores s := by
  simp only [pagingRest, Prod.mk.injEq] at h
  obtain ⟨-, -, -, hqueues, -⟩ := h
  simp only [pairCores, hqueues]

@[simp] theorem pairCores_releaseCopies (page : Nat) : pairCores (releaseCopies s page) = pairCores s := by
  refine foldl_pairCores (fun t p => foldl_pairCores (fun u c => ?_) _ t) _ s
  dsimp only
  split
  · exact (pairCores_postCompletion ..).trans (pairCores_updCmd _)
  · exact pairCores_updCmd _

@[simp] theorem pairCores_startWriteback (d : Nat) : pairCores (startWriteback s d) = pairCores s :=
  pairCores_of_pagingRest (pagingRest_startWriteback d)

@[simp] theorem pairCores_writeHome (d group slot : Nat) : pairCores (writeHome s d group slot) = pairCores s := by
  rw [writeHome_eq]
  change pairCores (endWriteback s d group slot) = pairCores s
  unfold endWriteback
  dsimp only
  split
  · rfl
  · rw [setFrame_frames]
    rfl

@[simp] theorem pairCores_finishWriteback (d : Nat) : pairCores (finishWriteback s d) = pairCores s := by
  unfold finishWriteback
  dsimp only
  split <;> simp

@[simp] theorem pairCores_cleanFrame (d : Nat) : pairCores (cleanFrame s d) = pairCores s := by
  unfold cleanFrame
  split <;> simp

@[simp] theorem pairCores_sweepPast (b : Nat) (v : Frame_) : pairCores (sweepPast s b v) = pairCores s :=
  pairCores_of_pagingRest (pagingRest_sweepPast b v)

@[simp] theorem pairCores_freeFrame (d : Nat) : pairCores (freeFrame s d) = pairCores s :=
  pairCores_of_pagingRest (pagingRest_freeFrame d)

@[simp] theorem pairCores_clearFrame (d : Nat) : pairCores (clearFrame s d) = pairCores s := rfl

@[simp] theorem pairCores_serveReady : pairCores (serveReady s) = pairCores s := pairCores_of_pagingRest pagingRest_serveReady

@[simp] theorem pairCores_finishFill (d : Nat) : pairCores (finishFill s d) = pairCores s :=
  foldl_pairCores (fun u i => by rw [(fillSector_tier u d i).1]; rfl) _ s

@[simp] theorem pairCores_fillPage (page hint : Nat) : pairCores (fillPage s page hint) = pairCores s := by
  have hfault : pairCores (faultPage s page hint 0) = pairCores s := pairCores_of_pagingRest (pagingRest_faultPage ..)
  unfold fillPage
  dsimp only
  split
  · rw [pairCores_serveReady]
    split
    · exact (pairCores_finishFill _).trans hfault
    · exact hfault
  · exact hfault

theorem pairCores_evictOne {b : Nat} (h : evictOne s b = some t) : pairCores t = pairCores s := by
  unfold evictOne at h
  split at h
  · obtain rfl := Option.some.inj h
    simp
  · split at h
    · obtain rfl := Option.some.inj h
      simp
    · obtain ⟨e, -, rfl⟩ := Option.map_eq_some_iff.mp h
      simp

theorem pairCores_bringFuel (k : Nat) (s : State) (page hint : Nat) : pairCores (bringFuel k s page hint) = pairCores s := by
  induction k generalizing s with
  | zero => rfl
  | succ k ih =>
    unfold bringFuel
    dsimp only
    split
    · exact pairCores_fillPage ..
    · split
      · next t hevict =>
        obtain ⟨r, -, hone⟩ := Option.bind_eq_some_iff.mp hevict
        exact (ih t).trans ((pairCores_evictOne hone).trans (pairCores_fillPage ..))
      · exact pairCores_fillPage ..

@[simp] theorem pairCores_bringPage (page hint : Nat) : pairCores (bringPage s page hint) = pairCores s := by
  have hpiece (u : State) : pairCores (bringPiece u page) = pairCores u := by
    unfold bringPiece
    split
    · split
      · rfl
      · split
        · rw [setFrame_frames]
          rfl
        · rfl
    · rfl
  exact (hpiece _).trans (pairCores_bringFuel ..)

theorem pairCores_devWriteFuel (hint k : Nat) (s : State) (a : Nat) (bs : Bytes) :
    pairCores (devWriteFuel hint k s a bs) = pairCores s := by
  induction k generalizing s a bs with
  | zero => rfl
  | succ k ih =>
    unfold devWriteFuel
    split
    · rfl
    · refine (ih _ _ _).trans ?_
      rw [pairCores_of_pagingRest (pagingRest_touchPage ..), pairCores_of_pagingRest (pagingRest_pageWrite ..), pairCores_bringPage]

@[simp] theorem pairCores_devWriteHint (hint a : Nat) (bs : Bytes) : pairCores (devWriteHint s hint a bs) = pairCores s :=
  (pairCores_devWriteFuel ..).trans (pairCores_of_pagingRest (pagingRest_backInvalidateRange ..))

theorem pairCores_hostRead (addr n : Nat) : pairCores (hostRead s addr n) = pairCores s := by
  unfold hostRead
  split <;> rfl

/-- O58, COPY from the host to the device range. -/
theorem execCopy_of_write {data : Bytes} {m : Media} (ht : ioTakes s q cid 0x08 c) (hok : copyFieldsOk s (ctxOfQueue s q) c = true)
    (hsrc : copySrcDev c = false) (hdst : copyDstDev c = true) (hpages : flashPages s (sqePtr1 c.sqe) (copyLen c) = [])
    (hlen : copyLen c ≤ data.length) (hb : beHeld s = false) :
    Machine.exec (.copy q cid data m) s = .next (progressCtx (endCmd
      (devWriteHint (hostRead s (sqePtr0 c.sqe) (copyLen c)) (copyHint c) (sqePtr1 c.sqe) (data.take (copyLen c))) q c stOk (copyLen c))
      (ctxOfQueue s q)) := by
  have hctx : ctxOfQueue (devWriteHint (hostRead s (sqePtr0 c.sqe) (copyLen c)) (copyHint c) (sqePtr1 c.sqe)
      (data.take (copyLen c))) q = ctxOfQueue s q :=
    ctxOfQueue_of_pairCores ((pairCores_devWriteHint ..).trans (pairCores_hostRead ..)) q
  have hdata : ¬ data.length < copyLen c := by omega
  refine congrArg Host.Outcome.next ((withIo_of_ioTakes ht _).trans ?_)
  simp only [hok, hsrc, hdst, hb, hpages, hdata, hctx, Bool.not_true, Bool.not_false, Bool.true_and, Bool.false_and,
    Bool.false_eq_true, decide_false, if_false, if_true, List.any_nil, Nat.lt_irrefl, List.filter_nil, Bool.or_false, beq_self_eq_true]

/-- Settles O58: the entry that a page takes keeps under the accesses served, a copy reads at its destination as its source, and
the pairs keep their contexts while pages are brought in. -/
theorem tierRows : Obligations.TierRows :=
  ⟨fun _ _ _ _ _ _ _ hr hb hc hk hw hl hf ht => execPageFault_row hr hb hc hk hw hl hf ht,
    fun _ _ _ _ _ hr hh => execPageFault_of_stream hr hh,
    fun _ _ _ _ hw hwf he hf hnew hs hfirst hwait hcustody => execFillSectorArrival_row hw hwf he hf hnew hs hfirst hwait hcustody,
    fun _ _ h hc => execCleanerWriteback_of_few h hc,
    fun _ _ hb => execCleanerWriteback_row hb,
    fun _ _ _ _ _ hw hwf he hs hg hcopies hwaits hcustody => execWritebackDone_row hw hwf he hs hg hcopies hwaits hcustody,
    fun _ _ _ hw hl => execWeightRebuildDone_row hw hl,
    fun _ _ _ _ _ ht hok hsrc hdst hb hclean hhint => execCopy_of_read ht hok hsrc hdst hb hclean hhint,
    fun _ _ _ _ _ _ ht hok hsrc hdst hpages hlen hb => execCopy_of_write ht hok hsrc hdst hpages hlen hb⟩

end Sys2Proof.Machine

/-! SUPPORT. What a reset of the functions leaves of MGMT: its security state and its own domain (R243, log entry 80). -/

namespace Sys2Proof.Machine

open Sys2Proof

variable {s t : State}

/-- MGMT's security state and the domain that it runs in. -/
def mgmtRest (s : State) := (s.sec, domainAt s 0)

theorem mgmtRest_foldl {α : Type} {f : State → α → State} (hf : ∀ t a, mgmtRest (f t a) = mgmtRest t) (l : List α) (s : State) :
    mgmtRest (l.foldl f s) = mgmtRest s := by
  induction l generalizing s with
  | nil => rfl
  | cons a l ih => exact (ih _).trans (hf s a)

/-! Wakes of other domains. -/

theorem mgmtRest_setDomain {d : Domain} (hd : d.num ≠ 0) : mgmtRest (setDomain s d) = mgmtRest s := by
  unfold mgmtRest
  rw [domainAt_setDomain_other _ _ _ (Ne.symm hd)]
  rfl

theorem mgmtRest_wakeOne {n : Nat} (hn : n ≠ 0) (source : Nat) : mgmtRest (wakeOne s n source) = mgmtRest s := by
  have hnum : (domainAt s n).num ≠ 0 := by rwa [num_domainAt]
  unfold wakeOne
  dsimp only
  (repeat' split) <;> simp [mgmtRest_setDomain, hnum]

theorem mgmtRest_startWake {n : Nat} (hn : n ≠ 0) (source : Nat) : mgmtRest (startWake s n source) = mgmtRest s := by
  have hlpc (u : State) : mgmtRest ((List.range 16).foldl (fun st p => wakeOne st (lpcDomain p) 0x08) u) = mgmtRest u :=
    mgmtRest_foldl (fun v p => mgmtRest_wakeOne (by unfold lpcDomain; omega) 0x08) _ u
  have hfab (u : State) (c : Nat) : mgmtRest (wakeOne
      (if wakesFromOff u 3 then (List.range 16).foldl (fun st p => wakeOne st (lpcDomain p) 0x08) u else u) 3 c) = mgmtRest u := by
    rw [mgmtRest_wakeOne (by decide)]
    split
    · exact hlpc u
    · rfl
  unfold startWake
  dsimp only
  split
  · exact hfab s source
  · rw [mgmtRest_wakeOne hn]
    split
    · rfl
    · exact hfab s 0x08

/-! Queues, queries and pegs. -/

@[simp] theorem mgmtRest_updCmd (q cid : Nat) (f : Cmd → Cmd) : mgmtRest (updCmd s q cid f) = mgmtRest s := by
  rw [updCmd_frame]
  rfl

@[simp] theorem mgmtRest_postCompletion (q cid status result : Nat) :
    mgmtRest (postCompletion s q cid status result) = mgmtRest s := by
  rw [postCompletion_frame]
  rfl

@[simp] theorem mgmtRest_failQuery (x : Query) (status : Nat) : mgmtRest (failQuery s x status) = mgmtRest s := by
  rw [failQuery_frame]
  rfl

@[simp] theorem mgmtRest_logError (cls unit detail : Nat) (ctx : Option (Nat × Nat)) :
    mgmtRest (logError s cls unit detail ctx) = mgmtRest s := by
  rw [logError_frame]
  rfl

@[simp] theorem mgmtRest_progressCtx (c : Nat) : mgmtRest (progressCtx s c) = mgmtRest s := rfl

@[simp] theorem mgmtRest_updPeg (p : Nat) (f : Peg → Peg) : mgmtRest (updPeg s p f) = mgmtRest s := rfl

@[simp] theorem mgmtRest_endWait (w : PegWait) (status : Nat) : mgmtRest (endWait s w status) = mgmtRest s := by
  unfold endWait
  dsimp only
  rw [mgmtRest_progressCtx, mgmtRest_postCompletion]
  rfl

@[simp] theorem mgmtRest_serveWait (w : PegWait) (status : Nat) : mgmtRest (serveWait s w status) = mgmtRest s := by
  unfold serveWait
  split
  · simp
  · exact mgmtRest_startWake (by decide) 0x03

@[simp] theorem mgmtRest_wakeWaitingCuts (p : Nat) (v : Word64) : mgmtRest (wakeWaitingCuts s p v) = mgmtRest s := by
  unfold wakeWaitingCuts
  refine mgmtRest_foldl (fun t x => ?_) _ s
  split
  · rfl
  · exact mgmtRest_foldl (fun u c => mgmtRest_foldl (fun w a => mgmtRest_startWake (by unfold arrayDomain; omega) 0x03) _ u) _ t

@[simp] theorem mgmtRest_takePeg (p ctx : Nat) : mgmtRest (takePeg s p ctx) = mgmtRest s := rfl

@[simp] theorem mgmtRest_settlePeg (p : Nat) : mgmtRest (settlePeg s p) = mgmtRest s := by
  unfold settlePeg
  split
  · rfl
  · next x _ =>
    dsimp only
    generalize hu : List.foldl _ (wakeWaitingCuts s p x.value) _ = u
    have hserved : mgmtRest u = mgmtRest s := by
      rw [← hu, mgmtRest_foldl (fun _ _ => mgmtRest_serveWait _ _), mgmtRest_wakeWaitingCuts]
    split
    · exact hserved
    · split
      · exact hserved
      · split <;> simpa using hserved

@[simp] theorem mgmtRest_raisePeg (p : Nat) : mgmtRest (raisePeg s p) = mgmtRest s := by
  unfold raisePeg
  split <;> simp

@[simp] theorem mgmtRest_signalPeg (port p : Nat) : mgmtRest (signalPeg s port p) = mgmtRest s := by
  unfold signalPeg
  rw [mgmtRest_raisePeg]
  unfold pegTurn
  dsimp only
  split <;> rfl

@[simp] theorem mgmtRest_breakPeg (p : Nat) : mgmtRest (breakPeg s p) = mgmtRest s := by
  unfold breakPeg
  dsimp only
  rw [mgmtRest_settlePeg, mgmtRest_foldl (fun _ _ => mgmtRest_endWait _ _)]
  rfl

@[simp] theorem mgmtRest_freePeg (p : Nat) : mgmtRest (freePeg s p) = mgmtRest s := by
  have hruns (u : State) : mgmtRest (endRunsOnPeg u p stPegBroken) = mgmtRest u :=
    mgmtRest_foldl (fun _ _ => mgmtRest_failQuery _ _) _ u
  unfold freePeg
  dsimp only
  exact (hruns _).trans (mgmtRest_foldl (fun _ _ => mgmtRest_endWait _ _) _ _)

@[simp] theorem mgmtRest_freePegsOf (ctx : Nat) : mgmtRest (freePegsOf s ctx) = mgmtRest s :=
  mgmtRest_foldl (fun _ _ => mgmtRest_freePeg _) _ s

@[simp] theorem mgmtRest_breakHeld (ctx : Nat) : mgmtRest (breakHeld s ctx) = mgmtRest s :=
  mgmtRest_foldl (fun _ _ => mgmtRest_breakPeg _) _ s

/-! Requests of rime units. -/

@[simp] theorem mgmtRest_writeResult (cell : Nat) (d : BitVec 256) (bs : Bytes) : mgmtRest (writeResult s cell d bs) = mgmtRest s := by
  unfold writeResult
  (repeat' split) <;> rfl

@[simp] theorem mgmtRest_chargeRequest (r : RimeReq) (u : RimeUnit) (code : Nat) : mgmtRest (chargeRequest s r u code) = mgmtRest s := by
  unfold chargeRequest
  dsimp only
  (repeat' split) <;> rfl

@[simp] theorem mgmtRest_signalRequest (r : RimeReq) (code : Nat) : mgmtRest (signalRequest s r code) = mgmtRest s := by
  unfold signalRequest
  (repeat' split) <;> simp

@[simp] theorem mgmtRest_finishRequest (r : RimeReq) (u : RimeUnit) (code : Nat) : mgmtRest (finishRequest s r u code) = mgmtRest s := by
  unfold finishRequest
  dsimp only
  rw [mgmtRest_signalRequest, mgmtRest_chargeRequest]
  exact mgmtRest_writeResult ..

@[simp] theorem mgmtRest_abortRimeOf (ctx : Nat) : mgmtRest (abortRimeOf s ctx) = mgmtRest s := by
  unfold abortRimeOf
  exact mgmtRest_foldl (fun t b => mgmtRest_foldl (fun _ _ => mgmtRest_finishRequest _ _ _) _ (setRimeBank t _)) _ s

/-! Regions and plans. -/

@[simp] theorem mgmtRest_setFrame (e : Frame_) : mgmtRest (setFrame s e) = mgmtRest s := by
  rw [setFrame_frame]
  rfl

@[simp] theorem mgmtRest_clearFrame (d : Nat) : mgmtRest (clearFrame s d) = mgmtRest s := rfl

@[simp] theorem mgmtRest_dropLocal (fs : List Nat) : mgmtRest (dropLocal s fs) = mgmtRest s :=
  mgmtRest_foldl (fun _ _ => mgmtRest_setFrame _) _ _

@[simp] theorem mgmtRest_dropLeaves : mgmtRest (dropLeaves s) = mgmtRest s :=
  mgmtRest_foldl (fun _ _ => mgmtRest_setFrame _) _ _

@[simp] theorem mgmtRest_refreshLevel (g : Nat) : mgmtRest (refreshLevel s g) = mgmtRest s := by
  unfold refreshLevel
  dsimp only
  split
  · rfl
  · split
    · exact mgmtRest_foldl (fun v k => by split <;> simp) _ _
    · split
      · simp only [mgmtRest_logError]
        rfl
      · rfl

@[simp] theorem mgmtRest_refreshLevels : mgmtRest (refreshLevels s) = mgmtRest s :=
  mgmtRest_foldl (fun _ _ => mgmtRest_refreshLevel _) _ s

@[simp] theorem mgmtRest_releaseRegion (r : Region) (zeroing : Bool) : mgmtRest (releaseRegion s r zeroing) = mgmtRest s := by
  unfold releaseRegion
  dsimp only
  generalize hu : (if zeroing = true then (_ : State) else dropLocal _ _) = u
  have hkept : mgmtRest u = mgmtRest s := by
    rw [← hu]
    cases zeroing
    · refine (mgmtRest_dropLocal _).trans (mgmtRest_foldl (fun v e => ?_) _ s)
      exact (mgmtRest_setFrame _).trans (mgmtRest_clearFrame _)
    · exact mgmtRest_foldl (fun v e => mgmtRest_setFrame _) _ s
  split
  · rw [mgmtRest_refreshLevels, mgmtRest_dropLeaves]
    exact hkept
  · rw [mgmtRest_dropLeaves]
    exact hkept

@[simp] theorem mgmtRest_giveBack (r : Region) : mgmtRest (giveBack s r) = mgmtRest s := mgmtRest_releaseRegion ..

@[simp] theorem mgmtRest_dropRegionAt (base : Nat) : mgmtRest (dropRegionAt s base) = mgmtRest s := by
  unfold dropRegionAt
  split <;> simp

@[simp] theorem mgmtRest_unpinPage (page : Nat) : mgmtRest (unpinPage s page) = mgmtRest s := by
  unfold unpinPage
  split <;> simp

@[simp] theorem mgmtRest_clearSectors (b k : Nat) : mgmtRest (clearSectors s b k) = mgmtRest s := by
  have hpoison (u : State) (d : Nat) : mgmtRest (refreshPoison u d) = mgmtRest u := by
    rw [refreshPoison_frame]
    rfl
  unfold clearSectors
  dsimp only
  split
  · rfl
  · exact mgmtRest_foldl hpoison _ _

@[simp] theorem mgmtRest_dropScratchSet (b : Nat) : mgmtRest (dropScratchSet s b) = mgmtRest s := by
  unfold dropScratchSet
  split
  · rfl
  · split
    · rfl
    · exact mgmtRest_dropRegionAt _

@[simp] theorem mgmtRest_reevalPieces : mgmtRest (reevalPieces s) = mgmtRest s := rfl

/-- A plan's scratch and its sectors are given up. -/
theorem mgmtRest_releasePlan (h : Nat) : mgmtRest (releasePlan s h) = mgmtRest s := by
  have hunpin (p : Plan) : mgmtRest (unpinWeights s p) = mgmtRest s := mgmtRest_foldl (fun _ _ => mgmtRest_unpinPage _) _ s
  have hpegs (l : List Nat) (u : State) : mgmtRest (l.foldl freePeg u) = mgmtRest u := mgmtRest_foldl (fun _ _ => mgmtRest_freePeg _) l u
  unfold releasePlan
  split
  · rfl
  · next p _ =>
    dsimp only
    rw [mgmtRest_reevalPieces, mgmtRest_dropScratchSet]
    refine (hpegs _ _).trans ?_
    split <;> split <;> simp [hunpin]

end Sys2Proof.Machine

/-! SUPPORT. The loss of the link and of the supplies: what stands of MGMT (R243, R257, log entry 80). -/

namespace Sys2Proof.Machine

open Sys2Proof

variable {s t : State}

/-! A reset of the functions. -/

theorem mgmtRest_endContext (ctx : Nat) : mgmtRest (endContext s ctx) = mgmtRest s := by
  have hplans (l : List Plan) (u : State) : mgmtRest (l.foldl (fun st p => releasePlan st p.handle) u) = mgmtRest u :=
    mgmtRest_foldl (fun _ _ => mgmtRest_releasePlan _) l u
  have hregions (l : List Region) (u : State) : mgmtRest (l.foldl giveBack u) = mgmtRest u :=
    mgmtRest_foldl (fun _ _ => mgmtRest_giveBack _) l u
  unfold endContext
  dsimp only
  generalize hu : List.foldl giveBack _ _ = u
  have hkept : mgmtRest u = mgmtRest s := by rw [← hu, hregions, hplans, mgmtRest_freePegsOf, mgmtRest_breakHeld]
  exact hkept

theorem mgmtRest_trimParts (index : Nat) : mgmtRest (trimParts s index) = mgmtRest s := by
  unfold trimParts
  split
  · rfl
  · next x _ => exact mgmtRest_foldl (fun _ (r : PartRegion) => mgmtRest_dropRegionAt r.base) (idleParts x) s

/-- A context that ends is given up when its merge is cut. -/
theorem mgmtRest_ite_endContext (b : Bool) (ctx : Nat) : mgmtRest (if b then endContext s ctx else s) = mgmtRest s := by
  split
  · exact mgmtRest_endContext ctx
  · rfl

theorem mgmtRest_endMerge (index : Nat) (status : Option Nat) : mgmtRest (endMerge s index status) = mgmtRest s := by
  unfold endMerge
  split
  · rfl
  · split
    · rfl
    · dsimp only
      generalize hu : trimParts (updIndex s index _) index = u
      have hkept : mgmtRest u = mgmtRest s := by
        rw [← hu, mgmtRest_trimParts]
        rfl
      cases status with
      | none =>
        dsimp only
        split
        · rw [mgmtRest_ite_endContext, hkept]
        · exact hkept
      | some st =>
        dsimp only
        generalize hv : postCompletion u adminQ _ st _ = v
        have hposted : mgmtRest v = mgmtRest s := by rw [← hv, mgmtRest_postCompletion, hkept]
        split
        · rw [mgmtRest_ite_endContext, hposted]
        · exact hposted

theorem mgmtRest_cutMerges (p : MergeState → Bool) (status : Option Nat) : mgmtRest (cutMerges s p status) = mgmtRest s :=
  mgmtRest_foldl (fun _ _ => mgmtRest_endMerge _ _) _ s

theorem mgmtRest_resetContext (status : Option Nat) (ctx : Nat) : mgmtRest (resetContext status s ctx) = mgmtRest s := by
  unfold resetContext
  dsimp only
  rw [mgmtRest_logError, mgmtRest_endContext]
  exact (mgmtRest_cutMerges _ status).trans (mgmtRest_abortRimeOf ctx)

theorem mgmtRest_resetFunction (status : Option Nat) (fn : Nat) : mgmtRest (resetFunction status s fn) = mgmtRest s := by
  unfold resetFunction dropDeferred
  dsimp only
  exact mgmtRest_foldl (fun _ (c : Ctx) => mgmtRest_resetContext status c.num) _ s

end Sys2Proof.Machine

/-! SUPPORT. The loss of the link, of DRAM and of the main rails: what stands of the pins and of MGMT (R243, R257, R409, log
entry 80). -/

namespace Sys2Proof.Machine

open Sys2Proof

variable {s t : State}

/-! The pins. -/

theorem plainPins_of_gates (h : gatesAre (gates s) t) : plainPins t.pins = plainPins s.pins := h.1

theorem plainPins_resetFunctions (s : State) : plainPins (resetFunctions s).pins = plainPins s.pins := by
  have hreset := gatesAre_foldl (G := gates s) (resetFunction none) (List.range 64) (fun t fn ht => resetFunction_gates none t fn ht) s
    (gatesAre_self s)
  unfold resetFunctions dropAdminCids
  generalize (List.range 64).foldl (resetFunction none) s = u at hreset ⊢
  have hpins := plainPins_of_gates hreset
  exact hpins

theorem updStage_frame (s : State) (f : StageState → StageState) :
    updStage s f = { s with dict := (updStage s f).dict } := rfl

theorem hostLockLost_frame (s : State) : hostLockLost s = { s with
    free := (hostLockLost s).free, out := (hostLockLost s).out, health := (hostLockLost s).health, dict := (hostLockLost s).dict,
    sb := (hostLockLost s).sb } := by
  unfold hostLockLost
  split
  · dsimp only
    split
    · rw [raiseEvent_frame, updStage_frame, writeFit_frame, updStage_frame]
    · rw [updStage_frame]
  · rfl

/-! The link. -/

theorem mgmt_resetFunctions (s : State) : (resetFunctions s).sec.mgmtReady = s.sec.mgmtReady ∧
    domainAt (resetFunctions s) 0 = domainAt s 0 := by
  have hreset : mgmtRest ((List.range 64).foldl (resetFunction none) s) = mgmtRest s :=
    mgmtRest_foldl (fun _ fn => mgmtRest_resetFunction none fn) (List.range 64) s
  unfold resetFunctions dropAdminCids
  generalize (List.range 64).foldl (resetFunction none) s = u at hreset ⊢
  obtain ⟨hsec, hdomain⟩ := Prod.mk.inj hreset
  have hready : u.sec.mgmtReady = s.sec.mgmtReady := by rw [hsec]
  exact ⟨hready, hdomain⟩

theorem linkLost_keeps (s : State) : plainPins (linkLost s).pins = plainPins s.pins ∧
    (linkLost s).sec.mgmtReady = s.sec.mgmtReady ∧ domainAt (linkLost s) 0 = domainAt s 0 ∧ (linkLost s).link.up = false := by
  obtain ⟨hready, hdomain⟩ := mgmt_resetFunctions s
  have hpins := plainPins_resetFunctions s
  unfold linkLost
  rw [hostLockLost_frame]
  generalize resetFunctions s = u at *
  generalize hostLockLost u = v at *
  exact ⟨hpins, hready, hdomain, rfl⟩

/-! DRAM. -/

/-- Frames that are given up or held leave all but the queues, the bays, the tiers and the rime units. -/
theorem movingRest_loseDram (s : State) : movingRest (loseDram s) = movingRest s := by
  unfold loseDram vacateLate
  dsimp only
  rw [foldl_movingRest (fun _ _ => movingRest_holdFrame _)]
  refine (movingRest_tier _).trans ((movingRest_tier _).trans ?_)
  refine (foldl_movingRest (fun t e => ?_) _ _).trans (movingRest_tier _)
  split
  · exact movingRest_setFrame _
  · exact movingRest_freeFrame _

end Sys2Proof.Machine

/-! SUPPORT. The main rails as they fall (R257, R409, log entry 80). -/

namespace Sys2Proof.Machine

open Sys2Proof

variable {s t : State}

/-! The rime units of a module without requests. -/

theorem banks_of_clockBanks (h : clockBanks t = clockBanks s) : t.rime.banks = s.rime.banks := by
  obtain ⟨-, h⟩ := Prod.mk.inj h
  exact (Prod.mk.inj h).2

theorem redirectHome_of_no_banks (h : s.rime.banks = []) (page bank to_ : Nat) : redirectHome s page bank to_ = s := by
  have hbank : (rimeBank s bank).queue = [] := by simp [rimeBank, h]
  unfold redirectHome
  simp [hbank]

theorem banks_moveFrame (h : s.rime.banks = []) (src dst : Nat) (left : FrameState) : (moveFrame s src dst left).rime.banks = [] := by
  unfold moveFrame
  dsimp only
  generalize hu : setMoved _ _ = u
  have hbanks : u.rime.banks = [] := by
    rw [← hu]
    refine (banks_of_clockBanks (s := s) ?_).trans h
    simp
  split
  · rw [redirectHome_of_no_banks hbanks, hbanks]
  · exact hbanks

theorem banks_vacate (h : s.rime.banks = []) (d : Nat) (left : FrameState) : (vacate s d left).rime.banks = [] := by
  have hmove := fun (f : Nat) => banks_moveFrame h d f left
  have hclear (e : Frame_) : (setFrame (clearFrame (freeFrame (cleanFrame s d) d) d) e).rime.banks = [] :=
    (banks_of_clockBanks (s := s) (by simp)).trans h
  have hdrop (e : Frame_) : (setFrame (clearFrame s d) e).rime.banks = [] := (banks_of_clockBanks (s := s) (by simp)).trans h
  have hput (e : Frame_) : (setFrame s e).rime.banks = [] := (banks_of_clockBanks (s := s) (by simp)).trans h
  unfold vacate
  dsimp only
  (repeat' split) <;> simp only [h, hmove, hclear, hdrop, hput]

theorem banks_holdFrame (h : s.rime.banks = []) (d : Nat) : (holdFrame s d).rime.banks = [] := by
  have hvacate := banks_vacate h d .unavailable
  unfold holdFrame
  dsimp only
  (repeat' split) <;> simp only [h, hvacate]

theorem banks_foldl {α : Type} {f : State → α → State} (hf : ∀ t a, t.rime.banks = [] → (f t a).rime.banks = []) (l : List α)
    (h : s.rime.banks = []) : (l.foldl f s).rime.banks = [] := by
  induction l generalizing s with
  | nil => exact h
  | cons a l ih => exact ih (hf s a h)

theorem banks_loseDram (h : s.rime.banks = []) : (loseDram s).rime.banks = [] := by
  unfold loseDram vacateLate
  dsimp only
  refine banks_foldl (fun t d ht => banks_holdFrame ht d) _ ?_
  refine banks_foldl (f := fun st (e : Frame_) => if e.zeroing = true then giveFrameBack st e.num else freeFrame st e.num) (fun t e ht => ?_) _ h
  split
  · exact (banks_of_clockBanks (s := t) (by simp [giveFrameBack])).trans ht
  · exact (banks_of_clockBanks (s := t) (by simp)).trans ht

/-! The rails. -/

/-- The state in which the rails fall: the link is down, the rime units and DRAM are lost. -/
def railsFalling (s : State) : State := loseDram (clearRime (linkLost s))

theorem railsFalling_keeps (s : State) : plainPins (railsFalling s).pins = plainPins s.pins ∧
    (railsFalling s).sec.mgmtReady = s.sec.mgmtReady ∧ domainAt (railsFalling s) 0 = domainAt s 0 ∧
    (railsFalling s).link.up = false ∧ (railsFalling s).rime.banks = [] := by
  obtain ⟨hpins, hready, hdomain, hup⟩ := linkLost_keeps s
  unfold railsFalling
  generalize linkLost s = u at *
  have hbanks : (loseDram (clearRime u)).rime.banks = [] := banks_loseDram (s := clearRime u) rfl
  have hrest := eq_of_movingRest (movingRest_loseDram (clearRime u))
  generalize loseDram (clearRime u) = v at *
  rw [hrest]
  exact ⟨hpins, hready, hdomain, hup, hbanks⟩

/-- The domains as the rails leave them: MGMT's own stands, the others are off. -/
def railDomain (d : Domain) : Domain :=
  if d.num == 0 then d else { d with state := .off, latches := [], edge := none, idleSince := none, due := 0 }

theorem domainAt_railDomain {u : State} (h : u.power.domains = s.power.domains.map railDomain) : domainAt u 0 = domainAt s 0 := by
  have hnum : (fun d : Domain => d.num == 0) ∘ railDomain = fun d => d.num == 0 := by
    funext d
    simp only [Function.comp_apply, railDomain]
    split <;> rfl
  unfold domainAt
  rw [h, List.find?_map, hnum]
  cases hf : s.power.domains.find? (fun d => d.num == 0) with
  | none => rfl
  | some d =>
    have hd := List.find?_some hf
    exact if_pos hd

/-- What stands and what is lost when the rails fall. -/
theorem railsOff_effect (s : State) :
    plainPins (railsOff s).pins = { plainPins s.pins with mainOn := false, clkreqLow := false, poweringDown := false, resetDue := false } ∧
    (railsOff s).link.ready = false ∧ (railsOff s).cells = {} ∧ (railsOff s).adm.queries = [] ∧ (railsOff s).rime.banks = [] ∧
    (railsOff s).sec.mgmtReady = s.sec.mgmtReady ∧ (railsOff s).sec.staging = .empty ∧
    (∀ d ∈ (railsOff s).power.domains, d.num ≠ 0 → d.state = .off) ∧ domainAt (railsOff s) 0 = domainAt s 0 ∧
    ∀ p ∈ (railsOff s).bay.pegs, p.kind = .notice ∧ p.value = 0 := by
  obtain ⟨hpins, hready, hdomain, hup, hbanks⟩ := railsFalling_keeps s
  unfold railsFalling at *
  unfold railsOff
  generalize loseDram (clearRime (linkLost s)) = u at *
  refine ⟨congrArg (fun p : PinState => { p with mainOn := false, clkreqLow := false, poweringDown := false, resetDue := false }) hpins,
    by simp [refreshReady, hup], rfl, rfl, hbanks, hready, rfl, fun d hd hn => ?_, (domainAt_railDomain rfl).trans hdomain,
    fun p hp => ?_⟩
  · obtain ⟨x, -, rfl⟩ := List.mem_map.mp hd
    split at hn
    · next hz => exact absurd (eq_of_beq hz) hn
    · next hz => rw [if_neg hz]
  · obtain ⟨x, hx, rfl⟩ := List.mem_map.mp hp
    exact ⟨by simpa using (List.mem_filter.mp hx).2, rfl⟩

end Sys2Proof.Machine

/-! SUPPORT. The supplies of the module as they come and go (R257, R330, R343, R409). -/

namespace Sys2Proof.Machine

open Sys2Proof

variable {s t : State}

/-! AUX. -/

theorem retryFaults_keeps (s : State) : (retryFaults s).pins = s.pins ∧ (retryFaults s).time = s.time := by
  rw [(eq_of_pagingRest (pagingRest_retryFaults (s := s))).1]
  exact ⟨rfl, rfl⟩

theorem settleHold_keeps (s : State) : (settleHold s).pins = s.pins ∧ (settleHold s).time = s.time := by
  unfold settleHold
  split
  · exact ⟨rfl, rfl⟩
  · exact retryFaults_keeps _
  · exact ⟨rfl, rfl⟩

/-- s with AUX in range, at the tick 0 of a new boot. -/
def auxUp (s : State) (straps : Nat) : State :=
  { s with pins := { s.pins with auxGood := true, slotId := straps % 16 }, time := { bootCount := s.time.bootCount + 1 } }

/-- O43, AUX_POWER_UP. -/
theorem execAuxPowerUp_row (straps : Nat) (h : s.pins.auxGood = false) :
    ∃ t, Machine.exec (.auxPowerUp straps) s = .next t ∧ t.pins.auxGood = true ∧ t.pins.slotId = straps % 16 ∧
      t.time.dtb = 0 ∧ t.time.bootCount = s.time.bootCount + 1 := by
  have hexec : Machine.exec (.auxPowerUp straps) s = .next (settleHold (refreshAlert (auxUp s straps))) :=
    congrArg Host.Outcome.next (if_neg (by simp [h]))
  obtain ⟨hpins, htime⟩ := settleHold_keeps (refreshAlert (auxUp s straps))
  refine ⟨_, hexec, ?_, ?_, ?_, ?_⟩
  · rw [hpins]
    rfl
  · rw [hpins]
    rfl
  · rw [htime]
    rfl
  · rw [htime]
    rfl

theorem mgmtLost_keeps (s : State) : (mgmtLost s).pins = s.pins ∧ (mgmtLost s).adm = s.adm ∧ (mgmtLost s).rime = s.rime ∧
    (mgmtLost s).health.selfTest = s.health.selfTest := by
  have hend : (endStaging s).pins = s.pins ∧ (endStaging s).adm = s.adm ∧ (endStaging s).rime = s.rime ∧
      (endStaging s).health = s.health := by
    unfold endStaging
    split
    · rw [postCompletion_frame]
      exact ⟨rfl, rfl, rfl, rfl⟩
    · exact ⟨rfl, rfl, rfl, rfl⟩
  obtain ⟨hpins, hadm, hrime, hhealth⟩ := hend
  unfold mgmtLost stageAfterRestart
  dsimp only
  generalize endStaging s = u at *
  split <;> exact ⟨hpins, hadm, hrime, congrArg HealthState.selfTest hhealth⟩

/-- s with AUX gone: what AUX alone keeps is lost. -/
def auxDown (s : State) : State :=
  { s with
    pins := { s.pins with auxGood := false, alertLow := false, faultLow := false },
    time := { bootCount := s.time.bootCount, dtb := s.time.dtb },
    link := { s.link with ideFails := 0, ideFailDtb := 0 },
    dict := { s.dict with entries := s.dict.kept, stage := {}, secLock := false, logHost := (1, 0, 0), logSideband := (1, 0, 0) },
    sb := {}, power := {}, tap := {},
    rime := { s.rime with journal := [] },
    health := { s.health with fatal := .none, fatalInfo := none, restarts := [] },
    sec := { s.sec with
      failedBoots := 0, bootState := 0, debugLevel := 0, pending := 0, booted := none, fwRxLen := 0, cfgRxLen := 0,
      evidence := [], evidenceHost := none, evidenceSideband := none } }

/-- O43, AUX_LOSS. -/
theorem execAuxLoss_row (h : s.pins.auxGood = true) :
    ∃ t, Machine.exec .auxLoss s = .next t ∧ t.pins.auxGood = false ∧ t.pins.mainOn = false ∧ t.power = {} ∧ t.sb = {} ∧ t.tap = {} ∧
      t.dict.stage = {} ∧ t.dict.entries = t.dict.kept ∧ t.sec.failedBoots = 0 ∧ t.health.fatal = .none := by
  have hexec : Machine.exec .auxLoss s = .next (auxDown (mgmtLost (if s.pins.mainOn then railsOff s else s))) :=
    congrArg Host.Outcome.next (if_neg (by simp [h]))
  have hoff : (if s.pins.mainOn then railsOff s else s).pins.mainOn = false := by
    by_cases hm : s.pins.mainOn = true
    · rw [if_pos hm]
      exact congrArg PinState.mainOn (railsOff_effect s).1
    · rw [if_neg hm]
      simpa using hm
  have hkept : (mgmtLost (if s.pins.mainOn then railsOff s else s)).pins.mainOn = false :=
    (congrArg PinState.mainOn (mgmtLost_keeps _).1).trans hoff
  generalize mgmtLost (if s.pins.mainOn then railsOff s else s) = u at hexec hkept
  exact ⟨_, hexec, rfl, hkept, rfl, rfl, rfl, rfl, rfl, rfl, rfl⟩

/-! The main rails as they rise. -/

theorem endStaging_of_idle (h : ∀ cid bs, s.sec.staging ≠ .verifying cid bs) : endStaging s = s := by
  unfold endStaging
  split
  · next cid bs hv => exact absurd hv (h cid bs)
  · rfl

/-- A domain that wakes as the rails rise. -/
def risingDomain (s : State) (d : Domain) : Domain :=
  { d with state := .waking, lastWake := 0x0A, lastWakeDtb := now s, fromOff := true, idleSince := none, due := 0 }

/-- u with the domains that the main rails supply waking. -/
def domainsRising (s u : State) (ns : List Nat) : State := ns.foldl (fun st n => setDomain st (risingDomain s (domainAt st n))) u

theorem setDomain_frame (s : State) (d : Domain) : setDomain s d = { s with power := (setDomain s d).power } := rfl

theorem domainsRising_effect (s : State) (ns : List Nat) (u : State) :
    domainsRising s u ns = { u with power := (domainsRising s u ns).power } ∧
    ∀ n, (n ∈ ns ∨ (domainAt u n).state = .waking ∧ (domainAt u n).lastWake = 0x0A) →
      (domainAt (domainsRising s u ns) n).state = .waking ∧ (domainAt (domainsRising s u ns) n).lastWake = 0x0A := by
  unfold domainsRising
  induction ns generalizing u with
  | nil => exact ⟨rfl, fun n h => h.resolve_left (List.not_mem_nil)⟩
  | cons k ns ih =>
    obtain ⟨hframe, hwake⟩ := ih (setDomain u (risingDomain s (domainAt u k)))
    have hnum : (risingDomain s (domainAt u k)).num = k := num_domainAt u k
    refine ⟨?_, fun n hn => hwake n ?_⟩
    · rw [List.foldl_cons, hframe, setDomain_frame]
    · by_cases hk : n = k
      · right
        rw [hk, domainAt_setDomain_num hnum]
        exact ⟨rfl, rfl⟩
      · rw [domainAt_setDomain_other _ _ _ (fun h => hk (h.trans hnum))]
        exact hn.imp_left (fun hm => (List.mem_cons.mp hm).resolve_left hk)

theorem restartFromFlash_of_idle (h : ∀ cid bs, s.sec.staging ≠ .verifying cid bs) : restartFromFlash s = { s with
    dict := (restartFromFlash s).dict, sec := (restartFromFlash s).sec, sb := { s.sb with events := [] },
    health := { s.health with plan := none }, power := (restartFromFlash s).power } := by
  unfold restartFromFlash mgmtLost
  rw [endStaging_of_idle h]
  unfold stageAfterRestart
  dsimp only
  split <;> rfl

theorem restartFromFlash_sec (s : State) : (restartFromFlash s).sec.mgmtReady = false ∧ (restartFromFlash s).sec.booted = none ∧
    (restartFromFlash s).sec.staging = .empty ∧ (restartFromFlash s).sec.evidence = [] := ⟨rfl, rfl, rfl, rfl⟩

/-- What a rise of the main rails leaves. -/
theorem railsOn_effect (hv : ∀ cid bs, s.sec.staging ≠ .verifying cid bs) :
    railsOn s = { s with
      pins := (railsOn s).pins, link := (railsOn s).link, adm := (railsOn s).adm, dict := (railsOn s).dict,
      power := (railsOn s).power, sec := (railsOn s).sec, sb := { s.sb with events := [] }, health := { s.health with plan := none } } ∧
    (railsOn s).pins = { s.pins with mainOn := true, inputLost := false, clkreqLow := s.pins.perstN } ∧
    (railsOn s).sec.mgmtReady = false ∧ (railsOn s).sec.booted = none ∧
    ∀ n ∈ poweredDomains, (domainAt (railsOn s) n).state = .waking ∧ (domainAt (railsOn s) n).lastWake = 0x0A := by
  obtain ⟨hframe, hwake⟩ := domainsRising_effect s poweredDomains (restartFromFlash s)
  have hstart := restartFromFlash_of_idle hv
  obtain ⟨hready, hbooted, -, -⟩ := restartFromFlash_sec s
  unfold railsOn
  dsimp only
  generalize hu : List.foldl _ (restartFromFlash s) poweredDomains = u
  have hrising : u = domainsRising s (restartFromFlash s) poweredDomains := hu.symm
  rw [← hrising] at hframe hwake
  generalize restartFromFlash s = v at *
  refine ⟨?_, ?_, ?_, ?_, fun n hn => hwake n (.inl hn)⟩
  · rw [hframe, hstart]
  · rw [hframe, hstart]
  · rw [hframe]
    exact hready
  · rw [hframe]
    exact hbooted

end Sys2Proof.Machine

/-! SUPPORT. The main input, PWR_EN and PERST_N (R257, R409, log entry 80). -/

namespace Sys2Proof.Machine

open Sys2Proof

variable {s t : State}

/-! The rails as they are asked for. -/

theorem tryPower_of_ready (h : s.pins.pwrEn = true) (ha : s.pins.auxGood = true) (hi : s.pins.inputInRange = true)
    (hm : s.pins.mainOn = false) : tryPower s = railsOn s := if_pos (by simp [h, ha, hi, hm])

theorem tryPower_of_off (h : s.pins.pwrEn = false) : tryPower s = s := if_neg (by simp [h])

/-- O43, PWR_EN rises. -/
theorem execPwrEnRise_row (ha : s.pins.auxGood = true) (hi : s.pins.inputInRange = true) (hm : s.pins.mainOn = false)
    (hv : ∀ cid bs, s.sec.staging ≠ .verifying cid bs) :
    ∃ t, Machine.exec .pwrEnRise s = .next t ∧
      t = { s with
        pins := t.pins, link := t.link, adm := t.adm, dict := t.dict, power := t.power, sec := t.sec,
        sb := { s.sb with events := [] }, health := { s.health with plan := none } } ∧
      t.pins.pwrEn = true ∧ t.pins.mainOn = true ∧ t.sec.mgmtReady = false ∧
      t.sec.booted = none ∧ t.time = s.time ∧
      ∀ n ∈ poweredDomains, (domainAt t n).state = .waking ∧ (domainAt t n).lastWake = 0x0A := by
  have hexec : Machine.exec .pwrEnRise s = .next (railsOn { s with pins := { s.pins with pwrEn := true } }) :=
    congrArg Host.Outcome.next (tryPower_of_ready (s := { s with pins := { s.pins with pwrEn := true } }) rfl ha hi hm)
  obtain ⟨hframe, hpins, hready, hbooted, hwake⟩ := railsOn_effect (s := { s with pins := { s.pins with pwrEn := true } }) hv
  generalize railsOn { s with pins := { s.pins with pwrEn := true } } = t at *
  refine ⟨t, hexec, hframe, ?_, ?_, hready, hbooted, ?_, hwake⟩
  · rw [hpins]
  · rw [hpins]
  · rw [hframe]

/-- O43, the return of the main input. -/
theorem execMainInputReturn_row {mv : Nat} (hlo : 40000 ≤ mv) (hhi : mv ≤ 60000) (hp : s.pins.pwrEn = true)
    (ha : s.pins.auxGood = true) (hm : s.pins.mainOn = false) (hv : ∀ cid bs, s.sec.staging ≠ .verifying cid bs) :
    ∃ t, Machine.exec (.mainInputReturn mv) s = .next t ∧
      t = { s with
        pins := t.pins, link := t.link, adm := t.adm, dict := t.dict, power := t.power, sec := t.sec,
        sb := { s.sb with events := [] }, health := { s.health with plan := none } } ∧
      t.pins.inputInRange = true ∧ t.pins.mainOn = true ∧
      t.pins.inputLost = false := by
  have hexec : Machine.exec (.mainInputReturn mv) s =
      .next (railsOn { s with pins := { s.pins with inputInRange := true, inputLost := false } }) :=
    congrArg Host.Outcome.next ((if_pos (by simp [hlo, hhi])).trans
      (tryPower_of_ready (s := { s with pins := { s.pins with inputInRange := true, inputLost := false } }) hp ha rfl hm))
  obtain ⟨hframe, hpins, -, -, -⟩ := railsOn_effect (s := { s with pins := { s.pins with inputInRange := true, inputLost := false } }) hv
  generalize railsOn { s with pins := { s.pins with inputInRange := true, inputLost := false } } = t at *
  refine ⟨t, hexec, hframe, ?_, ?_, ?_⟩ <;> rw [hpins]

/-! The fall of PWR_EN. -/

/-- s with PWR_EN low and the power-down begun. -/
def poweringDown (s : State) : State :=
  if s.pins.poweringDown then { s with pins := { s.pins with pwrEn := false } }
  else { s with pins := { s.pins with pwrEn := false, poweringDown := true, downSince := now s }, adm := { s.adm with stopped := true } }

/-- Every best-effort context ends; the latency-critical queries run on. -/
def bestEffortEnded (s : State) : State :=
  refreshReady ((beContexts (poweringDown s)).foldl tearDown (poweringDown s))

theorem execPwrEnFall_of_on (hm : s.pins.mainOn = true) : Machine.exec .pwrEnFall s =
    .next (if lcLeft (bestEffortEnded s) then bestEffortEnded s else finishPowerDown (bestEffortEnded s)) :=
  congrArg Host.Outcome.next (if_neg (by simp [hm]))

theorem bestEffortEnded_keeps (hs : s.pins.poweringDown = true → s.adm.stopped = true) :
    (bestEffortEnded s).pins.pwrEn = false ∧ (bestEffortEnded s).pins.poweringDown = true ∧ (bestEffortEnded s).adm.stopped = true ∧
    (bestEffortEnded s).link.ready = false := by
  have hbegun : (poweringDown s).pins.pwrEn = false ∧ (poweringDown s).pins.poweringDown = true ∧ (poweringDown s).adm.stopped = true := by
    unfold poweringDown
    split
    · next h => exact ⟨rfl, h, hs h⟩
    · exact ⟨rfl, rfl, rfl⟩
  have hgates := gatesAre_foldl (G := gates (poweringDown s)) tearDown (beContexts (poweringDown s))
    (fun t c ht => tearDown_gates t c ht) (poweringDown s) (gatesAre_self _)
  unfold bestEffortEnded
  generalize (beContexts (poweringDown s)).foldl tearDown (poweringDown s) = u at hgates ⊢
  obtain ⟨hpins, -, -, hstop, -⟩ := hgates
  obtain ⟨hoff, hdown, hstopped⟩ := hbegun
  have hdown' : u.pins.poweringDown = true := (congrArg PinState.poweringDown hpins).trans hdown
  refine ⟨(congrArg PinState.pwrEn hpins).trans hoff, hdown', hstop.trans hstopped, ?_⟩
  simp [refreshReady, hdown']

/-- O43, PWR_EN falls. -/
theorem execPwrEnFall_row (hm : s.pins.mainOn = true) (hs : s.pins.poweringDown = true → s.adm.stopped = true) :
    ∃ t, Machine.exec .pwrEnFall s = .next t ∧ t.pins.pwrEn = false ∧ t.link.ready = false ∧
      (t.pins.mainOn = false ∨ t.pins.poweringDown = true ∧ t.adm.stopped = true ∧ lcLeft t = true) := by
  have hexec := execPwrEnFall_of_on hm
  obtain ⟨hoff, hdown, hstopped, hready⟩ := bestEffortEnded_keeps hs
  generalize bestEffortEnded s = u at *
  by_cases hlc : lcLeft u = true
  · rw [if_pos hlc] at hexec
    exact ⟨u, hexec, hoff, hready, .inr ⟨hdown, hstopped, hlc⟩⟩
  · obtain ⟨hpins, hready', -⟩ := railsOff_effect u
    rw [if_neg hlc, finishPowerDown] at hexec
    generalize railsOff u = r at *
    have hlow : r.pins.pwrEn = false := (congrArg PinState.pwrEn hpins).trans hoff
    have hmain : r.pins.mainOn = false := congrArg PinState.mainOn hpins
    rw [tryPower_of_off hlow] at hexec
    exact ⟨r, hexec, hlow, hready', .inl hmain⟩

/-- O43, the loss of the main input. -/
theorem execMainPowerLoss_row (hm : s.pins.mainOn = true) :
    ∃ t, Machine.exec .mainPowerLoss s = .next t ∧ t.pins.mainOn = false ∧ t.pins.inputLost = true ∧ t.link.ready = false ∧
      t.cells = {} ∧ t.adm.queries = [] ∧ t.rime.banks = [] ∧ t.sec.mgmtReady = s.sec.mgmtReady ∧ t.sec.staging = .empty ∧
      (∀ d ∈ t.power.domains, d.num ≠ 0 → d.state = .off) ∧ (domainAt t 0).state = (domainAt s 0).state ∧
      ∀ p ∈ t.bay.pegs, p.kind = .notice ∧ p.value = 0 := by
  have hexec : Machine.exec .mainPowerLoss s = .next (railsOff { s with
      pins := { s.pins with inputInRange := false, inputLost := s.pins.mainOn || s.pins.inputLost } }) :=
    congrArg Host.Outcome.next (if_pos hm)
  obtain ⟨hpins, hready, hcells, hqueries, hbanks, hmgmt, hstaging, hdomains, hzero, hpegs⟩ := railsOff_effect { s with
    pins := { s.pins with inputInRange := false, inputLost := s.pins.mainOn || s.pins.inputLost } }
  generalize railsOff { s with pins := { s.pins with inputInRange := false, inputLost := s.pins.mainOn || s.pins.inputLost } } = t at *
  have hmain : t.pins.mainOn = false := congrArg PinState.mainOn hpins
  have hlost : t.pins.inputLost = (s.pins.mainOn || s.pins.inputLost) := congrArg PinState.inputLost hpins
  exact ⟨t, hexec, hmain, by rw [hlost, hm, Bool.true_or], hready, hcells, hqueries, hbanks, hmgmt, hstaging, hdomains,
    congrArg Domain.state hzero, hpegs⟩

/-! PERST_N. -/

/-- A start of the firmware leaves MGMT as it boots. -/
theorem resetStart_keeps (s : State) : (resetStart s).health.selfTest = s.health.selfTest ∧ (resetStart s).adm = s.adm ∧
    (resetStart s).rime = s.rime ∧ (resetStart s).pins.faultLow = s.pins.faultLow ∧ (resetStart s).sec.mgmtReady = false ∧
    (resetStart s).sec.booted = none ∧ (resetStart s).sec.staging = .empty ∧ (resetStart s).sec.evidence = [] := by
  obtain ⟨hpins, hadm, hrime, htest⟩ := mgmtLost_keeps s
  obtain ⟨hready, hbooted, hstaging, hevidence⟩ := restartFromFlash_sec s
  have hstart : (restartFromFlash s).pins = (mgmtLost s).pins ∧ (restartFromFlash s).adm = (mgmtLost s).adm ∧
      (restartFromFlash s).rime = (mgmtLost s).rime ∧ (restartFromFlash s).health = (mgmtLost s).health := ⟨rfl, rfl, rfl, rfl⟩
  obtain ⟨hpins', hadm', hrime', hhealth'⟩ := hstart
  unfold resetStart dictDefaults refreshAlert
  generalize restartFromFlash s = u at *
  have hfault : u.pins.faultLow = s.pins.faultLow := by rw [hpins', hpins]
  have hself : u.health.selfTest = s.health.selfTest := by rw [hhealth', htest]
  exact ⟨hself, hadm'.trans hadm, hrime'.trans hrime, hfault, hready, hbooted, hstaging, hevidence⟩

/-- A module reset ends in a start of a module without queries, self-test and requests. -/
theorem moduleReset_start (s : State) : ∃ v : State, v.health.selfTest = none ∧ v.adm.queries = [] ∧ v.rime.banks = [] ∧
    v.pins.faultLow = false ∧ moduleReset s = refreshReady { resetStart v with
      link := { (resetStart v).link with training := false }, tap := { (resetStart v).tap with marked := [] } } :=
  ⟨_, rfl, rfl, rfl, rfl, rfl⟩

/-- O43, PERST_N falls. -/
theorem execPerstNAssert_row (hp : s.pins.perstN = true) (hm : s.pins.mainOn = true) (hf : s.health.fatal = .none) :
    ∃ t, Machine.exec .perstNAssert s = .next t ∧ t.link.ready = false ∧ t.health.selfTest = none ∧ t.adm.queries = [] ∧
      t.sec.mgmtReady = false ∧ t.sec.booted = none ∧ t.sec.staging = .empty ∧ t.sec.evidence = [] ∧ t.rime.banks = [] ∧
      t.tap.marked = [] ∧ t.pins.faultLow = false := by
  have hexec : Machine.exec .perstNAssert s = .next (moduleReset { s with pins := { s.pins with perstN := false } }) :=
    congrArg Host.Outcome.next ((if_neg (by simp [hp])).trans ((if_neg (by simp [hm])).trans (if_neg (by simp [hf]))))
  obtain ⟨v, htest, hqueries, hbanks, hfault, hreset⟩ := moduleReset_start { s with pins := { s.pins with perstN := false } }
  obtain ⟨htest', hadm, hrime, hfault', hready, hbooted, hstaging, hevidence⟩ := resetStart_keeps v
  rw [hreset] at hexec
  generalize resetStart v = u at *
  exact ⟨_, hexec, ready_of_not_mgmtReady hready, htest'.trans htest, (congrArg AdmState.queries hadm).trans hqueries, hready, hbooted,
    hstaging, hevidence, (congrArg RimeState.banks hrime).trans hbanks, rfl, hfault'.trans hfault⟩

/-- O43, PERST_N rises while the main rails are off. -/
theorem execPerstNRelease_row (hp : s.pins.perstN = false) (hm : s.pins.mainOn = false) :
    ∃ t, Machine.exec .perstNRelease s = .next t ∧ t = { s with pins := t.pins, link := t.link, tap := t.tap } ∧
      t.pins.perstN = true ∧ t.link.training = false ∧ t.tap.driven = false ∧ t.tap.highZ = false ∧ t.tap.loop = none ∧
      t.tap.halted = false := by
  have hoff : ¬ s.pins.mainOn = true := by simp [hm]
  refine ⟨_, congrArg Host.Outcome.next ((if_neg (by simp [hp])).trans (if_neg hoff)), rfl, rfl, ?_, rfl, rfl, rfl, rfl⟩
  simp [hm]

/-- Settles O43: the pins stand over the resets of the functions, MGMT's state over the loss of the link and of DRAM, and each
domain wakes as the rails rise. -/
theorem supplyRows : Obligations.SupplyRows :=
  ⟨fun _ straps h => execAuxPowerUp_row straps h, fun _ h => execAuxLoss_row h, fun _ ha hi hm hv => execPwrEnRise_row ha hi hm hv,
    fun _ hm hs => execPwrEnFall_row hm hs, fun _ hm => execMainPowerLoss_row hm,
    fun _ _ hlo hhi hp ha hm hv => execMainInputReturn_row hlo hhi hp ha hm hv,
    fun _ hp hm hf => execPerstNAssert_row hp hm hf, fun _ hp hm => execPerstNRelease_row hp hm⟩

end Sys2Proof.Machine
